-- ==== Sys2Proof/Word.lean ====
section
/-! DEFINITION. The word types of the machine and their plainest arithmetic (spec 00_scope.md, R2, R3). -/

namespace Sys2Proof

/-- One byte of memory. -/
abbrev Byte := BitVec 8

/-- A 32-bit register lane or instruction word. -/
abbrev Word := BitVec 32

/-- A 64-bit value: an address, a mask over lanes, a system register. -/
abbrev Dword := BitVec 64

end Sys2Proof
end

