-- ==== Sys2Proof/Syntax.lean ====
section
/-! DEFINITION. The instructions and events of the Nyxus Jasko: one constructor of `Instr` per row of
spec/opcode_table.json. Rows with an encoding are instructions (09_encoding.md, R193 to R212); rows
without one are the device's events (95_what_each_step_holds.md), whose arguments say which object of
the state the event is about. -/

namespace Sys2Proof

/-! ## Operand fields (09, R194 to R206) -/

/-- A vector register v0 to v63 of the current window, or a tile z0 to z63. -/
abbrev Reg := Fin 64

/-- A permute selector: 0 identity, 1 to 3 the slots PS1 to PS3 (R167, R196). -/
abbrev Sel := Fin 4

/-- A mask register k0 to k7, frame f0 to f7 or ring g0 to g7. -/
abbrev Low := Fin 8

/-- The lookahead promise LA (R197). -/
abbrev Ahead := Fin 16

/-- Conditions of CMP, CMPI and SCMP (R201). -/
inductive ICond where
  | eq | ne | lt | le | gt | ge | bs | bc
  deriving DecidableEq, Repr

/-- Conditions of FCMP (R201). -/
inductive FCond where
  | eq | ne | lt | le | gt | ge | un | or
  deriving DecidableEq, Repr

/-- Branch conditions (R205). -/
inductive BCond where
  | always | t | f | z | nz | full | nfull
  deriving DecidableEq, Repr

/-- Roundings of FRND's sub2 field (R234). -/
inductive FRndMode where
  | gmode | rz | up | down
  deriving DecidableEq, Repr

/-- Modes of SHFL (R240). -/
inductive ShflMode where
  | idx | up | dn | xor
  deriving DecidableEq, Repr

/-- Operations of WRED and WSCAN (R243). -/
inductive RedOp where
  | add | min | max | and | or | xor
  deriving DecidableEq, Repr

/-- Access sizes (R204, SIZE). -/
inductive Size where
  | i8 | n8 | i16 | n16 | b32 | b64 | b128
  deriving DecidableEq, Repr

/-- Ordered access sizes (R204, OSIZE). -/
inductive OSize where
  | b32 | b64 | b128
  deriving DecidableEq, Repr

/-- Cache hints (R204, CH). -/
inductive Hint where
  | dflt | ef | nl
  deriving DecidableEq, Repr

/-- Scopes (R130). -/
inductive Scope where
  | wave | wg | gang | die | dev | sys
  deriving DecidableEq, Repr

/-- Orderings of the atomics (R204, ORD). -/
inductive Order where
  | plain | acq | rel | ar
  deriving DecidableEq, Repr

/-- Outstanding-operation counters (R139). -/
inductive Counter where
  | m | c | x | s
  deriving DecidableEq, Repr

/-- Directions of FENCEX (R144). -/
inductive FenceDir where
  | o2e | e2o
  deriving DecidableEq, Repr

/-- Element types of GMODE.TY (R165); also the destination codes of CVT. -/
inductive Ty where
  | i32 | n32 | i16x2 | n16x2 | i8x4 | n8x4 | f32 | f16x2 | bf16x2 | e4m3x4 | e5m2x4 | i64 | n64 | f64
  deriving DecidableEq, Repr

/-! ## Arguments of events -/

/-- The agent of an access, as a scope record names it (R83). -/
structure Agent where
  pkg  : Nat
  die  : Nat
  clu  : Nat
  core : Nat
  wgt  : Nat
  ggt  : Nat
  wave : Nat
  deriving DecidableEq, Repr

/-- The operation an atomic performs at home (R297, R298). -/
inductive AtomOp where
  | add | min | max | and | or | xor | xchg | cas | fadd | inc
  deriving DecidableEq, Repr

/-- An atomic as a request carries it: what it does, its type, its data and compare values. -/
structure Atom where
  op   : AtomOp
  ty   : Ty
  data : Dword
  cmp  : Dword
  deriving DecidableEq, Repr

/-- The scope information of an ordered access (R83, R84): agent, scope after R63, launch tag, flag. -/
structure ScopeInfo where
  agent   : Agent
  scope   : Scope
  tag     : Nat
  precise : Bool
  deriving DecidableEq, Repr

/-- Who waits for a request's answer. -/
inductive Requester where
  | op (id : Nat)                      -- an outstanding memory operation of a wave
  | seg (core : Nat) (copy : Nat) (seg : Nat) (sector : Nat)   -- a sector of a copy segment
  | cache (core : Nat)                 -- the local-store cache itself (DROP, WBACK, CKIN)
  | host (tag : Nat)                   -- the host
  | peer (tag : Nat) (part : Option Nat)   -- a peer package, by its request's tag; the partition that serves it (R95)
  | device                             -- the device itself, no answer is awaited
  deriving DecidableEq, Repr

/-- A request to the home of a line (R57): who asks, from which core, the line, the lanes it serves, the
bytes it writes (offset in the line and value), the page's class, policy and way partition. -/
structure HomeReq where
  who    : Requester
  core   : Nat
  line   : Nat
  lanes  : List Nat
  bytes  : List (Nat × Byte)
  need   : List Nat
  atom   : Option Atom
  scope  : Option ScopeInfo
  cc     : Nat
  cp     : Nat
  wp     : Nat
  poison : List Nat                    -- sectors of the line whose written bytes are poisoned (R385)
  deriving DecidableEq, Repr

/-- A grant or completion on its way back to the requester (R69). -/
structure Reply where
  who    : Requester
  core   : Nat
  line   : Nat
  lanes  : List Nat
  data   : List Byte
  old    : Dword
  expiry : Nat
  lh     : Nat
  wct    : Nat
  leased : Bool
  keep   : Bool
  bare   : Bool
  deriving DecidableEq, Repr

/-- A unit on its way into a parked record (13, R324 to R328): its die, its 8-byte words, the poison of its 4-byte words
(offset, origin, address; R386), and the keys on which it enters the fault buffer. -/
structure ParkImage where
  die     : Nat
  cluster : Nat
  kind    : Nat
  cls     : Nat
  wave    : Nat
  unit    : Nat
  words   : List (Nat × Dword)
  marks   : List (Nat × Nat × Nat)
  status  : Nat
  entries : List Nat
  deriving DecidableEq, Repr

/-- Who pushes a task record (13, R322). -/
inductive Pusher where
  | wave (id : Nat)
  | copy (core : Nat) (slot : Nat)
  | window (die : Nat) (slot : Nat)
  | router (die : Nat) (index : Nat) (alternate : Bool)
  | device
  | peer (pkg : Nat)
  deriving DecidableEq, Repr

/-- A task record under push: its eight words, queue word, dependence count, source VA. -/
structure Push where
  by_    : Pusher
  words  : List Dword
  qw     : Word
  count  : Nat
  failed : Bool
  src    : Dword
  priv   : Bool
  die    : Nat
  deriving DecidableEq, Repr

/-- A successor signal (13, R323): from a task of this package, or 0 where another package sends it; to a die of a
package. -/
structure Signal where
  task   : Nat
  src    : Dword
  failed : Bool
  pkg    : Nat
  die    : Nat
  deriving DecidableEq, Repr

/-- A page walk (R41): the cluster and context that asked, its ASID and the 64 KiB page VA[56:16]. -/
structure WalkKey where
  cluster : Nat
  ctx     : Nat
  asid    : Nat
  page    : Nat
  deriving DecidableEq, Repr

/-- A window access to a core's local store or accumulator memory (R104). `raw` marks an address whose half of a
shadowed range is already chosen. -/
structure WindowAccess where
  who   : Requester
  raw   : Bool
  pa    : Nat
  lanes : List Nat
  size  : Nat
  bytes : List (Nat × Byte)
  atom  : Option Atom
  deriving DecidableEq, Repr

/-- How a scan pattern, a migration copy or a scrubbed sector turned out. -/
inductive CopyEnd where
  | good | badSource | badDest
  deriving DecidableEq, Repr

/-- What the scrubber finds in a sector (R392). -/
inductive ScrubFind where
  | clean | correctable | uncorrectable | tagMismatch
  deriving DecidableEq, Repr

/-- Whom a Tosor completion timeout meets (R319, R323, R330, R384, R428). -/
inductive TosorWait where
  | op (id : Nat)
  | wave (id : Nat)
  | push (p : Push)
  | task (id : Nat)
  | seg (core : Nat) (copy : Nat) (seg : Nat)
  deriving DecidableEq, Repr

/-- The instructions and events, one constructor per row of spec/opcode_table.json, in its order but for the events
that only an outside agent brings, which stand last.
The docstring of a constructor names the row and the rule that governs it. -/
inductive Instr where
  /-- ADD (R225). -/
  | add (d : Reg) (p : Sel) (a : Reg) (q : Sel) (b : Reg)
  /-- SUB (R225). -/
  | sub (d : Reg) (p : Sel) (a : Reg) (q : Sel) (b : Reg)
  /-- ADDC (R225). -/
  | addc (d : Reg) (p : Sel) (a : Reg) (q : Sel) (b : Reg)
  /-- SUBB (R225). -/
  | subb (d : Reg) (p : Sel) (a : Reg) (q : Sel) (b : Reg)
  /-- MUL (R225). -/
  | mul (d : Reg) (p : Sel) (a : Reg) (q : Sel) (b : Reg)
  /-- MULH (R225). -/
  | mulh (d : Reg) (p : Sel) (a : Reg) (q : Sel) (b : Reg)
  /-- ABSD (R225). -/
  | absd (d : Reg) (p : Sel) (a : Reg) (q : Sel) (b : Reg)
  /-- AVG (R225). -/
  | avg (d : Reg) (p : Sel) (a : Reg) (q : Sel) (b : Reg)
  /-- MIN (R225). -/
  | min (d : Reg) (p : Sel) (a : Reg) (q : Sel) (b : Reg)
  /-- MAX (R225). -/
  | max (d : Reg) (p : Sel) (a : Reg) (q : Sel) (b : Reg)
  /-- SATADD (R225). -/
  | satadd (d : Reg) (p : Sel) (a : Reg) (q : Sel) (b : Reg)
  /-- SATSUB (R225). -/
  | satsub (d : Reg) (p : Sel) (a : Reg) (q : Sel) (b : Reg)
  /-- AND (R226). -/
  | and (d : Reg) (p : Sel) (a : Reg) (q : Sel) (b : Reg)
  /-- OR (R226). -/
  | or (d : Reg) (p : Sel) (a : Reg) (q : Sel) (b : Reg)
  /-- XOR (R226). -/
  | xor (d : Reg) (p : Sel) (a : Reg) (q : Sel) (b : Reg)
  /-- ANDN (R226). -/
  | andn (d : Reg) (p : Sel) (a : Reg) (q : Sel) (b : Reg)
  /-- ORN (R226). -/
  | orn (d : Reg) (p : Sel) (a : Reg) (q : Sel) (b : Reg)
  /-- ROL (R227). -/
  | rol (d : Reg) (p : Sel) (a : Reg) (q : Sel) (b : Reg)
  /-- FSHR (R227). -/
  | fshr (d : Reg) (p : Sel) (a : Reg) (q : Sel) (b : Reg)
  /-- SHL (R227). -/
  | shl (d : Reg) (p : Sel) (a : Reg) (q : Sel) (b : Reg)
  /-- SHR (R227). -/
  | shr (d : Reg) (p : Sel) (a : Reg) (q : Sel) (b : Reg)
  /-- SAR (R227). -/
  | sar (d : Reg) (p : Sel) (a : Reg) (q : Sel) (b : Reg)
  /-- POPC (R227). -/
  | popc (d : Reg) (p : Sel) (a : Reg)
  /-- CLZ (R227). -/
  | clz (d : Reg) (p : Sel) (a : Reg)
  /-- CTZ (R227). -/
  | ctz (d : Reg) (p : Sel) (a : Reg)
  /-- BREV (R227). -/
  | brev (d : Reg) (p : Sel) (a : Reg)
  /-- BFX (R228). -/
  | bfx (d : Reg) (p : Sel) (a : Reg) (q : Sel) (b : Reg)
  /-- BMSK (R228). -/
  | bmsk (d : Reg) (p : Sel) (a : Reg) (q : Sel) (b : Reg)
  /-- CMP (R230). -/
  | cmp (c : ICond) (kd : Low) (p : Sel) (a : Reg) (q : Sel) (b : Reg)
  /-- SCMP (R230). -/
  | scmp (c : ICond) (p : Sel) (a : Reg) (q : Sel) (b : Reg)
  /-- SEL_K0_K3 (R232). -/
  | selK03 (d : Reg) (p : Sel) (a : Reg) (q : Sel) (b : Reg) (m : Fin 4)
  /-- SEL_K4_K7 (R232). -/
  | selK47 (d : Reg) (p : Sel) (a : Reg) (q : Sel) (b : Reg) (m : Fin 4)
  /-- FADD (R233). -/
  | fadd (d : Reg) (p : Sel) (a : Reg) (q : Sel) (b : Reg)
  /-- FSUB (R233). -/
  | fsub (d : Reg) (p : Sel) (a : Reg) (q : Sel) (b : Reg)
  /-- FMUL (R233). -/
  | fmul (d : Reg) (p : Sel) (a : Reg) (q : Sel) (b : Reg)
  /-- FMIN (R233). -/
  | fmin (d : Reg) (p : Sel) (a : Reg) (q : Sel) (b : Reg)
  /-- FMAX (R233). -/
  | fmax (d : Reg) (p : Sel) (a : Reg) (q : Sel) (b : Reg)
  /-- FSCALE (R233). -/
  | fscale (d : Reg) (p : Sel) (a : Reg) (q : Sel) (b : Reg)
  /-- FNEG (R233). -/
  | fneg (d : Reg) (p : Sel) (a : Reg)
  /-- FABS (R233). -/
  | fabs (d : Reg) (p : Sel) (a : Reg)
  /-- FFRACT (R233). -/
  | ffract (d : Reg) (p : Sel) (a : Reg)
  /-- FCLASS (R235). -/
  | fclass (d : Reg) (p : Sel) (a : Reg)
  /-- FRND (R234). -/
  | frnd (d : Reg) (p : Sel) (a : Reg) (r : FRndMode)
  /-- FCMP (R231). -/
  | fcmp (c : FCond) (kd : Low) (p : Sel) (a : Reg) (q : Sel) (b : Reg)
  /-- CVT (R236). -/
  | cvt (d : Reg) (p : Sel) (a : Reg) (t : Ty) (rz : Bool)
  /-- PACK (R237). -/
  | pack (d : Reg) (p : Sel) (a : Reg) (q : Sel) (b : Reg)
  /-- UNPK (R237). -/
  | unpk (d : Reg) (p : Sel) (a : Reg) (q : Sel) (b : Reg)
  /-- SAT (R238). -/
  | sat (d : Reg) (p : Sel) (a : Reg)
  /-- SHFL (R240). -/
  | shfl (d : Reg) (p : Sel) (a : Reg) (q : Sel) (b : Reg) (m : ShflMode)
  /-- QXH (R241). -/
  | qxh (d : Reg) (p : Sel) (a : Reg)
  /-- QXV (R241). -/
  | qxv (d : Reg) (p : Sel) (a : Reg)
  /-- QXD (R241). -/
  | qxd (d : Reg) (p : Sel) (a : Reg)
  /-- QBC (R241). -/
  | qbc (d : Reg) (p : Sel) (a : Reg) (n : Fin 4)
  /-- QSWZ (R241). -/
  | qswz (d : Reg) (p : Sel) (a : Reg) (hi6 : Fin 64) (lo2 : Fin 4)
  /-- WRED (R243). -/
  | wred (d : Reg) (p : Sel) (a : Reg) (op : RedOp)
  /-- WSCAN (R243). -/
  | wscan (d : Reg) (p : Sel) (a : Reg) (op : RedOp) (excl : Bool)
  /-- KAND (R244). -/
  | kand (kd : Low) (ka : Low) (kb : Low)
  /-- KOR (R244). -/
  | kor (kd : Low) (ka : Low) (kb : Low)
  /-- KXOR (R244). -/
  | kxor (kd : Low) (ka : Low) (kb : Low)
  /-- KANDN (R244). -/
  | kandn (kd : Low) (ka : Low) (kb : Low)
  /-- KNOT (R244). -/
  | knot (kd : Low) (ka : Low)
  /-- KMOV (R244). -/
  | kmov (kd : Low) (ka : Low)
  /-- KPOPC (R244). -/
  | kpopc (d : Reg) (ka : Low)
  /-- KFFS (R244). -/
  | kffs (d : Reg) (ka : Low)
  /-- EXMRD (R245). -/
  | exmrd (kd : Low)
  /-- EXMWR (R245). -/
  | exmwr (ka : Low)
  /-- MOV (R246). -/
  | mov (d : Reg) (p : Sel) (a : Reg)
  /-- SREAD (R171). -/
  | sread (d : Reg) (n : Fin 64)
  /-- HLPRD (R242). -/
  | hlprd (d : Reg) (p : Sel) (a : Reg)
  /-- FMA (R250). -/
  | fma (d : Reg) (a : Reg) (b : Reg) (c : Reg) (p : Sel)
  /-- FMS (R250). -/
  | fms (d : Reg) (a : Reg) (b : Reg) (c : Reg) (p : Sel)
  /-- FNMA (R250). -/
  | fnma (d : Reg) (a : Reg) (b : Reg) (c : Reg) (p : Sel)
  /-- MAD (R251). -/
  | mad (d : Reg) (a : Reg) (b : Reg) (c : Reg) (p : Sel)
  /-- MADH (R251). -/
  | madh (d : Reg) (a : Reg) (b : Reg) (c : Reg) (p : Sel)
  /-- BFI (R228). -/
  | bfi (d : Reg) (a : Reg) (b : Reg) (c : Reg) (p : Sel)
  /-- DOT4 (R251). -/
  | dot4 (d : Reg) (a : Reg) (b : Reg) (c : Reg) (p : Sel)
  /-- FDOT2 (R250). -/
  | fdot2 (d : Reg) (a : Reg) (b : Reg) (c : Reg) (p : Sel)
  /-- LERP (R250). -/
  | lerp (d : Reg) (a : Reg) (b : Reg) (c : Reg) (p : Sel)
  /-- CLAMP (R251). -/
  | clamp (d : Reg) (a : Reg) (b : Reg) (c : Reg) (p : Sel)
  /-- LD (R289). -/
  | ld (d : Reg) (a : Reg) (f : Low) (sz : Size) (ch : Hint) (la : Ahead)
  /-- ST (R290). -/
  | st (d : Reg) (a : Reg) (f : Low) (sz : Size) (ch : Hint) (la : Ahead)
  /-- LDL (R294). -/
  | ldl (d : Reg) (a : Reg) (sz : Size) (la : Ahead)
  /-- STL (R294). -/
  | stl (d : Reg) (a : Reg) (sz : Size) (la : Ahead)
  /-- PRF (R295). -/
  | prf (flt : Bool) (a : Reg) (f : Low) (sz : Size) (ch : Hint) (la : Ahead)
  /-- LD_ACQ (R293). -/
  | ldAcq (d : Reg) (a : Reg) (f : Low) (sz : OSize) (sc : Scope) (la : Ahead)
  /-- ST_REL (R293). -/
  | stRel (d : Reg) (a : Reg) (f : Low) (sz : OSize) (sc : Scope) (la : Ahead)
  /-- AADD (R297). -/
  | aadd (d : Reg) (a : Reg) (f : Low) (sc : Scope) (o : Order) (la : Ahead)
  /-- AMIN (R297). -/
  | amin (d : Reg) (a : Reg) (f : Low) (sc : Scope) (o : Order) (la : Ahead)
  /-- AMAX (R297). -/
  | amax (d : Reg) (a : Reg) (f : Low) (sc : Scope) (o : Order) (la : Ahead)
  /-- AAND (R297). -/
  | aand (d : Reg) (a : Reg) (f : Low) (sc : Scope) (o : Order) (la : Ahead)
  /-- AOR (R297). -/
  | aor (d : Reg) (a : Reg) (f : Low) (sc : Scope) (o : Order) (la : Ahead)
  /-- AXOR (R297). -/
  | axor (d : Reg) (a : Reg) (f : Low) (sc : Scope) (o : Order) (la : Ahead)
  /-- AXCHG (R297). -/
  | axchg (d : Reg) (a : Reg) (f : Low) (sc : Scope) (o : Order) (la : Ahead)
  /-- ACAS (R297). -/
  | acas (d : Reg) (a : Reg) (f : Low) (sc : Scope) (o : Order) (la : Ahead)
  /-- AFADD (R298). -/
  | afadd (d : Reg) (a : Reg) (f : Low) (sc : Scope) (o : Order) (la : Ahead)
  /-- AINC (R297). -/
  | ainc (d : Reg) (a : Reg) (f : Low) (sc : Scope) (o : Order) (la : Ahead)
  /-- FENCE (R141). -/
  | fence (sc : Scope) (la : Ahead)
  /-- FENCEX (R144). -/
  | fencex (dir : FenceDir) (la : Ahead)
  /-- WAIT (R139). -/
  | wait (n : Fin 64) (c : Counter) (la : Ahead)
  /-- XLB (R37). -/
  | xlb (a : Reg) (f : Low) (la : Ahead)
  /-- XINV (R302). -/
  | xinv (a : Reg) (sc : Scope) (la : Ahead)
  /-- FDIV (R303). -/
  | fdiv (d : Reg) (a : Reg) (b : Reg) (la : Ahead)
  /-- FSQRT (R303). -/
  | fsqrt (d : Reg) (a : Reg) (la : Ahead)
  /-- FRCP (R185). -/
  | frcp (d : Reg) (a : Reg) (la : Ahead)
  /-- FRSQ (R185). -/
  | frsq (d : Reg) (a : Reg) (la : Ahead)
  /-- FEXP2 (R185). -/
  | fexp2 (d : Reg) (a : Reg) (la : Ahead)
  /-- FLOG2 (R185). -/
  | flog2 (d : Reg) (a : Reg) (la : Ahead)
  /-- FSIN (R185). -/
  | fsin (d : Reg) (a : Reg) (la : Ahead)
  /-- FCOS (R185). -/
  | fcos (d : Reg) (a : Reg) (la : Ahead)
  /-- IDIV (R305). -/
  | idiv (d : Reg) (a : Reg) (b : Reg) (la : Ahead)
  /-- IREM (R305). -/
  | irem (d : Reg) (a : Reg) (b : Reg) (la : Ahead)
  /-- CPY (R111). -/
  | cpy (d : Reg) (a : Reg) (f : Low) (ch : Hint) (la : Ahead)
  /-- CPYMC (R121). -/
  | cpymc (d : Reg) (a : Reg) (f : Low) (mask : BitVec 4) (la : Ahead)
  /-- CPYST (R119). -/
  | cpyst (g : Low) (a : Reg) (f : Low) (ch : Hint) (la : Ahead)
  /-- CPYG (R111). -/
  | cpyg (d : Reg) (a : Reg) (f : Low) (ch : Hint) (la : Ahead)
  /-- CPYS (R111). -/
  | cpys (d : Reg) (a : Reg) (la : Ahead)
  /-- CPYP (R111). -/
  | cpyp (d : Reg) (a : Reg) (f : Low) (g : Low) (ch : Hint) (la : Ahead)
  /-- CPYQ (R120). -/
  | cpyq (d : Reg) (a : Reg) (f : Low) (g : Low) (ch : Hint) (la : Ahead)
  /-- MMA (R269). -/
  | mma (d : Reg) (a : Reg) (z : Bool) (c : Fin 16) (la : Ahead)
  /-- MMAS (R270). -/
  | mmas (d : Reg) (a : Reg) (z : Bool) (c : Fin 16) (la : Ahead)
  /-- MMAB (R271). -/
  | mmab (d : Reg) (a : Reg) (z : Bool) (c : Fin 16) (la : Ahead)
  /-- COMP (R272). -/
  | comp (a : Reg) (c : Fin 16) (la : Ahead)
  /-- PLNW (R273). -/
  | plnw (a : Reg) (sel : Bool) (c : Fin 16) (la : Ahead)
  /-- PLNR (R273). -/
  | plnr (a : Reg) (sel : Bool) (c : Fin 16) (la : Ahead)
  /-- ACCZ (R274). -/
  | accz (d : Reg) (n : Fin 32) (la : Ahead)
  /-- ACCLD (R274). -/
  | accld (d : Reg) (a : Reg) (la : Ahead)
  /-- ACCST (R274). -/
  | accst (d : Reg) (a : Reg) (la : Ahead)
  /-- ACCRD (R275). -/
  | accrd (d : Reg) (a : Reg) (r : Fin 32) (la : Ahead)
  /-- ACCWR (R275). -/
  | accwr (d : Reg) (a : Reg) (r : Fin 32) (la : Ahead)
  /-- MXTOK_ACQ (R262). -/
  | mxtokAcq (la : Ahead)
  /-- MXTOK_REL (R262). -/
  | mxtokRel (la : Ahead)
  /-- MXTOK_PASS (R262). -/
  | mxtokPass (w : Fin 16) (la : Ahead)
  /-- BAR (R309). -/
  | bar (b : Low) (la : Ahead)
  /-- SSTEP (R310). -/
  | sstep (la : Ahead)
  /-- RNGA (R314). -/
  | rnga (d : Reg) (g : Low) (la : Ahead)
  /-- RNGC (R314). -/
  | rngc (a : Reg) (g : Low) (la : Ahead)
  /-- RNGW (R314). -/
  | rngw (d : Reg) (g : Low) (la : Ahead)
  /-- RNGF (R314). -/
  | rngf (a : Reg) (g : Low) (la : Ahead)
  /-- YIELDC (R122). -/
  | yieldc (n : Fin 64) (off : BitVec 14) (la : Ahead)
  /-- ENQ (R319). -/
  | enq (a : Reg) (la : Ahead)
  /-- ENQD (R319). -/
  | enqd (a : Reg) (la : Ahead)
  /-- MOVH (R248). -/
  | movh (d : Reg) (imm : BitVec 20)
  /-- BR (R205). -/
  | br (m : Low) (c : BCond) (off : BitVec 20)
  /-- CALL (R155). -/
  | call (off : BitVec 20)
  /-- SIGCHK (R259). -/
  | sigchk (x : BitVec 20)
  /-- ADDI (R247). -/
  | addi (d : Reg) (a : Reg) (imm : BitVec 12)
  /-- ANDI (R247). -/
  | andi (d : Reg) (a : Reg) (imm : BitVec 12)
  /-- ORI (R247). -/
  | ori (d : Reg) (a : Reg) (imm : BitVec 12)
  /-- XORI (R247). -/
  | xori (d : Reg) (a : Reg) (imm : BitVec 12)
  /-- SHLI (R247). -/
  | shli (d : Reg) (a : Reg) (c : Fin 64)
  /-- SHRI (R247). -/
  | shri (d : Reg) (a : Reg) (c : Fin 64)
  /-- SARI (R247). -/
  | sari (d : Reg) (a : Reg) (c : Fin 64)
  /-- CMPI (R230). -/
  | cmpi (c : ICond) (kd : Low) (a : Reg) (imm : BitVec 12)
  /-- MOVI (R248). -/
  | movi (d : Reg) (imm : BitVec 12)
  /-- LDC (R249). -/
  | ldc (d : Reg) (a : Reg) (imm : BitVec 12)
  /-- CALLR (R252). -/
  | callr (a : Reg)
  /-- CALLG (R252). -/
  | callg (slot : BitVec 12)
  /-- RET (R155). -/
  | ret
  /-- ENTER (R155). -/
  | enter (n : BitVec 12)
  /-- EXIT (R254). -/
  | exit
  /-- JMPR (R252). -/
  | jmpr (a : Reg)
  /-- MPUSH (R170). -/
  | mpush (k : Low)
  /-- MELSE (R170). -/
  | melse
  /-- MPOP (R170). -/
  | mpop
  /-- SETM (R256). -/
  | setm (a : Reg)
  /-- SETMF (R256). -/
  | setmf (f : Fin 16) (v : BitVec 8)
  /-- GETM (R256). -/
  | getm (d : Reg)
  /-- REGN (R388). -/
  | regn
  /-- NOP (R257). -/
  | nop
  /-- BKPT (R345). -/
  | bkpt (c : BitVec 12)
  /-- TRAP (R345). -/
  | trap (c : BitVec 12)
  /-- ESC (R209). -/
  | esc (x : Fin 64) (y : Fin 64) (z : BitVec 12)
  /-- PRLD (R331). -/
  | prld (d : Reg) (a : Reg)
  /-- PRST (R331). -/
  | prst (d : Reg) (a : Reg)
  /-- PRREG (R332). -/
  | prreg (d : Reg) (a : Reg)
  /-- PWREG (R332). -/
  | pwreg (d : Reg) (a : Reg)
  /-- PRESUME (R334). -/
  | presume (a : Reg)
  /-- PRETRY (R334). -/
  | pretry (a : Reg)
  /-- PREDIR (R334). -/
  | predir (d : Reg) (a : Reg)
  /-- PKILL (R335). -/
  | pkill (a : Reg)
  /-- PRPLAY (R48). -/
  | prplay (a : Reg)
  /-- SNAP (R343). -/
  | snap (s : Bool)
  /-- REORD (R344). -/
  | reord (d : Reg) (a : Reg)
  /-- PTLD (R73). -/
  | ptld (d : Reg) (a : Reg) (n : Low)
  /-- RGSET (R62). -/
  | rgset (d : Reg) (a : Reg) (e : Fin 64)
  /-- KREPL (R339). -/
  | krepl (d : Reg) (a : Reg)
  /-- CSRR (R340). -/
  | csrr (d : Reg) (a : Reg)
  /-- CSRW (R340). -/
  | csrw (d : Reg) (a : Reg)
  /-- UNASSIGNED_WORD (R208). -/
  | unassignedWord (w : BitVec 32)
  /-- CONTEXT_SAVE_COMPLETE (R364). -/
  | contextSaveComplete (die : Nat)
  /-- WALK_COMPLETE (R41). -/
  | walkComplete (k : WalkKey)
  /-- RECORD_WRITTEN (R45). -/
  | recordWritten (p : ParkImage)
  /-- LATE_FAULT (R439). -/
  | lateFault (op : Nat) (lanes : List Nat) (cls : Nat) (finfo : Dword)
  /-- MIGRATION_TAKE (R342). -/
  | migrationTake (die : Nat)
  /-- MIGRATION_DRAINED (R52). -/
  | migrationDrained (die id : Nat)
  /-- MIGRATION_COPY_DONE (R52). -/
  | migrationCopyDone (die id : Nat) (how : CopyEnd)
  /-- RDS (R70). -/
  | rds (r : HomeReq)
  /-- RDNC (R70). -/
  | rdnc (r : HomeReq)
  /-- WR (R70). -/
  | wr (r : HomeReq)
  /-- WRNC (R70). -/
  | wrnc (r : HomeReq)
  /-- ATOM (R70). -/
  | atom (r : HomeReq)
  /-- CKOUT (R70). -/
  | ckout (r : HomeReq)
  /-- CKIN (R79). -/
  | ckin (r : HomeReq)
  /-- DROP (R70). -/
  | drop (r : HomeReq)
  /-- WBACK (R70). -/
  | wback (r : HomeReq)
  /-- CXL_CACHE_RESPONSE (R91). -/
  | cxlCacheResponse (line : Nat) (data : Option (List Byte)) (poisoned : Bool)
  /-- IACK (R70), to the home slice that sent the INV or UPD. -/
  | iack (core line home : Nat)
  /-- RCLD (R70). -/
  | rcld (core line : Nat) (data : Option (List Byte)) (poison : List Nat)
  /-- BIRSP (R70). -/
  | birsp (line : Nat) (data : Option (List Byte)) (poisoned : Bool)
  /-- LHPASS (R67). -/
  | lhpass (line : Nat)
  /-- INV (R58), from a home slice. -/
  | inv (core line home : Nat)
  /-- UPD (R58), from a home slice. -/
  | upd (core line home : Nat) (bytes : List (Nat × Byte))
  /-- RECALL (R58). -/
  | recall (core line : Nat)
  /-- DATA_S (R56). -/
  | dataS (r : Reply)
  /-- DATA_X (R56). -/
  | dataX (r : Reply)
  /-- DATA_C (R56). -/
  | dataC (r : Reply)
  /-- ACK (R69). -/
  | ack (r : Reply)
  /-- ACK_DATA (R69). -/
  | ackData (r : Reply)
  /-- C_COPY_EXPIRY (R80). -/
  | cCopyExpiry (core line : Nat)
  /-- FENCE_GT_PASS (R141). -/
  | fenceGtPass (wave : Nat)
  /-- ONCHIP_WINDOW_ACCESS (R104). -/
  | onchipWindowAccess (a : WindowAccess)
  /-- TASK_PUSH (R322). -/
  | taskPush (p : Push)
  /-- SUCCESSOR_SIGNAL (R323). -/
  | successorSignal (g : Signal)
  /-- TASK_DISPATCH (R357). -/
  | taskDispatch (die : Nat)
  /-- OBJECT_LOAD (R405). -/
  | objectLoad (die task : Nat)
  /-- WORKGROUP_PLACE (R351). -/
  | workgroupPlace (die : Nat)
  /-- WORKGROUP_RETIRE (R352). -/
  | workgroupRetire (wg : Nat)
  /-- BUDGET_EXHAUSTED (R358). -/
  | budgetExhausted (task : Nat)
  /-- TASK_DEADLINE (R359). -/
  | taskDeadline (task : Nat)
  /-- PARKED_DEADLINE (R359). -/
  | parkedDeadline (die index : Nat)
  /-- INDIGO_ENTRY (R360). -/
  | indigoEntry (wave : Nat)
  /-- INDIGO_EXIT (R361). -/
  | indigoExit (wave : Nat)
  /-- FILL_COMPLETE (R156). -/
  | fillComplete (wave : Nat)
  /-- SEGMENT_ISSUE (R109). -/
  | segmentIssue (core : Nat)
  /-- SEGMENT_RETIRE (R117). -/
  | segmentRetire (core copy seg : Nat)
  /-- SEGMENT_PARK (R123). -/
  | segmentPark (core copy seg : Nat)
  /-- MATRIX_PASS (R269). -/
  | matrixPass (core : Nat)
  /-- SSTEP_SWAP (R107). -/
  | sstepSwap (gang : Nat)
  /-- L_COPY_EXPIRY (R56). -/
  | lCopyExpiry (core line : Nat)
  /-- LONG_LATENCY_RESULT (R303). -/
  | longLatencyResult (op : Nat)
  /-- XINV_COMPLETE (R302). -/
  | xinvComplete (op : Nat)
  /-- SNPINV (R91). -/
  | snpinv (tag pa : Nat)
  /-- SNPDATA (R91). -/
  | snpdata (tag pa : Nat)
  /-- REGISTER_WRITE (R7). -/
  | registerWrite (num inst : Nat) (v : Dword)
  /-- L2MODE_WRITE (R96). -/
  | l2modeWrite (v : Dword) (by_ : Option Nat)
  /-- TWLOG_CLEAR (R81). -/
  | twlogClear (die : Nat) (v : Dword)
  /-- PRBASE_WRITE (R341). -/
  | prbaseWrite (die : Nat) (v : Dword)
  /-- SIGLOST_CLEAR (R341). -/
  | siglostClear (die : Nat)
  /-- MRBASE_WRITE (R342). -/
  | mrbaseWrite (die : Nat) (v : Dword)
  /-- PRECTL_SAVE (R363). -/
  | prectlSave (die ctx : Nat)
  /-- PRECTL_RESTORE (R368). -/
  | prectlRestore (die ctx : Nat)
  /-- CTXBASE_WRITE (R366). -/
  | ctxbaseWrite (die : Nat) (v : Dword)
  /-- TQBASE_WRITE (R371). -/
  | tqbaseWrite (die : Nat) (v : Dword)
  /-- KCFG_WRITE (R381). -/
  | kcfgWrite (die : Nat) (v : Dword)
  /-- SNAPDATA_READ (R396). -/
  | snapdataRead
  /-- SNAPHOST (R426). -/
  | snaphost
  /-- SNAP_GT_TRIGGER (R395). -/
  | snapGtTrigger
  /-- SNAP_PEER_TRIGGER (R395). -/
  | snapPeerTrigger
  /-- DOOR (R428). -/
  | door (die slot : Nat)
  /-- ENQ_SLOT_FIELD_WRITE (R428). -/
  | enqSlotFieldWrite (die slot off : Nat) (v : Dword)
  /-- QUOTE (R435). -/
  | quote
  /-- ADVSVN (R435). -/
  | advsvn
  /-- REVOKE (R435). -/
  | revoke
  /-- SETKEY (R435). -/
  | setkey
  /-- IDKEY (R435). -/
  | idkey
  /-- SCAN_TEST_START (R438). -/
  | scanTestStart (die : Nat) (v : Dword)
  /-- SCAN_PATTERN_START (R438). -/
  | scanPatternStart (die : Nat)
  /-- SCAN_TEST_COMPLETE (R438). -/
  | scanTestComplete (die : Nat) (pass : Bool)
  /-- SCRUB_SECTOR (R392). -/
  | scrubSector (die : Nat) (found : ScrubFind)
  /-- HOSTRD (R89). -/
  | hostrd (tag pa : Nat)
  /-- HOSTWR (R89). -/
  | hostwr (tag pa : Nat) (bytes : List (Nat × Byte))
  /-- BICONFLICT (R90). -/
  | biconflict (line : Nat)
  /-- BI_TIMEOUT (R90). -/
  | biTimeout (line : Nat)
  /-- SNPCUR (R88). -/
  | snpcur (tag pa : Nat)
  /-- HOSTPORT_TIMEOUT (R425). -/
  | hostportTimeout (line : Nat)
  /-- TOSOR_FLIT (R429). -/
  | tosorFlit (port : Nat) (crcOk : Bool)
  /-- TOSOR_TIMEOUT (R429). -/
  | tosorTimeout (w : TosorWait)
  /-- GT_LOCK_ACQUIRED (R430). -/
  | gtLockAcquired
  /-- GT_LOCK_LOST (R430). -/
  | gtLockLost
  /-- SCOREBOARD_SQUASH (R356). -/
  | scoreboardSquash (core slot : Nat)
  /-- RESET (R431). -/
  | reset (trip : Bool)
  /-- OCHRE_ENTRY (R431). -/
  | ochreEntry
  /-- FULL_ENTRY (R431). -/
  | fullEntry
  /-- DEGRADED_ENTRY (R431). -/
  | degradedEntry (failed : BitVec 4)
  /-- POWER_OVER_LIMIT (R433), at a measured power. -/
  | powerOverLimit (watts : Nat)
  /-- THERMAL_THROTTLE (R433). -/
  | thermalThrottle
  /-- THERMAL_TRIP (R433). -/
  | thermalTrip
  /-- D3HOT_ENTRY (R432). -/
  | d3hotEntry
  /-- D3COLD_ENTRY (R432). -/
  | d3coldEntry
  /-- D0_RETURN (R432). -/
  | d0Return
  /-- POWER_BELOW_LIMIT (R433), at a measured power. -/
  | powerBelowLimit (watts : Nat)
  /-- THERMAL_THROTTLE_END (R433). -/
  | thermalThrottleEnd
  /-- L2_FLUSH_COMPLETE (R96). -/
  | l2FlushComplete
  /-- RGSET_DRAIN_COMPLETE (R62). -/
  | rgsetDrainComplete
  deriving DecidableEq, Repr

end Sys2Proof
end

