-- ==== Sys2Proof/WellFormed.lean ====
section
/-! DEFINITION. Well-formed instructions: the limits on fields that a constructor's types do not already
carry (spec 09_encoding.md, R194, R205, R206, R210), and bounds on the numbers an event names (R14). -/

namespace Sys2Proof

/-- A register field that names a 64-bit operand is even (R194). -/
def Reg.even (r : Fin 64) : Bool := r.val % 2 == 0

/-- A register field that names a 128-bit operand is a multiple of 4 (R194). -/
def Reg.quad (r : Fin 64) : Bool := r.val % 4 == 0

/-- The register a load or store of a size names fits that size (R194, R288). -/
def Size.pairOk (s : Size) (d : Fin 64) : Bool :=
  match s with
  | .b64 => Reg.even d
  | .b128 => Reg.quad d
  | _ => true

/-- As `Size.pairOk` for the ordered sizes (R293). -/
def OSize.pairOk (s : OSize) (d : Fin 64) : Bool :=
  match s with
  | .b32 => true
  | .b64 => Reg.even d
  | .b128 => Reg.quad d

/-- The width in bits of a SETMF field (R206, R165). -/
def setmfWidth (f : Nat) : Nat :=
  match f with
  | 0 => 3
  | 1 => 4
  | 2 => 3
  | 3 => 2
  | 4 => 1
  | 5 => 3
  | 6 => 5
  | _ => 8

/-- The field limits of R205, R206, R171 and R260 (a break is refused with FIELD, R210). -/
def Instr.fieldsOk (i : Instr) : Bool :=
  match i with
  | .br m .always _ => m.val == 0
  | .br m .t _ => m.val == 0
  | .br m .f _ => m.val == 0
  | .enter n => 8 ≤ n.toNat && n.toNat ≤ 64 && n.toNat % 8 == 0
  | .setmf f v => f.val ≤ 11 && v.toNat < 2 ^ setmfWidth f.val
  | .sread _ n => n.val ≤ 0x1C
  | .accz d n _ => d.val + n.val ≤ 63
  | _ => true

/-- The pair and group limits that hold whatever GMODE holds (a break is refused with PAIR, R210). -/
def Instr.pairsOk (i : Instr) : Bool :=
  match i with
  | .ld d _ _ sz _ _ => sz.pairOk d
  | .st d _ _ sz _ _ => sz.pairOk d
  | .ldl d _ sz _ => sz.pairOk d
  | .stl d _ sz _ => sz.pairOk d
  | .ldAcq d _ _ sz _ _ => sz.pairOk d
  | .stRel d _ _ sz _ _ => sz.pairOk d
  | .xlb a _ _ => Reg.even a
  | .xinv a _ _ => Reg.even a
  | .callr a => Reg.even a
  | .jmpr a => Reg.even a
  | .setm a => Reg.even a
  | .getm d => Reg.even d
  | .cpy _ a _ _ _ => Reg.quad a
  | .cpymc _ a _ _ _ => Reg.quad a
  | .cpyst _ a _ _ _ => Reg.quad a
  | .cpyg _ a _ _ _ => Reg.quad a
  | .cpys _ a _ => Reg.quad a
  | .cpyp _ a _ _ _ _ => Reg.quad a
  | .cpyq d a _ _ _ _ => Reg.quad a && Reg.quad d
  | .enq a _ => Reg.quad a
  | .enqd a _ => Reg.quad a
  | .mma _ a _ _ _ => Reg.even a
  | .mmas _ a _ _ _ => Reg.even a
  | .mmab _ a _ _ _ => Reg.quad a
  | .comp a _ _ => Reg.even a
  | .plnw a _ _ _ => Reg.even a
  | .plnr a _ _ _ => Reg.even a
  | .prld d a => Reg.even d && Reg.even a
  | .prst d a => Reg.even d && Reg.even a
  | .prreg d a => Reg.even d && Reg.even a
  | .pwreg d a => Reg.even d && Reg.even a
  | .predir d _ => Reg.even d
  | .reord _ a => Reg.even a
  | .ptld _ a _ => Reg.even a
  | .rgset _ a _ => Reg.quad a
  | .krepl d a => Reg.even d && Reg.quad a
  | .csrr d _ => Reg.even d
  | .csrw d _ => Reg.even d
  | _ => true

/-- An instruction of a word, as opposed to an event of the device. -/
def Instr.isEvent (i : Instr) : Bool :=
  match i with
  | .registerWrite _ _ _ => true
  | .l2modeWrite _ _ => true
  | .l2FlushComplete => true
  | .twlogClear _ _ => true
  | .prbaseWrite _ _ => true
  | .siglostClear _ => true
  | .mrbaseWrite _ _ => true
  | .prectlSave _ _ => true
  | .prectlRestore _ _ => true
  | .contextSaveComplete _ => true
  | .ctxbaseWrite _ _ => true
  | .tqbaseWrite _ _ => true
  | .kcfgWrite _ _ => true
  | .snapdataRead => true
  | .snaphost => true
  | .snapGtTrigger => true
  | .snapPeerTrigger => true
  | .door _ _ => true
  | .enqSlotFieldWrite _ _ _ _ => true
  | .quote => true
  | .advsvn => true
  | .revoke => true
  | .setkey => true
  | .idkey => true
  | .scanTestStart _ _ => true
  | .scanPatternStart _ => true
  | .scanTestComplete _ _ => true
  | .walkComplete _ => true
  | .recordWritten _ => true
  | .lateFault _ _ _ _ => true
  | .scrubSector _ _ => true
  | .migrationTake _ => true
  | .migrationDrained _ _ => true
  | .migrationCopyDone _ _ _ => true
  | .rds _ => true
  | .rdnc _ => true
  | .wr _ => true
  | .wrnc _ => true
  | .atom _ => true
  | .ckout _ => true
  | .ckin _ => true
  | .drop _ => true
  | .wback _ => true
  | .iack _ _ _ => true
  | .rcld _ _ _ _ => true
  | .birsp _ _ _ => true
  | .biconflict _ => true
  | .biTimeout _ => true
  | .hostrd _ _ => true
  | .hostwr _ _ _ => true
  | .lhpass _ => true
  | .rgsetDrainComplete => true
  | .inv _ _ _ => true
  | .upd _ _ _ _ => true
  | .recall _ _ => true
  | .dataS _ => true
  | .dataX _ => true
  | .dataC _ => true
  | .ack _ => true
  | .ackData _ => true
  | .cCopyExpiry _ _ => true
  | .fenceGtPass _ => true
  | .snpinv _ _ => true
  | .snpdata _ _ => true
  | .snpcur _ _ => true
  | .cxlCacheResponse _ _ _ => true
  | .hostportTimeout _ => true
  | .onchipWindowAccess _ => true
  | .tosorFlit _ _ => true
  | .tosorTimeout _ => true
  | .gtLockAcquired => true
  | .gtLockLost => true
  | .taskPush _ => true
  | .successorSignal _ => true
  | .taskDispatch _ => true
  | .objectLoad _ _ => true
  | .workgroupPlace _ => true
  | .workgroupRetire _ => true
  | .budgetExhausted _ => true
  | .taskDeadline _ => true
  | .parkedDeadline _ _ => true
  | .indigoEntry _ => true
  | .indigoExit _ => true
  | .scoreboardSquash _ _ => true
  | .fillComplete _ => true
  | .segmentIssue _ => true
  | .segmentRetire _ _ _ => true
  | .segmentPark _ _ _ => true
  | .matrixPass _ => true
  | .sstepSwap _ => true
  | .reset _ => true
  | .ochreEntry => true
  | .fullEntry => true
  | .degradedEntry _ => true
  | .powerOverLimit _ => true
  | .thermalThrottle => true
  | .thermalTrip => true
  | .d3hotEntry => true
  | .d3coldEntry => true
  | .d0Return => true
  | .lCopyExpiry _ _ => true
  | .longLatencyResult _ => true
  | .xinvComplete _ => true
  | .powerBelowLimit _ => true
  | .thermalThrottleEnd => true
  | _ => false

/-- A well-formed instruction. -/
def Instr.wf (i : Instr) : Bool := i.fieldsOk && i.pairsOk

end Sys2Proof
end

