-- ==== Sys2Proof/Decode.lean ====
section
/-! DEFINITION. Decoding of instruction words and their encoder (spec 09_encoding.md, R193 to R212; the
fields of each word as spec/opcode_table.json lists them). -/

namespace Sys2Proof

/-- Why a word is no instruction (R208, R210): an unassigned opcode, a field outside its limits, an odd or
misaligned register of a pair or group. -/
inductive Reject where
  | opcode | field | pair
  deriving DecidableEq, Repr

/-- `width` bits of `n` from bit `lo` up (R2). -/
def bits (n lo width : Nat) : Nat := n / 2 ^ lo % 2 ^ width

def reg (n lo : Nat) : Fin 64 := ⟨n / 2 ^ lo % 64, Nat.mod_lt _ (by decide)⟩
def sel (n lo : Nat) : Fin 4 := ⟨n / 2 ^ lo % 4, Nat.mod_lt _ (by decide)⟩
def low (n lo : Nat) : Fin 8 := ⟨n / 2 ^ lo % 8, Nat.mod_lt _ (by decide)⟩
def ahead (n lo : Nat) : Fin 16 := ⟨n / 2 ^ lo % 16, Nat.mod_lt _ (by decide)⟩
def fin32 (n lo : Nat) : Fin 32 := ⟨n / 2 ^ lo % 32, Nat.mod_lt _ (by decide)⟩

/-- Fields that must be zero are zero, or the word is refused with FIELD (R194). -/
def zeroed (ok : Bool) (r : Except Reject Instr) : Except Reject Instr :=
  if ok then r else .error .field

/-- A reserved code is refused with FIELD (R210). -/
def ofCode {α : Type} (c : Option α) (f : α → Except Reject Instr) : Except Reject Instr :=
  match c with
  | some x => f x
  | none => .error .field

/-! ## Codes of the operand fields (R130, R165, R200 to R206) -/

def ICond.ofBits (n : Nat) : ICond :=
  match n with
  | 0 => .eq
  | 1 => .ne
  | 2 => .lt
  | 3 => .le
  | 4 => .gt
  | 5 => .ge
  | 6 => .bs
  | _ => .bc

def ICond.toNat (c : ICond) : Nat :=
  match c with
  | .eq => 0
  | .ne => 1
  | .lt => 2
  | .le => 3
  | .gt => 4
  | .ge => 5
  | .bs => 6
  | .bc => 7

def FCond.ofBits (n : Nat) : FCond :=
  match n with
  | 0 => .eq
  | 1 => .ne
  | 2 => .lt
  | 3 => .le
  | 4 => .gt
  | 5 => .ge
  | 6 => .un
  | _ => .or

def FCond.toNat (c : FCond) : Nat :=
  match c with
  | .eq => 0
  | .ne => 1
  | .lt => 2
  | .le => 3
  | .gt => 4
  | .ge => 5
  | .un => 6
  | .or => 7

def FRndMode.ofBits (n : Nat) : FRndMode :=
  match n with
  | 0 => .gmode
  | 1 => .rz
  | 2 => .up
  | _ => .down

def FRndMode.toNat (c : FRndMode) : Nat :=
  match c with
  | .gmode => 0
  | .rz => 1
  | .up => 2
  | .down => 3

def ShflMode.ofBits (n : Nat) : ShflMode :=
  match n with
  | 0 => .idx
  | 1 => .up
  | 2 => .dn
  | _ => .xor

def ShflMode.toNat (c : ShflMode) : Nat :=
  match c with
  | .idx => 0
  | .up => 1
  | .dn => 2
  | .xor => 3

def Order.ofBits (n : Nat) : Order :=
  match n with
  | 0 => .plain
  | 1 => .acq
  | 2 => .rel
  | _ => .ar

def Order.toNat (c : Order) : Nat :=
  match c with
  | .plain => 0
  | .acq => 1
  | .rel => 2
  | .ar => 3

def Counter.ofBits (n : Nat) : Counter :=
  match n with
  | 0 => .m
  | 1 => .c
  | 2 => .x
  | _ => .s

def Counter.toNat (c : Counter) : Nat :=
  match c with
  | .m => 0
  | .c => 1
  | .x => 2
  | .s => 3

def BCond.ofBits? (n : Nat) : Option BCond :=
  match n with
  | 0 => some .always
  | 1 => some .t
  | 2 => some .f
  | 3 => some .z
  | 4 => some .nz
  | 5 => some .full
  | 6 => some .nfull
  | _ => none

def BCond.toNat (c : BCond) : Nat :=
  match c with
  | .always => 0
  | .t => 1
  | .f => 2
  | .z => 3
  | .nz => 4
  | .full => 5
  | .nfull => 6

def Size.ofBits? (n : Nat) : Option Size :=
  match n with
  | 0 => some .i8
  | 1 => some .n8
  | 2 => some .i16
  | 3 => some .n16
  | 4 => some .b32
  | 5 => some .b64
  | 6 => some .b128
  | _ => none

def Size.toNat (c : Size) : Nat :=
  match c with
  | .i8 => 0
  | .n8 => 1
  | .i16 => 2
  | .n16 => 3
  | .b32 => 4
  | .b64 => 5
  | .b128 => 6

def OSize.ofBits? (n : Nat) : Option OSize :=
  match n with
  | 0 => some .b32
  | 1 => some .b64
  | 2 => some .b128
  | _ => none

def OSize.toNat (c : OSize) : Nat :=
  match c with
  | .b32 => 0
  | .b64 => 1
  | .b128 => 2

def Hint.ofBits? (n : Nat) : Option Hint :=
  match n with
  | 0 => some .dflt
  | 1 => some .ef
  | 2 => some .nl
  | _ => none

def Hint.toNat (c : Hint) : Nat :=
  match c with
  | .dflt => 0
  | .ef => 1
  | .nl => 2

def Scope.ofBits? (n : Nat) : Option Scope :=
  match n with
  | 0 => some .wave
  | 1 => some .wg
  | 2 => some .gang
  | 3 => some .die
  | 4 => some .dev
  | 5 => some .sys
  | _ => none

def Scope.toNat (c : Scope) : Nat :=
  match c with
  | .wave => 0
  | .wg => 1
  | .gang => 2
  | .die => 3
  | .dev => 4
  | .sys => 5

def RedOp.ofBits? (n : Nat) : Option RedOp :=
  match n with
  | 0 => some .add
  | 1 => some .min
  | 2 => some .max
  | 3 => some .and
  | 4 => some .or
  | 5 => some .xor
  | _ => none

def RedOp.toNat (c : RedOp) : Nat :=
  match c with
  | .add => 0
  | .min => 1
  | .max => 2
  | .and => 3
  | .or => 4
  | .xor => 5

def Ty.ofBits? (n : Nat) : Option Ty :=
  match n with
  | 0 => some .i32
  | 1 => some .n32
  | 2 => some .i16x2
  | 3 => some .n16x2
  | 4 => some .i8x4
  | 5 => some .n8x4
  | 6 => some .f32
  | 7 => some .f16x2
  | 8 => some .bf16x2
  | 9 => some .e4m3x4
  | 10 => some .e5m2x4
  | 11 => some .i64
  | 12 => some .n64
  | 13 => some .f64
  | _ => none

def Ty.toNat (c : Ty) : Nat :=
  match c with
  | .i32 => 0
  | .n32 => 1
  | .i16x2 => 2
  | .n16x2 => 3
  | .i8x4 => 4
  | .n8x4 => 5
  | .f32 => 6
  | .f16x2 => 7
  | .bf16x2 => 8
  | .e4m3x4 => 9
  | .e5m2x4 => 10
  | .i64 => 11
  | .n64 => 12
  | .f64 => 13

def FenceDir.toNat (d : FenceDir) : Nat :=
  match d with
  | .o2e => 0
  | .e2o => 1

/-! ## Decoding -/

/-- The instructions of class 00, by op6 and sub2 (R200). -/
def decodeA3 (n : Nat) : Except Reject Instr :=
  match bits n 24 6 with
  | 0x01 => match bits n 0 2 with
    | 0 => .ok (.add (reg n 18) (sel n 16) (reg n 10) (sel n 8) (reg n 2))
    | 1 => .ok (.sub (reg n 18) (sel n 16) (reg n 10) (sel n 8) (reg n 2))
    | 2 => .ok (.addc (reg n 18) (sel n 16) (reg n 10) (sel n 8) (reg n 2))
    | _ => .ok (.subb (reg n 18) (sel n 16) (reg n 10) (sel n 8) (reg n 2))
  | 0x02 => match bits n 0 2 with
    | 0 => .ok (.mul (reg n 18) (sel n 16) (reg n 10) (sel n 8) (reg n 2))
    | 1 => .ok (.mulh (reg n 18) (sel n 16) (reg n 10) (sel n 8) (reg n 2))
    | 2 => .ok (.absd (reg n 18) (sel n 16) (reg n 10) (sel n 8) (reg n 2))
    | _ => .ok (.avg (reg n 18) (sel n 16) (reg n 10) (sel n 8) (reg n 2))
  | 0x03 => match bits n 0 2 with
    | 0 => .ok (.min (reg n 18) (sel n 16) (reg n 10) (sel n 8) (reg n 2))
    | 1 => .ok (.max (reg n 18) (sel n 16) (reg n 10) (sel n 8) (reg n 2))
    | 2 => .ok (.satadd (reg n 18) (sel n 16) (reg n 10) (sel n 8) (reg n 2))
    | _ => .ok (.satsub (reg n 18) (sel n 16) (reg n 10) (sel n 8) (reg n 2))
  | 0x04 => match bits n 0 2 with
    | 0 => .ok (.and (reg n 18) (sel n 16) (reg n 10) (sel n 8) (reg n 2))
    | 1 => .ok (.or (reg n 18) (sel n 16) (reg n 10) (sel n 8) (reg n 2))
    | 2 => .ok (.xor (reg n 18) (sel n 16) (reg n 10) (sel n 8) (reg n 2))
    | _ => .ok (.andn (reg n 18) (sel n 16) (reg n 10) (sel n 8) (reg n 2))
  | 0x05 => match bits n 0 2 with
    | 0 => .ok (.orn (reg n 18) (sel n 16) (reg n 10) (sel n 8) (reg n 2))
    | 1 => .ok (.rol (reg n 18) (sel n 16) (reg n 10) (sel n 8) (reg n 2))
    | 2 => .ok (.fshr (reg n 18) (sel n 16) (reg n 10) (sel n 8) (reg n 2))
    | _ => .error .opcode
  | 0x06 => match bits n 0 2 with
    | 0 => .ok (.shl (reg n 18) (sel n 16) (reg n 10) (sel n 8) (reg n 2))
    | 1 => .ok (.shr (reg n 18) (sel n 16) (reg n 10) (sel n 8) (reg n 2))
    | 2 => .ok (.sar (reg n 18) (sel n 16) (reg n 10) (sel n 8) (reg n 2))
    | _ => .error .opcode
  | 0x07 => match bits n 0 2 with
    | 0 => zeroed (bits n 2 8 == 0) <| .ok (.popc (reg n 18) (sel n 16) (reg n 10))
    | 1 => zeroed (bits n 2 8 == 0) <| .ok (.clz (reg n 18) (sel n 16) (reg n 10))
    | 2 => zeroed (bits n 2 8 == 0) <| .ok (.ctz (reg n 18) (sel n 16) (reg n 10))
    | _ => zeroed (bits n 2 8 == 0) <| .ok (.brev (reg n 18) (sel n 16) (reg n 10))
  | 0x08 => match bits n 0 2 with
    | 0 => .ok (.bfx (reg n 18) (sel n 16) (reg n 10) (sel n 8) (reg n 2))
    | 1 => .ok (.bmsk (reg n 18) (sel n 16) (reg n 10) (sel n 8) (reg n 2))
    | _ => .error .opcode
  | 0x09 => match bits n 0 2 with
    | 0 => .ok (.cmp (ICond.ofBits (bits n 21 3)) (low n 18) (sel n 16) (reg n 10) (sel n 8) (reg n 2))
    | _ => .error .opcode
  | 0x0A => match bits n 0 2 with
    | 0 => zeroed (bits n 18 3 == 0) <| .ok (.scmp (ICond.ofBits (bits n 21 3)) (sel n 16) (reg n 10) (sel n 8) (reg n 2))
    | _ => .error .opcode
  | 0x0B => .ok (.selK03 (reg n 18) (sel n 16) (reg n 10) (sel n 8) (reg n 2) (sel n 0))
  | 0x0C => .ok (.selK47 (reg n 18) (sel n 16) (reg n 10) (sel n 8) (reg n 2) (sel n 0))
  | 0x0D => match bits n 0 2 with
    | 0 => .ok (.fadd (reg n 18) (sel n 16) (reg n 10) (sel n 8) (reg n 2))
    | 1 => .ok (.fsub (reg n 18) (sel n 16) (reg n 10) (sel n 8) (reg n 2))
    | 2 => .ok (.fmul (reg n 18) (sel n 16) (reg n 10) (sel n 8) (reg n 2))
    | _ => .error .opcode
  | 0x0E => match bits n 0 2 with
    | 0 => .ok (.fmin (reg n 18) (sel n 16) (reg n 10) (sel n 8) (reg n 2))
    | 1 => .ok (.fmax (reg n 18) (sel n 16) (reg n 10) (sel n 8) (reg n 2))
    | 2 => .ok (.fscale (reg n 18) (sel n 16) (reg n 10) (sel n 8) (reg n 2))
    | _ => .error .opcode
  | 0x0F => match bits n 0 2 with
    | 0 => zeroed (bits n 2 8 == 0) <| .ok (.fneg (reg n 18) (sel n 16) (reg n 10))
    | 1 => zeroed (bits n 2 8 == 0) <| .ok (.fabs (reg n 18) (sel n 16) (reg n 10))
    | 2 => zeroed (bits n 2 8 == 0) <| .ok (.ffract (reg n 18) (sel n 16) (reg n 10))
    | _ => zeroed (bits n 2 8 == 0) <| .ok (.fclass (reg n 18) (sel n 16) (reg n 10))
  | 0x10 => zeroed (bits n 2 8 == 0) <| .ok (.frnd (reg n 18) (sel n 16) (reg n 10) (FRndMode.ofBits (bits n 0 2)))
  | 0x11 => match bits n 0 2 with
    | 0 => .ok (.fcmp (FCond.ofBits (bits n 21 3)) (low n 18) (sel n 16) (reg n 10) (sel n 8) (reg n 2))
    | _ => .error .opcode
  | 0x12 => match bits n 0 2 with
    | 0 => zeroed (bits n 6 4 == 0) <| ofCode (Ty.ofBits? (bits n 2 4)) fun t => .ok (.cvt (reg n 18) (sel n 16) (reg n 10) t (bits n 0 1 == 1))
    | 1 => zeroed (bits n 6 4 == 0) <| ofCode (Ty.ofBits? (bits n 2 4)) fun t => .ok (.cvt (reg n 18) (sel n 16) (reg n 10) t (bits n 0 1 == 1))
    | _ => .error .opcode
  | 0x13 => match bits n 0 2 with
    | 0 => .ok (.pack (reg n 18) (sel n 16) (reg n 10) (sel n 8) (reg n 2))
    | 1 => .ok (.unpk (reg n 18) (sel n 16) (reg n 10) (sel n 8) (reg n 2))
    | 2 => zeroed (bits n 2 8 == 0) <| .ok (.sat (reg n 18) (sel n 16) (reg n 10))
    | _ => .error .opcode
  | 0x14 => .ok (.shfl (reg n 18) (sel n 16) (reg n 10) (sel n 8) (reg n 2) (ShflMode.ofBits (bits n 0 2)))
  | 0x15 => match bits n 0 2 with
    | 0 => zeroed (bits n 2 8 == 0) <| .ok (.qxh (reg n 18) (sel n 16) (reg n 10))
    | 1 => zeroed (bits n 2 8 == 0) <| .ok (.qxv (reg n 18) (sel n 16) (reg n 10))
    | 2 => zeroed (bits n 2 8 == 0) <| .ok (.qxd (reg n 18) (sel n 16) (reg n 10))
    | _ => zeroed (bits n 4 6 == 0) <| .ok (.qbc (reg n 18) (sel n 16) (reg n 10) (sel n 2))
  | 0x16 => zeroed (bits n 8 2 == 0) <| .ok (.qswz (reg n 18) (sel n 16) (reg n 10) (reg n 2) (sel n 0))
  | 0x17 => match bits n 0 2 with
    | 0 => zeroed (bits n 5 5 == 0) <| ofCode (RedOp.ofBits? (bits n 2 3)) fun op => .ok (.wred (reg n 18) (sel n 16) (reg n 10) op)
    | _ => .error .opcode
  | 0x18 => match bits n 0 2 with
    | 0 => zeroed (bits n 5 5 == 0) <| ofCode (RedOp.ofBits? (bits n 2 3)) fun op => .ok (.wscan (reg n 18) (sel n 16) (reg n 10) op (bits n 0 1 == 1))
    | 1 => zeroed (bits n 5 5 == 0) <| ofCode (RedOp.ofBits? (bits n 2 3)) fun op => .ok (.wscan (reg n 18) (sel n 16) (reg n 10) op (bits n 0 1 == 1))
    | _ => .error .opcode
  | 0x19 => match bits n 0 2 with
    | 0 => zeroed (bits n 5 5 == 0 && bits n 13 5 == 0 && bits n 21 3 == 0) <| .ok (.kand (low n 18) (low n 10) (low n 2))
    | 1 => zeroed (bits n 5 5 == 0 && bits n 13 5 == 0 && bits n 21 3 == 0) <| .ok (.kor (low n 18) (low n 10) (low n 2))
    | 2 => zeroed (bits n 5 5 == 0 && bits n 13 5 == 0 && bits n 21 3 == 0) <| .ok (.kxor (low n 18) (low n 10) (low n 2))
    | _ => zeroed (bits n 5 5 == 0 && bits n 13 5 == 0 && bits n 21 3 == 0) <| .ok (.kandn (low n 18) (low n 10) (low n 2))
  | 0x1A => match bits n 0 2 with
    | 0 => zeroed (bits n 2 8 == 0 && bits n 13 5 == 0 && bits n 21 3 == 0) <| .ok (.knot (low n 18) (low n 10))
    | 1 => zeroed (bits n 2 8 == 0 && bits n 13 5 == 0 && bits n 21 3 == 0) <| .ok (.kmov (low n 18) (low n 10))
    | 2 => zeroed (bits n 2 8 == 0 && bits n 13 5 == 0) <| .ok (.kpopc (reg n 18) (low n 10))
    | _ => zeroed (bits n 2 8 == 0 && bits n 13 5 == 0) <| .ok (.kffs (reg n 18) (low n 10))
  | 0x1B => match bits n 0 2 with
    | 0 => zeroed (bits n 2 16 == 0 && bits n 21 3 == 0) <| .ok (.exmrd (low n 18))
    | 1 => zeroed (bits n 2 8 == 0 && bits n 13 11 == 0) <| .ok (.exmwr (low n 10))
    | _ => .error .opcode
  | 0x1C => match bits n 0 2 with
    | 0 => zeroed (bits n 2 8 == 0) <| .ok (.mov (reg n 18) (sel n 16) (reg n 10))
    | 1 => zeroed (bits n 2 8 == 0 && bits n 16 2 == 0) <| .ok (.sread (reg n 18) (reg n 10))
    | 2 => zeroed (bits n 2 8 == 0) <| .ok (.hlprd (reg n 18) (sel n 16) (reg n 10))
    | _ => .error .opcode
  | _ => .error .opcode

/-- The instructions of class 01, by op4 (R202). -/
def decodeA4 (n : Nat) : Except Reject Instr :=
  match bits n 26 4 with
  | 0x0 => .ok (.fma (reg n 20) (reg n 14) (reg n 8) (reg n 2) (sel n 0))
  | 0x1 => .ok (.fms (reg n 20) (reg n 14) (reg n 8) (reg n 2) (sel n 0))
  | 0x2 => .ok (.fnma (reg n 20) (reg n 14) (reg n 8) (reg n 2) (sel n 0))
  | 0x3 => .ok (.mad (reg n 20) (reg n 14) (reg n 8) (reg n 2) (sel n 0))
  | 0x4 => .ok (.madh (reg n 20) (reg n 14) (reg n 8) (reg n 2) (sel n 0))
  | 0x5 => .ok (.bfi (reg n 20) (reg n 14) (reg n 8) (reg n 2) (sel n 0))
  | 0x6 => .ok (.dot4 (reg n 20) (reg n 14) (reg n 8) (reg n 2) (sel n 0))
  | 0x7 => .ok (.fdot2 (reg n 20) (reg n 14) (reg n 8) (reg n 2) (sel n 0))
  | 0x8 => .ok (.lerp (reg n 20) (reg n 14) (reg n 8) (reg n 2) (sel n 0))
  | 0x9 => .ok (.clamp (reg n 20) (reg n 14) (reg n 8) (reg n 2) (sel n 0))
  | _ => .error .opcode

/-- The instructions of class 10 with op6 below 0x17 (R203). -/
def decodeMem (n : Nat) : Except Reject Instr :=
  match bits n 24 6 with
  | 0x00 => ofCode (Size.ofBits? (bits n 6 3)) fun sz => ofCode (Hint.ofBits? (bits n 4 2)) fun ch => .ok (.ld (reg n 18) (reg n 12) (low n 9) sz ch (ahead n 0))
  | 0x01 => ofCode (Size.ofBits? (bits n 6 3)) fun sz => ofCode (Hint.ofBits? (bits n 4 2)) fun ch => .ok (.st (reg n 18) (reg n 12) (low n 9) sz ch (ahead n 0))
  | 0x02 => zeroed (bits n 4 2 == 0 && bits n 9 3 == 0) <| ofCode (Size.ofBits? (bits n 6 3)) fun sz => .ok (.ldl (reg n 18) (reg n 12) sz (ahead n 0))
  | 0x03 => zeroed (bits n 4 2 == 0 && bits n 9 3 == 0) <| ofCode (Size.ofBits? (bits n 6 3)) fun sz => .ok (.stl (reg n 18) (reg n 12) sz (ahead n 0))
  | 0x04 => zeroed (bits n 19 5 == 0) <| ofCode (Size.ofBits? (bits n 6 3)) fun sz => ofCode (Hint.ofBits? (bits n 4 2)) fun ch => .ok (.prf (bits n 18 1 == 1) (reg n 12) (low n 9) sz ch (ahead n 0))
  | 0x05 => ofCode (OSize.ofBits? (bits n 7 2)) fun sz => ofCode (Scope.ofBits? (bits n 4 3)) fun sc => .ok (.ldAcq (reg n 18) (reg n 12) (low n 9) sz sc (ahead n 0))
  | 0x06 => ofCode (OSize.ofBits? (bits n 7 2)) fun sz => ofCode (Scope.ofBits? (bits n 4 3)) fun sc => .ok (.stRel (reg n 18) (reg n 12) (low n 9) sz sc (ahead n 0))
  | 0x08 => ofCode (Scope.ofBits? (bits n 6 3)) fun sc => .ok (.aadd (reg n 18) (reg n 12) (low n 9) sc (Order.ofBits (bits n 4 2)) (ahead n 0))
  | 0x09 => ofCode (Scope.ofBits? (bits n 6 3)) fun sc => .ok (.amin (reg n 18) (reg n 12) (low n 9) sc (Order.ofBits (bits n 4 2)) (ahead n 0))
  | 0x0A => ofCode (Scope.ofBits? (bits n 6 3)) fun sc => .ok (.amax (reg n 18) (reg n 12) (low n 9) sc (Order.ofBits (bits n 4 2)) (ahead n 0))
  | 0x0B => ofCode (Scope.ofBits? (bits n 6 3)) fun sc => .ok (.aand (reg n 18) (reg n 12) (low n 9) sc (Order.ofBits (bits n 4 2)) (ahead n 0))
  | 0x0C => ofCode (Scope.ofBits? (bits n 6 3)) fun sc => .ok (.aor (reg n 18) (reg n 12) (low n 9) sc (Order.ofBits (bits n 4 2)) (ahead n 0))
  | 0x0D => ofCode (Scope.ofBits? (bits n 6 3)) fun sc => .ok (.axor (reg n 18) (reg n 12) (low n 9) sc (Order.ofBits (bits n 4 2)) (ahead n 0))
  | 0x0E => ofCode (Scope.ofBits? (bits n 6 3)) fun sc => .ok (.axchg (reg n 18) (reg n 12) (low n 9) sc (Order.ofBits (bits n 4 2)) (ahead n 0))
  | 0x0F => ofCode (Scope.ofBits? (bits n 6 3)) fun sc => .ok (.acas (reg n 18) (reg n 12) (low n 9) sc (Order.ofBits (bits n 4 2)) (ahead n 0))
  | 0x10 => ofCode (Scope.ofBits? (bits n 6 3)) fun sc => .ok (.afadd (reg n 18) (reg n 12) (low n 9) sc (Order.ofBits (bits n 4 2)) (ahead n 0))
  | 0x11 => ofCode (Scope.ofBits? (bits n 6 3)) fun sc => .ok (.ainc (reg n 18) (reg n 12) (low n 9) sc (Order.ofBits (bits n 4 2)) (ahead n 0))
  | 0x12 => zeroed (bits n 7 17 == 0) <| ofCode (Scope.ofBits? (bits n 4 3)) fun sc => .ok (.fence sc (ahead n 0))
  | 0x13 => zeroed (bits n 5 19 == 0) <| .ok (.fencex (if bits n 4 1 == 0 then .o2e else .e2o) (ahead n 0))
  | 0x14 => zeroed (bits n 4 5 == 0 && bits n 11 1 == 0 && bits n 18 6 == 0) <| .ok (.wait (reg n 12) (Counter.ofBits (bits n 9 2)) (ahead n 0))
  | 0x15 => zeroed (bits n 4 5 == 0 && bits n 18 6 == 0) <| .ok (.xlb (reg n 12) (low n 9) (ahead n 0))
  | 0x16 => zeroed (bits n 7 5 == 0 && bits n 18 6 == 0) <| ofCode (Scope.ofBits? (bits n 4 3)) fun sc => .ok (.xinv (reg n 12) sc (ahead n 0))
  | _ => .error .opcode

/-- The instructions of class 10 with op6 from 0x18 to 0x28 (R203). -/
def decodeLong (n : Nat) : Except Reject Instr :=
  match bits n 24 6 with
  | 0x18 => zeroed (bits n 4 2 == 0) <| .ok (.fdiv (reg n 18) (reg n 12) (reg n 6) (ahead n 0))
  | 0x19 => zeroed (bits n 4 8 == 0) <| .ok (.fsqrt (reg n 18) (reg n 12) (ahead n 0))
  | 0x1A => zeroed (bits n 4 8 == 0) <| .ok (.frcp (reg n 18) (reg n 12) (ahead n 0))
  | 0x1B => zeroed (bits n 4 8 == 0) <| .ok (.frsq (reg n 18) (reg n 12) (ahead n 0))
  | 0x1C => zeroed (bits n 4 8 == 0) <| .ok (.fexp2 (reg n 18) (reg n 12) (ahead n 0))
  | 0x1D => zeroed (bits n 4 8 == 0) <| .ok (.flog2 (reg n 18) (reg n 12) (ahead n 0))
  | 0x1E => zeroed (bits n 4 8 == 0) <| .ok (.fsin (reg n 18) (reg n 12) (ahead n 0))
  | 0x1F => zeroed (bits n 4 8 == 0) <| .ok (.fcos (reg n 18) (reg n 12) (ahead n 0))
  | 0x20 => zeroed (bits n 4 2 == 0) <| .ok (.idiv (reg n 18) (reg n 12) (reg n 6) (ahead n 0))
  | 0x21 => zeroed (bits n 4 2 == 0) <| .ok (.irem (reg n 18) (reg n 12) (reg n 6) (ahead n 0))
  | 0x22 => zeroed (bits n 6 3 == 0) <| ofCode (Hint.ofBits? (bits n 4 2)) fun ch => .ok (.cpy (reg n 18) (reg n 12) (low n 9) ch (ahead n 0))
  | 0x23 => zeroed (bits n 8 1 == 0) <| .ok (.cpymc (reg n 18) (reg n 12) (low n 9) (BitVec.ofNat 4 (bits n 4 4)) (ahead n 0))
  | 0x24 => zeroed (bits n 6 3 == 0 && bits n 21 3 == 0) <| ofCode (Hint.ofBits? (bits n 4 2)) fun ch => .ok (.cpyst (low n 18) (reg n 12) (low n 9) ch (ahead n 0))
  | 0x25 => zeroed (bits n 6 3 == 0) <| ofCode (Hint.ofBits? (bits n 4 2)) fun ch => .ok (.cpyg (reg n 18) (reg n 12) (low n 9) ch (ahead n 0))
  | 0x26 => zeroed (bits n 4 8 == 0) <| .ok (.cpys (reg n 18) (reg n 12) (ahead n 0))
  | 0x27 => ofCode (Hint.ofBits? (bits n 4 2)) fun ch => .ok (.cpyp (reg n 18) (reg n 12) (low n 9) (low n 6) ch (ahead n 0))
  | 0x28 => ofCode (Hint.ofBits? (bits n 4 2)) fun ch => .ok (.cpyq (reg n 18) (reg n 12) (low n 9) (low n 6) ch (ahead n 0))
  | _ => .error .opcode

/-- The instructions of class 10 with op6 from 0x29 on (R203). -/
def decodeEngine (n : Nat) : Except Reject Instr :=
  match bits n 24 6 with
  | 0x29 => zeroed (bits n 9 3 == 0) <| .ok (.mma (reg n 18) (reg n 12) (bits n 8 1 == 1) (ahead n 4) (ahead n 0))
  | 0x2A => zeroed (bits n 9 3 == 0) <| .ok (.mmas (reg n 18) (reg n 12) (bits n 8 1 == 1) (ahead n 4) (ahead n 0))
  | 0x2B => zeroed (bits n 9 3 == 0) <| .ok (.mmab (reg n 18) (reg n 12) (bits n 8 1 == 1) (ahead n 4) (ahead n 0))
  | 0x2C => zeroed (bits n 8 4 == 0 && bits n 18 6 == 0) <| .ok (.comp (reg n 12) (ahead n 4) (ahead n 0))
  | 0x2D => zeroed (bits n 8 1 == 0 && bits n 10 2 == 0 && bits n 18 6 == 0) <| .ok (.plnw (reg n 12) (bits n 9 1 == 1) (ahead n 4) (ahead n 0))
  | 0x2E => zeroed (bits n 8 1 == 0 && bits n 10 2 == 0 && bits n 18 6 == 0) <| .ok (.plnr (reg n 12) (bits n 9 1 == 1) (ahead n 4) (ahead n 0))
  | 0x2F => zeroed (bits n 9 9 == 0) <| .ok (.accz (reg n 18) (fin32 n 4) (ahead n 0))
  | 0x30 => zeroed (bits n 4 8 == 0) <| .ok (.accld (reg n 18) (reg n 12) (ahead n 0))
  | 0x31 => zeroed (bits n 4 8 == 0) <| .ok (.accst (reg n 18) (reg n 12) (ahead n 0))
  | 0x32 => zeroed (bits n 9 3 == 0) <| .ok (.accrd (reg n 18) (reg n 12) (fin32 n 4) (ahead n 0))
  | 0x33 => zeroed (bits n 9 3 == 0) <| .ok (.accwr (reg n 18) (reg n 12) (fin32 n 4) (ahead n 0))
  | 0x34 => match bits n 7 2 with
    | 0 => zeroed (bits n 4 3 == 0 && bits n 9 15 == 0) <| .ok (.mxtokAcq (ahead n 0))
    | 1 => zeroed (bits n 4 3 == 0 && bits n 9 15 == 0) <| .ok (.mxtokRel (ahead n 0))
    | 2 => zeroed (bits n 4 3 == 0 && bits n 9 3 == 0 && bits n 16 8 == 0) <| .ok (.mxtokPass (ahead n 12) (ahead n 0))
    | _ => .error .field
  | 0x35 => zeroed (bits n 7 17 == 0) <| .ok (.bar (low n 4) (ahead n 0))
  | 0x36 => zeroed (bits n 4 20 == 0) <| .ok (.sstep (ahead n 0))
  | 0x37 => zeroed (bits n 4 5 == 0 && bits n 12 6 == 0) <| .ok (.rnga (reg n 18) (low n 9) (ahead n 0))
  | 0x38 => zeroed (bits n 4 5 == 0 && bits n 18 6 == 0) <| .ok (.rngc (reg n 12) (low n 9) (ahead n 0))
  | 0x39 => zeroed (bits n 4 5 == 0 && bits n 12 6 == 0) <| .ok (.rngw (reg n 18) (low n 9) (ahead n 0))
  | 0x3A => zeroed (bits n 4 5 == 0 && bits n 18 6 == 0) <| .ok (.rngf (reg n 12) (low n 9) (ahead n 0))
  | 0x3B => .ok (.yieldc (reg n 18) (BitVec.ofNat 14 (bits n 4 14)) (ahead n 0))
  | 0x3C => zeroed (bits n 4 8 == 0 && bits n 18 6 == 0) <| .ok (.enq (reg n 12) (ahead n 0))
  | 0x3D => zeroed (bits n 4 8 == 0 && bits n 18 6 == 0) <| .ok (.enqd (reg n 12) (ahead n 0))
  | _ => .error .opcode

/-- The instructions of class 10 (R203). -/
def decodeM (n : Nat) : Except Reject Instr :=
  if bits n 24 6 < 0x17 then decodeMem n
  else if bits n 24 6 < 0x29 then decodeLong n
  else decodeEngine n

/-- The instructions of the J format, by op3 (R205). -/
def decodeJ (n : Nat) : Except Reject Instr :=
  match bits n 26 3 with
  | 0 => .ok (.movh (reg n 20) (BitVec.ofNat 20 (bits n 0 20)))
  | 1 => ofCode (BCond.ofBits? (bits n 20 3)) fun c => .ok (.br (low n 23) c (BitVec.ofNat 20 (bits n 0 20)))
  | 2 => zeroed (bits n 20 6 == 0) <| .ok (.call (BitVec.ofNat 20 (bits n 0 20)))
  | 3 => zeroed (bits n 20 6 == 0) <| .ok (.sigchk (BitVec.ofNat 20 (bits n 0 20)))
  | _ => .error .opcode

/-- The SYS instructions, by sub6 (R207). -/
def decodeSys (n : Nat) : Except Reject Instr :=
  match bits n 6 6 with
  | 0x01 => zeroed (bits n 0 6 == 0) <| .ok (.prld (reg n 18) (reg n 12))
  | 0x02 => zeroed (bits n 0 6 == 0) <| .ok (.prst (reg n 18) (reg n 12))
  | 0x03 => zeroed (bits n 0 6 == 0) <| .ok (.prreg (reg n 18) (reg n 12))
  | 0x04 => zeroed (bits n 0 6 == 0) <| .ok (.pwreg (reg n 18) (reg n 12))
  | 0x05 => zeroed (bits n 0 6 == 0 && bits n 18 6 == 0) <| .ok (.presume (reg n 12))
  | 0x06 => zeroed (bits n 0 6 == 0 && bits n 18 6 == 0) <| .ok (.pretry (reg n 12))
  | 0x07 => zeroed (bits n 0 6 == 0) <| .ok (.predir (reg n 18) (reg n 12))
  | 0x08 => zeroed (bits n 0 6 == 0 && bits n 18 6 == 0) <| .ok (.pkill (reg n 12))
  | 0x09 => zeroed (bits n 0 6 == 0 && bits n 18 6 == 0) <| .ok (.prplay (reg n 12))
  | 0x0A => zeroed (bits n 1 5 == 0 && bits n 12 12 == 0) <| .ok (.snap (bits n 0 1 == 1))
  | 0x0B => zeroed (bits n 0 6 == 0) <| .ok (.reord (reg n 18) (reg n 12))
  | 0x0C => zeroed (bits n 3 3 == 0) <| .ok (.ptld (reg n 18) (reg n 12) (low n 0))
  | 0x0D => .ok (.rgset (reg n 18) (reg n 12) (reg n 0))
  | 0x0E => zeroed (bits n 0 6 == 0) <| .ok (.krepl (reg n 18) (reg n 12))
  | 0x0F => zeroed (bits n 0 6 == 0) <| .ok (.csrr (reg n 18) (reg n 12))
  | 0x10 => zeroed (bits n 0 6 == 0) <| .ok (.csrw (reg n 18) (reg n 12))
  | _ => .error .opcode

/-- The instructions of the I format, by op5 (R206); 0x1F is SYS (R207). -/
def decodeI (n : Nat) : Except Reject Instr :=
  match bits n 24 5 with
  | 0x00 => .ok (.addi (reg n 18) (reg n 12) (BitVec.ofNat 12 (bits n 0 12)))
  | 0x01 => .ok (.andi (reg n 18) (reg n 12) (BitVec.ofNat 12 (bits n 0 12)))
  | 0x02 => .ok (.ori (reg n 18) (reg n 12) (BitVec.ofNat 12 (bits n 0 12)))
  | 0x03 => .ok (.xori (reg n 18) (reg n 12) (BitVec.ofNat 12 (bits n 0 12)))
  | 0x04 => zeroed (bits n 6 6 == 0) <| .ok (.shli (reg n 18) (reg n 12) (reg n 0))
  | 0x05 => zeroed (bits n 6 6 == 0) <| .ok (.shri (reg n 18) (reg n 12) (reg n 0))
  | 0x06 => zeroed (bits n 6 6 == 0) <| .ok (.sari (reg n 18) (reg n 12) (reg n 0))
  | 0x07 => .ok (.cmpi (ICond.ofBits (bits n 21 3)) (low n 18) (reg n 12) (BitVec.ofNat 12 (bits n 0 12)))
  | 0x08 => zeroed (bits n 12 6 == 0) <| .ok (.movi (reg n 18) (BitVec.ofNat 12 (bits n 0 12)))
  | 0x09 => .ok (.ldc (reg n 18) (reg n 12) (BitVec.ofNat 12 (bits n 0 12)))
  | 0x0A => zeroed (bits n 0 12 == 0 && bits n 18 6 == 0) <| .ok (.callr (reg n 12))
  | 0x0B => zeroed (bits n 12 12 == 0) <| .ok (.callg (BitVec.ofNat 12 (bits n 0 12)))
  | 0x0C => zeroed (bits n 0 24 == 0) <| .ok (.ret)
  | 0x0D => zeroed (bits n 12 12 == 0) <| .ok (.enter (BitVec.ofNat 12 (bits n 0 12)))
  | 0x0E => zeroed (bits n 0 24 == 0) <| .ok (.exit)
  | 0x0F => zeroed (bits n 0 12 == 0 && bits n 18 6 == 0) <| .ok (.jmpr (reg n 12))
  | 0x10 => zeroed (bits n 0 12 == 0 && bits n 15 9 == 0) <| .ok (.mpush (low n 12))
  | 0x11 => zeroed (bits n 0 24 == 0) <| .ok (.melse)
  | 0x12 => zeroed (bits n 0 24 == 0) <| .ok (.mpop)
  | 0x13 => zeroed (bits n 0 12 == 0 && bits n 18 6 == 0) <| .ok (.setm (reg n 12))
  | 0x14 => zeroed (bits n 12 12 == 0) <| .ok (.setmf (ahead n 8) (BitVec.ofNat 8 (bits n 0 8)))
  | 0x15 => zeroed (bits n 0 18 == 0) <| .ok (.getm (reg n 18))
  | 0x16 => zeroed (bits n 0 24 == 0) <| .ok (.regn)
  | 0x17 => zeroed (bits n 0 24 == 0) <| .ok (.nop)
  | 0x18 => zeroed (bits n 12 12 == 0) <| .ok (.bkpt (BitVec.ofNat 12 (bits n 0 12)))
  | 0x19 => zeroed (bits n 12 12 == 0) <| .ok (.trap (BitVec.ofNat 12 (bits n 0 12)))
  | 0x1E => .ok (.esc (reg n 18) (reg n 12) (BitVec.ofNat 12 (bits n 0 12)))
  | 0x1F => decodeSys n
  | _ => .error .opcode

/-- The instruction a word holds before the checks that need its whole (R193). -/
def decodeFields (n : Nat) : Except Reject Instr :=
  match bits n 30 2 with
  | 0 => decodeA3 n
  | 1 => decodeA4 n
  | 2 => decodeM n
  | _ => if bits n 29 1 == 1 then decodeJ n else decodeI n

/-- The instruction of a word, or why there is none; FIELD goes before PAIR (R208, R210). -/
def decode (w : Word) : Except Reject Instr :=
  match decodeFields w.toNat with
  | .error r => .error r
  | .ok i => if !i.fieldsOk then .error .field else if !i.pairsOk then .error .pair else .ok i

/-- The five formats of R193: the fixed bits of a word with its fields in their places. -/
def fmtA3 (m d pa a pb b sub : Nat) : Nat := m + d * 2 ^ 18 + pa * 2 ^ 16 + a * 2 ^ 10 + pb * 2 ^ 8 + b * 2 ^ 2 + sub
def fmtA4 (m d a b c pa : Nat) : Nat := m + d * 2 ^ 20 + a * 2 ^ 14 + b * 2 ^ 8 + c * 2 ^ 2 + pa
def fmtM (m d a f x la : Nat) : Nat := m + d * 2 ^ 18 + a * 2 ^ 12 + f * 2 ^ 9 + x * 2 ^ 4 + la
def fmtJ (m d imm : Nat) : Nat := m + d * 2 ^ 20 + imm
def fmtI (m d a imm : Nat) : Nat := m + d * 2 ^ 18 + a * 2 ^ 12 + imm

/-- The word of an instruction as a number, from the encoding tables of the spec. An event has no word. -/
def encodeNat : Instr → Nat
  | .add d p a q b => fmtA3 0x01000000 d.val p.val a.val q.val b.val 0
  | .sub d p a q b => fmtA3 0x01000001 d.val p.val a.val q.val b.val 0
  | .addc d p a q b => fmtA3 0x01000002 d.val p.val a.val q.val b.val 0
  | .subb d p a q b => fmtA3 0x01000003 d.val p.val a.val q.val b.val 0
  | .mul d p a q b => fmtA3 0x02000000 d.val p.val a.val q.val b.val 0
  | .mulh d p a q b => fmtA3 0x02000001 d.val p.val a.val q.val b.val 0
  | .absd d p a q b => fmtA3 0x02000002 d.val p.val a.val q.val b.val 0
  | .avg d p a q b => fmtA3 0x02000003 d.val p.val a.val q.val b.val 0
  | .min d p a q b => fmtA3 0x03000000 d.val p.val a.val q.val b.val 0
  | .max d p a q b => fmtA3 0x03000001 d.val p.val a.val q.val b.val 0
  | .satadd d p a q b => fmtA3 0x03000002 d.val p.val a.val q.val b.val 0
  | .satsub d p a q b => fmtA3 0x03000003 d.val p.val a.val q.val b.val 0
  | .and d p a q b => fmtA3 0x04000000 d.val p.val a.val q.val b.val 0
  | .or d p a q b => fmtA3 0x04000001 d.val p.val a.val q.val b.val 0
  | .xor d p a q b => fmtA3 0x04000002 d.val p.val a.val q.val b.val 0
  | .andn d p a q b => fmtA3 0x04000003 d.val p.val a.val q.val b.val 0
  | .orn d p a q b => fmtA3 0x05000000 d.val p.val a.val q.val b.val 0
  | .rol d p a q b => fmtA3 0x05000001 d.val p.val a.val q.val b.val 0
  | .fshr d p a q b => fmtA3 0x05000002 d.val p.val a.val q.val b.val 0
  | .shl d p a q b => fmtA3 0x06000000 d.val p.val a.val q.val b.val 0
  | .shr d p a q b => fmtA3 0x06000001 d.val p.val a.val q.val b.val 0
  | .sar d p a q b => fmtA3 0x06000002 d.val p.val a.val q.val b.val 0
  | .popc d p a => fmtA3 0x07000000 d.val p.val a.val 0 0 0
  | .clz d p a => fmtA3 0x07000001 d.val p.val a.val 0 0 0
  | .ctz d p a => fmtA3 0x07000002 d.val p.val a.val 0 0 0
  | .brev d p a => fmtA3 0x07000003 d.val p.val a.val 0 0 0
  | .bfx d p a q b => fmtA3 0x08000000 d.val p.val a.val q.val b.val 0
  | .bmsk d p a q b => fmtA3 0x08000001 d.val p.val a.val q.val b.val 0
  | .cmp c kd p a q b => fmtA3 0x09000000 (c.toNat * 8 + kd.val) p.val a.val q.val b.val 0
  | .scmp c p a q b => fmtA3 0x0A000000 (c.toNat * 8) p.val a.val q.val b.val 0
  | .selK03 d p a q b m => fmtA3 0x0B000000 d.val p.val a.val q.val b.val m.val
  | .selK47 d p a q b m => fmtA3 0x0C000000 d.val p.val a.val q.val b.val m.val
  | .fadd d p a q b => fmtA3 0x0D000000 d.val p.val a.val q.val b.val 0
  | .fsub d p a q b => fmtA3 0x0D000001 d.val p.val a.val q.val b.val 0
  | .fmul d p a q b => fmtA3 0x0D000002 d.val p.val a.val q.val b.val 0
  | .fmin d p a q b => fmtA3 0x0E000000 d.val p.val a.val q.val b.val 0
  | .fmax d p a q b => fmtA3 0x0E000001 d.val p.val a.val q.val b.val 0
  | .fscale d p a q b => fmtA3 0x0E000002 d.val p.val a.val q.val b.val 0
  | .fneg d p a => fmtA3 0x0F000000 d.val p.val a.val 0 0 0
  | .fabs d p a => fmtA3 0x0F000001 d.val p.val a.val 0 0 0
  | .ffract d p a => fmtA3 0x0F000002 d.val p.val a.val 0 0 0
  | .fclass d p a => fmtA3 0x0F000003 d.val p.val a.val 0 0 0
  | .frnd d p a r => fmtA3 0x10000000 d.val p.val a.val 0 0 r.toNat
  | .fcmp c kd p a q b => fmtA3 0x11000000 (c.toNat * 8 + kd.val) p.val a.val q.val b.val 0
  | .cvt d p a t rz => fmtA3 0x12000000 d.val p.val a.val 0 t.toNat rz.toNat
  | .pack d p a q b => fmtA3 0x13000000 d.val p.val a.val q.val b.val 0
  | .unpk d p a q b => fmtA3 0x13000001 d.val p.val a.val q.val b.val 0
  | .sat d p a => fmtA3 0x13000002 d.val p.val a.val 0 0 0
  | .shfl d p a q b m => fmtA3 0x14000000 d.val p.val a.val q.val b.val m.toNat
  | .qxh d p a => fmtA3 0x15000000 d.val p.val a.val 0 0 0
  | .qxv d p a => fmtA3 0x15000001 d.val p.val a.val 0 0 0
  | .qxd d p a => fmtA3 0x15000002 d.val p.val a.val 0 0 0
  | .qbc d p a n => fmtA3 0x15000003 d.val p.val a.val 0 n.val 0
  | .qswz d p a hi6 lo2 => fmtA3 0x16000000 d.val p.val a.val 0 hi6.val lo2.val
  | .wred d p a op => fmtA3 0x17000000 d.val p.val a.val 0 op.toNat 0
  | .wscan d p a op excl => fmtA3 0x18000000 d.val p.val a.val 0 op.toNat excl.toNat
  | .kand kd ka kb => fmtA3 0x19000000 kd.val 0 ka.val 0 kb.val 0
  | .kor kd ka kb => fmtA3 0x19000001 kd.val 0 ka.val 0 kb.val 0
  | .kxor kd ka kb => fmtA3 0x19000002 kd.val 0 ka.val 0 kb.val 0
  | .kandn kd ka kb => fmtA3 0x19000003 kd.val 0 ka.val 0 kb.val 0
  | .knot kd ka => fmtA3 0x1A000000 kd.val 0 ka.val 0 0 0
  | .kmov kd ka => fmtA3 0x1A000001 kd.val 0 ka.val 0 0 0
  | .kpopc d ka => fmtA3 0x1A000002 d.val 0 ka.val 0 0 0
  | .kffs d ka => fmtA3 0x1A000003 d.val 0 ka.val 0 0 0
  | .exmrd kd => fmtA3 0x1B000000 kd.val 0 0 0 0 0
  | .exmwr ka => fmtA3 0x1B000001 0 0 ka.val 0 0 0
  | .mov d p a => fmtA3 0x1C000000 d.val p.val a.val 0 0 0
  | .sread d n => fmtA3 0x1C000001 d.val 0 n.val 0 0 0
  | .hlprd d p a => fmtA3 0x1C000002 d.val p.val a.val 0 0 0
  | .fma d a b c p => fmtA4 0x40000000 d.val a.val b.val c.val p.val
  | .fms d a b c p => fmtA4 0x44000000 d.val a.val b.val c.val p.val
  | .fnma d a b c p => fmtA4 0x48000000 d.val a.val b.val c.val p.val
  | .mad d a b c p => fmtA4 0x4C000000 d.val a.val b.val c.val p.val
  | .madh d a b c p => fmtA4 0x50000000 d.val a.val b.val c.val p.val
  | .bfi d a b c p => fmtA4 0x54000000 d.val a.val b.val c.val p.val
  | .dot4 d a b c p => fmtA4 0x58000000 d.val a.val b.val c.val p.val
  | .fdot2 d a b c p => fmtA4 0x5C000000 d.val a.val b.val c.val p.val
  | .lerp d a b c p => fmtA4 0x60000000 d.val a.val b.val c.val p.val
  | .clamp d a b c p => fmtA4 0x64000000 d.val a.val b.val c.val p.val
  | .ld d a f sz ch la => fmtM 0x80000000 d.val a.val f.val (sz.toNat * 4 + ch.toNat) la.val
  | .st d a f sz ch la => fmtM 0x81000000 d.val a.val f.val (sz.toNat * 4 + ch.toNat) la.val
  | .ldl d a sz la => fmtM 0x82000000 d.val a.val 0 (sz.toNat * 4) la.val
  | .stl d a sz la => fmtM 0x83000000 d.val a.val 0 (sz.toNat * 4) la.val
  | .prf flt a f sz ch la => fmtM 0x84000000 flt.toNat a.val f.val (sz.toNat * 4 + ch.toNat) la.val
  | .ldAcq d a f sz sc la => fmtM 0x85000000 d.val a.val f.val (sz.toNat * 8 + sc.toNat) la.val
  | .stRel d a f sz sc la => fmtM 0x86000000 d.val a.val f.val (sz.toNat * 8 + sc.toNat) la.val
  | .aadd d a f sc o la => fmtM 0x88000000 d.val a.val f.val (sc.toNat * 4 + o.toNat) la.val
  | .amin d a f sc o la => fmtM 0x89000000 d.val a.val f.val (sc.toNat * 4 + o.toNat) la.val
  | .amax d a f sc o la => fmtM 0x8A000000 d.val a.val f.val (sc.toNat * 4 + o.toNat) la.val
  | .aand d a f sc o la => fmtM 0x8B000000 d.val a.val f.val (sc.toNat * 4 + o.toNat) la.val
  | .aor d a f sc o la => fmtM 0x8C000000 d.val a.val f.val (sc.toNat * 4 + o.toNat) la.val
  | .axor d a f sc o la => fmtM 0x8D000000 d.val a.val f.val (sc.toNat * 4 + o.toNat) la.val
  | .axchg d a f sc o la => fmtM 0x8E000000 d.val a.val f.val (sc.toNat * 4 + o.toNat) la.val
  | .acas d a f sc o la => fmtM 0x8F000000 d.val a.val f.val (sc.toNat * 4 + o.toNat) la.val
  | .afadd d a f sc o la => fmtM 0x90000000 d.val a.val f.val (sc.toNat * 4 + o.toNat) la.val
  | .ainc d a f sc o la => fmtM 0x91000000 d.val a.val f.val (sc.toNat * 4 + o.toNat) la.val
  | .fence sc la => fmtM 0x92000000 0 0 0 sc.toNat la.val
  | .fencex dir la => fmtM 0x93000000 0 0 0 dir.toNat la.val
  | .wait n c la => fmtM 0x94000000 0 n.val c.toNat 0 la.val
  | .xlb a f la => fmtM 0x95000000 0 a.val f.val 0 la.val
  | .xinv a sc la => fmtM 0x96000000 0 a.val 0 sc.toNat la.val
  | .fdiv d a b la => fmtM 0x98000000 d.val a.val 0 (b.val * 4) la.val
  | .fsqrt d a la => fmtM 0x99000000 d.val a.val 0 0 la.val
  | .frcp d a la => fmtM 0x9A000000 d.val a.val 0 0 la.val
  | .frsq d a la => fmtM 0x9B000000 d.val a.val 0 0 la.val
  | .fexp2 d a la => fmtM 0x9C000000 d.val a.val 0 0 la.val
  | .flog2 d a la => fmtM 0x9D000000 d.val a.val 0 0 la.val
  | .fsin d a la => fmtM 0x9E000000 d.val a.val 0 0 la.val
  | .fcos d a la => fmtM 0x9F000000 d.val a.val 0 0 la.val
  | .idiv d a b la => fmtM 0xA0000000 d.val a.val 0 (b.val * 4) la.val
  | .irem d a b la => fmtM 0xA1000000 d.val a.val 0 (b.val * 4) la.val
  | .cpy d a f ch la => fmtM 0xA2000000 d.val a.val f.val ch.toNat la.val
  | .cpymc d a f mask la => fmtM 0xA3000000 d.val a.val f.val mask.toNat la.val
  | .cpyst g a f ch la => fmtM 0xA4000000 g.val a.val f.val ch.toNat la.val
  | .cpyg d a f ch la => fmtM 0xA5000000 d.val a.val f.val ch.toNat la.val
  | .cpys d a la => fmtM 0xA6000000 d.val a.val 0 0 la.val
  | .cpyp d a f g ch la => fmtM 0xA7000000 d.val a.val f.val (g.val * 4 + ch.toNat) la.val
  | .cpyq d a f g ch la => fmtM 0xA8000000 d.val a.val f.val (g.val * 4 + ch.toNat) la.val
  | .mma d a z c la => fmtM 0xA9000000 d.val a.val 0 (z.toNat * 16 + c.val) la.val
  | .mmas d a z c la => fmtM 0xAA000000 d.val a.val 0 (z.toNat * 16 + c.val) la.val
  | .mmab d a z c la => fmtM 0xAB000000 d.val a.val 0 (z.toNat * 16 + c.val) la.val
  | .comp a c la => fmtM 0xAC000000 0 a.val 0 c.val la.val
  | .plnw a sel c la => fmtM 0xAD000000 0 a.val sel.toNat c.val la.val
  | .plnr a sel c la => fmtM 0xAE000000 0 a.val sel.toNat c.val la.val
  | .accz d n la => fmtM 0xAF000000 d.val 0 0 n.val la.val
  | .accld d a la => fmtM 0xB0000000 d.val a.val 0 0 la.val
  | .accst d a la => fmtM 0xB1000000 d.val a.val 0 0 la.val
  | .accrd d a r la => fmtM 0xB2000000 d.val a.val 0 r.val la.val
  | .accwr d a r la => fmtM 0xB3000000 d.val a.val 0 r.val la.val
  | .mxtokAcq la => fmtM 0xB4000000 0 0 0 0 la.val
  | .mxtokRel la => fmtM 0xB4000080 0 0 0 0 la.val
  | .mxtokPass w la => fmtM 0xB4000100 0 w.val 0 0 la.val
  | .bar b la => fmtM 0xB5000000 0 0 0 b.val la.val
  | .sstep la => fmtM 0xB6000000 0 0 0 0 la.val
  | .rnga d g la => fmtM 0xB7000000 d.val 0 g.val 0 la.val
  | .rngc a g la => fmtM 0xB8000000 0 a.val g.val 0 la.val
  | .rngw d g la => fmtM 0xB9000000 d.val 0 g.val 0 la.val
  | .rngf a g la => fmtM 0xBA000000 0 a.val g.val 0 la.val
  | .yieldc n off la => fmtM 0xBB000000 n.val 0 0 off.toNat la.val
  | .enq a la => fmtM 0xBC000000 0 a.val 0 0 la.val
  | .enqd a la => fmtM 0xBD000000 0 a.val 0 0 la.val
  | .movh d imm => fmtJ 0xE0000000 d.val imm.toNat
  | .br m c off => fmtJ 0xE4000000 (m.val * 8 + c.toNat) off.toNat
  | .call off => fmtJ 0xE8000000 0 off.toNat
  | .sigchk x => fmtJ 0xEC000000 0 x.toNat
  | .addi d a imm => fmtI 0xC0000000 d.val a.val imm.toNat
  | .andi d a imm => fmtI 0xC1000000 d.val a.val imm.toNat
  | .ori d a imm => fmtI 0xC2000000 d.val a.val imm.toNat
  | .xori d a imm => fmtI 0xC3000000 d.val a.val imm.toNat
  | .shli d a c => fmtI 0xC4000000 d.val a.val c.val
  | .shri d a c => fmtI 0xC5000000 d.val a.val c.val
  | .sari d a c => fmtI 0xC6000000 d.val a.val c.val
  | .cmpi c kd a imm => fmtI 0xC7000000 (c.toNat * 8 + kd.val) a.val imm.toNat
  | .movi d imm => fmtI 0xC8000000 d.val 0 imm.toNat
  | .ldc d a imm => fmtI 0xC9000000 d.val a.val imm.toNat
  | .callr a => fmtI 0xCA000000 0 a.val 0
  | .callg slot => fmtI 0xCB000000 0 0 slot.toNat
  | .ret => fmtI 0xCC000000 0 0 0
  | .enter n => fmtI 0xCD000000 0 0 n.toNat
  | .exit => fmtI 0xCE000000 0 0 0
  | .jmpr a => fmtI 0xCF000000 0 a.val 0
  | .mpush k => fmtI 0xD0000000 0 k.val 0
  | .melse => fmtI 0xD1000000 0 0 0
  | .mpop => fmtI 0xD2000000 0 0 0
  | .setm a => fmtI 0xD3000000 0 a.val 0
  | .setmf f v => fmtI 0xD4000000 0 0 (f.val * 256 + v.toNat)
  | .getm d => fmtI 0xD5000000 d.val 0 0
  | .regn => fmtI 0xD6000000 0 0 0
  | .nop => fmtI 0xD7000000 0 0 0
  | .bkpt c => fmtI 0xD8000000 0 0 c.toNat
  | .trap c => fmtI 0xD9000000 0 0 c.toNat
  | .esc x y z => fmtI 0xDE000000 x.val y.val z.toNat
  | .prld d a => fmtI 0xDF000040 d.val a.val 0
  | .prst d a => fmtI 0xDF000080 d.val a.val 0
  | .prreg d a => fmtI 0xDF0000C0 d.val a.val 0
  | .pwreg d a => fmtI 0xDF000100 d.val a.val 0
  | .presume a => fmtI 0xDF000140 0 a.val 0
  | .pretry a => fmtI 0xDF000180 0 a.val 0
  | .predir d a => fmtI 0xDF0001C0 d.val a.val 0
  | .pkill a => fmtI 0xDF000200 0 a.val 0
  | .prplay a => fmtI 0xDF000240 0 a.val 0
  | .snap s => fmtI 0xDF000280 0 0 s.toNat
  | .reord d a => fmtI 0xDF0002C0 d.val a.val 0
  | .ptld d a n => fmtI 0xDF000300 d.val a.val n.val
  | .rgset d a e => fmtI 0xDF000340 d.val a.val e.val
  | .krepl d a => fmtI 0xDF000380 d.val a.val 0
  | .csrr d a => fmtI 0xDF0003C0 d.val a.val 0
  | .csrw d a => fmtI 0xDF000400 d.val a.val 0
  | .unassignedWord w => w.toNat
  | _ => 0

/-- The word of an instruction. -/
def encode (i : Instr) : Word := BitVec.ofNat 32 (encodeNat i)

/-- The instruction the decoder reads from the bits of an opcode-table row: the row's word is one 32-bit
little-endian word, its bits numbered as the table numbers them (R3, R193). -/
def decodeTableWord (_nbits w : Nat) : Option Instr :=
  match decode (BitVec.ofNat 32 w) with
  | .ok i => some i
  | .error _ => none

end Sys2Proof
end

