-- ==== Sys2Proof/Config.lean ====
section
/-! DEFINITION. What the manual leaves open: values it does not fix, as constants without a body, so that no
proof can see them (log 3, 5, 7, 8, 13, 16, 18, 20, 35, 46, 98, 105). -/

namespace Sys2Proof.Config

/-- How far GT runs, beyond 1 ns, between two steps; `n` is the number of the step (log 3). -/
opaque gtAdvance (n : Nat) : Nat

/-- An unpredictable 32-bit value (R6, R153, R154), drawn with a counter of the state (log 5). -/
opaque freeWord (n : Nat) : BitVec 32

/-- An unpredictable 64-bit value (R324, R371), drawn with a counter of the state (log 18). -/
opaque freeDword (n : Nat) : BitVec 64

/-- The tag that the scheduler gives register `j` that an instruction writes (R164; log 98). -/
opaque regTag (n j : Nat) : Nat

/-- Which of the values within the bound of R185 FRCP (0) and FRSQ (1) return; the same for one input, type
and rounding on every part (log 7). -/
opaque approxPick (fn ty rm : Nat) (x : Nat) : Nat

/-- Which of the values within the bound of R185 FEXP2 (2), FLOG2 (3), FSIN (4) and FCOS (5) return (log 7). -/
opaque approxBits (fn ty rm : Nat) (x : Nat) : Nat

/-- SHA3-256 (R398, R434 to R436; log 8). -/
opaque sha3 (bytes : List (BitVec 8)) : List (BitVec 8)

/-- ML-DSA-44 verification of a signature over a digest under a public key (R398, R436; log 8). -/
opaque verifies (key digest sig : List (BitVec 8)) : Bool

/-- ML-DSA-44 signature, 2,420 bytes, under the device identity key (R435; log 8). -/
opaque identitySign (digest : List (BitVec 8)) (i : Nat) : BitVec 8

/-- The device identity public key, 1,312 bytes (R434; log 8). -/
opaque identityKey (i : Nat) : BitVec 8

/-- The public key of slot 0 that the firmware image carries, 1,312 bytes (R434; log 8). -/
opaque firmwareKey (i : Nat) : BitVec 8

/-- SHA3-256 of the running firmware (R435; log 8). -/
opaque firmwareHash (i : Nat) : BitVec 8

/-- The signature that the firmware image carries under slot 0, 2,420 bytes (R434; log 8). -/
opaque firmwareSig : List (BitVec 8)

/-- Fused hash of a code-signing key slot (R434; log 13). -/
opaque fusedHash (slot i : Nat) : BitVec 8

/-- The lease in ns that the home package of a peer line grants, 0 for an answer without a copy
(R86, R87; log 20). -/
opaque peerLease (n : Nat) : Nat

/-- What another package's engine answers to a push, modulo 4: acceptance, or CODE 1, 3 or 4 (R322, R431; log 20). -/
opaque peerCode (n : Nat) : Nat

/-- The hash by which a die chooses among the Tosor ports of a route (R429; log 20). -/
opaque portHash (key : Nat) : Nat

/-- Whether a Tosor port carries a flit of waiting traffic at step `n` (R429; log 20). -/
opaque flitComes (n : Nat) : Bool

/-- The time root's GT, as timing flits bring it when GT locks (R430; log 3). -/
opaque rootTime (n : Nat) : Nat

/-- Where firmware puts a die's pool of parked records (0) and of task records (1), and the SIZE of the latter (2)
(R341, R371, R431; log 13). -/
opaque poolAt (die which : Nat) : Nat

/-- PRBASE.BASE of a die before anything is written to it (R6, R341; log 13). -/
opaque resetBase (die : Nat) : Nat

/-- The Tosor ports that have a partner and train, a bit each (R431; log 13). -/
opaque portsTrained (n : Nat) : Nat

/-- Whether the pattern of a scan test finds its core sound (R438; log 13). -/
opaque scanPasses (n : Nat) : Bool

/-- The data key (0) and the tag key (1) that the security controller draws at a reset, `n` the value drawn then (R391;
log 105). -/
opaque hbmKey (n which : Nat) : List (BitVec 8)

/-- AES-256-XTS of a 32-byte sector under a key and a tweak (R391; log 8). -/
opaque xts (key : List (BitVec 8)) (tweak : Nat) (sector : List (BitVec 8)) : List (BitVec 8)

/-- The first 64 bits of KMAC256 under a key of PA[51:5] and a sector (R391; log 8). -/
opaque kmac (key : List (BitVec 8)) (sector : Nat) (cipher : List (BitVec 8)) : BitVec 64

/-- Byte `i` of the RING field of a saved workgroup's record, for a ring at PP and CP with slots of a state, a FAIL bit
and a holder: 14/R365 gives what the field holds and not where (log 35). -/
opaque ringByte (pp cp : Nat) (slots : List (Nat × Bool × Option Nat)) (i : Nat) : BitVec 8

/-- Whether the Dealer takes the segment of a wave that waits under YIELDC, at step `n` (R160; log 46). -/
opaque takesSegment (n : Nat) : Bool

end Sys2Proof.Config
end

