-- ==== Sys2Proof/Machine/Sparse.lean ====
section
/-! DEFINITION. Tables with few entries: association lists with rising keys, and what a key without an entry
reads as given by the reader. -/

namespace Sys2Proof.Machine

/-- A table from numbers to values: (key, value) pairs, keys strictly rising. -/
abbrev Sparse (α : Type) := List (Nat × α)

/-- The value at a key, `d` where the table lists none. -/
def Sparse.get {α : Type} (d : α) : Sparse α → Nat → α
  | [], _ => d
  | (k', v) :: r, k => if k' = k then v else Sparse.get d r k

/-- The entry at a key, if there is one. -/
def Sparse.find {α : Type} : Sparse α → Nat → Option α
  | [], _ => none
  | (k', v) :: r, k => if k' = k then some v else Sparse.find r k

/-- The table with a value put at a key. -/
def Sparse.put {α : Type} : Sparse α → Nat → α → Sparse α
  | [], k, v => [(k, v)]
  | (k', v') :: r, k, v =>
    if k' < k then (k', v') :: Sparse.put r k v
    else if k' = k then (k, v) :: r
    else (k, v) :: (k', v') :: r

/-- The table without a key. -/
def Sparse.erase {α : Type} : Sparse α → Nat → Sparse α
  | [], _ => []
  | (k', v') :: r, k => if k' = k then Sparse.erase r k else (k', v') :: Sparse.erase r k

/-- The table with a value at a key, where a key of value `d` has no entry. -/
def Sparse.set {α : Type} [DecidableEq α] (d : α) (m : Sparse α) (k : Nat) (v : α) : Sparse α :=
  if v = d then Sparse.erase m k else Sparse.put m k v

/-- The entry at a key changed by a function, if there is one. -/
def Sparse.update {α : Type} (m : Sparse α) (k : Nat) (f : α → α) : Sparse α :=
  match Sparse.find m k with
  | some v => Sparse.put m k (f v)
  | none => m

/-- The least key from `k` up, within `n` tries, without an entry. -/
def Sparse.freeFrom {α : Type} (m : Sparse α) : Nat → Nat → Option Nat
  | _, 0 => none
  | k, n + 1 => match Sparse.find m k with
    | none => some k
    | some _ => Sparse.freeFrom m (k + 1) n

/-- Keys strictly rising from `lo`, and no entry equal to `d`. -/
def Sparse.wfFrom {α : Type} [DecidableEq α] (d : α) : Nat → Sparse α → Bool
  | _, [] => true
  | lo, (k, v) :: r => decide (lo ≤ k) && decide (v ≠ d) && Sparse.wfFrom d (k + 1) r

/-- The canonical form of a table in which `d` has no entry. -/
def Sparse.wf {α : Type} [DecidableEq α] (d : α) (m : Sparse α) : Bool := Sparse.wfFrom d 0 m

end Sys2Proof.Machine
end

