-- ==== Sys2Proof/Machine/State.lean ====
section
/-! DEFINITION. The state of one NJ-4128-A package: every piece of state the manual names, as plain data, and
the machine right after reset. Numbers that name things are: a wave is core × 48 + slot × 12 + resident number;
a core is R14's core index; a copy is core × 128 + slot; a segment is copy × 2^32 + index; a record is
die × 4096 + index; an instance of a system register is NUM × 256 + INST. -/

namespace Sys2Proof.Machine

/-! ## Waves (07, 09, 10, 13, 14) -/

/-- A poison mark: R390's ORIGIN code (0: not poisoned) and the address that FADDR reports (R385, R390). -/
structure Mark where
  origin : Nat
  addr   : Nat
  deriving DecidableEq, Repr

/-- No poison. -/
def Mark.none : Mark := { origin := 0, addr := 0 }

/-- What two words put together carry: tag poison only where no other poison is involved (R393). -/
def Mark.join (a b : Mark) : Mark :=
  if a.origin = 0 ∨ (a.origin = 9 ∧ b.origin ≠ 0) then b else a

/-- Register tags (R164). -/
inductive Tag where
  | plain | uniform | affine
  deriving DecidableEq, Repr

/-- A tag of a number, as a free value gives it. -/
def Tag.pick (n : Nat) : Tag := if n % 3 = 0 then .plain else if n % 3 = 1 then .uniform else .affine

/-- Roles of R353. -/
inductive Role where
  | copy | matrix | vector
  deriving DecidableEq, Repr

/-- What a resident place holds and why its wave does not issue (R354, R396). -/
inductive WStatus where
  | empty                 -- no wave
  | ready
  | waiting               -- at an instruction that waits; it tries again
  | parked                -- R42, R328
  | yielded (n : Nat)     -- R122, with its threshold; the PC is the continuation
  | draining              -- exited or killed, segment not yet free (R163)
  deriving DecidableEq, Repr

/-- A frame register (R36). `a` is the leaf's A bit when XLB filled the frame, `leaf` the leaf's physical
address (R34). -/
structure Frame where
  vbase : Nat
  pbase : Nat
  limit : Nat
  sz    : Nat
  cc    : Nat
  wp    : Nat
  cp    : Nat
  enc   : Bool
  p     : Bool
  x     : Bool
  w     : Bool
  r     : Bool
  g     : Bool
  v     : Bool
  a     : Bool
  leaf  : Nat
  deriving DecidableEq, Repr

/-- A frame at wave start (R36). -/
def Frame.empty : Frame :=
  { vbase := 0, pbase := 0, limit := 0, sz := 0, cc := 0, wp := 0, cp := 0, enc := false, p := false,
    x := false, w := false, r := false, g := false, v := false, a := true, leaf := 0 }

/-- A mask-stack entry (R170). -/
structure MaskEntry where
  exm   : Dword
  t     : Dword
  gmode : Dword
  els   : Bool
  deriving DecidableEq, Repr

def MaskEntry.empty : MaskEntry := { exm := 0, t := 0, gmode := 0, els := false }

/-- The state that REGN saves (R388). -/
structure Region where
  exm    : Dword
  gmode  : Dword
  cct    : Bool
  sigr   : Word
  msd    : Nat
  cdepth : Nat
  wb     : Nat
  sz     : Nat
  deriving DecidableEq, Repr

/-- A register as the lookahead promise names it: RKIND of R198 (0 vector, by logical number; 1 mask;
2 frame) and the number. -/
structure RegName where
  kind : Nat
  num  : Nat
  deriving DecidableEq, Repr

/-- An open lookahead window (R197): its instruction's PC and operation, the registers that instruction
writes, its LA and what is left of it. -/
structure Window where
  pc     : Dword
  op     : Nat
  writes : List RegName
  la     : Nat
  left   : Nat
  deriving DecidableEq, Repr

/-- A counted operation (R139) and whether it has finished; counters fall from the oldest. -/
structure Counted where
  op   : Nat
  done : Bool
  deriving DecidableEq, Repr

/-- A resident wave. -/
structure Wave where
  status   : WStatus
  role     : Role
  w64      : Bool
  sys      : Bool              -- a handler or system context (R212)
  kitty    : Bool              -- runs in a kitty context (R325)
  ctx      : Nat               -- translation context (R347)
  task     : Nat
  wg       : Nat
  wid      : Nat
  tid      : List Nat          -- TID of each lane (R346, R344)
  pc       : Dword
  exm      : Dword
  tm       : Dword             -- the lanes that carry a thread (R245)
  k        : Sparse Dword      -- k1 to k7 (R168)
  cct      : Bool
  gmode    : Dword
  sigr     : Word
  rer      : Dword
  region   : Option Region
  inRegion : Bool              -- the last instruction issued found its region open (R389)
  restarts : Nat
  wb       : Nat
  sz       : Nat
  cdepth   : Nat
  lo       : Nat
  hi       : Nat
  seg      : Nat
  segGran  : List Nat          -- granules of local store that hold the segment, in order
  segBase  : Nat               -- where the segment begins in the first of them
  hasSeg   : Bool              -- a segment holds its span; the Dealer may take it (R160)
  bb       : Dword
  regs     : Sparse (List Word)   -- logical register: its lanes (R153)
  rpoison  : Sparse Mark          -- logical register × 64 + lane (R385)
  tags     : Sparse Tag           -- by logical register; plain where none is listed (R164)
  links    : Sparse Dword         -- link words 0 to 15 (R155)
  mstack   : Sparse MaskEntry     -- the newest 16 entries (R170)
  msd      : Nat
  frames   : Sparse Frame
  mq       : List Counted         -- counters M, C, X, S (R139)
  cq       : List Counted
  xq       : List Counted
  sq       : List Counted
  lwct     : Nat
  gthi     : Word
  lwcthi   : Word
  windows  : List Window
  fword    : Option (Dword × Word)   -- a word fetched for the next issue, with its address (R57)
  seq      : Nat               -- instructions issued (for AHEAD, R328)
  idle     : Nat               -- cycles ready and not chosen (R355)
  stage    : Nat               -- how far the instruction at the PC has come; 0: it has not begun
  arg      : Nat               -- what the instruction at the PC left for its next stage
  gate     : List Nat          -- operations that must be translated before the next issue (R42, R439)
  retired  : Bool              -- exited or killed (R352)
  level    : Nat               -- the level of R355, boost applied
  deriving DecidableEq, Repr

/-- An empty resident place (log 11). -/
def Wave.empty : Wave :=
  { status := .empty, role := .vector, w64 := false, sys := false, kitty := false, ctx := 0, task := 0, wg := 0,
    wid := 0, tid := [], pc := 0, exm := 0, tm := 0, k := [], cct := false, gmode := 0, sigr := 0, rer := 0,
    region := none, inRegion := false, restarts := 0, wb := 0, sz := 8, cdepth := 0, lo := 0, hi := 8, seg := 64, segGran := [],
    segBase := 0,
    hasSeg := true, bb := 0, regs := [], rpoison := [], tags := [], links := [], mstack := [], msd := 0, frames := [], mq := [],
    cq := [], xq := [], sq := [], lwct := 0, gthi := 0, lwcthi := 0, windows := [], fword := none, seq := 0, idle := 0,
    stage := 0, arg := 0, gate := [], retired := false, level := 0 }

/-! ## Memory operations (06, 12) -/

/-- The attributes an access takes from its leaf or frame (R29, R36): class, policy, way partition,
permissions, the leaf's address and its A and D bits. -/
structure Attr where
  cc   : Nat
  cp   : Nat
  wp   : Nat
  p    : Bool
  x    : Bool
  w    : Bool
  r    : Bool
  a    : Bool
  d    : Bool
  leaf : Nat
  deriving DecidableEq, Repr

/-- What an operation does. -/
inductive OpKind where
  | load (signed : Bool)
  | store
  | atomic (op : AtomOp) (ty : Ty)
  | prefetch (flt : Bool)
  | xlb (f : Nat)
  | xinv (frames : List (Nat × Nat))        -- what the entries that it cleared mapped: first byte and length (R302)
  | local (write : Bool) (signed : Bool)
  | fetch
  | record (qw : Word) (count : Nat)      -- the 64-byte record of ENQ (R319), its queue word and count
  | image (table lane : Nat)              -- the image of PTLD (R338): the table, the lane that reads
  | long (vals : List (Nat × List Word))  -- results of long-latency arithmetic, by lane (R303)
  | checkin                               -- a check-in awaited by a fence (R80)
  deriving DecidableEq, Repr

/-- How far a lane has come. -/
inductive LPhase where
  | xlate | sent | fin
  | writing (line : Nat) (out : Bool)      -- a store on its way to a home (R57); `out`: the line is to be checked out
  | mig (die id : Nat)                     -- waits on a migration (R53)
  | fault (cls : Nat) (finfo : Dword)
  deriving DecidableEq, Repr

/-- A lane of an operation: its address, its data and how far it has come. -/
structure LaneOp where
  lane  : Nat
  va    : Dword
  phase : LPhase
  data  : List Byte       -- store or atomic data
  cmp   : List Byte       -- compare value of ACAS; of a store, its whole source registers (R327)
  key   : Option Nat      -- the key VA[56:16] whose walk ended in a PAGE fault (R45)
  deriving DecidableEq, Repr

/-- An outstanding operation of a wave. Its lanes that were refused stay in it until the wave parks for them, in the
order of issue (R439), and `resume` marks that its record stands (R42). -/
structure MemOp where
  wave   : Nat
  kind   : OpKind
  pc     : Dword
  iword  : Word
  frame  : Option Frame    -- the frame its lanes were formed from
  dst    : List Nat        -- logical destination registers, in field order
  size   : Nat
  hint   : Hint
  order  : Order
  scope  : Option Scope    -- of ordered accesses and atomics
  count  : Option Counter  -- which counter counts it
  seq    : Nat
  gmode  : Dword
  replay : Bool            -- a replay of a record's lanes (R42)
  resume : Bool
  npc    : Dword           -- where the wave goes on after a replay
  cdepth : Nat
  lanes  : List LaneOp
  missed : Bool := false   -- some line of it was absent at its home (R360)
  deriving DecidableEq, Repr

/-- A TLB entry (R40): the leaf and its physical address, tagged with ASID and the 64 KiB page it starts at. -/
structure TlbEntry where
  asid  : Nat
  page  : Nat             -- VA[56:16] of the page's first granule
  size  : Nat             -- 0 64 KiB, 1 2 MiB, 2 1 GiB
  leaf  : Dword
  leafA : Nat
  deriving DecidableEq, Repr

/-- Kinds of cached copies (R56). -/
inductive CKind where
  | l | t | x | c
  deriving DecidableEq, Repr

/-- A copy in a core's local-store cache (R56). `dirty` lists the offsets written, `writers` the waves whose
stores a check-in carries (R80), `marks` the poison of its words, by offset (R385). `old` lists the offsets at which a
C copy held an older value than the home when it came (R79, R135). -/
structure CacheCopy where
  line   : Nat
  kind   : CKind
  data   : List Byte
  expiry : Nat
  lh     : Nat
  dirty  : List Nat
  writers : List Nat
  marks  : Sparse Mark
  old    : List Nat
  cls    : Nat             -- class of the table that serves the line: 0 GENERAL, 1 UPDATE, 2 TWIN
  deriving DecidableEq, Repr

/-! ## Homes (03, 04) -/

/-- Who owns a line (R68). -/
inductive Owner where
  | nobody | core (c : Nat) | host
  deriving DecidableEq, Repr

/-- A scope record (R83). -/
structure ScopeRec where
  agent : Agent
  scope : Scope
  tag   : Nat
  deriving DecidableEq, Repr

/-- A split row in progress (R70): the request's event, its row, the state before it, replies still awaited,
data that the replies carried, BISnpInv attempts made (R90). -/
structure Held where
  ev     : Nat
  hreq   : HomeReq
  row    : Dword
  prior  : Nat
  acks   : Nat            -- INV and UPD answers awaited
  rcl    : Bool           -- the owner's answer awaited
  host   : Bool           -- the host's answer awaited
  rdata  : Option (List Byte)
  hdata  : Option (List Byte)
  soiled : List Nat       -- sectors of that data that are poisoned (R385)
  tries  : Nat
  flush  : Bool           -- an eviction made by a flush or a drain (R90)
  old    : Dword          -- an atomic performed before its UPD (R70)
  deriving DecidableEq, Repr

/-- A line in a home slice (R60, R72, R79, R83, R92). `data` is the slice's own copy of the bytes where memory
does not hold them: private mode, the host window, peer proxies. -/
structure L2Line where
  line    : Nat
  state   : Nat
  table   : Nat
  lc      : Nat
  lh      : Nat
  sharers : List Nat
  ovf     : Bool
  owner   : Owner
  record  : Option ScopeRec
  twin    : Option (List Byte)
  changed : List Nat
  cf      : Bool
  count   : Nat
  held    : Option Held
  queue   : List Instr     -- requests that wait for the line (R54)
  valid   : Nat            -- sector valid bits
  enc     : Nat            -- encoding of R97
  way     : Nat
  wp      : Nat
  cp      : Nat
  data    : Option (List Byte)
  dirty   : Bool
  expiry  : Nat            -- of a peer line's copy in its proxy (R86)
  hostOwn : Bool           -- a host-window line held with RdOwn (R91)
  deriving DecidableEq, Repr

/-- A home slice: its lines, least recently used first, its eviction horizon (R60), requests that wait for a
way or for a host answer, and the ways chosen for the lines of waiting requests: line and way (R101). -/
structure Slice where
  lines  : List L2Line
  ehz    : Nat
  wait   : List Instr
  claims : List (Nat × Nat)
  deriving DecidableEq, Repr

def Slice.empty : Slice := { lines := [], ehz := 0, wait := [], claims := [] }

/-- A protocol table (R64 to R66): its header and its rows. -/
structure Table where
  header : Dword
  rows   : List Dword
  deriving DecidableEq, Repr

/-- A pending RGSET (R62): the entry, its old words, who issued it, whether a host copy was dropped. -/
structure RangeDrain where
  entry : Nat
  w0    : Dword
  w1    : Dword
  wave  : Nat
  lost  : Bool
  done  : Bool
  lines : List (Nat × Nat)   -- slice and line of what has still to drain
  deriving DecidableEq, Repr

/-- What the device sends to the host or to a peer package: the completion of a request with its message (R69), the
answer to a snoop, a line given back (R68, R87, R91, R95). -/
inductive SentKind where
  | completion (msg : Nat)
  | snoop
  | dirtyEvict
  | cleanEvict
  | refused (cls : Nat) (finfo : Dword)   -- a peer's request refused (R71, R85, R384)
  | register                      -- the value of a register that the host reads (R17, R426, R427)
  deriving DecidableEq, Repr

/-- Something sent to the outside: to whom, about which line or register, the data, the old value of an atomic, the
expiry and the WCT that go with it, the GT before which it does not leave (R68, R91), and how many homes have still to
answer (R95). -/
structure Sent where
  who    : Requester
  kind   : SentKind
  line   : Nat
  data   : List Byte
  old    : Dword
  expiry : Nat
  wct    : Nat
  due    : Nat
  left   : Nat
  deriving DecidableEq, Repr

/-- What travels over a Tosor port and has not been answered (R429): a request at its proxy, by event; a push; a signal; a
wave's access to a record, through a handle. -/
inductive LinkWork where
  | req (home ev : Nat) (r : HomeReq)
  | push (p : Push)
  | signal (g : Signal)
  | record (wave : Nat) (handle : Nat)
  deriving DecidableEq, Repr

/-- Outstanding Tosor traffic: what it is, the die that sends it, the package it is for, when it began to wait (R429,
R430). -/
structure Link where
  work  : LinkWork
  die   : Nat
  pkg   : Nat
  since : Nat
  deriving DecidableEq, Repr

/-! ## Copies (05) -/

/-- The seven copies (R111). -/
inductive CopyOp where
  | cpy | cpymc | cpyst | cpyg | cpys | cpyp | cpyq
  deriving DecidableEq, Repr

/-- How far a sector has come (R114, R115). A sector that is read has some bytes, and the poison they carry; one that is
written awaits answers, and `rest` is what it sends once they are in. -/
inductive SPhase where
  | wait                            -- to be translated
  | reading (got : List (Nat × Byte)) (marks : List Mark) (left : Nat)
  | writing (left : Nat) (rest : List Instr)
  | landed
  | mig (die id : Nat) (va : Dword)
  | fail (cls : Nat) (finfo : Dword) (fva : Dword) (key : Option Nat)
  deriving DecidableEq, Repr

/-- A segment in flight or parked (R114, R123): its sectors that no add to the barrier covers yet, and whether PRK
counts them. -/
structure Seg where
  sectors : Sparse SPhase
  parked  : Bool
  prk     : Bool
  landB   : Nat
  src     : Dword
  dst     : Dword
  shape   : Dword
  push    : Nat          -- CPYQ: 0 data, 1 the record is read and pushed (R308)
  again   : List Nat     -- sectors read once more after poison in a droppable copy (R389)
  wct     : Nat
  deriving DecidableEq, Repr

/-- A copy in a slot (R108, R306). -/
structure Copy where
  op     : CopyOp
  id     : Nat
  wave   : Nat
  opId   : Nat           -- the entry in the wave's C counter
  wg     : Nat
  gang   : Nat
  ctx    : Nat
  sys    : Bool
  pc     : Dword
  iword  : Word
  fsrc   : Frame
  fdst   : Frame
  src    : Dword
  dst    : Dword
  shape  : Dword
  n      : Nat
  bar    : Nat
  ring   : Nat
  slotIx : Nat
  mask   : Nat
  queue  : Word
  dep    : Nat
  recVA  : Dword
  hint   : Hint
  next   : Nat           -- next segment to issue
  segs   : Sparse Seg
  killed : Nat           -- bytes abandoned
  tail   : Nat           -- bytes of the last segment that have landed (R123)
  stopped : Bool         -- no further segment is issued (R125, R128)
  deriving DecidableEq, Repr

/-! ## The matrix engine (11) -/

/-- The matrix instructions that the engine performs. -/
inductive MatKind where
  | mma | mmas | mmab | comp | plnw | plnr | accz | accld | accst | accrd | accwr
  deriving DecidableEq, Repr

/-- An octet operation, or the whole of a tile instruction with `oct` 15 (R265, R281). -/
structure MatOp where
  id    : Nat
  kind  : MatKind
  inst  : Nat            -- the instruction it belongs to
  wave  : Nat
  wg    : Nat
  opId  : Nat            -- the entry in the wave's X counter
  pc    : Dword
  iword : Word
  oct   : Nat
  rows  : Nat
  nextc : Nat
  xf    : Nat
  ff    : Nat
  mxa   : Nat
  mxb   : Nat
  tile  : Nat
  boff  : Nat
  bsoff : Nat
  aoff  : List Nat
  asoff : List Nat
  base  : Nat            -- the half that was current at issue: local-store offset added to a shadowed offset
  vals  : List (Nat × Word)   -- ACCWR: the lanes' values; ACCRD: the lanes
  marks : List (Nat × Mark)   -- ACCWR: the poison of the lanes' values
  dst   : Nat            -- ACCRD: the logical destination register
  fold  : Nat            -- restarts made on poison (R389)
  parked : Bool
  again  : Bool           -- parked, its PRETRY given: it waits for a place (R282)
  seen   : Sparse (Byte × Mark)   -- local-store bytes, with their poison, as they stood at issue, where a write has passed
                                  -- them since (R277, R280)
  deriving DecidableEq, Repr

/-- A core's engines: the token and its waiters (R262), accepted matrix operations in issue order (R264),
writes held on registered granules (R278). -/
structure Engine where
  token : Option Nat
  tokq  : List Nat
  ops   : List MatOp
  held  : List WindowAccess
  stop  : Bool
  deriving DecidableEq, Repr

def Engine.empty : Engine := { token := none, tokq := [], ops := [], held := [], stop := false }

/-! ## Workgroups and tasks (12, 13, 14) -/

/-- States of a ring slot (R312). -/
inductive RSlot where
  | empty | held | full | taken
  deriving DecidableEq, Repr

/-- A slot of a ring: state, FAIL bit, holder, whether a CPYST is outstanding (R312, R307). -/
structure RingSlot where
  state  : RSlot
  fail   : Bool
  holder : Option Nat
  cpyst  : Bool
  deriving DecidableEq, Repr

/-- A stage ring (R312), with the waves that wait in RNGA and in RNGW in the order they came (R314). -/
structure Ring where
  ns    : Nat
  sb    : Nat
  off   : Nat
  pp    : Nat
  cp    : Nat
  slots : List RingSlot
  waitA : List Nat
  waitW : List Nat
  deriving DecidableEq, Repr

/-- A wave's arrival at REORD (R344): its lanes, their keys, its live mask. -/
structure ReordArr where
  wave : Nat
  p    : Dword
  keys : List Word
  live : Dword
  deriving DecidableEq, Repr

/-- A barrier (R309). -/
structure Barrier where
  arrived : Nat
  phase   : Bool
  deriving DecidableEq, Repr

/-- A placed workgroup. -/
structure Workgroup where
  task     : Nat
  core     : Nat
  gang     : Nat
  wgid     : Nat
  gangIx   : Nat
  wgt      : Nat
  ggt      : Nat
  waves    : List Nat          -- by WID
  spb      : Nat
  l        : Nat
  s        : Nat
  cur      : Bool
  bars     : List Barrier
  departed : Nat
  ssarr    : Nat               -- waves arrived at SSTEP
  rings    : Sparse Ring
  reord    : List ReordArr
  tiles    : Bool
  kittyIx  : Option Nat
  areas    : List Nat          -- backing areas, by WID
  segs     : List Nat          -- granules of local store that hold its segments, until it retires (R352)
  deriving DecidableEq, Repr

/-- What a kernel descriptor and its loaded object give a launch (R399, R403, R405). -/
structure Kernel where
  entry    : Dword
  wsz      : Nat
  nwave    : Nat
  w64      : Bool
  precise  : Bool
  prefault : Bool
  indigo   : Bool
  roles    : List Role
  l        : Nat
  s        : Nat
  rings    : List (Nat × Nat × Nat × Nat)   -- number, slots, slot bytes, offset
  constPA  : Nat
  constSz  : Nat
  gotPA    : Nat
  gotSlots : Nat
  deriving DecidableEq, Repr

/-- Where a task stands (R322, R323, R336, R357, R382). -/
inductive TPhase where
  | waiting                -- in the wait pool
  | queued
  | kwait                  -- on the kitty wait list
  | loading                -- its object is being loaded (R407)
  | placing                -- with the Dealer
  | running                -- wholly placed
  | signalling
  | parked                 -- a unit of KIND TASK
  | done                   -- its signals given, its workgroups not yet retired
  deriving DecidableEq, Repr

/-- A task (R320, R336, R347, R348, R358, R359). -/
structure Task where
  die     : Nat
  words   : List Dword
  qw      : Word
  level   : Nat
  src     : Dword
  count   : Nat
  failed  : Bool            -- the FAILED that a dispatch or signals carry
  phase   : TPhase
  ltag    : Nat
  succIx  : Nat
  nest    : Nat             -- the level of R380
  record  : Option Nat      -- the handle of the record a FAULT task names
  ctx     : Nat
  bbase   : Dword
  nback   : Nat
  boost   : Nat
  entry   : Dword           -- the indirection entry that its dispatch read (R339)
  kernel  : Option Kernel
  nwg     : Nat
  gsz     : Nat
  regs    : Nat
  nextWg  : Nat             -- workgroups placed so far
  live    : Nat             -- workgroups not yet retired
  budget  : Nat
  hasBudget : Bool
  deadline : Nat
  bad     : Bool            -- one of its units was killed, or it was itself (R336)
  cause   : Nat             -- class that parked it
  skip    : Bool            -- successor entries that fail are skipped (R336)
  stop    : Bool            -- its waves stand still: BUDGET or DEADLINE (R358, R359)
  paused  : Bool            -- its signals wait for the RESTORE of its context (R364)
  wct     : Nat             -- greatest WCT of its ended waves (R323)
  kctx    : Option Nat      -- the kitty context that it holds (R382)
  deriving DecidableEq, Repr

/-- States of a fault-buffer entry (R45). -/
inductive FbState where
  | free | pending | opened | replay
  deriving DecidableEq, Repr

/-- A fault-buffer entry (R45): its key, its named unit, its waiters; units as (KIND, number). -/
structure FbEntry where
  state    : FbState
  asid     : Nat
  ctx      : Nat
  page     : Nat
  level    : Nat
  reason   : Nat
  named    : Nat × Nat
  waiters  : List (Nat × Nat)
  record   : Option Nat
  prefault : Bool
  deriving DecidableEq, Repr

def FbEntry.free : FbEntry :=
  { state := .free, asid := 0, ctx := 0, page := 0, level := 0, reason := 0, named := (0, 0), waiters := [],
    record := none, prefault := false }

/-- A parked record (R324 to R328): its 8-byte words by offset / 8, its unit, the fault tasks that name it, and
whether HOLD was applied (R382). -/
structure Record where
  words : Sparse Dword
  kind  : Nat
  unit  : Nat
  tasks : Nat
  hold  : Bool
  marks : Sparse Mark      -- poison of its 4-byte words, by offset (R386)
  policy : Sparse Dword    -- the policy entries that held when it was written, by class × 4 + word (R375)
  deriving DecidableEq, Repr

/-- A migration in progress (R51 to R53). -/
structure Migration where
  id      : Nat
  req     : Nat            -- PA of the request
  leafPA  : Nat
  oldv    : Dword
  dest    : Nat
  size    : Nat
  drained : Bool
  waiters : List (Nat × Nat)
  deriving DecidableEq, Repr

/-- States of a kitty context (R382). -/
inductive KState where
  | free | held | draining
  deriving DecidableEq, Repr

/-- A saved workgroup (R365). Its waves, copies, matrix operations, scratchpad and tiles stand, as they were, on a
core number of their own beyond the real ones (a pseudo-core); here are the granules that the image takes: core and
first byte, or no core and a granule of the save area (R366). -/
structure Saved where
  pcore  : Nat
  die    : Nat
  ctx    : Nat
  wg     : Nat
  gran   : List (Option Nat × Nat)
  deriving DecidableEq, Repr

/-- An indigo run of a wave (R360, R361): whether it goes on, the copy that it executes against, the indigo registers
(logical number × 64 + lane), masks and frames, instructions run, the operation that the wave waits on and how many
instructions the wave had issued: a run that is over stays noted until the wave waits for something else. -/
structure Indigo where
  live   : Bool
  seq    : Nat
  copy   : Wave
  marks  : List Nat
  kmarks : List Nat
  fmarks : List Nat
  run    : Nat
  op     : Nat
  deriving DecidableEq, Repr

/-- A slot of an enqueue window (R428). -/
structure EnqSlot where
  words : List Dword
  qw    : Word
  dcnt  : Nat
  code  : Nat
  state : Nat
  deriving DecidableEq, Repr

def EnqSlot.empty : EnqSlot := { words := [0, 0, 0, 0, 0, 0, 0, 0], qw := 0, dcnt := 0, code := 0, state := 0 }

/-- A scan test in progress (R438). -/
structure Scan where
  core   : Nat
  alevel : Nat
  begun  : Bool
  deriving DecidableEq, Repr

/-- An entry of the verification cache (R405): load record, generation, security version, and the number of
kernel descriptors. -/
structure VEntry where
  lr  : Nat
  gen : Nat
  svn : Nat
  nk  : Nat
  deriving DecidableEq, Repr

/-- MODE of R431. -/
inductive Mode where
  | reset | ochre | full | degraded
  deriving DecidableEq, Repr

/-- Device power states (R432). -/
inductive Power where
  | d0 | d3hot | d3cold
  deriving DecidableEq, Repr

/-- A move that is made before any other (log 2): an event, a wave, or what the outside does to the memories: an error
that ECC cannot correct, in a word, an element or a sector that is read (R385), and a change of an encrypted granule
behind its controller's back, by its effect on the granule's tag (R391). -/
inductive Turn where
  | event (i : Instr)
  | wave (id : Nat)
  | redo (id : Nat) (back : Wave)   -- a replay of lanes from a record (R334), and the wave to go on with
  | upset (pa : Nat)                -- in memory, an L2 slice, scratchpad or an accumulator element
  | upsetReg (id reg lane : Nat)    -- in a word of a wave's registers
  | upsetCopy (core line off : Nat) -- in a word of a core's cache copy
  | tamper (gran : Nat) (d : Dword)
  deriving DecidableEq, Repr

/-- The attestation mailbox (R436). -/
structure Mailbox where
  state  : Nat
  status : Nat
  inlen  : Nat
  outlen : Nat
  input  : Sparse Byte
  output : List Byte
  deriving DecidableEq, Repr

def Mailbox.empty : Mailbox := { state := 0, status := 0, inlen := 0, outlen := 0, input := [], output := [] }

/-! ## The package -/

/-- One package. -/
structure State where
  mode      : Mode
  power     : Power
  failed    : Nat                    -- mask of failed dies (R431)
  throttle  : Bool                   -- power over limit (R433)
  hot       : Bool                   -- thermal throttle (R433)
  gt        : Nat
  ticks     : Nat                    -- the model's own: steps made (log 3)
  fresh     : Nat                    -- the model's own: free values drawn (log 5)
  nextId    : Nat                    -- the model's own: numbers given
  cur       : Nat                    -- the wave that moves
  slotTurn  : Nat                    -- the issue slot that moves next (log 2)
  slotPtr   : Sparse Nat             -- round-robin pointer per slot (R355)
  turns     : List Turn              -- forced moves (log 2)
  agenda    : List Instr             -- events under way (log 2)
  mem       : List Host.Cell         -- every byte of memory and local store, by physical address
  poison    : Sparse Mark            -- by the address of the sector, word or element (R385)
  pkg       : Nat                    -- package number (R14)
  csr       : Sparse Dword           -- system registers that software writes, by NUM × 256 + INST
  cores     : List Nat               -- removed cores (R438)
  waves     : Sparse Wave
  wgs       : Sparse Workgroup
  tasks     : Sparse Task
  queues    : Sparse (List Nat)      -- die × 16 + level
  pool      : Sparse (List Nat)      -- wait pool of a die, oldest first
  kwaits    : Sparse (List Nat)      -- kitty wait list of a die
  dealer    : Sparse (List Nat)      -- launches the Dealer holds, in order of dispatch
  pointer   : Sparse Nat             -- the Dealer's round-robin pointer, a core of the die
  dispatchN : Sparse Nat             -- n of R357
  pushes    : List Push              -- pushes that wait, for a free pool record or for the link (R322, R430)
  kitty     : Sparse KState          -- die × 64 + context
  ops       : Sparse MemOp
  l1tlb     : Sparse (List TlbEntry) -- by core
  l2tlb     : Sparse (List TlbEntry) -- by cluster
  walks     : List WalkKey           -- outstanding walks (R41)
  fb        : Sparse (List FbEntry)  -- by cluster: eight entries (R45)
  dropped   : Sparse (List (Nat × Nat))   -- by cluster: units, oldest first (R47)
  migs      : Sparse (List Migration)     -- by die
  caches    : Sparse (List CacheCopy)     -- by core
  copies    : Sparse Copy
  engines   : Sparse Engine          -- by core
  slices    : Sparse Slice           -- by die × 384 + slice
  sent      : List Sent              -- what went to the host and to peers, oldest first: the outside takes it
  tables    : Sparse Table           -- 1 to 7 where LOADED (R64)
  ranges    : Sparse (Dword × Dword) -- range table (R61)
  drains    : List RangeDrain
  records   : Sparse Record
  detached  : Sparse (List ParkImage)     -- by die: units without a record (R374)
  recwait   : Sparse Bool                 -- a RECWAIT entry was logged since the pool last had a free record
  saved     : List Saved
  saving    : List (Nat × Nat)       -- die and context of a save that is not complete (R364)
  written   : Sparse (List (Option Nat × Nat))   -- granules of a workgroup's image that are written while others wait (R366)
  guests    : Sparse (List Nat)      -- granules of a core that guest images hold (R366)
  barred    : List (Nat × Nat)       -- die and context that PRECTL keeps from placement (R363)
  indigo    : Sparse Indigo          -- by wave
  windows   : Sparse EnqSlot         -- die × 16 + slot
  mailbox   : Mailbox
  keys      : Sparse (List Byte)     -- the key table (R434)
  revoked   : List Nat               -- revoked key slots
  kix       : Sparse Dword           -- kernel indirection entries, context × 4096 + index (R404)
  vcache    : List VEntry            -- most recently used first (R405)
  scans     : Sparse Scan            -- by die
  flushing  : Option (Nat × Bool × Option Nat)   -- L2MODE flush: value, host copy lost, issuing wave (R96)
  latched   : Sparse Dword           -- snapshot words, block × 65536 + word (R396)
  latchGT   : Nat
  cntuni    : Sparse Nat             -- by core: instructions run on the scalar unit (R164)
  cntaff    : Sparse Nat             -- by core: affine operands read (R164)
  ewct      : Nat                    -- the greatest WCT of an engine write (R144)
  encs      : List (Nat × Nat)       -- pages of HBM held encrypted: first byte and length (R391)
  tagDiff   : Sparse Dword           -- by granule: the tag that its controller holds against that of its sectors (R391)
  keyDraw   : Nat                    -- the draw from which the keys of encrypted pages come (R391)
  vacating  : List Nat               -- cores whose cache is emptied for a grant of local store (R151)
  ports     : Sparse (Nat × Nat × Nat)   -- Tosor port: flits sent, flits retried, retries of the flit at hand (R429)
  link      : List Link              -- Tosor traffic that has not been answered, oldest first (R429, R430)
  cntsbm    : Sparse Nat             -- by core: squashes of its issue slots (R356)
  deriving DecidableEq, Repr

/-- Why the machine stops with a fault. On this device a fault parks a unit and the machine goes on, so the
only stop is an access beyond the 52-bit physical map, which no translation can make. -/
inductive Fault where
  /-- Raised by an event whose physical address lies beyond the map of R18; safe: no state follows. -/
  | beyondMap (pa : Nat)
  deriving DecidableEq, Repr

/-- Why a meaning gives no state. -/
inductive Refusal where
  /-- Raised by an arm of `exec` without a meaning; safe. -/
  | notModelled (mnemonic : String)
  /-- Raised by an event that cannot occur in this state: its guard does not hold. Safe: the device never takes
  that step there. -/
  | notEnabled (event : String)
  deriving DecidableEq, Repr

/-- Reset values of the system registers that software writes (R17, R26, R59, R61, R96, R100, R341, R342, R363,
R366, R371, R375, R381, R382, R392, R394, R395, R437, R438, R440), by NUM; 0 for every other. -/
def csrReset (num : Nat) : Dword :=
  if num = 0x30 then 0x40
  else if num = 0x31 then 0x10
  else if num = 0x32 then 0x100
  else if num = 0x33 then 0x400
  else if num = 0x34 then 0x1000
  else if 0x60 ≤ num ∧ num ≤ 0x67 then 0x88FFFF
  else if num = 0x203 then 1                              -- TQSTAT.RP
  else if num = 0x204 then 0x10000                        -- EVCFG0.NBACK
  else if 0x304 ≤ num ∧ num ≤ 0x35B then
    (if num % 4 = 0 then (if num = 0x334 then 0x4200000000300000 else 0x1200000000300000)
     else if num % 4 = 1 then 0x0030000000010000 else 0)
  else if num = 0x380 then 0x1024                         -- KCFG: COUNT 16, NEST 2, KLS 4
  else if num = 0x3A0 then 0x15180
  else if num = 0x3C0 then 1                              -- SNAPCTL.ESNAP
  else if num = 0x401 then 0x300000
  else if num = 0x402 then 1600
  else if num = 0x410 then 2000
  else 0

/-- The package right after reset (R431): every structure empty (log 12), the system registers at the values of
`csrReset`, MODE RESET. -/
def State.reset : State :=
  { mode := .reset, power := .d0, failed := 0, throttle := false, hot := false, gt := 0, ticks := 0, fresh := 0,
    nextId := 1, cur := 0, slotTurn := 0, slotPtr := [], turns := [], agenda := [], mem := [], poison := [],
    pkg := 0, csr := [], cores := [], waves := [], wgs := [], tasks := [], queues := [], pool := [], kwaits := [],
    dealer := [], pointer := [], dispatchN := [], pushes := [], kitty := [], ops := [], l1tlb := [], l2tlb := [], walks := [],
    fb := [], dropped := [], migs := [], caches := [], copies := [], engines := [], slices := [], sent := [], tables := [],
    ranges := [], drains := [], records := [], detached := [], recwait := [], saved := [], saving := [], written := [],
    guests := [], barred := [], indigo := [], windows := [], mailbox := .empty, keys := [], revoked := [], kix := [],
    vcache := [], scans := [], flushing := none, latched := [], latchGT := 0, cntuni := [], cntaff := [], ewct := 0, encs := [], tagDiff := [],
    keyDraw := 0, vacating := [], ports := [], link := [], cntsbm := [] }

end Sys2Proof.Machine
end

