-- ==== Sys2Proof/Machine/Ops.lean ====
section
/-! DEFINITION. The named operations over the state: bit fields, memory, waves and registers, system registers,
events under way, taking a fault (parking a unit, 02/R42, 13/R324 to R328, 15/R372 to R377) and what a parked
unit does when it ends. -/

namespace Sys2Proof.Machine

/-! ## Fields and bytes (R2, R3) -/

/-- Bits `lo + width - 1` to `lo` of a 64-bit value. -/
def fld (d : Dword) (lo width : Nat) : Nat := bits d.toNat lo width

/-- A 64-bit value with a field replaced. -/
def setFld (d : Dword) (lo width v : Nat) : Dword :=
  BitVec.ofNat 64 (d.toNat - fld d lo width * 2 ^ lo + v % 2 ^ width * 2 ^ lo)

/-- A 64-bit value as a number. -/
def dw (n : Nat) : Dword := BitVec.ofNat 64 n

/-- A 32-bit value of a number. -/
def wd (n : Nat) : Word := BitVec.ofNat 32 n

/-- Bit `n` of a mask. -/
def bitOf (m : Dword) (n : Nat) : Bool := m.toNat / 2 ^ n % 2 == 1

/-- The mask of the lanes below `n` for which `f` holds. -/
def maskOf (n : Nat) (f : Nat → Bool) : Nat :=
  (List.range n).foldl (fun acc l => if f l then acc + 2 ^ l else acc) 0

/-- The lowest lane below `n` for which `f` holds. -/
def lowestLane (n : Nat) (f : Nat → Bool) : Option Nat := (List.range n).find? f

/-- Little-endian bytes as a number. -/
def ofBytes : List Byte → Nat
  | [] => 0
  | b :: r => b.toNat + 256 * ofBytes r

/-- A number as `n` little-endian bytes. -/
def toBytes : Nat → Nat → List Byte
  | 0, _ => []
  | n + 1, v => BitVec.ofNat 8 v :: toBytes n (v / 256)

/-- The bytes of a list of register values, low word first (R174). -/
def wordBytes : List Word → List Byte
  | [] => []
  | w :: r => toBytes 4 w.toNat ++ wordBytes r

/-- A signed reading of an n-bit number. -/
def toSigned (n v : Nat) : Int := if v % 2 ^ n < 2 ^ (n - 1) then ((v % 2 ^ n : Nat) : Int) else ((v % 2 ^ n : Nat) : Int) - (2 ^ n : Nat)

/-- The n-bit number of an integer, modulo 2^n. -/
def ofInt (n : Nat) (v : Int) : Nat := (v % ((2 ^ n : Nat) : Int)).toNat

/-! ## Events under way (log 2) -/

/-- An event set under way. -/
def State.post (s : State) (i : Instr) : State := { s with agenda := s.agenda ++ [i] }

/-- Several events set under way, in order. -/
def State.postAll (s : State) (is : List Instr) : State := { s with agenda := s.agenda ++ is }

/-- A number for a new thing. -/
def State.bump (s : State) : State := { s with nextId := s.nextId + 1 }

/-- The next free value (R6; log 5). -/
def State.draw (s : State) : State := { s with fresh := s.fresh + 1 }

/-! ## The physical map (R18 to R24) -/

/-- The regions of R18. -/
inductive Target where
  | hbm | alias_ | onchip | device | host | peer | reserved
  deriving DecidableEq, Repr

/-- The region that holds a physical address. -/
def targetOf (pa : Nat) : Target :=
  if pa < 0x8000000000 then .hbm
  else if pa < 0x10000000000 then .alias_
  else if pa < 0x10040000000 then .onchip
  else if 0x10100000000 ≤ pa ∧ pa < 0x10200000000 then .device
  else if 0x4000000000000 ≤ pa ∧ pa < 0x8000000000000 then .host
  else if 0x8000000000000 ≤ pa ∧ pa < 0x10000000000000 then .peer
  else .reserved

/-- The die-local form of an address (R21). -/
def dieLocal (pa : Nat) : Nat :=
  if 0x8000000000 ≤ pa ∧ pa < 0x10000000000 then
    bits (pa - 0x8000000000) 12 2 * 2 ^ 37 + bits (pa - 0x8000000000) 14 25 * 4096 + bits (pa - 0x8000000000) 0 12
  else pa

/-- The place in the die-interleaved alias of a die-local address (R21). -/
def interleaved (p : Nat) : Nat := 0x8000000000 + bits p 12 25 * 16384 + bits p 37 2 * 4096 + p % 4096

/-- Whether a die-local address lies in a range of physical addresses, in either form (R21). -/
def inRange (r : Nat × Nat) (p : Nat) : Bool :=
  (decide (r.1 ≤ p) && decide (p < r.1 + r.2)) ||
    (decide (p < 0x8000000000) && decide (r.1 ≤ interleaved p) && decide (interleaved p < r.1 + r.2))

/-- The HBM stack and the channel of that stack that hold a die-local address (R20). -/
def stackOf (pa : Nat) : Nat := 2 * bits pa 37 2 + (bits pa 8 1 ^^^ bits pa 17 1)
def channelOf (pa : Nat) : Nat := bits pa 9 5 ^^^ bits pa 18 5 ^^^ bits pa 27 5

/-- Core numbers of 512 and more hold saved work, which nothing performs (log 35). -/
def real (core : Nat) : Bool := decide (core < 512)

/-- The first byte of core `c`'s on-chip window (R24); saved work is held beyond every physical address. -/
def winBase (c : Nat) : Nat := (if real c then 0x10000000000 else 2 ^ 61) + c * 0x200000

/-- Whether an address is of on-chip memory. -/
def isOnchip (a : Nat) : Bool := (decide (0x10000000000 ≤ a) && decide (a < 0x10040000000)) || decide (2 ^ 61 ≤ a)

/-- The address of tile t's element (i, j) (R103). -/
def tileAddr (c t i j : Nat) : Nat := winBase c + 0x180000 + 4096 * t + 128 * i + 4 * j

/-- The die of a core, its cluster in the package, and the core of a wave (R14). Saved work stands on core numbers of
512 and more, each of the die that saved it. -/
def dieOfCore (c : Nat) : Nat := c / 128 % 4
def clusterOfCore (c : Nat) : Nat := c / 4
def coreOfWave (id : Nat) : Nat := id / 48

/-- How many instances a register has (R340, R341); none where no register has the number. TARG0 to TARG2 count as one. -/
def csrInsts (num : Nat) : Option Nat :=
  if num ≤ 1 then some 1
  else if num = 0x10 then some 256
  else if num = 0x20 then some 128
  else if 0x30 ≤ num ∧ num ≤ 0x37 then some 1
  else if num = 0x40 then some 4
  else if num = 0x50 then some 1
  else if 0x60 ≤ num ∧ num ≤ 0x67 then some 1
  else if num = 0x70 ∨ num = 0x71 ∨ num = 0x80 ∨ num = 0xA0 then some 4
  else if 0x90 ≤ num ∧ num ≤ 0x92 then some 1
  else if 0x200 ≤ num ∧ num ≤ 0x205 then some 4
  else if 0x304 ≤ num ∧ num ≤ 0x35B then some 4
  else if 0x380 ≤ num ∧ num ≤ 0x383 then some 4
  else if num = 0x390 ∨ num = 0x391 ∨ num = 0x3A0 ∨ num = 0x3A1 then some 4
  else if 0x3C0 ≤ num ∧ num ≤ 0x3C4 then some 1
  else if num = 0x400 ∨ num = 0x401 ∨ num = 0x402 ∨ num = 0x410 ∨ num = 0x411 ∨ num = 0x420 then some 1
  else if num = 0x430 then some 4
  else if 0x1000 ≤ num ∧ num ≤ 0x1FFF then some 1
  else none

/-- System registers: what the map holds for NUM of an instance (R340). -/
def State.csrGet (s : State) (num inst : Nat) : Dword := Sparse.get (csrReset num) s.csr (num * 256 + inst)

def State.csrPut (s : State) (num inst : Nat) (v : Dword) : State :=
  { s with csr := Sparse.put s.csr (num * 256 + inst) v }

/-- Whether the package may send over its Tosor ports (R430). -/
def State.gtLocked (s : State) : Bool := fld (s.csrGet 0x400 0) 8 1 == 1

/-- The package that a peer address reaches, where its window is open (R23). -/
def State.peerPkg (s : State) (pa : Nat) : Option Nat :=
  if fld (s.csrGet (0x1000 + bits pa 39 12) 0) 63 1 = 1 ∧ fld (s.csrGet (0x1000 + bits pa 39 12) 0) 0 13 ≠ s.pkg then
    some (fld (s.csrGet (0x1000 + bits pa 39 12) 0) 0 13)
  else none

/-- The information word of LINKTO (R384). -/
def linkInfo (path pkg tries : Nat) : Dword := dw (path * 2 ^ 56 + pkg * 2 ^ 43 + tries * 2 ^ 32)

/-- Where memory holds the byte of a physical address: HBM in die-local form, a peer package's HBM above 2^60. -/
def State.place (s : State) (pa : Nat) : Nat :=
  match targetOf pa with
  | .peer => 2 ^ 60 + (s.peerPkg pa).getD 0 * 2 ^ 39 + pa % 2 ^ 39
  | _ => dieLocal pa

/-! ## Memory -/

/-- The canonical form of memory: addresses strictly rising, no byte listed that reads as an unlisted one does. -/
def Memory.wf (m : List Host.Cell) : Bool := Sparse.wf 0 m

/-- One byte; what nothing has written reads as 0 (log 4). -/
def State.byte (s : State) (a : Nat) : Byte := Sparse.get 0 s.mem a

def State.setByte (s : State) (a : Nat) (b : Byte) : State := { s with mem := Sparse.set 0 s.mem a b }

/-- `n` bytes from an address up. -/
def State.read (s : State) (a n : Nat) : List Byte := (List.range n).map (fun i => s.byte (a + i))

/-- Bytes stored from an address up. -/
def State.write (s : State) : Nat → List Byte → State
  | _, [] => s
  | a, b :: r => (s.setByte a b).write (a + 1) r

/-- Bytes stored at addresses. -/
def State.writeAt (s : State) : List (Nat × Byte) → State
  | [] => s
  | (a, b) :: r => (s.setByte a b).writeAt r

/-- The little-endian value of `n` bytes at an address. -/
def State.readNat (s : State) (a n : Nat) : Nat := ofBytes (s.read a n)

def State.readDword (s : State) (a : Nat) : Dword := dw (s.readNat a 8)

def State.writeNat (s : State) (a n v : Nat) : State := s.write a (toBytes n v)

/-- The granule that carries an address's poison mark: 4 bytes on chip, a 32-byte sector elsewhere (R385). -/
def granule (a : Nat) : Nat := if isOnchip a then a / 4 * 4 else a / 32 * 32

def State.mark (s : State) (a : Nat) : Mark := Sparse.get Mark.none s.poison (granule a)

def State.setMark (s : State) (a : Nat) (m : Mark) : State :=
  { s with poison := Sparse.set Mark.none s.poison (granule a) m }

/-- The first mark among `n` bytes (R385). -/
def State.markIn (s : State) (a n : Nat) : Mark :=
  if s.poison = [] then Mark.none
  else ((List.range n).map (fun i => s.mark (a + i))).foldl Mark.join Mark.none

/-- A write that carries no poison clears the granules it covers whole (R385). -/
def State.cleanse (s : State) (a n : Nat) : State :=
  if s.poison = [] then s
  else
    let inside : Nat × Mark → Bool := fun e =>
      decide (a ≤ e.1) && decide (e.1 + (if isOnchip e.1 then 4 else 32) ≤ a + n)
    { s with poison := s.poison.filter (fun e => !inside e) }

/-! ## Homes (R94, R95) -/

/-- The fold of a granule. -/
def granFold (a : Nat) : Nat := bits a 8 16 ^^^ bits a 24 16 ^^^ bits a 40 12

/-- The home slice of a line for a requester's core, in the L2 mode in force: die × 384 + slice. -/
def State.homeOf (s : State) (core line : Nat) : Nat :=
  let h := granFold line
  if fld (s.csrGet 0x50 0) 0 1 = 1 then dieOfCore core * 384 + 192 * (core / 64 % 2) + h % 192
  else if targetOf line = .hbm then bits line 37 2 * 384 + h % 384
  else h % 4 * 384 + h / 4 % 384

def State.slice (s : State) (h : Nat) : Slice := Sparse.get Slice.empty s.slices h

def State.setSlice (s : State) (h : Nat) (x : Slice) : State := { s with slices := Sparse.put s.slices h x }

/-! ## Memory as the device itself reaches it: the point of coherence (R27, R34, R157; log 27) -/

/-- The line of a physical address, in die-local form (R21, R92). -/
def lineOf (pa : Nat) : Nat := dieLocal pa / 128 * 128

/-- Private L2 mode (R95, R96). -/
def State.privateMode (s : State) : Bool := fld (s.csrGet 0x50 0) 0 1 == 1

/-- The core whose partition the page walker, the migration engine and the other engines of a die use (R94). -/
def dieCore (die : Nat) : Nat := die * 128

/-- Whether two cores use the same homes (R95). -/
def State.shares (s : State) (c d : Nat) : Bool := !s.privateMode || c / 64 == d / 64

/-- Byte `i` of a line as its slice holds it: of its own copy where the sector is valid, else of memory (R93). -/
def State.lineByte (s : State) (ln : L2Line) (i : Nat) : Byte :=
  match ln.data with
  | some d => if ln.valid / 2 ^ (i / 32) % 2 = 1 then d.getD i 0 else s.byte (s.place ln.line + i)
  | none => s.byte (s.place ln.line + i)

/-- The bytes of a line. -/
def State.lineData (s : State) (ln : L2Line) : List Byte := (List.range 128).map (s.lineByte ln)

/-! ## Compression (R97) -/

def elemsOf (b : Nat) (d : List Byte) : List Nat := (List.range (128 / b)).map (fun i => ofBytes ((d.drop (b * i)).take b))

/-- Whether every delta from element 0 fits `n` bytes. -/
def deltasFit (b n : Nat) (d : List Byte) : Bool :=
  let e := elemsOf b d
  e.all (fun x =>
    let t := toSigned (8 * b) (x + 2 ^ (8 * b) - e.headD 0)
    decide (-((2 ^ (8 * n - 1) : Nat) : Int) ≤ t) && decide (t < ((2 ^ (8 * n - 1) : Nat) : Int)))

/-- The first encoding that represents a line. -/
def encodingOf (d : List Byte) : Nat :=
  if d.all (· == 0) then 1
  else if (elemsOf 8 d).all (· == (elemsOf 8 d).headD 0) then 2
  else if deltasFit 8 1 d then 3
  else if deltasFit 4 1 d then 4
  else if deltasFit 8 2 d then 5
  else if deltasFit 4 2 d then 6
  else 0

/-- Size in bytes of an encoding. -/
def encSize (e : Nat) : Nat :=
  match e with
  | 1 => 0
  | 2 => 8
  | 3 => 24
  | 4 => 36
  | 5 => 40
  | 6 => 68
  | _ => 128

/-- The encoding that a line is held in. -/
def State.encFor (s : State) (wp valid : Nat) (d : List Byte) : Nat :=
  if valid = 15 ∧ fld (s.csrGet (0x60 + wp) 0) 23 1 = 1 then encodingOf d else 0

/-- The set of a line (R92). -/
def setOf (line : Nat) : Nat := bits line 7 7 ^^^ bits line 14 7

/-- Lines of a set that are held there, not merely served. -/
def Slice.set (x : Slice) (i : Nat) : List L2Line := x.lines.filter (fun l => setOf l.line == i && l.way != 98)

/-- Bytes that the other line of a line's way takes up. -/
def Slice.beside (x : Slice) (ln : L2Line) : Nat :=
  ((x.set (setOf ln.line)).filter (fun l => l.way == ln.way && l.line != ln.line)).foldl (fun acc l => acc + encSize l.enc) 0

/-- The byte of an address at its point of coherence for a core's requests: in an X copy under a GENERAL-class table, at
the home, in memory (R131). -/
def State.newest (s : State) (c pa : Nat) : Byte :=
  match s.caches.findSome? (fun e => if s.shares c e.1 then e.2.findSome? (fun k =>
      if k.kind = .x ∧ k.cls = 0 ∧ k.line = lineOf pa then k.data[dieLocal pa % 128]? else none) else none) with
  | some b => b
  | none =>
    match (s.slice (s.homeOf c (lineOf pa))).lines.find? (fun l => l.line == lineOf pa) with
    | some l => s.lineByte l (dieLocal pa % 128)
    | none => s.byte (s.place pa)

/-- The little-endian value of `n` bytes at their point of coherence. -/
def State.newestNat (s : State) (c pa n : Nat) : Nat := ofBytes ((List.range n).map (fun i => s.newest c (pa + i)))

/-- The Tosor ports, a bit each, that may carry traffic of a die to a package: those of the route table's byte that are up
(R429). -/
def State.routePorts (s : State) (die pkg : Nat) : Nat :=
  if fld (s.csrGet 0x411 0) 0 1 = 1 then
    (s.newest (dieCore die) (fld (s.csrGet 0x411 0) 13 39 * 8192 + pkg)).toNat &&& fld (s.csrGet 0x400 0) 0 8
  else 0

/-- Whether a Tosor port may carry traffic of a die to a package. -/
def State.routes (s : State) (die pkg : Nat) : Bool := s.routePorts die pkg != 0

/-- A line's bytes with those of a write from `p` up put in. -/
def patchFrom (line : Nat) (d : List Byte) (p : Nat) (bs : List Byte) : List Byte :=
  d.zipIdx.map (fun e => if p ≤ line + e.2 ∧ line + e.2 < p + bs.length then bs.getD (line + e.2 - p) e.1 else e.1)

/-- HBM that nothing serves: beyond the first 16 GiB in OCHRE, and the stacks of a die that failed (R13, R431). -/
def State.unserved (s : State) (pa : Nat) : Bool :=
  (targetOf pa == .hbm || targetOf pa == .alias_) &&
    ((decide (s.mode = .ochre) && decide (dieLocal pa ≥ 2 ^ 34)) || s.failed / 2 ^ bits (dieLocal pa) 37 2 % 2 == 1)

/-- Whether the home of a core's requests holds an address in bytes of its own. -/
def State.homeHolds (s : State) (c pa : Nat) : Bool :=
  ((s.slice (s.homeOf c (lineOf pa))).lines.find? (fun l => l.line == lineOf pa)).any (fun l =>
    l.data.isSome && l.valid / 2 ^ (dieLocal pa % 128 / 32) % 2 == 1)

/-- A line as it is held once its bytes have changed: in its new encoding, beside its way where it no longer fits in it
(R97, R98). -/
def State.encoded (s : State) (x : Slice) (ln : L2Line) : L2Line :=
  if ln.way ≥ 98 then ln
  else
    let e := s.encFor ln.wp ln.valid (s.lineData ln)
    { ln with enc := e, way := if x.beside ln + encSize e ≤ 128 then ln.way else 99 }

/-- Bytes of one line written at their point of coherence for a core's requests, and in every copy made there. In private
mode a line that the home holds takes them in its own bytes, and memory is as it was (R95). -/
def State.devLine (s : State) (c pa : Nat) (bs : List Byte) : State :=
  let p := dieLocal pa
  let h := s.homeOf c (lineOf pa)
  let here := (bs.zipIdx).filterMap (fun e =>
    if s.privateMode && s.homeHolds c (pa + e.2) then none else some (s.place (pa + e.2), e.1))
  let t := (s.writeAt here).cleanse (s.place pa) bs.length
  { t with
    caches := s.caches.map (fun (e : Nat × List CacheCopy) =>
      (e.1, if s.shares c e.1 then e.2.map (fun k => { k with data := patchFrom k.line k.data p bs }) else e.2)),
    slices := s.slices.map (fun (e : Nat × Slice) => (e.1, { e.2 with lines := e.2.lines.map (fun l =>
      if e.1 = h ∧ l.line = lineOf pa then
        t.encoded e.2 { l with data := l.data.map (fun d => patchFrom l.line d p bs), dirty := l.dirty || l.data.isSome }
      else l) })) }

/-- Bytes from an address up, cut where a line ends. -/
def lineChunks (pa : Nat) (bs : List Byte) : List (Nat × List Byte) :=
  (List.range ((pa % 128 + bs.length + 127) / 128)).map (fun k =>
    let a := if k = 0 then pa else pa / 128 * 128 + 128 * k
    (a, (bs.drop (a - pa)).take (128 - a % 128)))

/-- Bytes written at their point of coherence for a core's requests, line by line. -/
def State.devWrite (s : State) (c pa : Nat) (bs : List Byte) : State :=
  (lineChunks pa bs).foldl (fun acc x => acc.devLine c x.1 x.2) s

/-! ## Waves and masks -/

def State.wave (s : State) (id : Nat) : Wave := Sparse.get Wave.empty s.waves id

def State.setWave (s : State) (id : Nat) (w : Wave) : State := { s with waves := Sparse.put s.waves id w }

def State.curWave (s : State) : Wave := s.wave s.cur

def State.setCur (s : State) (w : Wave) : State := s.setWave s.cur w

def State.modWave (s : State) (id : Nat) (f : Wave → Wave) : State := s.setWave id (f (s.wave id))

/-- W (R10). -/
def Wave.width (w : Wave) : Nat := if w.w64 then 64 else 32

/-- A lane mask cut to the wave's lanes (R4). -/
def Wave.cut (w : Wave) (m : Dword) : Dword := dw (m.toNat % 2 ^ w.width)

/-- A mask register; k0 reads as all ones (R168). -/
def Wave.kread (w : Wave) (n : Nat) : Dword := if n = 0 then dw (2 ^ w.width - 1) else w.cut (Sparse.get 0 w.k n)

/-- A write to a mask register; one to k0 is discarded (R168). -/
def Wave.kwrite (w : Wave) (n : Nat) (v : Dword) : Wave :=
  if n = 0 then w else { w with k := Sparse.put w.k n (w.cut v) }

/-- active(l) (R10). -/
def Wave.active (w : Wave) (l : Nat) : Bool :=
  decide (l < w.width) && bitOf w.exm l &&
    (fld w.gmode 0 3 == 0 || bitOf (w.kread (fld w.gmode 0 3)) l)

/-- The active lanes, ascending. -/
def Wave.lanes (w : Wave) : List Nat := (List.range w.width).filter w.active

/-- The mask of active lanes. -/
def Wave.activeMask (w : Wave) : Dword := dw (maskOf w.width w.active)

/-- The lowest active lane, lane 0 when there is none (R330). -/
def Wave.uniform (w : Wave) : Nat := (lowestLane w.width w.active).getD 0

/-! ## Vector registers (R153, R174) -/

/-- STKMAX (R153). -/
def Wave.stkmax (w : Wave) : Nat := if w.w64 then 2048 else 4096

/-- Logical register j in lane l: what the span holds, zero at or above hi. -/
def Wave.lreg (w : Wave) (j l : Nat) : Word :=
  if w.lo ≤ j ∧ j < w.hi then (Sparse.get [] w.regs j).getD l 0 else 0

/-- v[n][l] (R10). -/
def Wave.v (w : Wave) (n l : Nat) : Word := w.lreg (w.wb + n) l

/-- A 64-bit value of a register pair (R174). -/
def Wave.v64 (w : Wave) (n l : Nat) : Dword := dw ((w.v n l).toNat + 2 ^ 32 * (w.v (n + 1) l).toNat)

/-- The lanes of a logical register with new values where `f` gives one; a register beyond STKMAX discards it. -/
def Wave.lwrite (w : Wave) (j : Nat) (f : Nat → Option Word) : Wave :=
  if j < w.stkmax ∧ w.lo ≤ j ∧ j < w.hi then
    { w with
      regs := Sparse.put w.regs j
        ((List.range w.width).map (fun l => (f l).getD ((Sparse.get [] w.regs j).getD l 0))) }
  else w

/-- v[n] with new values in the active lanes (R222). -/
def Wave.vwrite (w : Wave) (n : Nat) (f : Nat → Word) : Wave :=
  w.lwrite (w.wb + n) (fun l => if w.active l then some (f l) else none)

/-- A pair with a 64-bit value in the active lanes. -/
def Wave.vwrite64 (w : Wave) (n : Nat) (f : Nat → Dword) : Wave :=
  (w.vwrite n (fun l => wd (f l).toNat)).vwrite (n + 1) (fun l => wd ((f l).toNat / 2 ^ 32))

/-- The tag of a logical register (R164). -/
def Wave.tag (w : Wave) (j : Nat) : Tag := Sparse.get .plain w.tags j

def Wave.setTag (w : Wave) (j : Nat) (t : Tag) : Wave := { w with tags := Sparse.set .plain w.tags j t }

/-- The poison mark of a logical register's lane (R385). -/
def Wave.lmark (w : Wave) (j l : Nat) : Mark := Sparse.get Mark.none w.rpoison (j * 64 + l)

def Wave.vmark (w : Wave) (n l : Nat) : Mark := w.lmark (w.wb + n) l

def Wave.setLmark (w : Wave) (j l : Nat) (m : Mark) : Wave :=
  { w with rpoison := Sparse.set Mark.none w.rpoison (j * 64 + l) m }

/-- Marks given to the lanes of v[n] that an instruction writes (R386). -/
def Wave.markLanes (w : Wave) (n : Nat) (lanes : List Nat) (f : Nat → Mark) : Wave :=
  lanes.foldl (fun acc l => acc.setLmark (acc.wb + n) l (f l)) w

def Wave.frame (w : Wave) (f : Nat) : Frame := Sparse.get Frame.empty w.frames f

def Wave.setFrame (w : Wave) (f : Nat) (x : Frame) : Wave := { w with frames := Sparse.put w.frames f x }

/-! ## Counters (R139, R140) -/

def Wave.countVal (w : Wave) (n : Counter) : Nat :=
  match n with
  | .m => w.mq.length
  | .c => w.cq.length
  | .x => w.xq.length
  | .s => w.sq.length

/-- The word of SREAD CNT (R171). -/
def Wave.cnt (w : Wave) : Nat :=
  w.mq.length % 64 + 64 * (w.cq.length % 64) + 4096 * (w.xq.length % 64) + 262144 * (w.sq.length % 64)

def Wave.countUp (w : Wave) (n : Counter) (op : Nat) : Wave :=
  match n with
  | .m => { w with mq := w.mq ++ [{ op := op, done := false }] }
  | .c => { w with cq := w.cq ++ [{ op := op, done := false }] }
  | .x => { w with xq := w.xq ++ [{ op := op, done := false }] }
  | .s => { w with sq := w.sq ++ [{ op := op, done := false }] }

/-- A queue without its finished oldest operations. -/
def popDone : List Counted → List Counted
  | [] => []
  | c :: r => if c.done then popDone r else c :: r

/-- An operation marked finished in a queue; the counter falls from its oldest. -/
def retireIn (q : List Counted) (op : Nat) : List Counted :=
  popDone (q.map (fun c => if c.op = op then { c with done := true } else c))

def Wave.retireOp (w : Wave) (op : Nat) : Wave :=
  { w with mq := retireIn w.mq op, cq := retireIn w.cq op, xq := retireIn w.xq op, sq := retireIn w.sq op,
           gate := w.gate.filter (· ≠ op) }

/-- An instruction without an active lane: its counter rises and, nothing being done, the operation retires at once
(R265, R286). -/
def State.emptyOp (s : State) (c : Counter) : State :=
  (s.modWave s.cur (fun w => (w.countUp c s.nextId).retireOp s.nextId)).bump

/-- A WCT received (R140). -/
def Wave.foldWct (w : Wave) (wct : Nat) : Wave := { w with lwct := Nat.max w.lwct wct }

/-! ## Tables by core, cluster, die -/

def State.engine (s : State) (c : Nat) : Engine := Sparse.get Engine.empty s.engines c

def State.setEngine (s : State) (c : Nat) (e : Engine) : State := { s with engines := Sparse.put s.engines c e }

def State.wg (s : State) (g : Nat) : Option Workgroup := Sparse.find s.wgs g

def State.modWg (s : State) (g : Nat) (f : Workgroup → Workgroup) : State := { s with wgs := Sparse.update s.wgs g f }

def State.task (s : State) (t : Nat) : Option Task := Sparse.find s.tasks t

def State.modTask (s : State) (t : Nat) (f : Task → Task) : State := { s with tasks := Sparse.update s.tasks t f }

def State.fbOf (s : State) (cl : Nat) : List FbEntry := Sparse.get (List.replicate 8 FbEntry.free) s.fb cl

def State.setFb (s : State) (cl : Nat) (es : List FbEntry) : State := { s with fb := Sparse.put s.fb cl es }

def State.cacheOf (s : State) (c : Nat) : List CacheCopy := Sparse.get [] s.caches c

def State.setCache (s : State) (c : Nat) (cs : List CacheCopy) : State := { s with caches := Sparse.put s.caches c cs }

/-- XROOT's ASID of a context (R26). -/
def State.asid (s : State) (ctx : Nat) : Nat := fld (s.csrGet 0x10 ctx) 0 16

/-- FBSTAT of a cluster (R49). -/
def State.fbstat (s : State) (cl : Nat) : Dword :=
  dw (maskOf 8 (fun e => decide (((s.fbOf cl).getD e FbEntry.free).state ≠ .free)) +
    256 * Nat.min (Sparse.get [] s.dropped cl).length 65535)

/-- Whether a unit stands on a dropped list (R47). -/
def State.isDropped (s : State) (u : Nat × Nat) : Bool := s.dropped.any (fun e => e.2.contains u)

/-- Fault-buffer entries and migrations that a unit waits on (R46, R53). -/
def State.waitCount (s : State) (u : Nat × Nat) : Nat :=
  (s.fb.foldl (fun acc e => acc + (e.2.filter (fun x => decide (x.state = .pending ∨ x.state = .opened) &&
      (x.named == u || x.waiters.contains u))).length) 0) +
  (s.migs.foldl (fun acc e => acc + (e.2.filter (fun m => m.waiters.contains u)).length) 0)

/-- The unit taken off every fault-buffer entry it waits on as a waiter, every migration list and every dropped
list (R46). -/
def State.leaveWaits (s : State) (u : Nat × Nat) : State :=
  { s with fb := s.fb.map (fun e => (e.1, e.2.map (fun x => { x with waiters := x.waiters.filter (· ≠ u) }))),
           migs := s.migs.map (fun e => (e.1, e.2.map (fun m => { m with waiters := m.waiters.filter (· ≠ u) }))),
           dropped := s.dropped.map (fun e => (e.1, e.2.filter (· ≠ u))) }

/-- A unit put on the waiter list of a migration (R53). -/
def State.joinMig (s : State) (die id : Nat) (u : Nat × Nat) : State :=
  { s with migs := Sparse.update s.migs die (fun ms => ms.map (fun m =>
      if m.id = id ∧ !m.waiters.contains u then { m with waiters := m.waiters ++ [u] } else m)) }

/-! ## The page walk (R25 to R31) -/

/-- Canonical form (R25). -/
def canonical (va : Dword) : Bool := fld va 57 7 == (if fld va 56 1 = 1 then 127 else 0)

/-- How a walk ends. -/
inductive WalkEnd where
  | leaf (entry : Dword) (entryPA level : Nat)
  | bad (reason level : Nat)                     -- NOTPRESENT 1, MALFORMED 2
  | migrating (die id : Nat)
  | poisoned (m : Mark)
  | held                                         -- an entry in HBM that nothing serves (R13, R431)
  deriving DecidableEq, Repr

/-- Whether class and policy agree with the target of a leaf (R31). -/
def agrees (pa cc cp : Nat) : Bool :=
  match targetOf pa with
  | .hbm => true
  | .alias_ => true
  | .host => cc == 0 || cc == 2
  | .peer => cc == 1 && cp != 2
  | .onchip => cc == 0 && cp == 3
  | .device => cc == 0 && cp == 3
  | .reserved => false

/-- The migration in progress on a leaf (R30, R53). -/
def State.migOf (s : State) (leafPA : Nat) : Option (Nat × Nat) :=
  (s.migs.findSome? (fun e => (e.2.find? (fun m => m.leafPA == leafPA)).map (fun m => (e.1, m.id))))

/-- A leaf at a level is well formed (R30), its migration state apart. -/
def leafOk (e : Dword) (level : Nat) : Bool :=
  fld e 52 5 == 0 &&
  (level == 0 || (level == 1 && fld e 16 5 == 0) || (level == 2 && fld e 16 14 == 0)) &&
  !(fld e 3 1 == 1 && fld e 2 1 == 0) && fld e 13 2 != 3 && decide (fld e 58 2 < 2) &&
  agrees (fld e 16 36 * 65536) (fld e 13 2) (fld e 8 2)

/-- A table pointer at a level is well formed (R28, R30). -/
def tableOk (e : Dword) (level : Nat) : Bool :=
  fld e 52 12 == 0 && fld e 2 6 == 0 && level != 0 && (level == 1 || fld e 8 4 == 0) &&
  (match targetOf (fld e 8 44 * 256) with
   | .hbm => true
   | .alias_ => true
   | .host => true
   | _ => false)

/-- One level of a walk for a core `c` (R27, R30): the entry read at its point of coherence, through the partition of
the walker (R94), then a leaf, a failure, or the next table. -/
def State.walkAt (s : State) (c va level base : Nat) (next : Nat → WalkEnd) : WalkEnd :=
  let a := s.place (base + 8 * (if level = 3 then bits va 39 18 else if level = 2 then bits va 30 9
    else if level = 1 then bits va 21 9 else bits va 16 5))
  let e := dw (s.newestNat (dieCore (dieOfCore c)) a 8)
  if s.unserved a then .held
  else if (s.mark a).origin ≠ 0 then .poisoned (s.mark a)
  else if fld e 0 1 = 0 then .bad 1 level
  else if fld e 1 1 = 1 then
    (if level = 3 || !leafOk e level then .bad 2 level
     else if fld e 58 2 = 1 then
       (match s.migOf a with
        | some (d, i) => .migrating d i
        | none => .bad 2 level)
     else .leaf e a level)
  else if tableOk e level then next (fld e 8 44 * 256)
  else .bad 2 level

/-- The walk from a level down (R27). -/
def State.walkFrom (s : State) (c va : Nat) : Nat → Nat → WalkEnd
  | 0, base => s.walkAt c va 0 base (fun _ => .bad 2 0)
  | level + 1, base => s.walkAt c va (level + 1) base (s.walkFrom c va level)

/-- The walk of an address in a context, for a core. A root table outside HBM and the host window, of which no rule says
anything, is read like any other (log 117). -/
def State.walk (s : State) (c ctx : Nat) (va : Dword) : WalkEnd :=
  s.walkFrom c va.toNat 3 (fld (s.csrGet 0x10 ctx) 21 31 * 2 ^ 21)

/-- The byte an address reaches through a leaf of a size (R27). -/
def leafAddr (leaf : Dword) (size : Nat) (va : Dword) : Nat :=
  fld leaf 16 36 * 65536 + va.toNat % (if size = 0 then 2 ^ 16 else if size = 1 then 2 ^ 21 else 2 ^ 30)

/-- A 57-bit virtual address in canonical form (R25, R38). -/
def sext57 (v : Nat) : Dword := (BitVec.ofNat 57 v).signExtend 64

/-- VA[56:16]. -/
def pageOf (va : Dword) : Nat := fld va 16 41

/-- The first 64 KiB page of the page of a size. -/
def pageBase (page size : Nat) : Nat :=
  if size = 0 then page else if size = 1 then page / 32 * 32 else page / 16384 * 16384

/-- Whether a TLB entry maps a 64 KiB page of an address space (R40). -/
def TlbEntry.hits (e : TlbEntry) (asid page : Nat) : Bool :=
  (fld e.leaf 15 1 == 1 || e.asid == asid) && e.page == pageBase page e.size

def attrOf (leaf : Dword) (leafA : Nat) : Attr :=
  { cc := fld leaf 13 2, cp := fld leaf 8 2, wp := fld leaf 10 3, p := fld leaf 5 1 == 1, x := fld leaf 4 1 == 1,
    w := fld leaf 3 1 == 1, r := fld leaf 2 1 == 1, a := fld leaf 6 1 == 1, d := fld leaf 7 1 == 1, leaf := leafA }

/-- A translation from the core's TLBs; an L2 hit also fills the L1 (R40). -/
def State.tlbLookup (s : State) (core asid page : Nat) : Option TlbEntry :=
  match (Sparse.get [] s.l1tlb core).find? (fun e => e.hits asid page) with
  | some e => some e
  | none => (Sparse.get [] s.l2tlb (clusterOfCore core)).find? (fun e => e.hits asid page)

/-- Pages held encrypted once an entry is in use: its own where its leaf has ENC and maps HBM, in either layout (R391;
log 105). -/
def State.encsWith (s : State) (e : TlbEntry) : List (Nat × Nat) :=
  let p := (fld e.leaf 16 36 * 65536, if e.size = 0 then 2 ^ 16 else if e.size = 1 then 2 ^ 21 else 2 ^ 30)
  if fld e.leaf 57 1 = 1 ∧ (targetOf p.1 = .hbm ∨ targetOf p.1 = .alias_) ∧ !s.encs.contains p then p :: s.encs else s.encs

/-- An entry put into the L1 TLB of a core and the L2 TLB of its cluster (R41); the newest stand first and the
oldest fall out (log 16). -/
def State.tlbFill (s : State) (core : Nat) (e : TlbEntry) : State :=
  { s with
      encs := s.encsWith e
      l1tlb := Sparse.put s.l1tlb core
        ((e :: (Sparse.get [] s.l1tlb core).filter (fun x => !(x.asid == e.asid && x.page == e.page && x.size == e.size))).take 256),
      l2tlb := Sparse.put s.l2tlb (clusterOfCore core)
        ((e :: (Sparse.get [] s.l2tlb (clusterOfCore core)).filter
          (fun x => !(x.asid == e.asid && x.page == e.page && x.size == e.size))).take 4096) }

/-- The atomic OR of A, and of D for a write, into a leaf by the walker of a core's die, at its point of coherence;
entries of TLBs and frames that came from the leaf show it (R34). -/
def State.setAD (s : State) (c leafA : Nat) (d : Bool) : State :=
  let orv : Nat := if d then 0xC0 else 0x40
  let up : TlbEntry → TlbEntry := fun e => if e.leafA = leafA then { e with leaf := e.leaf ||| dw orv } else e
  let k := dieCore (dieOfCore c)
  { (s.devWrite k leafA (toBytes 8 (dw (s.newestNat k leafA 8) ||| dw orv).toNat)) with
      l1tlb := s.l1tlb.map (fun x => (x.1, x.2.map up)),
      l2tlb := s.l2tlb.map (fun x => (x.1, x.2.map up)),
      waves := s.waves.map (fun x => (x.1, { x.2 with frames := x.2.frames.map (fun f =>
        (f.1, if f.2.leaf = leafA then { f.2 with a := true } else f.2)) })) }

/-! ## Checks of an access (R19, R23, R32, R33) -/

/-- The kinds of access of R43's KIND field. -/
inductive Access where
  | load | store | atomic | fetch | copyRead | copyWrite | prefetch | spill
  deriving DecidableEq, Repr

def Access.code (k : Access) : Nat :=
  match k with
  | .load => 0
  | .store => 1
  | .atomic => 2
  | .fetch => 3
  | .copyRead => 4
  | .copyWrite => 5
  | .prefetch => 0
  | .spill => 7

/-- Whether an access writes. -/
def Access.writes (k : Access) : Bool :=
  match k with
  | .store => true
  | .atomic => true
  | .copyWrite => true
  | _ => false

/-- Whether a range entry is valid and holds a die-local address (R61). -/
def rangeHolds (e : Dword × Dword) (a : Nat) : Bool :=
  fld e.1 63 1 == 1 && decide (fld e.1 16 36 * 65536 ≤ a) && decide (a < (fld e.2 16 36 + 1) * 65536)

/-- The first valid entry of a range table that holds an address, the lowest first (R55). -/
def rangeIn (t : Sparse (Dword × Dword)) (pa : Nat) : Option (Dword × Dword) :=
  (t.find? (fun e => rangeHolds e.2 (dieLocal pa))).map (·.2)

/-- The range table for a line: while it drains, the old entry serves it (R62). -/
def State.rangesFor (s : State) (pa : Nat) : Sparse (Dword × Dword) :=
  s.drains.foldl (fun acc d => if d.lines.any (fun x => x.2 == dieLocal pa / 128 * 128) then
    Sparse.put acc d.entry (d.w0, d.w1) else acc) s.ranges

/-- The range entry of an address (R55). -/
def State.rangeOf (s : State) (pa : Nat) : Option (Dword × Dword) := rangeIn (s.rangesFor pa) pa

/-- The code of a scope raised to the floor of a DC line's range (R63). -/
def State.raised (s : State) (cc pa : Nat) (sc : Scope) : Nat :=
  if cc = 1 then
    (match s.rangeOf pa with
     | some (w0, _) => Nat.max sc.toNat (fld w0 0 3)
     | none => sc.toNat)
  else sc.toNat

def scopeOfNat (n : Nat) : Scope := (Scope.ofBits? n).getD .sys

/-- Whether a core is in the logical core map (R13, R431, R438). -/
def State.coreIn (s : State) (c : Nat) : Bool :=
  decide (c < 512) && !s.cores.contains c && (s.failed / 2 ^ dieOfCore c % 2 == 0)

/-- Steps 3 to 6 of R33 for an access of a context through attributes at an address, with the scope of an atomic:
the reason code of the first check that fails, or none. -/
def State.deny (s : State) (sys : Bool) (k : Access) (at_ : Attr) (pa : Nat) (sc : Option Scope) : Option Nat :=
  if at_.p && !sys then some 0x13
  else if (match k with
      | .load => !at_.r
      | .prefetch => !at_.r
      | .copyRead => !at_.r
      | .atomic => !at_.r
      | _ => false) then some 0x10
  else if (match k with
      | .store => !at_.w
      | .copyWrite => !at_.w
      | .atomic => !at_.w
      | _ => false) then some 0x11
  else if (match k with
      | .fetch => !at_.x
      | _ => false) then some 0x12
  else if (match k, sc with
      | .atomic, some x =>
        (if at_.cc = 2 then false
         else if at_.cc = 1 then decide (s.raised at_.cc pa x > 4)
         else (match targetOf pa with
           | .host => true
           | .device => true
           | _ => decide (x.toNat > 4)))
      | _, _ => false) then some 0x15
  else match targetOf pa with
    | .onchip =>
      if pa % 0x200000 ≥ 0x1C0000 ∨ !s.coreIn ((pa - 0x10000000000) / 0x200000) then some 0x16 else none
    | .device => some 0x16
    | .reserved => some 0x16
    | .peer => if (s.peerPkg pa).isNone then some 0x17 else none
    | _ => none

/-- R43's information word. -/
def accessInfo (reason dropcnt level kind fbe : Nat) : Dword :=
  dw (reason * 2 ^ 56 + Nat.min dropcnt 255 * 2 ^ 48 + level * 2 ^ 46 + kind * 2 ^ 43 + fbe * 2 ^ 39)

/-! ## Parking (R42, R324 to R328) -/

/-- What a wave parks with. -/
structure ParkInfo where
  cls    : Nat
  faddr  : Dword
  finfo  : Dword
  pre    : Bool
  pc     : Dword
  iword  : Word
  npc    : Dword
  ahead  : Nat
  unf    : Dword
  gmode  : Dword
  vas    : List (Nat × Dword)              -- captured addresses by lane (R42)
  srcs   : List (List (Nat × Word × Mark)) -- captured registers in field order, by lane, with their poison (R327, R386)
  status : Nat
  deriving DecidableEq, Repr

/-- The place of captured register i of lane l, in bytes (R327). -/
def captureAt (i l : Nat) : Nat :=
  if i ≤ 2 then 0x300 + 256 * i + 4 * l else if i ≤ 4 then 0x600 + 256 * (i - 3) + 4 * l else 0x100 + 4 * l

/-- A 32-bit value put into a record's words. -/
def putHalf (ws : Sparse Dword) (off : Nat) (v : Word) : Sparse Dword :=
  Sparse.put ws (off / 8) (setFld (Sparse.get 0 ws (off / 8)) (if off % 8 = 4 then 32 else 0) 32 v.toNat)

/-- The captured registers put into a record's words. -/
def putSources (ws : Sparse Dword) (i : Nat) : List (List (Nat × Word × Mark)) → Sparse Dword
  | [] => ws
  | r :: rest => putSources (r.foldl (fun acc x => putHalf acc (captureAt i x.1) x.2.1) ws) (i + 1) rest

/-- The poison of captured registers, by the offset of their words (R386). -/
def sourceMarks (srcs : List (List (Nat × Word × Mark))) : List (Nat × Nat × Nat) :=
  srcs.zipIdx.flatMap (fun r => r.1.filterMap (fun x =>
    if x.2.2.origin = 0 then none else some (captureAt r.2 x.1, x.2.2.origin, x.2.2.addr)))

/-- The depth of a unit of a task (R380): 1 for ordinary work, n + 1 for a unit of a handler of level n. -/
def State.depthOf (s : State) (t : Nat) : Nat :=
  match s.task t with
  | some k => k.nest + 1
  | none => 1

/-- The earliest non-zero of some deadlines (R376). -/
def earliest : List Nat → Nat
  | [] => 0
  | d :: r => if d = 0 then earliest r else if earliest r = 0 then d else Nat.min d (earliest r)

/-- A record's words by byte offset. -/
def State.recWord (s : State) (x off : Nat) : Dword :=
  match Sparse.find s.records x with
  | some r => Sparse.get 0 r.words (off / 8)
  | none => 0

def State.setRecWord (s : State) (x off : Nat) (v : Dword) : State :=
  { s with records := Sparse.update s.records x (fun r => { r with words := Sparse.put r.words (off / 8) v }) }

/-- The record index that a handle names in this package, if it does (R324). -/
def State.recOfHandle (s : State) (h : Nat) : Option Nat :=
  if bits h 19 13 = s.pkg then some (bits h 17 2 * 4096 + bits h 0 12) else none

/-- The handle of a record (R324). -/
def State.handleOf (s : State) (x : Nat) : Nat := s.pkg * 2 ^ 19 + x / 4096 * 2 ^ 17 + x % 4096

/-- The unit identity word 0x008 of a wave (R325). -/
def State.identity (s : State) (id wid : Nat) : Dword :=
  dw (s.pkg * 2 ^ 51 + dieOfCore (coreOfWave id) * 2 ^ 49 + coreOfWave id / 4 % 32 * 2 ^ 44 + coreOfWave id % 4 * 2 ^ 42 +
    id % 48 / 12 * 2 ^ 40 + id % 12 * 2 ^ 36 + wid * 2 ^ 32)

/-- Header words common to every kind of unit (R325), for a wave `w` with number `id`. -/
def State.headerOf (s : State) (id : Nat) (w : Wave) (kind : Nat) (p : ParkInfo) : Sparse Dword :=
  let t := s.task w.task
  let depth := s.depthOf w.task
  [(0, dw (kind * 2 ^ 60 + p.cls * 2 ^ 48 + Nat.min depth 3 * 2 ^ 46 + p.status * 2 ^ 32 +
      ((t.map (·.ltag)).getD 0) * 2 ^ 16 + (if p.pre then 16 else 0) + (if w.kitty then 8 else 0) +
      (if w.sys then 4 else 0) + (if w.w64 then 2 else 0))),
   (1, s.identity id w.wid),
   (2, p.pc),
   (3, dw (p.iword.toNat * 2 ^ 32 + (if kind = 1 then w.sigr.toNat else 0))),
   (4, if kind = 1 then w.exm else 0),
   (5, p.unf),
   (6, p.gmode),
   (7, p.faddr),
   (8, p.finfo),
   (9, if kind = 1 then w.rer else 0),
   (10, p.npc),
   (11, if kind = 1 then dw w.lwct else 0),
   (12, dw (p.ahead * 2 ^ 44 + (if kind = 1 then (if w.cct then 2 ^ 24 else 0) + w.cnt else 0))),
   (13, dw (earliest [(t.map (·.deadline)).getD 0,
      (t.bind (fun k => k.record)).elim 0 (fun h => (s.recOfHandle h).elim 0 (fun x => (s.recWord x 0x68).toNat))])),
   (14, dw ((t.map (·.budget)).getD 0)),
   (15, 0),
   (16, (t.map (·.src)).getD 0),
   (18, dw (if depth ≥ 2 then (t.bind (fun k => k.record)).getD 0 else 0)),
   (19, if kind = 1 then dw (w.cdepth * 2 ^ 51 + w.seg * 2 ^ 38 + w.wb * 2 ^ 26 + w.sz * 2 ^ 19 + w.msd) else 0),
   (20, if kind = 1 then w.bb else 0)]

/-- TAKING A FAULT. The wave detaches as the manual sets out (R42, R325, R328, R199): its place is parked, its
lookahead windows close, and its record image, holding what it stood at, goes to be written (RECORD_WRITTEN). -/
def State.parkWave (s : State) (id : Nat) (p : ParkInfo) : State :=
  let w := s.wave id
  let ws := putSources (p.vas.foldl (fun acc x => Sparse.put acc (0x20 + x.1) x.2) (s.headerOf id w 1 p)) 0 p.srcs
  (s.setWave id { w with status := .parked, windows := [], stage := 0 }).post
    (.recordWritten { die := dieOfCore (coreOfWave id), cluster := clusterOfCore (coreOfWave id), kind := 1, cls := p.cls,
                      wave := id, unit := id, words := ws, marks := sourceMarks p.srcs, status := p.status, entries := [] })

/-- A park before the instruction at the PC issued, on a migration of a page that it needs (R53, R328). -/
def State.parkMoving (s : State) (id : Nat) (iword : Word) (faddr : Dword) (die mig : Nat)
    (srcs : List (List (Nat × Word × Mark))) : State :=
  (s.parkWave id { cls := 0, faddr := faddr, finfo := 0, pre := true, pc := (s.wave id).pc, iword := iword,
                   npc := (s.wave id).pc + 4, ahead := 0, unf := 0, gmode := (s.wave id).gmode, vas := [], srcs := srcs,
                   status := 3 }).joinMig die mig (1, id)

/-- A park before the instruction at the PC issued (PRE 1, R328). -/
def State.parkPre (s : State) (id : Nat) (iword : Word) (cls : Nat) (faddr finfo : Dword)
    (srcs : List (List (Nat × Word × Mark))) : State :=
  s.parkWave id { cls := cls, faddr := faddr, finfo := finfo, pre := true, pc := (s.wave id).pc, iword := iword,
                  npc := (s.wave id).pc + 4, ahead := 0, unf := 0, gmode := (s.wave id).gmode, vas := [],
                  srcs := srcs, status := 0 }

end Sys2Proof.Machine
end

