-- ==== Sys2Proof/Machine/Operands.lean ====
section
/-! DEFINITION. The operands of each instruction: what it reads and writes, the types it accepts, what the checks
at issue ask of it (09/R194 to R212, 10/R221, 12/R285 to R319, 13/R329, R330, 14/R353, 15/R387, R388). -/

namespace Sys2Proof

open Sys2Proof.Machine

/-- Vector registers an instruction names: number and count. -/
abbrev Regs := Nat × Nat

/-- What the checks at issue need to know of an instruction. -/
structure Opnds where
  types  : Option (List Ty)          -- the TY codes it accepts; none where it does not read TY
  round  : Bool                      -- it rounds under GMODE.RM (R166)
  sels   : List Sel                  -- permute selectors it uses
  evens  : List Nat                  -- registers that must be even because their operand is 64 bits wide
  rd     : List Regs
  wr     : List Regs
  rdF    : List Nat                  -- frames it reads
  wrF    : List Nat                  -- frames it writes
  la     : Option Nat                -- LA, for a class 10 instruction that writes a register (R197)
  count  : Option Counter
  priv   : Bool
  role   : Option Role
  token  : Bool
  mat    : Nat                       -- which pairing R268 asks: 0 none, 1 MMA and MMAS, 2 MMAB, 3 A, 4 B
  serial : Bool                      -- R330: no earlier register result may be outstanding
  ends   : Bool                      -- it ends an idempotent region (R388)
  fold   : Bool                      -- it folds into SIGR (R258)
  uses   : List (Nat × Nat × Nat × Bool)   -- poison uses: USE, register, count, uniform (R387)
  deriving DecidableEq, Repr

def Opnds.none : Opnds :=
  { types := .none, round := false, sels := [], evens := [], rd := [], wr := [], rdF := [], wrF := [], la := .none,
    count := .none, priv := false, role := .none, token := false, mat := 0, serial := false, ends := false,
    fold := true, uses := [] }

def tInt : List Ty := [.i32, .n32, .i16x2, .n16x2, .i8x4, .n8x4, .i64, .n64]
def tSint : List Ty := [.i32, .n32, .i64, .n64]
def tFlt : List Ty := [.f32, .f16x2, .bf16x2, .f64]
def tFlt3 : List Ty := [.f32, .f16x2, .bf16x2]
def tFcmp : List Ty := [.f32, .f64]
def tPkd : List Ty := [.i16x2, .n16x2, .f16x2, .bf16x2, .i8x4, .n8x4, .e4m3x4, .e5m2x4]
def tAny : List Ty := tInt ++ tFlt ++ [.e4m3x4, .e5m2x4]
def tXchg : List Ty := [.i32, .n32, .f32, .i64, .n64, .f64]

/-- The width class of a type (R221). -/
def Ty.wide (t : Ty) : Bool :=
  match t with
  | .i64 => true
  | .n64 => true
  | .f64 => true
  | _ => false

def Ty.isFloat (t : Ty) : Bool :=
  match t with
  | .f32 => true
  | .f16x2 => true
  | .bf16x2 => true
  | .e4m3x4 => true
  | .e5m2x4 => true
  | .f64 => true
  | _ => false

def Ty.signed (t : Ty) : Bool :=
  match t with
  | .i32 => true
  | .i16x2 => true
  | .i8x4 => true
  | .i64 => true
  | _ => false

/-- Element width in bits (R173). -/
def Ty.elem (t : Ty) : Nat :=
  match t with
  | .i32 => 32
  | .n32 => 32
  | .i16x2 => 16
  | .n16x2 => 16
  | .i8x4 => 8
  | .n8x4 => 8
  | .f32 => 32
  | .f16x2 => 16
  | .bf16x2 => 16
  | .e4m3x4 => 8
  | .e5m2x4 => 8
  | .i64 => 64
  | .n64 => 64
  | .f64 => 64

/-- Elements per lane (R173). -/
def Ty.elems (t : Ty) : Nat := if t.elem ≥ 32 then 1 else 32 / t.elem

/-- Significand precision M + 1 of a float type, 0 of an integer type (R175). -/
def Ty.prec (t : Ty) : Nat :=
  match t with
  | .f32 => 24
  | .f16x2 => 11
  | .bf16x2 => 8
  | .e4m3x4 => 4
  | .e5m2x4 => 3
  | .f64 => 53
  | _ => 0

/-- The type in GMODE.TY; none for 14 and 15 (R165). -/
def Machine.Wave.ty? (w : Wave) : Option Ty := Ty.ofBits? (fld w.gmode 3 4)

/-- Registers of a value under the type in force: a pair under a 64-bit width class (R221). -/
def Machine.Wave.vcount (w : Wave) : Nat := if (w.ty?.map Ty.wide).getD false then 2 else 1

/-- A CVT type pair that is exact (R166); so is a float type to itself (log 37). -/
def cvtExact (src dst : Ty) : Bool :=
  match src.isFloat, dst.isFloat with
  | false, false => true
  | true, false => false
  | false, true => decide (dst.prec ≥ src.elem)
  | true, true =>
    match src, dst with
    | .f16x2, .f32 => true
    | .f16x2, .f64 => true
    | .bf16x2, .f32 => true
    | .bf16x2, .f64 => true
    | .f32, .f64 => true
    | .e4m3x4, .e4m3x4 => true
    | .e4m3x4, .e5m2x4 => false
    | .e4m3x4, _ => true
    | .e5m2x4, .e4m3x4 => false
    | .e5m2x4, _ => true
    | a, b => a == b

/-- Operands of an A3 instruction over values. -/
def opA3 (w : Wave) (ts : List Ty) (rnd : Bool) (d p a q b : Nat) : Opnds :=
  { Opnds.none with
    types := some ts, round := rnd, sels := [⟨p % 4, Nat.mod_lt _ (by decide)⟩, ⟨q % 4, Nat.mod_lt _ (by decide)⟩],
    evens := [d, a, b], rd := [(a, w.vcount), (b, w.vcount)], wr := [(d, w.vcount)] }

/-- Operands of a one-source A3 instruction over values. -/
def opA2 (w : Wave) (ts : List Ty) (rnd : Bool) (d p a : Nat) : Opnds :=
  { Opnds.none with
    types := some ts, round := rnd, sels := [⟨p % 4, Nat.mod_lt _ (by decide)⟩], evens := [d, a],
    rd := [(a, w.vcount)], wr := [(d, w.vcount)] }

/-- Operands of an A4 instruction over values. -/
def opA4 (w : Wave) (ts : List Ty) (rnd : Bool) (d a b c p : Nat) : Opnds :=
  { Opnds.none with
    types := some ts, round := rnd, sels := [⟨p % 4, Nat.mod_lt _ (by decide)⟩], evens := [d, a, b, c],
    rd := [(a, w.vcount), (b, w.vcount), (c, w.vcount)], wr := [(d, w.vcount)] }

/-- Operands of a compare. -/
def opCmp (w : Wave) (ts : List Ty) (sels : List Sel) (rs : List Nat) : Opnds :=
  { Opnds.none with
    types := some ts, sels := sels, evens := rs, rd := rs.map (fun r => (r, w.vcount)),
    uses := rs.map (fun r => (4, r, w.vcount, false)) }

def opWr (d n : Nat) : Opnds := { Opnds.none with wr := [(d, n)] }

/-- Registers a size moves (R288). -/
def Size.regs (s : Size) : Nat :=
  match s with
  | .b64 => 2
  | .b128 => 4
  | _ => 1

def Size.bytes (s : Size) : Nat :=
  match s with
  | .i8 => 1
  | .n8 => 1
  | .i16 => 2
  | .n16 => 2
  | .b32 => 4
  | .b64 => 8
  | .b128 => 16

def OSize.size (s : OSize) : Size :=
  match s with
  | .b32 => .b32
  | .b64 => .b64
  | .b128 => .b128

def opLd (d a f n la : Nat) : Opnds :=
  { Opnds.none with
    rd := [(a, 1)], wr := [(d, n)], rdF := [f], la := some la, count := some .m, uses := [(3, a, 1, false)] }

def opSt (d a f n : Nat) : Opnds :=
  { Opnds.none with
    rd := [(a, 1), (d, n)], rdF := [f], count := some .m, uses := [(1, d, n, false), (3, a, 1, false)] }

/-- Operands of an atomic; `k` is how many operand values D holds (R296). -/
def opAtom (w : Wave) (ts : List Ty) (k d a f la : Nat) : Opnds :=
  { Opnds.none with
    types := some ts, rd := [(d, k * w.vcount), (a, 1)], wr := [(d, w.vcount)], rdF := [f], la := some la,
    count := some .m, ends := true, uses := [(2, d, k * w.vcount, false), (3, a, 1, false)] }

def opLong (w : Wave) (ts : List Ty) (rnd : Bool) (d : Nat) (as : List Nat) (la : Nat) : Opnds :=
  { Opnds.none with
    types := some ts, round := rnd, evens := d :: as, rd := as.map (fun a => (a, w.vcount)), wr := [(d, w.vcount)],
    la := some la, count := some .s }

/-- A copy: its shape, its addresses, and its vD, a barrier offset or, of CPYQ, a record's address, its queue word and count. -/
def opCopy (a : Nat) (ds : List Regs) (fs : List Nat) : Opnds :=
  { Opnds.none with
    rd := (a, 4) :: ds, rdF := fs, count := some .c, role := some .copy, ends := true,
    uses := (6, a, 2, true) :: (3, a + 2, 2, true) ::
      ds.flatMap (fun d => if d.2 = 1 then [(3, d.1, 1, true)] else [(3, d.1, 2, true), (6, d.1 + 2, d.2 - 2, true)]) }

def opMat (rd : List Regs) (token : Bool) (mat : Nat) : Opnds :=
  { Opnds.none with
    rd := rd, count := some .x, role := some .matrix, token := token, mat := mat, ends := true,
    uses := rd.map (fun r => (3, r.1, r.2, false)) }

def opSys (priv ends : Bool) (rd wr : List Regs) (uses : List (Nat × Nat × Nat × Bool)) : Opnds :=
  { Opnds.none with rd := rd, wr := wr, priv := priv, serial := true, ends := ends, uses := uses }

/-- What an instruction reads, writes and asks of the checks, in a wave. -/
def Instr.opnds (i : Instr) (w : Wave) : Opnds :=
  match i with
  | .add d p a q b => opA3 w tInt false d p a q b
  | .sub d p a q b => opA3 w tInt false d p a q b
  | .addc d p a q b => opA3 w tSint false d p a q b
  | .subb d p a q b => opA3 w tSint false d p a q b
  | .mul d p a q b => opA3 w tInt false d p a q b
  | .mulh d p a q b => opA3 w tInt false d p a q b
  | .absd d p a q b => opA3 w tInt false d p a q b
  | .avg d p a q b => opA3 w tInt false d p a q b
  | .min d p a q b => opA3 w tInt false d p a q b
  | .max d p a q b => opA3 w tInt false d p a q b
  | .satadd d p a q b => opA3 w tInt false d p a q b
  | .satsub d p a q b => opA3 w tInt false d p a q b
  | .and d p a q b => opA3 w tAny false d p a q b
  | .or d p a q b => opA3 w tAny false d p a q b
  | .xor d p a q b => opA3 w tAny false d p a q b
  | .andn d p a q b => opA3 w tAny false d p a q b
  | .orn d p a q b => opA3 w tAny false d p a q b
  | .rol d p a q b => opA3 w tInt false d p a q b
  | .fshr d p a q b => { opA3 w tSint false d p a q b with rd := [(d, w.vcount), (a, w.vcount), (b, w.vcount)] }
  | .shl d p a q b => opA3 w tInt false d p a q b
  | .shr d p a q b => opA3 w tInt false d p a q b
  | .sar d p a q b => opA3 w tInt false d p a q b
  | .popc d p a => opA2 w tInt false d p a
  | .clz d p a => opA2 w tInt false d p a
  | .ctz d p a => opA2 w tInt false d p a
  | .brev d p a => opA2 w tInt false d p a
  | .bfx d p a q b => opA3 w tSint false d p a q b
  | .bmsk d p a q b => opA3 w tSint false d p a q b
  | .cmp _ _ p a q b => opCmp w tSint [p, q] [a, b]
  | .scmp _ p a q b => opCmp w tSint [p, q] [a, b]
  | .selK03 d p a q b _ => opA3 w tAny false d p a q b
  | .selK47 d p a q b _ => opA3 w tAny false d p a q b
  | .fadd d p a q b => opA3 w tFlt true d p a q b
  | .fsub d p a q b => opA3 w tFlt true d p a q b
  | .fmul d p a q b => opA3 w tFlt true d p a q b
  | .fmin d p a q b => opA3 w tFlt false d p a q b
  | .fmax d p a q b => opA3 w tFlt false d p a q b
  | .fscale d p a q b => opA3 w tFlt true d p a q b
  | .fneg d p a => opA2 w tFlt false d p a
  | .fabs d p a => opA2 w tFlt false d p a
  | .ffract d p a => opA2 w tFlt true d p a
  | .fclass d p a => { opA2 w tFlt false d p a with evens := [a.val], wr := [(d.val, 1)] }
  | .frnd d p a r => opA2 w tFlt (r == .gmode) d p a
  | .fcmp _ _ p a q b => opCmp w tFcmp [p, q] [a, b]
  | .cvt d p a t rz =>
    { opA2 w tAny (!rz && !((w.ty?.map (fun s => cvtExact s t)).getD true)) d p a with
      evens := [a.val], wr := [(d.val, if t.wide then 2 else 1)] }
  | .pack d p a q b => opA3 w tPkd ((w.ty?.map Ty.isFloat).getD false) d p a q b
  | .unpk d p a q b => opA3 w tPkd false d p a q b
  | .sat d p a => opA2 w (tInt ++ tFlt) false d p a
  | .shfl d p a q b _ =>
    { opA3 w tAny false d p a q b with evens := [d.val, a.val], rd := [(a.val, w.vcount), (b.val, 1)] }
  | .qxh d p a => opA2 w tAny false d p a
  | .qxv d p a => opA2 w tAny false d p a
  | .qxd d p a => opA2 w tAny false d p a
  | .qbc d p a _ => opA2 w tAny false d p a
  | .qswz d p a _ _ => opA2 w tAny false d p a
  | .wred d p a op => opA2 w (redTypes op) (op == .add && w.ty? == some .f32) d p a
  | .wscan d p a op _ => opA2 w (redTypes op) (op == .add && w.ty? == some .f32) d p a
  | .kand _ _ _ => Opnds.none
  | .kor _ _ _ => Opnds.none
  | .kxor _ _ _ => Opnds.none
  | .kandn _ _ _ => Opnds.none
  | .knot _ _ => Opnds.none
  | .kmov _ _ => Opnds.none
  | .kpopc d _ => opWr d 1
  | .kffs d _ => opWr d 1
  | .exmrd _ => Opnds.none
  | .exmwr _ => Opnds.none
  | .mov d p a => opA2 w tAny false d p a
  | .sread d _ => opWr d 1
  | .hlprd d p a => { Opnds.none with sels := [p], rd := [(a.val, 1)], wr := [(d.val, 1)] }
  | .fma d a b c p => opA4 w tFlt true d a b c p
  | .fms d a b c p => opA4 w tFlt true d a b c p
  | .fnma d a b c p => opA4 w tFlt true d a b c p
  | .mad d a b c p => opA4 w tInt false d a b c p
  | .madh d a b c p => opA4 w tInt false d a b c p
  | .bfi d a b c p => opA4 w tSint false d a b c p
  | .dot4 d a b c p => opA4 w [.i8x4, .n8x4] false d a b c p
  | .fdot2 d a b c p => opA4 w [.f16x2, .bf16x2] true d a b c p
  | .lerp d a b c p => opA4 w tFlt3 true d a b c p
  | .clamp d a b c p => opA4 w (tInt ++ tFlt) false d a b c p
  | .ld d a f sz _ la => opLd d a f sz.regs la
  | .st d a f sz _ _ => opSt d a f sz.regs
  | .ldl d a sz la => { opLd d a 0 sz.regs la with rdF := [] }
  | .stl d a sz _ => { opSt d a 0 sz.regs with rdF := [] }
  | .prf _ a f _ _ _ =>
    { Opnds.none with rd := [(a.val, 1)], rdF := [f.val], count := some .m, uses := [(3, a.val, 1, false)] }
  | .ldAcq d a f sz _ la => opLd d a f sz.size.regs la
  | .stRel d a f sz _ _ => opSt d a f sz.size.regs
  | .aadd d a f _ _ la => opAtom w tSint 1 d a f la
  | .amin d a f _ _ la => opAtom w tSint 1 d a f la
  | .amax d a f _ _ la => opAtom w tSint 1 d a f la
  | .aand d a f _ _ la => opAtom w tSint 1 d a f la
  | .aor d a f _ _ la => opAtom w tSint 1 d a f la
  | .axor d a f _ _ la => opAtom w tSint 1 d a f la
  | .axchg d a f _ _ la => opAtom w tXchg 1 d a f la
  | .acas d a f _ _ la => opAtom w tXchg 2 d a f la
  | .afadd d a f _ _ la => opAtom w tFlt 1 d a f la
  | .ainc d a f _ _ la => opAtom w tSint 1 d a f la
  | .fence _ _ => Opnds.none
  | .fencex _ _ => { Opnds.none with ends := true }
  | .wait _ _ _ => Opnds.none
  | .xlb a f la =>
    { Opnds.none with rd := [(a.val, 2)], wrF := [f.val], la := some la.val, count := some .m, uses := [(3, a.val, 2, true)] }
  | .xinv a _ _ => { Opnds.none with rd := [(a.val, 2)], count := some .m, uses := [(3, a.val, 2, true)] }
  | .fdiv d a b la => opLong w tFlt true d [a, b] la
  | .fsqrt d a la => opLong w tFlt true d [a] la
  | .frcp d a la => opLong w tFlt true d [a] la
  | .frsq d a la => opLong w tFlt true d [a] la
  | .fexp2 d a la => opLong w tFlt3 true d [a] la
  | .flog2 d a la => opLong w tFlt3 true d [a] la
  | .fsin d a la => opLong w tFlt3 true d [a] la
  | .fcos d a la => opLong w tFlt3 true d [a] la
  | .idiv d a b la => opLong w tSint false d [a, b] la
  | .irem d a b la => opLong w tSint false d [a, b] la
  | .cpy d a f _ _ => opCopy a [(d.val, 1)] [f.val]
  | .cpymc d a f _ _ => opCopy a [(d.val, 1)] [f.val]
  | .cpyst _ a f _ _ => opCopy a [] [f.val]
  | .cpyg d a f _ _ => opCopy a [(d.val, 1)] [f.val]
  | .cpys d a _ => opCopy a [(d.val, 1)] []
  | .cpyp d a f g _ _ => opCopy a [(d.val, 1)] [f.val, g.val]
  | .cpyq d a f g _ _ => opCopy a [(d.val, 4)] [f.val, g.val]
  | .mma _ a _ _ _ => opMat [(a.val, 2)] true 1
  | .mmas _ a _ _ _ => opMat [(a.val, 2)] true 1
  | .mmab _ a _ _ _ => opMat [(a.val, 4)] true 2
  | .comp a _ _ => opMat [(a.val, 2)] true 3
  | .plnw a sel _ _ => opMat [(a.val, 2)] true (if sel then 4 else 3)
  | .plnr a sel _ _ => opMat [(a.val, 2)] true (if sel then 4 else 3)
  | .accz _ _ _ => opMat [] true 0
  | .accld _ a _ => opMat [(a.val, 1)] true 0
  | .accst _ a _ => opMat [(a.val, 1)] true 0
  | .accrd d _ _ la => { opMat [] false 0 with wr := [(d.val, 1)], la := some la.val }
  | .accwr _ a _ _ => { opMat [(a.val, 1)] false 0 with uses := [] }
  | .mxtokAcq _ => { opMat [] false 0 with count := .none }
  | .mxtokRel _ => { opMat [] false 0 with count := .none }
  | .mxtokPass _ _ => { opMat [] false 0 with count := .none }
  | .bar _ _ => { Opnds.none with ends := true }
  | .sstep _ => { Opnds.none with ends := true }
  | .rnga d _ la => { opWr d 1 with la := some la.val, ends := true }
  | .rngc a _ _ => { Opnds.none with rd := [(a.val, 1)], ends := true, uses := [(3, a.val, 1, true)] }
  | .rngw d _ la => { opWr d 1 with la := some la.val, ends := true }
  | .rngf a _ _ => { Opnds.none with rd := [(a.val, 1)], ends := true, uses := [(3, a.val, 1, true)] }
  | .yieldc _ _ _ => { Opnds.none with ends := true }
  | .enq a _ => { Opnds.none with rd := [(a.val, 3)], ends := true, uses := [(3, a.val, 2, true), (6, a.val + 2, 1, true)] }
  | .enqd a _ => { Opnds.none with rd := [(a.val, 4)], ends := true, uses := [(3, a.val, 2, true), (6, a.val + 2, 2, true)] }
  | .movh d _ => opWr d 1
  | .br _ _ _ => Opnds.none
  | .call _ => Opnds.none
  | .sigchk _ => { Opnds.none with fold := false }
  | .addi d a _ => opA2 w tAny false d 0 a
  | .andi d a _ => opA2 w tAny false d 0 a
  | .ori d a _ => opA2 w tAny false d 0 a
  | .xori d a _ => opA2 w tAny false d 0 a
  | .shli d a _ => opA2 w tAny false d 0 a
  | .shri d a _ => opA2 w tAny false d 0 a
  | .sari d a _ => opA2 w tAny false d 0 a
  | .cmpi _ _ a _ => opCmp w tSint [] [a]
  | .movi d _ => opWr d 1
  | .ldc d a _ => { opWr d 1 with rd := [(a.val, 1)], uses := [(3, a.val, 1, false)] }
  | .callr a => { Opnds.none with rd := [(a.val, 2)], uses := [(4, a.val, 2, true)] }
  | .callg _ => Opnds.none
  | .ret => Opnds.none
  | .enter _ => Opnds.none
  | .exit => { Opnds.none with ends := true }
  | .jmpr a => { Opnds.none with rd := [(a.val, 2)], uses := [(4, a.val, 2, true)] }
  | .mpush _ => Opnds.none
  | .melse => Opnds.none
  | .mpop => Opnds.none
  | .setm a => { Opnds.none with rd := [(a.val, 2)], uses := [(5, a.val, 2, true)] }
  | .setmf _ _ => Opnds.none
  | .getm d => opWr d 2
  | .regn => Opnds.none
  | .nop => Opnds.none
  | .bkpt _ => { Opnds.none with serial := true }
  | .trap _ => { Opnds.none with serial := true, ends := true }
  | .prld d a => opSys true false [(a.val, 2)] [(d.val, 2)] [(6, a.val, 1, true), (3, a.val + 1, 1, false)]
  | .prst d a => opSys true true [(a.val, 2), (d.val, 2)] []
      [(1, d.val, 2, false), (6, a.val, 1, true), (3, a.val + 1, 1, false)]
  | .prreg d a => opSys true false [(a.val, 2)] [(d.val, 2)] [(6, a.val, 1, true), (6, a.val + 1, 1, false)]
  | .pwreg d a => opSys true true [(a.val, 2), (d.val, 2)] []
      [(1, d.val, 2, false), (6, a.val, 1, true), (6, a.val + 1, 1, false)]
  | .presume a => opSys true true [(a.val, 1)] [] [(6, a.val, 1, true)]
  | .pretry a => opSys true true [(a.val, 1)] [] [(6, a.val, 1, true)]
  | .predir d a => opSys true true [(a.val, 1), (d.val, 2)] [] [(6, a.val, 1, true), (4, d.val, 2, true)]
  | .pkill a => opSys true true [(a.val, 1)] [] [(6, a.val, 1, true)]
  | .prplay a => opSys true true [(a.val, 1)] [] [(6, a.val, 1, true)]
  | .snap _ => opSys true true [] [] []
  | .reord d a => opSys false true [(a.val, 2), (d.val, 1)] [] [(6, a.val, 2, true)]
  | .ptld d a _ => opSys true true [(a.val, 2)] [(d.val, 1)] [(3, a.val, 2, true)]
  | .rgset d a _ => opSys true true [(a.val, 4)] [(d.val, 1)] [(6, a.val, 4, true)]
  | .krepl d a => opSys true true [(a.val, 4)] [(d.val, 2)] [(6, a.val, 3, true)]
  | .csrr d a => opSys ((csrInsts ((w.v a w.uniform).toNat % 65536)).isSome &&
      decide ((w.v a w.uniform).toNat % 65536 ∉ [0, 1, 0x90, 0x91, 0x92, 0x400, 0x420])) true
      [(a.val, 1)] [(d.val, 2)] [(6, a.val, 1, true)]
  | .csrw d a => opSys true true [(a.val, 1), (d.val, 2)] [] [(6, a.val, 1, true), (6, d.val, 2, true)]
  | _ => Opnds.none
where
  /-- The types of WRED and WSCAN (R221). -/
  redTypes (op : RedOp) : List Ty :=
    match op with
    | .add => .f32 :: tInt
    | .min => .f32 :: tInt
    | .max => .f32 :: tInt
    | _ => tInt

/-- Where an instruction that R291 checks goes: frame, offset register, bytes in a lane, and whether it must be naturally
aligned (R291, R293, R299). -/
def Instr.addressed (i : Instr) (w : Wave) : Option (Nat × Nat × Nat × Bool) :=
  let n := 4 * w.vcount
  match i with
  | .ld _ a f sz _ _ => some (f, a, sz.bytes, false)
  | .st _ a f sz _ _ => some (f, a, sz.bytes, false)
  | .ldAcq _ a f sz _ _ => some (f, a, sz.size.bytes, true)
  | .stRel _ a f sz _ _ => some (f, a, sz.size.bytes, true)
  | .aadd _ a f _ _ _ => some (f, a, n, true)
  | .amin _ a f _ _ _ => some (f, a, n, true)
  | .amax _ a f _ _ _ => some (f, a, n, true)
  | .aand _ a f _ _ _ => some (f, a, n, true)
  | .aor _ a f _ _ _ => some (f, a, n, true)
  | .axor _ a f _ _ _ => some (f, a, n, true)
  | .axchg _ a f _ _ _ => some (f, a, n, true)
  | .acas _ a f _ _ _ => some (f, a, n, true)
  | .afadd _ a f _ _ _ => some (f, a, n, true)
  | .ainc _ a f _ _ _ => some (f, a, n, true)
  | _ => none

/-- Stores and atomics, whose records hold their data (R327). -/
def Instr.stores (i : Instr) : Bool := ((i.opnds Wave.empty).uses.any (fun u => decide (u.1 = 2))) ||
  (match i with
   | .st _ _ _ _ _ _ => true
   | .stRel _ _ _ _ _ _ => true
   | .stl _ _ _ _ => true
   | _ => false)

/-- The permute slot that a selector names (R165, R167): pattern and parameter. -/
def Machine.Wave.slotOf (w : Wave) (s : Sel) : Nat × Nat :=
  match s.val with
  | 0 => (0, 0)
  | 1 => (fld w.gmode 42 3, fld w.gmode 37 5)
  | 2 => (fld w.gmode 50 3, fld w.gmode 45 5)
  | _ => (fld w.gmode 58 3, fld w.gmode 53 5)

/-- A permute slot without a reserved pattern or parameter (R167). -/
def Machine.Wave.slotOk (w : Wave) (s : Sel) : Bool :=
  match w.slotOf s with
  | (0, q) => q == 0
  | (4, q) => decide (2 ^ q ≤ w.width)
  | (p, _) => decide (p < 4)

/-- The source lane of lane l through a permute slot (R167). -/
def Machine.Wave.srcLane (w : Wave) (s : Sel) (l : Nat) : Nat :=
  match w.slotOf s with
  | (0, _) => l
  | (1, q) => (l + q) % w.width
  | (2, q) => 32 * (l / 32) + q
  | (3, q) => l ^^^ q
  | (_, q) => l ^^^ (2 ^ q - 1)

/-- Whether a matrix format code is assigned, and its stored planes (R165, R187). -/
def planesOf (code : Nat) : Nat :=
  if code = 0 then 8 else if code = 1 then 8 else if code = 2 then 16
  else if 8 ≤ code ∧ code ≤ 14 then code - 6 else 0

/-- MXA and MXB meet R166 and R268 for a matrix instruction. -/
def Machine.Wave.matOk (w : Wave) (mat : Nat) : Bool :=
  let a := fld w.gmode 25 4
  let p := fld w.gmode 21 4
  let b := fld w.gmode 33 4
  let aok := decide (planesOf a ≠ 0) && (if a < 8 then p == 0 else (p == 0 || (decide (2 ≤ p) && decide (p ≤ a - 6))))
  let bok := decide (planesOf b ≠ 0) && fld w.gmode 29 4 == 0
  match mat with
  | 0 => true
  | 1 => aok && bok && decide ((a < 8) = (b < 8))
  | 2 => aok && bok && decide (a < 8) && decide (b < 8)
  | 3 => aok
  | _ => bok

/-- Fields refused under W64 (R260). -/
def Instr.w64Field (i : Instr) : Bool :=
  match i with
  | .mma d _ _ _ _ => d.val % 2 == 1
  | .mmas d _ _ _ _ => d.val % 2 == 1
  | .mmab d _ _ _ _ => d.val % 2 == 1
  | .accrd _ _ r _ => r.val % 2 == 1
  | .accwr _ _ r _ => r.val % 2 == 1
  | _ => false

/-- Registers that a type makes pairs: even under a 64-bit width class; CVT's destination by its own type; the
groups of the atomics (R174, R236, R296). -/
def Instr.pairFail (i : Instr) (w : Wave) : Bool :=
  let odd : List Nat → Bool := fun rs => rs.any (fun r => r % 2 == 1)
  let wide := w.vcount == 2
  match i with
  | .cvt d _ a t _ => (wide && a.val % 2 == 1) || (t.wide && d.val % 2 == 1)
  | .acas d _ _ _ _ _ => if wide then d.val % 4 != 0 else d.val % 2 == 1
  | .aadd d _ _ _ _ _ => wide && d.val % 2 == 1
  | .amin d _ _ _ _ _ => wide && d.val % 2 == 1
  | .amax d _ _ _ _ _ => wide && d.val % 2 == 1
  | .aand d _ _ _ _ _ => wide && d.val % 2 == 1
  | .aor d _ _ _ _ _ => wide && d.val % 2 == 1
  | .axor d _ _ _ _ _ => wide && d.val % 2 == 1
  | .axchg d _ _ _ _ _ => wide && d.val % 2 == 1
  | .afadd d _ _ _ _ _ => wide && d.val % 2 == 1
  | .ainc d _ _ _ _ _ => wide && d.val % 2 == 1
  | _ => wide && odd (i.opnds w).evens

/-- GMODE.RM (R165). -/
def Machine.Wave.rm (w : Wave) : Nat := fld w.gmode 7 3

/-- The subclass of R210 that an instruction raises for what GMODE and W hold, if any: the first of R210's table. -/
def Instr.unimpl (i : Instr) (w : Wave) : Option Nat :=
  let o := i.opnds w
  if w.w64 && i.w64Field then some 2
  else if i.pairFail w then some 4
  else if (match o.types with
      | none => false
      | some ts => (match w.ty? with
        | none => true
        | some t => !ts.contains t)) then some 5
  else if o.round && decide (w.rm ≥ 5) then some 6
  else if !w.matOk o.mat then some 7
  else if o.sels.any (fun s => !w.slotOk s) then some 8
  else none

end Sys2Proof
end

