-- ==== Sys2Proof/Machine/Issue.lean ====
section
/-! DEFINITION. Issue of an instruction: the checks of 09/R211 in their order, residency of registers (07/R153,
R156 to R158), the lookahead promise (09/R197 to R199), poison (15/R387 to R390), the signature fold (10/R258) and
the budget charge (14/R358). -/

namespace Sys2Proof.Machine

/-! ## The fault log (R394) -/

/-- An entry of a die's fault log, written at DEV scope. -/
def State.logFault (s : State) (die typ cls act origin handle : Nat) (addr unit : Dword) : State :=
  let b := s.csrGet 0x390 die
  let p := s.csrGet 0x391 die
  if fld b 0 1 = 0 then s
  else
    ((s.devWrite (dieCore die) (fld b 15 37 * 2 ^ 15 + 32 * fld p 0 10)
      (toBytes 8 s.gt ++ toBytes 8 (typ * 2 ^ 56 + cls * 2 ^ 48 + act * 2 ^ 40 + origin * 2 ^ 32 + handle) ++
        toBytes 8 addr.toNat ++ toBytes 8 unit.toNat)).csrPut 0x391 die
      (dw (Nat.min (fld p 32 32 + 1) (2 ^ 32 - 1) * 2 ^ 32 + (fld p 0 10 + 1) % 1024)))

/-! ## Addresses reached through the walker (R33, R157) -/

/-- How an address is reached: a physical address with its leaf, a migration in progress, a walk or memory that waits (R431), or
a fault with its fault address. -/
inductive Reach where
  | ok (pa leaf : Nat)
  | moving (die id : Nat)
  | held
  | fail (cls : Nat) (faddr finfo : Dword)
  deriving DecidableEq, Repr

/-- R390's information word. -/
def eccInfo (origin use : Nat) (region : Bool) (restarts : Nat) : Dword :=
  dw (origin * 2 ^ 56 + use * 2 ^ 48 + (if region then 2 ^ 47 else 0) + restarts * 2 ^ 44)

/-- The class of poison met in one word: TAGFAIL for tag poison (R387, R393). -/
def Mark.cls (m : Mark) : Nat := if m.origin = 9 then 11 else 10

/-- An address reached in a context by an engine of core `c`, with the permission of `k` and the KIND code `code` in a
fault. -/
def State.reach (s : State) (c ctx : Nat) (sys : Bool) (k : Access) (code : Nat) (va : Dword) : Reach :=
  if !canonical va then .fail 6 va (accessInfo 0x14 0 0 code 15)
  else match s.walk c ctx va with
    | .leaf e a lvl =>
      (match s.deny sys k (attrOf e a) (leafAddr e lvl va) none with
       | some r => .fail 6 va (accessInfo r 0 0 code 15)
       | none => if s.unserved (leafAddr e lvl va) then .held else .ok (leafAddr e lvl va) a)
    | .bad r lvl => .fail 5 va (accessInfo r 0 lvl code 15)
    | .migrating d i => .moving d i
    | .held => .held
    | .poisoned m => .fail m.cls (dw m.addr) (eccInfo m.origin 9 false 0)

/-- What preparing an instruction gives: a state to go on from, a wait, or a fault of the wave that prepares
(R156, R158); class 0 is a migration, which the information word names (R53). -/
inductive Move where
  | ok (s : State)
  | wait (s : State)
  | fault (s : State) (cls : Nat) (faddr finfo : Dword)

def Move.bind (m : Move) (f : State → Move) : Move :=
  match m with
  | .ok s => f s
  | .wait s => .wait s
  | .fault s c a i => .fault s c a i

/-- The class of a backing-area fault: SPILL, or that of the poison for a poisoned walk entry (R158, R387). -/
def spillClass (cls : Nat) : Nat := if cls = 10 ∨ cls = 11 then cls else 20

/-- What a backing-area access that was not reached makes of a preparation (R53, R158). -/
def Reach.stop (r : Reach) (s : State) (va : Dword) : Move :=
  match r with
  | .ok _ _ => .ok s
  | .moving d i => .fault s 0 va (dw (d * 2 ^ 32 + i))
  | .held => .wait s
  | .fail c fa i => .fault s (spillClass c) fa i

/-- Bytes written at a virtual address of the backing area of wave `id`, by WRNC at the home (R157). -/
def State.backWrite (s : State) (id : Nat) (w : Wave) (va : Dword) (bs : List Byte) : Move :=
  let c := coreOfWave id
  match s.reach c w.ctx w.sys .store 7 va with
  | .ok pa leaf => .ok ((s.setAD c leaf true).devWrite c pa bs)
  | r => r.stop s va

/-- Registers that outstanding operations of a wave will write (R199). -/
def State.pendingRegs (s : State) (id : Nat) : List Nat :=
  s.ops.flatMap (fun e => if e.2.wave = id then e.2.dst else []) ++
  s.engines.flatMap (fun e => e.2.ops.flatMap (fun m => if m.wave = id ∧ m.kind = .accrd then [m.dst] else []))

/-- Frames that outstanding XLBs of a wave will write. -/
def State.pendingFrames (s : State) (id : Nat) : List Nat :=
  s.ops.flatMap (fun e => if e.2.wave = id then (match e.2.kind with
    | .xlb f => [f]
    | _ => []) else [])

/-- The backing address of logical register j (R157). -/
def Wave.backAt (w : Wave) (j : Nat) : Dword := w.bb + dw (4 * w.width * j)

/-- One register spilled (R156, R386). -/
def State.spillReg (s : State) (id j : Nat) : Move :=
  let w := s.wave id
  let c := coreOfWave id
  match s.reach c w.ctx w.sys .store 7 (w.backAt j) with
  | .ok pa leaf =>
    let s1 := (s.setAD c leaf true).devWrite c pa
      (wordBytes ((List.range w.width).map (fun l => (Sparse.get [] w.regs j).getD l 0)))
    .ok ((if w.rpoison = [] then s1 else
        (List.range w.width).foldl (fun acc l =>
          if (w.lmark j l).origin = 0 then acc else acc.setMark (s.place pa + 4 * l) (w.lmark j l)) s1).modWave id
      (fun x => { x with regs := Sparse.erase x.regs j,
                         rpoison := x.rpoison.filter (fun e => decide (e.1 / 64 ≠ j)) }))
  | r => r.stop s (w.backAt j)

/-- One register filled by RDNC at the home, and tagged plain (R156, R158, R164). -/
def State.fillReg (s : State) (id j : Nat) : Move :=
  let w := s.wave id
  let c := coreOfWave id
  match s.reach c w.ctx w.sys .load 7 (w.backAt j) with
  | .ok pa leaf =>
    .ok ((s.setAD c leaf false).modWave id (fun x =>
      let y := { x with regs := Sparse.put x.regs j ((List.range w.width).map (fun l => wd (s.newestNat c (pa + 4 * l) 4))),
                        tags := Sparse.erase x.tags j }
      if s.poison = [] then y else
        (List.range w.width).foldl (fun acc l => acc.setLmark j l (s.mark (s.place pa + 4 * l))) y))
  | r => r.stop s (w.backAt j)

def spillRegs : List Nat → Nat → State → Move
  | [], _, s => .ok s
  | j :: r, id, s => (s.spillReg id j).bind (spillRegs r id)

def fillRegs : List Nat → Nat → State → Move
  | [], _, s => .ok s
  | j :: r, id, s => (s.fillReg id j).bind (fillRegs r id)

/-- `n` groups of eight registers spilled from lo; a group with a result outstanding waits (R156). -/
def spillGroups : Nat → Nat → State → Move
  | 0, _, s => .ok s
  | n + 1, id, s =>
    if (s.pendingRegs id).any (fun j => decide ((s.wave id).lo ≤ j) && decide (j < (s.wave id).lo + 8)) then .wait s
    else (spillRegs ((List.range 8).map (· + (s.wave id).lo)) id s).bind (fun t =>
      spillGroups n id (t.modWave id (fun x => { x with lo := x.lo + 8 })))

/-- A register that enters the span holds an unpredictable value (R153, R154; log 5). -/
def State.enterReg (s : State) (id j : Nat) : State :=
  (s.modWave id (fun x =>
    { x with regs := Sparse.put x.regs j ((List.range x.width).map (fun l => Config.freeWord (64 * s.fresh + l))) })).draw

/-- "Make a range resident" (R156). -/
def State.makeResident (s : State) (id base top : Nat) : Move :=
  let w := s.wave id
  (spillGroups ((top - w.lo - w.seg + 7) / 8) id s).bind (fun t =>
    let w1 := t.wave id
    (fillRegs ((List.range (w1.lo - base)).map (· + base)) id t).bind (fun u =>
      .ok (((List.range (top - w1.hi)).foldl (fun acc i => acc.enterReg id (w1.hi + i)) u).modWave id
        (fun x => { x with lo := Nat.min x.lo base, hi := Nat.max x.hi top }))))

/-! ## Signatures (R258) -/

def crcBit (n : Nat) : Nat := if n % 2 = 1 then n / 2 ^^^ 0x82F63B78 else n / 2

/-- step(b) of R258. -/
def sigStep (sig : Word) (b : Nat) : Word :=
  wd (crcBit (crcBit (crcBit (crcBit (crcBit (crcBit (crcBit (crcBit (sig.toNat ^^^ b % 256)))))))))

/-- fold(w) of R258 without its event. -/
def sigFold (sig w : Word) : Word :=
  sigStep (sigStep (sigStep (sigStep sig w.toNat) (w.toNat / 256)) (w.toNat / 65536)) (w.toNat / 16777216)

/-- The value before a step over one bit. -/
def crcBack (n : Nat) : Nat := if n ≥ 2 ^ 31 then 2 * (n ^^^ 0x82F63B78) + 1 else 2 * n

/-- The value before step(b). -/
def sigBack (sig : Word) (b : Nat) : Word :=
  wd (crcBack (crcBack (crcBack (crcBack (crcBack (crcBack (crcBack (crcBack sig.toNat))))))) ^^^ b % 256)

/-- The value before fold(w): what an instruction that will issue again has folded is taken back, so that it folds once
(R258). -/
def sigUnfold (sig w : Word) : Word :=
  sigBack (sigBack (sigBack (sigBack sig (w.toNat / 16777216)) (w.toNat / 65536)) (w.toNat / 256)) w.toNat

/-! ## Lookahead (R197 to R199) -/

end Sys2Proof.Machine

namespace Sys2Proof

open Sys2Proof.Machine

/-- The registers an instruction reads or writes, by logical number; frames by number. -/
def Opnds.names (o : Opnds) (w : Wave) : List RegName :=
  ((o.rd ++ o.wr).flatMap (fun r => (List.range r.2).map (fun i => { kind := 0, num := w.wb + r.1 + i }))) ++
  ((o.rdF ++ o.wrF).map (fun f => { kind := 2, num := f }))

/-- The registers an instruction writes. -/
def Opnds.writes (o : Opnds) (w : Wave) : List RegName :=
  (o.wr.flatMap (fun r => (List.range r.2).map (fun i => { kind := 0, num := w.wb + r.1 + i }))) ++
  (o.wrF.map (fun f => { kind := 2, num := f }))

/-- The highest logical register an instruction writes, plus one. -/
def Opnds.top (o : Opnds) (w : Wave) : Nat := o.wr.foldl (fun acc r => Nat.max acc (w.wb + r.1 + r.2)) 0

/-- The tags of a wave's registers once an instruction has issued: what tag the scheduler gives a result is left open
(R164; log 98). -/
def Opnds.retag (o : Opnds) (w : Wave) (op : Nat) : Sparse Tag :=
  (o.wr.flatMap (fun r => (List.range r.2).map (fun i => w.wb + r.1 + i))).foldl (fun acc j =>
    Sparse.set .plain acc j (Tag.pick (Config.regTag (op * 2 ^ 32 + w.seq) j))) w.tags

/-- The address of lane l of `[fF, vA]` (R285). -/
def Machine.Wave.memVa (w : Wave) (f a l : Nat) : Dword := sext57 (w.frame f).vbase + (w.v a l).signExtend 64

/-- Whether the alignment check refuses an access, which comes before any poison it would consume (R291, R293, R299,
R387). -/
def Instr.askew (i : Instr) (w : Wave) : Bool :=
  let past : Nat → Nat → Nat → Bool := fun f a n => w.lanes.any (fun l => decide ((w.memVa f a l).toNat % 128 + n > 128))
  let off : Nat → Nat → Nat → Bool := fun f a n => w.lanes.any (fun l => (w.memVa f a l).toNat % n != 0)
  match i.addressed w with
  | some (f, a, n, natural) => if natural then off f a n else past f a n
  | none => false

end Sys2Proof

namespace Sys2Proof.Machine

/-- The lowest of some registers, by RKIND and then by number (R198). -/
def lowestReg : List RegName → Option RegName
  | [] => none
  | r :: rest =>
    match lowestReg rest with
    | none => some r
    | some x => if r.kind < x.kind ∨ (r.kind = x.kind ∧ r.num < x.num) then some r else some x

/-- Whether an operation has still to retire. -/
def Wave.pendingOp (w : Wave) (op : Nat) : Bool :=
  (w.mq ++ w.sq ++ w.xq).any (fun c => c.op == op && !c.done)

/-- The lowest register through which an instruction depends on one of an open window (R197, R198), with the first
window whose instruction writes it. -/
def Wave.collision (w : Wave) (names : List RegName) : Option (Window × RegName) :=
  let opened := w.windows.filter (fun x => decide (x.left ≠ 0))
  (lowestReg (names.filter (fun n => opened.any (fun x => x.writes.contains n)))).bind (fun r =>
    (opened.find? (fun x => x.writes.contains r)).map (fun x => (x, r)))

/-- The information word of LOOKAHEAD (R198). -/
def lookInfo (w : Wave) (x : Window) (r : RegName) : Dword :=
  dw (r.kind * 2 ^ 62 + (if r.kind = 0 then r.num - w.wb else r.num) * 2 ^ 56 + (x.la - x.left + 1) * 2 ^ 52)

/-- Whether an instruction waits for results: a window that has run out, or a register that an operation outside
every window still writes (R197, R199). -/
def State.resultWait (s : State) (id : Nat) (names : List RegName) : Bool :=
  let w := s.wave id
  w.windows.any (fun x => x.left == 0 && w.pendingOp x.op) ||
  (s.ops.any (fun e => e.2.wave == id && !(w.windows.any (fun x => x.op == e.1)) &&
    names.any (fun n => (n.kind == 0 && e.2.dst.contains n.num) ||
      (n.kind == 2 && (match e.2.kind with
        | .xlb f => f == n.num
        | _ => false))))) ||
  (s.engines.any (fun e => e.2.ops.any (fun m => m.wave == id && m.kind == .accrd &&
    !(w.windows.any (fun x => x.op == m.opId)) && names.any (fun n => n.kind == 0 && n.num == m.dst))))

/-! ## Poison (R387 to R390) -/

/-- The marks that an instruction's uses meet in active lanes, with their USE codes; a compare reads its sources
through the crossbar (R167). -/
def Wave.consumed (w : Wave) (o : Opnds) : List (Nat × Mark) :=
  if w.rpoison = [] then []
  else o.uses.zipIdx.flatMap (fun (u, n) =>
    ((if u.2.2.2 then (if w.active w.uniform then [w.uniform] else []) else w.lanes).flatMap (fun l =>
      let m : Nat → Mark := fun i => w.vmark (u.2.1 + i) (if u.1 = 4 then w.srcLane (o.sels.getD n ⟨0, by decide⟩) l else l)
      (List.range u.2.2.1).filterMap (fun i => if (m i).origin = 0 then none else some (u.1, m i)))))

/-- TAGFAIL when every word consumed carries tag poison, ECC_UC otherwise (R387, R393). -/
def eccClass (ms : List (Nat × Mark)) : Nat := if ms.all (fun m => m.2.origin == 9) then 11 else 10

/-- The origin, use and address that a record reports: of the first word that is not tag poison, else the first. -/
def eccFirst (ms : List (Nat × Mark)) : Nat × Mark :=
  ((ms.find? (fun m => m.2.origin != 9)).orElse (fun _ => ms.head?)).getD (0, Mark.none)

/-- Droppable copies that hold consumed poison go (R389): L and T copies of the core's cache, and sectors of clean L2
lines, whose poison no refetch shows. -/
def State.dropPoisoned (s : State) (core : Nat) (ms : List (Nat × Mark)) : State :=
  { (s.setCache core ((s.cacheOf core).filter (fun c =>
      !((c.kind == .l || c.kind == .t) && ms.any (fun m => m.2.origin < 10 && lineOf m.2.addr == c.line))))) with
    poison := s.poison.filter (fun e => !(e.2.origin == 3 && ms.any (fun m => m.2.origin == 3 && granule m.2.addr == e.1))) }

/-- The instruction word at an address, as a record shows it; 0 where it cannot be read (R325). -/
def State.wordAt (s : State) (c ctx : Nat) (va : Dword) : Word :=
  match s.walk c ctx va with
  | .leaf e _ lvl => wd (s.newestNat c (leafAddr e lvl va) 4)
  | _ => 0

/-- The values of single registers in the active lanes, with their poison, for a record (R327, R386). -/
def Wave.capture (w : Wave) (regs : List Nat) : List (List (Nat × Word × Mark)) :=
  regs.map (fun n => w.lanes.map (fun l => (l, w.v n l, w.vmark n l)))

/-- The captured store or atomic data of an instruction that parks before it issues (R327). -/
def Wave.captureData (w : Wave) (i : Instr) : List (List (Nat × Word × Mark)) :=
  if i.stores then
    w.capture (((i.opnds w).uses.filter (fun u => decide (u.1 ≤ 2))).flatMap (fun u => (List.range u.2.2.1).map (u.2.1 + ·)))
  else []

/-- A park of the wave for what its preparation met: class 0 waits on the migration that the information word names
(R53), any other class is a fault (R158). -/
def State.parkBack (s : State) (id : Nat) (i : Instr) (cls : Nat) (faddr finfo : Dword) : State :=
  let srcs := (s.wave id).captureData i
  if cls = 0 then s.parkMoving id (encode i) faddr (finfo.toNat / 2 ^ 32) (finfo.toNat % 2 ^ 32) srcs
  else s.parkPre id (encode i) cls faddr finfo srcs

/-- A wave consumes poison: it rewinds to its open region, whose window is made resident, or parks (R387, R389). -/
def State.consume (s : State) (id : Nat) (i : Instr) (ms : List (Nat × Mark)) : State :=
  let w := s.wave id
  let f := eccFirst ms
  match (if w.rer.toNat % 2 = 1 then w.region else none) with
  | none => s.parkPre id (encode i) (eccClass ms) (dw f.2.addr) (eccInfo f.2.origin f.1 false 0) (w.captureData i)
  | some r =>
    let s1 := s.dropPoisoned (coreOfWave id) ms
    if w.mq ≠ [] ∨ w.sq ≠ [] then
      (if ms.all (fun m => m.1 == 9) then s else s1).setWave id { w with status := .waiting }
    else match (if r.wb < w.lo then s1.makeResident id r.wb (Nat.max (r.wb + r.sz) w.hi) else .ok s1) with
    | .wait t => t.modWave id (fun x => { x with status := .waiting })
    | .fault t cls fa fi => t.parkBack id i cls fa fi
    | .ok s1 =>
      let w := s1.wave id
      let back : Dword := w.rer &&& ~~~ 1
      let s2 := s1.setWave id
        { w with exm := r.exm, gmode := r.gmode, cct := r.cct, sigr := r.sigr, msd := r.msd, cdepth := r.cdepth,
                 wb := r.wb, sz := r.sz, pc := back, windows := [], stage := 0, status := .ready,
                 mstack := w.mstack.filter (fun e => decide (e.1 < r.msd)),
                 links := w.links.filter (fun e => decide (e.1 < r.cdepth)) }
      if w.restarts = 0 then
        (s2.modWave id (fun x => { x with restarts := 1 })).logFault (dieOfCore (coreOfWave id)) 2 (eccClass ms) 0
          f.2.origin 0 (dw f.2.addr) (s.identity id w.wid)
      else
        s2.parkWave id { cls := eccClass ms, faddr := dw f.2.addr, finfo := eccInfo f.2.origin f.1 true 1, pre := true,
                         pc := back, iword := s2.wordAt (coreOfWave id) w.ctx back, npc := back, ahead := 0, unf := 0,
                         gmode := r.gmode, vas := [], srcs := [], status := 0 }

/-- A wave stopped by what its preparation met: poison of a walk entry is consumed (R387 USE 9, R389). -/
def State.stopPrep (s : State) (id : Nat) (i : Instr) (cls : Nat) (faddr finfo : Dword) : State :=
  if cls = 10 ∨ cls = 11 then s.consume id i [(9, { origin := fld finfo 56 8, addr := faddr.toNat })]
  else s.parkBack id i cls faddr finfo

/-! ## Issue (R211) -/

/-- The information word of UNIMPL and ESCAPE for a word (R210). -/
def unimplInfo (sub : Nat) (word : Word) : Dword :=
  let n := word.toNat
  let fmt := if bits n 30 2 = 0 then 0 else if bits n 30 2 = 1 then 1 else if bits n 30 2 = 2 then 2
    else if bits n 29 1 = 1 then 3 else 4
  let fd := if fmt = 1 ∨ fmt = 3 then bits n 20 6 else bits n 18 6
  let fa := if fmt = 0 then bits n 10 6 else if fmt = 1 then bits n 14 6 else if fmt = 3 then 0 else bits n 12 6
  let fb := if fmt = 0 then bits n 2 6 else if fmt = 1 then bits n 8 6 else if fmt = 2 then bits n 6 6 else 0
  let fc := if fmt = 1 then bits n 2 6 else 0
  let pa := if fmt = 0 then bits n 16 2 else if fmt = 1 then bits n 0 2 else 0
  let pb := if fmt = 0 then bits n 8 2 else 0
  let opx := if fmt = 0 then bits n 0 2 else if fmt = 2 then bits n 0 9 else if fmt = 3 then bits n 0 20
    else if fmt = 4 then bits n 0 12 else 0
  dw (sub * 2 ^ 56 + fmt * 2 ^ 53 + fd * 2 ^ 42 + fa * 2 ^ 36 + fb * 2 ^ 30 + fc * 2 ^ 24 + pa * 2 ^ 22 + pb * 2 ^ 20 + opx)

/-- A word that is refused parks its wave (R208 to R210, R383). -/
def State.parkUnimpl (s : State) (id : Nat) (word : Word) (cls sub : Nat) : State :=
  let f := unimplInfo sub word
  s.parkPre id word cls (s.wave id).pc f ((s.wave id).capture [fld f 36 6, fld f 30 6, fld f 24 6, fld f 42 6])

/-- The charge of an issued instruction to its task's budget (R358). -/
def State.charge (s : State) (id : Nat) : State :=
  let w := s.wave id
  match s.task w.task with
  | some t =>
    if t.hasBudget then
      let left := t.budget - (if w.w64 then 2 else 1)
      let s1 := s.modTask w.task (fun k => { k with budget := left })
      if left = 0 then s1.post (.budgetExhausted w.task) else s1
    else s
  | none => s

/-- The counts of an instruction that issues, per core: one run on the scalar unit, where it has vector operands and all
its vector sources are uniform, and its affine operands (R164; log 98). -/
def State.tally (s : State) (i : Instr) : State :=
  let w := s.curWave
  let o := i.opnds w
  let tags : Regs → List Tag := fun r => (List.range r.2).map (fun n => w.tag (w.wb + r.1 + n))
  let core := coreOfWave s.cur
  let add : Sparse Nat → Nat → Sparse Nat := fun m n => if n = 0 then m else Sparse.put m core (Sparse.get 0 m core + n)
  { s with cntuni := add s.cntuni (if (o.rd ≠ [] ∨ o.wr ≠ []) ∧ o.rd.all (fun r => (tags r).all (· == .uniform)) then 1 else 0),
           cntaff := add s.cntaff (o.rd.filter (fun r => (tags r).contains .affine && !(tags r).contains .plain)).length }

/-- The wave's state once an instruction has issued: folded, past its word, its lookahead windows counted down and
its own opened (R197, R258). -/
def Wave.issued (w : Wave) (o : Opnds) (word : Word) (op : Nat) : Wave :=
  { w with
    status := .ready, stage := 0, arg := 0, seq := w.seq + 1, pc := w.pc + 4, idle := 0,
    sigr := if o.fold then sigFold w.sigr word else w.sigr,
    rer := if o.ends then w.rer &&& ~~~ 1 else w.rer,
    inRegion := w.rer.toNat % 2 == 1,
    tags := o.retag w op,
    windows := ((w.windows.filter (fun x => decide (x.left ≠ 0))).map (fun x => { x with left := x.left - 1 })) ++
      (match o.la with
       | some n => [{ pc := w.pc, op := op, writes := o.writes w, la := n, left := n }]
       | none => []) }

/-- ROLE's information word: its REASON (R353, R261). -/
def roleInfo (reason : Nat) : Dword := dw (reason * 2 ^ 56)

/-- The wave waits at its instruction. -/
def State.hold (s : State) : State := s.setCur { s.curWave with status := .waiting, idle := 0 }

/-- What stops an instruction at the checks of R211 before its own, if anything (R208, R212, R353, R261, R197). -/
def State.refusal (s : State) (i : Instr) : Option State :=
  let w := s.curWave
  let o := i.opnds w
  match i.unimpl w with
  | some sub => some (s.parkUnimpl s.cur (encode i) 1 sub)
  | none =>
    if o.priv && !w.sys then some (s.parkPre s.cur (encode i) 3 0 0 [])
    else if o.role == some .copy && w.role != .copy then some (s.parkPre s.cur (encode i) 4 0 (roleInfo 1) [])
    else if o.role == some .matrix && w.role != .matrix then some (s.parkPre s.cur (encode i) 4 0 (roleInfo 2) [])
    else if o.token && (s.engine (coreOfWave s.cur)).token != some s.cur then
      some (s.parkPre s.cur (encode i) 4 0 (roleInfo 0x10) [])
    else match w.collision (o.names w) with
      | some (x, r) => some (s.parkPre s.cur (encode i) 13 x.pc (lookInfo w x r) (w.captureData i))
      | none => none

/-- The span of the wave that moves, extended to the registers an instruction writes (R153, R158). -/
def State.span (s : State) (o : Opnds) : Move :=
  if o.top s.curWave > s.curWave.hi ∧ s.curWave.hi < s.curWave.stkmax then
    s.makeResident s.cur s.curWave.wb (Nat.min (o.top s.curWave) s.curWave.stkmax)
  else .ok s

/-- The state in which an instruction of the wave that moves has issued. -/
def State.issuedBy (s : State) (i : Instr) : State :=
  ((s.tally i).setCur (s.curWave.issued (i.opnds s.curWave) (encode i) s.nextId)).charge s.cur

/-- Whether the counter that an instruction counts on is full (R139). -/
def Wave.full (w : Wave) (o : Opnds) : Bool :=
  match o.count with
  | some n => decide (w.countVal n ≥ 63)
  | none => false

/-- Issue of an instruction in the wave that moves. `own` are its own checks (class, fault address, information
word), `prep` what it waits for, which may itself change the state (an arrival); `body` its effect, on a state in
which the instruction has issued. -/
def State.issueWith (s : State) (i : Instr) (own : Option (Nat × Dword × Dword)) (prep : State → Move)
    (body : State → State) : Host.Outcome State Fault Refusal :=
  let w := s.curWave
  let o := i.opnds w
  if o.serial && (s.pendingRegs s.cur != [] || s.pendingFrames s.cur != []) then .next s.hold
  else match s.refusal i with
  | some t => .next t
  | none =>
    if s.resultWait s.cur (o.names w) || w.gate != [] then .next s.hold
    else match own with
    | some (cls, fa, fi) => .next (s.parkPre s.cur (encode i) cls fa fi [])
    | none =>
      if w.consumed o ≠ [] && !i.askew w then .next (s.consume s.cur i (w.consumed o))
      else if w.full o then .next s.hold
      else match (prep s).bind (fun t => t.span o) with
        | .wait t => .next t.hold
        | .fault t cls fa fi => .next (t.stopPrep s.cur i cls fa fi)
        | .ok u => .next (body (u.issuedBy i))

/-- Issue of an instruction that neither checks nor waits for anything of its own. -/
def State.issue (s : State) (i : Instr) (body : State → State) : Host.Outcome State Fault Refusal :=
  s.issueWith i none .ok body

end Sys2Proof.Machine
end

