-- ==== Sys2Proof/Machine/Ending.lean ====
section
/-! DEFINITION. How a wave ends: its departures from barriers, rings, REORD and the token (12/R309 to R311,
13/R335, R344, 11/R263), its drain (07/R163), and an exit (10/R254). -/

namespace Sys2Proof.Machine

/-! ## Barriers and rings -/

/-- The mask of every wave of a workgroup. -/
def Workgroup.all (g : Workgroup) : Nat := 2 ^ g.waves.length - 1

/-- A barrier after an arrival or a departure: it flips once arrived and departed waves are all (R309). -/
def Barrier.settle (b : Barrier) (departed all : Nat) : Barrier :=
  if (b.arrived ||| departed) &&& all = all then { arrived := 0, phase := !b.phase } else b

/-- A slot as its holder departs (R311). -/
def RingSlot.leave (x : RingSlot) (id : Nat) : RingSlot :=
  if x.holder = some id then
    (match x.state with
     | .held => if x.cpyst then x else { x with state := .full, fail := true, holder := none }
     | .taken => { x with state := .empty, holder := none }
     | _ => x)
  else x

/-! ## REORD (R344) -/

/-- A thread on the move: its position, key, TID, registers and their marks. -/
structure Thread where
  wave : Nat
  lane : Nat
  key  : Nat
  tid  : Nat
  vals : List Word
  mks  : List Mark

/-- Insertion by key that keeps the order of equal keys. -/
def insertThread (x : Thread) : List Thread → List Thread
  | [] => [x]
  | y :: r => if x.key ≤ y.key then x :: y :: r else y :: insertThread x r

def sortThreads (xs : List Thread) : List Thread := xs.foldr insertThread []

/-- A list with the value at an index replaced, padded with zeros up to it. -/
def putAt (xs : List Nat) (i v : Nat) : List Nat :=
  (List.range (Nat.max xs.length (i + 1))).map (fun j => if j = i then v else xs.getD j 0)

/-- The numbers of the registers in a live mask. -/
def liveRegs (m : Dword) : List Nat := (List.range 64).filter (bitOf m)

/-- The threads of an arrival, in lane order. -/
def State.threadsOf (s : State) (a : ReordArr) (live : List Nat) : List Thread :=
  let w := s.wave a.wave
  ((List.range w.width).filter (bitOf a.p)).map (fun l =>
    { wave := a.wave, lane := l, key := (a.keys.getD l 0).toNat, tid := w.tid.getD l 0,
      vals := live.map (fun n => w.v n l), mks := live.map (fun n => w.vmark n l) })

/-- A thread's TID and registers written to a position. -/
def State.putThread (s : State) (live : List Nat) (x : Thread × Thread) : State :=
  s.modWave x.1.wave (fun w =>
    (live.zip (x.2.vals.zip x.2.mks)).foldl (fun acc e =>
      (acc.lwrite (acc.wb + e.1) (fun l => if l = x.1.lane then some e.2.1 else none)).setLmark (acc.wb + e.1) x.1.lane e.2.2)
      { w with tid := putAt w.tid x.1.lane x.2.tid })

/-- The windows of the arrived waves made resident up to the highest live register (R153). -/
def reordResident : List ReordArr → Nat → State → Move
  | [], _, s => .ok s
  | a :: r, top, s =>
    let w := s.wave a.wave
    (if w.wb + top > w.hi ∧ w.hi < w.stkmax then s.makeResident a.wave w.wb (Nat.min (w.wb + top) w.stkmax)
     else .ok s).bind (reordResident r top)

/-- REORD performed once every wave of the workgroup has arrived or departed; the arrived waves see that their
arrival is gone. -/
def State.reordTry (s : State) (g : Nat) : State :=
  match s.wg g with
  | none => s
  | some k =>
    let arrived := maskOf k.waves.length (fun i => k.reord.any (fun a => a.wave == k.waves.getD i 0))
    if k.reord = [] ∨ (arrived ||| k.departed) &&& k.all ≠ k.all then s
    else
      let order := k.waves.filterMap (fun id => k.reord.find? (fun a => a.wave == id))
      let live := liveRegs (order.foldl (fun acc a => acc ||| a.live) 0)
      match reordResident order ((live.getLast?.map (· + 1)).getD 0) s with
      | .ok t =>
        let thr := order.flatMap (fun a => t.threadsOf a live)
        ((thr.zip (sortThreads thr)).foldl (fun acc x => acc.putThread live x) t).modWg g (fun x => { x with reord := [] })
      | .wait t => t
      | .fault t _ _ _ => t

/-! ## Departure (R311, R335) -/

/-- A wave departs from its workgroup's barriers, rings, REORD and superstep, and lets the token go. -/
def State.depart (s : State) (id : Nat) : State :=
  let w := s.wave id
  let c := coreOfWave id
  let e := s.engine c
  let s1 := if e.token = some id ∨ e.tokq.contains id then
      s.setEngine c { e with token := if e.token = some id then none else e.token, tokq := e.tokq.filter (· ≠ id) }
    else s
  match s.wg w.wg with
  | none => s1
  | some k =>
    let dep := k.departed ||| 2 ^ w.wid
    let s2 := s1.modWg w.wg (fun k =>
      { k with
          departed := dep,
          bars := k.bars.map (fun b => b.settle dep k.all),
          rings := k.rings.map (fun r => (r.1, { r.2 with
            slots := r.2.slots.map (fun x => x.leave id),
            waitA := r.2.waitA.filter (· ≠ id), waitW := r.2.waitW.filter (· ≠ id) })),
          reord := k.reord.filter (fun a => a.wave != id) })
    (s2.reordTry w.wg).postAll [.sstepSwap k.gang, .workgroupRetire w.wg]

/-- A draining wave whose counters M, X and S have reached zero gives its segment up, and its place, to a launch that waits
(R163, R351). -/
def State.settle (s : State) (id : Nat) : State :=
  let w := s.wave id
  if w.status = .draining ∧ w.mq = [] ∧ w.xq = [] ∧ w.sq = [] then
    { ((s.modTask w.task (fun t => { t with wct := Nat.max t.wct w.lwct })).postAll
        [.workgroupRetire w.wg, .workgroupPlace (dieOfCore (coreOfWave id))]) with
        waves := Sparse.erase s.waves id }
  else s

/-- The end of a wave, by EXIT (R254) or by a kill (R335), which marks its task failed. -/
def State.endWave (s : State) (id : Nat) (killed : Bool) : State :=
  let w := s.wave id
  let s1 := (s.setWave id
    { w with status := .draining, retired := true, windows := [], stage := 0, gate := [], mstack := [], msd := 0,
             region := none, rer := w.rer &&& ~~~ 1 }).depart id
  let s2 := if killed then s1.modTask w.task (fun t => { t with bad := true }) else s1
  s2.settle id

end Sys2Proof.Machine
end

