-- ==== Sys2Proof/Machine/Access.lean ====
section
/-! DEFINITION. Outstanding accesses of a wave: translation through frames, TLBs and the walker (02/R33 to R41), the
fault buffer (02/R45 to R47, R53), what each lane sends to on-chip memory or to the home of its line (03/R56, R57),
and how an operation ends or parks its wave (02/R42, R43, R439, 15/R373). -/

namespace Sys2Proof.Machine

/-! ## Translation (R33, R37, R38) -/

/-- What an address comes to: a place with attributes, the reason of a refusal, or a TLB miss. -/
inductive Hit where
  | ok (pa : Nat) (at_ : Attr)
  | deny (reason : Nat)
  | miss
  deriving DecidableEq, Repr

/-- The attributes that a frame carries (R36). -/
def Frame.attr (f : Frame) : Attr :=
  { cc := f.cc, cp := f.cp, wp := f.wp, p := f.p, x := f.x, w := f.w, r := f.r, a := f.a, d := true, leaf := f.leaf }

/-- Whether a lane uses a frame (R38). -/
def Frame.covers (f : Frame) (k : Access) (va : Dword) : Bool :=
  f.v && decide ((va - sext57 f.vbase).toNat ≤ f.limit) && !(k.writes && !f.w)

/-- A lane's address checked in the order of R33. -/
def State.resolve (s : State) (core ctx : Nat) (sys : Bool) (f : Frame) (k : Access) (va : Dword)
    (sc : Option Scope) : Hit :=
  if f.covers k va then
    (match s.deny sys k f.attr (f.pbase + (va - sext57 f.vbase).toNat) sc with
     | some r => .deny r
     | none => .ok (f.pbase + (va - sext57 f.vbase).toNat) f.attr)
  else if !canonical va then .deny 0x14
  else match s.tlbLookup core (s.asid ctx) (pageOf va) with
    | none => .miss
    | some e =>
      (match s.deny sys k (attrOf e.leaf e.leafA) (leafAddr e.leaf e.size va) sc with
       | some r => .deny r
       | none => .ok (leafAddr e.leaf e.size va) (attrOf e.leaf e.leafA))

/-- A and D set before the access they serve; prefetches set neither (R34). -/
def State.touchLeaf (s : State) (core : Nat) (k : Access) (at_ : Attr) : State :=
  if k = .prefetch then s
  else if !at_.a || (k.writes && !at_.d) then s.setAD core at_.leaf k.writes
  else s

/-- A TLB entry of a leaf at a level. -/
def tlbOf (asid page : Nat) (leaf : Dword) (leafA level : Nat) : TlbEntry :=
  { asid := asid, page := pageBase page level, size := level, leaf := leaf, leafA := leafA }

/-- A miss handed to the walker: coalesced with an outstanding walk of its key, and held back while the cluster has
sixteen walks outstanding (R41). -/
def State.askWalk (s : State) (cluster ctx page : Nat) : State :=
  if s.walks.any (fun k => k.cluster == cluster && k.asid == s.asid ctx && k.page == page) then s
  else if (s.walks.filter (fun k => k.cluster == cluster)).length ≥ 16 then s
  else
    let k : WalkKey := { cluster := cluster, ctx := ctx, asid := s.asid ctx, page := page }
    { (s.post (.walkComplete k)) with walks := s.walks ++ [k] }

/-! ## The fault buffer (R45 to R47) -/

/-- The entry in PENDING or OPEN that serves a key. -/
def findKey (es : List FbEntry) (asid page : Nat) : Option Nat :=
  es.findIdx? (fun e => decide (e.state = .pending ∨ e.state = .opened) && e.asid == asid && e.page == page)

/-- A unit that faults on a key takes an entry, joins one as a waiter, or goes on the dropped list; the entry that
serves the key is reported, 15 where none does (R43, R45, R47). -/
def State.enterBuffer (s : State) (cl : Nat) (u : Nat × Nat) (asid ctx page level reason : Nat) : State × Nat :=
  let es := s.fbOf cl
  match findKey es asid page with
  | some i =>
    let e := es.getD i FbEntry.free
    (if e.named == u || e.waiters.contains u then s
     else s.setFb cl (es.set i { e with waiters := e.waiters ++ [u] }), i)
  | none =>
    match es.findIdx? (fun e => decide (e.state = .free)) with
    | some i =>
      (s.setFb cl (es.set i { state := .pending, asid := asid, ctx := ctx, page := page, level := level,
                              reason := reason, named := u, waiters := [], record := none, prefault := false }), i)
    | none =>
      (if s.isDropped u then s
       else { s with dropped := Sparse.put s.dropped cl (Sparse.get [] s.dropped cl ++ [u]) }, 15)

/-! ## Operations -/

/-- A live wave changed; a place without a wave stays as it is. -/
def State.modLive (s : State) (id : Nat) (f : Wave → Wave) : State := { s with waves := Sparse.update s.waves id f }

def State.modOp (s : State) (id : Nat) (f : MemOp → MemOp) : State := { s with ops := Sparse.update s.ops id f }

def MemOp.setPhase (o : MemOp) (lanes : List Nat) (p : LPhase) : MemOp :=
  { o with lanes := o.lanes.map (fun x => if lanes.contains x.lane then { x with phase := p } else x) }

/-- The kind of access that an operation makes. -/
def OpKind.access (k : OpKind) : Access :=
  match k with
  | .store => .store
  | .atomic _ _ => .atomic
  | .prefetch _ => .prefetch
  | .xlb _ => .prefetch
  | .fetch => .fetch
  | .local true _ => .store
  | _ => .load

/-- Whether an operation writes registers, so that no later instruction passes it unseen (R439). -/
def OpKind.returns (k : OpKind) : Bool :=
  match k with
  | .store => false
  | .prefetch _ => false
  | .local true _ => false
  | _ => true

def LaneOp.bad (x : LaneOp) : Bool :=
  match x.phase with
  | .fault _ _ => true
  | .mig _ _ => true
  | _ => false

/-- The line that a lane's store is on its way to write, and whether the line is to be checked out first. -/
def LaneOp.writes (x : LaneOp) : Option (Nat × Bool) :=
  match x.phase with
  | .writing line out => some (line, out)
  | _ => none

/-- A lane that waits for an answer. -/
def LaneOp.away (x : LaneOp) : Bool := decide (x.phase = .sent) || x.writes.isSome

def LaneOp.open (x : LaneOp) : Bool := decide (x.phase = .xlate) || x.away

/-- The value of a loaded lane as register words (R288, R289). -/
def MemOp.words (o : MemOp) (bs : List Byte) : List Word :=
  match o.kind with
  | .load true => [if o.size = 1 then (BitVec.ofNat 8 (ofBytes bs)).signExtend 32
      else if o.size = 2 then (BitVec.ofNat 16 (ofBytes bs)).signExtend 32 else wd (ofBytes bs)]
  | .local _ true => [if o.size = 1 then (BitVec.ofNat 8 (ofBytes bs)).signExtend 32
      else if o.size = 2 then (BitVec.ofNat 16 (ofBytes bs)).signExtend 32 else wd (ofBytes bs)]
  | _ => (List.range (Nat.max 1 (o.size / 4))).map (fun i => wd (ofBytes (bs.drop (4 * i)) % 2 ^ 32))

/-- A piece of a task record or of a table's image that has come; poison in it is a fault (log 26). -/
def State.landWhole (s : State) (id lane : Nat) (bs : List Byte) (ms : List Mark) : State :=
  let m := ms.foldl Mark.join Mark.none
  s.modOp id (fun x => { x with lanes := x.lanes.map (fun l =>
    if l.lane = lane then
      { l with phase := if m.origin = 0 then .fin else .fault m.cls (eccInfo m.origin 6 false 0), data := bs }
    else l) })

/-- The poison of a lane's value, by the words of its destination (R386). -/
def State.marksAt (s : State) (a n : Nat) : List Mark :=
  (List.range (Nat.max 1 (n / 4))).map (fun i => s.markIn (a + 4 * i) (Nat.min 4 n))

/-- A lane that has its value: the value in its registers, with the poison that came along word by word (R386); a
fetched word goes to its wave. -/
def State.landLane (s : State) (id lane : Nat) (bs : List Byte) (ms : List Mark) : State :=
  match Sparse.find s.ops id with
  | none => s
  | some o =>
    match o.kind with
    | .record _ _ => s.landWhole id lane bs ms
    | .image _ _ => s.landWhole id lane bs ms
    | .fetch => (s.modLive o.wave (fun w => { w with fword := some (o.pc, wd (ofBytes bs)) })).modOp id
        (fun x => x.setPhase [lane] .fin)
    | _ =>
      ((s.modLive o.wave (fun w =>
        (o.dst.zip (o.words bs)).zipIdx.foldl (fun acc e =>
          (acc.lwrite e.1.1 (fun l => if l = lane then some e.1.2 else none)).setLmark e.1.1 lane (ms.getD e.2 Mark.none))
          w)).modOp id
        (fun x => x.setPhase [lane] .fin))

/-- Whether a physical address lies in a die's pool of parked records or of task records (R324, R371). -/
def State.inPool (s : State) (pa : Nat) : Bool :=
  let p := s.place pa
  (List.range 4).any (fun die =>
    let r := s.csrGet 0x80 die
    let t := s.csrGet 0x202 die
    (fld r 0 1 == 1 && decide (fld r 23 29 * 2 ^ 23 ≤ p) && decide (p < fld r 23 29 * 2 ^ 23 + 2 ^ 23)) ||
    (fld t 0 1 == 1 && decide (fld t 16 36 * 2 ^ 16 ≤ p) &&
      decide (p < fld t 16 36 * 2 ^ 16 + 64 * 2 ^ (Nat.min (fld t 4 4) 5 + 10))))

/-- Whether a virtual address lies in the backing area of a live wave of a context (R157). -/
def State.inBacking (s : State) (ctx : Nat) (va : Dword) : Bool :=
  s.waves.any (fun e => e.2.status != .empty && e.2.ctx == ctx && decide ((va - e.2.bb).toNat < 0x90000))

/-- Whether a lane of an operation reads such a place. -/
def State.readsBacking (s : State) (id lane : Nat) : Bool :=
  (Sparse.find s.ops id).any (fun o => (o.lanes.find? (fun x => x.lane == lane)).any (fun x =>
    s.inBacking (s.wave o.wave).ctx x.va))

/-- A lane that has its value from memory; what lies in a pool, or in a live wave's backing area, reads as a free value
(R157, R324, R371; log 18). -/
def State.landFrom (s : State) (id lane pa : Nat) (bs : List Byte) (ms : List Mark) : State :=
  if s.inPool pa || s.readsBacking id lane then
    (s.landLane id lane ((List.range bs.length).map (fun i => (Config.freeWord (64 * s.fresh + i)).setWidth 8)) ms).draw
  else s.landLane id lane bs ms

/-- Some lanes done without a value for a register. -/
def State.doneLanes (s : State) (id : Nat) (lanes : List Nat) : State := s.modOp id (fun o => o.setPhase lanes .fin)

/-- The status a unit parks with: OPEN, WAITER where it has neither a class of its own nor an entry it is named in,
MIGRATING (R53, R326, R373). -/
def State.parkStatus (s : State) (u : Nat × Nat) (classes : List Nat) : Nat :=
  if classes = [] then 3
  else if classes.any (fun c => c ≠ 5) then 0
  else if s.fb.any (fun e => e.2.any (fun x => decide (x.state = .pending) && x.named == u)) then 0
  else 2

/-- The words of a task record, 64 bytes. -/
def recordWords (bs : List Byte) : List Dword := (List.range 8).map (fun i => dw (ofBytes ((bs.drop (8 * i)).take 8)))

/-- The class that a record reports: of the lowest lane that failed with one (R373). -/
def firstClass : List LaneOp → Nat × Dword
  | [] => (0, 0)
  | x :: r => match x.phase with
    | .fault c i => (c, i)
    | _ => firstClass r

def classesOf (ls : List LaneOp) : List Nat := ls.filterMap (fun x => match x.phase with
  | .fault c _ => some c
  | _ => none)

/-- The store or atomic data of an operation as captured registers, in the order of D: a store's whole source registers
(R327). What has issued carries no poison (R387). -/
def MemOp.captured (o : MemOp) : List (List (Nat × Word × Mark)) :=
  let words : LaneOp → List Word := fun x =>
    (List.range (x.cmp.length / 4)).map (fun i => wd (ofBytes (x.cmp.drop (4 * i)) % 2 ^ 32)) ++
      (if o.kind.returns then (List.range ((x.data.length + 3) / 4)).map (fun i => wd (ofBytes (x.data.drop (4 * i)) % 2 ^ 32))
       else [])
  (List.range ((o.lanes.map (fun x => (words x).length)).foldl Nat.max 0)).map (fun i =>
    o.lanes.map (fun x => (x.lane, (words x).getD i 0, Mark.none)))

/-- Whether a lane is refused at issue: ordered accesses and atomics that are not aligned, others that cross a 128-byte
boundary (R291, R293, R299). -/
def MemOp.askew (o : MemOp) (x : LaneOp) : Bool :=
  match o.kind with
  | .load _ => if o.scope.isSome then x.va.toNat % o.size != 0 else decide (x.va.toNat % 128 + o.size > 128)
  | .store => if o.scope.isSome then x.va.toNat % o.size != 0 else decide (x.va.toNat % 128 + o.size > 128)
  | .atomic _ _ => x.va.toNat % o.size != 0
  | _ => false

/-- The information word of MISALIGN (R287). -/
def misInfo (reason code : Nat) : Dword := dw (reason * 2 ^ 56 + code * 2 ^ 48)

/-- The physical address of a poisoned page-table entry that a lane's walk met (R387 USE 9, R390). -/
def LaneOp.walkPoison (x : LaneOp) : Option Nat :=
  match x.phase with
  | .fault c i => if (c = 10 ∨ c = 11) ∧ fld i 48 8 = 9 then x.key else none
  | _ => none

/-- A lane that failed with a class. -/
def LaneOp.classed (x : LaneOp) : Bool :=
  match x.phase with
  | .fault _ _ => true
  | _ => false

/-- The fault address of a park: of the lowest unfinished lane, or of the lowest lane refused for its alignment; of a
poisoned walk entry, its own (R390). -/
def MemOp.faultVa (o : MemOp) (bad : List LaneOp) : Dword :=
  match (bad.find? LaneOp.classed).bind LaneOp.walkPoison with
  | some pa => dw pa
  | none =>
  match bad.find? (fun x => decide (x.phase = .fault 7 (misInfo 0x34 0)) && o.askew x) with
  | some x => x.va
  | none => (bad.head?.map (·.va)).getD 0

/-- The park of a wave for an operation whose lanes were refused, all others being done (R42, R43, R439). -/
def State.parkOp (s : State) (id : Nat) (o : MemOp) : State :=
  let w := s.wave o.wave
  let bad := o.lanes.filter LaneOp.bad
  let fetch := decide (o.kind = .fetch)
  ((s.parkWave o.wave
      { cls := (firstClass bad).1, faddr := o.faultVa bad, finfo := (firstClass bad).2,
        pre := fetch, pc := o.pc, iword := o.iword, npc := if fetch then o.pc + 4 else if o.replay then o.npc else w.pc,
        ahead := if o.kind.returns && !fetch && !o.replay then w.seq - o.seq else 0,
        unf := if fetch then 0 else match o.kind with
          | .image _ l => dw (2 ^ l)
          | _ => dw (bad.foldl (fun acc x => acc + 2 ^ x.lane) 0),
        gmode := (match o.kind with
          | .atomic _ _ => o.gmode
          | _ => w.gmode),
        vas := if fetch then [] else match o.kind with
          | .image _ l => [(l, (o.lanes.head?.map (·.va)).getD 0)]
          | _ => o.lanes.map (fun x => (x.lane, x.va)),
        srcs := if fetch || o.kind.returns && (match o.kind with
          | .atomic _ _ => false
          | _ => true) then [] else o.captured,
        status := s.parkStatus (1, o.wave) (classesOf bad) }).modLive o.wave
    (fun x => { x with stage := w.stage, arg := w.arg })).modOp id (fun x => { x with resume := true, replay := false })

/-- An operation that is over: its counter falls, its registers are free again. -/
def State.dropOp (s : State) (id wave : Nat) : State :=
  ({ s with ops := Sparse.erase s.ops id }.modLive wave (fun w => w.retireOp id)).settle wave

/-- A wave that consumes the poison of a walk entry in an open region rewinds once its other operations on M and S have
landed; the operation's refused lanes are not performed (R387, R389). -/
def State.rewindOp (s : State) (id : Nat) (o : MemOp) (pa : Nat) (finfo : Dword) : State :=
  let w := s.wave o.wave
  if w.mq.any (fun c => c.op != id) || w.sq != [] then s
  else ((s.dropOp id o.wave).modLive o.wave (fun x => { x with rer := x.rer ||| 1 })).consume o.wave (match decode o.iword with
      | .ok i => i
      | .error _ => .nop) [(9, { origin := fld finfo 56 8, addr := pa })]

/-- The lane that met a poisoned walk entry first. -/
def MemOp.walkLane (o : MemOp) : Option LaneOp := o.lanes.find? (fun x => x.walkPoison.isSome)

/-- Whether the region that an operation's instruction found was open when it issued; of a replay, whether one is open now
(R388, R389). -/
def State.regionOpen (s : State) (o : MemOp) : Bool :=
  let w := s.wave o.wave
  if !o.replay && w.seq == o.seq then w.inRegion else w.rer.toNat % 2 == 1

/-- The poisoned walk entry for which an operation's wave would rewind: its region is open. -/
def State.rewinds (s : State) (o : MemOp) : Option (Nat × Dword) :=
  if s.regionOpen o then o.walkLane.bind (fun x => x.walkPoison.map (fun pa => (pa, (firstClass [x]).2))) else none

/-- Whether an operation consumed the poison of a walk entry before any of its lanes was performed, and nothing has issued
since: its wave then stands before the instruction (R387, R389; log 111). -/
def State.spoiled (s : State) (o : MemOp) : Bool :=
  decide (o.kind ≠ .fetch) && !o.replay && (s.wave o.wave).seq == o.seq && o.walkLane.isSome && o.lanes.all LaneOp.bad

/-- A wave that stands before an instruction again and parks for the poison of a walk entry (R387, R389): what the
instruction folded and counted is taken back. -/
def State.parkSpoiled (s : State) (id : Nat) (o : MemOp) : State :=
  let x := firstClass (o.lanes.filter (fun y => y.walkPoison.isSome))
  ((s.dropOp id o.wave).modLive o.wave (fun w => { w with pc := o.pc, sigr := sigUnfold w.sigr o.iword })).parkPre o.wave o.iword
    x.1 (dw ((o.walkLane.bind LaneOp.walkPoison).getD 0)) x.2 (if o.kind.returns && (match o.kind with
      | .atomic _ _ => false
      | _ => true) then [] else o.captured)

/-- Whether a wave can park for an operation now: it is between two instructions or waits at one. -/
def Wave.parkable (w : Wave) : Bool := decide (w.status = .ready ∨ w.status = .waiting)

/-- Whether an earlier operation of the wave has been refused: faults are taken in the order of issue (R439). -/
def State.earlierBad (s : State) (id wave : Nat) : Bool :=
  s.ops.any (fun e => decide (e.1 < id) && e.2.wave == wave && e.2.lanes.any LaneOp.bad)

/-- Whether PRECTL is stopping or has stopped a context on a die (R363). -/
def State.prectl (s : State) (die ctx : Nat) : Bool := s.barred.contains (die, ctx)

/-- Whether a wave stands still with its task (R358, R359). -/
def State.stoodStill (s : State) (w : Wave) : Bool := ((s.task w.task).map (·.stop)).getD false

/-- Whether a refused operation parks its wave now: a replay does; another does where its wave is neither parked nor
stopped and no earlier operation was refused. A context being saved takes its faults first (R364). -/
def State.mayPark (s : State) (id : Nat) (o : MemOp) : Bool :=
  o.replay || ((s.wave o.wave).parkable && !o.resume && !s.earlierBad id o.wave &&
    (!s.stoodStill (s.wave o.wave) || s.prectl (dieOfCore (coreOfWave o.wave)) (s.wave o.wave).ctx))

/-- Refused lanes of a wave that has ended never occur; a store's are logged (R439, R147). -/
def State.lateDrop (s : State) (id : Nat) (o : MemOp) : State :=
  let bad := o.lanes.filter LaneOp.bad
  let s1 := if o.kind.returns then s
    else s.logFault (dieOfCore (coreOfWave o.wave)) 10 (firstClass bad).1 0 0 0 ((bad.head?.map (·.va)).getD 0)
      (s.identity o.wave (s.wave o.wave).wid)
  s1.dropOp id o.wave

/-- An operation looked at after some of its lanes have moved: it retires, parks its wave, or goes on. -/
def State.finishOp (s : State) (id : Nat) : State :=
  match Sparse.find s.ops id with
  | none => s
  | some o =>
    if o.lanes.any LaneOp.open then s
    else if o.lanes.any LaneOp.bad then
      (if (s.wave o.wave).status = .draining then s.lateDrop id o
       else if s.mayPark id o then (match s.rewinds o with
         | some (pa, i) => s.rewindOp id o pa i
         | none => if s.spoiled o then s.parkSpoiled id o else s.parkOp id o)
       else s)
    else match o.kind with
      | .record q n =>
        (match o.lanes with
         | [] => s
         | x :: _ => (s.modOp id (fun p => { p with lanes := [] })).post (.taskPush
             { by_ := .wave o.wave, words := recordWords x.data, qw := q, count := n, failed := false, src := x.va,
               priv := (s.wave o.wave).sys, die := dieOfCore (coreOfWave o.wave) }))
      | .image _ _ => s
      | .long _ => s
      | _ =>
        let s1 := s.dropOp id o.wave
        if o.resume then
          s1.modLive o.wave (fun w => { w with status := .ready, pc := o.npc })
        else s1

/-- Lanes refused after they were sent: a FAULT row, scope recording, a time-out (R71, R85, R439). -/
def State.failLanes (s : State) (id : Nat) (lanes : List Nat) (cls : Nat) (finfo : Dword) : State :=
  (s.modOp id (fun o => o.setPhase lanes (.fault cls finfo))).finishOp id

/-! ## What lanes send (R56, R57) -/

/-- The agent of a wave's accesses, as a scope record names it (R83). -/
def State.agentOf (s : State) (id : Nat) : Agent :=
  let g := s.wg (s.wave id).wg
  { pkg := s.pkg, die := dieOfCore (coreOfWave id), clu := coreOfWave id / 4 % 32, core := coreOfWave id % 4,
    wgt := (g.map (·.wgt)).getD 0, ggt := (g.map (·.ggt)).getD 0, wave := id % 48 / 12 * 16 + id % 12 }

/-- What the home needs to record and check an access's scope (R63, R83, R84). -/
def State.scopeInfo (s : State) (wave cc pa : Nat) (sc : Scope) : ScopeInfo :=
  let t := s.task (s.wave wave).task
  { agent := s.agentOf wave, scope := scopeOfNat (s.raised cc pa sc), tag := (t.map (·.ltag)).getD 0,
    precise := ((t.bind (·.kernel)).map (·.precise)).getD false }

/-- CLASS of the table that governs a line for a page class, read from the range table (R55, R57, R62). -/
def State.classOf (s : State) (cc line : Nat) : Nat :=
  if cc ≠ 1 ∨ targetOf line ≠ .hbm then 0
  else match s.rangeOf line with
    | some (w0, _) => if fld w0 8 3 = 0 then 0 else ((Sparse.find s.tables (fld w0 8 3)).map (fun x => fld x.header 56 8)).getD 0
    | none => 0

/-- The copy of a line in a core's local-store cache that a load may use (R56, R132). -/
def State.usable (s : State) (core line : Nat) : Option CacheCopy :=
  (s.cacheOf core).find? (fun c => c.line == line && (decide (c.kind ≠ .l) || decide (s.gt < c.expiry)))

def State.modCopy (s : State) (core line : Nat) (f : CacheCopy → CacheCopy) : State :=
  s.setCache core ((s.cacheOf core).map (fun c => if c.line = line then f c else c))

/-- Bytes put into a line's data at offsets. -/
def patch (d : List Byte) : List (Nat × Byte) → List Byte
  | [] => d
  | (o, b) :: r => patch (d.set o b) r

/-- A store's bytes made in a copy; a word written whole carries no poison any more (R385). -/
def CacheCopy.store (c : CacheCopy) (bytes : List (Nat × Byte)) (mark : Bool) (wave : Nat) : CacheCopy :=
  { c with data := patch c.data bytes,
           marks := c.marks.filter (fun e => !(List.range 4).all (fun i => bytes.any (fun b => b.1 == e.1 + i))),
           dirty := if mark then c.dirty ++ (bytes.map (·.1)).filter (fun o => !c.dirty.contains o) else c.dirty,
           writers := if mark && !c.writers.contains wave then c.writers ++ [wave] else c.writers }

/-- Offsets with the bytes of a lane. -/
def offBytes (off : Nat) : List Byte → List (Nat × Byte)
  | [] => []
  | b :: r => (off, b) :: offBytes (off + 1) r

/-- The poison of bytes of a copy, by 4-byte words (R385). -/
def CacheCopy.marksAt (c : CacheCopy) (off n : Nat) : List Mark :=
  (List.range (Nat.max 1 (n / 4))).map (fun i => Sparse.get Mark.none c.marks ((off + 4 * i) / 4 * 4))

/-- The sectors of a copy that hold poison. -/
def CacheCopy.poisoned (c : CacheCopy) : List Nat := (List.range 4).filter (fun i => c.marks.any (fun e => e.1 / 32 == i))

/-- A check-in that a wave waits for. -/
def checkinOp (wave : Nat) (x : LaneOp) : MemOp :=
  { wave := wave, kind := .checkin, pc := 0, iword := 0, frame := none, dst := [], size := 0, hint := .dflt,
    order := .plain, scope := none, count := none, seq := 0, gmode := 0, replay := false, resume := false,
    npc := 0, cdepth := 0, lanes := [x] }

/-- A check-in of a C copy: CKIN where it was written, else DROP (R80). `ws` are the waves that wait for its WCT; the
request says which bytes were written (R68). -/
def State.checkIn (s : State) (core : Nat) (c : CacheCopy) (extra : List Nat) : State :=
  let s1 := s.setCache core ((s.cacheOf core).filter (fun x => x.line != c.line))
  let ws := ((c.writers ++ extra).eraseDups).filter (fun w => (Sparse.find s.waves w).isSome)
  let req : HomeReq :=
    { who := .cache core, core := core, line := c.line, lanes := ws, bytes := offBytes 0 c.data, need := c.dirty,
      atom := none, scope := none, cc := 1, cp := 0, wp := 0, poison := c.poisoned }
  if c.dirty = [] then s1.post (.drop { req with bytes := [] })
  else
    (ws.foldl (fun acc w =>
      { acc with
          nextId := acc.nextId + 1,
          ops := Sparse.put acc.ops acc.nextId
            (checkinOp w { lane := 0, va := dw c.line, phase := .sent, data := [], cmp := [], key := none }) }) s1).post
      (.ckin req)

/-- Every C copy of a core checked in. -/
def State.checkInAll (s : State) (core : Nat) (extra : List Nat) : State :=
  ((s.cacheOf core).filter (fun c => decide (c.kind = .c))).foldl (fun acc c => acc.checkIn core c extra) s

/-- Whether a core of a cluster may yet be granted a tracked copy of a line: its RDS is on its way or waits, or the answer is on
its way. -/
def State.askingFor (s : State) (cl line : Nat) : Bool :=
  let mine : Instr → Bool := fun i => match i with
    | .rds r => r.core / 4 == cl && r.line == line
    | .dataS y => y.core / 4 == cl && y.line == line && !y.leased
    | _ => false
  s.agenda.any mine || s.slices.any (fun e => e.2.wait.any mine || e.2.lines.any (fun l => l.line == line &&
    (l.queue.any mine || l.held.any (fun hd => hd.ev == 0 && hd.hreq.core / 4 == cl))))

/-- An X copy given back: WBACK where it was written, else DROP; a T copy: DROP once no core of the cluster holds the
line, nor may be granted it by a request under way, whose copy INV has still to reach (R56, R134). -/
def State.giveBack (s : State) (core : Nat) (c : CacheCopy) : State :=
  let s1 := s.setCache core ((s.cacheOf core).filter (fun x => x.line != c.line))
  let req : HomeReq :=
    { who := .cache core, core := core, line := c.line, lanes := c.writers.filter (fun w => (Sparse.find s.waves w).isSome),
      bytes := [], need := [], atom := none, scope := none, cc := 1, cp := 0, wp := 0, poison := c.poisoned }
  match c.kind with
  | .l => s1
  | .c => s.checkIn core c []
  | .x => if c.dirty = [] then s1.post (.drop req)
    else s1.post (.wback { req with bytes := (offBytes 0 c.data).filter (fun e => c.dirty.contains e.1) })
  | .t => if (List.range 4).any (fun i => (s1.cacheOf (core / 4 * 4 + i)).any (fun x => x.line == c.line)) ||
      s1.askingFor (core / 4) c.line then s1
    else s1.post (.drop req)

/-- Whether a core may keep a copy of a page's lines (R132). -/
def Attr.cached (at_ : Attr) : Bool := at_.cc != 0 && at_.cp != 3

/-- Sectors of a line that bytes from an offset touch (R93). -/
def sectorsOf (off n : Nat) : List Nat := (List.range 4).filter (fun i => decide (off < 32 * i + 32) && decide (32 * i < off + n))

/-- A request of an operation for a lane. -/
def State.reqOf (s : State) (id : Nat) (o : MemOp) (lanes : List Nat) (pa n : Nat) (at_ : Attr) : HomeReq :=
  { who := .op id, core := coreOfWave o.wave, line := lineOf pa, lanes := lanes, bytes := [],
    need := sectorsOf (pa % 128) n, atom := none,
    scope := (match o.scope with
      | some sc => if at_.cc = 0 then none else some (s.scopeInfo o.wave at_.cc pa sc)
      | none => none),
    cc := at_.cc, cp := if o.hint = .ef ∧ at_.cp ≠ 3 then 1 else at_.cp, wp := at_.wp, poison := [] }

/-- Requests that lanes with the same line and attributes share, one after another. -/
def joinReqs (r : HomeReq) : List HomeReq → List HomeReq
  | [] => [r]
  | x :: rest =>
    if x.line = r.line ∧ x.cc = r.cc ∧ x.cp = r.cp ∧ x.wp = r.wp then
      { x with lanes := x.lanes ++ r.lanes, bytes := x.bytes ++ r.bytes,
               need := x.need ++ r.need.filter (fun i => !x.need.contains i) } :: rest
    else x :: joinReqs r rest

/-- A translated lane of an operation. -/
abbrev Placed := LaneOp × Nat × Attr

/-- A lane sent to on-chip memory through its window (R104). -/
def State.sendWindow (s : State) (id : Nat) (o : MemOp) (x : Placed) (atom : Option Atom) : State :=
  (s.modOp id (fun p => p.setPhase [x.1.lane] .sent)).post
    (.onchipWindowAccess { who := .op id, raw := false, pa := x.2.1, lanes := [x.1.lane], size := o.size,
                           bytes := offBytes 0 x.1.data, atom := atom })

/-- The copy of a line in a core's cache, usable or not. -/
def State.copyAt (s : State) (core line : Nat) : Option CacheCopy := (s.cacheOf core).find? (fun c => c.line == line)

/-- The copy of a line that an access does not use given back before its request goes out, so that no later load of
the core finds an older value than the home gave (R135, R136). -/
def State.giveUp (s : State) (core line : Nat) : State :=
  match s.copyAt core line with
  | some c => s.giveBack core c
  | none => s

/-- Whether a store of a core waits for a line to be checked out: accesses of the line wait for its copy (R56, R135). -/
def State.checkingOut (s : State) (core line : Nat) : Bool :=
  s.ops.any (fun e => coreOfWave e.2.wave == core && e.2.lanes.any (fun x => x.writes == some (line, true)))

/-- Whether a C copy lacks what the home held when it came, or what the core had sent there, at some of `n` bytes that no
store has made in it since: a load of the core may have had them already (R79, R135; log 112). -/
def CacheCopy.lacks (c : CacheCopy) (off n : Nat) : Bool :=
  c.old.any (fun i => decide (off ≤ i) && decide (i < off + n) && !c.dirty.contains i)

/-- Loads: what the core's copies serve is taken at once, the rest is asked of the homes; with NL a home is always asked
(R56, R57, R132, R292). -/
def State.sendLoads (s : State) (id : Nat) (o : MemOp) (xs : List Placed) : State :=
  let core := coreOfWave o.wave
  let r := xs.foldl (fun (acc : State × List HomeReq × List HomeReq) x =>
    if targetOf x.2.1 = .onchip then (acc.1.sendWindow id o x none, acc.2)
    else
      let line := lineOf x.2.1
      if acc.1.checkingOut core line then acc
      else match (if x.2.2.cached && o.hint != .nl then acc.1.usable core line else none).filter (fun c =>
          !c.lacks (x.2.1 % 128) o.size) with
        | some c =>
          (acc.1.landFrom id x.1.lane x.2.1 ((c.data.drop (x.2.1 % 128)).take o.size) (c.marksAt (x.2.1 % 128) o.size), acc.2)
        | none =>
          let q := acc.1.reqOf id o [x.1.lane] x.2.1 o.size x.2.2
          ((acc.1.giveUp core line).modOp id (fun p => p.setPhase [x.1.lane] .sent),
            if x.2.2.cached && o.hint != .nl then (joinReqs q acc.2.1, acc.2.2) else (acc.2.1, joinReqs q acc.2.2)))
    (s, [], [])
  (r.1.postAll (r.2.1.map .rds)).postAll (r.2.2.map .rdnc)

/-- Stores of one line: made in the copy the core holds, or sent to the home (R56, R57, R80, R134, R292). A store that is
checked out for is made in the C copy that comes, in place of the copy the core held. One that checks nothing out, with NL or
under bypass, waits for a copy that another store is checking out (R135). -/
def State.sendStore (s : State) (id : Nat) (o : MemOp) (q : HomeReq) : State :=
  let core := coreOfWave o.wave
  let cached := q.cc != 0 && q.cp != 3
  let send : State → Bool → State := fun t out =>
    (t.modOp id (fun p => p.setPhase q.lanes (.writing q.line out))).post (if out then .ckout { q with scope := none } else .wr q)
  let out := cached && o.hint != .nl && (s.checkingOut core q.line || s.classOf q.cc q.line == 2)
  if s.checkingOut core q.line && !out then s
  else match s.copyAt core q.line with
  | none => send s out
  | some c =>
    if !cached then send (s.giveBack core c) false
    else match c.kind with
      | .x =>
        if c.cls = 1 then send (s.modCopy core q.line (fun c => c.store q.bytes false o.wave)) false
        else
          ((s.modCopy core q.line (fun c => c.store q.bytes true o.wave)).doneLanes id q.lanes).modLive o.wave
            (fun w => w.foldWct (Nat.max s.gt c.lh))
      | .c => (s.modCopy core q.line (fun c => c.store q.bytes true o.wave)).doneLanes id q.lanes
      | _ =>
        if out then send (s.giveBack core c) true
        else send (s.modCopy core q.line (fun c => c.store q.bytes false o.wave)) false

def State.sendStores (s : State) (id : Nat) (o : MemOp) (xs : List Placed) : State :=
  let win := xs.filter (fun x => decide (targetOf x.2.1 = .onchip))
  let reqs := (xs.filter (fun x => decide (targetOf x.2.1 ≠ .onchip))).foldl (fun acc x =>
    joinReqs { s.reqOf id o [x.1.lane] x.2.1 o.size x.2.2 with bytes := offBytes (x.2.1 % 128) x.1.data } acc) []
  reqs.foldl (fun acc q => acc.sendStore id o q) (win.foldl (fun acc x => acc.sendWindow id o x none) s)

/-- An atomic's lane: the core first gives back the copy it holds (R57, R135; log 24). -/
def State.sendAtomic (s : State) (id : Nat) (o : MemOp) (x : Placed) : State :=
  match o.kind with
  | .atomic op ty =>
    let a : Atom := { op := op, ty := ty, data := dw (ofBytes x.1.data), cmp := dw (ofBytes x.1.cmp) }
    if targetOf x.2.1 = .onchip then s.sendWindow id o x (some a)
    else
      ((s.giveUp (coreOfWave o.wave) (lineOf x.2.1)).modOp id (fun p => p.setPhase [x.1.lane] .sent)).post
        (.atom { s.reqOf id o [x.1.lane] x.2.1 o.size x.2.2 with bytes := [(x.2.1 % 128, 0)], atom := some a })
  | _ => s

/-- The lanes of an atomic, in ascending order; they wait together while a line of theirs is being checked out. -/
def State.sendAtomics (s : State) (id : Nat) (o : MemOp) (xs : List Placed) : State :=
  if xs.any (fun x => s.checkingOut (coreOfWave o.wave) (lineOf x.2.1)) then s
  else xs.foldl (fun acc x => acc.sendAtomic id o x) s

/-- The addresses of a lane that are to be translated: a prefetch may reach into a second line (R295). -/
def MemOp.addrs (o : MemOp) (x : LaneOp) : List Dword :=
  match o.kind with
  | .prefetch _ => if x.va.toNat % 128 + o.size > 128 then [x.va, x.va + dw (o.size - 1)] else [x.va]
  | _ => [x.va]

/-- How a lane that waits for its translation stands. -/
def State.hitAt (s : State) (o : MemOp) (va : Dword) : Hit :=
  let w := s.wave o.wave
  s.resolve (coreOfWave o.wave) w.ctx w.sys (o.frame.getD Frame.empty) o.kind.access va
    (match o.kind with
     | .atomic _ _ => o.scope
     | _ => none)

/-- The lane's own address, unless another that it reaches is not translated or not allowed. -/
def State.laneHit (s : State) (o : MemOp) (x : LaneOp) : Hit :=
  match (o.addrs x).filter (fun va => match s.hitAt o va with
      | .ok _ _ => false
      | _ => true) with
  | [] => s.hitAt o x.va
  | va :: _ => s.hitAt o va

/-- A prefetched lane: every line it touches is asked for, no answer is awaited (R295). -/
def State.sendPrefetch (s : State) (id : Nat) (o : MemOp) (x : Placed) : State :=
  ((o.addrs x.1).foldl (fun acc va => match s.hitAt o va with
    | .ok pa at_ =>
      if targetOf pa = .onchip ∨ targetOf pa = .host ∨ targetOf pa = .peer ∨ at_.cp = 3 then acc
      else acc.post (.rdnc { s.reqOf id o [] pa 1 at_ with who := .device })
    | _ => acc) (s.doneLanes id [x.1.lane]))

/-- A frame filled by XLB (R37). -/
def frameOf (e : TlbEntry) (va : Dword) : Frame :=
  { vbase := fld va 0 57, pbase := leafAddr e.leaf e.size va,
    limit := (if e.size = 0 then 2 ^ 16 else if e.size = 1 then 2 ^ 21 else 2 ^ 30) - 1 -
      va.toNat % (if e.size = 0 then 2 ^ 16 else if e.size = 1 then 2 ^ 21 else 2 ^ 30),
    sz := e.size, cc := fld e.leaf 13 2, wp := fld e.leaf 10 3, cp := fld e.leaf 8 2, enc := fld e.leaf 57 1 == 1,
    p := fld e.leaf 5 1 == 1, x := fld e.leaf 4 1 == 1, w := fld e.leaf 3 1 == 1 && fld e.leaf 7 1 == 1,
    r := fld e.leaf 2 1 == 1, g := fld e.leaf 15 1 == 1, v := true, a := fld e.leaf 6 1 == 1, leaf := e.leafA }

/-- The translated lanes of an operation sent on their way, in ascending order. -/
def State.sendLanes (s : State) (id : Nat) (o : MemOp) (xs : List Placed) : State :=
  let s1 := xs.foldl (fun acc x => acc.touchLeaf (coreOfWave o.wave) o.kind.access x.2.2) s
  let s2 := s1.modLive o.wave (fun w => match o.order, o.kind with
    | .acq, _ => w
    | .ar, _ => w
    | _, .record _ _ => w
    | _, .image _ _ => w
    | _, _ => { w with gate := w.gate.filter (· ≠ id) })
  match o.kind with
  | .store => s2.sendStores id o xs
  | .atomic _ _ => s2.sendAtomics id o xs
  | .prefetch _ => xs.foldl (fun acc x => acc.sendPrefetch id o x) s2
  | _ => s2.sendLoads id o xs

/-- XLB with the leaf that the TLBs hold (R37). -/
def State.fillFrame (s : State) (id : Nat) (o : MemOp) (f : Nat) : State :=
  let w := s.wave o.wave
  let done : Frame → State := fun x =>
    ((s.modLive o.wave (fun w => w.setFrame f x)).doneLanes id [0]).finishOp id
  match o.lanes.head? with
  | none => s.finishOp id
  | some x =>
    if !canonical x.va then done { w.frame f with vbase := fld x.va 0 57, v := false }
    else match s.tlbLookup (coreOfWave o.wave) (s.asid w.ctx) (pageOf x.va) with
      | some e => done (frameOf e x.va)
      | none => s.askWalk (clusterOfCore (coreOfWave o.wave)) w.ctx (pageOf x.va)

/-- The bytes of a refused check-in or write-back sent again (R71). -/
def State.resendCopy (s : State) (id : Nat) (o : MemOp) (x : LaneOp) : State :=
  let line := x.va.toNat
  let offs := x.cmp.map BitVec.toNat
  let req : HomeReq :=
    { who := .cache (coreOfWave o.wave), core := coreOfWave o.wave, line := line, lanes := [o.wave], bytes := offs.zip x.data,
      need := offs, atom := none, scope := none, cc := 1, cp := 0, wp := 0,
      poison := (List.range 4).filter (fun i => (x.key.getD 0) / 2 ^ i % 2 == 1) }
  (s.modOp id (fun p => p.setPhase [x.lane] .sent)).post (if s.classOf 1 line = 2 then .ckin req else .wback req)

/-- An attempt at an operation's untranslated lanes: they are sent once none of them misses. An atomic that R32
refuses in one lane is performed in no lane, and every lane says so (log 108). -/
def State.tryOp (s : State) (id : Nat) : State :=
  match Sparse.find s.ops id with
  | none => s
  | some o =>
    match o.kind with
    | .xlb f => if o.lanes.any LaneOp.open then s.fillFrame id o f else s.finishOp id
    | .checkin => ((o.lanes.filter (fun x => decide (x.phase = .xlate))).foldl (fun acc x => acc.resendCopy id o x) s).finishOp id
    | _ =>
      let todo := o.lanes.filter (fun x => decide (x.phase = .xlate))
      if todo = [] then s.finishOp id
      else
        let w := s.wave o.wave
        let misses := ((todo.flatMap o.addrs).filter (fun va => decide (s.hitAt o va = .miss))).map pageOf |>.eraseDups
        if misses ≠ [] then
          misses.foldl (fun acc p => acc.askWalk (clusterOfCore (coreOfWave o.wave)) w.ctx p) s
        else
          let denied : List (Nat × Nat) := todo.filterMap (fun x => match s.laneHit o x with
            | .deny r => some (x.lane, r)
            | _ => none)
          let info : Nat → Dword := fun r => accessInfo r 0 0 o.kind.access.code 15
          match o.kind with
          | .prefetch false =>
            ((s.doneLanes id (denied.map (·.1))).sendLanes id o (todo.filterMap (fun x => match s.laneHit o x with
              | .ok pa a => some (x, pa, a)
              | _ => none))).finishOp id
          | _ =>
            if denied.any (fun d => d.2 = 0x15) then
              (s.modOp id (fun p => p.setPhase (todo.map (·.lane)) (.fault 6 (info 0x15)))).finishOp id
            else
              ((denied.foldl (fun acc d => acc.modOp id (fun p => p.setPhase [d.1] (.fault 6 (info d.2)))) s).sendLanes id o
                (todo.filterMap (fun x => match s.laneHit o x with
                  | .ok pa a => some (x, pa, a)
                  | _ => none))).finishOp id

/-- An operation that begins: counted, and on its way as far as it goes. Later instructions wait until a store is
translated and until an acquire has its value (R42, R142). -/
def State.startOp (s : State) (o' : MemOp) : State :=
  let id := s.nextId
  let o := if o'.lanes.any o'.askew then o'.setPhase (o'.lanes.map (·.lane)) (.fault 7 (misInfo 0x34 0)) else o'
  let wait : Bool := match o.kind with
    | .store => true
    | .prefetch true => true
    | .local _ _ => false
    | .record _ _ => true
    | .image _ _ => true
    | _ => decide (o.order = .acq) || decide (o.order = .ar)
  (({ s with ops := Sparse.put s.ops id o, nextId := id + 1 }).modLive o.wave (fun w =>
    let w1 := match o.count with
      | some n => w.countUp n id
      | none => w
    { w1 with gate := if wait then w1.gate ++ [id] else w1.gate })).tryOp id

/-! ## The end of a walk, for operations (R41, R45, R50, R53) -/

/-- Whether a lane waits for a walk of a page. -/
def State.waitsFor (s : State) (o : MemOp) (x : LaneOp) (k : WalkKey) : Bool :=
  decide (x.phase = .xlate) && s.asid (s.wave o.wave).ctx == k.asid && clusterOfCore (coreOfWave o.wave) == k.cluster &&
    (o.addrs x).any (fun va => pageOf va == k.page && canonical va && !((o.frame.getD Frame.empty).covers o.kind.access va))

/-- An operation without a use for a fault: XLB leaves its frame invalid, PRF drops the lane (R37, R295). -/
def State.dropWalk (s : State) (id : Nat) (o : MemOp) (lanes : List Nat) : State :=
  match o.kind with
  | .xlb f => (s.modLive o.wave (fun w => w.setFrame f { w.frame f with
      vbase := fld ((o.lanes.head?.map (·.va)).getD 0) 0 57, v := false })).doneLanes id lanes
  | _ => s.doneLanes id lanes

def OpKind.silent (k : OpKind) : Bool :=
  match k with
  | .xlb _ => true
  | .prefetch false => true
  | _ => false

/-- The lanes of an operation that a walk without a leaf concerns; a poisoned entry is consumed, and the instruction performed
in none of its lanes (R387). A wave that stands parked takes the fault when it goes on (R439). -/
def State.walkFails (s : State) (id : Nat) (k : WalkKey) (e : WalkEnd) : State :=
  match Sparse.find s.ops id with
  | none => s
  | some o =>
    let lanes := (o.lanes.filter (fun x => s.waitsFor o x k)).map (·.lane)
    if lanes = [] then s
    else if o.kind.silent then s.dropWalk id o lanes
    else if (s.wave o.wave).status = .draining then s.modOp id (fun p => p.setPhase lanes (.fault 5 0))
    else if !s.mayPark id o then s
    else match e with
      | .bad r lvl =>
        let b := s.enterBuffer k.cluster (1, o.wave) k.asid (s.wave o.wave).ctx k.page lvl r
        (b.1.modOp id (fun p => { p.setPhase lanes (.fault 5 (accessInfo r 0 lvl o.kind.access.code b.2)) with
          lanes := (p.setPhase lanes (.fault 5 (accessInfo r 0 lvl o.kind.access.code b.2))).lanes.map (fun x =>
            if lanes.contains x.lane then { x with key := some k.page } else x) }))
      | .migrating d i => (s.joinMig d i (1, o.wave)).modOp id (fun p => p.setPhase lanes (.mig d i))
      | .poisoned m =>
        let all := (o.lanes.filter (fun x => decide (x.phase = .xlate))).map (·.lane)
        s.modOp id (fun p => { p.setPhase all (.fault m.cls (eccInfo m.origin 9 false 0)) with
          lanes := (p.setPhase all (.fault m.cls (eccInfo m.origin 9 false 0))).lanes.map (fun x =>
            if all.contains x.lane then { x with key := some m.addr } else x) })
      | .leaf _ _ _ => s
      | .held => s

/-- Operations of a cluster with untranslated lanes, oldest first. -/
def State.stalled (s : State) (cl : Nat) : List Nat :=
  (s.ops.filter (fun e => clusterOfCore (coreOfWave e.2.wave) == cl &&
    (e.2.replay || !e.2.resume) && e.2.lanes.any (fun x => decide (x.phase = .xlate)))).map (·.1)

end Sys2Proof.Machine
end

