-- ==== Sys2Proof/Machine/Flags.lean ====
section
/-! DEFINITION. Flag computations: the exception conditions and the floating-point arithmetic that raises them
(08/R175 to R185), integer and float compares (09/R201, 10/R230, R231), branch conditions (09/R205). -/

namespace Sys2Proof.Machine

/-! ## Conditions (R183, R184), in the bit order of GMODE.TE -/

def cInvalid : Nat := 1
def cDivZero : Nat := 2
def cOverflow : Nat := 4
def cUnderflow : Nat := 8
def cInexact : Nat := 16

/-- A result and the conditions it raised. -/
abbrev Res := Nat × Nat

/-- A result without conditions. -/
def plain (v : Nat) : Res := (v, 0)

/-- The modes that float arithmetic reads (R165): RM, DN, NANP, LGY. -/
structure Env where
  rm   : Nat
  dn   : Nat
  nanp : Nat
  lgy  : Nat
  deriving DecidableEq, Repr

def Wave.env (w : Wave) : Env :=
  { rm := fld w.gmode 7 3, dn := fld w.gmode 10 2, nanp := fld w.gmode 12 1, lgy := fld w.gmode 13 3 }

/-- GMODE.TE. -/
def Wave.te (w : Wave) : Nat := fld w.gmode 16 5

/-- The environment with a rounding of an instruction's own. -/
def Env.withRm (v : Env) (rm : Nat) : Env := { v with rm := rm }

def Env.flushIn (v : Env) : Bool := v.dn % 2 == 1

def Env.flushOut (v : Env) : Bool := decide (v.dn ≥ 2)

/-! ## Formats (R175, R176) -/

/-- A floating-point format: exponent bits, significand bits, whether it is E4M3. -/
structure Fmt where
  e    : Nat
  m    : Nat
  e4m3 : Bool
  deriving DecidableEq, Repr

def f64 : Fmt := { e := 11, m := 52, e4m3 := false }
def f32 : Fmt := { e := 8, m := 23, e4m3 := false }
def f16 : Fmt := { e := 5, m := 10, e4m3 := false }
def bf16 : Fmt := { e := 8, m := 7, e4m3 := false }
def e5m2 : Fmt := { e := 5, m := 2, e4m3 := false }
def e4m3 : Fmt := { e := 4, m := 3, e4m3 := true }

/-- The format of a float type. -/
def fmtOf (t : Ty) : Fmt :=
  match t with
  | .f64 => f64
  | .f16x2 => f16
  | .bf16x2 => bf16
  | .e4m3x4 => e4m3
  | .e5m2x4 => e5m2
  | _ => f32

def Fmt.bias (f : Fmt) : Int := (2 ^ (f.e - 1) : Nat) - 1

/-- Exponent of the smallest normal. -/
def Fmt.emin (f : Fmt) : Int := 1 - f.bias

/-- Exponent of the largest finite value. -/
def Fmt.emax (f : Fmt) : Int := if f.e4m3 then 8 else f.bias

def Fmt.signBit (f : Fmt) (neg : Bool) : Nat := if neg then 2 ^ (f.e + f.m) else 0

def Fmt.inf (f : Fmt) (neg : Bool) : Nat := f.signBit neg + (2 ^ f.e - 1) * 2 ^ f.m

/-- The largest finite magnitude. -/
def Fmt.big (f : Fmt) (neg : Bool) : Nat :=
  f.signBit neg + (if f.e4m3 then 0x7E else (2 ^ f.e - 1) * 2 ^ f.m - 1)

/-- The canonical NaN. -/
def Fmt.nan (f : Fmt) : Nat := if f.e4m3 then 0x7F else (2 ^ f.e - 1) * 2 ^ f.m + 2 ^ (f.m - 1)

/-- 1.0. -/
def Fmt.one (f : Fmt) : Nat := f.bias.toNat * 2 ^ f.m

/-- What the bits of a value stand for: a finite value m × 2^e with its sign, an infinity, or a NaN with its
sign, whether it signals, and its significand field of `width` bits. -/
inductive FVal where
  | fin (neg : Bool) (m : Nat) (e : Int)
  | inf (neg : Bool)
  | nan (neg : Bool) (sig : Bool) (frac width : Nat)
  deriving DecidableEq, Repr

/-- The value of a code (R175, R176). -/
def Fmt.value (f : Fmt) (x : Nat) : FVal :=
  let neg := decide (bits x (f.e + f.m) 1 = 1)
  let ex := bits x f.m f.e
  let fr := bits x 0 f.m
  if f.e4m3 then
    (if ex = 15 ∧ fr = 7 then .nan neg false fr f.m
     else if ex = 0 then .fin neg fr (f.emin - f.m)
     else .fin neg (fr + 2 ^ f.m) ((ex : Int) - f.bias - f.m))
  else if ex = 2 ^ f.e - 1 then
    (if fr = 0 then .inf neg else .nan neg (decide (fr < 2 ^ (f.m - 1))) fr f.m)
  else if ex = 0 then .fin neg fr (f.emin - f.m)
  else .fin neg (fr + 2 ^ f.m) ((ex : Int) - f.bias - f.m)

/-- Whether a code is a subnormal. -/
def Fmt.isSub (f : Fmt) (x : Nat) : Bool := bits x f.m f.e == 0 && bits x 0 f.m != 0

/-- An operand as arithmetic reads it: a subnormal is a zero of its sign where inputs are flushed (R180). -/
def Fmt.arith (f : Fmt) (v : Env) (x : Nat) : FVal :=
  if v.flushIn && f.isSub x then .fin (decide (bits x (f.e + f.m) 1 = 1)) 0 0 else f.value x

/-- The bits of an operand after the flush of inputs. -/
def Fmt.flushed (f : Fmt) (v : Env) (x : Nat) : Nat :=
  if v.flushIn && f.isSub x then f.signBit (decide (bits x (f.e + f.m) 1 = 1)) else x

def FVal.isNan (x : FVal) : Bool :=
  match x with
  | .nan _ _ _ _ => true
  | _ => false

def FVal.isSnan (x : FVal) : Bool :=
  match x with
  | .nan _ s _ _ => s
  | _ => false

def FVal.isZero (x : FVal) : Bool :=
  match x with
  | .fin _ m _ => m == 0
  | _ => false

def FVal.neg (x : FVal) : Bool :=
  match x with
  | .fin n _ _ => n
  | .inf n => n
  | .nan n _ _ _ => n

/-- A value with its sign turned; a NaN as it is (R181: it keeps its sign). -/
def FVal.turn (x : FVal) : FVal :=
  match x with
  | .fin n m e => .fin (!n) m e
  | .inf n => .inf (!n)
  | y => y

/-! ## Rounding (R177, R180) -/

/-- m / 2^s rounded to an integer under RM, and whether it changed. -/
def roundOff (rm : Nat) (neg : Bool) (m s : Nat) : Nat × Bool :=
  let q := m / 2 ^ s
  let r := m % 2 ^ s
  let up := match rm with
    | 0 => decide (2 * r > 2 ^ s ∨ (2 * r = 2 ^ s ∧ q % 2 = 1 ∧ r ≠ 0))
    | 1 => false
    | 2 => !neg && r != 0
    | 3 => neg && r != 0
    | _ => decide (2 * r ≥ 2 ^ s ∧ r ≠ 0)
  (if up then q + 1 else q, r != 0)

/-- m × 2^e rounded to a multiple of 2^q: the multiple, and whether it changed. -/
def roundAt (rm : Nat) (neg : Bool) (m : Nat) (e q : Int) : Nat × Bool :=
  if q ≤ e then (m * 2 ^ (e - q).toNat, false)
  else roundOff rm neg m (Nat.min (q - e).toNat (m.log2 + 3))

/-- Whether an overflow gives infinity (R177). -/
def overflowsToInf (rm : Nat) (neg : Bool) : Bool :=
  match rm with
  | 1 => false
  | 2 => !neg
  | 3 => neg
  | _ => true

/-- rnd of a non-zero exact value (R177, R176, R180); a zero keeps its sign. -/
def rnd (f : Fmt) (v : Env) (neg : Bool) (m : Nat) (e : Int) : Res :=
  if m = 0 then plain (f.signBit neg)
  else
    let q : Int := (m.log2 : Int) + e - f.m
    let r := roundAt v.rm neg m e q
    let ex : Int := if r.1 = 2 ^ (f.m + 1) then q + f.m + 1 else q + f.m
    let mant := if r.1 = 2 ^ (f.m + 1) then 2 ^ f.m else r.1
    if ex > f.emax ∨ (f.e4m3 ∧ ex = f.emax ∧ mant = 15) then
      (if f.e4m3 || !overflowsToInf v.rm neg then f.big neg else f.inf neg, cOverflow + cInexact)
    else if ex < f.emin then
      (if v.flushOut then (f.signBit neg, cUnderflow + cInexact)
       else
        let t := roundAt v.rm neg m e (f.emin - f.m)
        (f.signBit neg + t.1, if t.2 then cUnderflow + cInexact else 0))
    else (f.signBit neg + (ex + f.bias).toNat * 2 ^ f.m + (mant - 2 ^ f.m), if r.2 then cInexact else 0)

/-- The sign of an exact zero (R177). -/
def zeroSign (v : Env) : Bool := v.rm == 3

/-! ## NaNs (R181) -/

/-- A NaN operand carried into a format, quiet. -/
def Fmt.carry (f : Fmt) (neg : Bool) (frac width : Nat) : Nat :=
  if f.e4m3 then f.signBit neg + 0x7F
  else
    let fr := if f.m ≥ width then frac * 2 ^ (f.m - width) else frac / 2 ^ (width - f.m)
    f.signBit neg + (2 ^ f.e - 1) * 2 ^ f.m + (2 ^ (f.m - 1) + fr % 2 ^ (f.m - 1))

/-- The NaN that an operation on some operands gives. -/
def Fmt.nanOf (f : Fmt) (v : Env) (xs : List FVal) : Nat :=
  if v.nanp = 0 then f.nan
  else match xs.find? FVal.isNan with
    | some (.nan n _ fr wd) => f.carry n fr wd
    | _ => f.nan

/-- Invalid where an operand signals. -/
def sigCond (xs : List FVal) : Nat := if xs.any FVal.isSnan then cInvalid else 0

/-! ## Exact arithmetic on values; none for an invalid operation -/

/-- The exact product. -/
def exMul (x y : FVal) : Option FVal :=
  match x, y with
  | .fin n m e, .fin n' m' e' => some (.fin (n != n') (m * m') (e + e'))
  | .fin n m _, .inf n' => if m = 0 then none else some (.inf (n != n'))
  | .inf n, .fin n' m _ => if m = 0 then none else some (.inf (n != n'))
  | .inf n, .inf n' => some (.inf (n != n'))
  | _, _ => none

/-- The exact sum, its zero signed by R177. -/
def exAdd (v : Env) (x y : FVal) : Option FVal :=
  match x, y with
  | .fin n m e, .fin n' m' e' =>
    if m = 0 ∧ m' = 0 then some (.fin (if n = n' then n else zeroSign v) 0 0)
    else
      let q : Int := if m = 0 then e' else if m' = 0 then e else if e ≤ e' then e else e'
      let a : Int := if m = 0 then 0 else (if n then -1 else 1) * ((m * 2 ^ (e - q).toNat : Nat) : Int)
      let b : Int := if m' = 0 then 0 else (if n' then -1 else 1) * ((m' * 2 ^ (e' - q).toNat : Nat) : Int)
      if a + b = 0 then some (.fin (zeroSign v) 0 0) else some (.fin (decide (a + b < 0)) (a + b).natAbs q)
  | .fin _ _ _, .inf n => some (.inf n)
  | .inf n, .fin _ _ _ => some (.inf n)
  | .inf n, .inf n' => if n = n' then some (.inf n) else none
  | _, _ => none

/-- rnd of an exact value; the canonical NaN and invalid where there is none. -/
def rndVal (f : Fmt) (v : Env) (x : Option FVal) : Res :=
  match x with
  | some (.fin n m e) => rnd f v n m e
  | some (.inf n) => plain (f.inf n)
  | _ => (f.nan, cInvalid)

/-- An operation with a NaN operand, or the rounded result of an exact one. -/
def nanOr (f : Fmt) (v : Env) (xs : List FVal) (r : Unit → Res) : Res :=
  if xs.any FVal.isNan then (f.nanOf v xs, sigCond xs) else r ()

/-! ## Operations on codes of one format (R178, R182, R233, R250, R304) -/

def fAdd (f : Fmt) (v : Env) (a b : Nat) : Res :=
  nanOr f v [f.arith v a, f.arith v b] (fun _ => rndVal f v (exAdd v (f.arith v a) (f.arith v b)))

def fSub (f : Fmt) (v : Env) (a b : Nat) : Res :=
  nanOr f v [f.arith v a, f.arith v b] (fun _ => rndVal f v (exAdd v (f.arith v a) (f.arith v b).turn))

def fMul (f : Fmt) (v : Env) (a b : Nat) : Res :=
  nanOr f v [f.arith v a, f.arith v b] (fun _ => rndVal f v (exMul (f.arith v a) (f.arith v b)))

/-- A value as a multiply-add takes it: turned where the form says so. -/
def FVal.turnIf (x : FVal) (t : Bool) : FVal := if t then x.turn else x

/-- The multiply-add of R250 with turned product or addend; LGY bit 14 rounds the product a × b first and turns what
that gives (R182; log 21). -/
def fMadd (f : Fmt) (v : Env) (np nc : Bool) (a b c : Nat) : Res :=
  let x := f.arith v a
  let y := f.arith v b
  let z := f.arith v c
  let p := exMul x y
  let split := decide (v.lgy / 2 % 2 = 1)
  let pr := rndVal f v p
  -- conditions of the product: 0 × infinity, and those of its own rounding
  let pc := if x.isNan || y.isNan || !(split || p.isNone) then 0 else pr.2
  if x.isNan || y.isNan || z.isNan then (f.nanOf v [x, y, z], sigCond [x, y, z] ||| pc)
  else if p.isNone then (f.nan, cInvalid)
  else if split then
    let s := rndVal f v (exAdd v ((f.arith v pr.1).turnIf np) (z.turnIf nc))
    (s.1, s.2 ||| pc)
  else rndVal f v (p.bind (fun t => exAdd v (t.turnIf np) (z.turnIf nc)))

/-- Whether x < y, for values that are not NaNs. -/
def fLess (x y : FVal) : Bool :=
  match x, y with
  | .inf n, .inf n' => n && !n'
  | .inf n, _ => n
  | _, .inf n' => !n'
  | .fin n m e, .fin n' m' e' =>
    let q : Int := if e ≤ e' then e else e'
    let a : Int := (if n then -1 else 1) * ((m * 2 ^ (e - q).toNat : Nat) : Int)
    let b : Int := (if n' then -1 else 1) * ((m' * 2 ^ (e' - q).toNat : Nat) : Int)
    if m = 0 then decide (0 < (if n' then -1 else 1 : Int) * (m' : Int))
    else if m' = 0 then decide ((if n then -1 else 1 : Int) * (m : Int) < 0)
    else decide (a < b)
  | _, _ => false

/-- FMIN (`mx` false) and FMAX (R182). Under LGY bit 13 a NaN that B holds is the result as it stands (log 36). -/
def fMinMax (f : Fmt) (v : Env) (mx : Bool) (a b : Nat) : Res :=
  let x := f.arith v a
  let y := f.arith v b
  let less := if mx then fLess y x else fLess x y
  if v.lgy % 2 = 1 then
    (f.flushed v (if !x.isNan && !y.isNan && less then a else b), sigCond [x, y])
  else if x.isNan && y.isNan then (f.nanOf v [x, y], sigCond [x, y])
  else if x.isNan then (f.flushed v b, sigCond [x, y])
  else if y.isNan then (f.flushed v a, sigCond [x, y])
  else if x.isZero && y.isZero then plain (f.flushed v (if x.neg != mx then a else b))
  else plain (f.flushed v (if less then a else b))

/-- a × 2^n (R233). -/
def fScale (f : Fmt) (v : Env) (a : Nat) (n : Int) : Res :=
  match f.arith v a with
  | .fin s m e => rnd f v s m (e + n)
  | .inf s => plain (f.inf s)
  | x => (f.nanOf v [x], sigCond [x])

/-- a − floor(a) (R233). -/
def fFract (f : Fmt) (v : Env) (a : Nat) : Res :=
  match f.arith v a with
  | .fin s m e =>
    if e ≥ 0 ∨ m = 0 then plain 0
    else
      let u := 2 ^ (-e).toNat
      let r := if s then (u - m % u) % u else m % u
      if r = 0 then plain 0
      else
        let y := rnd f v false r e
        if y.1 = f.one then (f.one - 1, y.2 ||| cInexact) else y
  | .inf _ => (f.nan, cInvalid)
  | x => (f.nanOf v [x], sigCond [x])

/-- a rounded to an integral value (R234). -/
def fRnd (f : Fmt) (v : Env) (rm : Nat) (a : Nat) : Res :=
  match f.arith v a with
  | .fin s m e => if m = 0 then plain (f.signBit s) else
      let r := roundAt rm s m e (if e ≥ 0 then e else 0)
      plain (rnd f { v with rm := 0, dn := 0 } s r.1 (if e ≥ 0 then e else 0)).1
  | .inf s => plain (f.inf s)
  | x => (f.nanOf v [x], sigCond [x])

/-- The class mask of R235. -/
def fClass (f : Fmt) (a : Nat) : Nat :=
  match f.value a with
  | .nan _ true _ _ => 1
  | .nan _ false _ _ => 2
  | .inf true => 4
  | .inf false => 512
  | .fin true m _ => if m = 0 then 32 else if f.isSub a then 16 else 8
  | .fin false m _ => if m = 0 then 64 else if f.isSub a then 128 else 256

/-- The compare of R231. -/
def fCompare (f : Fmt) (v : Env) (c : FCond) (a b : Nat) : Bool × Nat :=
  let x := f.arith v a
  let y := f.arith v b
  let nan := x.isNan || y.isNan
  let lt := fLess x y
  let gt := fLess y x
  (match c with
   | .eq => !nan && !lt && !gt
   | .ne => nan || lt || gt
   | .lt => !nan && lt
   | .le => !nan && !gt
   | .gt => !nan && gt
   | .ge => !nan && !lt
   | .un => nan
   | .or => !nan,
   if nan && (x.isSnan || y.isSnan || (match c with
     | .lt => true
     | .le => true
     | .gt => true
     | .ge => true
     | _ => false)) then cInvalid else 0)

/-- a + c × (b − a), rounded once (R250). -/
def fLerp (f : Fmt) (v : Env) (a b c : Nat) : Res :=
  let x := f.arith v a
  let y := f.arith v b
  let z := f.arith v c
  nanOr f v [x, y, z] (fun _ =>
    rndVal f v ((exAdd v y x.turn).bind (fun d => (exMul z d).bind (fun p => exAdd v x p))))

/-- a0 × b0 + a1 × b1 + c into F32 (R250). -/
def fDot2 (f : Fmt) (v : Env) (a0 a1 b0 b1 c : Nat) : Res :=
  let x0 := f.arith v a0
  let x1 := f.arith v a1
  let y0 := f.arith v b0
  let y1 := f.arith v b1
  let z := f32.arith v c
  let xs := [x0, x1, y0, y1, z]
  let inv : FVal → FVal → Nat := fun x y => if !x.isNan && !y.isNan && (exMul x y).isNone then cInvalid else 0
  if xs.any FVal.isNan then (f32.nanOf v xs, sigCond xs ||| inv x0 y0 ||| inv x1 y1)
  else rndVal f32 v ((exMul x0 y0).bind (fun p => (exMul x1 y1).bind (fun q => (exAdd v p q).bind (fun s => exAdd v s z))))

/-- The quotient (R178, R304). -/
def fDiv (f : Fmt) (v : Env) (a b : Nat) : Res :=
  let x := f.arith v a
  let y := f.arith v b
  nanOr f v [x, y] (fun _ =>
    match x, y with
    | .fin n m e, .fin n' m' e' =>
      if m' = 0 then (if m = 0 then (f.nan, cInvalid) else (f.inf (n != n'), cDivZero))
      else if m = 0 then plain (f.signBit (n != n'))
      else
        let k := f.m + 4 + m'.log2 + 1
        let q := m * 2 ^ k / m'
        let r := m * 2 ^ k % m'
        rnd f v (n != n') (2 * q + (if r = 0 then 0 else 1)) (e - e' - k - 1)
    | .fin n _ _, .inf n' => plain (f.signBit (n != n'))
    | .inf n, .fin n' _ _ => plain (f.inf (n != n'))
    | _, _ => (f.nan, cInvalid))

/-- The square root (R178, R304). -/
def fSqrt (f : Fmt) (v : Env) (a : Nat) : Res :=
  match f.arith v a with
  | .fin n m e =>
    if m = 0 then plain (f.signBit n)
    else if n then (f.nan, cInvalid)
    else
      let m1 := if e % 2 = 0 then m else 2 * m
      let e1 := if e % 2 = 0 then e else e - 1
      let k := f.m + 4
      let q := Nat.sqrt (m1 * 4 ^ k)
      rnd f v false (2 * q + (if q * q = m1 * 4 ^ k then 0 else 1)) (e1 / 2 - k - 1)
  | .inf false => plain (f.inf false)
  | .inf true => (f.nan, cInvalid)
  | x => (f.nanOf v [x], sigCond [x])

/-- Clamp to +0 to 1.0 (R238). -/
def fSat (f : Fmt) (v : Env) (a : Nat) : Res :=
  match f.arith v a with
  | .nan _ s _ _ => (0, if s then cInvalid else 0)
  | .inf n => plain (if n then 0 else f.one)
  | .fin n m e =>
    if n || m == 0 then plain 0
    else if fLess (.fin false m e) (f.value f.one) then plain a else plain f.one

/-! ## Conversions (R178, R179, R236) -/

/-- An integer to a float format (log 22: a zero follows R177). -/
def intToF (f : Fmt) (v : Env) (x : Int) : Res :=
  if x = 0 then plain (f.signBit (zeroSign v)) else rnd f v (decide (x < 0)) x.natAbs 0

/-- A float to another format. -/
def fToF (f g : Fmt) (v : Env) (a : Nat) : Res :=
  match f.arith v a with
  | .fin n m e => rnd g v n m e
  | .inf n => if g.e4m3 then (g.nan, cInvalid) else plain (g.inf n)
  | x => (g.nanOf v [x], sigCond [x])

/-- A float to an integer of n bits (R179). -/
def fToInt (f : Fmt) (v : Env) (n : Nat) (signed : Bool) (a : Nat) : Res :=
  let lo : Int := if signed then -((2 ^ (n - 1) : Nat) : Int) else 0
  let hi : Int := if signed then (2 ^ (n - 1) : Nat) - 1 else (2 ^ n : Nat) - 1
  let lgy := decide (v.lgy / 4 % 2 = 1)
  match f.arith v a with
  | .nan _ _ _ _ => (if lgy then ofInt n lo else 0, cInvalid)
  | .inf s => (ofInt n (if s || lgy then lo else hi), cInvalid)
  | .fin s m e =>
    let r := if m = 0 then (0, false) else roundAt v.rm s m e 0
    let x : Int := if s then -(r.1 : Int) else r.1
    if x < lo then (ofInt n lo, cInvalid)
    else if x > hi then (ofInt n (if lgy then lo else hi), cInvalid)
    else (ofInt n x, if r.2 then cInexact else 0)

/-! ## Integer compares (R201, R230) and branch conditions (R205) -/

/-- A compare of two n-bit values. -/
def iCompare (c : ICond) (n : Nat) (signed : Bool) (a b : Nat) : Bool :=
  let x : Int := if signed then toSigned n a else a
  let y : Int := if signed then toSigned n b else b
  match c with
  | .eq => a == b
  | .ne => a != b
  | .lt => decide (x < y)
  | .le => decide (x ≤ y)
  | .gt => decide (x > y)
  | .ge => decide (x ≥ y)
  | .bs => a &&& b != 0
  | .bc => a &&& b == 0

end Sys2Proof.Machine
end

