-- ==== Sys2Proof/Machine/Lane.lean ====
section
/-! DEFINITION. Lane instructions: how a value is read through the crossbar, computed per element and written to
the active lanes (10/R222 to R224, 08/R173, R174), with the ARITH trap (08/R184) and the travel of poison (15/R386). -/

namespace Sys2Proof.Machine

/-- The type in force; I32 stands in where the code is reserved, which no accepted instruction meets (R221). -/
def Wave.ty (w : Wave) : Ty := w.ty?.getD .i32

/-- A value of v[n], a pair under a 64-bit width class. -/
def Wave.val (w : Wave) (n l : Nat) : Nat :=
  if w.vcount = 2 then (w.v64 n l).toNat else (w.v n l).toNat

/-- A value read through a permute selector (R167). -/
def Wave.valP (w : Wave) (p : Sel) (n l : Nat) : Nat := w.val n (w.srcLane p l)

/-- The selector of an operand that is never permuted. -/
def selId : Sel := 0

/-- A source operand: register, registers in it, and selector. -/
abbrev Src := Nat × Nat × Sel

/-- The poison that the sources of a lane carry together (R386, R393). -/
def Wave.srcMark (w : Wave) (srcs : List Src) (l : Nat) : Mark :=
  if w.rpoison = [] then Mark.none
  else (srcs.flatMap (fun x => (List.range x.2.1).map (fun i => w.vmark (x.1 + i) (w.srcLane x.2.2 l)))).foldl Mark.join Mark.none

/-- Marks on the registers d to d + n − 1 of the active lanes. -/
def Wave.markTo (w : Wave) (d n : Nat) (f : Nat → Mark) : Wave :=
  if w.rpoison = [] ∧ w.lanes.all (fun l => (f l).origin == 0) then w
  else (List.range n).foldl (fun acc i => acc.markLanes (d + i) w.lanes f) w

/-- A value written to d, a pair when `n` is 2, in the active lanes. -/
def Wave.putVal (w : Wave) (d n : Nat) (f : Nat → Nat) : Wave :=
  if n = 2 then w.vwrite64 d (fun l => dw (f l)) else w.vwrite d (fun l => wd (f l))

/-- The information word of ARITH (R184). -/
def arithInfo (int : Bool) (te cond : Nat) : Dword :=
  dw ((if int then 1024 else 0) + (cond &&& te) * 32 + cond)

/-- The registers an instruction reads, one by one in field order (R327). -/
def singles (rs : List Regs) : List Nat := rs.flatMap (fun r => (List.range r.2).map (r.1 + ·))

/-- The conditions raised in the active lanes. -/
def Wave.conds (w : Wave) (f : Nat → Res) : Nat := w.lanes.foldl (fun acc l => acc ||| (f l).2) 0

/-- An enabled condition parks the wave at the instruction, which has issued (R184). -/
def State.parkArith (s : State) (i : Instr) (int : Bool) (f : Nat → Res) : State :=
  let w := s.curWave
  s.parkWave s.cur
    { cls := 9, faddr := dw (maskOf w.width (fun l => w.active l && (f l).2 &&& w.te != 0)),
      finfo := arithInfo int w.te (w.conds f), pre := false, pc := w.pc - 4, iword := encode i, npc := w.pc, ahead := 0,
      unf := w.activeMask, gmode := w.gmode, vas := [], srcs := w.capture (singles (i.opnds w).rd), status := 0 }

/-- Results written to the active lanes, or the trap in place of the write (R222). -/
def State.laneWrite (s : State) (i : Instr) (d n : Nat) (srcs : List Src) (f : Nat → Res) : State :=
  let w := s.curWave
  if w.conds f &&& w.te ≠ 0 then s.parkArith i false f
  else s.setCur ((w.putVal d n (fun l => (f l).1)).markTo d n (w.srcMark srcs))

/-- A lane instruction. -/
def State.laneOp (s : State) (i : Instr) (d n : Nat) (srcs : List Src) (f : Wave → Nat → Res) :
    Host.Outcome State Fault Refusal :=
  s.issue i (fun t => t.laneWrite i d n srcs (f t.curWave))

/-- A function of elements applied to every element of a value (R173). -/
def byElems (t : Ty) (f : Nat → Nat → Nat → Res) (a b c : Nat) : Res :=
  (List.range t.elems).foldl (fun acc i =>
    (acc.1 + (f (bits a (t.elem * i) t.elem) (bits b (t.elem * i) t.elem) (bits c (t.elem * i) t.elem)).1 %
        2 ^ t.elem * 2 ^ (t.elem * i),
     acc.2 ||| (f (bits a (t.elem * i) t.elem) (bits b (t.elem * i) t.elem) (bits c (t.elem * i) t.elem)).2)) (0, 0)

/-- Three-operand instruction of elements: A and B through their selectors. -/
def State.elems3 (s : State) (i : Instr) (d : Reg) (p : Sel) (a : Reg) (q : Sel) (b : Reg)
    (f : Ty → Nat → Nat → Res) : Host.Outcome State Fault Refusal :=
  s.laneOp i d s.curWave.vcount [(a, s.curWave.vcount, p), (b, s.curWave.vcount, q)]
    (fun w l => byElems w.ty (fun x y _ => f w.ty x y) (w.valP p a l) (w.valP q b l) 0)

/-- One-source instruction of elements. -/
def State.elems2 (s : State) (i : Instr) (d : Reg) (p : Sel) (a : Reg) (f : Ty → Nat → Res) :
    Host.Outcome State Fault Refusal :=
  s.laneOp i d s.curWave.vcount [(a, s.curWave.vcount, p)]
    (fun w l => byElems w.ty (fun x _ _ => f w.ty x) (w.valP p a l) 0 0)

/-- Four-operand instruction of elements: A through its selector. -/
def State.elems4 (s : State) (i : Instr) (d a b c : Reg) (p : Sel) (f : Ty → Nat → Nat → Nat → Res) :
    Host.Outcome State Fault Refusal :=
  s.laneOp i d s.curWave.vcount [(a, s.curWave.vcount, p), (b, s.curWave.vcount, selId), (c, s.curWave.vcount, selId)]
    (fun w l => byElems w.ty (f w.ty) (w.valP p a l) (w.val b l) (w.val c l))

/-- Instruction on the whole value of the width class. -/
def State.whole3 (s : State) (i : Instr) (d : Reg) (p : Sel) (a : Reg) (q : Sel) (b : Reg) (f : Nat → Nat → Nat) :
    Host.Outcome State Fault Refusal :=
  s.laneOp i d s.curWave.vcount [(a, s.curWave.vcount, p), (b, s.curWave.vcount, q)]
    (fun w l => plain (f (w.valP p a l) (w.valP q b l)))

/-- The reading of an element by signedness. -/
def elemInt (t : Ty) (x : Nat) : Int := if t.signed then toSigned t.elem x else (x % 2 ^ t.elem : Nat)

/-- Range of an integer type (R172). -/
def tyLo (t : Ty) : Int := if t.signed then -((2 ^ (t.elem - 1) : Nat) : Int) else 0

def tyHi (t : Ty) : Int := if t.signed then (2 ^ (t.elem - 1) : Nat) - 1 else (2 ^ t.elem : Nat) - 1

/-- An exact value clamped to a range. -/
def clampInt (lo hi x : Int) : Int := if x < lo then lo else if x > hi then hi else x

/-- The wave's mask k[kd] with new bits in the active lanes (R230). -/
def Wave.kbits (w : Wave) (kd : Nat) (f : Nat → Bool) : Wave :=
  w.kwrite kd (dw (maskOf w.width (fun l => if w.active l then f l else bitOf (w.kread kd) l)))

end Sys2Proof.Machine
end

