-- ==== Sys2Proof/Machine/Onchip.lean ====
section
/-! DEFINITION. On-chip memory: the regions of a core's window (04/R103, R104, 07/R152, R153), the current and the
shadow half (04/R106), granules that matrix operations have registered (11/R278), window accesses, and local addresses
(07/R161, R162). -/

namespace Sys2Proof.Machine

/-! ## Kitty reservations (R381) -/

/-- A core under test takes no workgroup (R438). -/
def State.underScan (s : State) (core : Nat) : Bool :=
  ((Sparse.find s.scans (dieOfCore core)).map (fun x => x.core == core)).getD false

/-- The core that holds kitty context i of a die: where its handler runs, else the lowest one in the map at or above its
index that is not under test (R381, R438). -/
def State.kittyCore (s : State) (die i : Nat) : Nat :=
  let c0 := 128 * die + 4 * (i % 32) + 2 * (i / 32)
  match s.wgs.find? (fun (e : Nat × Workgroup) => e.2.kittyIx == some i && dieOfCore e.2.core == die) with
  | some e => e.2.core
  | none => (((List.range 128).map (c0 + ·)).find? (fun c => s.coreIn c && !s.underScan c)).getD c0

/-- The kitty contexts that a core holds. -/
def State.kittyOn (s : State) (core : Nat) : List Nat :=
  (List.range (fld (s.csrGet 0x380 (dieOfCore core)) 8 8)).filter (fun i => s.kittyCore (dieOfCore core) i == core)

/-- Bytes of a kitty context's local store. -/
def State.kittyBytes (s : State) (die : Nat) : Nat := fld (s.csrGet 0x380 die) 0 4 * 65536

/-- The first local-store byte of kitty context i: reservations stand at the top of local store (log 15). -/
def State.kittyBase (s : State) (die i : Nat) : Nat :=
  0x180000 - (((s.kittyOn (s.kittyCore die i)).findIdx (· == i)) + 1) * s.kittyBytes die

/-- The first local-store byte of a core's kitty reservations (log 15). -/
def State.reservedFrom (s : State) (core : Nat) : Nat :=
  0x180000 - (s.kittyOn core).length * s.kittyBytes (dieOfCore core)

/-- Whether a byte of local store lies in a kitty reservation or in a granule of a guest image. -/
def State.unlaunched (s : State) (core off : Nat) : Bool :=
  decide (off ≥ s.reservedFrom core) || (Sparse.get [] s.guests core).contains (off / 4096 * 4096)

/-! ## Scratchpad (R106, R152) -/

/-- The local-store byte of scratchpad offset o, in the current or the shadow half. -/
def Workgroup.at (g : Workgroup) (shadow : Bool) (o : Nat) : Nat :=
  if o < g.s then g.spb + (if g.cur != shadow then g.s else 0) + o else g.spb + g.s + o

/-- The physical address of a wave's scratchpad offset. -/
def Workgroup.pa (g : Workgroup) (shadow : Bool) (o : Nat) : Nat := winBase g.core + g.at shadow o

/-! ## Registered granules (R267, R278) -/

/-- Record bytes of a format code. -/
def recBytes (code : Nat) : Nat := 16 * planesOf code

/-- Bytes read of an A record: the first p planes of a BPN record (R267). -/
def recRead (mx : Nat) : Nat := if mx / 16 ≥ 8 ∧ mx % 16 ≠ 0 then 16 * (mx % 16) else recBytes (mx / 16)

/-- C of a matrix instruction. -/
def MatOp.chunks (m : MatOp) : Nat := m.xf % 16 + 1

/-- Rows of an operation. -/
def MatOp.rowList (m : MatOp) : List Nat := (List.range 8).filter (fun j => m.rows / 2 ^ j % 2 == 1)

/-- The format code that PLNW and PLNR use. -/
def MatOp.plnCode (m : MatOp) : Nat := if m.ff % 2 = 1 then m.mxb / 16 else m.mxa / 16

/-- Bytes of an element in element layout (R273). -/
def elemBytes (code : Nat) : Nat := if code = 2 then 2 else 1

/-- The record stride of PLNW and PLNR (R273). -/
def MatOp.plnStride (m : MatOp) : Nat :=
  if m.ff % 2 = 1 then 32 * recBytes m.plnCode else recBytes m.plnCode

/-- Scratchpad ranges that chunk c of an operation reads (R267, R270 to R274). -/
def MatOp.chunkReads (m : MatOp) (c : Nat) : List (Nat × Nat) :=
  let ra := recBytes (m.mxa / 16)
  let rb := recBytes (m.mxb / 16)
  match m.kind with
  | .mma => m.rowList.map (fun j => (m.aoff.getD j 0 + c * ra, recRead m.mxa)) ++ [(m.boff + 32 * c * rb, 32 * rb)]
  | .mmas =>
    m.rowList.flatMap (fun j => [(m.aoff.getD j 0 + c * (ra + 32), recRead m.mxa), (m.aoff.getD j 0 + c * (ra + 32) + ra, 32)]) ++
      [(m.boff + 64 * c * rb, 64 * rb)]
  | .mmab =>
    m.rowList.map (fun j => (m.aoff.getD j 0 + c * ra, recRead m.mxa)) ++ [(m.boff + 32 * c * rb, 32 * rb)] ++
      m.rowList.map (fun j => (m.asoff.getD j 0 + 4 * c, 4)) ++
      (List.range 32).map (fun j => (m.bsoff + 4 * m.chunks * j + 4 * c, 4))
  | .comp => m.rowList.map (fun j => (m.aoff.getD j 0 + 2 * c * ra, 2 * ra))
  | .plnw => m.rowList.map (fun j =>
      (m.aoff.getD j 0 + 128 * elemBytes m.plnCode * c, 128 * elemBytes m.plnCode))
  | .plnr => m.rowList.map (fun j => (m.aoff.getD j 0 + c * m.plnStride, recBytes m.plnCode))
  | .accld => if c = 0 then [(m.aoff.getD 0 0, 4096)] else []
  | _ => []

/-- The local-store byte of a scratchpad offset in the half that was current when an operation was issued (R107). -/
def MatOp.at (m : MatOp) (g : Workgroup) (o : Nat) : Nat := if o < g.s then g.spb + m.base + o else g.spb + g.s + o

/-- A range of scratchpad cut where the shadowed range ends: its parts lie in one piece of local store each (R106). -/
def Workgroup.pieces (g : Workgroup) (r : Nat × Nat) : List (Nat × Nat) :=
  if r.1 < g.s ∧ g.s < r.1 + r.2 then [(r.1, g.s - r.1), (g.s, r.1 + r.2 - g.s)] else [r]

/-- Whether an operation that is not parked has still to read a granule; an engine stopped for a save has released its
registrations (R284). -/
def State.opReads (s : State) (m : MatOp) (gran : Nat) : Bool :=
  match s.wg m.wg with
  | none => false
  | some g => !m.parked && !(s.engine g.core).stop && (List.range m.chunks).any (fun c => decide (m.nextc ≤ c) &&
      ((m.chunkReads c).flatMap g.pieces).any (fun r =>
        decide (m.at g r.1 / 16 ≤ gran) && decide (gran ≤ m.at g (r.1 + r.2 - 1) / 16)))

/-- Whether any of `n` local-store bytes of a core lies in a registered granule. -/
def State.registered (s : State) (core off n : Nat) : Bool :=
  if (s.engine core).ops = [] then false
  else (List.range ((off + n - 1) / 16 - off / 16 + 1)).any (fun i =>
    (s.engine core).ops.any (fun m => s.opReads m (off / 16 + i)))

/-- Tiles that an operation reads or writes. -/
def MatOp.tiles (m : MatOp) : List Nat :=
  match m.kind with
  | .comp => []
  | .plnw => []
  | .plnr => []
  | .accz => (List.range (m.xf + 1)).map (m.tile + ·)
  | .mma => [m.tile + m.oct / 4]
  | .mmas => [m.tile + m.oct / 4]
  | .mmab => [m.tile + m.oct / 4]
  | _ => [m.tile]

/-- Whether an operation that is not parked has still to work on a tile (R105). -/
def State.tileBusy (s : State) (core t : Nat) : Bool :=
  (s.engine core).ops.any (fun m => !m.parked && m.tiles.contains t)

/-! ## Regions of a window (R103, R104) -/

/-- What a byte of local store belongs to. -/
inductive Area where
  | reg (wave j byte : Nat)      -- byte of logical register j's row
  | pad (g o : Nat)              -- scratchpad offset of a workgroup
  | lost                         -- reads as zero, writes discarded
  | plain                        -- bytes as local store holds them
  deriving DecidableEq, Repr

/-- A register that segment slot `k` holds (R153). -/
def Wave.slotReg (w : Wave) (k : Nat) : Option Nat :=
  let j := w.lo + (k + w.seg - w.lo % w.seg) % w.seg
  if j < w.hi then some j else none

/-- The byte of a wave's segment that a local-store byte holds, its granules taken in order. -/
def Wave.segByte (w : Wave) (off : Nat) : Option Nat :=
  if !w.hasSeg ∨ w.status = .empty then none
  else match w.segGran.findIdx? (fun g => decide (g ≤ off) && decide (off < g + 4096)) with
    | none => none
    | some i =>
      let x := 4096 * i + off % 4096
      if w.segBase ≤ x ∧ x < w.segBase + w.seg * 4 * w.width then some (x - w.segBase) else none

/-- The region of a byte of a core's local store. -/
def State.regionOf (s : State) (core off : Nat) : Area :=
  match s.waves.findSome? (fun e => if coreOfWave e.1 = core then (e.2.segByte off).map (fun b => (e.1, e.2, b)) else none) with
  | some (id, w, b) =>
    (match w.slotReg (b / (4 * w.width)) with
     | some j => .reg id j (b % (4 * w.width))
     | none => .plain)
  | none =>
    match s.wgs.find? (fun e => e.2.core == core && decide (e.2.spb ≤ off) &&
        decide (off < e.2.spb + e.2.l + e.2.s)) with
    | some (g, k) =>
      if off < k.spb + k.s then .pad g (off - k.spb)
      else if off < k.spb + 2 * k.s then .lost
      else .pad g (off - k.spb - k.s)
    | none => if s.unlaunched core off then .plain else .lost

/-- A byte of a register's row. -/
def Wave.rowByte (w : Wave) (j b : Nat) : Byte := BitVec.ofNat 8 ((w.lreg j (b / 4)).toNat / 2 ^ (8 * (b % 4)))

/-- A register's row with a byte replaced. -/
def Wave.setRowByte (w : Wave) (j b : Nat) (v : Byte) : Wave :=
  w.lwrite j (fun l => if l = b / 4 then
    some (wd ((w.lreg j l).toNat - (w.rowByte j b).toNat * 2 ^ (8 * (b % 4)) + v.toNat * 2 ^ (8 * (b % 4)))) else none)

/-- A byte read through a core's window; an atomic reads the shadow half of a shadowed range (R104, R299). -/
def State.windowByte (s : State) (core off : Nat) (shadow : Bool) : Byte :=
  if off ≥ 0x180000 then s.byte (winBase core + off)
  else match s.regionOf core off with
    | .reg id j b => (s.wave id).rowByte j b
    | .pad g o => ((s.wg g).map (fun k => s.byte (k.pa shadow o))).getD 0
    | .lost => 0
    | .plain => s.byte (winBase core + off)

/-- Where a window write lands: the physical address of local store, none where it does not land there. -/
def State.landsAt (s : State) (core off : Nat) : Option Nat :=
  if off ≥ 0x180000 then some (winBase core + off)
  else match s.regionOf core off with
    | .reg _ _ _ => none
    | .pad g o => (s.wg g).map (fun k => k.pa true o)
    | .lost => none
    | .plain => some (winBase core + off)

/-- A byte written through a core's window; a register written so is tagged plain (R164). -/
def State.windowSet (s : State) (core off : Nat) (v : Byte) : State :=
  match (if off ≥ 0x180000 then Area.plain else s.regionOf core off) with
  | .reg id j b => s.modLive id (fun w => (w.setRowByte j b v).setTag j .plain)
  | .pad g o => ((s.wg g).map (fun k => s.setByte (k.pa true o) v)).getD s
  | .lost => s
  | .plain => s.setByte (winBase core + off) v

/-- The poison that a window read meets in one word; an atomic's is that of the shadow half (R299, R386). -/
def State.windowMark (s : State) (core off n : Nat) (shadow : Bool) : Mark :=
  if off ≥ 0x180000 then s.markIn (winBase core + off) n
  else match s.regionOf core off with
    | .reg id j b => (s.wave id).lmark j (b / 4)
    | .pad g o => ((s.wg g).map (fun k => s.markIn (k.pa shadow o) n)).getD Mark.none
    | .lost => Mark.none
    | .plain => s.markIn (winBase core + off) n

/-- The poison that a window read meets, word by word (R386). -/
def State.windowMarks (s : State) (core off n : Nat) (raw shadow : Bool) : List Mark :=
  (List.range (Nat.max 1 (n / 4))).map (fun i =>
    if raw then s.markIn (winBase core + off + 4 * i) (Nat.min 4 n) else s.windowMark core (off + 4 * i) (Nat.min 4 n) shadow)

/-- The mark of a register word that a window write covers whole goes; a partial write leaves it (R385). -/
def State.windowClean (s : State) (core off n : Nat) : State :=
  (List.range (n / 4 + 1)).foldl (fun acc i =>
    let o := (off + 3) / 4 * 4 + 4 * i
    if o + 4 > off + n ∨ o ≥ 0x180000 then acc
    else match acc.regionOf core o with
      | .reg id j b => acc.modLive id (fun w => w.setLmark j (b / 4) Mark.none)
      | _ => acc) s

/-- The local-store bytes of its core that a write or an atomic changes. -/
def State.landing (s : State) (a : WindowAccess) : List Nat :=
  let core := (a.pa - 0x10000000000) / 0x200000
  let off := a.pa % 0x200000
  if a.bytes = [] ∧ a.atom.isNone then []
  else
    let offs := if a.bytes = [] then List.range a.size else a.bytes.map (·.1)
    if a.raw then offs.map (off + ·)
    else offs.filterMap (fun o => (s.landsAt core (off + o)).map (· % 0x200000))

/-- Whether bytes of a core's local store may not be written yet: one lies in a registered granule, or a write that is held has
still to change one, for writes are performed in the order they came (R278). -/
def State.blocked (s : State) (core : Nat) (ps : List Nat) : Bool :=
  if (s.engine core).ops = [] ∧ (s.engine core).held = [] then false
  else ps.any (fun p => s.registered core p 1) || (s.engine core).held.any (fun b => (s.landing b).any ps.contains)

/-- Whether a window access waits: a write meets a registered granule or a held write, or a tile is in use (R105, R278). -/
def State.windowWaits (s : State) (a : WindowAccess) : Bool :=
  let core := (a.pa - 0x10000000000) / 0x200000
  if a.pa % 0x200000 ≥ 0x180000 then s.tileBusy core ((a.pa % 0x200000 - 0x180000) / 4096)
  else s.blocked core (s.landing a)

/-- The marks of on-chip words of which every byte has been written go (R385). -/
def State.wipeWords (s : State) (ps : List Nat) : State :=
  if s.poison = [] then s
  else ps.foldl (fun acc p =>
    if p % 4 = 0 ∧ (List.range 4).all (fun i => ps.contains (p + i)) then acc.cleanse p 4 else acc) s

/-- Bytes at offsets written through a window. -/
def State.windowPut (s : State) (core off : Nat) (raw : Bool) (bs : List (Nat × Byte)) : State :=
  bs.foldl (fun acc e =>
    if raw then acc.setByte (winBase core + off + e.1) e.2 else acc.windowSet core (off + e.1) e.2) s

/-- Bytes at offsets written through a window, the marks of the words they cover whole cleared (R385). -/
def State.windowWrite (s : State) (core off : Nat) (raw : Bool) (bs : List (Nat × Byte)) : State :=
  let ps := if raw then bs.map (fun e => winBase core + off + e.1) else bs.filterMap (fun e => s.landsAt core (off + e.1))
  let t := (s.windowPut core off raw bs).wipeWords ps
  if raw then t else t.windowClean core off bs.length

def State.windowRead (s : State) (core off n : Nat) (raw shadow : Bool) : List Byte :=
  (List.range n).map (fun i => if raw then s.byte (winBase core + off + i) else s.windowByte core (off + i) shadow)

/-! ## Atomics (R297, R298) -/

/-- The environment of AFADD. -/
def addEnv : Env := { rm := 0, dn := 0, nanp := 0, lgy := 0 }

/-- What an atomic stores. -/
def atomEval (a : Atom) (old : Nat) : Nat :=
  let e := if a.ty.elem = 64 then 64 else 32
  let d := a.data.toNat % 2 ^ e
  let x := old % 2 ^ e
  let lt := if a.ty.signed then decide (toSigned e x < toSigned e d) else decide (x < d)
  match a.op with
  | .add => (x + d) % 2 ^ e
  | .min => if lt then x else d
  | .max => if lt then d else x
  | .and => x &&& d
  | .or => x ||| d
  | .xor => x ^^^ d
  | .xchg => d
  | .cas => if x = a.cmp.toNat % 2 ^ e then d else x
  | .inc => if x ≥ d then 0 else x + 1
  | .fadd => (byElems a.ty (fun p q _ => fAdd (fmtOf a.ty) addEnv p q) x d 0).1

/-- Bytes of an atomic's operand. -/
def atomBytes (a : Atom) : Nat := if a.ty.elem = 64 then 8 else 4

/-! ## Local addresses (R161, R162, R294) -/

/-- What a local address of a lane reaches. -/
inductive LocalAt where
  | pad (o : Nat)
  | alias_ (j l : Nat)
  | bad
  deriving DecidableEq, Repr

/-- A local address under R161. -/
def localAt (w : Wave) (len a n : Nat) : LocalAt :=
  if a < 0x100000 then (if a + n ≤ len then .pad a else .bad)
  else if a < 0x180000 then
    (if n = 4 ∧ a % 4 = 0 then .alias_ ((a - 0x100000) / (4 * w.width)) ((a - 0x100000) % (4 * w.width) / 4) else .bad)
  else .bad

/-- Whether an LDL or STL has an active lane in the alias (R162). -/
def Wave.aliased (w : Wave) (a : Nat) : Bool :=
  w.lanes.any (fun l => decide (0x100000 ≤ (w.v a l).toNat) && decide ((w.v a l).toNat < 0x180000))

/-- The backing area reached for every alias lane below the span, before the instruction issues: one that is not reached parks
the wave with SPILL, for R158's fills and spills, though R161 gives the alias cases themselves no fault (R158, R161; log 113). -/
def State.aliasReach (s : State) (a n : Nat) (k : Access) : List Nat → Move
  | [] => .ok s
  | l :: r =>
    match localAt s.curWave 0 (s.curWave.v a l).toNat n with
    | .alias_ j t =>
      if j < s.curWave.lo then
        (match s.reach (coreOfWave s.cur) s.curWave.ctx s.curWave.sys k 7 (s.curWave.backAt j + dw (4 * t)) with
         | .ok _ leaf => (s.setAD (coreOfWave s.cur) leaf k.writes).aliasReach a n k r
         | x => x.stop s (s.curWave.backAt j + dw (4 * t)))
      else s.aliasReach a n k r
    | _ => s.aliasReach a n k r

/-- The physical address of a spilled register's lane. -/
def State.backPlace (s : State) (core : Nat) (w : Wave) (j l : Nat) : Option Nat :=
  match s.reach core w.ctx w.sys .load 7 (w.backAt j + dw (4 * l)) with
  | .ok p _ => some p
  | _ => none

/-- The poison of scratchpad bytes of the current half, word by word (R386). -/
def State.padMarks (s : State) (g : Workgroup) (p n : Nat) : List Mark :=
  if s.poison = [] then []
  else (List.range (Nat.max 1 (n / 4))).map (fun i =>
    ((List.range (Nat.min 4 n)).map (fun b => s.mark (g.pa false (p + 4 * i + b)))).foldl Mark.join Mark.none)

/-- A lane of LDL; `w` is its wave before any lane landed, whose registers an alias lane reads (R162). -/
def State.localLoad (s : State) (w : Wave) (id n : Nat) (x : LaneOp) : State :=
  let o := (Sparse.find s.ops id).map (·.wave)
  match s.wg w.wg with
  | none => s.doneLanes id [x.lane]
  | some g =>
    match localAt w g.l x.va.toNat n with
    | .pad p =>
      s.landLane id x.lane ((List.range n).map (fun i => s.byte (g.pa false (p + i)))) (s.padMarks g p n)
    | .alias_ j l =>
      if j < w.lo then
        (match s.backPlace (coreOfWave (o.getD 0)) w j l with
         | some p => s.landLane id x.lane (toBytes 4 (s.newestNat (coreOfWave (o.getD 0)) p 4)) [s.mark (s.place p)]
         | none => s.doneLanes id [x.lane])
      else s.landLane id x.lane (toBytes 4 (w.lreg j l).toNat) [w.lmark j l]
    | .bad => s

/-- A lane of STL, each byte in the current half (R106, R294); a write to a registered granule is held (R278). -/
def State.localStore (s : State) (id n : Nat) (x : LaneOp) : State :=
  let wv := ((Sparse.find s.ops id).map (·.wave)).getD 0
  let w := s.wave wv
  match s.wg w.wg with
  | none => s.doneLanes id [x.lane]
  | some g =>
    let done : State → State := fun t => (t.doneLanes id [x.lane]).modLive wv (fun w => w.foldWct t.gt)
    match localAt w g.l x.va.toNat n with
    | .pad p =>
      let a : WindowAccess :=
        { who := .op id, raw := true, pa := g.pa false p, lanes := [x.lane], size := n,
          bytes := (offBytes 0 x.data).map (fun e => (g.pa false (p + e.1) - g.pa false p, e.2)), atom := none }
      if s.blocked g.core (s.landing a) then
        let e := s.engine g.core
        (s.setEngine g.core { e with held := e.held ++ [a] }).modOp id (fun o => o.setPhase [x.lane] .sent)
      else
        done (s.windowWrite g.core (g.at false p) true a.bytes)
    | .alias_ j l =>
      if j < w.lo then
        (match s.backPlace (coreOfWave wv) w j l with
         | some p => done (s.devWrite (coreOfWave wv) p (x.data.take 4))
         | none => done s)
      else done (s.modLive wv (fun w =>
        ((w.lwrite j (fun m => if m = l then some (wd (ofBytes x.data)) else none)).setLmark j l Mark.none).setTag j .plain))
    | .bad => s

end Sys2Proof.Machine
end

