-- ==== Sys2Proof/Machine/Copy.lean ====
section
/-! DEFINITION. The copy engine: issue checks (05/R110 to R113, 12/R306, R307), segments and sectors (05/R109, R114,
R115), barriers (05/R116, R117), completion targets (05/R119 to R121, R126, 12/R308), faulting segments (05/R123). -/

namespace Sys2Proof.Machine

/-! ## Queue words (R318, R321) -/

/-- Whether a package is the own one or named by a valid peer window (R321, R23). -/
def State.reachable (s : State) (p : Nat) : Bool :=
  p == s.pkg || s.csr.any (fun e => decide (0x1000 * 256 ≤ e.1) && decide (e.1 < 0x2000 * 256) && e.1 % 256 == 0 &&
    fld e.2 63 1 == 1 && fld e.2 0 13 == p)

/-- A queue word that breaks neither R318 nor R321. -/
def State.qwOk (s : State) (q : Word) : Bool :=
  bits q.toNat 22 10 == 0 && bits q.toNat 6 1 == 0 && (bits q.toNat 20 1 == 0 || bits q.toNat 21 1 == 1) &&
    (bits q.toNat 21 1 == 1 || s.reachable (bits q.toNat 7 13))

/-- The package that a queue word names. -/
def State.qwPkg (s : State) (q : Word) : Nat := if bits q.toNat 21 1 = 1 then s.pkg else bits q.toNat 7 13

/-- The die that a queue word names, from a die. -/
def qwDie (q : Word) (die : Nat) : Nat := if bits q.toNat 20 1 = 1 then die else bits q.toNat 4 2

/-! ## Shapes and sectors (R112, R114) -/

def shapeRows (x : Dword) : Nat := fld x 52 12
def shapeRow (x : Dword) : Nat := 16 * fld x 40 12
def shapeSrc (x : Dword) : Nat := 16 * fld x 20 20
def shapeDst (x : Dword) : Nat := 16 * fld x 0 20

/-- Where stream byte b lies from the source's or the destination's first byte. -/
def streamOff (x : Dword) (stride b : Nat) : Nat :=
  if shapeRow x = 0 then 0 else stride * (b / shapeRow x) + b % shapeRow x

/-- The bytes that a shape spans from its first byte. -/
def spanOf (x : Dword) (stride : Nat) : Nat :=
  if shapeRows x = 0 ∨ shapeRow x = 0 then 0 else stride * (shapeRows x - 1) + shapeRow x

def Copy.key (core slot : Nat) : Nat := core * 128 + slot

/-- Segments of a copy. -/
def Copy.nsegs (c : Copy) : Nat := (c.n + 4095) / 4096

/-- Stream bytes of sector j of segment k. -/
def Copy.sectorLen (c : Copy) (k j : Nat) : Nat := Nat.min 32 (c.n - (4096 * k + 32 * j))

/-- Sectors of segment k. -/
def Copy.nsectors (c : Copy) (k : Nat) : Nat := (Nat.min 4096 (c.n - 4096 * k) + 31) / 32

/-- First stream bytes of the 16-byte halves of a sector. -/
def Copy.halves (c : Copy) (k j : Nat) : List Nat :=
  if c.sectorLen k j > 16 then [4096 * k + 32 * j, 4096 * k + 32 * j + 16] else [4096 * k + 32 * j]

def CopyOp.code (o : CopyOp) : Nat :=
  match o with
  | .cpy => 1
  | .cpymc => 2
  | .cpyst => 3
  | .cpyg => 4
  | .cpys => 5
  | .cpyp => 6
  | .cpyq => 7

/-- Whether the source, and whether the destination, is memory (R111). -/
def CopyOp.memSrc (o : CopyOp) : Bool := o != .cpyg && o != .cpys
def CopyOp.memDst (o : CopyOp) : Bool := o == .cpyg || o == .cpyp || o == .cpyq

/-- Whether a copy reports to a copy barrier. -/
def CopyOp.barred (o : CopyOp) : Bool := o != .cpyst && o != .cpyq

/-- The workgroups that receive a copy: its own, or for CPYMC those of the gang that the mask names (R121). -/
def State.targets (s : State) (c : Copy) : List Nat :=
  if c.op = .cpymc then
    (s.wgs.filter (fun e => e.2.gang == c.gang && c.mask / 2 ^ e.2.gangIx % 2 == 1)).map (·.1)
  else [c.wg]

def State.copyOf (s : State) (key : Nat) : Option Copy := Sparse.find s.copies key

def State.modCopyOf (s : State) (key : Nat) (f : Copy → Copy) : State := { s with copies := Sparse.update s.copies key f }

def State.segOf (s : State) (key k : Nat) : Option Seg := (s.copyOf key).bind (fun c => Sparse.find c.segs k)

def State.modSeg (s : State) (key k : Nat) (f : Seg → Seg) : State :=
  s.modCopyOf key (fun c => { c with segs := Sparse.update c.segs k f })

def State.setSector (s : State) (key k j : Nat) (p : SPhase) : State :=
  s.modSeg key k (fun g => { g with sectors := Sparse.update g.sectors j (fun _ => p) })

/-- The scratchpad offset of a destination: for CPYST, an offset in its slot (R119, R306). -/
def State.padDst (s : State) (c : Copy) (g : Seg) : Nat :=
  if c.op = .cpyst then
    ((s.wg c.wg).bind (fun w => Sparse.find w.rings c.ring)).elim 0 (fun r => r.off + c.slotIx * r.sb) + fld g.dst 8 24
  else fld g.dst 0 32

/-! ## Writes that the engine makes on chip (R278) -/

/-- Bytes written at a local-store byte of a core, or held while a matrix operation has still to read their granule;
whether they were held. -/
def State.rawWrite (s : State) (who : Requester) (core off : Nat) (lanes : List Nat) (bs : List Byte) : State × Bool :=
  if s.blocked core ((List.range bs.length).map (off + ·)) then
    let e := s.engine core
    let a : WindowAccess :=
      { who := who, raw := true, pa := winBase core + off, lanes := lanes, size := bs.length, bytes := offBytes 0 bs,
        atom := none }
    (s.setEngine core { e with held := e.held ++ [a] }, true)
  else (((s.write (winBase core + off) bs).cleanse (winBase core + off) bs.length), false)

/-- An atomic add of the engine at a scratchpad word of a workgroup's current half (R116, R117). -/
def State.rawAdd (s : State) (g o v : Nat) : State :=
  match s.wg g with
  | none => s
  | some w =>
    if v = 0 then s
    else if s.blocked w.core ((List.range 4).map (w.at false o + ·)) then
      let e := s.engine w.core
      let a : WindowAccess :=
        { who := .device, raw := true, pa := w.pa false o, lanes := [], size := 4, bytes := [],
          atom := some { op := .add, ty := .n32, data := dw (v % 2 ^ 32), cmp := 0 } }
      s.setEngine w.core { e with held := e.held ++ [a] }
    else s.writeNat (w.pa false o) 4 ((s.readNat (w.pa false o) 4 + v) % 2 ^ 32)

/-- Adds to the barriers of a copy: ARR, KIL, PRK, NCPY. -/
def State.barrierAdd (s : State) (c : Copy) (arr kil prk ncpy : Nat) : State :=
  if c.op.barred then
    (s.targets c).foldl (fun acc g =>
      (((acc.rawAdd g c.bar arr).rawAdd g (c.bar + 4) kil).rawAdd g (c.bar + 8) prk).rawAdd g (c.bar + 12) ncpy) s
  else s

/-! ## Sectors -/

/-- The virtual address of stream byte b at the source or the destination. -/
def Seg.srcVa (g : Seg) (b : Nat) : Dword := g.src + dw (streamOff g.shape (shapeSrc g.shape) b)
def Seg.dstVa (g : Seg) (b : Nat) : Dword := g.dst + dw (streamOff g.shape (shapeDst g.shape) b)

/-- How one half of a sector stands at one side: placed, refused, or missing. -/
def State.halfHit (s : State) (c : Copy) (core : Nat) (f : Frame) (k : Access) (va : Dword) : Hit :=
  s.resolve core c.ctx c.sys f k va none

/-- Attributes as a copy's cache hint changes them (R306). -/
def Copy.policy (c : Copy) (cp : Nat) : Nat :=
  if c.hint = .nl then 3 else if c.hint = .ef ∧ cp ≠ 3 then 1 else cp

/-- The requests of a sector: which sides and halves miss, and the first refusal, if any. -/
def State.sectorCheck (s : State) (key : Nat) (c : Copy) (g : Seg) (k j : Nat) : List Dword × Option (Nat × Nat × Dword) :=
  let core := key / 128
  let hs := c.halves k j
  let rd := if c.op.memSrc then hs.map (fun b => (g.srcVa b, s.halfHit c core c.fsrc .copyRead (g.srcVa b), 4)) else []
  let wr := if c.op.memDst then hs.map (fun b => (g.dstVa b, s.halfHit c core c.fdst .copyWrite (g.dstVa b), 5)) else []
  let all := rd ++ wr
  (all.filterMap (fun x => if x.2.1 = .miss then some x.1 else none),
   all.findSome? (fun x => match x.2.1 with
     | .deny r => some (r, x.2.2, x.1)
     | _ => none))

/-- One half asked of its home or of on-chip memory; `lanes` carries the half and its offset in the line (R57). -/
def State.askHalf (s : State) (key k j h : Nat) (c : Copy) (pa : Nat) (at_ : Attr) : State :=
  let who : Requester := .seg (key / 128) (key % 128) k j
  if targetOf pa = .onchip then
    s.post (.onchipWindowAccess { who := who, raw := false, pa := pa, lanes := [h * 128], size := 16, bytes := [], atom := none })
  else
    s.post (.rdnc { who := who, core := key / 128, line := lineOf pa, lanes := [h * 128 + pa % 128], bytes := [],
                    need := sectorsOf (pa % 128) 16, atom := none, scope := none, cc := at_.cc, cp := c.policy at_.cp,
                    wp := at_.wp, poison := [] })

/-- The write of one half at its home or in on-chip memory. -/
def Copy.writeHalf (key k j h : Nat) (c : Copy) (pa : Nat) (at_ : Attr) (bs : List Byte) : Instr :=
  let who : Requester := .seg (key / 128) (key % 128) k j
  if targetOf pa = .onchip then
    .onchipWindowAccess
      { who := who, raw := false, pa := pa, lanes := [h * 128], size := bs.length, bytes := offBytes 0 bs, atom := none }
  else
    .wrnc { who := who, core := key / 128, line := lineOf pa, lanes := [h * 128],
            bytes := offBytes (pa % 128) bs, need := [], atom := none, scope := none, cc := at_.cc,
            cp := c.policy at_.cp, wp := at_.wp, poison := [] }

/-- The data of a sector written to scratchpad, in every target; each held piece is awaited (R106, R121, R278). -/
def State.landPad (s : State) (key k j : Nat) (c : Copy) (g : Seg) (data : List Byte) : State :=
  let who : Requester := .seg (key / 128) (key % 128) k j
  let pieces := (s.targets c).flatMap (fun t => (c.halves k j).map (fun b => (t, b)))
  let r := pieces.foldl (fun (acc : State × Nat) x =>
    match acc.1.wg x.1 with
    | none => acc
    | some w =>
      let o := w.at true (acc.1.padDst c g + streamOff g.shape (shapeDst g.shape) x.2)
      let y := acc.1.rawWrite who w.core o [0] ((data.drop (x.2 - (4096 * k + 32 * j))).take 16)
      (y.1, acc.2 + (if y.2 then 1 else 0))) (s, 0)
  r.1.setSector key k j (if r.2 = 0 then .landed else .writing r.2 [])

/-- Whether the home would refuse a write as things stand: a FAULT row, or a peer package out of reach (R71, R384). -/
def State.wouldRefuse (s : State) (core pa cc : Nat) : Option (Nat × Dword) :=
  if targetOf pa = .peer then
    (if s.gtLocked && !s.routes (dieOfCore core) ((s.peerPkg pa).getD 0) then some (12, linkInfo 2 ((s.peerPkg pa).getD 0) 1) else none)
  else if cc = 0 ∨ targetOf pa ≠ .hbm then none
  else
    let h := s.homeOf core (lineOf pa)
    let t := if cc = 2 then 0 else ((s.rangeOf pa).map (fun e => fld e.1 8 3)).getD 0
    let st := ((((s.slice h).lines.find? (fun l => l.line == lineOf pa))).map (·.state)).getD 0
    if t ≠ 0 ∧ fld (((Sparse.find s.tables t).map (fun x => x.rows.getD (16 * st + 3) 0)).getD 0) 31 1 = 1 then
      some (6, accessInfo 0x11 0 0 5 15)
    else none

/-- Whether a write at an address may meet a completion timeout (R384). -/
def mayTimeOut (pa : Nat) : Bool := targetOf pa == .host || targetOf pa == .peer

/-- The data of a sector sent to its memory destination: in one write where its halves lie together in one line. A
sector that a home would refuse in one half is written in neither, and a half that may meet a timeout is sent before one that
may not (R115; log 107). Where the translation has gone meanwhile the sector begins again. -/
def State.landMem (s : State) (key k j : Nat) (c : Copy) (g : Seg) (data : List Byte) : State :=
  let hs := c.halves k j
  let core := key / 128
  let hits := hs.map (fun b => (b, s.halfHit c core c.fdst .copyWrite (g.dstVa b)))
  let misses := hits.filterMap (fun x => if x.2 = .miss then some (pageOf (g.dstVa x.1)) else none)
  let refused := hits.findSome? (fun x => match x.2 with
    | .deny r => some (x.1, 6, accessInfo r 0 0 5 15)
    | .ok pa a => (s.wouldRefuse core pa a.cc).map (fun r => (x.1, r.1, r.2))
    | .miss => none)
  if misses ≠ [] then
    misses.foldl (fun acc p => acc.askWalk (clusterOfCore core) c.ctx p) (s.setSector key k j .wait)
  else match refused with
    | some (b, cls, info) => s.setSector key k j (.fail cls info (g.dstVa b) none)
    | none =>
      let placed : List (Nat × Nat × Attr) := hits.zipIdx.filterMap (fun x => match x.1.2 with
        | .ok pa a => some (x.2, pa, a)
        | _ => none)
      let t := placed.foldl (fun acc x => acc.touchLeaf core .copyWrite x.2.2) s
      let all := placed.map (fun x => (mayTimeOut x.2.1, Copy.writeHalf key k j x.1 c x.2.1 x.2.2 ((data.drop (16 * x.1)).take 16)))
      let apart : List Instr × List Instr :=
        if all.any (·.1) then ((all.filter (·.1)).map (·.2), (all.filter (fun x => !x.1)).map (·.2)) else (all.map (·.2), [])
      match placed with
      | [(_, p, a), (_, q, _)] =>
        if q = p + 16 ∧ lineOf q = lineOf p ∧ targetOf p ≠ .onchip then
          (t.post (Copy.writeHalf key k j 0 c p a (data.take 32))).setSector key k j (.writing 1 [])
        else (t.postAll apart.1).setSector key k j (.writing apart.1.length apart.2)
      | _ => (t.postAll apart.1).setSector key k j (.writing apart.1.length apart.2)

/-- The poisoned sector of a clean L2 line dropped: the next miss fetches it again (R389). -/
def State.dropClean (s : State) (m : Mark) : State :=
  { s with poison := s.poison.filter (fun e => !(e.2.origin == 3 && e.1 == granule m.addr)) }

/-- A sector whose bytes have all been read: it fails where they are poisoned, those of a scratchpad source too, whose read
itself does not fail, else it is written (R115, R387 USE 8, R389; log 58). -/
def State.sectorRead (s : State) (key k j : Nat) (data : List Byte) (m : Mark) : State :=
  match s.copyOf key, s.segOf key k with
  | some c, some g =>
    if m.origin ≠ 0 then
      s.setSector key k j (.fail 10 (eccInfo m.origin 8 false (if g.again.contains j then 1 else 0)) (dw m.addr) none)
    else if c.op.memDst then s.landMem key k j c g data
    else s.landPad key k j c g data
  | _, _ => s

/-- A sector begun: its addresses checked on both sides, then its bytes read (R115). -/
def State.trySector (s : State) (key k j : Nat) : State :=
  match s.copyOf key, s.segOf key k with
  | some c, some g =>
    let q := s.sectorCheck key c g k j
    if q.1 ≠ [] then q.1.foldl (fun acc va => acc.askWalk (clusterOfCore (key / 128)) c.ctx (pageOf va)) s
    else match q.2 with
      | some (r, code, va) => s.setSector key k j (.fail 6 (accessInfo r 0 0 code 15) va none)
      | none =>
        let hs := c.halves k j
        if c.op.memSrc then
          (hs.zipIdx.foldl (fun acc x =>
            match acc.halfHit c (key / 128) c.fsrc .copyRead (g.srcVa x.1) with
            | .ok pa a => (acc.touchLeaf (key / 128) .copyRead a).askHalf key k j x.2 c pa a
            | _ => acc) s).setSector key k j (.reading [] [] hs.length)
        else
          match s.wg c.wg with
          | none => s.setSector key k j .landed
          | some w =>
            let at_ : Nat → Nat := fun b => w.pa false (fld g.src 0 32 + streamOff g.shape (shapeSrc g.shape) b)
            s.sectorRead key k j (hs.flatMap (fun b => s.read (at_ b) 16))
              ((hs.map (fun b => s.markIn (at_ b) 16)).foldl Mark.join Mark.none)
  | _, _ => s

/-- The untranslated sectors of a segment tried. -/
def State.trySeg (s : State) (key k : Nat) : State :=
  match s.segOf key k with
  | some g => (g.sectors.filter (fun e => decide (e.2 = .wait))).foldl (fun acc e => acc.trySector key k e.1) s
  | none => s

/-- Bytes read for a half of a sector arrive. Once all are in, the poisoned sectors of clean L2 lines among them are dropped,
and the sector is read once more (R389). -/
def State.segRead (s : State) (key k j h : Nat) (bs : List Byte) (m : Mark) : State :=
  match (s.segOf key k).bind (fun g => Sparse.find g.sectors j) with
  | some (.reading got marks left) =>
    let got' := got ++ (offBytes (16 * h) bs)
    let ms := marks ++ [m]
    if left > 1 then s.setSector key k j (.reading got' ms (left - 1))
    else if ms.any (fun x => x.origin == 3) && !(((s.segOf key k).map (·.again)).getD []).contains j then
      ((((ms.filter (fun x => x.origin == 3)).foldl (fun acc x => acc.dropClean x) s).modSeg key k (fun g =>
        { g with again := g.again ++ [j] })).setSector key k j .wait).trySector key k j
    else
      s.sectorRead key k j ((List.range got'.length).map (fun i => Sparse.get 0 (got'.filter (fun e => e.1 = i)) i))
        (ms.foldl Mark.join Mark.none)
  | _ => s

/-- A write of a sector has been performed, with its WCT; then the writes that have waited for it go out. -/
def State.segWrote (s : State) (key k j wct : Nat) : State :=
  match (s.segOf key k).bind (fun g => Sparse.find g.sectors j) with
  | some (.writing left rest) =>
    let t := { (s.modSeg key k (fun g => { g with wct := Nat.max g.wct wct })) with ewct := Nat.max s.ewct wct }
    if left > 1 then t.setSector key k j (.writing (left - 1) rest)
    else if rest = [] then t.setSector key k j .landed
    else (t.postAll rest).setSector key k j (.writing rest.length [])
  | _ => s

/-- A request of a sector was refused or not answered: half `h` of it, read or written, or a CPYQ's record (R71, R123,
R308, R384). -/
def State.segFail (s : State) (key k j h : Nat) (wr : Bool) (cls : Nat) (finfo : Dword) : State :=
  match s.copyOf key, s.segOf key k with
  | some c, some g =>
    let b := 4096 * k + 32 * j + 16 * h
    s.setSector key k j (.fail cls finfo (if g.push ≠ 0 then c.recVA else if wr then g.dstVa b else g.srcVa b) none)
  | _, _ => s

/-! ## Segments (R109, R117, R123) -/

/-- Segments of a copy in flight. -/
def Copy.flying (c : Copy) : Nat := (c.segs.filter (fun e => !e.2.parked)).length

/-- Whether PRECTL stops the copies of a copy's context, its workgroup being in no kitty context (R128, R381). -/
def State.copyHeld (s : State) (core : Nat) (c : Copy) : Bool :=
  !real core || (s.prectl (dieOfCore core) c.ctx && ((s.wg c.wg).map (fun g => g.kittyIx.isNone)).getD true)

/-- The oldest copy of a core with a segment to issue and room for it (R109, R124). -/
def State.nextSeg (s : State) (core : Nat) : Option Nat :=
  let mine := s.copies.filter (fun e => e.1 / 128 == core)
  if (mine.foldl (fun acc e => acc + e.2.flying) 0) ≥ 64 then none
  else
    let ready := mine.filter (fun e => !e.2.stopped && !s.copyHeld core e.2 && decide (e.2.next < e.2.nsegs) && decide (e.2.flying < 4) &&
      !e.2.segs.any (fun x => x.2.parked))
    (ready.foldl (fun (acc : Option (Nat × Nat)) e => match acc with
      | none => some (e.1, e.2.id)
      | some (k, i) => if e.2.id < i then some (e.1, e.2.id) else some (k, i)) none).map (·.1)

/-- The next segment of a copy issued. -/
def State.issueSeg (s : State) (key : Nat) : State :=
  match s.copyOf key with
  | none => s
  | some c =>
    let k := c.next
    let g : Seg :=
      { sectors := (List.range (c.nsectors k)).map (fun j => (j, SPhase.wait)), parked := false, prk := false, landB := 0,
        src := c.src, dst := c.dst, shape := c.shape, push := 0, again := [], wct := 0 }
    ((s.modCopyOf key (fun c => { c with next := k + 1, segs := Sparse.put c.segs k g })).trySeg key k).post
      (.segmentIssue (key / 128))

def execSegmentIssue (core : Nat) (s : State) : Host.Outcome State Fault Refusal :=
  match s.nextSeg core with
  | some key => .next (s.issueSeg key)
  | none => .next s

/-- Whether nothing of a segment is under way, and GT has passed the WCTs of what it wrote (R117). -/
def State.segSettled (s : State) (g : Seg) : Bool :=
  !g.parked && decide (g.push = 0) && (decide (g.wct = 0) || decide (s.gt > g.wct)) &&
    g.sectors.all (fun e => match e.2 with
      | .landed => true
      | .mig _ _ _ => true
      | .fail _ _ _ _ => true
      | _ => false)

/-- Bytes of some sectors. -/
def Copy.bytesOf (c : Copy) (k : Nat) (js : List Nat) : Nat := js.foldl (fun acc j => acc + c.sectorLen k j) 0

/-! ## Completion (R117, R119, R120, R126) -/

/-- A copy that is over leaves its slot; its wave's counter falls, and what waits on it is looked at again. -/
def State.freeCopy (s : State) (key : Nat) (c : Copy) : State :=
  ({ s with copies := Sparse.erase s.copies key }.modLive c.wave (fun w => w.retireOp c.opId)).postAll
    [.segmentIssue (key / 128), .sstepSwap c.gang, .workgroupRetire c.wg]

/-- The slot of a CPYST committed FULL, its FAIL bit set where bytes were abandoned. -/
def State.commitSlot (s : State) (c : Copy) : State :=
  s.modWg c.wg (fun w => { w with rings := Sparse.update w.rings c.ring (fun r =>
    { r with slots := r.slots.zipIdx.map (fun x => if x.2 = c.slotIx then
        { x.1 with state := .full, fail := decide (c.killed > 0), holder := none, cpyst := false } else x.1) }) })

/-- The last step of a CPYQ: its record is read (R120, R308). -/
def State.startPush (s : State) (key : Nat) (c : Copy) : State :=
  let k := c.nsegs - 1
  let g : Seg :=
    { sectors := [(0, .wait)], parked := false, prk := false, landB := c.tail, src := c.src,
      dst := c.dst, shape := c.shape, push := 1, again := [], wct := 0 }
  s.modCopyOf key (fun c => { c with segs := Sparse.put c.segs k g })

/-- The read of a CPYQ's record, tried. -/
def State.tryPush (s : State) (key k : Nat) : State :=
  match s.copyOf key with
  | none => s
  | some c =>
    match s.halfHit c (key / 128) Frame.empty .copyRead c.recVA with
    | .miss => s.askWalk (clusterOfCore (key / 128)) c.ctx (pageOf c.recVA)
    | .deny r => s.setSector key k 0 (.fail 6 (accessInfo r 0 0 4 15) c.recVA none)
    | .ok pa a =>
      let t := (s.touchLeaf (key / 128) .copyRead a).setSector key k 0 (.reading [] [] 1)
      if targetOf pa = .onchip then
        t.post (.onchipWindowAccess { who := .seg (key / 128) (key % 128) k 0, raw := false, pa := pa, lanes := [0], size := 64,
                                      bytes := [], atom := none })
      else t.post
        (.rdnc { who := .seg (key / 128) (key % 128) k 0, core := key / 128, line := lineOf pa, lanes := [pa % 128],
                 bytes := [], need := sectorsOf (pa % 128) 64, atom := none, scope := none, cc := a.cc, cp := a.cp,
                 wp := a.wp, poison := [] })

/-- The record has been read: it is pushed. -/
def State.pushRead (s : State) (key k : Nat) (bs : List Byte) (m : Mark) : State :=
  match s.copyOf key with
  | none => s
  | some c =>
    if m.origin ≠ 0 then s.setSector key k 0 (.fail 10 (eccInfo m.origin 8 false 0) (dw m.addr) none)
    else
      (s.modSeg key k (fun g => { g with push := 2 })).post (.taskPush
        { by_ := .copy (key / 128) (key % 128), words := recordWords bs, qw := c.queue, count := c.dep % 65536,
          failed := decide (c.killed > 0), src := c.recVA, priv := c.sys, die := key / 128 / 128 })

/-- A copy all of whose segments have retired or been resolved completes (R117, R126). -/
def State.copyDone (s : State) (key : Nat) : State :=
  match s.copyOf key with
  | none => s
  | some c =>
    if c.segs ≠ [] ∨ (c.next < c.nsegs ∧ !c.stopped) then s
    else match c.op with
      | .cpyst => (s.commitSlot c).freeCopy key c
      | .cpyq => (s.startPush key c).tryPush key (c.nsegs - 1)
      | _ => (s.barrierAdd c 0 0 0 1).freeCopy key c

def execSegmentRetire (core copy seg : Nat) (s : State) : Host.Outcome State Fault Refusal :=
  let key := Copy.key core copy
  match s.copyOf key, s.segOf key seg with
  | some c, some g =>
    if s.segSettled g && g.sectors.all (fun e => decide (e.2 = .landed)) then
      let n := c.bytesOf seg (g.sectors.map (·.1))
      let s1 := s.modCopyOf key (fun c =>
        { c with segs := Sparse.erase c.segs seg, tail := if seg + 1 = c.nsegs then g.landB + n else c.tail })
      .next (((s1.barrierAdd c n 0 (if g.prk then 2 ^ 32 - n % 2 ^ 32 else 0) 0).copyDone key).post (.segmentIssue core))
    else .refused (.notEnabled "SEGMENT_RETIRE")
  | _, _ => .refused (.notEnabled "SEGMENT_RETIRE")

/-- The number of a segment as a unit. -/
def segUnit (key k : Nat) : Nat := key * 2 ^ 32 + k

/-- The detail area of a segment's record (R123). -/
def Copy.detail (c : Copy) (key k : Nat) (g : Seg) (miss landB : Nat) : List (Nat × Dword) :=
  [(0x600 / 8, dw (c.op.code * 2 ^ 56 + key % 128 * 2 ^ 40 + c.mask * 2 ^ 36 + k)),
   (0x608 / 8, g.src),
   (0x610 / 8, if c.op = .cpyst then dw (c.ring + 256 * fld g.dst 8 24) else g.dst),
   (0x618 / 8, g.shape),
   (0x620 / 8, match c.op with
     | .cpyst => dw (c.slotIx * 256 + c.ring)
     | .cpyq => c.recVA
     | _ => dw c.bar),
   (0x628 / 8, if c.op = .cpyq then dw (c.dep * 2 ^ 32 + c.queue.toNat) else 0),
   (0x630 / 8, dw miss),
   (0x638 / 8, dw (miss / 2 ^ 64)),
   (0x640 / 8, dw landB)]

/-- Whether the record read or the push of a CPYQ's last segment has stopped, on a failure or a migration (R120, R308). -/
def Seg.pushStopped (g : Seg) : Bool :=
  decide (g.push ≠ 0) && !g.parked && g.sectors.any (fun e => match e.2 with
    | .mig _ _ _ => true
    | .fail _ _ _ _ => true
    | _ => false)

/-- The first class among failed sectors, with its information word (R373). -/
def firstFail : List (Nat × SPhase) → Nat × Dword
  | [] => (0, 0)
  | (_, .fail c i _ _) :: _ => (c, i)
  | _ :: r => firstFail r

/-- TAKING A FAULT, for a segment: its record's image goes to be written. -/
def State.parkSeg (s : State) (key k : Nat) (c : Copy) (g : Seg) : State :=
  let bad := g.sectors
  let task := ((s.wg c.wg).map (·.task)).getD 0
  let owner : Wave := { Wave.empty with task := task, sys := c.sys, wid := (s.wave c.wave).wid }
  let classes := bad.filterMap (fun e => match e.2 with
    | .fail n _ _ _ => some n
    | _ => none)
  let va : Dword := match bad.head? with
    | some (_, .fail _ _ v _) => v
    | some (_, .mig _ _ v) => v
    | _ => 0
  let st := s.parkStatus (3, segUnit key k) classes
  let p : ParkInfo :=
    { cls := (firstFail bad).1, faddr := va, finfo := (firstFail bad).2, pre := false, pc := c.pc, iword := c.iword,
      npc := 0, ahead := 0, unf := 0, gmode := 0, vas := [], srcs := [], status := st }
  let miss := if g.push = 0 then bad.foldl (fun acc e => acc + 2 ^ e.1) 0 else 0
  let words := (c.detail key k g miss g.landB).foldl (fun acc e => Sparse.put acc e.1 e.2) (s.headerOf c.wave owner 3 p)
  (s.modSeg key k (fun g => { g with parked := true })).post
    (.recordWritten { die := key / 128 / 128, cluster := clusterOfCore (key / 128), kind := 3, cls := (firstFail bad).1,
                      wave := c.wave, unit := segUnit key k, words := words, marks := [], status := st, entries := [] })

def execSegmentPark (core copy seg : Nat) (s : State) : Host.Outcome State Fault Refusal :=
  let key := Copy.key core copy
  match s.copyOf key, s.segOf key seg with
  | some c, some g =>
    if s.segSettled g && g.sectors.any (fun e => decide (e.2 ≠ .landed)) then
      let good := (g.sectors.filter (fun e => decide (e.2 = .landed))).map (·.1)
      let bad := g.sectors.filter (fun e => decide (e.2 ≠ .landed))
      let n := c.bytesOf seg good
      let m := c.bytesOf seg (bad.map (·.1))
      let s1 := s.barrierAdd c n 0 (if g.prk then 2 ^ 32 - n % 2 ^ 32 else m) 0
      let g1 := { g with sectors := bad, prk := true, landB := g.landB + n }
      .next (((s1.modSeg key seg (fun _ => g1)).parkSeg key seg c g1).post (.segmentIssue core))
    else if g.pushStopped then .next (s.parkSeg key seg c g)
    else .refused (.notEnabled "SEGMENT_PARK")
  | _, _ => .refused (.notEnabled "SEGMENT_PARK")

/-! ## Issue (R110, R113, R306, R307) -/

/-- The operands that a copy reads in the wave that issues it: control registers A to A+3, frames, and what D, the
mask and the hint give. -/
def State.newCopy (s : State) (i : Instr) (op : CopyOp) (d a f g mask ring : Nat) (ch : Hint) : Copy :=
  let w := s.curWave
  let u := w.uniform
  let shape := w.v64 a u
  let off : Nat → Nat → Dword := fun fr n => sext57 (w.frame fr).vbase + (w.v (a + n) u).signExtend 64
  let k := s.wg w.wg
  let gang := (k.map (·.gang)).getD 0
  let dst : Dword := if op = .cpyg then off f 3 else if op.memDst then off g 3 else dw (w.v (a + 3) u).toNat
  let none_ := op = .cpymc ∧ !(s.wgs.any (fun e => e.2.gang == gang && mask / 2 ^ e.2.gangIx % 2 == 1))
  { op := op, id := s.nextId, wave := s.cur, opId := s.nextId, wg := w.wg, gang := gang, ctx := w.ctx, sys := w.sys,
    pc := w.pc, iword := encode i, fsrc := w.frame f, fdst := if op = .cpyg then w.frame f else w.frame g,
    src := if op.memSrc then off f 2 else dw (w.v (a + 2) u).toNat, dst := dst, shape := shape,
    n := if none_ then 0 else shapeRows shape * shapeRow shape, bar := if op.barred then (w.v d u).toNat else 0,
    ring := ring, slotIx := if op = .cpyst then (w.v (a + 3) u).toNat % 8 else 0, mask := mask,
    queue := if op = .cpyq then w.v (d + 2) u else 0, dep := if op = .cpyq then (w.v (d + 3) u).toNat else 0,
    recVA := if op = .cpyq then w.v64 d u else 0, hint := ch, next := 0, segs := [], killed := 0, tail := 0, stopped := false }

/-- The information word of MISALIGN for a copy (R287). -/
def copyInfo (code : Nat) : Dword := dw (0x35 * 2 ^ 56 + code * 2 ^ 48)

/-- The ring that a CPYST names, and the slot of it, where it has one of that index. -/
def State.copyRing (s : State) (c : Copy) : Option Ring := (s.wg c.wg).bind (fun k => Sparse.find k.rings c.ring)

def State.copySlot (s : State) (c : Copy) : Option RingSlot := (s.copyRing c).bind (fun r => r.slots[c.slotIx]?)

/-- The checks of R113 and R307 in their order: class, fault address, information word. -/
def State.copyCheck (s : State) (c : Copy) : Option (Nat × Dword × Dword) :=
  let len := ((s.wg c.wg).map (·.l)).getD 0
  let slotOff := fld c.dst 8 24
  let dstAlign := if c.op = .cpyst then slotOff else c.dst.toNat
  let srcSpan := spanOf c.shape (shapeSrc c.shape)
  let dstSpan := spanOf c.shape (shapeDst c.shape)
  let ring := s.copyRing c
  let padDst : Nat := match ring with
    | some r => r.off + c.slotIx * r.sb + slotOff
    | none => c.dst.toNat
  let dst : Dword := if c.op = .cpyst then dw slotOff else c.dst
  if c.src.toNat % 16 ≠ 0 then some (7, c.src, copyInfo 1)
  else if dstAlign % 16 ≠ 0 then some (7, dst, copyInfo 1)
  else if !c.op.memSrc && c.n != 0 && decide (c.src.toNat + srcSpan > len) then some (7, c.src, copyInfo 2)
  else if !c.op.memDst && c.n != 0 && !(c.op == .cpyst && ring.isNone) && decide (padDst + dstSpan > len) then
    some (7, dst, copyInfo 2)
  else if c.op == .cpyst && ring.any (fun r => decide (c.n > r.sb)) then some (7, dst, copyInfo 3)
  else if c.op == .cpyst && (match s.copySlot c with
      | some x => x.state != .held || x.holder != some c.wave || x.cpyst
      | none => true) then some (7, dst, copyInfo 4)
  else if c.op == .cpyq && !s.qwOk c.queue then some (7, 0, copyInfo 5)
  else if c.op == .cpyq && c.recVA.toNat % 64 != 0 then some (7, c.recVA, copyInfo 6)
  else if c.op.barred && (c.bar % 16 != 0 || decide (c.bar + 16 > len)) then some (7, dw c.bar, copyInfo 7)
  else none

/-- The lowest free slot of a core's copy engine. -/
def State.freeSlot (s : State) (core : Nat) : Option Nat :=
  (List.range 128).find? (fun i => (s.copyOf (Copy.key core i)).isNone)

/-- A copy taken into a slot: counted, its CPYST marked in the ring, its segments to be issued. -/
def State.takeCopy (s : State) (core slot : Nat) (c : Copy) : State :=
  let key := Copy.key core slot
  let s1 := ({ s with copies := Sparse.put s.copies key c, nextId := s.nextId + 1 }).modLive c.wave
    (fun w => w.countUp .c c.opId)
  let s2 := if c.op = .cpyst then
      s1.modWg c.wg (fun k => { k with rings := Sparse.update k.rings c.ring (fun r =>
        { r with slots := r.slots.zipIdx.map (fun x => if x.2 = c.slotIx then { x.1 with cpyst := true } else x.1) }) })
    else s1
  if c.n = 0 then s2.copyDone key else s2.post (.segmentIssue core)

/-- Whether stores of a wave have still to be translated, or to be performed on chip: a copy's first add follows them
(R117). -/
def State.storing (s : State) (id : Nat) : Bool :=
  s.ops.any (fun e => e.2.wave == id && decide (e.2.kind.access = .store) &&
    e.2.lanes.any (fun x => decide (x.phase = .sent) || decide (x.phase = .xlate)))

/-- A copy instruction; without an active lane it takes no slot and does not count (R286). -/
def State.copyInstr (s : State) (i : Instr) (op : CopyOp) (d a f g mask ring : Nat) (ch : Hint) :
    Host.Outcome State Fault Refusal :=
  let core := coreOfWave s.cur
  if s.curWave.lanes = [] then s.issue i (fun t => t)
  else
    s.issueWith i (s.copyCheck (s.newCopy i op d a f g mask ring ch))
      (fun t => if (t.freeSlot core).isNone || t.storing t.cur then .wait t else .ok t)
      (fun t => t.takeCopy core ((t.freeSlot core).getD 0)
        { s.newCopy i op d a f g mask ring ch with id := t.nextId, opId := t.nextId })

def execCpy (d a : Reg) (f : Low) (ch : Hint) (la : Ahead) (s : State) : Host.Outcome State Fault Refusal :=
  s.copyInstr (.cpy d a f ch la) .cpy d a f 0 0 0 ch

def execCpymc (d a : Reg) (f : Low) (mask : BitVec 4) (la : Ahead) (s : State) : Host.Outcome State Fault Refusal :=
  s.copyInstr (.cpymc d a f mask la) .cpymc d a f 0 mask.toNat 0 .dflt

def execCpyst (g : Low) (a : Reg) (f : Low) (ch : Hint) (la : Ahead) (s : State) : Host.Outcome State Fault Refusal :=
  s.copyInstr (.cpyst g a f ch la) .cpyst 0 a f 0 0 g ch

def execCpyg (d a : Reg) (f : Low) (ch : Hint) (la : Ahead) (s : State) : Host.Outcome State Fault Refusal :=
  s.copyInstr (.cpyg d a f ch la) .cpyg d a f 0 0 0 ch

def execCpys (d a : Reg) (la : Ahead) (s : State) : Host.Outcome State Fault Refusal :=
  s.copyInstr (.cpys d a la) .cpys d a 0 0 0 0 .dflt

def execCpyp (d a : Reg) (f g : Low) (ch : Hint) (la : Ahead) (s : State) : Host.Outcome State Fault Refusal :=
  s.copyInstr (.cpyp d a f g ch la) .cpyp d a f g 0 0 ch

def execCpyq (d a : Reg) (f g : Low) (ch : Hint) (la : Ahead) (s : State) : Host.Outcome State Fault Refusal :=
  s.copyInstr (.cpyq d a f g ch la) .cpyq d a f g 0 0 ch

end Sys2Proof.Machine
end

