-- ==== Sys2Proof/Machine/Home.lean ====
section
/-! DEFINITION. Home slices: where a line is at home (04/R94, R95), protocol tables and their rows (03/R64 to R79),
how a row is applied (03/R60, R70), scope recording (03/R83 to R85), allocation, compression and eviction
(04/R97 to R102), peer and host lines (03/R86, R87, R91). -/

namespace Sys2Proof.Machine

/-! ## Rows (R65 to R69) -/

/-- A row present, with its next state, message and action mask (R66). -/
def mkRow (next msg acts : Nat) : Dword := dw (2 ^ 63 + next * 2 ^ 60 + msg * 2 ^ 51 + acts * 2 ^ 16)

/-- Action bit i of a row (R68). -/
def acts (row : Dword) (i : Nat) : Bool := fld row (16 + i) 1 == 1

def rowNext (row : Dword) : Nat := fld row 60 3
def rowMsg (row : Dword) : Nat := fld row 51 5
def rowLease (row : Dword) : Nat := fld row 56 4

/-- Whether a row carries a forwarding action: INVS, UPDS, RECALL, BINV (R68). -/
def forwards (row : Dword) : Bool := acts row 4 || acts row 5 || acts row 6 || acts row 7

/-- A row that does nothing (R77). -/
def emptyRow : Dword := mkRow 0 0 0

/-- The LEASE image (R77), by state and event. -/
def leaseRow (st ev : Nat) : Dword :=
  let live : Nat → Nat → Nat → Dword := fun b nx extra =>
    -- the rows that I, L and HX share, with BINV added for HX
    match ev with
    | 0 => mkRow (if extra = 0 then 1 else nx) 1 (3 + extra)
    | 1 => mkRow nx 5 (1 + extra)
    | 2 => mkRow nx 4 (0x2100 + extra)
    | 3 => mkRow nx 4 (0x2100 + extra)
    | 4 => mkRow nx 5 (0x2200 + extra)
    | 5 => mkRow b 0 0x8000
    | 6 => mkRow b 0 0x8000
    | 7 => mkRow b 0 0
    | 8 => mkRow b 4 0x100
    | 12 => if b = 2 then mkRow 2 0 0x4000 else mkRow 2 0 0x4004
    | 13 => mkRow b 0 0x2100
    | 14 => if b = 2 then mkRow 3 0 0x80 else mkRow 0 0 0
    | 15 => if b = 1 then mkRow 0 0 0 else emptyRow
    | _ => emptyRow
  match st with
  | 1 => live 1 1 0
  | 2 => live 2 3 0x80
  | 3 =>
    (match ev with
     | 11 => mkRow 1 0 0x1100
     | 12 => mkRow 3 0 0x4000
     | 13 => mkRow 3 0 0x2100
     | _ => emptyRow)
  | _ => live 0 0 0

/-- The header of the LEASE image. -/
def leaseHeader : Dword := 0xA88

/-- How an NC line is served: at its home only, without a table (R32, R55). -/
def ncRow (ev : Nat) : Dword :=
  match ev with
  | 0 => mkRow 0 5 1
  | 1 => mkRow 0 5 1
  | 2 => mkRow 0 4 0x100
  | 3 => mkRow 0 4 0x100
  | 4 => mkRow 0 5 0x200
  | 8 => mkRow 0 4 0x100
  | 12 => mkRow 0 0 0x4000
  | 13 => mkRow 0 0 0x100
  | _ => emptyRow

/-- Number of the table that governs a line which no table governs: NC lines and the copies of a peer proxy. -/
def noTable : Nat := 99

/-- The row of a table for a state and event (R64). -/
def State.tableRow (s : State) (t st ev : Nat) : Dword :=
  if t = 0 then leaseRow st ev
  else if t = noTable then ncRow ev
  else ((Sparse.find s.tables t).map (fun x => x.rows.getD (16 * st + ev) emptyRow)).getD emptyRow

/-- ATTR of a state of a table (R65). -/
def State.stateAttr (s : State) (t st : Nat) : Nat :=
  if t = 0 then fld leaseHeader (3 * st) 3
  else if t = noTable then 0
  else ((Sparse.find s.tables t).map (fun x => fld x.header (3 * st) 3)).getD 0

def State.isTransient (s : State) (ln : L2Line) : Bool := s.stateAttr ln.table ln.state ≥ 4

/-- The base of a line's state: 0 FREE, 1 SHARED, 2 OWNED, 3 TWINNED. -/
def State.baseOf (s : State) (ln : L2Line) : Nat := s.stateAttr ln.table ln.state % 4

def State.lineAt (s : State) (h line : Nat) : Option L2Line := (s.slice h).lines.find? (fun l => l.line == line)

/-- A line's record replaced in its slice. -/
def State.putLine (s : State) (h : Nat) (ln : L2Line) : State :=
  s.setSlice h { s.slice h with lines := (s.slice h).lines.map (fun l => if l.line = ln.line then ln else l) }

/-- A line made the most recently used of its slice; an evict-first line keeps its place (R101). -/
def State.touchLine (s : State) (h line : Nat) : State :=
  let sl := s.slice h
  match sl.lines.find? (fun l => l.line == line) with
  | some l => if l.cp = 1 then s
    else s.setSlice h { sl with lines := sl.lines.filter (fun x => x.line != line) ++ [l] }
  | none => s

/-- A line taken out of its slice; leases that still run are not forgotten (R60). -/
def State.dropLine (s : State) (h line : Nat) : State :=
  s.setSlice h { s.slice h with
    lines := (s.slice h).lines.filter (fun l => l.line != line),
    ehz := ((s.slice h).lines.filter (fun l => l.line == line)).foldl (fun acc l => Nat.max acc l.lh) (s.slice h).ehz }

/-- Events put before the others. -/
def State.postFront (s : State) (is : List Instr) : State := { s with agenda := is ++ s.agenda }

/-- What waits in a slice for a way or a host answer goes on. -/
def State.wakeSlice (s : State) (h : Nat) : State :=
  let sl := s.slice h
  if sl.wait = [] then s else (s.setSlice h { sl with wait := [] }).postFront sl.wait

/-! ## Sets and ways (R92, R98, R101) -/

/-- The ways of a set that are promised to lines of waiting requests (R101). -/
def Slice.claimed (x : Slice) (si : Nat) : List Nat := (x.claims.filter (fun c => setOf c.1 == si)).map (·.2)

/-- The way promised to a line (R98, R101). -/
def Slice.claimOf (x : Slice) (line : Nat) : Option Nat := (x.claims.find? (fun c => c.1 == line)).map (·.2)

/-- A line's claim on a way given up. -/
def State.unclaim (s : State) (h line : Nat) : State :=
  s.setSlice h { s.slice h with claims := (s.slice h).claims.filter (fun c => c.1 != line) }

/-- A way promised to a line. -/
def State.claim (s : State) (h line w : Nat) : State :=
  s.setSlice h { s.slice h with claims := (s.slice h).claims.filter (fun c => c.1 != line) ++ [(line, w)] }

/-- The lowest way allowed with a free tag and room for `n` bytes, apart from `skip`. -/
def State.roomyWay (s : State) (ls : List L2Line) (wp n : Nat) (skip : List Nat) : Option Nat :=
  (List.range 16).find? (fun w => !skip.contains w && fld (s.csrGet (0x60 + wp) 0) w 1 == 1 &&
    (match ls.filter (fun l => l.way == w) with
     | [] => true
     | [l] => decide (encSize l.enc + n ≤ 128)
     | _ => false))

/-- Whether a line may be chosen as a victim (R75, R102). -/
def State.evictable (s : State) (ln : L2Line) : Bool :=
  let row := s.tableRow ln.table ln.state 14
  ln.held.isNone && !s.isTransient ln && s.baseOf ln != 3 &&
    ((ln.sharers == [] && !ln.ovf) || acts row 4) &&
    (match ln.owner with
     | .nobody => true
     | .core _ => acts row 6
     | .host => acts row 7)

/-- The victim way of a set (R101). -/
def State.victimWay (s : State) (ls : List L2Line) (wp : Nat) (skip : List Nat) : Option Nat :=
  let used := (List.range 16).filter (fun w => !skip.contains w && fld (s.csrGet (0x60 + wp) 0) w 1 == 1 &&
    ls.any (fun l => l.way == w) && (ls.filter (fun l => l.way == w)).all (fun l => s.evictable l))
  let ret : Nat → Bool := fun w => ls.any (fun l => l.way == w && l.cp == 2)
  let plain := used.filter (fun w => !ret w)
  let cands := if plain = [] then used else plain
  let first := cands.filter (fun w => (ls.filter (fun l => l.way == w)).all (fun l => l.cp == 1))
  let cls := if first ≠ [] then first else if plain ≠ [] then plain else cands
  let age : Nat → Nat := fun w => (ls.zipIdx.filter (fun x => x.1.way == w)).foldl (fun acc x => Nat.max acc x.2) 0
  cls.foldl (fun acc w => match acc with
    | none => some w
    | some v => if age w < age v then some w else some v) none

/-! ## Answers -/

/-- The partitions whose homes a request from outside reaches (R95); those of a failed die take no work (R13). -/
def State.parts (s : State) : List Nat :=
  if s.privateMode then (List.range 8).filter (fun p => s.failed / 2 ^ (p / 2) % 2 == 0) else [0]

/-- Something sent to the outside. In private mode each partition's home of an HBM line answers: the request is complete
when all have, with the greatest WCT and the latest of their times (R95); what it is answered with, data or a refusal, is
the first home's (log 99). -/
def State.tell (s : State) (x : Sent) : State :=
  match s.sent.findIdx? (fun y => y.who == x.who && y.line == x.line && decide (y.left ≠ 0)) with
  | some i =>
    let y := s.sent.getD i x
    { s with sent := s.sent.set i { y with left := y.left - 1, due := Nat.max y.due x.due, wct := Nat.max y.wct x.wct } }
  | none => { s with sent := s.sent ++ [{ x with left := if targetOf x.line == .hbm then s.parts.length - 1 else 0 }] }

/-- An answer sent to a requester; the device awaits none, the host's completion goes out with its row (R69). -/
def State.answer (s : State) (r : HomeReq) (msg : Nat) (data : List Byte) (old : Dword) (expiry lh wct : Nat)
    (leased bare : Bool) : State :=
  let y : Reply :=
    { who := r.who, core := r.core, line := r.line, lanes := r.lanes, data := data, old := old, expiry := expiry,
      lh := lh, wct := wct, leased := leased, keep := decide (msg = 1 ∨ msg = 2 ∨ msg = 3), bare := bare }
  match r.who with
  | .host _ => s
  | .device => s
  | .peer t _ => s.tell { who := .peer t none, kind := .completion msg, line := r.line, data := data, old := old,
                          expiry := expiry, wct := wct, due := s.gt, left := 0 }
  | _ =>
    match msg with
    | 1 => s.post (.dataS y)
    | 2 => s.post (.dataX y)
    | 3 => s.post (.dataC y)
    | 4 => s.post (.ack y)
    | 5 => s.post (.ackData y)
    | _ => s

/-- A check-in or write-back refused: the waves whose stores it carries are its requesting units, and park for it; a
replay sends the bytes again. No virtual address is known: the line's physical one stands for it (R71; log 100). -/
def State.refuseCopy (s : State) (r : HomeReq) (cls : Nat) (finfo : Dword) : State :=
  let x : LaneOp :=
    { lane := 0, va := dw r.line, phase := .fault cls finfo, data := r.bytes.map (·.2), cmp := r.bytes.map (fun e => BitVec.ofNat 8 e.1),
      key := some (maskOf 4 r.poison.contains) }
  r.lanes.foldl (fun acc w =>
    match acc.ops.find? (fun e => e.2.wave == w && decide (e.2.kind = .checkin) && e.2.lanes.any (fun y => y.va.toNat == r.line)) with
    | some e => (acc.modOp e.1 (fun o => { o with lanes := [x] })).finishOp e.1
    | none =>
      (({ acc with nextId := acc.nextId + 1, ops := Sparse.put acc.ops acc.nextId (checkinOp w x) } : State)).finishOp acc.nextId) s

/-- A refused request (R71, R85, R90): the lanes of a load or an atomic, a late fault of a store, a sector. -/
def State.refuse (s : State) (r : HomeReq) (cls : Nat) (finfo : Nat → Dword) : State :=
  match r.who with
  | .op id =>
    (match Sparse.find s.ops id with
     | none => s
     | some o => if o.kind.returns then s.failLanes id r.lanes cls (finfo o.kind.access.code)
       else s.post (.lateFault id r.lanes cls (finfo 1)))
  | .seg core copy k j =>
    s.segFail (Copy.key core copy) k j (r.lanes.headD 0 / 128) (r.bytes != []) cls (finfo (if r.bytes = [] then 4 else 5))
  | .cache _ => s.refuseCopy r cls (finfo 1)
  | .peer t _ => s.tell { who := .peer t none, kind := .refused cls (finfo (if r.bytes = [] then 0 else 1)), line := r.line,
                          data := [], old := 0, expiry := 0, wct := 0, due := s.gt, left := 0 }
  | _ => s

/-! ## Scope recording (R83 to R85) -/

/-- Whether agent `a` lies in agent `b`'s instance of a scope. -/
def inScope (a b : Agent) (sc : Scope) : Bool :=
  match sc with
  | .wave => a == b
  | .wg => a.pkg == b.pkg && a.die == b.die && a.clu == b.clu && a.core == b.core && a.wgt == b.wgt
  | .gang => a.pkg == b.pkg && a.die == b.die && a.clu == b.clu && a.ggt == b.ggt
  | .die => a.pkg == b.pkg && a.die == b.die
  | .dev => a.pkg == b.pkg
  | .sys => true

/-- An agent as R83 lays it out. -/
def agentCode (a : Agent) : Nat :=
  a.pkg * 2 ^ 31 + a.die * 2 ^ 29 + a.clu * 2 ^ 24 + a.core * 2 ^ 22 + a.wgt * 2 ^ 14 + a.ggt * 2 ^ 6 + a.wave

/-- The information word of SCOPE (R85), where a line's record refuses an access. -/
def scopeRefusal (rec : Option ScopeRec) (x : ScopeInfo) : Option Dword :=
  match rec with
  | none => none
  | some y =>
    if y.tag = x.tag ∧ x.precise ∧ !inScope y.agent x.agent x.scope then
      some (dw (y.scope.toNat * 2 ^ 61 + x.scope.toNat * 2 ^ 58 + agentCode y.agent))
    else none

/-! ## Performing a row's actions (R60, R68, R79) -/

/-- A parked wave's registers, masks, frames, mask stack and link words made unpredictable, `n` the draw (R324). -/
def Wave.scrambled (w : Wave) (n : Nat) : Wave :=
  let x : Nat → Dword := fun i => Config.freeDword (2 ^ 40 * n + i)
  { w with
      regs := w.regs.map (fun e => (e.1, e.2.zipIdx.map (fun y => wd (x (2 ^ 30 + 64 * e.1 + y.2)).toNat))),
      k := w.k.map (fun e => (e.1, w.cut (x (2 ^ 31 + e.1)))),
      frames := w.frames.map (fun e => (e.1, { e.2 with
        vbase := (x (2 ^ 32 + 4 * e.1)).toNat % 2 ^ 41, pbase := (x (2 ^ 32 + 4 * e.1 + 1)).toNat % 2 ^ 52,
        limit := (x (2 ^ 32 + 4 * e.1 + 2)).toNat % 2 ^ 30 })),
      mstack := w.mstack.map (fun e => (e.1, { e.2 with exm := w.cut (x (2 ^ 33 + e.1)), t := w.cut (x (2 ^ 35 + e.1)) })),
      links := w.links.map (fun e => (e.1, x (2 ^ 34 + e.1))) }

/-- A parked unit's state made unpredictable: its record's words, and a wave's own registers (R324). -/
def State.scramble (s : State) (x : Nat) : State :=
  match Sparse.find s.records x with
  | none => s
  | some r =>
    let t := { s with records := Sparse.put s.records x { r with
      words := (List.range 256).map (fun i => (i, Config.freeDword (2 ^ 40 * s.fresh + i))), marks := [] } }
    (if r.kind = 1 then t.modLive r.unit (fun w => w.scrambled s.fresh) else t).draw

/-- What a store into a die's pools does to what they hold: the state of the die's parked units, and the records of its
queues, are unpredictable from then on (R324, R371; log 18). -/
def State.disturb (s : State) (line : Nat) (offs : List Nat) : State :=
  if !s.inPool line then s
  else (List.range 4).foldl (fun acc die =>
    let r := acc.csrGet 0x80 die
    let t := acc.csrGet 0x202 die
    let base := fld r 23 29 * 2 ^ 23
    let tbase := fld t 16 36 * 2 ^ 16
    let hit := fld r 0 1 = 1 ∧ offs.any (fun o => decide (base ≤ line + o) && decide (line + o < base + 2 ^ 23))
    let acc1 := if hit then
        ((acc.records.map (·.1)).filter (fun x => x / 4096 == die)).foldl (fun (a : State) x => a.scramble x) acc
      else acc
    if fld t 0 1 = 1 ∧ offs.any (fun o => decide (tbase ≤ line + o) &&
        decide (line + o < tbase + 64 * 2 ^ (Nat.min (fld t 4 4) 5 + 10))) then
      { acc1.draw with tasks := acc1.tasks.map (fun (e : Nat × Task) => (e.1,
          if e.2.die = die ∧ (e.2.phase = TPhase.waiting ∨ e.2.phase = .queued ∨ e.2.phase = .kwait) then
            { e.2 with words := (List.range 8).map (fun i => Config.freeDword (64 * acc1.fresh + i)) }
          else e.2)) }
    else acc1) s

/-- What a read of a line returns: a line of a pool reads as free values (R324, R371; log 18). -/
def State.shownData (s : State) (ln : L2Line) : List Byte :=
  if s.inPool ln.line then (List.range 128).map (fun i => (Config.freeWord (64 * s.fresh + i)).setWidth 8) else s.lineData ln

/-- The origin of poison that lies at the home itself (R390). -/
def homeOrigin (pa : Nat) : Nat := match targetOf pa with
  | .host => 6
  | .peer => 7
  | _ => 5

/-- Marks of a clean copy of a line that becomes dirty (R390). -/
def State.harden (s : State) (line : Nat) : State :=
  if s.poison = [] then s
  else { s with poison := s.poison.map (fun e =>
    if e.1 / 128 * 128 = s.place line ∧ e.2.origin = 3 then (e.1, { e.2 with origin := 4 }) else e) }

/-- Bytes merged into a line at its home, marked as changed during an epoch (R79); a write without poison clears the
marks of the sectors it covers whole (R385). -/
def State.mergeBytes (s : State) (ln : L2Line) (bs : List (Nat × Byte)) : State × L2Line :=
  let ln1 := if ln.twin.isSome then
      { ln with changed := ln.changed ++ (bs.map (·.1)).filter (fun o => !ln.changed.contains o) }
    else ln
  let p := s.place ln.line
  let s0 := s.disturb ln.line (bs.map (·.1))
  let clean : State → State := fun t => if t.poison = [] then t else
    (List.range 4).foldl (fun acc i =>
      if (List.range 32).all (fun b => bs.any (fun e => e.1 == 32 * i + b)) then acc.cleanse (p + 32 * i) 32 else acc) t
  match ln.data with
  | some d => ((clean s0).harden ln.line, { ln1 with data := some (patch d bs), dirty := true })
  | none => ((clean (s0.writeAt (bs.map (fun e => (p + e.1, e.2))))).harden ln.line, { ln1 with dirty := true })

/-- The marks of sectors that a poisoned write has touched (R385). -/
def State.soil (s : State) (ln : L2Line) (sectors : List Nat) : State :=
  sectors.foldl (fun acc i =>
    let a := s.place ln.line + 32 * i
    acc.setMark a { origin := if ln.data.isSome || ln.way != 98 then 4 else homeOrigin ln.line, addr := ln.line + 32 * i }) s

/-- A check-in merged (R79); `bs` are the copy's bytes, none for DROP. TWLOG of the slice's die records a conflict. -/
def State.merge (s : State) (h : Nat) (ln : L2Line) (bs : List (Nat × Byte)) : State × L2Line :=
  let tw := ln.twin.getD []
  let diff := bs.filter (fun e => decide (tw.getD e.1 0 ≠ e.2))
  let hit := diff.any (fun e => ln.changed.contains e.1)
  let r := s.mergeBytes ln diff
  let n := ln.count - 1
  let cf := ln.cf || hit
  if n = 0 then
    let t := r.1.csrGet 0x40 (h / 384)
    let s1 := if cf then
        r.1.csrPut 0x40 (h / 384) (dw (Nat.min (fld t 52 12 + 1) 4095 * 2 ^ 52 + ln.line / 128 * 128 + 1))
      else r.1
    (s1, { r.2 with count := 0, twin := none, changed := [], cf := false })
  else (r.1, { r.2 with count := n, cf := cf })

/-- The guard of a holder or writer in another package (R60); a core of this package, and the host, has none. -/
def guardOf (r : HomeReq) : Nat :=
  match r.who with
  | .peer _ _ => 40
  | _ => 0

/-- Lease duration in ns of a line's row for a request (R55, R59). -/
def State.leaseOf (s : State) (ln : L2Line) (row : Dword) (r : HomeReq) : Nat :=
  let c := if rowLease row = 0 then ln.lc else rowLease row - 1
  let d := 16 * fld (s.csrGet (0x30 + c) 0) 0 16
  if r.cc = 2 then Nat.min d 4096 else d

/-- The atomic of a request performed at home: the old value comes back. -/
def State.homeAtomic (s : State) (ln : L2Line) (r : HomeReq) : State × L2Line × Dword × List (Nat × Byte) :=
  match r.atom with
  | none => (s, ln, 0, [])
  | some a =>
    let off := (r.bytes.head?.map (·.1)).getD 0
    let old := ofBytes (((s.lineData ln).drop off).take (atomBytes a))
    let bs := offBytes off (toBytes (atomBytes a) (atomEval a old))
    let x := s.mergeBytes ln bs
    (x.1, x.2, dw old, bs)

/-- What the actions of a row give: the state, the line, the data it sends, the old value of an atomic, the expiry of
the lease it grants. -/
structure Acted where
  s      : State
  ln     : L2Line
  data   : List Byte
  old    : Dword
  expiry : Nat

/-- The actions of a row that do not forward. `wdata` is what WRITE merges; `atomDone` the old value of an atomic
performed before. -/
def State.actRow (s : State) (h : Nat) (ln : L2Line) (row : Dword) (ev : Nat) (r : HomeReq) (wdata : List (Nat × Byte))
    (atomDone : Option Dword) : Acted :=
  let a := if acts row 9 && atomDone.isNone then s.homeAtomic ln r else (s, ln, atomDone.getD 0, [])
  let b := if acts row 8 then ((a.1.mergeBytes a.2.1 wdata).1.soil a.2.1 r.poison, (a.1.mergeBytes a.2.1 wdata).2)
    else (a.1, a.2.1)
  let c := if acts row 11 then
      ((b.1.merge h b.2 (if ev = 6 then r.bytes else [])).1.soil b.2 r.poison, (b.1.merge h b.2 (if ev = 6 then r.bytes else [])).2)
    else b
  let l1 := if acts row 10 then
      { c.2 with twin := some (c.2.twin.getD (c.1.lineData c.2)), count := c.2.count + 1 }
    else c.2
  let data := if acts row 0 then (if ev = 5 ∧ c.2.twin.isSome then c.2.twin.getD [] else c.1.shownData l1) else []
  let e := if acts row 1 then c.1.gt + c.1.leaseOf l1 row r else 0
  let l2 := if acts row 1 && !(ev == 5 && rowMsg row == 3) then { l1 with lh := Nat.max l1.lh (e + guardOf r) } else l1
  let l3 := if acts row 2 then
      { l2 with owner := (match r.who with
        | .host _ => Owner.host
        | _ => Owner.core r.core) }
    else l2
  let cl := r.core / 4
  let l4 := if acts row 3 && !l3.sharers.contains cl then
      (if l3.sharers.length < 4 then { l3 with sharers := l3.sharers ++ [cl] } else { l3 with ovf := true })
    else l3
  let l5 := if ev = 7 ∧ !l4.ovf then { l4 with sharers := l4.sharers.filter (· ≠ cl) } else l4
  { s := if c.1.inPool ln.line then c.1.draw.draw else c.1, ln := if acts row 12 then { l5 with owner := .nobody } else l5,
    data := data, old := a.2.2.1, expiry := e }

/-- The WCT of a row that writes (R60). -/
def State.wctOf (s : State) (ln : L2Line) (row : Dword) (r : HomeReq) : Nat :=
  (if acts row 13 then Nat.max s.gt ln.lh else s.gt) + guardOf r

/-- The message of a row sent for a request; the host gets the line where the row has HDATA, and its completion no
earlier than GT = LH where it has WAITLH (R68). -/
def State.send (s : State) (x : L2Line) (row : Dword) (r : HomeReq) (a : Acted) : State :=
  match r.who with
  | .host t => s.tell { who := .host t, kind := .completion (rowMsg row), line := r.line,
                        data := if acts row 14 then s.lineData x else [], old := 0, expiry := 0, wct := 0,
                        due := if acts row 13 then Nat.max s.gt x.lh else s.gt, left := 0 }
  | _ => s.answer r (rowMsg row) a.data a.old a.expiry x.lh (s.wctOf x row r) (acts row 1) false

/-- The scope record that a performed access leaves (R83). -/
def L2Line.record_ (ln : L2Line) (r : HomeReq) : L2Line :=
  match r.scope with
  | some x => { ln with record := some { agent := x.agent, scope := x.scope, tag := x.tag } }
  | none => ln

/-- Clusters that a line's INV or UPD goes to (R72). -/
def L2Line.holders (ln : L2Line) : List Nat := if ln.ovf then List.range 128 else ln.sharers

/-- The cores of some clusters. -/
def coresOf (cls : List Nat) : List Nat := cls.flatMap (fun c => [4 * c, 4 * c + 1, 4 * c + 2, 4 * c + 3])

/-! ## Eviction (R60, R90, R91, R101) -/

/-- The bytes of a line that its slice holds: those of its valid sectors, with their addresses in memory (R93). -/
def State.heldBytes (s : State) (ln : L2Line) : List (Nat × Byte) :=
  match ln.data with
  | none => []
  | some d => (List.range 128).filterMap (fun i =>
      if ln.valid / 2 ^ (i / 32) % 2 = 1 then some (s.place ln.line + i, d.getD i 0) else none)

/-- The marks of a line that leaves its slice: poison of a clean copy goes with it, what was dirty is in memory now
(R389, R390). -/
def State.unmarkLine (s : State) (line : Nat) : State :=
  if s.poison = [] then s
  else
    let p := s.place line
    let here : Nat → Bool := fun a => decide (p ≤ a) && decide (a < p + 128)
    { s with poison := (s.poison.filter (fun e => !(here e.1 && e.2.origin == 3))).map (fun e =>
        if here e.1 ∧ e.2.origin = 4 then
          (e.1, { e.2 with origin := homeOrigin line })
        else e) }

/-- A line leaves its slice: its LH goes into EHZ, bytes that only the slice holds go to memory, and what waits for
the line or a way goes on, for a line that an RGSET drains under the new entry (R62). -/
def State.leaveLine (s : State) (h : Nat) (ln : L2Line) : State :=
  let sl := s.slice h
  let s1 := (s.setSlice h { sl with
    lines := sl.lines.filter (fun l => l.line != ln.line), ehz := Nat.max sl.ehz ln.lh, wait := [],
    claims := sl.claims.filter (fun c => c.1 != ln.line) }).unmarkLine ln.line
  let s2 : State := { s1 with drains := s1.drains.map (fun (d : RangeDrain) => { d with lines := d.lines.filter (fun y => y != (h, ln.line)) }) }
  (if ln.dirty then s2.writeAt (s2.heldBytes ln) else s2).postFront (ln.queue ++ sl.wait)

/-- An eviction; for a line of the host window it goes to the host as DirtyEvict or CleanEvict (R91). -/
def State.evictLine (s : State) (h : Nat) (ln : L2Line) : State :=
  let t := s.leaveLine h ln
  if targetOf ln.line = .host ∧ ln.way ≠ 98 then
    { t with sent := t.sent ++ [{ who := .device, kind := if ln.dirty then .dirtyEvict else .cleanEvict, line := ln.line,
                                  data := if ln.dirty then s.lineData ln else [], old := 0, expiry := 0, wct := 0, due := s.gt,
                                  left := 0 }] }
  else t

/-- A line whose transient state is over: the requests that waited for it go on (R54). -/
def State.freeLine (s : State) (h : Nat) (ln : L2Line) : State :=
  if ln.way = 98 then (s.dropLine h ln.line).postFront (ln.queue ++ (s.slice h).wait) |>.setSlice h
      { (s.dropLine h ln.line).slice h with wait := [] }
  else (s.putLine h { ln with held := none, queue := [] }).postFront ln.queue

/-- An empty record of a line in state 0. -/
def State.newLine (s : State) (h line table lc : Nat) : L2Line :=
  { line := line, state := 0, table := table, lc := lc, lh := (s.slice h).ehz, sharers := [], ovf := false,
    owner := .nobody, record := none, twin := none, changed := [], cf := false, count := 0, held := none, queue := [],
    valid := 0, enc := 0, way := 98, wp := 0, cp := 3, data := none, dirty := false, expiry := 0, hostOwn := false }

/-- The request of an eviction. -/
def evictReq (line : Nat) : HomeReq :=
  { who := .device, core := 0, line := line, lanes := [], bytes := [], need := [], atom := none, scope := none, cc := 1,
    cp := 0, wp := 0, poison := [] }

/-- A split row begun: its forwarding messages go out, the line is transient until the answers are in (R70). -/
def State.startSplit (s : State) (h : Nat) (ln : L2Line) (row : Dword) (ev : Nat) (r : HomeReq) (flush : Bool) : State :=
  let a := if ev = 4 ∧ acts row 5 ∧ acts row 9 then s.homeAtomic ln r else (s, ln, 0, [])
  let cores := if acts row 4 ∨ acts row 5 then coresOf a.2.1.holders else []
  let bytes := if ev = 4 then a.2.2.2 else if ev = 6 then r.bytes.filter (fun e => r.need.contains e.1) else r.bytes
  let own : Option Nat := if acts row 6 then (match ln.owner with
    | .core c => some c
    | _ => none) else none
  let hd : Held :=
    { ev := ev, hreq := r, row := row, prior := ln.state, acks := cores.length, rcl := own.isSome, host := acts row 7,
      rdata := none, hdata := none, soiled := [], tries := 0, flush := flush, old := a.2.2.1 }
  (a.1.putLine h { a.2.1 with held := some hd, state := rowNext row }).postAll
    (cores.map (fun c => if acts row 4 then .inv c ln.line h else .upd c ln.line h bytes) ++
      (match own with
       | some c => [.recall c ln.line]
       | none => []) ++
      (if cores = [] ∧ own.isNone ∧ !acts row 7 then [.iack r.core ln.line h] else []))

/-- HEVICT of a line: at once, or a split row (R70, R101). -/
def State.evict (s : State) (h : Nat) (ln : L2Line) (flush : Bool) : State :=
  let row := s.tableRow ln.table ln.state 14
  if ln.table ≠ noTable ∧ forwards row then s.startSplit h ln row 14 (evictReq ln.line) flush
  else s.evictLine h ln

/-! ## Allocation (R93, R98, R101, R102) -/

/-- The request of an event that a home serves. -/
def reqOfEvent (i : Instr) : Option HomeReq :=
  match i with
  | .rds r => some r
  | .rdnc r => some r
  | .wr r => some r
  | .wrnc r => some r
  | .atom r => some r
  | .ckout r => some r
  | .ckin r => some r
  | .drop r => some r
  | .wback r => some r
  | _ => none

/-- The line that a waiting write, or a row that waits for room, is for. -/
def lineOfEvent (i : Instr) : Option Nat :=
  match i with
  | .wr r => some r.line
  | .wrnc r => some r.line
  | .atom r => some r.line
  | .ckin r => some r.line
  | .wback r => some r.line
  | .iack _ line _ => some line
  | _ => none

/-- How an allocation ends. -/
inductive Alloc where
  | placed (s : State)
  | waits (s : State)
  | no

/-- Ways that hold retain lines of a partition. -/
def retainWays (ls : List L2Line) (wp : Nat) : Nat :=
  ((List.range 16).filter (fun w => ls.any (fun l => l.way == w && l.cp == 2 && l.wp == wp))).length

/-- The lines of a way evicted; whether all are gone. -/
def State.clearWay (s : State) (h si w skipLine : Nat) : State × Bool :=
  let ls := ((s.slice h).set si).filter (fun l => l.way == w && l.line != skipLine)
  let t := ls.foldl (fun acc l => acc.evict h l false) s
  (t, !(((t.slice h).set si).any (fun l => l.way == w && l.line != skipLine)))

/-- A line put into a slice. -/
def State.insertLine (s : State) (h : Nat) (ln : L2Line) : State :=
  let sl := s.slice h
  s.setSlice h { sl with lines := if ln.cp = 1 then ln :: sl.lines else sl.lines ++ [ln] }

/-- Whether what writes a line of a set waits for a way while none can be cleared: the set takes no other line (R98). -/
def Slice.crowded (x : Slice) (si : Nat) : Bool :=
  (x.set si).any (fun l => (l.way == 99 || x.wait.any (fun e => lineOfEvent e == some l.line)) && (x.claimOf l.line).isNone)

/-- A line allocated for a request (R101): a request that waited for its victim takes the way chosen for it then. A line
of the host window, and every line in private mode, is held in bytes of the slice's own. -/
def State.allocate (s : State) (h : Nat) (i : Instr) (r : HomeReq) (table lc valid : Nat) : Alloc :=
  let si := setOf r.line
  let x := s.slice h
  let ls := x.set si
  let cap := fld (s.csrGet (0x60 + r.wp) 0) 16 5
  let cp := if r.cp = 2 ∧ retainWays ls r.wp ≥ Nat.min cap 16 then 0 else r.cp
  let own := s.privateMode || targetOf r.line == .host
  let data := s.read (s.place r.line) 128
  let enc := s.encFor r.wp valid data
  let ln : L2Line :=
    { s.newLine h r.line table lc with
      valid := valid, enc := enc, wp := r.wp, cp := cp, data := if own then some data else none }
  match x.claimOf r.line with
  | some w =>
    if ls.any (fun l => l.way == w) then .waits (s.setSlice h { x with wait := x.wait ++ [i] })
    else .placed ((s.unclaim h r.line).insertLine h { ln with way := w })
  | none =>
    if x.crowded si then .no
    else match s.roomyWay ls r.wp (encSize enc) (x.claimed si) with
      | some w => .placed (s.insertLine h { ln with way := w })
      | none =>
        match s.victimWay ls r.wp (x.claimed si) with
        | none => .no
        | some w =>
          let c := s.clearWay h si w (2 ^ 64)
          if c.2 then .placed (c.1.insertLine h { ln with way := w, lh := (c.1.slice h).ehz })
          else .waits ((c.1.setSlice h { c.1.slice h with wait := (c.1.slice h).wait ++ [i] }).claim h r.line w)

/-- Room made for a line that no longer fits: a victim way's lines evicted, else its partner, where R75 allows it; the way
and whether it is free already (R98). -/
def State.makeRoom (s : State) (h : Nat) (ln : L2Line) : Option (State × Nat × Bool) :=
  let si := setOf ln.line
  let ls : List L2Line := (s.slice h).set si
  let w := match s.victimWay ls ln.wp (ln.way :: (s.slice h).claimed si) with
    | some w => some w
    | none => if ln.way < 98 ∧ (ls.filter (fun (l : L2Line) => l.way == ln.way && l.line != ln.line)).all (fun l => s.evictable l) then some ln.way else none
  w.map (fun w => ((s.clearWay h si w ln.line).1, w, (s.clearWay h si w ln.line).2))

/-- A line re-encoded after a write: it stays, or moves to the way promised to it, to one with room, or to a victim's; until
one is free it stands beside its set (R98). -/
def State.recode (s : State) (h : Nat) (ln : L2Line) : State :=
  let x := s.slice h
  let others := (x.set (setOf ln.line)).filter (fun l => l.line != ln.line)
  let enc := s.encFor ln.wp ln.valid (s.lineData ln)
  let put : State → Nat → State := fun t w => t.putLine h { ln with enc := enc, way := w }
  if ln.way = 98 then s
  else if ln.way ≠ 99 ∧ x.beside ln + encSize enc ≤ 128 then (put s ln.way).unclaim h ln.line
  else match x.claimOf ln.line with
    | some w => if others.any (fun l => l.way == w) then put s 99 else (put s w).unclaim h ln.line
    | none =>
      match s.roomyWay others ln.wp (encSize enc) (ln.way :: x.claimed (setOf ln.line)) with
      | some w => put s w
      | none =>
        match s.makeRoom h ln with
        | some (t, w, true) => put t w
        | some (t, w, false) => (put t 99).claim h ln.line w
        | none => put s 99

/-- Lines of a set that stand beside its ways looked at again (R98). -/
def State.rehouse (s : State) (h si : Nat) : State :=
  (((s.slice h).set si).filter (fun l => l.way == 99)).foldl (fun acc l => acc.recode h l) s

/-- Sectors that a request needs or writes (R93). -/
def validFor (ev : Nat) (r : HomeReq) : Nat :=
  if ev = 0 ∨ ev = 4 ∨ ev = 5 then 15
  else maskOf 4 (fun i => r.need.contains i || r.bytes.any (fun e => e.1 / 32 == i))

/-! ## Requests (R54, R55, R70, R71, R102) -/

/-- The table and lease class that govern a request (R55, R89). -/
def State.tableFor (s : State) (r : HomeReq) : Nat × Nat :=
  if r.cc = 0 then (noTable, 0)
  else if r.cc = 1 ∧ targetOf r.line = .hbm then
    (match s.rangeOf r.line with
     | some (w0, _) => (fld w0 8 3, fld w0 4 3)
     | none => (0, 0))
  else (0, 0)

/-- A request applied to a line, present or, with way 98, served without allocation. -/
def State.serve (s : State) (h : Nat) (ln : L2Line) (ev : Nat) (r : HomeReq) : State :=
  let lone := ln.way = 98
  let ev' := if lone ∧ ev = 0 then 1 else ev
  let row := if r.cc = 0 then ncRow ev' else s.tableRow ln.table ln.state ev'
  let bare : State → State := fun t => t.answer r 4 [] 0 0 0 0 false true
  if ev = 5 ∧ lone then bare s
  else if acts row 15 then
    s.refuse r 6 (fun k => accessInfo (if ev = 0 ∨ ev = 1 ∨ ev = 5 then 0x10 else 0x11) 0 0 k 15)
  else match (if r.cc = 0 then none else r.scope.bind (scopeRefusal ln.record)) with
    | some info => s.refuse r 8 (fun _ => info)
    | none =>
      if ev = 5 ∧ acts row 10 ∧ ln.twin.isNone ∧ ((s.slice h).lines.filter (fun l => l.twin.isSome)).length ≥ 32 then bare s
      else if forwards row then
        (if lone then (s.insertLine h ln).startSplit h ln row ev r false else s.startSplit h ln row ev r false)
      else
        let a := s.actRow h ln row ev r r.bytes none
        let l1 := (if r.cc = 0 then a.ln else a.ln.record_ r)
        let l2 := if r.cc = 0 ∨ (acts row 11 ∧ l1.count > 0) then l1 else { l1 with state := rowNext row }
        if lone then a.s.send l2 row r a
        else
          (a.s.putLine h l2).send l2 row r a

/-- A line whose bytes or valid sectors have changed is held in the encoding that they have now (R97, R98); any other stays
in the one it has, whatever CMPEN has become (R100; log 126). `old` is what it held. -/
def State.recoded (s : State) (h line : Nat) (old : Nat × List Byte) : State :=
  match s.lineAt h line with
  | some l =>
    if l.held.isNone ∧ (l.valid, s.lineData l) ≠ old ∧ l.enc ≠ s.encFor l.wp l.valid (s.lineData l) then s.recode h l else s
  | none => s

/-- What writes a line waits until the line will fit: room is being made for it, once, and the way is promised to it
(R98). -/
def State.awaitRoom (s : State) (h : Nat) (ln : L2Line) (i : Instr) : State :=
  let wait : State → State := fun t => t.setSlice h { t.slice h with wait := (t.slice h).wait ++ [i] }
  if ((s.slice h).claimOf ln.line).isSome then wait s
  else match s.makeRoom h ln with
    | some (t, w, true) => (t.claim h ln.line w).postFront [i]
    | some (t, w, false) => wait (t.claim h ln.line w)
    | none => wait s

/-- A request applied to a present line, unless what it writes would not fit: then it waits, while a way is cleared
for the line (R98). -/
def State.serveFit (s : State) (h : Nat) (ln : L2Line) (ev : Nat) (i : Instr) (r : HomeReq) : State :=
  let t := (s.serve h ln ev r).recoded h ln.line (ln.valid, s.lineData ln)
  match t.lineAt h ln.line with
  | some l => if l.way = 99 ∧ ln.way ≠ 99 then s.awaitRoom h ln i else t
  | none => t

/-- A line with more of its sectors valid: what they hold comes from memory (R93). -/
def State.fetchSectors (s : State) (ln : L2Line) (valid : Nat) : L2Line :=
  if valid = ln.valid then ln else { ln with valid := valid, data := ln.data.map (fun _ => s.lineData ln) }

/-- A present line as a request's path governs it (R55, R89; log 104): an access takes the table and lease class of its own page
class, a check-in or write-back those of the copy. -/
def State.governed (s : State) (ln : L2Line) (ev : Nat) (r : HomeReq) : L2Line :=
  let t := s.tableFor r
  if r.cc = 0 ∨ ln.held.isSome ∨ s.isTransient ln then ln
  else if ln.table = noTable then { ln with table := t.1, lc := t.2, state := 0, record := none }
  else if ev < 6 ∨ ev = 12 ∨ ev = 13 then { ln with table := t.1, lc := t.2 }
  else ln

/-- A request that reaches the home of an HBM line, or a line that may be served as one. A request behind one for the same
line that waits in the slice waits too (R54). A prefetch of a line that is present asks for its sectors and nothing more
(R146, R295). A check-in, drop or write-back without a line allocates none (log 103). -/
def State.lineReq (s0 : State) (h ev : Nat) (i : Instr) (r : HomeReq) : State :=
  let s := s0.rehouse h (setOf r.line)
  let t := s.tableFor r
  let host := ev = 12 ∨ ev = 13
  let served : State → State := fun u => match u.lineAt h r.line with
    | some ln => u.serveFit h ln ev i r
    | none => u
  if !host && (s.slice h).wait.any (fun e => (reqOfEvent e).any (fun q => q.line == r.line)) then
    s.setSlice h { s.slice h with wait := (s.slice h).wait ++ [i] }
  else match s.lineAt h r.line with
  | some ln0 =>
    let ln := s.governed ln0 ev r
    if (ln.held.isSome ∨ s.isTransient ln) ∧ !host then
      (if r.who = .device ∧ ev = 1 then s else s.putLine h { ln with queue := ln.queue ++ [i] })
    else
      let u := ((s.putLine h (s.fetchSectors ln (ln.valid ||| validFor ev r))).touchLine h r.line).recoded h r.line
        (ln0.valid, s.lineData ln0)
      if r.who = .device ∧ ev = 1 then u else served u
  | none =>
    if r.cp = 3 ∨ ev = 6 ∨ ev = 7 ∨ ev = 8 then s.serve h (s.newLine h r.line t.1 t.2) ev r
    else
      match s.allocate h i r t.1 t.2 (validFor ev r) with
      | .placed u => served u
      | .waits u => u
      | .no => s.serve h (s.newLine h r.line t.1 t.2) ev r

/-- Marks that a request waits for the host (R91): the line it will fill. -/
def hostHold (ev : Nat) (r : HomeReq) : Held :=
  { ev := ev, hreq := r, row := 0, prior := 0, acks := 0, rcl := false, host := true, rdata := none, hdata := none,
    soiled := [], tries := 100, flush := false, old := 0 }

/-- A request for a line of the host window: an uncached request for an NC line, ownership or a shared copy first for
an SC line; a line that waits for the host holds later requests, and has no valid sector before the host has filled it (R22,
R91). -/
def State.hostReq (s : State) (h ev : Nat) (i : Instr) (r : HomeReq) : State :=
  let wants := ev = 2 ∨ ev = 3 ∨ ev = 4
  match s.lineAt h r.line with
  | some ln =>
    if ln.held.isSome then s.putLine h { ln with queue := ln.queue ++ [i] }
    else if (r.cc = 2 ∨ ln.way ≠ 98) ∧ (ln.hostOwn ∨ !wants) then s.lineReq h ev i r
    else s.putLine h { ln with held := some (hostHold ev r) }
  | none =>
    if r.cc = 0 ∨ r.cp = 3 ∨ ev = 7 ∨ ev = 8 ∨ ev = 6 then
      s.insertLine h { s.newLine h r.line (s.tableFor r).1 0 with held := some (hostHold ev r) }
    else match s.allocate h i r 0 0 0 with
      | .placed u => (match u.lineAt h r.line with
        | some ln => u.putLine h { ln with held := some (hostHold ev r) }
        | none => u)
      | .waits u => u
      | .no => s.insertLine h { s.newLine h r.line 0 0 with held := some (hostHold ev r) }

/-- The horizon that a proxy knows of a peer line: the expiry of its last copy with the guard of R60, or what its slice
keeps of evicted ones. -/
def State.peerHorizon (s : State) (h line : Nat) : Nat := ((s.lineAt h line).map (·.lh)).getD (s.slice h).ehz

/-- A write passed through a proxy: the home package's memory takes it, and the proxy's own copy (R86). -/
def State.passWrite (s : State) (h line : Nat) (bs : List (Nat × Byte)) : State :=
  let t := (s.mergeBytes (s.newLine h line noTable 0) bs).1
  match t.lineAt h line with
  | some l => t.putLine h { l with data := l.data.map (fun d => patch d bs) }
  | none => t

/-- The copy of a peer line that a proxy may serve loads from: granted, and its expiry not reached (R86). -/
def State.proxyCopy (s : State) (h line : Nat) : Option L2Line :=
  (s.lineAt h line).bind (fun l => if s.gt < l.expiry then some l else none)

/-- A peer line's request that a Tosor port has carried, at its proxy (R86, R87): loads leave a copy until its lease expires,
the rest passes through to the home package, whose LH, at least that of the copies it granted here, and whose lease are not
this package's to know (log 20). -/
def State.peerDo (s : State) (h ev : Nat) (r : HomeReq) : State :=
  let ln0 := s.newLine h r.line noTable 0
  let wct := Nat.max (s.gt + Config.peerLease s.fresh) (s.peerHorizon h r.line) + 40
  match ev with
  | 0 =>
    (match s.proxyCopy h r.line with
     | some l => s.answer r 1 (s.lineData l) 0 l.expiry l.expiry 0 true false
     | none =>
       let e := s.gt + Config.peerLease s.fresh
       if Config.peerLease s.fresh = 0 then s.draw.answer r 5 (s.lineData ln0) 0 0 0 0 false false
       else
         let s1 := s.draw.dropLine h r.line
         match s1.allocate h (.rds r) r noTable 0 15 with
         | .placed u =>
           (u.setSlice h { u.slice h with lines := (u.slice h).lines.map (fun l =>
             if l.line = r.line then { l with expiry := e, lh := Nat.max l.lh (e + 40) } else l) }).answer r 1 (s.lineData ln0) 0 e e 0 true false
         | .waits u => u
         | .no => s1.answer r 5 (s.lineData ln0) 0 0 0 0 false false)
  | 1 => s.answer r 5 (s.lineData ln0) 0 0 0 0 false false
  | 4 =>
    let a := s.homeAtomic ln0 r
    (s.passWrite h r.line a.2.2.2).draw.answer r 5 [] a.2.2.1 0 0 wct false false
  | _ => (s.passWrite h r.line r.bytes).draw.answer r 4 [] 0 0 0 wct false false

/-- Traffic of a die for a peer package, which a Tosor port is to carry (R429). -/
def State.sendLink (s : State) (die pkg : Nat) (w : LinkWork) : State :=
  { s with link := s.link ++ [{ work := w, die := die, pkg := pkg, since := s.gt }] }

/-- A request for a line of a peer package, at its proxy: a load that an unexpired copy serves needs no Tosor traffic (R86,
R102); the rest is for a port to carry, or ends with LINKTO where none can (R429). Until GT is locked it waits (R430). -/
def State.peerReq (s : State) (h ev : Nat) (r : HomeReq) : State :=
  let pkg := (s.peerPkg r.line).getD 0
  let go := if s.gtLocked && !s.routes (h / 384) pkg then s.refuse r 12 (fun _ => linkInfo 2 pkg 1)
    else s.sendLink (h / 384) pkg (.req h ev r)
  match ev with
  | 0 =>
    (match s.proxyCopy h r.line with
     | some l => s.answer r 1 (s.lineData l) 0 l.expiry l.expiry 0 true false
     | none => go)
  | 1 =>
    (match s.proxyCopy h r.line with
     | some l => s.answer r 5 (s.lineData l) 0 0 0 0 false false
     | none => go)
  | 5 => s.answer r 4 [] 0 0 0 0 false true
  | 6 => s.answer r 4 [] 0 0 0 0 false false
  | 7 => s
  | _ => go

/-- Whether a request from outside has still to be given to the home of every partition (R95). -/
def spreads (r : HomeReq) : Bool :=
  match r.who with
  | .peer _ none => true
  | .host _ => r.lanes == []
  | _ => false

/-- Whether a request waits at its home: while the L2 is flushed, but for what empties the caches and for the host (R96);
for HBM that nothing serves, beyond the first 16 GiB in OCHRE or of a die that failed (R431, R13), and at a slice of such a
die (R13; log 101); a peer package's until GT is locked (R430). -/
def State.holdsReq (s : State) (h ev : Nat) (r : HomeReq) : Bool :=
  (match r.who with
   | .host _ => false
   | .peer _ _ => !s.gtLocked || (s.flushing.isSome && decide (ev < 6))
   | _ => s.flushing.isSome && decide (ev < 6)) ||
  s.unserved r.line || (!spreads r && s.failed / 2 ^ (h / 384) % 2 == 1)

/-- The event of a request, for a second delivery; the host's come as RDS and WR. -/
def eventOf (ev : Nat) (r : HomeReq) : Instr :=
  match ev with
  | 0 => .rds r
  | 12 => .rds r
  | 1 => .rdnc r
  | 2 => .wr r
  | 13 => .wr r
  | 3 => .wrnc r
  | 4 => .atom r
  | 5 => .ckout r
  | 6 => .ckin r
  | 7 => .drop r
  | _ => .wback r

/-- A host request for an HBM line: at its home, or in private mode at the home of every partition, whose number it then
carries (R89, R95). -/
def State.hostHome (s : State) (ev : Nat) (r : HomeReq) : State :=
  s.parts.foldl (fun acc p =>
    let q := { r with core := 64 * p, lanes := [p] }
    acc.lineReq (acc.homeOf (64 * p) r.line) ev (eventOf ev q) q) s

/-- A peer's request at this home: under a table other than 0 its RDS is answered as an RDNC (R87). -/
def State.peerServe (s : State) (ev : Nat) (r : HomeReq) : State :=
  let e := if ev = 0 ∧ (s.tableFor r).1 ≠ 0 then 1 else ev
  s.lineReq (s.homeOf r.core r.line) e (eventOf e r) r

/-- A peer's request for an HBM line, at every partition's home (R87, R95). -/
def State.peerHome (s : State) (ev tag : Nat) (r : HomeReq) : State :=
  s.parts.foldl (fun acc p => acc.peerServe ev { r with who := .peer tag (some p), core := 64 * p }) s

/-- A wave's request that finds its line, or a sector of it, absent at its home has missed in the L2 (R360). -/
def State.noteMiss (s : State) (h ev : Nat) (r : HomeReq) : State :=
  match r.who with
  | .op n =>
    if (s.lineAt h r.line).any (fun l => l.valid ||| validFor ev r == l.valid) then s
    else s.modOp n (fun o => { o with missed := true })
  | _ => s

/-- A request that reaches a home. -/
def State.homeReq (s0 : State) (ev : Nat) (i : Instr) (r : HomeReq) : State :=
  let h := s0.homeOf r.core r.line
  let s := s0.noteMiss h ev r
  if s.holdsReq h ev r then s.setSlice h { s.slice h with wait := (s.slice h).wait ++ [i] }
  else match r.who with
    | .host _ =>
      if spreads r then s.hostHome (if ev = 0 then 12 else 13) r else s.lineReq h (if ev = 0 then 12 else 13) i r
    | .peer t none => s.peerHome ev t r
    | .peer _ (some _) => s.peerServe ev r
    | _ => match targetOf r.line with
      | .peer => s.peerReq h ev r
      | .host => s.hostReq h ev i r
      | _ => s.lineReq h ev i r

/-! ## Responses (R70, R72) -/

/-- The split row in progress on a line at a home, where it satisfies `f`. -/
def State.splitOf (s : State) (h line : Nat) (f : Held → Bool) : Option (L2Line × Held) :=
  (s.lineAt h line).bind (fun l => l.held.bind (fun hd => if hd.tries ≠ 100 ∧ f hd then some (l, hd) else none))

/-- The home at which a line's split row waits for the host. -/
def State.hostSplit (s : State) (line : Nat) : Option (Nat × L2Line × Held) :=
  s.slices.findSome? (fun e => (s.splitOf e.1 line (fun hd => hd.host)).map (fun x => (e.1, x.1, x.2)))

/-- A response row looked up in the transient state, its actions performed. -/
def State.respond (s : State) (h : Nat) (t : Nat) (ev : Nat) (ln : L2Line) (hd : Held) (d : Option (List Byte)) :
    State × L2Line :=
  let q := s.tableRow ln.table t ev
  let a := s.actRow h ln (if d.isNone then dw (q.toNat - (if acts q 8 then 2 ^ 24 else 0)) else q) ev hd.hreq
    (offBytes 0 (d.getD [])) none
  let l := if ev = 9 ∧ acts hd.row 4 then { a.ln with sharers := [], ovf := false } else a.ln
  (a.s, { l with state := rowNext q })

/-- The response rows in the order IACK, RCLD, BIRSP, then the held actions and message, and the eviction of a held
HEVICT; a held MERGE that leaves checkouts leaves the state as it was. The line is held in the encoding of what a response or
the row wrote (R97, R98). -/
def State.finishSplit (s : State) (h : Nat) (ln : L2Line) (hd : Held) : State :=
  let t := ln.state
  let q : Held := { hd with hreq := { hd.hreq with poison := hd.soiled } }
  let a := if acts hd.row 4 ∨ acts hd.row 5 then s.respond h t 9 ln hd none else (s, ln)
  let b := if acts hd.row 6 then a.1.respond h t 10 a.2 q hd.rdata else a
  let c := if acts hd.row 7 then b.1.respond h t 11 b.2 q hd.hdata else b
  let r := hd.hreq
  let x : Acted := c.1.actRow h c.2 hd.row hd.ev r r.bytes (if hd.ev = 4 ∧ acts hd.row 5 then some hd.old else none)
  let l0 := x.ln.record_ r
  let l1 : L2Line := { l0 with held := none, queue := [], state := if acts hd.row 11 ∧ l0.count > 0 then hd.prior else l0.state }
  if hd.ev = 14 then (x.s.evictLine h { l1 with queue := c.2.queue }).rehouse h (setOf ln.line)
  else
    let y := x.s.putLine h { l1 with queue := c.2.queue }
    let wrote := acts hd.row 8 ∨ acts hd.row 9 ∨ acts hd.row 11 ∨ y.lineData l1 ≠ s.lineData ln
    let z := if wrote ∧ l1.way < 98 ∧ l1.enc ≠ y.encFor l1.wp l1.valid (y.lineData l1) then y.recode h { l1 with queue := c.2.queue } else y
    let l2 := (z.lineAt h ln.line).getD l1
    (z.send l1 hd.row r x).freeLine h { l2 with queue := c.2.queue }

/-- Once every answer is in, a split row ends; one whose bytes do not fit waits for room first (R70, R98). -/
def State.complete (s : State) (h : Nat) (ln : L2Line) (hd : Held) : State :=
  if hd.acks ≠ 0 ∨ hd.rcl ∨ hd.host then s.putLine h { ln with held := some hd }
  else
    let t := s.finishSplit h ln hd
    match t.lineAt h ln.line with
    | some l =>
      if l.way = 99 ∧ ln.way < 98 then (s.putLine h { ln with held := some hd }).awaitRoom h ln (.iack hd.hreq.core ln.line h) else t
    | none => t

/-! ## The events of a home -/

def execRds (r : HomeReq) (s : State) : Host.Outcome State Fault Refusal := .next (s.homeReq 0 (.rds r) r)
def execRdnc (r : HomeReq) (s : State) : Host.Outcome State Fault Refusal := .next (s.homeReq 1 (.rdnc r) r)
def execWr (r : HomeReq) (s : State) : Host.Outcome State Fault Refusal := .next (s.homeReq 2 (.wr r) r)
def execWrnc (r : HomeReq) (s : State) : Host.Outcome State Fault Refusal := .next (s.homeReq 3 (.wrnc r) r)
def execAtom (r : HomeReq) (s : State) : Host.Outcome State Fault Refusal := .next (s.homeReq 4 (.atom r) r)
def execCkout (r : HomeReq) (s : State) : Host.Outcome State Fault Refusal := .next (s.homeReq 5 (.ckout r) r)

/-- A check-in; the end of an epoch lets what waits for a way go on (R98). -/
def execCkin (r : HomeReq) (s : State) : Host.Outcome State Fault Refusal :=
  .next ((s.homeReq 6 (.ckin r) r).wakeSlice (s.homeOf r.core r.line))

def execDrop (r : HomeReq) (s : State) : Host.Outcome State Fault Refusal :=
  .next ((s.homeReq 7 (.drop r) r).wakeSlice (s.homeOf r.core r.line))

def execWback (r : HomeReq) (s : State) : Host.Outcome State Fault Refusal := .next (s.homeReq 8 (.wback r) r)

/-- An INV or UPD of a home has been answered by a core; the answer to none at all completes the row at once. -/
def execIack (_core line home : Nat) (s : State) : Host.Outcome State Fault Refusal :=
  let h := home
  match s.splitOf h line (fun hd => decide (hd.acks > 0)) with
  | some (ln, hd) => .next (s.complete h ln { hd with acks := hd.acks - 1 })
  | none =>
    match s.splitOf h line (fun hd => decide (hd.acks = 0) && !hd.rcl && !hd.host) with
    | some (ln, hd) => .next (s.complete h ln hd)
    | none => .next s

/-- The recalled owner has answered, with the line if it was written. -/
def execRcld (core line : Nat) (data : Option (List Byte)) (poison : List Nat) (s : State) :
    Host.Outcome State Fault Refusal :=
  let h := s.homeOf core line
  match s.splitOf h line (fun hd => hd.rcl) with
  | some (ln, hd) => .next (s.complete h ln { hd with rcl := false, rdata := data, soiled := poison })
  | none => .next s

/-- The host has answered the back-invalidation; it may mark its data poisoned (R385). -/
def execBirsp (line : Nat) (data : Option (List Byte)) (poisoned : Bool) (s : State) : Host.Outcome State Fault Refusal :=
  match s.hostSplit line with
  | some (h, ln, hd) =>
    .next (s.complete h ln { hd with host := false, hdata := data, soiled := if poisoned then [0, 1, 2, 3] else [] })
  | none => .refused (.notEnabled "BIRSP")

/-- Whether LHPASS of a line would change something. -/
def State.lhDue (s : State) (ln : L2Line) : Bool :=
  ln.held.isNone && !s.isTransient ln && decide (ln.lh ≤ s.gt) &&
    ((s.baseOf ln == 1 && rowNext (s.tableRow ln.table ln.state 15) != ln.state) || ln.queue != [])

/-- A copy of a line at a home, where `f` holds of it. -/
def State.findLine (s : State) (line : Nat) (f : L2Line → Bool) : Option (Nat × L2Line) :=
  s.slices.findSome? (fun e => e.2.lines.findSome? (fun l => if l.line = line ∧ f l then some (e.1, l) else none))

/-- GT has reached LH (R67): the row of a line whose base is SHARED. Snoops that waited for it go on (R91). -/
def execLhpass (line : Nat) (s : State) : Host.Outcome State Fault Refusal :=
  match (s.findLine line s.lhDue).orElse (fun _ =>
      s.findLine line (fun l => l.held.isNone && !s.isTransient l && decide (l.lh ≤ s.gt))) with
  | some (h, ln) =>
    let st := if s.baseOf ln = 1 then rowNext (s.tableRow ln.table ln.state 15) else ln.state
    .next ((((s.putLine h { ln with state := st, queue := [] }).postFront ln.queue).rehouse h (setOf line)).wakeSlice h)
  | none => .refused (.notEnabled "LHPASS")

/-! ## The host (R88 to R91) -/

/-- A host request carries no page class, way partition or policy: those of a DC line, partition 0 and normal stand for
them (R89; log 102). -/
def hostReqOf (tag pa : Nat) (bytes : List (Nat × Byte)) : HomeReq :=
  { who := .host tag, core := 0, line := lineOf pa, lanes := [], bytes := bytes, need := [0, 1, 2, 3], atom := none,
    scope := none, cc := 1, cp := 0, wp := 0, poison := [] }

/-- Whether the device takes what the host sends it: not in D3cold (R432). -/
def State.powered (s : State) : Bool := decide (s.power ≠ .d3cold)

/-- Something that the host reads, writes or commands; in RESET nothing serves it, so it is lost (R431; log 121). -/
def State.hostEvent (s : State) (name : String) (t : State) : Host.Outcome State Fault Refusal :=
  if !s.powered then .refused (.notEnabled name) else if s.mode = .reset then .next s else .next t

def execHostrd (tag pa : Nat) (s : State) : Host.Outcome State Fault Refusal :=
  if targetOf pa = .hbm then s.hostEvent "HOSTRD" (s.homeReq 0 (.rds (hostReqOf tag pa [])) (hostReqOf tag pa []))
  else .refused (.notEnabled "HOSTRD")

def execHostwr (tag pa : Nat) (bytes : List (Nat × Byte)) (s : State) : Host.Outcome State Fault Refusal :=
  let r := hostReqOf tag pa (bytes.filter (fun e => decide (e.1 < 128)))
  if targetOf pa = .hbm then s.hostEvent "HOSTWR" (s.homeReq 2 (.wr r) r)
  else .refused (.notEnabled "HOSTWR")

/-- A request that is not to allocate its line (R90, R102). -/
def unplaced (i : Instr) : Instr :=
  match i with
  | .rds r => .rds { r with cp := 3 }
  | .rdnc r => .rdnc { r with cp := 3 }
  | .wr r => .wr { r with cp := 3 }
  | .wrnc r => .wrnc { r with cp := 3 }
  | .atom r => .atom { r with cp := 3 }
  | .ckout r => .ckout { r with cp := 3 }
  | x => x

/-- Waiting requests of a slice, of which the first for each of some lines is not to allocate it. -/
def unplaceFirst : List Nat → List Instr → List Instr
  | _, [] => []
  | ls, i :: r => match reqOfEvent i with
    | some q => if ls.contains q.line then unplaced i :: unplaceFirst (ls.filter (· ≠ q.line)) r else i :: unplaceFirst ls r
    | none => i :: unplaceFirst ls r

/-- A split row given up because the host does not answer (R90): of the requests that wait in the slice, only the one that
wanted the way of the line is served without allocating. -/
def State.abortSplit (s : State) (h : Nat) (ln : L2Line) (hd : Held) : State :=
  let back := { ln with state := hd.prior, held := none, queue := [] }
  if hd.ev = 14 then
    (if hd.flush then
       let s1 := (s.evictLine h { ln with owner := .nobody }).logFault (h / 384) 9 0 0 0 0 (dw ln.line) 0
       { s1 with flushing := s1.flushing.map (fun x => (x.1, true, x.2.2)),
                 drains := s1.drains.map (fun d => { d with lost := true }) }
     else
       let sl := s.slice h
       let mine : Nat × Nat → Bool := fun c => setOf c.1 == setOf ln.line && c.2 == ln.way
       let absent := ((sl.claims.filter mine).map (·.1)).filter (fun l => (s.lineAt h l).isNone)
       ((s.setSlice h { sl with wait := [], claims := sl.claims.filter (fun c => !mine c) }).putLine h back).postFront
         (ln.queue ++ unplaceFirst absent sl.wait))
  else
    ((s.freeLine h { back with queue := ln.queue }).refuse hd.hreq 12 (fun _ => linkInfo 1 s.pkg (hd.tries + 1)))

/-- The host has answered a BISnpInv with BIConflict: it is re-issued three times (R90). -/
def execBiconflict (line : Nat) (s : State) : Host.Outcome State Fault Refusal :=
  match s.hostSplit line with
  | some (h, ln, hd) =>
    if hd.tries = 3 then .next (s.abortSplit h ln hd)
    else .next (s.putLine h { ln with held := some { hd with tries := hd.tries + 1 } })
  | none => .refused (.notEnabled "BICONFLICT")

def execBiTimeout (line : Nat) (s : State) : Host.Outcome State Fault Refusal :=
  match s.hostSplit line with
  | some (h, ln, hd) => .next (s.abortSplit h ln hd)
  | none => .refused (.notEnabled "BI_TIMEOUT")

/-- The slice in which a line of the host window waits for the host. -/
def State.hostWait (s : State) (line : Nat) : Option (Nat × L2Line × Held) :=
  s.slices.findSome? (fun e => e.2.lines.findSome? (fun l =>
    if l.line = line then l.held.bind (fun hd => if hd.tries = 100 then some (e.1, l, hd) else none) else none))

/-- Whether a request writes a half of a copy's sector. -/
def writesHalf (r : HomeReq) : Bool :=
  match r.who with
  | .seg _ _ _ _ => r.bytes != []
  | _ => false

/-- Whether an answer of the host is one for a line. -/
def answersLine (line : Nat) (i : Instr) : Bool :=
  match i with
  | .cxlCacheResponse l _ _ => l == line
  | _ => false

/-- The line at which the other half of a copy's sector waits for the host too, and has not been answered: neither half is
written before both can be (R115; log 107). -/
def State.otherHalf (s : State) (line : Nat) (r : HomeReq) : Option (Nat × L2Line) :=
  let mine : HomeReq → Bool := fun q => writesHalf r && q.who == r.who && writesHalf q
  s.slices.findSome? (fun e => (e.2.lines.find? (fun l => l.line != line && !l.queue.any (answersLine line) &&
    (l.held.any (fun hd => hd.tries == 100 && mine hd.hreq) || l.queue.any (fun i => (reqOfEvent i).any mine)))).map (fun l => (e.1, l)))

/-- The host answers a CXL.cache request: the line is filled, or the uncached access completes (R91, R385). -/
def execCxlCacheResponse (line : Nat) (data : Option (List Byte)) (poisoned : Bool) (s : State) :
    Host.Outcome State Fault Refusal :=
  match s.hostWait line with
  | none => .refused (.notEnabled "CXL_CACHE_RESPONSE")
  | some (h, ln, hd) =>
    match s.otherHalf line hd.hreq with
    | some (h2, l2) => .next (s.putLine h2 { l2 with queue := l2.queue ++ [.cxlCacheResponse line data poisoned] })
    | none =>
    let s1 := match data with
      | some d => (s.write (s.place line) (d.take 128)).cleanse (s.place line) (d.take 128).length
      | none => s
    let s2 := if poisoned then
        (List.range 4).foldl (fun acc i => acc.setMark (line + 32 * i) { origin := 6, addr := line + 32 * i }) s1
      else s1
    if ln.way = 98 then
      let l1 := { ln with held := none, queue := [] }
      .next (((s2.dropLine h line).serve h l1 hd.ev hd.hreq).postFront ln.queue)
    else
      let own := ln.hostOwn || (hd.ev == 2 || hd.ev == 3 || hd.ev == 4)
      .next ((s2.putLine h { ln with held := none, queue := [], hostOwn := own, valid := 15,
                                     data := ln.data.map (fun d => (data.getD d)) }).recoded h line (ln.valid, s.lineData ln) |>.postFront
        (eventOf hd.ev hd.hreq :: ln.queue))

/-- A line no longer waits for the host, and nothing was done for the request that it waited for; a line that the host never
filled leaves its slice. -/
def State.endWait (s : State) (h : Nat) (ln : L2Line) (queue : List Instr) : State :=
  (if ln.way = 98 ∨ ln.valid = 0 then (s.dropLine h ln.line).wakeSlice h
   else s.putLine h { ln with held := none, queue := [] }).postFront queue

/-- A host-window request that gets no completion (R384, R425): the requesting unit meets LINKTO. Of a copy's sector the other
half is not written either (R115). -/
def execHostportTimeout (line : Nat) (s : State) : Host.Outcome State Fault Refusal :=
  match s.hostWait line with
  | none => .refused (.notEnabled "HOSTPORT_TIMEOUT")
  | some (h, ln, hd) =>
    let twin : Option (Nat × L2Line) := if writesHalf hd.hreq then s.slices.findSome? (fun e =>
        (e.2.lines.find? (fun l => l.line != line && l.held.any (fun x => x.tries == 100 && x.hreq.who == hd.hreq.who))).map (fun l => (e.1, l)))
      else none
    let s1 := match twin with
      | some (h2, l2) => s.endWait h2 l2 l2.queue
      | none => s
    .next ((s1.endWait h ln (ln.queue.filter (fun i => !(twin.any (fun x => answersLine x.2.line i))))).refuse hd.hreq 12
      (fun _ => linkInfo 3 s.pkg 1))

/-- The homes that hold a line of the host window, with its record: one, or in private mode some of each partition's. -/
def State.snooped (s : State) (line : Nat) : List (Nat × L2Line) :=
  s.slices.filterMap (fun e => (e.2.lines.find? (fun l => l.line == line && l.way != 98)).map (fun l => (e.1, l)))

/-- Whether a snoop waits for a line: until GT has reached its LH, and for a split row (R91). -/
def State.snoopWaits (s : State) (ln : L2Line) : Bool :=
  decide (s.gt < ln.lh) || s.isTransient ln || ln.held.any (fun hd => hd.tries != 100)

/-- A snoop of the host: every home that holds the line gives what `f` says, and one answer goes out, with the data of a home
that `shows` it; a line that no home holds is answered without. `wait` is the snoop itself, where it waits for GT = LH
(R91). -/
def State.snoop (s : State) (tag pa : Nat) (name : String) (wait : Option Instr) (shows : L2Line → Bool)
    (f : State → Nat → L2Line → State) : Host.Outcome State Fault Refusal :=
  let ls := s.snooped (lineOf pa)
  if targetOf pa ≠ .host then .refused (.notEnabled name)
  else match wait, ls.find? (fun x => s.snoopWaits x.2) with
    | some e, some (h, ln) => .next (s.putLine h { ln with queue := ln.queue ++ [e] })
    | _, _ =>
      .next (ls.foldl (fun acc x => f acc x.1 x.2)
        { s with sent := s.sent ++ [{ who := .host tag, kind := .snoop, line := lineOf pa,
                                      data := ((ls.find? (fun x => shows x.2)).map (fun x => s.lineData x.2)).getD [],
                                      old := 0, expiry := 0, wct := 0, due := s.gt, left := 0 }] })

/-- SnpInv: the line is given up, with its data if it was written; where a request of the device waits for the host its record
stays, without a valid sector. -/
def execSnpinv (tag pa : Nat) (s : State) : Host.Outcome State Fault Refusal :=
  s.snoop tag pa "SNPINV" (some (.snpinv tag pa)) L2Line.dirty (fun t h ln =>
    if ln.held.isSome then
      (if ln.dirty then t.writeAt (t.heldBytes ln) else t).putLine h { ln with valid := 0, hostOwn := false, dirty := false }
    else t.leaveLine h ln)

/-- SnpData: the line stays, shared with the host, which has its data now (log 110). -/
def execSnpdata (tag pa : Nat) (s : State) : Host.Outcome State Fault Refusal :=
  s.snoop tag pa "SNPDATA" (some (.snpdata tag pa)) L2Line.dirty (fun t h ln =>
    (if ln.dirty then t.writeAt (t.heldBytes ln) else t).putLine h { ln with hostOwn := false, dirty := false })

/-- SnpCur: the host reads the current bytes; nothing changes, and nothing is waited for (log 110). -/
def execSnpcur (tag pa : Nat) (s : State) : Host.Outcome State Fault Refusal :=
  s.snoop tag pa "SNPCUR" none (fun ln => ln.valid != 0) (fun t _ _ => t)

end Sys2Proof.Machine
end

