-- ==== Sys2Proof/Machine/Cache.lean ====
section
/-! DEFINITION. What a core does with answers and probes: copies kept (03/R56, R58, R80), lanes and sectors served
(06/R132 to R135), accesses through on-chip windows (04/R104, R105, 11/R278), ends of walks (02/R41, R45, R53) and the
other completions of the memory pipe (02/R439, 12/R302, R303). -/

namespace Sys2Proof.Machine

/-! ## Copies kept (R56) -/

/-- The poison of a line's words as its home holds it, by offset (R385, R386). -/
def State.lineMarks (s : State) (line : Nat) : Sparse Mark :=
  if s.poison = [] then []
  else (List.range 32).filterMap (fun i =>
    if (s.mark (s.place line + 4 * i)).origin = 0 then none else some (4 * i, s.mark (s.place line + 4 * i)))

/-- Whether a store of a core to a line is on its way: a copy granted meanwhile may lack its bytes (R133). -/
def State.storingTo (s : State) (core line : Nat) : Bool :=
  s.ops.any (fun e => coreOfWave e.2.wave == core && e.2.lanes.any (fun x => (x.writes.map (·.1)) == some line))

/-- The offset in its line of a lane's address. -/
def LaneOp.off (x : LaneOp) : Nat := x.va.toNat % 128

/-- Offsets of a line that stores of a core on their way to its home will write, those that check it out first only with
`out` (R135). -/
def State.ownBytes (s : State) (core line : Nat) (out : Bool) : List Nat :=
  s.ops.flatMap (fun e => if coreOfWave e.2.wave = core then
    e.2.lanes.flatMap (fun x => if x.writes = some (line, false) ∨ (out ∧ x.writes = some (line, true)) then
      (List.range x.data.length).map (x.off + ·) else []) else [])

/-- A granted copy put into a core's cache. An X or C copy that the core holds stays, with what was stored in it; a copy
is not kept while a store of the core to its line is on its way, nor while the cache is emptied for a grant (R56, R133,
R151). Of a C copy it is kept where it is older than the home, or lacks what the core has sent there (R79, R135). -/
def State.keepCopy (s : State) (r : Reply) (kind : CKind) : State :=
  let c : CacheCopy :=
    { line := r.line, kind := kind, data := r.data, expiry := r.expiry, lh := r.lh, dirty := [], writers := [],
      marks := s.lineMarks r.line, cls := s.classOf 1 r.line,
      old := if kind = .c then (((s.slice (s.homeOf r.core r.line)).lines.find? (fun l => l.line == r.line)).map (·.changed)).getD [] ++
          s.ownBytes r.core r.line false
        else [] }
  if (s.copyAt r.core r.line).any (fun x => decide (x.kind = .x ∨ x.kind = .c)) then s
  else if kind = .l ∧ r.expiry ≤ s.gt then s
  else if kind ≠ .c ∧ (s.storingTo r.core r.line ∨ s.vacating.contains r.core) then s.giveBack r.core c
  else s.setCache r.core (c :: (s.cacheOf r.core).filter (fun x => x.line != r.line))

/-- Lanes of an operation that wait for an answer, among those that it names. -/
def MemOp.waiting (o : MemOp) (lanes : List Nat) : List LaneOp := o.lanes.filter (fun x => lanes.contains x.lane && x.away)

/-- A leased or tracked copy that differs from the line that a load of its core now returns, or that was kept while an atomic
of the core changed the line, is given up: no later load of the core may find it (R135, R136). -/
def State.giveUpOld (s : State) (r : Reply) (always : Bool) : State :=
  match s.copyAt r.core r.line with
  | some c => if (c.kind = .l ∨ c.kind = .t) ∧ (always ∨ c.data ≠ r.data) then s.giveBack r.core c else s
  | none => s

/-- Loads, stores and atomics served by an answer (R132, R134, R139). -/
def State.serveOp (s : State) (id : Nat) (r : Reply) : State :=
  match Sparse.find s.ops id with
  | none => s
  | some o =>
    let xs := o.waiting r.lanes
    let ms : State → LaneOp → List Mark := fun acc x => acc.marksAt (acc.place (r.line + x.off)) (Nat.min o.size (128 - x.off))
    let done : State := match o.kind with
      | .store => (s.doneLanes id (xs.map (·.lane))).modLive o.wave (fun w => w.foldWct r.wct)
      | .atomic _ _ =>
        (xs.foldl (fun acc x => acc.landFrom id x.lane r.line (toBytes (Nat.min o.size 8) r.old.toNat) (ms acc x)) s).modLive
          o.wave (fun w => w.foldWct r.wct)
      | _ => xs.foldl (fun acc x => acc.landFrom id x.lane r.line ((r.data.drop x.off).take o.size) (ms acc x)) s
    (match o.kind with
     | .store => done
     | .atomic _ _ => done.giveUpOld r true
     | _ => done.giveUpOld r false).finishOp id

/-- Accesses of a core that waited for a line to be checked out tried again (R56, R135). -/
def State.retryCore (s : State) (core : Nat) : State :=
  ((s.ops.filter (fun (e : Nat × MemOp) => coreOfWave e.2.wave == core && (e.2.replay || !e.2.resume) &&
    e.2.lanes.any (fun x => decide (x.phase = .xlate)))).map (·.1)).foldl (fun acc id => acc.tryOp id) s

/-- A lane's store made in the C copy that its core holds. -/
def State.storeInCopy (s : State) (id wave : Nat) (r : Reply) (x : LaneOp) : State :=
  (s.modCopy r.core r.line (fun c => c.store (offBytes x.off x.data) true wave)).doneLanes id [x.lane]

/-- Whether a core holds a line checked out. -/
def State.holdsOut (s : State) (core line : Nat) : Bool := (s.copyAt core line).any (fun c => decide (c.kind = .c))

/-- The stores of an operation made in the C copy that has come for them; a second grant of a line that the core
holds checked out is given back (R56, R57). -/
def State.checkedOut (s : State) (id : Nat) (r : Reply) : State :=
  let s1 := if s.holdsOut r.core r.line then
      s.post (.drop { who := .cache r.core, core := r.core, line := r.line, lanes := [], bytes := [], need := [], atom := none,
                      scope := none, cc := 1, cp := 0, wp := 0, poison := [] })
    else s.keepCopy r .c
  (match Sparse.find s1.ops id with
   | none => s1
   | some o => ((o.waiting r.lanes).foldl (fun (acc : State) x => acc.storeInCopy id o.wave r x) s1).finishOp id).retryCore r.core

/-- A CKOUT answered with anything but DATA_C: the store is sent as WR (R57; log 114), unless another store has had the line
checked out meanwhile. -/
def State.uncheckedOut (s : State) (id : Nat) (r : Reply) : State :=
  (match Sparse.find s.ops id with
   | none => s
   | some o =>
     ((o.waiting r.lanes).foldl (fun (acc : State) x =>
       if acc.holdsOut r.core r.line then acc.storeInCopy id o.wave r x
       else (acc.modOp id (fun p => p.setPhase [x.lane] (.writing r.line false))).post (.wr (match acc.laneHit o x with
         | .ok pa a => { acc.reqOf id o [x.lane] pa o.size a with bytes := offBytes x.off x.data }
         | _ => { who := .op id, core := r.core, line := r.line, lanes := [x.lane], bytes := offBytes x.off x.data,
                  need := [], atom := none, scope := none, cc := 1, cp := 0, wp := 0, poison := [] }))) s).finishOp id).retryCore r.core

/-- What a copy reads at a virtual address: free values in a live wave's backing area (R157; log 18). -/
def State.copyRead (s : State) (key k j h : Nat) (bs : List Byte) : List Byte :=
  match s.copyOf key, s.segOf key k with
  | some c, some g =>
    if s.inBacking c.ctx (if g.push ≠ 0 then c.recVA else g.srcVa (4096 * k + 32 * j + 16 * h)) then
      (List.range bs.length).map (fun i => (Config.freeWord (64 * s.fresh + i)).setWidth 8)
    else bs
  | _, _ => bs

/-- A sector of a copy served by an answer; its lanes say which half it is and where in the line (R115, R308). -/
def State.serveSeg (s : State) (key k j : Nat) (r : Reply) (data : Bool) : State :=
  (r.lanes.foldl (fun acc x =>
    let off := x % 128
    let p := acc.place (r.line + off)
    if !data then acc.segWrote key k j r.wct
    else if ((acc.segOf key k).map (·.push)).getD 0 ≠ 0 then
      acc.pushRead key k (acc.copyRead key k j 0 ((r.data.drop off).take 64)) (acc.markIn p 64)
    else acc.segRead key k j (x / 128) (acc.copyRead key k j (x / 128) ((r.data.drop off).take 16)) (acc.markIn p 16)) s).draw

/-- A check-in or write-back acknowledged: its WCT goes to the waves that wait for it, and is kept for tasks whose waves
have ended (R80, R323). -/
def State.checkedIn (s : State) (r : Reply) : State :=
  r.lanes.foldl (fun acc w =>
    let acc1 := acc.modLive w (fun x => x.foldWct r.wct)
    match acc1.ops.find? (fun e => e.2.wave == w && decide (e.2.kind = .checkin) &&
        e.2.lanes.any (fun x => x.va.toNat == r.line && x.away)) with
    | some e => (acc1.doneLanes e.1 (e.2.lanes.map (·.lane))).finishOp e.1
    | none => acc1) { s with ewct := Nat.max s.ewct r.wct }

/-- An answer delivered to who waits for it. -/
def State.deliver (s : State) (r : Reply) (data : Bool) : State :=
  match r.who with
  | .op id => s.serveOp id r
  | .seg core copy k j => s.serveSeg (Copy.key core copy) k j r data
  | .cache _ => s.checkedIn r
  | _ => s

/-- Whether an answer is to a CKOUT, that is to stores that wait for a C copy. -/
def State.answersOut (s : State) (r : Reply) : Bool :=
  match r.who with
  | .op id => (Sparse.find s.ops id).any (fun o => o.lanes.any (fun x => r.lanes.contains x.lane && x.writes == some (r.line, true)))
  | _ => false

/-- An answer without a C copy, for who waits for it. -/
def State.answered (s : State) (r : Reply) (data : Bool) : State :=
  match r.who with
  | .op id => if s.answersOut r then s.uncheckedOut id r else s.deliver r data
  | _ => s.deliver r data

def execDataS (r : Reply) (s : State) : Host.Outcome State Fault Refusal :=
  .next (((if r.keep then s.keepCopy r (if r.leased then .l else .t) else s)).answered r true)

def execDataX (r : Reply) (s : State) : Host.Outcome State Fault Refusal :=
  .next ((s.keepCopy r .x).answered r true)

def execDataC (r : Reply) (s : State) : Host.Outcome State Fault Refusal :=
  match r.who with
  | .op id => .next (s.checkedOut id r)
  | _ => .next (s.keepCopy r .c)

def execAck (r : Reply) (s : State) : Host.Outcome State Fault Refusal := .next (s.answered r false)

def execAckData (r : Reply) (s : State) : Host.Outcome State Fault Refusal := .next (s.answered r true)

/-! ## Probes (R58) -/

def State.dropCopies (s : State) (core line : Nat) (f : CacheCopy → Bool) : State :=
  s.setCache core ((s.cacheOf core).filter (fun c => !(c.line == line && f c)))

/-- INV of a home slice: a core whose copies come from it gives up its leased and tracked copies; every core answers. -/
def execInv (core line home : Nat) (s : State) : Host.Outcome State Fault Refusal :=
  .next ((if s.homeOf core line = home then s.dropCopies core line (fun c => decide (c.kind = .l ∨ c.kind = .t)) else s).post
    (.iack core line home))

/-- UPD of a home slice: an older update leaves what stores of the core on their way will write (R135). -/
def execUpd (core line home : Nat) (bytes : List (Nat × Byte)) (s : State) : Host.Outcome State Fault Refusal :=
  .next ((if s.homeOf core line = home then s.modCopy core line (fun c =>
      c.store (bytes.filter (fun b => !(s.ownBytes core line true).contains b.1)) false 0) else s).post (.iack core line home))

/-- The request by which a core gives a line back, on its way or waiting at its home. -/
def givesBack (core line : Nat) (i : Instr) : Option HomeReq :=
  match i with
  | .wback r => if r.core = core ∧ r.line = line then some r else none
  | .drop r => if r.core = core ∧ r.line = line then some r else none
  | _ => none

/-- That request taken back, so that the answer to a RECALL can carry what it carried (R131; log 115). -/
def State.takeGiven (s : State) (core line : Nat) : State × Option HomeReq :=
  let f : Instr → Option HomeReq := givesBack core line
  let keep : List Instr → List Instr := fun is => is.filter (fun i => (f i).isNone)
  let all := s.agenda ++ s.slices.flatMap (fun e => e.2.wait ++ (e.2.lines.filter (fun l => l.line == line)).flatMap (·.queue))
  match all.findSome? f with
  | none => (s, none)
  | some r =>
    ({ s with
        agenda := keep s.agenda,
        slices := s.slices.map (fun (e : Nat × Slice) => (e.1, { e.2 with
          wait := keep e.2.wait,
          lines := e.2.lines.map (fun l => if l.line = line then { l with queue := keep l.queue } else l) })) }, some r)

/-- RECALL: the owner gives its X copy up, with the line if it was written; where it has given it back already, but the home has
not been reached, the answer carries what was given back. -/
def execRecall (core line : Nat) (s : State) : Host.Outcome State Fault Refusal :=
  match (s.cacheOf core).find? (fun c => c.line == line && decide (c.kind = .x)) with
  | some c =>
    .next ((s.dropCopies core line (fun c => decide (c.kind = .x))).post
      (.rcld core line (if c.dirty = [] then none else some c.data) (if c.dirty = [] then [] else c.poisoned)))
  | none =>
    let t := s.takeGiven core line
    let home := ((t.1.lineAt (t.1.homeOf core line) line).map t.1.lineData).getD []
    match t.2.filter (fun r => r.bytes != []) with
    | some r => .next (t.1.post (.rcld core line (some (patch home r.bytes)) r.poison))
    | none => .next (t.1.post (.rcld core line none []))

/-- A leased copy ends, silently, once GT has reached its expiry. -/
def execLCopyExpiry (core line : Nat) (s : State) : Host.Outcome State Fault Refusal :=
  if (s.cacheOf core).any (fun c => c.line == line && decide (c.kind = .l) && decide (c.expiry ≤ s.gt)) then
    .next (s.dropCopies core line (fun c => decide (c.kind = .l)))
  else .refused (.notEnabled "L_COPY_EXPIRY")

/-- A checked-out copy is checked in once GT has reached its expiry (R80). -/
def execCCopyExpiry (core line : Nat) (s : State) : Host.Outcome State Fault Refusal :=
  match (s.cacheOf core).find? (fun c => c.line == line && decide (c.kind = .c) && decide (c.expiry ≤ s.gt)) with
  | some c => .next (s.checkIn core c [])
  | none => .refused (.notEnabled "C_COPY_EXPIRY")

/-! ## Windows (R104, R105, R278) -/

/-- What a window access leaves with who made it. -/
def State.windowDone (s : State) (a : WindowAccess) (bs : List Byte) (ms : List Mark) : State :=
  let writes := a.bytes != [] && a.atom.isNone
  match a.who with
  | .op id =>
    let wv := ((Sparse.find s.ops id).map (·.wave)).getD 0
    let s1 := if writes || a.atom.isSome then s.modLive wv (fun w => w.foldWct s.gt) else s
    (if writes then s1.doneLanes id a.lanes else a.lanes.foldl (fun acc l => acc.landLane id l bs ms) s1).finishOp id
  | .seg core copy k j =>
    if writes then s.segWrote (Copy.key core copy) k j s.gt
    else if ((s.segOf (Copy.key core copy) k).map (·.push)).getD 0 ≠ 0 then
      s.pushRead (Copy.key core copy) k bs (ms.foldl Mark.join Mark.none)
    else s.segRead (Copy.key core copy) k j (a.lanes.headD 0 / 128) bs (ms.foldl Mark.join Mark.none)
  | _ => s

/-- A window access performed. An atomic reads and writes the shadow half of a shadowed range (R299); what it stores carries
the poison of what it read, but for AXCHG (R385, R386). -/
def State.windowPerform (s : State) (a : WindowAccess) : State :=
  let core := (a.pa - 0x10000000000) / 0x200000
  let off := a.pa % 0x200000
  match a.atom with
  | some x =>
    let old := s.windowRead core off a.size a.raw true
    let new := offBytes 0 (toBytes a.size (atomEval x (ofBytes old)))
    ((if x.op = .xchg then s.windowWrite core off a.raw new else s.windowPut core off a.raw new).windowDone a old
      (s.windowMarks core off a.size a.raw true))
  | none =>
    if a.bytes = [] then
      s.windowDone a (s.windowRead core off a.size a.raw false) (s.windowMarks core off a.size a.raw false)
    else (s.windowWrite core off a.raw a.bytes).windowDone a [] []

/-- An access to a core's window; it is held while a matrix operation has still to read what it writes, or works on
its tile. -/
def execOnchipWindowAccess (a : WindowAccess) (s : State) : Host.Outcome State Fault Refusal :=
  let core := (a.pa - 0x10000000000) / 0x200000
  if a.pa ≥ 2 ^ 52 then .fault (.beyondMap a.pa)
  else if targetOf a.pa ≠ .onchip ∨ a.pa % 0x200000 ≥ 0x1C0000 then .refused (.notEnabled "ONCHIP_WINDOW_ACCESS")
  else if s.windowWaits a then .next (s.setEngine core { s.engine core with held := (s.engine core).held ++ [a] })
  else .next (s.windowPerform a)

/-- Held accesses of a core that no longer wait are performed, in their order. -/
def State.releaseHeld (s : State) (core : Nat) : State :=
  let hs := (s.engine core).held
  hs.foldl (fun acc a =>
    if acc.windowWaits a then acc.setEngine core { acc.engine core with held := (acc.engine core).held ++ [a] }
    else acc.windowPerform a) (s.setEngine core { s.engine core with held := [] })

/-! ## Refusals that come late, results (R439, R302, R303) -/

def execLateFault (op : Nat) (lanes : List Nat) (cls : Nat) (finfo : Dword) (s : State) :
    Host.Outcome State Fault Refusal :=
  .next ((s.failLanes op lanes cls finfo).retryCore (coreOfWave (((Sparse.find s.ops op).map (·.wave)).getD 0)))

/-- A long-latency result is written. -/
def execLongLatencyResult (op : Nat) (s : State) : Host.Outcome State Fault Refusal :=
  match Sparse.find s.ops op with
  | some o =>
    (match o.kind with
     | .long vals =>
       .next ((s.modLive o.wave (fun w => (o.dst.zipIdx).foldl (fun acc d =>
         acc.lwrite d.1 (fun l => (Sparse.find vals l).map (fun ws => ws.getD d.2 0))) w)).dropOp op o.wave)
     | _ => .refused (.notEnabled "LONG_LATENCY_RESULT"))
  | none => .refused (.notEnabled "LONG_LATENCY_RESULT")

/-- Whether an access of a line for which `f` holds has not reached its home: a request is on its way or waits, a lane's store waits
to be sent, or a C copy holds stores (R52, R302). -/
def State.underWay (s : State) (f : Nat → Bool) : Bool :=
  let some_ : List Instr → Bool := fun is => is.any (fun i => (reqOfEvent i).any (fun r => f r.line))
  some_ s.agenda || s.turns.any (fun t => match t with
    | .event i => (reqOfEvent i).any (fun r => f r.line)
    | _ => false) ||
  s.slices.any (fun (e : Nat × Slice) => some_ e.2.wait || e.2.lines.any (fun l =>
    (l.held.isSome || decide (l.queue ≠ [])) && f l.line)) ||
  s.link.any (fun (l : Link) => match l.work with
    | .req _ _ r => f r.line
    | _ => false) ||
  s.ops.any (fun (e : Nat × MemOp) => e.2.lanes.any (fun x => match x.phase with
    | .writing l _ => f l
    | _ => false)) ||
  s.caches.any (fun (e : Nat × List CacheCopy) => e.2.any (fun c => decide (c.kind = .c) && decide (c.dirty ≠ []) && f c.line))

/-- Whether what translated through the entries that an XINV cleared has all reached its home (R302). -/
def State.xinvDone (s : State) (frames : List (Nat × Nat)) : Bool :=
  decide (frames = []) || !s.underWay (fun line => frames.any (fun r => inRange r line || inRange r (line + 127)))

/-- An XINV retires once what it waits for is done; until then it stays. -/
def execXinvComplete (op : Nat) (s : State) : Host.Outcome State Fault Refusal :=
  match Sparse.find s.ops op with
  | some o =>
    (match o.kind with
     | .xinv fs => .next (if s.xinvDone fs then s.dropOp op o.wave else s)
     | _ => .refused (.notEnabled "XINV_COMPLETE"))
  | none => .refused (.notEnabled "XINV_COMPLETE")

/-- GT has passed what a wave waits for at a fence (R141): the wave may look again. -/
def execFenceGtPass (wave : Nat) (s : State) : Host.Outcome State Fault Refusal :=
  match Sparse.find s.waves wave with
  | some w =>
    if w.status = .waiting ∧ w.stage ≠ 0 ∧ s.gt > w.lwct then .next (s.setWave wave { w with status := .ready })
    else .refused (.notEnabled "FENCE_GT_PASS")
  | none => .refused (.notEnabled "FENCE_GT_PASS")

/-! ## The end of a walk (R41, R45, R53) -/

/-- Copies of a cluster with segments that still have sectors to translate: key and segment. -/
def State.stalledSegs (s : State) (cl : Nat) : List (Nat × Nat) :=
  (s.copies.filter (fun e => clusterOfCore (e.1 / 128) == cl)).flatMap (fun e =>
    (e.2.segs.filter (fun g => !g.2.parked && g.2.sectors.any (fun x => decide (x.2 = .wait)))).map (fun g => (e.1, g.1)))

/-- A segment's untranslated part tried again. -/
def State.retrySeg (s : State) (key k : Nat) : State :=
  if ((s.segOf key k).map (·.push)).getD 0 = 1 then s.tryPush key k else s.trySeg key k

/-- Addresses of a sector that have no translation at hand. -/
def State.sectorMisses (s : State) (key k j : Nat) : List Dword :=
  match s.copyOf key, s.segOf key k with
  | some c, some g =>
    if g.push = 1 then (if s.halfHit c (key / 128) Frame.empty .copyRead c.recVA = .miss then [c.recVA] else [])
    else (s.sectorCheck key c g k j).1
  | _, _ => []

/-- A walk without a leaf, for the sectors that wait for it. -/
def State.segWalkFails (s : State) (key seg : Nat) (k : WalkKey) (e : WalkEnd) : State :=
  match s.copyOf key, s.segOf key seg with
  | some c, some g =>
    if s.asid c.ctx ≠ k.asid then s
    else
      (g.sectors.filter (fun x => decide (x.2 = .wait))).foldl (fun acc x =>
        match (acc.sectorMisses key seg x.1).find? (fun va => pageOf va == k.page) with
        | none => acc
        | some va =>
          let code := if c.op.memSrc && ((c.halves seg x.1).map g.srcVa).contains va || g.push == 1 then 4 else 5
          match e with
          | .bad r lvl =>
            let b := acc.enterBuffer k.cluster (3, segUnit key seg) k.asid c.ctx k.page lvl r
            b.1.setSector key seg x.1 (.fail 5 (accessInfo r 0 lvl code b.2) va (some k.page))
          | .migrating d i => (acc.joinMig d i (3, segUnit key seg)).setSector key seg x.1 (.mig d i va)
          | .poisoned m => acc.setSector key seg x.1 (.fail 10 (eccInfo m.origin 9 false 0) (dw m.addr) none)
          | .leaf _ _ _ => acc
          | .held => acc) s
  | _, _ => s

/-- Cores of a cluster with a unit that waits for a walk. -/
def State.walkCores (s : State) (k : WalkKey) : List Nat :=
  let waves := (s.ops.filter (fun (e : Nat × MemOp) => e.2.lanes.any (fun x => s.waitsFor e.2 x k))).map (fun e => coreOfWave e.2.wave)
  let segs := (s.stalledSegs k.cluster).map (fun x => x.1 / 128)
  let runs := (s.indigo.filter (fun (e : Nat × Indigo) => e.2.live && s.asid (s.wave e.1).ctx == k.asid)).map (fun e => coreOfWave e.1)
  ((waves ++ segs ++ runs).filter (fun c => clusterOfCore c == k.cluster)).eraseDups

/-- Every unit of a cluster that lacked a translation tries again; after a walk without a leaf a wave that stands
parked waits until it goes on. -/
def State.retryAll (s : State) (cl : Nat) (found : Bool) : State :=
  let able : Nat → Bool := fun id => match Sparse.find s.ops id with
    | some o => found || o.kind.silent || s.mayPark id o
    | none => false
  (s.stalledSegs cl).foldl (fun acc x => acc.retrySeg x.1 x.2)
    (((s.stalled cl).filter able).foldl (fun acc id => acc.tryOp id) s)

/-- A walk is over. One that meets HBM that nothing serves stays outstanding (R431, R13). -/
def execWalkComplete (k : WalkKey) (s : State) : Host.Outcome State Fault Refusal :=
  if !s.walks.contains k then .refused (.notEnabled "WALK_COMPLETE")
  else
    let s1 := { s with walks := s.walks.filter (· != k) }
    let va := sext57 (k.page * 65536)
    match s1.walk (4 * k.cluster) k.ctx va with
    | .leaf e a lvl =>
      .next (((s1.walkCores k).foldl (fun acc c => acc.tlbFill c (tlbOf k.asid k.page e a lvl)) s1).retryAll k.cluster true)
    | .held => .next s
    | w =>
      let s2 := (s1.stalled k.cluster).foldl (fun acc id => (acc.walkFails id k w).finishOp id) s1
      let s3 := (s2.stalledSegs k.cluster).foldl (fun acc x => acc.segWalkFails x.1 x.2 k w) s2
      .next (s3.retryAll k.cluster false)

end Sys2Proof.Machine
end

