-- ==== Sys2Proof/Machine/Control.lean ====
section
/-! DEFINITION. Branches, calls and windows, the mask stack, modes, regions, signatures, special registers,
constants, traps (07/R155, R170, R171, 09/R205, R209, 10/R249, R252 to R259, 13/R345, 15/R388). -/

namespace Sys2Proof.Machine

/-! ## Branches (R205, R252) -/

/-- Whether a branch is taken. -/
def Wave.taken (w : Wave) (m : Nat) (c : BCond) : Bool :=
  let z := if m = 0 then w.exm == 0 else w.kread m &&& w.exm == 0
  let f := if m = 0 then w.exm == w.cut (~~~ 0) else w.kread m &&& w.exm == w.exm
  match c with
  | .always => true
  | .t => w.cct
  | .f => !w.cct
  | .z => z
  | .nz => !z
  | .full => f
  | .nfull => !f

/-- PC + 4 × sext(imm20) for the instruction before the PC. -/
def Wave.relTarget (w : Wave) (off : BitVec 20) : Dword := w.pc - 4 + 4 * off.signExtend 64

def execBr (m : Low) (c : BCond) (off : BitVec 20) (s : State) : Host.Outcome State Fault Refusal :=
  s.issue (.br m c off) (fun t =>
    if t.curWave.taken m c then t.setCur { t.curWave with pc := t.curWave.relTarget off } else t)

/-- The information word of R253. -/
def jumpInfo (reason : Nat) : Dword := dw (reason * 2 ^ 56)

/-- A target that is not a multiple of 4 (R253). -/
def targetCheck (t : Dword) : Option (Nat × Dword × Dword) :=
  if t.toNat % 4 ≠ 0 then some (7, t, jumpInfo 0x30) else none

def execJmpr (a : Reg) (s : State) : Host.Outcome State Fault Refusal :=
  s.issueWith (.jmpr a) (targetCheck (s.curWave.v64 a s.curWave.uniform)) .ok (fun t =>
    t.setCur { t.curWave with pc := s.curWave.v64 a s.curWave.uniform })

/-! ## Calls and windows (R155) -/

/-- The information word of SPILL for a reason of its own (R158). -/
def spillInfo (reason : Nat) : Dword := accessInfo reason 0 0 7 15

/-- The depth limits of a call. -/
def Wave.callCheck (w : Wave) : Option (Nat × Dword × Dword) :=
  if w.cdepth = 4096 ∨ w.wb + w.sz > w.stkmax then some (20, 0, spillInfo 0x20) else none

/-- The link word of a call at a PC. -/
def Wave.linkWord (w : Wave) (pc : Dword) : Dword :=
  dw ((w.sz / 8 - 1) * 2 ^ 55 + (pc + 4).toNat / 4 % 2 ^ 55)

/-- The place of link word i beyond the sixteen that the wave holds (R157). -/
def Wave.linkAt (w : Wave) (i : Nat) : Dword := w.bb + dw (0x80000 + 8 * i)

/-- A link word at index 16 or above goes to the backing area at its call, and its RET reads it back: R155 ties its spill and fill
to those of the register group spilled last before the call (log 123). -/
def State.spillLink (s : State) : Move :=
  let w := s.curWave
  if w.cdepth < 16 then .ok s
  else s.backWrite s.cur w (w.linkAt w.cdepth) (toBytes 8 (w.linkWord w.pc).toNat)

/-- The window of a callee; the instruction before the PC is the call. -/
def Wave.enterCall (w : Wave) (target : Dword) : Wave :=
  { w with links := if w.cdepth < 16 then Sparse.put w.links w.cdepth (w.linkWord (w.pc - 4)) else w.links,
           cdepth := w.cdepth + 1, wb := w.wb + w.sz - 8, sz := 8, pc := target }

/-- A call form: `bad` is the check of its target, made before the depth limits (log 38). -/
def State.callOp (s : State) (i : Instr) (bad : Option (Nat × Dword × Dword)) (target : Wave → Dword) :
    Host.Outcome State Fault Refusal :=
  s.issueWith i (bad.orElse (fun _ => s.curWave.callCheck)) State.spillLink
    (fun t => t.setCur (t.curWave.enterCall (target t.curWave)))

def execCall (off : BitVec 20) (s : State) : Host.Outcome State Fault Refusal :=
  s.callOp (.call off) none (fun w => w.relTarget off)

def execCallr (a : Reg) (s : State) : Host.Outcome State Fault Refusal :=
  s.callOp (.callr a) (targetCheck (s.curWave.v64 a s.curWave.uniform)) (fun w => w.v64 a w.uniform)

/-- The kernel that a wave runs. -/
def State.kernelOf (s : State) (w : Wave) : Option Kernel := (s.task w.task).bind (fun t => t.kernel)

/-- GOT slot n of the wave's object, if it has one (R252, R253). -/
def State.gotSlot (s : State) (w : Wave) (n : Nat) : Option Dword :=
  (s.kernelOf w).bind (fun k => if n < k.gotSlots then some (dw (s.newestNat (coreOfWave s.cur) (k.gotPA + 8 * n) 8)) else none)

def execCallg (slot : BitVec 12) (s : State) : Host.Outcome State Fault Refusal :=
  s.callOp (.callg slot)
    (match s.gotSlot s.curWave slot.toNat with
     | none => some (7, dw slot.toNat, jumpInfo 0x31)
     | some t => targetCheck t)
    (fun _ => (s.gotSlot s.curWave slot.toNat).getD 0)

/-- A wave whose span ends at hi: registers from there on hold no value, no mark and no tag (R153, R155). -/
def Wave.cutAt (w : Wave) (hi : Nat) : Wave :=
  { w with hi := hi, regs := w.regs.filter (fun e => decide (e.1 < hi)),
           rpoison := w.rpoison.filter (fun e => decide (e.1 / 64 < hi)), tags := w.tags.filter (fun e => decide (e.1 < hi)) }

/-- ENTER: the window takes its size, and registers above it lose their values: they stand at or above hi (DEDUCED,
log 45). -/
def execEnter (n : BitVec 12) (s : State) : Host.Outcome State Fault Refusal :=
  s.issueWith (.enter n)
    (if s.curWave.wb + n.toNat > s.curWave.stkmax then some (20, 0, spillInfo 0x20) else none)
    (fun t => t.makeResident t.cur t.curWave.wb (t.curWave.wb + n.toNat))
    (fun t => t.setCur { t.curWave.cutAt (t.curWave.wb + n.toNat) with sz := n.toNat })

/-- The link word that RET pops; deeper ones are read back from the backing area. -/
def State.topLink (s : State) : Reach × Dword :=
  let w := s.curWave
  match Sparse.find w.links (w.cdepth - 1) with
  | some x => (.ok 0 0, x)
  | none =>
    match s.reach (coreOfWave s.cur) w.ctx w.sys .load 7 (w.linkAt (w.cdepth - 1)) with
    | .ok p leaf => (.ok p leaf, dw (s.newestNat (coreOfWave s.cur) p 8))
    | r => (r, 0)

/-- The wave with the caller's window, before its registers are brought back. -/
def Wave.leaveCall (w : Wave) (link : Dword) : Wave :=
  let sz := 8 * (fld link 55 3 + 1)
  { w with sz := sz, wb := w.wb - (sz - 8), cdepth := w.cdepth - 1, hi := Nat.min w.hi (w.wb - (sz - 8) + sz) }

/-- The return PC of a link word, canonical (R155). -/
def linkPc (link : Dword) : Dword :=
  dw (fld link 0 55 * 4 + (if fld link 54 1 = 1 then 2 ^ 64 - 2 ^ 57 else 0))

/-- The wave a RET leads to: window, PC, and the region ended when the call depth falls below it (R388). -/
def Wave.returned (w : Wave) (link : Dword) : Wave :=
  let x := w.leaveCall link
  { x.cutAt x.hi with
    pc := linkPc link,
    links := w.links.filter (fun e => decide (e.1 < x.cdepth)),
    rer := (match w.region with
      | some r => if x.cdepth < r.cdepth then w.rer &&& ~~~ 1 else w.rer
      | none => w.rer) }

/-- The caller's window brought back before RET issues; the span's top is lowered by RET itself. -/
def State.fillCaller (s : State) (link : Dword) : Move :=
  let w := s.curWave
  let x := w.leaveCall link
  match (s.setCur { w with hi := x.hi }).makeResident s.cur x.wb (x.wb + x.sz) with
  | .ok t => .ok (t.setCur { t.curWave with hi := Nat.max w.hi t.curWave.hi })
  | .wait t => .wait (t.setCur { t.curWave with hi := w.hi })
  | .fault t c a i => .fault (t.setCur { t.curWave with hi := w.hi }) c a i

def execRet (s : State) : Host.Outcome State Fault Refusal :=
  if s.curWave.cdepth = 0 then s.issue .ret (fun t => t.endWave t.cur false)
  else
    s.issueWith .ret none
      (fun t => match t.topLink with
        | (.ok _ leaf, x) => (if leaf = 0 then t else t.setAD (coreOfWave t.cur) leaf false).fillCaller x
        | (r, _) => r.stop t (t.curWave.linkAt (t.curWave.cdepth - 1)))
      (fun t => t.setCur (t.curWave.returned s.topLink.2))

def execExit (s : State) : Host.Outcome State Fault Refusal :=
  s.issue .exit (fun t => t.endWave t.cur false)

/-! ## The mask stack (R170) -/

/-- The place of mask-stack entry e (R157). -/
def Wave.maskAt (w : Wave) (e : Nat) : Dword := w.bb + dw (0x88000 + 32 * e)

def MaskEntry.bytes (e : MaskEntry) : List Byte :=
  toBytes 8 e.exm.toNat ++ toBytes 8 e.t.toNat ++ toBytes 8 e.gmode.toNat ++ toBytes 8 (if e.els then 1 else 0)

/-- The entry that a push puts beyond the newest sixteen goes to the backing area. -/
def State.spillMask (s : State) : Move :=
  let w := s.curWave
  if w.msd < 16 then .ok s
  else match Sparse.find w.mstack (w.msd - 16) with
    | none => .ok s
    | some e =>
      (s.backWrite s.cur w (w.maskAt (w.msd - 16)) e.bytes).bind (fun t =>
        .ok (t.setCur { t.curWave with mstack := Sparse.erase t.curWave.mstack (w.msd - 16) }))

/-- A mask-stack entry as the backing area holds it: lane masks are cut to the wave's lanes, reserved bits of GMODE are
lost (R4, R8). -/
def Wave.entryOf (w : Wave) (exm t gmode els : Nat) : MaskEntry :=
  { exm := w.cut (dw exm), t := w.cut (dw t), gmode := dw (gmode % 2 ^ 61), els := els % 2 == 1 }

/-- The top entry brought into the wave where it was spilled. -/
def State.fillMask (s : State) : Move :=
  let w := s.curWave
  let core := coreOfWave s.cur
  match Sparse.find w.mstack (w.msd - 1) with
  | some _ => .ok s
  | none =>
    match s.reach core w.ctx w.sys .load 7 (w.maskAt (w.msd - 1)) with
    | .ok p leaf =>
      .ok ((s.setAD core leaf false).setCur { w with
        mstack := Sparse.put w.mstack (w.msd - 1) (w.entryOf (s.newestNat core p 8) (s.newestNat core (p + 8) 8)
          (s.newestNat core (p + 16) 8) (s.newestNat core (p + 24) 8)) })
    | r => r.stop s (w.maskAt (w.msd - 1))

/-- The signature step of a mask-stack instruction (R258). -/
def Wave.foldEvent (w : Wave) (code : Nat) : Wave :=
  { w with sigr := sigStep w.sigr (code + (if w.exm = 0 then 128 else 0)) }

/-- The top of the mask stack. -/
def Wave.topMask (w : Wave) : MaskEntry := Sparse.get MaskEntry.empty w.mstack (w.msd - 1)

def Wave.mpush (w : Wave) (k : Nat) : Wave :=
  ({ w with
      mstack := Sparse.put w.mstack w.msd { exm := w.exm, t := w.exm &&& w.kread k, gmode := w.gmode, els := false },
      msd := w.msd + 1, exm := w.exm &&& w.kread k }).foldEvent 1

def Wave.melse (w : Wave) : Wave :=
  ({ w with
      exm := w.topMask.exm &&& ~~~ w.topMask.t, gmode := w.topMask.gmode,
      mstack := Sparse.put w.mstack (w.msd - 1) { w.topMask with els := true } }).foldEvent 2

def Wave.mpop (w : Wave) : Wave :=
  ({ w with
      exm := w.topMask.exm, gmode := w.topMask.gmode, msd := w.msd - 1, mstack := Sparse.erase w.mstack (w.msd - 1),
      rer := (match w.region with
        | some r => if w.msd - 1 < r.msd then w.rer &&& ~~~ 1 else w.rer
        | none => w.rer) }).foldEvent 3

def execMpush (k : Low) (s : State) : Host.Outcome State Fault Refusal :=
  s.issueWith (.mpush k) (if s.curWave.msd = 256 then some (20, 0, spillInfo 0x21) else none) State.spillMask
    (fun t => t.setCur (t.curWave.mpush k))

def execMelse (s : State) : Host.Outcome State Fault Refusal :=
  s.issueWith .melse (if s.curWave.msd = 0 then some (20, 0, spillInfo 0x22) else none) State.fillMask
    (fun t => t.setCur t.curWave.melse)

def execMpop (s : State) : Host.Outcome State Fault Refusal :=
  s.issueWith .mpop (if s.curWave.msd = 0 then some (20, 0, spillInfo 0x22) else none) State.fillMask
    (fun t => t.setCur t.curWave.mpop)

/-! ## Modes (R256) -/

def execSetm (a : Reg) (s : State) : Host.Outcome State Fault Refusal :=
  s.issue (.setm a) (fun t =>
    t.setCur { t.curWave with gmode := dw (fld (t.curWave.v64 a t.curWave.uniform) 0 61) })

/-- Where a SETMF field begins (R165, R206). -/
def setmfLow (f : Nat) : Nat :=
  match f with
  | 0 => 0
  | 1 => 3
  | 2 => 7
  | 3 => 10
  | 4 => 12
  | 5 => 13
  | 6 => 16
  | 7 => 21
  | 8 => 29
  | 9 => 37
  | 10 => 45
  | _ => 53

def execSetmf (f : Fin 16) (v : BitVec 8) (s : State) : Host.Outcome State Fault Refusal :=
  s.issue (.setmf f v) (fun t =>
    t.setCur { t.curWave with gmode := setFld t.curWave.gmode (setmfLow f.val) (setmfWidth f.val) v.toNat })

def execGetm (d : Reg) (s : State) : Host.Outcome State Fault Refusal :=
  s.laneOp (.getm d) d 2 [] (fun w _ => plain w.gmode.toNat)

/-! ## Regions, NOP, signatures (R257, R259, R388) -/

/-- The region-entry state of a wave. -/
def Wave.regionOf (w : Wave) : Region :=
  { exm := w.exm, gmode := w.gmode, cct := w.cct, sigr := w.sigr, msd := w.msd, cdepth := w.cdepth, wb := w.wb, sz := w.sz }

def execRegn (s : State) : Host.Outcome State Fault Refusal :=
  s.issue .regn (fun t =>
    t.setCur { t.curWave with region := some t.curWave.regionOf, rer := t.curWave.pc ||| 1, restarts := 0 })

def execNop (s : State) : Host.Outcome State Fault Refusal := s.issue .nop (fun t => t)

def execSigchk (x : BitVec 20) (s : State) : Host.Outcome State Fault Refusal :=
  s.issueWith (.sigchk x)
    (if s.curWave.sigr.toNat % 2 ^ 20 ≠ x.toNat then some (14, 0, dw (s.curWave.sigr.toNat * 2 ^ 32 + x.toNat)) else none)
    .ok (fun t => t.setCur { t.curWave with sigr := 0 })

/-! ## Special registers (R171) -/

/-- The value of a special register in a lane; `sigr` is SIGR before the reading instruction folded. -/
def State.special (s : State) (w : Wave) (sigr : Word) (n l : Nat) : Nat :=
  let g := s.wg w.wg
  match n with
  | 0x00 => l
  | 0x01 => w.tid.getD l 0
  | 0x02 => w.wid
  | 0x03 => (g.map (·.wgid)).getD 0
  | 0x04 => (g.map (fun k => k.wgid / Nat.max 1 (((s.task k.task).map (·.gsz)).getD 1))).getD 0
  | 0x05 => (g.map (·.gangIx)).getD 0
  | 0x06 => (g.bind (fun k => (s.task k.task).map (·.nwg))).getD 0
  | 0x07 => (g.map (fun k => k.waves.length * w.width)).getD 0
  | 0x08 => (g.map (fun k => k.waves.length)).getD 0
  | 0x09 => w.width
  | 0x0A => (match w.role with
    | .copy => 0
    | .matrix => 1
    | .vector => 2)
  | 0x0B => coreOfWave s.cur
  | 0x0C => s.pkg
  | 0x0D => w.wb
  | 0x0E => w.sz
  | 0x0F => w.seg
  | 0x10 => w.cnt
  | 0x11 => w.msd
  | 0x12 => (g.map (·.spb)).getD 0
  | 0x13 => (g.map (·.l)).getD 0
  | 0x14 => (g.map (·.s)).getD 0
  | 0x15 => if (g.map (·.cur)).getD false then 1 else 0
  | 0x16 => sigr.toNat
  | 0x17 => w.rer.toNat
  | 0x18 => s.gt
  | 0x19 => w.gthi.toNat
  | 0x1A => w.lwct
  | 0x1B => w.lwcthi.toNat
  | _ => w.cdepth

def execSread (d : Reg) (n : Fin 64) (s : State) : Host.Outcome State Fault Refusal :=
  s.issue (.sread d n) (fun t =>
    let u := t.laneWrite (.sread d n) d 1 [] (fun l => plain (t.special t.curWave s.curWave.sigr n l))
    u.setCur (if n.val = 0x18 then { u.curWave with gthi := wd (t.gt / 2 ^ 32) }
      else if n.val = 0x1A then { u.curWave with lwcthi := wd (t.curWave.lwct / 2 ^ 32) } else u.curWave))

/-! ## Constants (R249) -/

/-- The offset of a lane. -/
def Wave.constOff (w : Wave) (a : Reg) (imm : BitVec 12) (l : Nat) : Dword := dw (w.v a l).toNat + imm.signExtend 64

/-- Whether an offset lies in the constant block. -/
def constOk (size : Nat) (off : Dword) : Bool := off.toNat % 4 == 0 && decide (off.toNat + 4 ≤ size)

def execLdc (d a : Reg) (imm : BitVec 12) (s : State) : Host.Outcome State Fault Refusal :=
  s.issue (.ldc d a imm) (fun t =>
    let w := t.curWave
    let k := t.kernelOf w
    let size := (k.map (·.constSz)).getD 0
    let base := (k.map (·.constPA)).getD 0
    let ok : Nat → Bool := fun l => constOk size (w.constOff a imm l)
    let at_ : Nat → Nat := fun l => t.place (base + (w.constOff a imm l).toNat)
    let u := t.setCur ((w.lwrite (w.wb + d.val) (fun l =>
      if w.active l && ok l then some (wd (t.newestNat (coreOfWave t.cur) (base + (w.constOff a imm l).toNat) 4)) else none)).markLanes d (w.lanes.filter ok)
        (fun l => t.mark (at_ l)))
    match w.lanes.filter (fun l => !ok l) with
    | [] => u
    | l0 :: rest =>
      u.parkWave t.cur
        { cls := 7, faddr := w.constOff a imm l0, finfo := jumpInfo 0x32, pre := false, pc := w.pc - 4,
          iword := encode (.ldc d a imm), npc := w.pc, ahead := 0,
          unf := dw (maskOf w.width (fun l => w.active l && !ok l)), gmode := w.gmode,
          vas := (l0 :: rest).map (fun l => (l, w.constOff a imm l)), srcs := [], status := 0 })

/-! ## Traps and escapes (R345, R208, R209) -/

def execTrap (c : BitVec 12) (s : State) : Host.Outcome State Fault Refusal :=
  s.issue (.trap c) (fun t =>
    t.parkWave t.cur { cls := 21, faddr := dw c.toNat, finfo := 0, pre := false, pc := t.curWave.pc - 4,
                       iword := encode (.trap c), npc := t.curWave.pc, ahead := 0, unf := 0, gmode := t.curWave.gmode,
                       vas := [], srcs := [], status := 0 })

def execBkpt (c : BitVec 12) (s : State) : Host.Outcome State Fault Refusal :=
  s.issueWith (.bkpt c) (some (22, dw c.toNat, 0)) .ok (fun t => t)

/-- ESC parks its wave for a translation layer. -/
def execEsc (x y : Fin 64) (z : BitVec 12) (s : State) : Host.Outcome State Fault Refusal :=
  .next (s.parkUnimpl s.cur (encode (.esc x y z)) 2 3)

/-- The subclass of a word without a meaning (R210): FIELD goes before PAIR, also for the fields that only W64
refuses. -/
def Wave.wordSubclass (w : Wave) (x : Word) : Option Nat :=
  match decode x with
  | .ok _ => none
  | .error .opcode => some 1
  | .error .field => some 2
  | .error .pair =>
    match decodeFields x.toNat with
    | .ok i => if w.w64 && i.w64Field then some 2 else some 4
    | .error _ => some 4

/-- A word that the decoder refuses parks its wave; the event does not arise for any other word. -/
def execUnassignedWord (w : BitVec 32) (s : State) : Host.Outcome State Fault Refusal :=
  match s.curWave.wordSubclass w with
  | some sub => .next (s.parkUnimpl s.cur w 1 sub)
  | none => .refused (.notEnabled "UNASSIGNED_WORD")

end Sys2Proof.Machine
end

