-- ==== Sys2Proof/Machine/Cross.lean ====
section
/-! DEFINITION. Instructions across lanes, on quads, on masks, and moves (10/R239 to R246). -/

namespace Sys2Proof.Machine

/-- A value moved from source lanes: `src` gives the lane whose value, after pA, lane l receives. -/
def State.moveFrom (s : State) (i : Instr) (d : Reg) (p : Sel) (a : Reg) (src : Wave → Nat → Nat) :
    Host.Outcome State Fault Refusal :=
  s.issue i (fun t =>
    let w := t.curWave
    t.setCur ((w.putVal d w.vcount (fun l => w.valP p a (src w l))).markTo d w.vcount
      (fun l => w.srcMark [(a, w.vcount, p)] (src w l))))

/-! ## Lanes and quads (R240, R241) -/

/-- The source lane of SHFL. -/
def shflLane (m : ShflMode) (width l b : Nat) : Nat :=
  match m with
  | .idx => b % width
  | .up => if l < b % width then l else l - b % width
  | .dn => if l + b % width ≥ width then l else l + b % width
  | .xor => l ^^^ (b % width)

def execShfl (d : Reg) (p : Sel) (a : Reg) (q : Sel) (b : Reg) (m : ShflMode) (s : State) :
    Host.Outcome State Fault Refusal :=
  s.issue (.shfl d p a q b m) (fun t =>
    let w := t.curWave
    let src : Nat → Nat := fun l => shflLane m w.width l (w.v b (w.srcLane q l)).toNat
    t.setCur ((w.putVal d w.vcount (fun l => w.valP p a (src l))).markTo d w.vcount (fun l =>
      if (w.srcMark [(b, 1, q)] l).origin ≠ 0 then w.srcMark [(b, 1, q)] l
      else w.srcMark [(a, w.vcount, p)] (src l))))

def execQxh (d : Reg) (p : Sel) (a : Reg) (s : State) : Host.Outcome State Fault Refusal :=
  s.moveFrom (.qxh d p a) d p a (fun _ l => l ^^^ 1)

def execQxv (d : Reg) (p : Sel) (a : Reg) (s : State) : Host.Outcome State Fault Refusal :=
  s.moveFrom (.qxv d p a) d p a (fun _ l => l ^^^ 2)

def execQxd (d : Reg) (p : Sel) (a : Reg) (s : State) : Host.Outcome State Fault Refusal :=
  s.moveFrom (.qxd d p a) d p a (fun _ l => l ^^^ 3)

def execQbc (d : Reg) (p : Sel) (a : Reg) (n : Fin 4) (s : State) : Host.Outcome State Fault Refusal :=
  s.moveFrom (.qbc d p a n) d p a (fun _ l => l / 4 * 4 + n)

def execQswz (d : Reg) (p : Sel) (a : Reg) (hi6 : Fin 64) (lo2 : Fin 4) (s : State) :
    Host.Outcome State Fault Refusal :=
  s.moveFrom (.qswz d p a hi6 lo2) d p a (fun _ l => l / 4 * 4 + bits (hi6.val * 4 + lo2.val) (2 * (l % 4)) 2)

/-- Whether lane l is a helper lane (R239). -/
def Wave.helper (w : Wave) (l : Nat) : Bool :=
  !w.active l && (List.range 4).any (fun j => w.active (l / 4 * 4 + j))

def execHlprd (d : Reg) (p : Sel) (a : Reg) (s : State) : Host.Outcome State Fault Refusal :=
  s.laneOp (.hlprd d p a) d 1 [(a, 1, p)]
    (fun w l => plain (maskOf 4 (fun j => w.helper (l / 4 * 4 + j)) &&& (w.v a (w.srcLane p l)).toNat % 16))

/-! ## Reductions and scans (R243) -/

/-- The identity of an operation. -/
def redIdentity (t : Ty) (op : RedOp) : Nat :=
  match op with
  | .add => 0
  | .min => if t.isFloat then f32.inf false else ofInt t.elem (tyHi t)
  | .max => if t.isFloat then f32.inf true else ofInt t.elem (tyLo t)
  | .and => 2 ^ t.elem - 1
  | .or => 0
  | .xor => 0

/-- One step of an element. -/
def redElem (t : Ty) (v : Env) (op : RedOp) (x y : Nat) : Res :=
  match op with
  | .add => if t.isFloat then fAdd f32 v x y else plain (x + y)
  | .min => if t.isFloat then fMinMax f32 v false x y else plain (if elemInt t y < elemInt t x then y else x)
  | .max => if t.isFloat then fMinMax f32 v true x y else plain (if elemInt t x < elemInt t y then y else x)
  | .and => plain (x &&& y)
  | .or => plain (x ||| y)
  | .xor => plain (x ^^^ y)

/-- A running combination over lanes: the value before each lane and after it, with the condition that the lane's
step raised. -/
def redRun (t : Ty) (v : Env) (op : RedOp) (val : Nat → Nat) : List Nat → Option Nat → Nat → List (Nat × Nat × Nat × Nat)
  | [], _, _ => []
  | l :: r, acc, ident =>
    match acc with
    | none => (l, ident, val l, 0) :: redRun t v op val r (some (val l)) ident
    | some x =>
      let y := byElems t (fun a b _ => redElem t v op a b) x (val l) 0
      (l, x, y.1, y.2) :: redRun t v op val r (some y.1) ident

/-- The identity in every element of a value. -/
def redStart (t : Ty) (op : RedOp) : Nat := (byElems t (fun _ _ _ => plain (redIdentity t op)) 0 0 0).1

/-- The first poison mark among lanes that come before (or at) lane l. -/
def Wave.reached (w : Wave) (a : Reg) (p : Sel) (f : Nat → Bool) : Mark :=
  if w.rpoison = [] then Mark.none
  else ((w.lanes.filter f).map (fun l => w.srcMark [(a, w.vcount, p)] l)).foldl
    (fun acc m => if acc.origin = 0 then m else acc) Mark.none

/-- A reduction or scan: `pick` chooses what lane l receives of (before, after, last), `from_` says which lanes
contribute to lane l. -/
def State.reduce (s : State) (i : Instr) (d : Reg) (p : Sel) (a : Reg) (op : RedOp) (pick : Nat × Nat × Nat → Nat)
    (from_ : Nat → Nat → Bool) : Host.Outcome State Fault Refusal :=
  s.issue i (fun t =>
    let w := t.curWave
    let run := redRun w.ty w.env op (w.valP p a) w.lanes none (redStart w.ty op)
    let last := (run.getLast?.map (fun x => x.2.2.1)).getD 0
    let at_ : Nat → Nat × Nat × Nat := fun l => ((run.find? (fun x => x.1 == l)).map (fun x => x.2)).getD (0, 0, 0)
    let f : Nat → Res := fun l => (pick ((at_ l).1, (at_ l).2.1, last), (at_ l).2.2)
    if w.conds f &&& w.te ≠ 0 then t.parkArith i false f
    else t.setCur ((w.putVal d w.vcount (fun l => (f l).1)).markTo d w.vcount (fun l => w.reached a p (from_ l))))

def execWred (d : Reg) (p : Sel) (a : Reg) (op : RedOp) (s : State) : Host.Outcome State Fault Refusal :=
  s.reduce (.wred d p a op) d p a op (fun x => x.2.2) (fun _ _ => true)

def execWscan (d : Reg) (p : Sel) (a : Reg) (op : RedOp) (excl : Bool) (s : State) :
    Host.Outcome State Fault Refusal :=
  s.reduce (.wscan d p a op excl) d p a op (fun x => if excl then x.1 else x.2.1)
    (fun l m => decide (m < l) || (!excl && m == l))

/-! ## Masks (R244, R245) -/

/-- A mask instruction: the destination takes a mask of the wave, whatever is active. -/
def State.maskOp (s : State) (i : Instr) (kd : Nat) (f : Wave → Dword) : Host.Outcome State Fault Refusal :=
  s.issue i (fun t => t.setCur (t.curWave.kwrite kd (f t.curWave)))

def execKand (kd ka kb : Low) (s : State) : Host.Outcome State Fault Refusal :=
  s.maskOp (.kand kd ka kb) kd (fun w => w.kread ka &&& w.kread kb)

def execKor (kd ka kb : Low) (s : State) : Host.Outcome State Fault Refusal :=
  s.maskOp (.kor kd ka kb) kd (fun w => w.kread ka ||| w.kread kb)

def execKxor (kd ka kb : Low) (s : State) : Host.Outcome State Fault Refusal :=
  s.maskOp (.kxor kd ka kb) kd (fun w => w.kread ka ^^^ w.kread kb)

def execKandn (kd ka kb : Low) (s : State) : Host.Outcome State Fault Refusal :=
  s.maskOp (.kandn kd ka kb) kd (fun w => w.kread ka &&& ~~~ w.kread kb)

def execKnot (kd ka : Low) (s : State) : Host.Outcome State Fault Refusal :=
  s.maskOp (.knot kd ka) kd (fun w => ~~~ w.kread ka)

def execKmov (kd ka : Low) (s : State) : Host.Outcome State Fault Refusal :=
  s.maskOp (.kmov kd ka) kd (fun w => w.kread ka)

/-- Set bits of a mask of the wave's width. -/
def Wave.kcount (w : Wave) (ka : Nat) : Nat := ((List.range w.width).filter (bitOf (w.kread ka))).length

/-- The lowest set bit, or all ones (R244). -/
def Wave.kfirst (w : Wave) (ka : Nat) : Nat := (lowestLane w.width (bitOf (w.kread ka))).getD 0xFFFFFFFF

def execKpopc (d : Reg) (ka : Low) (s : State) : Host.Outcome State Fault Refusal :=
  s.laneOp (.kpopc d ka) d 1 [] (fun w _ => plain (w.kcount ka))

def execKffs (d : Reg) (ka : Low) (s : State) : Host.Outcome State Fault Refusal :=
  s.laneOp (.kffs d ka) d 1 [] (fun w _ => plain (w.kfirst ka))

def execExmrd (kd : Low) (s : State) : Host.Outcome State Fault Refusal :=
  s.maskOp (.exmrd kd) kd (fun w => w.exm)

def execExmwr (ka : Low) (s : State) : Host.Outcome State Fault Refusal :=
  s.issue (.exmwr ka) (fun t => t.setCur { t.curWave with exm := t.curWave.kread ka &&& t.curWave.tm })

/-! ## Moves (R246) -/

def execMov (d : Reg) (p : Sel) (a : Reg) (s : State) : Host.Outcome State Fault Refusal :=
  s.laneOp (.mov d p a) d s.curWave.vcount [(a, s.curWave.vcount, p)] (fun w l => plain (w.valP p a l))

end Sys2Proof.Machine
end

