-- ==== Sys2Proof/Machine/Matrix.lean ====
section
/-! DEFINITION. The matrix engine: the token (11/R262, R263), issue and its checks (11/R264 to R268, R276), passes
(11/R269 to R275, 08/R186 to R190), parked operations (11/R280, R281). -/

namespace Sys2Proof.Machine

/-! ## Elements (R186, R187) -/

/-- What a matrix element is: a number in units of its format's least bit, an infinity or a NaN. -/
inductive MVal where
  | num (x : Int)
  | inf (neg : Bool)
  | nan
  deriving DecidableEq, Repr

/-- The float format of a code below 8. -/
def matFmt (code : Nat) : Fmt := if code = 0 then e4m3 else if code = 1 then e5m2 else bf16

/-- The power of two by which a format's numbers are scaled to integers. -/
def matScale (code : Nat) : Nat := if code = 0 then 9 else if code = 1 then 16 else if code = 2 then 133 else 0

/-- Element i of a record, from its first p planes, the first plane most significant. -/
def planeBits (rec : List Byte) (p i : Nat) : Nat :=
  (List.range p).foldl (fun acc j => 2 * acc + (rec.getD (16 * j + i / 8) 0).toNat / 2 ^ (i % 8) % 2) 0

/-- The value of an element; `p` is how many planes of a BPN record are read, 0 for all. -/
def matElem (code p : Nat) (rec : List Byte) (i : Nat) : MVal :=
  if code ≥ 8 then
    let n := code - 6
    let k := if p = 0 then n else p
    .num (toSigned k (planeBits rec k i) * (2 ^ (n - k) : Nat))
  else
    match (matFmt code).value (planeBits rec (planesOf code) i) with
    | .fin neg m e => .num ((if neg then -1 else 1) * (m * 2 ^ (e + matScale code).toNat : Nat))
    | .inf neg => .inf neg
    | .nan _ _ _ _ => .nan

/-- The exact product of two elements; none where it has no number (R190). -/
def MVal.mul (a b : MVal) : MVal :=
  match a, b with
  | .num x, .num y => .num (x * y)
  | .num x, .inf n => if x = 0 then .nan else .inf (n != decide (x < 0))
  | .inf n, .num y => if y = 0 then .nan else .inf (n != decide (y < 0))
  | .inf n, .inf m => .inf (n != m)
  | _, _ => .nan

/-- The exact sum of a chunk's products (R190). -/
def MVal.add (a b : MVal) : MVal :=
  match a, b with
  | .num x, .num y => .num (x + y)
  | .inf n, .num _ => .inf n
  | .num _, .inf n => .inf n
  | .inf n, .inf m => if n = m then .inf n else .nan
  | _, _ => .nan

/-- rne32 of a sum in units of 2^-s (R190). -/
def MVal.rne32 (x : MVal) (s : Nat) : Nat :=
  match x with
  | .num v => if v = 0 then 0 else (rnd f32 addEnv (decide (v < 0)) v.natAbs (-(s : Int))).1
  | .inf n => f32.inf n
  | .nan => 0x7FC00000

/-- An SF8 scale in units of 2^-17 (R188). -/
def sf8 (b : Nat) : Nat := if b / 8 = 0 then b % 8 else (8 + b % 8) * 2 ^ (b / 8 - 1)

/-- Positions of a chunk's products: position in A's record, position along B's chunks. -/
def MatOp.pairs (m : MatOp) (idx : Nat → Nat) : List (Nat × Nat) :=
  (List.range 128).map (fun i => if m.kind = .mmas then (i, 4 * (i / 2) + idx i) else (i, i))

/-! ## What an operation reads (R267, R277) -/

/-- Bytes of a workgroup's scratchpad in the half of an operation's issue, as they stood then (R277). -/
def State.matBytes (s : State) (m : MatOp) (off n : Nat) : List Byte :=
  match s.wg m.wg with
  | none => List.replicate n 0
  | some g => (List.range n).map (fun i =>
      ((Sparse.find m.seen (m.at g (off + i))).map (·.1)).getD (s.byte (winBase g.core + m.at g (off + i))))

/-- The first poison in a range of scratchpad, as it stood at an operation's issue (R277, R280). -/
def State.matMark (s : State) (m : MatOp) (off n : Nat) : Mark :=
  if s.poison = [] ∧ m.seen = [] then Mark.none
  else match s.wg m.wg with
    | none => Mark.none
    | some g =>
      ((List.range n).map (fun i => ((Sparse.find m.seen (m.at g (off + i))).map (·.2)).getD
        (s.mark (winBase g.core + m.at g (off + i))))).foldl (fun acc x => if acc.origin = 0 then x else acc) Mark.none

/-- Whether an operation has still to read a byte of local store. -/
def MatOp.readsAt (m : MatOp) (g : Workgroup) (a : Nat) : Bool :=
  !m.parked && (List.range m.chunks).any (fun c => decide (m.nextc ≤ c) && ((m.chunkReads c).flatMap g.pieces).any (fun r =>
    decide (m.at g r.1 ≤ a) && decide (a < m.at g r.1 + r.2)))

/-- Bytes of local store, with their poison, kept for an operation as they stand, before something else is written there (R277). -/
def State.keepSeen (s : State) (core : Nat) (f : MatOp → Workgroup → Nat → Bool) (ats : List Nat) : State :=
  s.setEngine core { s.engine core with ops := (s.engine core).ops.map (fun m => match s.wg m.wg with
    | none => m
    | some g => { m with seen := ats.foldl (fun acc a =>
        if f m g a && (Sparse.find acc a).isNone then Sparse.put acc a (s.byte (winBase core + a), s.mark (winBase core + a)) else acc) m.seen }) }

/-- Bytes written to scratchpad by an operation; what its own instruction has still to read stands as it was (R277). -/
def State.matWrite (s0 : State) (m : MatOp) (off : Nat) (bs : List Byte) : State :=
  match s0.wg m.wg with
  | none => s0
  | some g =>
    let s := s0.keepSeen g.core (fun x k a => x.inst == m.inst && x.readsAt k a) ((List.range bs.length).map (fun i => m.at g (off + i)))
    let at_ : Nat → Nat := fun i => winBase g.core + m.at g (off + i)
    let s1 := s.writeAt (bs.zipIdx.map (fun x => (at_ x.2, x.1)))
    let s2 := if s1.poison = [] then s1 else (List.range (bs.length / 4)).foldl (fun acc i => acc.cleanse (at_ (4 * i)) 4) s1
    { s2 with ewct := Nat.max s2.ewct s2.gt }

/-- What the rows of a pass write, in their order. -/
def State.matWrites (s : State) (m : MatOp) (ws : List (Nat × List Byte)) : State :=
  ws.foldl (fun acc x => acc.matWrite m x.1 x.2) s

/-! ## Tiles (R103, R169) -/

def State.tileGet (s : State) (c t i j : Nat) : Nat := s.readNat (tileAddr c t i j) 4

def State.tilePut (s : State) (c t i j v : Nat) : State :=
  (s.writeNat (tileAddr c t i j) 4 v).setMark (tileAddr c t i j) Mark.none

/-! ## Products (R189, R190, R269 to R271) -/

/-- The tile and row that row j of an operation writes (R265). -/
def MatOp.tileOf (m : MatOp) : Nat := m.tile + m.oct / 4
def MatOp.rowOf (m : MatOp) (j : Nat) : Nat := 8 * (m.oct % 4) + j

/-- The sum of chunk c for A row j and column col, rounded. -/
def State.chunkSum (s : State) (m : MatOp) (c j col : Nat) : Nat :=
  let ca := m.mxa / 16
  let cb := m.mxb / 16
  let ra := recBytes ca
  let rb := recBytes cb
  let sp := m.kind = .mmas
  let arec := s.matBytes m (m.aoff.getD j 0 + c * (if sp then ra + 32 else ra)) ra
  let meta_ := if sp then ofBytes (s.matBytes m (m.aoff.getD j 0 + c * (ra + 32) + ra) 32) else 0
  let brec : Nat → List Byte := fun b => s.matBytes m (m.boff + (32 * b + col) * rb) rb
  let b0 := brec (if sp then 2 * c else c)
  let b1 := if sp then brec (2 * c + 1) else []
  let sa := s.matBytes m (m.asoff.getD j 0 + 4 * c) 4
  let sb := s.matBytes m (m.bsoff + 4 * m.chunks * col + 4 * c) 4
  let prods := (m.pairs (fun q => meta_ / 4 ^ q % 4)).map (fun x =>
    let scale := if m.kind = .mmab then sf8 (sa.getD (x.1 / 32) 0).toNat * sf8 (sb.getD (x.1 / 32) 0).toNat else 1
    let absent := m.kind = .mmab ∧ ((sa.getD (x.1 / 32) 0) = 0 ∨ (sb.getD (x.1 / 32) 0) = 0)
    if absent then MVal.num 0
    else (((matElem ca (m.mxa % 16) arec x.1).mul (matElem cb 0 (if x.2 < 128 then b0 else b1) (x.2 % 128))).mul (.num scale)))
  (prods.foldl MVal.add (.num 0)).rne32 (matScale ca + matScale cb + (if m.kind = .mmab then 34 else 0))

/-- A pass of a product over chunk c. -/
def State.passMma (s : State) (core : Nat) (m : MatOp) (c : Nat) : State :=
  let z := m.xf ≥ 16 ∧ c = 0
  let cells := m.rowList.flatMap (fun j => (List.range 32).map (fun col => (j, col)))
  cells.foldl (fun acc x =>
    let start := if z then 0 else s.tileGet core m.tileOf (m.rowOf x.1) x.2
    acc.tilePut core m.tileOf (m.rowOf x.1) x.2 (fAdd f32 addEnv start (s.chunkSum m c x.1 x.2)).1) s

/-! ## COMP, PLNW, PLNR (R272, R273) -/

/-- The rank of an element, by its bits. -/
def rankOf (code x : Nat) : Nat :=
  if code ≥ 8 then (toSigned (code - 6) x).natAbs
  else match (matFmt code).value x with
    | .nan _ _ _ _ => 2 ^ 20
    | _ => x % 2 ^ ((matFmt code).e + (matFmt code).m)

/-- Positions of the two elements of greatest rank among four, ascending; the lower position wins a tie. -/
def topTwo (r : Nat → Nat) : List Nat :=
  let better : Nat → Nat → Bool := fun i j => decide (r i > r j) || (decide (r i = r j) && decide (i < j))
  (List.range 4).filter (fun i => decide (((List.range 4).filter (fun j => better j i)).length < 2))

/-- A record of planes made from elements' bits. -/
def toPlanes (p : Nat) (x : Nat → Nat) : List Byte :=
  (List.range (16 * p)).map (fun b =>
    BitVec.ofNat 8 ((List.range 8).foldl (fun acc k => acc + x (8 * (b % 16) + k) / 2 ^ (p - 1 - b / 16) % 2 * 2 ^ k) 0))

/-- What a pass of COMP writes for row j, and where: two dense records become one compressed record. -/
def State.passComp (s : State) (m : MatOp) (c j : Nat) : Nat × List Byte :=
  let code := m.mxa / 16
  let p := planesOf code
  let ra := recBytes code
  let r0 := s.matBytes m (m.aoff.getD j 0 + 2 * c * ra) ra
  let r1 := s.matBytes m (m.aoff.getD j 0 + (2 * c + 1) * ra) ra
  let el : Nat → Nat := fun k => planeBits (if k < 128 then r0 else r1) p (k % 128)
  let kept : List Nat := (List.range 64).flatMap (fun g => topTwo (fun i => rankOf code (el (4 * g + i))))
  let meta_ := (List.range 128).foldl (fun acc q => acc + kept.getD q 0 * 4 ^ q) 0
  (m.asoff.getD j 0 + c * (ra + 32),
    toPlanes p (fun q => el (4 * (q / 2) + kept.getD q 0)) ++ toBytes 32 meta_)

def State.passPlnw (s : State) (m : MatOp) (c j : Nat) : Nat × List Byte :=
  let eb := elemBytes m.plnCode
  let src := s.matBytes m (m.aoff.getD j 0 + 128 * eb * c) (128 * eb)
  (m.asoff.getD j 0 + c * m.plnStride,
    toPlanes (planesOf m.plnCode) (fun i => ofBytes ((src.drop (eb * i)).take eb)))

def State.passPlnr (s : State) (m : MatOp) (c j : Nat) : Nat × List Byte :=
  let p := planesOf m.plnCode
  let eb := elemBytes m.plnCode
  let rec_ := s.matBytes m (m.aoff.getD j 0 + c * m.plnStride) (recBytes m.plnCode)
  (m.asoff.getD j 0 + 128 * eb * c,
    (List.range 128).flatMap (fun i =>
      let x := planeBits rec_ p i
      toBytes eb (if m.plnCode ≥ 8 then ofInt 8 (toSigned p x) else x)))

/-! ## Parked operations (R276, R280, R281) -/

/-- OP of the matrix detail area (R281); ACCZ, ACCRD and ACCWR, which no record but a saved image may hold, have codes of
the model's choice (log 35). -/
def MatOp.opCode (m : MatOp) : Nat :=
  match m.kind with
  | .mma => 1
  | .mmas => 2
  | .mmab => 3
  | .comp => 4
  | .plnw => 5
  | .plnr => 6
  | .accz => 7
  | .accld => 8
  | .accst => 9
  | .accrd => 10
  | .accwr => 11

/-- Eight 32-bit values as four words. -/
def packWords (off : Nat) (xs : List Nat) : List (Nat × Dword) :=
  (List.range 4).map (fun i => (off / 8 + i, dw (xs.getD (2 * i) 0 % 2 ^ 32 + xs.getD (2 * i + 1) 0 % 2 ^ 32 * 2 ^ 32)))

/-- The matrix detail area of a record, or of a saved image. -/
def MatOp.detail (m : MatOp) (isr foff : Nat) : List (Nat × Dword) :=
  [(0x600 / 8, dw (m.opCode * 2 ^ 56 + isr * 2 ^ 48 + m.oct * 2 ^ 44 + m.nextc * 2 ^ 40 + m.xf * 2 ^ 35 + m.ff * 2 ^ 32 +
      m.mxa * 2 ^ 24 + m.mxb * 2 ^ 16 + m.tile * 2 ^ 8 + m.rows)),
   (0x608 / 8, dw (m.boff * 2 ^ 32 + m.bsoff))] ++
  packWords 0x610 m.aoff ++ packWords 0x630 m.asoff ++ [(0x650 / 8, dw foff)]

def State.modMat (s : State) (core id : Nat) (f : MatOp → MatOp) : State :=
  s.setEngine core { s.engine core with ops := (s.engine core).ops.map (fun m => if m.id = id then f m else m) }

/-- TAKING A FAULT, for an octet operation: its record's image goes to be written. `foff` is the record or scale that
failed in a pass, zero for an accumulator element and for an operation that fails at issue (R281, R390). -/
def State.parkMat (s : State) (core : Nat) (m : MatOp) (cls isr faddr foff : Nat) (finfo : Dword) : State :=
  let task := ((s.wg m.wg).map (·.task)).getD 0
  let owner : Wave := { Wave.empty with task := task, sys := (s.wave m.wave).sys, wid := (s.wave m.wave).wid }
  let p : ParkInfo :=
    { cls := cls, faddr := dw faddr, finfo := finfo, pre := false, pc := m.pc, iword := m.iword, npc := 0, ahead := 0, unf := 0,
      gmode := 0, vas := [], srcs := [], status := 0 }
  let words := (m.detail isr foff).foldl (fun acc e => Sparse.put acc e.1 e.2)
    (s.headerOf m.wave owner 2 p)
  (s.modMat core m.id (fun x => { x with parked := true })).post
    (.recordWritten { die := dieOfCore core, cluster := clusterOfCore core, kind := 2, cls := cls, wave := m.wave,
                      unit := m.id, words := words, marks := [], status := 0, entries := [] })

/-- Byte ranges that an operation will read or write from chunk nextc on, in the order of R276: the offset, where the
range starts, its length, its alignment. -/
def MatOp.ranges (m : MatOp) : List (Nat × Nat × Nat × Nat) :=
  let ra := recBytes (m.mxa / 16)
  let rb := recBytes (m.mxb / 16)
  let n := m.chunks
  let k := m.nextc
  let rows (f : Nat → Nat × Nat × Nat × Nat) : List (Nat × Nat × Nat × Nat) := m.rowList.map f
  let span : Nat → Nat → Nat → Nat → Nat → Nat × Nat × Nat × Nat := fun off stride len al last =>
    (off, off + k * stride, (last - k) * stride + len, al)
  if k ≥ n then []
  else match m.kind with
    | .mma => rows (fun j => span (m.aoff.getD j 0) ra (recRead m.mxa) 16 (n - 1)) ++
        [span m.boff (32 * rb) (32 * rb) 16 (n - 1)]
    | .mmas => rows (fun j => span (m.aoff.getD j 0) (ra + 32) (ra + 32) 16 (n - 1)) ++
        [span m.boff (64 * rb) (64 * rb) 16 (n - 1)]
    | .mmab => rows (fun j => span (m.aoff.getD j 0) ra (recRead m.mxa) 16 (n - 1)) ++
        [span m.boff (32 * rb) (32 * rb) 16 (n - 1)] ++
        rows (fun j => span (m.asoff.getD j 0) 4 4 4 (n - 1)) ++
        [(m.bsoff, m.bsoff + 4 * k, 31 * 4 * n + 4 * (n - k), 4)]
    | .comp => rows (fun j => span (m.aoff.getD j 0) (2 * ra) (2 * ra) 16 (n - 1)) ++
        rows (fun j => span (m.asoff.getD j 0) (ra + 32) (ra + 32) 16 (n - 1))
    | .plnw =>
      rows (fun j => span (m.aoff.getD j 0) (128 * elemBytes m.plnCode) (128 * elemBytes m.plnCode) 16 (n - 1)) ++
        rows (fun j => span (m.asoff.getD j 0) m.plnStride (recBytes m.plnCode) 16 (n - 1))
    | .plnr =>
      rows (fun j => span (m.aoff.getD j 0) m.plnStride (recBytes m.plnCode) 16 (n - 1)) ++
        rows (fun j => span (m.asoff.getD j 0) (128 * elemBytes m.plnCode) (128 * elemBytes m.plnCode) 16 (n - 1))
    | .accld => [(m.aoff.getD 0 0, m.aoff.getD 0 0, 4096, 16)]
    | .accst => [(m.aoff.getD 0 0, m.aoff.getD 0 0, 4096, 16)]
    | _ => []

/-- The first range that fails: its offset and ISR code (R276). -/
def MatOp.badRange (m : MatOp) (len : Nat) : Option (Nat × Nat) :=
  m.ranges.findSome? (fun r =>
    if r.1 % r.2.2.2 ≠ 0 then some (r.1, 1)
    else if r.2.1 + r.2.2.1 > len then some (r.1, 2)
    else none)

/-- The records and scales that chunk c reads, in the order of R276, each with the offset where it starts: the columns of
a B block one by one, a compressed record with its metadata (R270, R281). -/
def MatOp.records (m : MatOp) (c : Nat) : List (Nat × Nat × Nat) :=
  let ra := recBytes (m.mxa / 16)
  let rb := recBytes (m.mxb / 16)
  let cut : Nat → Nat → Nat → List (Nat × Nat × Nat) := fun off n k => (List.range k).map (fun i => (off + n * i, off + n * i, n))
  match m.kind with
  | .comp => m.rowList.flatMap (fun j => cut (m.aoff.getD j 0 + 2 * c * ra) ra 2)
  | .mma => m.rowList.map (fun j => (m.aoff.getD j 0 + c * ra, m.aoff.getD j 0 + c * ra, recRead m.mxa)) ++
      cut (m.boff + 32 * c * rb) rb 32
  | .mmas => m.rowList.flatMap (fun j =>
        let o := m.aoff.getD j 0 + c * (ra + 32)
        [(o, o, recRead m.mxa), (o, o + ra, 32)]) ++
      cut (m.boff + 64 * c * rb) rb 64
  | .mmab => m.rowList.map (fun j => (m.aoff.getD j 0 + c * ra, m.aoff.getD j 0 + c * ra, recRead m.mxa)) ++
      cut (m.boff + 32 * c * rb) rb 32 ++ m.rowList.flatMap (fun j => cut (m.asoff.getD j 0 + 4 * c) 4 1) ++
      (List.range 32).flatMap (fun j => cut (m.bsoff + 4 * m.chunks * j + 4 * c) 4 1)
  | _ => (m.chunkReads c).map (fun r => (r.1, r.1, r.2))

/-- Where chunk c of an operation meets poison first: the fault address, FOFF and the mark. A record or scale gives its
offset for both; an accumulator element gives its window offset (R103) and no FOFF; the B block is the same for every
operation of a group (R280, R281, R387, R390). -/
def State.chunkPoison (s : State) (core : Nat) (m : MatOp) (c : Nat) : Option (Nat × Nat × Mark) :=
  if s.poison = [] ∧ m.seen = [] then none
  else
    let rd := (m.records c).findSome? (fun r =>
      if (s.matMark m r.2.1 r.2.2).origin ≠ 0 then some (r.1, r.1, s.matMark m r.2.1 r.2.2) else none)
    let cell : Nat → Nat → Nat → Option (Nat × Nat × Mark) := fun t i j =>
      if (s.mark (tileAddr core t i j)).origin ≠ 0 then
        some (tileAddr core t i j - winBase core, 0, s.mark (tileAddr core t i j)) else none
    let cols := List.range 32
    let product := rd.orElse (fun _ => if m.xf ≥ 16 ∧ c = 0 then none else
      m.rowList.findSome? (fun j => cols.findSome? (fun k => cell m.tileOf (m.rowOf j) k)))
    match m.kind with
    | .mma => product
    | .mmas => product
    | .mmab => product
    | .accst => cols.findSome? (fun i => cols.findSome? (fun k => cell m.tile i k))
    | .accrd => none
    | .accwr => none
    | .accz => none
    | _ => rd

/-! ## Passes -/

/-- An operation that is over; its instruction retires with its last one (R283). -/
def State.endMat (s : State) (core : Nat) (m : MatOp) : State :=
  let e := s.engine core
  let rest := e.ops.filter (fun x => x.id != m.id)
  let s1 := s.setEngine core { e with ops := rest }
  if rest.any (fun x => x.wave == m.wave && x.opId == m.opId) then s1
  else ((s1.modLive m.wave (fun w => w.retireOp m.opId)).settle m.wave).post (.workgroupRetire m.wg)

/-- The work of one pass of an operation. -/
def State.passOne (s : State) (core : Nat) (m : MatOp) : State :=
  let c := m.nextc
  match m.kind with
  | .mma => s.passMma core m c
  | .mmas => s.passMma core m c
  | .mmab => s.passMma core m c
  | .comp => s.matWrites m (m.rowList.map (s.passComp m c))
  | .plnw => s.matWrites m (m.rowList.map (s.passPlnw m c))
  | .plnr => s.matWrites m (m.rowList.map (s.passPlnr m c))
  | .accz =>
    (m.tiles.flatMap (fun t => (List.range 1024).map (fun k => (t, k)))).foldl
      (fun acc x => acc.tilePut core x.1 (x.2 / 32) (x.2 % 32) 0) s
  | .accld =>
    let d := s.matBytes m (m.aoff.getD 0 0) 4096
    (List.range 1024).foldl (fun acc k => acc.tilePut core m.tile (k / 32) (k % 32) (ofBytes ((d.drop (4 * k)).take 4))) s
  | .accst => s.matWrite m (m.aoff.getD 0 0) (s.read (tileAddr core m.tile 0 0) 4096)
  | .accrd =>
    s.modLive m.wave (fun w => m.vals.foldl (fun acc x =>
      (acc.lwrite m.dst (fun l => if l = x.1 then
        some (wd (s.tileGet core m.tile (m.xf + x.1 / 32) (x.1 % 32))) else none)).setLmark m.dst x.1
          (s.mark (tileAddr core m.tile (m.xf + x.1 / 32) (x.1 % 32)))) w)
  | .accwr =>
    m.vals.foldl (fun acc x =>
      (acc.tilePut core m.tile (m.xf + x.1 / 32) (x.1 % 32) x.2.toNat).setMark
        (tileAddr core m.tile (m.xf + x.1 / 32) (x.1 % 32)) (Sparse.get Mark.none m.marks x.1)) s

/-- Chunks of an operation: those of C, one for a tile instruction. -/
def MatOp.total (m : MatOp) : Nat := if m.oct = 15 then 1 else m.chunks

/-- A pass of one operation of a group: it parks on poison, else it works and moves on. -/
def State.passOp (s : State) (core id : Nat) (bad : Option (Nat × Nat × Mark)) : State :=
  match (s.engine core).ops.find? (fun m => m.id == id) with
  | none => s
  | some m =>
  if m.nextc ≥ m.total then s.endMat core m
  else match bad with
    | some (at_, off, k) => s.parkMat core m 10 0 at_ off (eccInfo k.origin 7 false m.fold)
    | none =>
      let s1 := s.passOne core m
      if m.nextc + 1 ≥ m.total then s1.endMat core m
      else s1.modMat core m.id (fun x => { x with nextc := x.nextc + 1 })

/-- The next fused group of a core: the operations of the oldest instruction that share its first operation's B
(R264, R266). -/
def Engine.group (e : Engine) : List MatOp :=
  match e.ops.find? (fun m => !m.parked) with
  | none => []
  | some m => e.ops.filter (fun x => !x.parked && x.inst == m.inst && x.boff == m.boff && x.bsoff == m.bsoff &&
      x.nextc == m.nextc)

/-- Instructions that the engine of a core holds (R264). -/
def Engine.accepted (e : Engine) : Nat := (((e.ops.filter (fun m => !m.parked)).map (·.inst)).eraseDups).length

/-- Operations accepted in order; those that fail R276 park at once. -/
def State.acceptMats (s : State) (core : Nat) (ms : List MatOp) : State :=
  let idle := (s.engine core).group = []
  let s1 := ms.foldl (fun acc m =>
    let t := acc.setEngine core { acc.engine core with ops := (acc.engine core).ops ++ [m] }
    match m.badRange (((acc.wg m.wg).map (·.l)).getD 0) with
    | some (off, isr) => t.parkMat core m 7 isr off 0 (misInfo 0x33 isr)
    | none => t) s
  if idle ∧ (s1.engine core).group ≠ [] then s1.post (.matrixPass core) else s1

/-- The half of a workgroup's shadowed range that is current. -/
def Workgroup.base (g : Workgroup) : Nat := if g.cur then g.s else 0

/-- Retried operations that wait for a place accepted as places free, each as a new instruction of now (R264, R277,
R282). -/
def State.acceptWaiting (s : State) (core : Nat) : State :=
  (s.engine core).ops.foldl (fun acc x =>
    let e := acc.engine core
    if !x.again ∨ e.accepted ≥ 32 ∨ e.stop then acc
    else
      ((acc.setEngine core { e with ops := e.ops.filter (fun o => o.id != x.id) }).bump).acceptMats core
        [{ x with again := false, parked := false, inst := acc.nextId, seen := [],
                  base := ((acc.wg x.wg).map Workgroup.base).getD 0 }]) s

/-- A group pass over one chunk ends; writes held for what it has read are performed, and the next pass is set up. -/
def execMatrixPass (core : Nat) (s : State) : Host.Outcome State Fault Refusal :=
  match (if (s.engine core).stop then [] else (s.engine core).group) with
  | [] => .refused (.notEnabled "MATRIX_PASS")
  | m0 :: rest =>
    let s1 := (m0 :: rest).foldl (fun acc m => acc.passOp core m.id (s.chunkPoison core m m.nextc)) s
    let s2 := s1.releaseHeld core
    .next (if (s2.engine core).group = [] then s2.acceptWaiting core else (s2.acceptWaiting core).post (.matrixPass core))

/-! ## Issue (R261, R264, R265, R276) -/

/-- What the operations of an instruction have in common. -/
def State.matBase (s : State) (i : Instr) (kind : MatKind) (tile xf ff : Nat) : MatOp :=
  let w := s.curWave
  { id := s.nextId, kind := kind, inst := s.nextId, wave := s.cur, wg := w.wg, opId := s.nextId, pc := w.pc - 4,
    iword := encode i, oct := 15, rows := 0, nextc := 0, xf := xf, ff := ff, mxa := fld w.gmode 21 8, mxb := fld w.gmode 29 8,
    tile := tile, boff := 0, bsoff := 0, aoff := [], asoff := [],
    base := ((s.wg w.wg).map Workgroup.base).getD 0, vals := [], marks := [], dst := 0, fold := 0,
    parked := false, again := false, seen := [] }

/-- An instruction's operations handed to the engine: counted on X; without any it retires at once. -/
def State.matStart (s : State) (ms : List MatOp) : State :=
  match ms with
  | [] => s.emptyOp .x
  | m :: _ =>
    (({ s with nextId := s.nextId + ms.length + 1 } : State).modLive m.wave (fun w => w.countUp .x m.opId)).acceptMats
      (coreOfWave m.wave) (ms.zipIdx.map (fun x => { x.1 with id := x.1.id + x.2 }))

/-- The prepared state of a matrix instruction: it waits while the engine holds 32. -/
def State.matRoom (s : State) : Move :=
  if (s.engine (coreOfWave s.cur)).accepted ≥ 32 ∨ (s.engine (coreOfWave s.cur)).stop then .wait s else .ok s

/-- The octet operations of an instruction; `f` fills in what a kind of instruction reads of a row's lane. -/
def State.octets (s : State) (m : MatOp) (a : Nat) (b bs : Option Nat) (as : Option Nat) : List MatOp :=
  let w := s.curWave
  (List.range (w.width / 8)).filterMap (fun o =>
    let rows := maskOf 8 (fun j => w.active (8 * o + j))
    if rows = 0 then none
    else
      let lead := (lowestLane w.width (fun l => decide (l / 8 = o) && w.active l)).getD 0
      let per : Nat → List Nat := fun r => (List.range 8).map (fun j => if rows / 2 ^ j % 2 = 1 then (w.v r (8 * o + j)).toNat else 0)
      some { m with
        oct := o, rows := rows, aoff := per a, asoff := (as.map per).getD [],
        boff := (b.map (fun r => (w.v r lead).toNat)).getD 0, bsoff := (bs.map (fun r => (w.v r lead).toNat)).getD 0 })

def State.octetInstr (s : State) (i : Instr) (kind : MatKind) (tile a xf ff : Nat) (b bs as : Option Nat) :
    Host.Outcome State Fault Refusal :=
  s.issueWith i none State.matRoom (fun t => t.matStart (t.octets (t.matBase i kind tile xf ff) a b bs as))

def execMma (d a : Reg) (z : Bool) (c : Fin 16) (la : Ahead) (s : State) : Host.Outcome State Fault Refusal :=
  s.octetInstr (.mma d a z c la) .mma d a ((if z then 16 else 0) + c.val) 0 (some (a.val + 1)) none none

def execMmas (d a : Reg) (z : Bool) (c : Fin 16) (la : Ahead) (s : State) : Host.Outcome State Fault Refusal :=
  s.octetInstr (.mmas d a z c la) .mmas d a ((if z then 16 else 0) + c.val) 0 (some (a.val + 1)) none none

def execMmab (d a : Reg) (z : Bool) (c : Fin 16) (la : Ahead) (s : State) : Host.Outcome State Fault Refusal :=
  s.octetInstr (.mmab d a z c la) .mmab d a ((if z then 16 else 0) + c.val) 0 (some (a.val + 1)) (some (a.val + 3))
    (some (a.val + 2))

def execComp (a : Reg) (c : Fin 16) (la : Ahead) (s : State) : Host.Outcome State Fault Refusal :=
  s.octetInstr (.comp a c la) .comp 0 a c.val 0 none none (some (a.val + 1))

def execPlnw (a : Reg) (sel : Bool) (c : Fin 16) (la : Ahead) (s : State) : Host.Outcome State Fault Refusal :=
  s.octetInstr (.plnw a sel c la) .plnw 0 a c.val (if sel then 1 else 0) none none (some (a.val + 1))

def execPlnr (a : Reg) (sel : Bool) (c : Fin 16) (la : Ahead) (s : State) : Host.Outcome State Fault Refusal :=
  s.octetInstr (.plnr a sel c la) .plnr 0 a c.val (if sel then 1 else 0) none none (some (a.val + 1))

/-- A tile instruction: one operation. -/
def State.tileInstr (s : State) (i : Instr) (f : State → List MatOp) : Host.Outcome State Fault Refusal :=
  s.issueWith i none State.matRoom (fun t => t.matStart (f t))

def execAccz (d : Reg) (n : Fin 32) (la : Ahead) (s : State) : Host.Outcome State Fault Refusal :=
  s.tileInstr (.accz d n la) (fun t => [t.matBase (.accz d n la) .accz d n.val 0])

/-- The offset of ACCLD and ACCST, of the wave's lowest active lane (R274). -/
def State.accOff (s : State) (m : MatOp) (a : Nat) : List MatOp :=
  if s.curWave.lanes = [] then [] else [{ m with aoff := [(s.curWave.v a s.curWave.uniform).toNat] }]

def execAccld (d a : Reg) (la : Ahead) (s : State) : Host.Outcome State Fault Refusal :=
  s.tileInstr (.accld d a la) (fun t => t.accOff (t.matBase (.accld d a la) .accld d 0 0) a)

def execAccst (d a : Reg) (la : Ahead) (s : State) : Host.Outcome State Fault Refusal :=
  s.tileInstr (.accst d a la) (fun t => t.accOff (t.matBase (.accst d a la) .accst d 0 0) a)

def execAccrd (d a : Reg) (r : Fin 32) (la : Ahead) (s : State) : Host.Outcome State Fault Refusal :=
  s.tileInstr (.accrd d a r la) (fun t =>
    if t.curWave.lanes = [] then []
    else [{ t.matBase (.accrd d a r la) .accrd a r.val 0 with
      dst := t.curWave.wb + d.val, vals := t.curWave.lanes.map (fun l => (l, 0)) }])

def execAccwr (d a : Reg) (r : Fin 32) (la : Ahead) (s : State) : Host.Outcome State Fault Refusal :=
  s.tileInstr (.accwr d a r la) (fun t =>
    if t.curWave.lanes = [] then []
    else [{ t.matBase (.accwr d a r la) .accwr d r.val 0 with
      vals := t.curWave.lanes.map (fun l => (l, t.curWave.v a l)),
      marks := (t.curWave.lanes.map (fun l => (l, t.curWave.vmark a l))).filter (fun e => decide (e.2.origin ≠ 0)) }])

/-! ## The token (R262) -/

/-- Waits for the token in the order of first tries. -/
def State.tokenPrep (s : State) : Move :=
  let c := coreOfWave s.cur
  let e := s.engine c
  if e.token = some s.cur then .ok s
  else if e.token = none ∧ (e.tokq.head?.getD s.cur) = s.cur then .ok s
  else .wait (if e.tokq.contains s.cur then s else s.setEngine c { e with tokq := e.tokq ++ [s.cur] })

def execMxtokAcq (la : Ahead) (s : State) : Host.Outcome State Fault Refusal :=
  s.issueWith (.mxtokAcq la) none State.tokenPrep (fun t =>
    let c := coreOfWave t.cur
    t.setEngine c { t.engine c with token := some t.cur, tokq := (t.engine c).tokq.filter (· ≠ t.cur) })

def execMxtokRel (la : Ahead) (s : State) : Host.Outcome State Fault Refusal :=
  s.issue (.mxtokRel la) (fun t =>
    let c := coreOfWave t.cur
    if (t.engine c).token = some t.cur then t.setEngine c { t.engine c with token := none } else t)

/-- Wave w of the issuing wave's workgroup, if it is a live MATRIX wave. -/
def State.passTarget (s : State) (w : Nat) : Option Nat :=
  ((s.wg s.curWave.wg).bind (fun g => g.waves[w]?)).bind (fun id =>
    match Sparse.find s.waves id with
    | some x => if x.role = .matrix ∧ !x.retired then some id else none
    | none => none)

def execMxtokPass (w : Fin 16) (la : Ahead) (s : State) : Host.Outcome State Fault Refusal :=
  let c := coreOfWave s.cur
  s.issueWith (.mxtokPass w la)
    (if (s.engine c).token ≠ some s.cur then some (4, 0, roleInfo 0x10)
     else if (s.passTarget w).isNone then some (4, 0, roleInfo 0x11)
     else none) .ok
    (fun t => t.setEngine c { t.engine c with token := s.passTarget w })

end Sys2Proof.Machine
end

