-- ==== Sys2Proof/Machine/Memory.lean ====
section
/-! DEFINITION. Loads, stores, prefetches and atomics (12/R288 to R299), fences and waits (06/R139 to R144, 12/R300),
XLB and XINV (02/R37, R39, 12/R301, R302). -/

namespace Sys2Proof.Machine

/-! ## Operands (R285) -/

/-- The bytes of `n` registers from d in a lane. -/
def Wave.laneBytes (w : Wave) (d n l : Nat) : List Byte := wordBytes ((List.range n).map (fun i => w.v (d + i) l))

/-- An operation with a lane for each active lane of the wave that has just issued its instruction. -/
def State.opOf (s : State) (i : Instr) (kind : OpKind) (f : Option Nat) (va : Nat → Dword) (size : Nat)
    (data cmp : Nat → List Byte) (dst : List Nat) : MemOp :=
  let w := s.curWave
  { wave := s.cur, kind := kind, pc := w.pc - 4, iword := encode i, frame := f.map w.frame, dst := dst.map (w.wb + ·),
    size := size, hint := .dflt, order := .plain, scope := none, count := some .m, seq := w.seq, gmode := w.gmode,
    replay := false, resume := false, npc := 0, cdepth := w.cdepth,
    lanes := w.lanes.map (fun l => { lane := l, va := va l, phase := .xlate, data := data l, cmp := cmp l, key := none }) }

/-- Registers d to d + n − 1. -/
def regsFrom (d n : Nat) : List Nat := (List.range n).map (d + ·)

/-! ## Fences (R141, R142, R144) -/

/-- Whether an operation is an ordinary access that a fence waits for. -/
def OpKind.isAccess (k : OpKind) : Bool :=
  match k with
  | .load _ => true
  | .store => true
  | .atomic _ _ => true
  | .local _ _ => true
  | .record _ _ => true
  | .checkin => true
  | _ => false

/-- Whether a wave has ordinary accesses outstanding. -/
def State.accessing (s : State) (id : Nat) : Bool := s.ops.any (fun e => e.2.wave == id && e.2.kind.isAccess)

/-- The effect of FENCE at a scope code (R141). At GANG or wider it waits first for the accesses, then checks in every
C copy of the core, then waits for their answers and for GT to pass LWCT. -/
def State.fencePrep (s : State) (sc : Nat) : Move :=
  let w := s.curWave
  if s.accessing s.cur then .wait s
  else if sc < 2 then .ok s
  else if w.stage = 0 then
    let t := (s.setCur { w with stage := 1 }).checkInAll (coreOfWave s.cur) [s.cur]
    if t.accessing s.cur ∨ t.gt ≤ w.lwct then .wait t else .ok t
  else if s.gt ≤ w.lwct then .wait s
  else .ok s

def execFence (sc : Scope) (la : Ahead) (s : State) : Host.Outcome State Fault Refusal :=
  s.issueWith (.fence sc la) none (fun t => t.fencePrep sc.toNat) (fun t => t)

/-- Whether a C copy of its core holds stores of a wave that no home has seen. -/
def State.holdsStores (s : State) (id : Nat) : Bool :=
  (s.cacheOf (coreOfWave id)).any (fun c => decide (c.kind = .c) && c.writers.contains id)

/-- FENCEX (R144). O2E checks in again what a store that was under way at the first check-in has left in a C copy. -/
def State.fencexPrep (s : State) (dir : FenceDir) : Move :=
  let w := s.curWave
  match dir with
  | .o2e =>
    let t := if w.stage = 0 then (s.setCur { w with stage := 1 }).checkInAll (coreOfWave s.cur) [s.cur] else s
    if t.accessing s.cur then .wait t
    else if t.holdsStores s.cur then .wait (t.checkInAll (coreOfWave s.cur) [s.cur]) else .ok t
  | .e2o =>
    let t := if w.stage = 0 then s.setCur { w with stage := 1, arg := s.ewct } else s
    if t.curWave.arg = 0 ∨ s.gt > t.curWave.arg then .ok t else .wait t

def execFencex (dir : FenceDir) (la : Ahead) (s : State) : Host.Outcome State Fault Refusal :=
  s.issueWith (.fencex dir la) none (fun t => t.fencexPrep dir) (fun t => t)

/-- WAIT (R139). -/
def execWait (n : Fin 64) (c : Counter) (la : Ahead) (s : State) : Host.Outcome State Fault Refusal :=
  s.issueWith (.wait n c la) none (fun t => if t.curWave.countVal c > n.val then .wait t else .ok t) (fun t => t)

/-! ## Scopes (R63, R142) -/

/-- The physical address and class that a lane's address would come to. -/
def State.peekAt (s : State) (core ctx : Nat) (f : Frame) (k : Access) (va : Dword) : Option (Nat × Nat) :=
  if f.covers k va then some (f.pbase + (va - sext57 f.vbase).toNat, f.cc)
  else if !canonical va then none
  else match s.walk core ctx va with
    | .leaf e _ lvl => some (leafAddr e lvl va, fld e 13 2)
    | _ => none

/-- The same for a lane of a wave on the core of the wave that moves. -/
def State.peek (s : State) (w : Wave) (f : Frame) (k : Access) (va : Dword) : Option (Nat × Nat) :=
  s.peekAt (coreOfWave s.cur) w.ctx f k va

/-- The widest scope of an ordered access over its active lanes, each raised to the floor of its range (log 25). -/
def State.widest (s : State) (f a : Nat) (k : Access) (sc : Scope) : Nat :=
  let w := s.curWave
  w.lanes.foldl (fun acc l => match s.peek w (w.frame f) k (w.memVa f a l) with
    | some (pa, cc) => Nat.max acc (s.raised cc pa sc)
    | none => acc) sc.toNat

def acquires (o : Order) : Bool := o == .acq || o == .ar
def releases (o : Order) : Bool := o == .rel || o == .ar

/-- What an acquire does before its access (R142). -/
def State.acquire (s : State) (sc : Nat) : State := if sc ≥ 2 then s.checkInAll (coreOfWave s.cur) [] else s

/-! ## Loads and stores (R288 to R293) -/

/-- SIZE as a signed load reads it. -/
def sizeSigned (z : Size) : Bool :=
  match z with
  | .i8 => true
  | .i16 => true
  | _ => false

/-- An operation started; without an active lane it only counts (R286). -/
def State.begin_ (s : State) (o : MemOp) : State := if o.lanes = [] then s.emptyOp .m else s.startOp o

def execLd (d a : Reg) (f : Low) (sz : Size) (ch : Hint) (la : Ahead) (s : State) : Host.Outcome State Fault Refusal :=
  s.issue (.ld d a f sz ch la) (fun t =>
    t.begin_ { t.opOf (.ld d a f sz ch la) (.load (sizeSigned sz)) (some f.val) (t.curWave.memVa f a) sz.bytes (fun _ => [])
      (fun _ => []) (regsFrom d sz.regs) with hint := ch })

def execSt (d a : Reg) (f : Low) (sz : Size) (ch : Hint) (la : Ahead) (s : State) : Host.Outcome State Fault Refusal :=
  s.issue (.st d a f sz ch la) (fun t =>
    t.begin_ { t.opOf (.st d a f sz ch la) .store (some f.val) (t.curWave.memVa f a) sz.bytes
      (fun l => (t.curWave.laneBytes d sz.regs l).take sz.bytes) (fun l => t.curWave.laneBytes d sz.regs l) [] with hint := ch })

def execLdAcq (d a : Reg) (f : Low) (sz : OSize) (sc : Scope) (la : Ahead) (s : State) :
    Host.Outcome State Fault Refusal :=
  s.issue (.ldAcq d a f sz sc la) (fun t =>
    (if t.curWave.lanes = [] then t else t.acquire (t.widest f a .load sc)).begin_
      { t.opOf (.ldAcq d a f sz sc la) (.load false) (some f.val) (t.curWave.memVa f a) sz.size.bytes (fun _ => [])
        (fun _ => []) (regsFrom d sz.size.regs) with order := .acq, scope := some sc })

def execStRel (d a : Reg) (f : Low) (sz : OSize) (sc : Scope) (la : Ahead) (s : State) :
    Host.Outcome State Fault Refusal :=
  s.issueWith (.stRel d a f sz sc la) none
    (fun t => if t.curWave.lanes = [] then .ok t else t.fencePrep (t.widest f a .store sc)) (fun t =>
    t.begin_ { t.opOf (.stRel d a f sz sc la) .store (some f.val) (t.curWave.memVa f a) sz.size.bytes
      (fun l => t.curWave.laneBytes d sz.size.regs l) (fun l => t.curWave.laneBytes d sz.size.regs l) [] with order := .rel, scope := some sc })

def execPrf (flt : Bool) (a : Reg) (f : Low) (sz : Size) (ch : Hint) (la : Ahead) (s : State) :
    Host.Outcome State Fault Refusal :=
  s.issue (.prf flt a f sz ch la) (fun t =>
    t.begin_ { t.opOf (.prf flt a f sz ch la) (.prefetch flt) (some f.val) (t.curWave.memVa f a) sz.bytes (fun _ => [])
      (fun _ => []) [] with hint := ch })

/-! ## Local store (R161, R162, R294) -/

/-- A local operation's lanes performed; those that R161 names are unfinished. -/
def State.runLocal (s : State) (id : Nat) : State :=
  match Sparse.find s.ops id with
  | none => s
  | some o =>
    let w := s.wave o.wave
    let len := ((s.wg w.wg).map (·.l)).getD 0
    ((o.lanes.filter (fun x => decide (x.phase = .xlate))).foldl (fun acc x =>
      if localAt w len x.va.toNat o.size = .bad then acc.modOp id (fun p => p.setPhase [x.lane] (.fault 7 (misInfo 0x36 0)))
      else match o.kind with
        | .local true _ => acc.localStore id o.size x
        | _ => acc.localLoad w id o.size x) s).finishOp id

/-- A local operation begun; under the alias nothing issues until it retires (R162). -/
def State.startLocal (s : State) (o : MemOp) (alone : Bool) : State :=
  if o.lanes = [] then s.emptyOp .m
  else
    ((({ s with ops := Sparse.put s.ops s.nextId o, nextId := s.nextId + 1 } : State).modLive o.wave (fun w =>
      { w.countUp .m s.nextId with gate := if alone then w.gate ++ [s.nextId] else w.gate }))).runLocal s.nextId

/-- Under the alias LA does not hold: no window is opened, and the next instruction waits for the value (R162). -/
def State.aliasWindow (s : State) (a : Nat) (w : Wave) : State :=
  if w.aliased a then s.setCur { s.curWave with windows := s.curWave.windows.map (fun x =>
    if x.op = s.nextId then { x with la := 0, left := 0 } else x) } else s

def execLdl (d a : Reg) (sz : Size) (la : Ahead) (s : State) : Host.Outcome State Fault Refusal :=
  s.issueWith (.ldl d a sz la) none
    (fun t => if t.curWave.aliased a && (t.pendingRegs t.cur != [] || t.pendingFrames t.cur != []) then .wait t
      else t.aliasReach a sz.bytes .load t.curWave.lanes)
    (fun t => (t.aliasWindow a t.curWave).startLocal
      (t.opOf (.ldl d a sz la) (.local false (sizeSigned sz)) none (fun l => dw (t.curWave.v a l).toNat) sz.bytes (fun _ => [])
        (fun _ => []) (regsFrom d sz.regs)) (t.curWave.aliased a))

def execStl (d a : Reg) (sz : Size) (la : Ahead) (s : State) : Host.Outcome State Fault Refusal :=
  s.issueWith (.stl d a sz la) none
    (fun t => if t.curWave.aliased a && (t.pendingRegs t.cur != [] || t.pendingFrames t.cur != []) then .wait t
      else t.aliasReach a sz.bytes .store t.curWave.lanes)
    (fun t => t.startLocal
      (t.opOf (.stl d a sz la) (.local true false) none (fun l => dw (t.curWave.v a l).toNat) sz.bytes
        (fun l => (t.curWave.laneBytes d sz.regs l).take sz.bytes) (fun l => t.curWave.laneBytes d sz.regs l) [])
      (t.curWave.aliased a))

/-! ## Atomics (R296 to R299) -/

/-- An atomic: D holds its data, for ACAS its compare value and then its data. -/
def State.atomic (s : State) (i : Instr) (op : AtomOp) (d a : Reg) (f : Low) (sc : Scope) (o : Order) :
    Host.Outcome State Fault Refusal :=
  s.issueWith i none (fun t => if releases o && t.curWave.lanes != [] then t.fencePrep (t.widest f a .atomic sc) else .ok t) (fun t =>
    let w := t.curWave
    let n := w.vcount
    let t1 := if acquires o && w.lanes != [] then t.acquire (t.widest f a .atomic sc) else t
    t1.begin_ { t1.opOf i (.atomic op w.ty) (some f.val) (w.memVa f a) (4 * n)
      (fun l => w.laneBytes (if op = AtomOp.cas then d + n else d) n l) (fun l => if op = AtomOp.cas then w.laneBytes d n l else [])
      (regsFrom d n) with order := o, scope := some sc })

def execAadd (d a : Reg) (f : Low) (sc : Scope) (o : Order) (la : Ahead) (s : State) : Host.Outcome State Fault Refusal :=
  s.atomic (.aadd d a f sc o la) .add d a f sc o

def execAmin (d a : Reg) (f : Low) (sc : Scope) (o : Order) (la : Ahead) (s : State) : Host.Outcome State Fault Refusal :=
  s.atomic (.amin d a f sc o la) .min d a f sc o

def execAmax (d a : Reg) (f : Low) (sc : Scope) (o : Order) (la : Ahead) (s : State) : Host.Outcome State Fault Refusal :=
  s.atomic (.amax d a f sc o la) .max d a f sc o

def execAand (d a : Reg) (f : Low) (sc : Scope) (o : Order) (la : Ahead) (s : State) : Host.Outcome State Fault Refusal :=
  s.atomic (.aand d a f sc o la) .and d a f sc o

def execAor (d a : Reg) (f : Low) (sc : Scope) (o : Order) (la : Ahead) (s : State) : Host.Outcome State Fault Refusal :=
  s.atomic (.aor d a f sc o la) .or d a f sc o

def execAxor (d a : Reg) (f : Low) (sc : Scope) (o : Order) (la : Ahead) (s : State) : Host.Outcome State Fault Refusal :=
  s.atomic (.axor d a f sc o la) .xor d a f sc o

def execAxchg (d a : Reg) (f : Low) (sc : Scope) (o : Order) (la : Ahead) (s : State) : Host.Outcome State Fault Refusal :=
  s.atomic (.axchg d a f sc o la) .xchg d a f sc o

def execAcas (d a : Reg) (f : Low) (sc : Scope) (o : Order) (la : Ahead) (s : State) : Host.Outcome State Fault Refusal :=
  s.atomic (.acas d a f sc o la) .cas d a f sc o

def execAfadd (d a : Reg) (f : Low) (sc : Scope) (o : Order) (la : Ahead) (s : State) : Host.Outcome State Fault Refusal :=
  s.atomic (.afadd d a f sc o la) .fadd d a f sc o

def execAinc (d a : Reg) (f : Low) (sc : Scope) (o : Order) (la : Ahead) (s : State) : Host.Outcome State Fault Refusal :=
  s.atomic (.ainc d a f sc o la) .inc d a f sc o

/-! ## Translation (R37, R39, R301, R302) -/

/-- A one-lane operation on a uniform address. -/
def State.uniformOp (s : State) (i : Instr) (kind : OpKind) (va : Dword) (size : Nat) (dst : List Nat) : MemOp :=
  { s.opOf i kind none (fun _ => va) size (fun _ => []) (fun _ => []) dst with
    lanes := [{ lane := 0, va := va, phase := .xlate, data := [], cmp := [], key := none }] }

def execXlb (a : Reg) (f : Low) (la : Ahead) (s : State) : Host.Outcome State Fault Refusal :=
  s.issue (.xlb a f la) (fun t =>
    let w := t.curWave
    if w.lanes = [] then (t.setCur (w.setFrame f { w.frame f with v := false })).emptyOp .m
    else t.startOp (t.uniformOp (.xlb a f la) (.xlb f.val) (w.v64 a w.uniform) 0 []))

/-- Whether a frame maps the 64 KiB granule of a page. -/
def Frame.maps (f : Frame) (page : Nat) : Bool := f.v && pageBase (f.vbase / 65536) f.sz == pageBase page f.sz

/-- Whether a core lies in the instance of a scope about a core, for an invalidation (R302). -/
def inReach (sc : Scope) (own c : Nat) : Bool :=
  match sc with
  | .wave => c == own
  | .wg => c == own
  | .gang => clusterOfCore c == clusterOfCore own
  | .die => dieOfCore c == dieOfCore own
  | _ => true

/-- The V bits of frames cleared, in waves, operations and copies, where `f` says so of a wave's number and context. -/
def State.clearFrames (s : State) (bad : Nat → Nat → Frame → Bool) : State :=
  let clr : Nat × Indigo → Nat × Indigo := fun e =>
    let fs := e.2.copy.frames.map (fun (f : Nat × Frame) => (f.1, if bad e.1 e.2.copy.ctx f.2 then { f.2 with v := false } else f.2))
    let c : Wave := { e.2.copy with frames := fs }
    (e.1, { e.2 with copy := c })
  { s with
      waves := s.waves.map (fun e => (e.1, { e.2 with frames := e.2.frames.map (fun f =>
        (f.1, if bad e.1 e.2.ctx f.2 then { f.2 with v := false } else f.2)) })),
      ops := s.ops.map (fun e => (e.1, { e.2 with frame := e.2.frame.map (fun f =>
        if bad e.2.wave (s.wave e.2.wave).ctx f then { f with v := false } else f) })),
      copies := s.copies.map (fun e => (e.1, { e.2 with
        fsrc := if bad e.2.wave e.2.ctx e.2.fsrc then { e.2.fsrc with v := false } else e.2.fsrc,
        fdst := if bad e.2.wave e.2.ctx e.2.fdst then { e.2.fdst with v := false } else e.2.fdst })),
      indigo := s.indigo.map clr }

/-- The entries that XINV invalidates. -/
def State.invalidate (s : State) (sc : Scope) (id ctx page : Nat) : State :=
  let own := coreOfWave id
  let asid := s.asid ctx
  let keep : List TlbEntry → List TlbEntry := fun es => es.filter (fun e => !e.hits asid page)
  let s1 := s.clearFrames (fun w c f => f.maps page && (decide (c = ctx) || f.g) &&
    (if sc = .wave then w == id else inReach sc own (coreOfWave w)))
  if sc = .wave then s1
  else
    { s1 with
        l1tlb := s1.l1tlb.map (fun e => (e.1, if inReach sc own e.1 then keep e.2 else e.2)),
        l2tlb := s1.l2tlb.map (fun e => (e.1, if sc ≠ .wg ∧ inReach sc own (4 * e.1) then keep e.2 else e.2)) }

/-- What the entries that XINV invalidates map: first byte and length. -/
def State.cleared (s : State) (sc : Scope) (id ctx page : Nat) : List (Nat × Nat) :=
  let own := coreOfWave id
  let hit : List TlbEntry → List (Nat × Nat) := fun es => (es.filter (fun e => e.hits (s.asid ctx) page)).map (fun e =>
    (leafAddr e.leaf e.size 0, if e.size = 0 then 2 ^ 16 else if e.size = 1 then 2 ^ 21 else 2 ^ 30))
  (s.waves.flatMap (fun e => e.2.frames.filterMap (fun f =>
    if f.2.maps page && (decide (e.2.ctx = ctx) || f.2.g) && (if sc = .wave then e.1 == id else inReach sc own (coreOfWave e.1)) then
      some (f.2.pbase, f.2.limit + 1) else none))) ++
  (if sc = .wave then [] else
    s.l1tlb.flatMap (fun e => if inReach sc own e.1 then hit e.2 else []) ++
      s.l2tlb.flatMap (fun e => if sc ≠ .wg ∧ inReach sc own (4 * e.1) then hit e.2 else []))

def execXinv (a : Reg) (sc : Scope) (la : Ahead) (s : State) : Host.Outcome State Fault Refusal :=
  s.issue (.xinv a sc la) (fun t =>
    let w := t.curWave
    let va := w.v64 a w.uniform
    if w.lanes = [] then t.emptyOp .m
    else
      let id := t.nextId
      let o := { t.uniformOp (.xinv a sc la) (.xinv (if canonical va then (t.cleared sc t.cur w.ctx (pageOf va)).eraseDups else []))
        va 0 [] with lanes := [] }
      let t1 := ({ t with ops := Sparse.put t.ops id o, nextId := id + 1 }.setCur (w.countUp .m id))
      ((if canonical va then t1.invalidate sc t.cur w.ctx (pageOf va) else t1).post (.xinvComplete id)))

end Sys2Proof.Machine
end

