-- ==== Sys2Proof/Machine/Sync.lean ====
section
/-! DEFINITION. Synchronisation: barriers and supersteps (12/R309, R310, 04/R107), stage rings (12/R312 to R315),
YIELDC (05/R122, 12/R316), REORD (13/R344). -/

namespace Sys2Proof.Machine

/-! ## BAR (R309) -/

def Workgroup.bar (g : Workgroup) (b : Nat) : Barrier := g.bars.getD b { arrived := 0, phase := false }

/-- A mask with bit n set. -/
def withBit (m n : Nat) : Nat := m ||| 2 ^ n

/-- A wave arrives once and waits until the phase changes; `arg` holds the phase it found. -/
def State.barPrep (s : State) (b : Nat) : Move :=
  let w := s.curWave
  match s.wg w.wg with
  | none => .ok s
  | some g =>
    if w.stage = 0 then
      let old := g.bar b
      let new := ({ old with arrived := withBit old.arrived w.wid }).settle g.departed g.all
      let t := (s.modWg w.wg (fun k => { k with
          bars := (List.range 8).map (fun i => if i = b then new else k.bar i) })).setCur
        { w with stage := 1, arg := if old.phase then 1 else 0 }
      if new.phase ≠ old.phase then .ok t else .wait t
    else if (if (g.bar b).phase then 1 else 0) ≠ w.arg then .ok s
    else .wait s

def execBar (b : Low) (la : Ahead) (s : State) : Host.Outcome State Fault Refusal :=
  s.issueWith (.bar b la) none (fun t => t.barPrep b) (fun t => t)

/-! ## SSTEP (R107, R310) -/

/-- The workgroups of a gang. -/
def State.gangWgs (s : State) (gang : Nat) : List (Nat × Workgroup) := s.wgs.filter (fun e => e.2.gang == gang)

/-- The halves of a copy's stream that have still to land, with the addresses they come from and go to: those of segments
not yet issued, and of the sectors of the others that no event has landed. -/
def Copy.unlanded (c : Copy) : List (Dword × Dword) :=
  let whole : Seg := { sectors := [], parked := false, prk := false, landB := 0, src := c.src, dst := c.dst, shape := c.shape,
                       push := 0, again := [], wct := 0 }
  let at_ : Seg → Nat → Nat → List (Dword × Dword) := fun g k j => (c.halves k j).map (fun b => (g.srcVa b, g.dstVa b))
  ((List.range c.nsegs).filter (fun k => decide (c.next ≤ k) && !c.stopped)).flatMap (fun k =>
      (List.range (c.nsectors k)).flatMap (at_ whole k)) ++
    c.segs.flatMap (fun e => if e.2.push ≠ 0 then [] else
      (e.2.sectors.filter (fun x => decide (x.2 ≠ .landed))).flatMap (fun x => at_ e.2 e.1 x.1))

/-- Every half of a copy's stream, with the addresses it comes from and goes to. -/
def Copy.reach (c : Copy) : List (Dword × Dword) :=
  (List.range c.nsegs).flatMap (fun k =>
    let g := (Sparse.find c.segs k).getD
      { sectors := [], parked := false, prk := false, landB := 0, src := c.src, dst := c.dst, shape := c.shape, push := 0,
        again := [], wct := 0 }
    (List.range (c.nsectors k)).flatMap (fun j => (c.halves k j).map (fun b => (g.srcVa b, g.dstVa b))))

/-- The workgroup and scratchpad offset that a virtual address of a context reaches through a core's window. -/
def State.windowPad (s : State) (core ctx : Nat) (f : Frame) (k : Access) (va : Dword) : Option (Nat × Nat) :=
  match s.peekAt core ctx f k va with
  | none => none
  | some (pa, _) =>
    if targetOf pa ≠ .onchip ∨ pa % 0x200000 ≥ 0x180000 then none
    else match s.regionOf ((pa - 0x10000000000) / 0x200000) (pa % 0x200000) with
      | .pad g o => some (g, o)
      | _ => none

/-- What a copy has still to write of scratchpads through an on-chip frame (R111). -/
def State.copyPads (s : State) (core : Nat) (c : Copy) : List (Nat × Nat) :=
  if c.op.memDst then c.unlanded.filterMap (fun x => s.windowPad core c.ctx c.fdst .copyWrite x.2) else []

/-- Whether a copy of a gang has still to write a shadow half of it: in its own scratchpads, or through an on-chip frame
(R107, R111). -/
def State.copyShadows (s : State) (gang : Nat) : Bool :=
  s.copies.any (fun e => e.2.gang == gang &&
    ((!e.2.op.memDst && e.2.op != .cpyst &&
      (s.targets e.2).any (fun t => match s.wg t with
        | some g => decide (fld e.2.dst 0 32 < g.s)
        | none => false)) ||
     (s.copyPads (e.1 / 128) e.2).any (fun x => (s.wg x.1).any (fun g => g.gang == gang && decide (x.2 < g.s)))))

/-- Whether a window store of a wave of a gang has still to land in on-chip memory. -/
def State.storeShadows (s : State) (gang : Nat) : Bool :=
  s.ops.any (fun e =>
    (match e.2.kind with
     | .store => true
     | .atomic _ _ => true
     | _ => false) &&
    (match s.wg (s.wave e.2.wave).wg with
     | some g => g.gang == gang
     | none => false) &&
    e.2.lanes.any (fun x => decide (x.phase ≠ .fin) &&
      (match s.peekAt (coreOfWave e.2.wave) (s.wave e.2.wave).ctx (e.2.frame.getD Frame.empty) .store x.va with
       | some (pa, _) => decide (targetOf pa = .onchip)
       | none => false)))

/-- Whether the swap of a gang takes place now. -/
def State.swapReady (s : State) (gang : Nat) : Bool :=
  s.gangWgs gang != [] &&
    (s.gangWgs gang).all (fun e => (e.2.ssarr ||| e.2.departed) &&& e.2.all == e.2.all) &&
    (s.gangWgs gang).any (fun e => e.2.ssarr != 0) && !s.copyShadows gang && !s.storeShadows gang

/-- The swap: CUR toggles in every workgroup of the gang. -/
def State.swap (s : State) (gang : Nat) : State :=
  { s with wgs := s.wgs.map (fun e => (e.1, if e.2.gang = gang then { e.2 with cur := !e.2.cur, ssarr := 0 } else e.2)) }

def execSstepSwap (gang : Nat) (s : State) : Host.Outcome State Fault Refusal :=
  if s.swapReady gang then .next (s.swap gang) else .refused (.notEnabled "SSTEP_SWAP")

/-- A wave arrives once and waits for the swap; `arg` holds the half it found. -/
def State.sstepPrep (s : State) : Move :=
  let w := s.curWave
  match s.wg w.wg with
  | none => .ok s
  | some g =>
    let t := if w.stage = 0 then
        (s.modWg w.wg (fun k => { k with ssarr := withBit k.ssarr w.wid })).setCur
          { w with stage := 1, arg := if g.cur then 1 else 0 }
      else s
    let u := if t.swapReady g.gang then t.swap g.gang else t
    if (if ((u.wg w.wg).map (·.cur)).getD false then 1 else 0) ≠ u.curWave.arg then .ok u else .wait u

def execSstep (la : Ahead) (s : State) : Host.Outcome State Fault Refusal :=
  s.issueWith (.sstep la) none State.sstepPrep (fun t => t)

/-! ## Rings (R312 to R315) -/

/-- The ring that an instruction of the moving wave names. -/
def State.ring (s : State) (g : Nat) : Option Ring := (s.wg s.curWave.wg).bind (fun k => Sparse.find k.rings g)

def State.modRing (s : State) (g : Nat) (f : Ring → Ring) : State :=
  s.modWg s.curWave.wg (fun k => { k with rings := Sparse.update k.rings g f })

def RingSlot.free : RingSlot := { state := .empty, fail := false, holder := none, cpyst := false }

def Ring.slot (r : Ring) (i : Nat) : RingSlot := r.slots.getD i .free

def Ring.setSlot (r : Ring) (i : Nat) (x : RingSlot) : Ring := { r with slots := r.slots.set i x }

/-- MISALIGN, REASON RING. -/
def ringFault (addr code : Nat) : Option (Nat × Dword × Dword) := some (7, dw addr, misInfo 0x37 code)

def State.noRing (s : State) (g : Nat) : Option (Nat × Dword × Dword) :=
  if (s.ring g).isNone then ringFault 0 3 else none

/-- The slot index that RNGC and RNGF read. -/
def State.slotIndex (s : State) (a : Nat) : Nat := (s.curWave.v a s.curWave.uniform).toNat % 8

def execRnga (d : Reg) (g : Low) (la : Ahead) (s : State) : Host.Outcome State Fault Refusal :=
  s.issueWith (.rnga d g la) (s.noRing g)
    (fun t => match t.ring g with
      | none => .ok t
      | some r =>
        if (r.slot r.pp).state = .empty ∧ (r.waitA.head?.getD t.cur) = t.cur then .ok t
        else .wait (if r.waitA.contains t.cur then t else t.modRing g (fun r => { r with waitA := r.waitA ++ [t.cur] })))
    (fun t => match t.ring g with
      | none => t
      | some r =>
        ((t.modRing g (fun r =>
          { (r.setSlot r.pp { r.slot r.pp with state := .held, holder := some t.cur, fail := false }) with
              pp := (r.pp + 1) % r.ns, waitA := r.waitA.filter (· ≠ t.cur) })).laneWrite (.rnga d g la) d 1 []
          (fun _ => plain r.pp)).bump)

def execRngc (a : Reg) (g : Low) (la : Ahead) (s : State) : Host.Outcome State Fault Refusal :=
  let i := s.slotIndex a
  s.issueWith (.rngc a g la)
    (match s.ring g with
     | none => ringFault 0 3
     | some r =>
       if i ≥ r.ns then ringFault i 5
       else if (r.slot i).state ≠ .held ∨ (r.slot i).holder ≠ some s.cur then ringFault i 1
       else if (r.slot i).cpyst then ringFault i 2
       else none)
    (fun t => t.fencexPrep .o2e)
    (fun t => t.modRing g (fun r => r.setSlot i { r.slot i with state := .full, holder := none }))

def execRngw (d : Reg) (g : Low) (la : Ahead) (s : State) : Host.Outcome State Fault Refusal :=
  s.issueWith (.rngw d g la) (s.noRing g)
    (fun t => match t.ring g with
      | none => .ok t
      | some r =>
        if (r.slot r.cp).state = .full ∧ (r.waitW.head?.getD t.cur) = t.cur then .ok t
        else .wait (if r.waitW.contains t.cur then t else t.modRing g (fun r => { r with waitW := r.waitW ++ [t.cur] })))
    (fun t => match t.ring g with
      | none => t
      | some r =>
        ((t.modRing g (fun r =>
          { (r.setSlot r.cp { r.slot r.cp with state := .taken, holder := some t.cur }) with
              cp := (r.cp + 1) % r.ns, waitW := r.waitW.filter (· ≠ t.cur) })).laneWrite (.rngw d g la) d 1 []
          (fun _ => plain (r.cp + if (r.slot r.cp).fail then 256 else 0))).bump)

/-- Whether an earlier load or atomic of a wave has still to get its value. -/
def State.loading (s : State) (id : Nat) : Bool :=
  s.ops.any (fun e => e.2.wave == id && (match e.2.kind with
    | .load _ => true
    | .atomic _ _ => true
    | .local false _ => true
    | _ => false))

def execRngf (a : Reg) (g : Low) (la : Ahead) (s : State) : Host.Outcome State Fault Refusal :=
  let i := s.slotIndex a
  s.issueWith (.rngf a g la)
    (match s.ring g with
     | none => ringFault 0 3
     | some r =>
       if i ≥ r.ns then ringFault i 5
       else if (r.slot i).state ≠ .taken ∨ (r.slot i).holder ≠ some s.cur then ringFault i 4
       else none)
    (fun t => if t.loading t.cur then .wait t else .ok t)
    (fun t => t.modRing g (fun r => r.setSlot i { r.slot i with state := .empty, holder := none }))

/-! ## YIELDC (R122, R316) -/

def execYieldc (n : Fin 64) (off : BitVec 14) (la : Ahead) (s : State) : Host.Outcome State Fault Refusal :=
  s.issue (.yieldc n off la) (fun t =>
    let w := t.curWave
    t.setCur { w with pc := w.pc - 4 + 4 * off.signExtend 64,
                      status := if w.cq.length ≤ n.val then .ready else .yielded n.val })

/-! ## REORD (R344) -/

/-- A wave arrives once and waits until its workgroup's REORD has been performed. The registers of its live mask stand
outside the lookahead check (log 39). -/
def State.reordPrep (s : State) (d a : Nat) : Move :=
  let w := s.curWave
  let mine : ReordArr :=
    { wave := s.cur, p := w.exm, keys := (List.range w.width).map (fun l => w.v d l), live := w.v64 a w.uniform }
  let t := if w.stage = 0 then
      (s.modWg w.wg (fun k => { k with reord := k.reord ++ [mine] })).setCur { w with stage := 1 }
    else s
  let live := (((t.wg w.wg).map (·.reord)).getD []).foldl (fun acc x => acc ||| x.live) 0
  let top := w.wb + ((liveRegs live).getLast?.map (· + 1)).getD 0
  (if top > t.curWave.hi ∧ t.curWave.hi < w.stkmax then t.makeResident s.cur w.wb (Nat.min top w.stkmax) else .ok t).bind (fun u =>
    let v := u.reordTry w.wg
    if (((v.wg w.wg).map (·.reord)).getD []).any (fun x => x.wave == s.cur) then .wait v else .ok v)

def execReord (d a : Reg) (s : State) : Host.Outcome State Fault Refusal :=
  s.issueWith (.reord d a) none (fun t => t.reordPrep d a) (fun t => t)

end Sys2Proof.Machine
end

