-- ==== Sys2Proof/Machine/Image.lean ====
section
/-! DEFINITION. What the image of a saved workgroup holds (14/R365, 05/R128, 11/R284): the record of every wave, its
registers and mask-stack entries, scratchpad, tiles, copies, matrix operations and the workgroup record, in that order
(log 35). -/

namespace Sys2Proof.Machine

/-- Words of a record or a detail area as bytes. -/
def recBytesOf (ws : Sparse Dword) (first n : Nat) : List Byte :=
  (List.range n).flatMap (fun i => toBytes 8 (Sparse.get 0 ws (first + i)).toNat)

/-- The waves of a workgroup, by WID. -/
def State.savedWaves (s : State) (n : Nat) (g : Workgroup) : List (Nat × Wave) :=
  (s.waves.filter (fun (e : Nat × Wave) => e.2.wg == n && e.2.task == g.task)).mergeSort (fun a b => decide (a.2.wid ≤ b.2.wid))

/-- The record of STATUS SAVED of a wave, as it stands before its next instruction (R326). -/
def State.savedRecord (s : State) (id : Nat) (w : Wave) : List Byte :=
  recBytesOf (Sparse.put (s.headerOf id w 1
    { cls := 0, faddr := 0, finfo := 0, pre := true, pc := w.pc, iword := s.wordAt (coreOfWave id) w.ctx w.pc, npc := w.pc + 4,
      ahead := 0, unf := 0, gmode := w.gmode, vas := [], srcs := [], status := 9 }) 17 (dw s.gt)) 0 256

/-- The resident span and the mask-stack entries of a wave. -/
def Wave.stackBytes (w : Wave) : List Byte :=
  (List.range (w.hi - w.lo)).flatMap (fun j => (List.range w.width).flatMap (fun l => toBytes 4 (w.lreg (w.lo + j) l).toNat)) ++
  (List.range (Nat.min w.msd 16)).flatMap (fun i => (Sparse.get MaskEntry.empty w.mstack (w.msd - Nat.min w.msd 16 + i)).bytes)

/-- The image of a copy: SEG is the next segment to issue, MISS is zero (R128). -/
def Copy.image (c : Copy) (key : Nat) : List Byte :=
  recBytesOf (c.detail key c.next
    { sectors := [], parked := false, prk := false, landB := 0, src := c.src, dst := c.dst, shape := c.shape, push := 0,
      again := [], wct := 0 } 0 0) 0xC0 8

/-- The image of a matrix operation: NEXTC is the next chunk, ISR is zero (R284). -/
def MatOp.image (m : MatOp) : List Byte := recBytesOf (m.detail 0 0) 0xC0 12

/-- WIDs of waves as the fields of a workgroup record list them, 0xF ending the list. -/
def widList : List Nat → Nat
  | [] => 15
  | w :: r => w + 16 * widList r

/-- A workgroup's record; `n` granules in its image (R365). -/
def State.groupRecord (s : State) (g : Workgroup) (grans : Nat) : List Byte :=
  let e := s.engine g.core
  let wid : Nat → Nat := fun id => (s.wave id).wid
  let tok := if g.tiles then e.token else none
  let tokq := if g.tiles then e.tokq else []
  let here := decide (g.ssarr ≠ 0) && (g.ssarr ||| g.departed) &&& g.all == g.all
  let rearr := maskOf 16 (fun i => g.reord.any (fun a => wid a.wave == i))
  g.bars.flatMap (fun b => toBytes 2 b.arrived) ++
  toBytes 8 (g.departed % 65536 + maskOf 8 (fun b => (g.bars[b]?).any (·.phase)) * 2 ^ 16 + (if g.cur then 2 ^ 24 else 0) +
    (if here then 2 ^ 25 else 0) + tok.elim 0 (fun t => wid t * 2 ^ 32 + 2 ^ 36)) ++
  toBytes 8 (widList (tokq.map wid)) ++ toBytes 8 rearr ++ toBytes 8 grans ++
  (List.range 8).flatMap (fun n => match Sparse.find g.rings n with
    | some r => (List.range 16).map (Config.ringByte r.pp r.cp
        (r.slots.map (fun x => ((match x.state with
          | .empty => 0
          | .held => 1
          | .full => 2
          | .taken => 3), x.fail, x.holder.map wid))))
    | none => List.replicate 16 0) ++
  List.replicate 0x50 0

/-- What an image holds, but for the workgroup record; a matrix operation whose PRETRY was given and that waits for a place has
no record and is among the images (R282, R284). -/
def State.imageParts (s : State) (n : Nat) (g : Workgroup) : List Byte :=
  (s.savedWaves n g).flatMap (fun e => s.savedRecord e.1 e.2) ++
  (s.savedWaves n g).flatMap (fun e => e.2.stackBytes) ++
  s.read (winBase g.core + g.spb) (g.l + g.s) ++
  (if g.tiles then s.read (winBase g.core + 0x180000) 0x40000 else []) ++
  (s.copies.filter (fun (e : Nat × Copy) => e.2.wg == n)).flatMap (fun e => e.2.image e.1) ++
  ((s.engine g.core).ops.filter (fun m => m.wg == n && (!m.parked || m.again))).flatMap MatOp.image

/-- How many 4 KiB granules an image takes (R366). -/
def State.imageGrans (s : State) (n : Nat) (g : Workgroup) : Nat := ((s.imageParts n g).length + 256 + 4095) / 4096

/-- The bytes of a workgroup's image, whole granules. -/
def State.imageOf (s : State) (n : Nat) (g : Workgroup) : List Byte :=
  let k := s.imageGrans n g
  let b := s.imageParts n g ++ s.groupRecord g k
  b ++ List.replicate (4096 * k - b.length) 0

/-! ## Where images stand (R366) -/

/-- The physical address of granule `i` of a die's save area. -/
def State.saveArea (s : State) (die i : Nat) : Nat := fld (s.csrGet 0x201 die) 24 28 * 2 ^ 24 + 4096 * i

/-- A granule written where it has its place. -/
def State.putGranule (s : State) (die : Nat) (at_ : Option Nat × Nat) (bs : List Byte) : State :=
  match at_.1 with
  | some c => (s.write (winBase c + at_.2) bs).cleanse (winBase c + at_.2) 4096
  | none => s.devWrite (dieCore die) (s.saveArea die at_.2) bs

/-- An image written to its granules, in order. -/
def State.putImage (s : State) (die : Nat) (bs : List Byte) (room : List (Option Nat × Nat)) : State :=
  room.zipIdx.foldl (fun acc r => acc.putGranule die r.1 ((bs.drop (4096 * r.2)).take 4096)) s

/-- The image of a saved workgroup as it stands now, written to its granules: what an ending or a kill changed while it is
saved is in it at once (R364). -/
def State.resave (s : State) (n : Nat) : State :=
  match s.saved.find? (fun x => x.wg == n), s.wg n with
  | some x, some g => s.putImage x.die (s.imageOf n g) x.gran
  | _, _ => s

end Sys2Proof.Machine
end

