-- ==== Sys2Proof/Machine/Tasks.lean ====
section
/-! DEFINITION. Task records: the pool and the queues (13/R320 to R322, 14/R357, R371), units of KIND TASK (13/R336),
successors and completion (13/R323, R336), parked records that end (13/R328), and the enqueue instructions
(12/R317 to R319). -/

namespace Sys2Proof.Machine

/-! ## Fields of a record (R320) -/

def Task.word (t : Task) (i : Nat) : Dword := t.words.getD i 0

/-- KIND: 1 LAUNCH, 2 FAULT, 3 EVENT. -/
def Task.kind (t : Task) : Nat := fld (t.word 0) 60 4

/-- Whether its waves are handler or system contexts (R212, R378, R440). -/
def Task.isSys (t : Task) : Bool := t.kind == 2 || fld (t.word 0) 59 1 == 1

def Task.succVA (t : Task) : Dword := t.word 3

/-- NSUCC, 0 without a list. -/
def Task.nSucc (t : Task) : Nat := if t.succVA = 0 then 0 else fld (t.word 4) 16 16

/-! ## Parked records (R325, R328, R374) -/

/-- STATUS of a record. -/
def State.recStatus (s : State) (x : Nat) : Nat := fld (s.recWord x 0) 32 8

/-- A record is live while its index is taken (R328). -/
def State.recLive (s : State) (x : Nat) : Bool := (Sparse.find s.records x).isSome

/-- A record is freed once it has ended and no fault task that names it is left. -/
def State.freeRec (s : State) (x : Nat) : State :=
  match Sparse.find s.records x with
  | none => s
  | some r =>
    if 4 ≤ s.recStatus x ∧ s.recStatus x ≤ 8 ∧ r.tasks = 0 then
      { s with records := Sparse.erase s.records x, recwait := Sparse.put s.recwait (x / 4096) false }
    else s

/-- One fault task less names a record. -/
def State.unname (s : State) (x : Nat) : State :=
  ({ s with records := Sparse.update s.records x (fun r => { r with tasks := r.tasks - 1 }) }).freeRec x

/-- The depth of the unit of a record named by a handle (R380); 1 where the record is on another package (log 28). -/
def State.depthOfRec (s : State) (h : Nat) : Nat :=
  match s.recOfHandle h with
  | none => 1
  | some x =>
    let l := fld (s.recWord x 0) 46 2
    if l < 3 then l
    else match s.recOfHandle (fld (s.recWord x 0x90) 0 32) with
      | some y => if fld (s.recWord y 0) 46 2 = 3 then 4 else 3
      | none => 3

/-! ## Units of KIND TASK (R325, R336) -/

/-- Header and body of the record of a task. -/
def State.taskWords (s : State) (t : Task) (cls : Nat) (faddr finfo : Dword) (status : Nat) : Sparse Dword :=
  let depth := t.nest + 1
  let up := if depth ≥ 2 then t.record.getD 0 else 0
  let base : Sparse Dword :=
    [(0, dw (4 * 2 ^ 60 + cls * 2 ^ 48 + Nat.min depth 3 * 2 ^ 46 + status * 2 ^ 32 + t.ltag * 2 ^ 16 +
        (if t.isSys then 4 else 0))),
     (1, dw (s.pkg * 2 ^ 51 + t.die * 2 ^ 49)), (7, faddr), (8, finfo),
     (13, dw (earliest [t.deadline, (t.record).elim 0 (fun h => (s.recOfHandle h).elim 0 (fun x => (s.recWord x 0x68).toNat))])),
     (14, dw t.budget), (15, dw (fld (t.word 4) 16 16 * 2 ^ 16 + t.succIx)), (16, t.src), (18, dw up)]
  let w0 := setFld (setFld (t.word 0) 0 16 t.count) 31 1 (if t.failed then 1 else 0)
  base ++ (List.range 8).map (fun i => (0x600 / 8 + i, if i = 0 then w0 else t.word i)) ++ [(0x640 / 8, dw t.qw.toNat)]

/-- TAKING A FAULT, for a task: its waves stand still where it runs, and its record's image goes to be written. -/
def State.parkTask (s : State) (t : Nat) (cls : Nat) (faddr finfo : Dword) (status : Nat) : State :=
  match s.task t with
  | none => s
  | some k =>
    let runs := decide (k.phase = .placing ∨ k.phase = .running)
    (s.modTask t (fun k => { k with cause := cls, stop := runs, phase := if runs then k.phase else .parked })).post
      (.recordWritten { die := k.die, cluster := 0, kind := 4, cls := cls, wave := 0, unit := t,
                        words := s.taskWords k cls faddr finfo status, marks := [], status := status, entries := [] })

/-! ## The pool (R322, R371) -/

/-- TQBASE.V of a die. -/
def State.hasPool (s : State) (die : Nat) : Bool := fld (s.csrGet 0x202 die) 0 1 == 1

/-- Records of a die's pool, and those in use: a record leaves the pool as its task is dispatched (log 29). -/
def State.poolSize (s : State) (die : Nat) : Nat := 2 ^ (Nat.min (fld (s.csrGet 0x202 die) 4 4) 5 + 10)

def State.poolUsed (s : State) (die : Nat) : Nat :=
  (s.tasks.filter (fun e => e.2.die == die && decide (e.2.phase = .waiting ∨ e.2.phase = .queued ∨ e.2.phase = .kwait))).length

/-- The CODE with which a target engine refuses a record, if it does. -/
def State.refuses (s : State) (p : Push) (die : Nat) (own : Bool) : Option Nat :=
  let w := p.words.getD 0 0
  let v := p.words.getD 4 0
  if fld w 60 4 = 0 ∨ fld w 60 4 > 3 ∨ fld w 44 15 ≠ 0 ∨ fld w 16 15 ≠ 0 ∨ fld v 32 32 ≠ 0 ∨ fld v 0 16 ≠ 0 then some 3
  else if fld w 59 1 = 1 ∧ !p.priv then some 3
  else if own && !s.hasPool die then some 4
  else none

/-- A task whose predecessors have signalled: queued, or parked where one of them failed. -/
def State.readyTask (s : State) (t : Nat) : State :=
  match s.task t with
  | none => s
  | some k =>
    if k.failed then (s.modTask t (fun k => { k with phase := .parked })).parkTask t 17 k.src 0 0
    else
      ({ (s.modTask t (fun k => { k with phase := .queued })) with
          queues := Sparse.put s.queues (k.die * 16 + k.level) (Sparse.get [] s.queues (k.die * 16 + k.level) ++ [t]) }).post
        (.taskDispatch k.die)

/-- The task that an accepted record makes. -/
def State.newTask (s : State) (p : Push) (die : Nat) : Task :=
  let w := p.words.getD 0 0
  let fault := fld w 60 4 = 2
  let h := fld (p.words.getD 5 0) 0 32
  let failed := p.failed || fld w 31 1 == 1
  { die := die, words := p.words.set 0 (setFld (setFld w 0 16 p.count) 31 1 (if failed then 1 else 0)), qw := p.qw,
    level := bits p.qw.toNat 0 4, src := p.src, count := p.count, failed := failed, phase := .waiting, ltag := 0,
    succIx := 0, nest := if fault then s.depthOfRec h else 0, record := if fault then some h else none, ctx := 0,
    bbase := 0, nback := 0, boost := 0, entry := 0, kernel := none, nwg := 0, gsz := 1, regs := 0, nextWg := 0, live := 0,
    budget := (p.words.getD 2 0).toNat, hasBudget := decide (p.words.getD 2 0 ≠ 0), deadline := (p.words.getD 1 0).toNat,
    bad := false, cause := 0, skip := false, stop := false, paused := false, wct := 0, kctx := none }

/-- A record copied into a die's pool. -/
def State.acceptPush (s : State) (p : Push) (die : Nat) : State :=
  let t := s.nextId
  let k := s.newTask p die
  let s1 := { s with nextId := t + 1, tasks := Sparse.put s.tasks t k }
  let s2 := match k.record.bind s.recOfHandle with
    | some x => { s1 with records := Sparse.update s1.records x (fun r => { r with tasks := r.tasks + 1 }) }
    | none => s1
  if k.count ≠ 0 then { s2 with pool := Sparse.put s2.pool die (Sparse.get [] s2.pool die ++ [t]) } else s2.readyTask t

/-- The pushes that wait are tried again, before any that came after them (R428). -/
def State.retryPushes (s : State) : State := { s with agenda := s.pushes.map Instr.taskPush ++ s.agenda, pushes := [] }

/-- Whether a die serves tasks in the state the package is in (R431). -/
def State.dieServes (s : State) (die : Nat) : Bool :=
  (decide (s.mode = .full) || decide (s.mode = .degraded) || (decide (s.mode = .ochre) && die == 0)) &&
    s.failed / 2 ^ die % 2 == 0

/-- What becomes of a push: its target takes it, a Tosor port is to carry it to another package, it waits, no port can carry
it, or its target refuses it. -/
inductive PushEnd where
  | accept (die : Nat)
  | carry
  | wait
  | lost
  | refuse (code : Nat)
  deriving DecidableEq, Repr

/-- Pushes of one enqueue window reach their queues in order (R428). -/
def behind (p q : Push) : Bool :=
  match p.by_, q.by_ with
  | .window d _, .window e _ => d == e
  | _, _ => false

/-- Whether a push comes from another package. -/
def Pusher.outside (p : Pusher) : Bool :=
  match p with
  | .peer _ => true
  | _ => false

/-- A record at its target: the die's engine of this package, or the Tosor links (R322, R428, R429). -/
def State.judge (s : State) (p : Push) : PushEnd :=
  if !s.qwOk p.qw then .refuse 1
  else if s.pushes.any (fun q => behind p q) || s.link.any (fun l => match l.work with
      | .push q => behind p q
      | _ => false) then .wait
  else if s.qwPkg p.qw ≠ s.pkg then
    (if s.gtLocked && !s.routes p.die (s.qwPkg p.qw) then .lost else .carry)
  else if Pusher.outside p.by_ && !s.gtLocked then .wait
  else
    let die := qwDie p.qw p.die
    if s.mode = .degraded ∧ s.failed / 2 ^ die % 2 = 1 then .refuse 1
    else if !s.dieServes die then .wait
    else match s.refuses p die true with
      | some c => .refuse c
      | none => if s.poolUsed die ≥ s.poolSize die then .wait else .accept die

/-! ## Successors and completion (R323, R336) -/

/-- SIGLOST of a die rises (R341). -/
def State.loseSignal (s : State) (die : Nat) : State :=
  s.csrPut 0xA0 die (dw (Nat.min ((s.csrGet 0xA0 die).toNat + 1) (2 ^ 32 - 1)))

/-- A task that has given its signals: a record that it named is let go, and it is forgotten once none of its
workgroups is left. -/
def State.finishTask (s : State) (t : Nat) : State :=
  match s.task t with
  | none => s
  | some k =>
    let s1 := if k.live = 0 then { s with tasks := Sparse.erase s.tasks t }
      else s.modTask t (fun k => { k with phase := .done })
    (match k.record.bind s.recOfHandle with
     | some x => s1.unname x
     | none => s1).post (.taskDispatch k.die)

/-- MISALIGN, REASON ENQ (R287). -/
def enqInfo (code : Nat) : Dword := dw (0x38 * 2 ^ 56 + code * 2 ^ 48)

/-- A little-endian value as the device reads it at DEV scope: through a core's window as R104 gives, else newest. -/
def State.engineNat (s : State) (c pa n : Nat) : Nat :=
  if targetOf pa = .onchip then
    ofBytes (s.windowRead ((pa - 0x10000000000) / 0x200000) (pa % 0x200000) n false false)
  else s.newestNat c pa n

/-- The poison of what the device reads so. -/
def State.engineMark (s : State) (pa n : Nat) : Mark :=
  if targetOf pa = .onchip then
    (s.windowMarks ((pa - 0x10000000000) / 0x200000) (pa % 0x200000) n false false).foldl Mark.join Mark.none
  else s.markIn pa n

/-- How the next entry of a successor list reads; `held` where its page, or a table of its walk, is not served (R431). -/
inductive Entry where
  | sends (g : Signal) (leaf : Nat)
  | held
  | fails (cls : Nat) (faddr finfo : Dword)
  | moves (die mig : Nat)

/-- The entry at SUCCIX, read through the task's context (R323, R321). -/
def State.readEntry (s : State) (t : Nat) (k : Task) : Entry :=
  let c := dieCore k.die
  match s.reach c k.ctx k.isSys .load 0 (k.succVA + dw (16 * k.succIx)) with
  | .moving d i => .moves d i
  | .fail cls fa i => .fails cls fa i
  | .held => .held
  | .ok p leaf =>
    let q := wd (s.engineNat c (p + 8) 4)
    let m := s.engineMark p 16
    if m.origin ≠ 0 then .fails m.cls (dw m.addr) (eccInfo m.origin 6 false 0)
    else if !s.qwOk q then .fails 7 (k.succVA + dw (16 * k.succIx)) (enqInfo 1)
    else .sends { task := t, src := dw (s.engineNat c p 8), failed := k.bad, pkg := s.qwPkg q, die := qwDie q k.die } leaf

/-- Whether a write-back or check-in is on its way, or its acknowledgement. -/
def returning (i : Instr) : Bool :=
  match i with
  | .ckin _ => true
  | .wback _ => true
  | .ack r => (match r.who with
    | .cache _ => true
    | _ => false)
  | _ => false

/-- Whether work of a task is under way: operations of its waves, copies, matrix operations. -/
def State.working (s : State) (t : Nat) : Bool :=
  let mine : Nat → Bool := fun g => (s.wg g).any (fun x => x.task == t)
  s.ops.any (fun e => (Sparse.find s.waves e.2.wave).any (fun w => w.task == t)) ||
  s.copies.any (fun e => mine e.2.wg) || s.engines.any (fun e => e.2.ops.any (fun m => mine m.wg))

/-- Every write of a task's work is globally visible: nothing of it is under way, no C copy and no check-in holds any of
it, and GT has passed every WCT (R323). -/
def State.visible (s : State) (t : Nat) (k : Task) : Bool :=
  !s.working t && decide (s.gt > Nat.max k.wct s.ewct) &&
  !s.caches.any (fun e => e.2.any (fun c => decide (c.kind = .c) && c.dirty != [])) && !s.agenda.any returning &&
  !s.slices.any (fun e => e.2.wait.any returning || e.2.lines.any (fun l => l.queue.any returning))

/-- Whether the first signal of a task must wait for its writes. -/
def State.holdsSignal (s : State) (t : Nat) (k : Task) : Bool :=
  decide (k.succIx = 0 ∧ k.nSucc ≠ 0) && !s.visible t k

/-- Whether a task's signal is on its way to another package. -/
def State.signalling (s : State) (t : Nat) : Bool :=
  s.link.any (fun l => match l.work with
    | .signal g => g.task == t
    | _ => false)

/-- The next signals of a task: one is sent, the task parks, all have been given, or they wait. -/
def State.signalNext : Nat → Nat → State → State
  | 0, t, s => s.finishTask t
  | n + 1, t, s =>
    match s.task t with
    | none => s
    | some k =>
      if k.succIx ≥ k.nSucc then s.finishTask t
      else if k.paused || s.holdsSignal t k || s.signalling t then s
      else match s.readEntry t k with
        | .sends g leaf =>
          if g.pkg = s.pkg then (s.setAD (dieCore k.die) leaf false).post (.successorSignal g)
          else if !s.gtLocked || s.routes k.die g.pkg then
            (s.setAD (dieCore k.die) leaf false).sendLink k.die g.pkg (.signal g)
          else if k.skip then
            signalNext n t ((s.loseSignal k.die).modTask t (fun k => { k with succIx := k.succIx + 1 }))
          else s.parkTask t 12 (k.succVA + dw (16 * k.succIx)) (linkInfo 2 g.pkg 1) 0
        | .fails c fa i =>
          if k.skip then
            signalNext n t ((s.loseSignal k.die).modTask t (fun k => { k with succIx := k.succIx + 1 }))
          else s.parkTask t c fa i 0
        | .held => s
        | .moves d i => (s.joinMig d i (4, t)).parkTask t 0 (k.succVA + dw (16 * k.succIx)) 0 3

/-- The signals of a task begin or go on. -/
def State.signalOn (s : State) (t : Nat) : State :=
  match s.task t with
  | some k => State.signalNext (k.nSucc + 1) t (s.modTask t (fun k => { k with phase := .signalling }))
  | none => s

/-- A signal reaches the oldest waiting copy of a source record, or is lost. -/
def State.takeSignal (s : State) (g : Signal) : State :=
  match (Sparse.get [] s.pool g.die).find? (fun t => ((s.task t).map (fun k => k.src == g.src)).getD false) with
  | some t =>
    let s1 := s.modTask t (fun k => { k with count := k.count - 1, failed := k.failed || g.failed })
    if ((s1.task t).map (·.count)).getD 0 = 0 then
      ({ s1 with pool := Sparse.put s1.pool g.die ((Sparse.get [] s1.pool g.die).filter (· ≠ t)) }).readyTask t
    else s1
  | none => s.loseSignal g.die

/-- A signal delivered; from another package only while GT is locked (R430). -/
def execSuccessorSignal (g : Signal) (s : State) : Host.Outcome State Fault Refusal :=
  if g.task = 0 ∧ !s.gtLocked then .refused (.notEnabled "SUCCESSOR_SIGNAL")
  else
  let s1 := if g.pkg = s.pkg then s.takeSignal g else s
  .next (if g.task = 0 then s1 else (s1.modTask g.task (fun k => { k with succIx := k.succIx + 1 })).signalOn g.task)

/-- Every C copy checked in, for a signal that needs its writes visible. -/
def State.publish (s : State) : State :=
  s.caches.foldl (fun acc e => if real e.1 then acc.checkInAll e.1 [] else acc) s

/-- What a task whose signals wait can do now: its writes are published, or its next signals go. -/
def State.signalStep (s : State) (t : Nat) : Option State :=
  match s.task t with
  | none => none
  | some k =>
    if k.phase ≠ .signalling ∨ k.paused ∨ s.agenda.any (fun i => match i with
        | .successorSignal g => g.task == t
        | _ => false) then none
    else if s.holdsSignal t k then (if s.publish.agenda.length > s.agenda.length then some s.publish else none)
    else
      let u := State.signalNext (k.nSucc + 1) t s
      if u.agenda.length > s.agenda.length ∨ u.link.length > s.link.length ∨ (u.task t).all (fun x => x.phase ≠ .signalling) then some u else none

/-- A task one of whose units was killed fails (R336). -/
def State.failTask (s : State) (g : Nat) : State :=
  match s.wg g with
  | some k => s.modTask k.task (fun t => { t with bad := true })
  | none => s

/-- The kitty context of a task that completes, fails or is given up drains, or is free at once where no workgroup has been
placed on it (R382). -/
def State.drainKitty (s : State) (t : Nat) : State :=
  match s.task t with
  | none => s
  | some k => match k.kctx with
    | none => s
    | some i =>
      if s.wgs.any (fun e => e.2.task == t) then { s with kitty := Sparse.put s.kitty (k.die * 64 + i) .draining }
      else ({ (s.modTask t (fun k => { k with kctx := none })) with
        kitty := Sparse.put s.kitty (k.die * 64 + i) .free }).post (.taskDispatch k.die)

/-- A task completes, failed where one of its units was killed; while its context is stopped or saved its signals wait,
but for those of a kill (R364). -/
def State.completeTask (s : State) (t : Nat) : State :=
  ((s.drainKitty t).modTask t (fun k => { k with paused := s.prectl k.die k.ctx && !k.bad })).signalOn t

/-! ## ENQ and ENQD (R319) -/

/-- The checks of step 1. -/
def State.enqCheck (s : State) (a : Nat) : Option (Nat × Dword × Dword) :=
  let w := s.curWave
  if w.lanes = [] then none
  else if !s.qwOk (w.v (a + 2) w.uniform) then some (7, w.v64 a w.uniform, enqInfo 1)
  else if (w.v64 a w.uniform).toNat % 64 ≠ 0 then some (7, w.v64 a w.uniform, enqInfo 2)
  else none

/-- An enqueue: the fence, then the record's read, whose end sends the push; nothing issues until it is accepted. -/
def State.enqueue (s : State) (i : Instr) (a : Nat) (count : Wave → Nat) : Host.Outcome State Fault Refusal :=
  s.issueWith i (s.enqCheck a)
    (fun t => if t.curWave.lanes = [] then .ok t
      else t.fencePrep (if t.qwPkg (t.curWave.v (a + 2) t.curWave.uniform) = t.pkg then 4 else 5))
    (fun t =>
      let w := t.curWave
      if w.lanes = [] then t
      else
        t.startOp
          { wave := t.cur, kind := .record (w.v (a + 2) w.uniform) (count w), pc := w.pc - 4, iword := encode i, frame := none,
            dst := [], size := 64, hint := .nl, order := .plain, scope := none, count := none, seq := w.seq, gmode := w.gmode,
            replay := false, resume := false, npc := 0, cdepth := w.cdepth,
            lanes := [{ lane := w.uniform, va := w.v64 a w.uniform, phase := .xlate, data := [], cmp := [], key := none }] })

def execEnq (a : Reg) (la : Ahead) (s : State) : Host.Outcome State Fault Refusal :=
  s.enqueue (.enq a la) a (fun _ => 0)

/-- ENQD (R319): the dependence count of vA+3 loses what its 16 bits cannot hold (log 116). -/
def execEnqd (a : Reg) (la : Ahead) (s : State) : Host.Outcome State Fault Refusal :=
  s.enqueue (.enqd a la) a (fun w => (w.v (a.val + 3) w.uniform).toNat % 65536)

end Sys2Proof.Machine
end

