-- ==== Sys2Proof/Machine/Endings.lean ====
section
/-! DEFINITION. How a parked unit ends (13/R333 to R336, 11/R282, 05/R125, 15/R379): what each ending does to a wave, an
octet operation, a segment, a task and a prefault entry; the fault buffer's REPLAY (02/R45 to R48), the replay of
units (02/R42, R46), and the lapse of a parked unit's deadline (14/R359). -/

namespace Sys2Proof.Machine

/-- The endings: PRESUME, PRETRY, PREDIR with its PC, PKILL, and the lapse of DEADLINE. -/
inductive Ending where
  | resume | retry | redirect (pc : Dword) | kill | lapse
  deriving DecidableEq, Repr

/-- Whether an ending kills. -/
def Ending.kills (e : Ending) : Bool :=
  match e with
  | .kill => true
  | .lapse => true
  | _ => false

/-- The STATUS that an ending leaves (R326); PREDIR of a unit that takes no PC counts as PRETRY. -/
def Ending.status (e : Ending) (kind : Nat) : Nat :=
  match e with
  | .resume => 4
  | .retry => 5
  | .redirect _ => if kind = 1 then 6 else 5
  | .kill => 7
  | .lapse => 8

/-! ## The record of a unit -/

/-- The live record of a unit that has not ended. -/
def State.unitRecord (s : State) (u : Nat × Nat) : Option Nat :=
  (s.records.find? (fun e => e.2.kind == u.1 && e.2.unit == u.2 && decide (s.recStatus e.1 ≤ 3))).map (·.1)

/-- Fault tasks that name a record and still wait are discarded (R379). -/
def State.discardTasks (s : State) (x : Nat) : State :=
  let named : Task → Bool := fun t => t.record.bind s.recOfHandle == some x
  let gone := (s.tasks.filter (fun e => named e.2 &&
    decide (e.2.phase = .waiting ∨ e.2.phase = .queued ∨ e.2.phase = .kwait))).map (·.1)
  let keep : List Nat → List Nat := fun l => l.filter (fun t => !gone.contains t)
  { s with
      tasks := s.tasks.filter (fun e => !gone.contains e.1),
      queues := s.queues.map (fun e => (e.1, keep e.2)),
      pool := s.pool.map (fun e => (e.1, keep e.2)),
      kwaits := s.kwaits.map (fun e => (e.1, keep e.2)),
      pushes := s.pushes.filter (fun p => match p.by_ with
        | .router die i _ => die * 4096 + i != x
        | _ => true),
      records := Sparse.update s.records x (fun r => { r with tasks := r.tasks - gone.length }) }

/-- A unit off all that it waits on, the dropped list among it: DROPPED falls in its record (R46). -/
def State.leaveAll (s : State) (x : Nat) (u : Nat × Nat) : State :=
  (s.leaveWaits u).setRecWord x 0 (setFld (s.recWord x 0) 0 1 0)

/-- A record ended with a STATUS. -/
def State.endRecord (s : State) (x st : Nat) : State :=
  let t := s.setRecWord x 0 (setFld (s.recWord x 0) 32 8 st)
  ({ t with records := Sparse.update t.records x (fun r => { r with hold := false }) }).discardTasks x

/-- The poison of a 4-byte word of a record (R386). -/
def State.recMark (s : State) (x off : Nat) : Mark :=
  match Sparse.find s.records x with
  | some r => Sparse.get Mark.none r.marks off
  | none => Mark.none

/-! ## Replay of a wave's lanes (R42, R334) -/

/-- Captured register i of lane l in a record (R327). -/
def State.capturedReg (s : State) (x i l : Nat) : Word :=
  wd (fld (s.recWord x (captureAt i l / 8 * 8)) (if captureAt i l % 8 = 4 then 32 else 0) 32)

/-- Captured data of a lane, registers i to i + n − 1, as bytes. -/
def State.capturedBytes (s : State) (x i n l : Nat) : List Byte :=
  wordBytes ((List.range n).map (fun k => s.capturedReg x (i + k) l))

/-- The types that an atomic accepts (R296). -/
def atomTypes (op : AtomOp) : List Ty :=
  match op with
  | .xchg => tXchg
  | .cas => tXchg
  | .fadd => tFlt
  | _ => tSint

/-- An atomic under the type that a mode word holds, where it accepts that type (R334). -/
def MemOp.retype (o : MemOp) (g : Dword) : MemOp :=
  match o.kind, Ty.ofBits? (fld g 3 4) with
  | .atomic op _, some t =>
    if (atomTypes op).contains t then
      let n := if t.wide then 2 else 1
      let fit : List Byte → List Byte := fun b => if b = [] then [] else (b ++ List.replicate 8 0).take (4 * n)
      { o with kind := .atomic op t, size := 4 * n, gmode := g, dst := (List.range n).map (o.dst.headD 0 + ·),
               lanes := o.lanes.map (fun x => { x with data := fit x.data, cmp := fit x.cmp }) }
    else { o with gmode := g }
  | _, _ => { o with gmode := g }

/-- Lane `l` of a parked operation made ready from the record: to be performed where UNF holds it, else done. -/
def State.prepLane (s : State) (x : Nat) (o : MemOp) (l : Nat) : LaneOp :=
  let like : LaneOp := ((o.lanes.find? (fun y => y.lane == l)).orElse (fun _ => o.lanes.head?)).getD
    { lane := l, va := 0, phase := .fin, data := [], cmp := [], key := none }
  if !bitOf (s.recWord x 0x28) l then { like with lane := l, phase := .fin }
  else
    let m : LaneOp :=
      { lane := l, va := s.recWord x (0x100 + 8 * l), phase := .xlate,
        cmp := (s.capturedBytes x 0 (like.cmp.length / 4) l).take like.cmp.length,
        data := (s.capturedBytes x (if o.kind.returns then like.cmp.length / 4 else 0) ((like.data.length + 3) / 4) l).take
          like.data.length, key := none }
    if o.askew m then { m with phase := .fault 7 (misInfo 0x34 0) } else m

/-- A parked operation made ready for its replay: the lanes of UNF, under the header's GMODE (R42, R334). -/
def State.prepOp (s : State) (x : Nat) (o' : MemOp) : MemOp :=
  let o := o'.retype (dw (fld (s.recWord x 0x30) 0 61))
  let ls := (List.range (s.wave o.wave).width).filter (fun l =>
    o.lanes.any (fun y => y.lane == l) || bitOf (s.recWord x 0x28) l)
  { o with lanes := ls.map (s.prepLane x o), frame := none, npc := s.recWord x 0x50, replay := false }

/-- The operations that a record holds made ready for their replay. -/
def State.prepWave (s : State) (x id : Nat) : State :=
  { s with ops := s.ops.map (fun e => if e.2.wave = id ∧ e.2.resume then (e.1, s.prepOp x e.2) else e) }

/-- Whether an operation of a parked wave has been made ready. -/
def MemOp.prepared (o : MemOp) : Bool := o.resume && !o.replay && !o.lanes.any LaneOp.bad

/-- The replay of a wave's operations begun. -/
def State.startWave (s : State) (id : Nat) : State :=
  if !real (coreOfWave id) then s
  else
    (s.ops.filter (fun e => e.2.wave == id && e.2.resume && !e.2.replay)).foldl (fun acc e =>
      let t := acc.modOp e.1 (fun o => { o with replay := true })
      match e.2.kind with
      | .local _ _ => t.runLocal e.1
      | _ => t.tryOp e.1) s

/-- The operations of a wave that wait on its record given up: their lanes are not performed. -/
def State.dropResumed (s : State) (id : Nat) : State :=
  (s.ops.filter (fun e => e.2.wave == id && e.2.resume)).foldl (fun acc e => acc.dropOp e.1 id) s

/-- A wave takes EXM, GMODE, SIGR, CCT and RER from its record (R334). -/
def State.takeHeader (s : State) (x id : Nat) (sig0 : Bool) : State :=
  s.modLive id (fun w =>
    { w with
        exm := w.cut (s.recWord x 0x20), gmode := dw (fld (s.recWord x 0x30) 0 61),
        sigr := if sig0 then 0 else wd (fld (s.recWord x 0x18) 0 32),
        cct := fld (s.recWord x 0x60) 24 1 == 1, rer := s.recWord x 0x48 })

/-- A wave no longer waits for the token or in a ring (R262, R314): it goes on elsewhere. -/
def State.unqueue (s : State) (id : Nat) : State :=
  let c := coreOfWave id
  (s.setEngine c { s.engine c with tokq := (s.engine c).tokq.filter (· ≠ id) }).modWg (s.wave id).wg (fun k =>
    { k with rings := k.rings.map (fun r => (r.1, { r.2 with
      waitA := r.2.waitA.filter (· ≠ id), waitW := r.2.waitW.filter (· ≠ id) })) })

/-- A wave continues at a PC. -/
def State.continueAt (s : State) (x id : Nat) (pc : Dword) (sig0 : Bool) : State :=
  let t := if pc = (s.wave id).pc then s else s.unqueue id
  ((t.takeHeader x id sig0).dropResumed id).modLive id (fun w =>
    { w with status := .ready, pc := pc, stage := if pc = w.pc then w.stage else 0 })

/-- The instruction word of a record. -/
def State.recInstr (s : State) (x : Nat) : Option Instr :=
  match decode (wd (fld (s.recWord x 0x18) 32 32)) with
  | .ok i => some i
  | .error _ => none

/-- Whether PRETRY issues the instruction of a record again although it had issued (R334): also after LINKTO, where no
lanes of it wait for a replay (R330). -/
def repeats (i : Option Instr) (cls : Nat) (lanes : Bool) : Bool :=
  match i with
  | some (.enq _ _) => true
  | some (.enqd _ _) => true
  | some (.ptld _ _ _) => true
  | _ => cls == 12 && !lanes

/-- A constant load's lanes performed from the captured offsets (R249, R253). -/
def State.redoLdc (s : State) (x id : Nat) (d : Reg) : State :=
  let w := s.wave id
  let k := s.kernelOf w
  let size := (k.map (·.constSz)).getD 0
  let base := (k.map (·.constPA)).getD 0
  let off : Nat → Dword := fun l => s.recWord x (0x100 + 8 * l)
  let at_ : Nat → Nat := fun l => s.place (base + (off l).toNat)
  let unf := (List.range w.width).filter (bitOf (s.recWord x 0x28))
  let good := unf.filter (fun l => constOk size (off l))
  let t := s.setWave id ((w.lwrite (w.wb + d.val) (fun l =>
    if good.contains l then some (wd (s.newestNat (coreOfWave id) (base + (off l).toNat) 4)) else none)).markLanes d good (fun l => s.mark (at_ l)))
  match unf.filter (fun l => !constOk size (off l)) with
  | [] => t.continueAt x id (s.recWord x 0x50) false
  | l0 :: rest =>
    (t.takeHeader x id false).parkWave id
      { cls := 7, faddr := off l0, finfo := jumpInfo 0x32, pre := false, pc := s.recWord x 0x10,
        iword := wd (fld (s.recWord x 0x18) 32 32), npc := s.recWord x 0x50, ahead := 0,
        unf := dw ((l0 :: rest).foldl (fun acc l => acc + 2 ^ l) 0), gmode := s.recWord x 0x30,
        vas := (l0 :: rest).map (fun l => (l, off l)), srcs := [], status := 0 }

/-- Source registers of an instruction put back as a record captured them, with their poison, in the lanes of a mask
(R334, R386). -/
def State.patchRegs (s : State) (x : Nat) (mask : Dword) (rs : List Nat) (w : Wave) : Wave :=
  rs.zipIdx.foldl (fun acc r =>
    ((List.range acc.width).filter (bitOf mask)).foldl
      (fun a l => a.setLmark (a.wb + r.1) l (s.recMark x (captureAt r.2 l)))
      (acc.lwrite (acc.wb + r.1) (fun l => if bitOf mask l then some (s.capturedReg x r.2 l) else none))) w

/-- The unfinished lanes of an instruction of the lane unit, or of PRREG and PWREG, set up to be performed again by the
next move, from the captured values and under the header's GMODE; the wave carries the record's IWORD meanwhile. -/
def State.redoLanes (s : State) (x id : Nat) (i : Instr) (cls : Nat) : State :=
  let unf := s.recWord x 0x28
  let t := s.continueAt x id (s.recWord x 0x50) false
  let w := t.wave id
  let base := { w with exm := w.cut unf, gmode := setFld (dw (fld (s.recWord x 0x30) 0 61)) 0 3 0, pc := s.recWord x 0x10,
                       windows := [], stage := 0, region := none, rer := 0, gate := [],
                       arg := fld (s.recWord x 0x18) 32 32 }
  let p := if cls = 9 then s.patchRegs x unf (singles (i.opnds w).rd) base else base
  { t.setWave id p with turns := t.turns ++ [.redo id w] }

/-- What an instruction that had issued and issues again has folded into SIGR is taken back: it folds once (R258). -/
def State.refold (s : State) (x id : Nat) : State :=
  match s.recInstr x with
  | some i => s.modLive id (fun w => if (i.opnds w).fold then { w with sigr := sigUnfold w.sigr (encode i) } else w)
  | none => s

/-- PRETRY of a wave's record (R334). -/
def State.retryWave (s : State) (x id : Nat) : State :=
  let cls := fld (s.recWord x 0) 48 8
  let lanes := s.ops.any (fun e => e.2.wave == id && e.2.resume)
  if fld (s.recWord x 0) 4 1 = 1 then s.continueAt x id (s.recWord x 0x10) false
  else if repeats (s.recInstr x) cls lanes then (s.continueAt x id (s.recWord x 0x10) false).refold x id
  else if lanes then (s.takeHeader x id false).prepWave x id
  else match s.recInstr x with
    | some (.ldc d _ _) => s.redoLdc x id d
    | some i => if s.recWord x 0x28 = 0 then s.continueAt x id (s.recWord x 0x50) false else s.redoLanes x id i cls
    | none => s.continueAt x id (s.recWord x 0x50) false

/-! ## Segments (R125) -/

/-- The missing sectors of a segment's record. -/
def State.missing (s : State) (x : Nat) : List Nat :=
  (List.range 128).filter (fun j => bitOf (s.recWord x (if j < 64 then 0x630 else 0x638)) (j % 64))

/-- A segment made ready for its replay, with the addresses and the shape that its record holds. -/
def State.prepSeg (s : State) (x key k : Nat) : State :=
  match s.segOf key k with
  | none => s
  | some g =>
    if g.push ≠ 0 then
      (s.modCopyOf key (fun c => { c with recVA := s.recWord x 0x620, queue := wd (fld (s.recWord x 0x628) 0 32),
                                          dep := fld (s.recWord x 0x628) 32 32 })).modSeg key k (fun g =>
        { g with push := 1, sectors := [(0, .wait)] })
    else s.modSeg key k (fun g =>
      { g with sectors := (s.missing x).map (fun j => (j, SPhase.wait)), src := s.recWord x 0x608, dst := s.recWord x 0x610,
               shape := s.recWord x 0x618 })

/-- A segment's replay begun, at once, however many segments are in flight (R109; log 109). -/
def State.startSeg (s : State) (key k : Nat) : State :=
  if !real (key / 128) then s
  else
    let t := s.modSeg key k (fun g => { g with parked := false })
    match t.segOf key k with
    | some g => if g.push ≠ 0 then t.tryPush key k else t.trySeg key k
    | none => t

/-- The missing sectors of a segment abandoned; a kill abandons the copy's unissued segments too (R117, R125). -/
def State.abandonSeg (s : State) (key k : Nat) (kill : Bool) : State :=
  match s.copyOf key, s.segOf key k with
  | some c, some g =>
    let done := { c with segs := Sparse.erase c.segs k }
    if g.push ≠ 0 then (s.modCopyOf key (fun _ => done)).freeCopy key done
    else
      let n := c.bytesOf k (g.sectors.map (·.1))
      let rest := if kill && !c.stopped then c.n - Nat.min c.n (4096 * c.next) else 0
      let s1 := s.barrierAdd c 0 (n + rest) (2 ^ 32 - n % 2 ^ 32) 0
      let d := { done with killed := c.killed + n + rest, stopped := c.stopped || kill,
                           tail := if k + 1 = c.nsegs then g.landB else c.tail }
      ((s1.modCopyOf key (fun _ => d)).copyDone key).post (.segmentIssue (key / 128))
  | _, _ => s

/-- The key and index of a segment named as a unit. -/
def segKey (u : Nat) : Nat := u / 2 ^ 32
def segIx (u : Nat) : Nat := u % 2 ^ 32

/-! ## Octet operations (R282) -/

/-- The core and the parked operation with a number; one that has been issued again and waits for a place stands parked no
more. -/
def State.findMat (s : State) (id : Nat) : Option (Nat × MatOp) :=
  s.engines.findSome? (fun e => (e.2.ops.find? (fun m => m.id == id && m.parked && !m.again)).map (fun m => (e.1, m)))

/-- Eight 32-bit fields of a record. -/
def State.recHalves (s : State) (x off : Nat) : List Nat :=
  (List.range 8).map (fun i => fld (s.recWord x (off + 4 * i / 8 * 8)) (if i % 2 = 1 then 32 else 0) 32)

/-- An operation as its record stands (R281). -/
def State.patchMat (s : State) (x : Nat) (m : MatOp) : MatOp :=
  let h := s.recWord x 0x600
  { m with nextc := fld h 40 4, xf := fld h 35 5, ff := fld h 32 3, mxa := fld h 24 8, mxb := fld h 16 8, rows := fld h 0 8,
           boff := fld (s.recWord x 0x608) 32 32, bsoff := fld (s.recWord x 0x608) 0 32, aoff := s.recHalves x 0x610,
           asoff := s.recHalves x 0x630, parked := false }

/-- An operation issued again as a new instruction, as soon as the engine has a place for it (R282). -/
def State.retryMat (s : State) (x id : Nat) : State :=
  match s.findMat id with
  | none => s
  | some (core, m) => (s.modMat core id (fun _ => { s.patchMat x m with parked := true, again := true })).acceptWaiting core

/-- An operation given up; a kill leaves canonical NaNs in what it would have written. -/
def State.giveUpMat (s : State) (x id : Nat) (kill : Bool) : State :=
  match s.findMat id with
  | none => s
  | some (core, m0) =>
    let m := s.patchMat x m0
    let nan : State → List Nat → State := fun t rows => rows.foldl (fun acc r =>
      (List.range 32).foldl (fun acc2 j => acc2.tilePut core (m.tileOf) r j 0x7FC00000) acc) t
    let s1 := if !kill then s
      else match m.kind with
        | .mma => nan s (m.rowList.map m.rowOf)
        | .mmas => nan s (m.rowList.map m.rowOf)
        | .mmab => nan s (m.rowList.map m.rowOf)
        | .accld => (List.range 32).foldl (fun acc r => (List.range 32).foldl (fun acc2 j =>
            acc2.tilePut core m.tile r j 0x7FC00000) acc) s
        | _ => s
    ((s1.endMat core m0).releaseHeld core).acceptWaiting core

/-! ## Replay of units (R46) -/

/-- Whether a unit that has left all it waits on stands ready without a record: its PRETRY has been given. -/
def State.preparedUnit (s : State) (u : Nat × Nat) : Bool :=
  match u.1 with
  | 1 => decide ((s.wave u.2).status = .parked) && s.ops.any (fun e => e.2.wave == u.2 && e.2.prepared)
  | 3 => ((s.segOf (segKey u.2) (segIx u.2)).map (fun g => g.parked && g.sectors.all (fun x => decide (x.2 = .wait)))).getD false
  | _ => false

/-- Whether a unit replays as soon as it waits on nothing. -/
def State.eligible (s : State) (u : Nat × Nat) : Bool :=
  match s.unitRecord u with
  | some x => decide (s.recStatus x = 2 ∨ s.recStatus x = 3)
  | none => s.preparedUnit u

/-- A unit begins its replay: as a WAITER or a MIGRATING unit, whose record ends, or after its PRETRY. -/
def State.replayUnit (s : State) (u : Nat × Nat) : State :=
  let begin_ : State → State := fun t => match u.1 with
    | 1 => t.startWave u.2
    | 3 => t.startSeg (segKey u.2) (segIx u.2)
    | 4 => t.signalOn u.2
    | _ => t
  match s.unitRecord u with
  | some x =>
    let s1 := match u.1 with
      | 1 => s.retryWave x u.2
      | 3 => s.prepSeg x (segKey u.2) (segIx u.2)
      | _ => s
    (begin_ (s1.endRecord x 5)).freeRec x
  | none => begin_ s

/-- A unit looked at after something that it waited on has gone. -/
def State.releaseUnit (s : State) (u : Nat × Nat) : State :=
  if s.waitCount u = 0 ∧ !s.isDropped u ∧ s.eligible u then s.replayUnit u else s

/-- Fault-buffer entries pass through REPLAY to FREE, and their waiters are released (R45). -/
def State.passWhere (s : State) (mine : FbEntry → Bool) : State :=
  let units := s.fb.flatMap (fun e => (e.2.filter mine).flatMap (fun f => f.waiters))
  units.foldl (fun acc u => acc.releaseUnit u)
    { s with fb := s.fb.map (fun e => (e.1, e.2.map (fun f => if mine f then FbEntry.free else f))) }

/-- The entries that name a record. -/
def State.passEntries (s : State) (x : Nat) : State :=
  s.passWhere (fun e => decide (e.state = .opened) && e.record == some x)

/-- The entries that name a unit whose record will not be written. -/
def State.passUnit (s : State) (u : Nat × Nat) : State :=
  s.passWhere (fun e => decide (e.state = .pending) && e.named == u)

/-! ## Kills (R335) -/

/-- The operation among some that a request is for, with its lanes. -/
def wantedBy (ids : List Nat) (q : Requester) (lanes : List Nat) : Option (Nat × List Nat) :=
  match q with
  | .op n => if ids.contains n then some (n, lanes) else none
  | _ => none

/-- The operation among some, with its lanes, for which a request or a window access has still to be performed. -/
def requestOf (ids : List Nat) (i : Instr) : Option (Nat × List Nat) :=
  match i with
  | .onchipWindowAccess a => wantedBy ids a.who a.lanes
  | _ => (reqOfEvent i).bind (fun r => wantedBy ids r.who r.lanes)

/-- The same for a request that a split row holds: what its UPD has shown to other cores has been performed (R70). -/
def Held.wanted (ids : List Nat) (hd : Held) : Option (Nat × List Nat) :=
  if acts hd.row 5 then none else wantedBy ids hd.hreq.who hd.hreq.lanes

/-- The same for a request that a Tosor port is to carry. -/
def Link.wanted (ids : List Nat) (l : Link) : Option (Nat × List Nat) :=
  match l.work with
  | .req _ _ r => wantedBy ids r.who r.lanes
  | _ => none

/-- The bytes of a store that its home has not performed taken out of the copy of its own core (R147). -/
def State.unwrite (s : State) (r : HomeReq) : State :=
  if r.bytes = [] ∨ r.atom.isSome then s
  else
    let h := s.homeOf r.core r.line
    let d := s.lineData ((s.lineAt h r.line).getD (s.newLine h r.line noTable 0))
    s.modCopy r.core r.line (fun c =>
      if c.kind = .c ∨ (c.kind = .x ∧ c.cls ≠ 1) then c
      else { c with data := c.data.zipIdx.map (fun e => if r.bytes.any (fun b => b.1 == e.2) then d.getD e.2 e.1 else e.1) })

/-- Operations whose lanes a kill takes back: accesses to memory. -/
def OpKind.access? (k : OpKind) : Bool :=
  match k with
  | .long _ => false
  | .xinv _ => false
  | .checkin => false
  | _ => true

/-- The requests of some operations taken back from wherever they wait, a split row that holds one going on without it; the
lanes that they were for. -/
def State.takeBack (s : State) (ids : List Nat) : State × List (Nat × List Nat) :=
  let cut : List Instr → List Instr := fun l => l.filter (fun i => (requestOf ids i).isNone)
  let found : List Instr → List (Nat × List Nat) := fun l => l.filterMap (requestOf ids)
  let idle : Held → Held := fun hd =>
    if (hd.wanted ids).isSome then { hd with hreq := { hd.hreq with bytes := [], atom := none, poison := [] } } else hd
  let helds := s.slices.flatMap (fun e => e.2.lines.filterMap (fun l => l.held.filter (fun hd => (hd.wanted ids).isSome)))
  let waiting := s.agenda ++ s.slices.flatMap (fun e => e.2.wait ++ e.2.lines.flatMap (fun l => l.queue))
  let stores := (waiting.filter (fun i => (requestOf ids i).isSome)).filterMap reqOfEvent ++ helds.map (·.hreq) ++
    s.link.filterMap (fun l => match l.work with
      | .req _ _ r => if (l.wanted ids).isSome then some r else none
      | _ => none)
  let kept : Slice → Slice := fun x =>
    { x with wait := cut x.wait, lines := x.lines.map (fun l => { l with queue := cut l.queue, held := l.held.map idle }),
             claims := x.claims.filter (fun c => (cut x.wait).any (fun i => (reqOfEvent i).any (fun r => r.line == c.1))) }
  (stores.foldl (fun (acc : State) r => acc.unwrite r) { s with
      agenda := cut s.agenda, slices := s.slices.map (fun e => (e.1, kept e.2)),
      link := s.link.filter (fun l => (l.wanted ids).isNone),
      engines := s.engines.map (fun e => (e.1, { e.2 with
        held := e.2.held.filter (fun a => (requestOf ids (.onchipWindowAccess a)).isNone) })) },
    found waiting ++ helds.filterMap (fun hd => hd.wanted ids) ++ s.link.filterMap (fun l => l.wanted ids) ++
      s.engines.flatMap (fun e => found (e.2.held.map .onchipWindowAccess)))

/-- A lane that waits on a migration. -/
def LaneOp.moving (x : LaneOp) : Bool :=
  match x.phase with
  | .mig _ _ => true
  | _ => false

/-- What a wave has issued and not performed never occurs (R147, R335): untranslated lanes, requests not yet served, and
stores for which a line is being checked out. Refused lanes are dropped and logged (R439). -/
def State.withdraw (s : State) (id : Nat) : State :=
  let ids := (s.ops.filter (fun e => e.2.wave == id && e.2.kind.access?)).map (·.1)
  let r := s.takeBack ids
  let gone : Nat → LaneOp → Bool := fun n x =>
    decide (x.phase = .xlate) || x.moving || (x.writes.map (·.2)) == some true || r.2.any (fun g => g.1 == n && g.2.contains x.lane)
  ids.foldl (fun acc n =>
    let t := acc.modOp n (fun o => { o with
      resume := false, replay := false,
      lanes := o.lanes.map (fun x => if gone n x then { x with phase := .fin } else x) })
    match Sparse.find t.ops n with
    | none => t
    | some o => if o.lanes.any LaneOp.open then t else if o.lanes.any LaneOp.bad then t.lateDrop n o else t.dropOp n id) r.1

/-- The operations of a parked wave that its record holds given up; a replay of them goes on as a plain access. -/
def State.dropParked (s : State) (id : Nat) : State :=
  (s.ops.filter (fun e => e.2.wave == id && e.2.resume && !e.2.replay)).foldl (fun acc e => acc.dropOp e.1 id) s

/-- A wave killed: its unfinished lanes never occur, it waits on nothing, and it departs. -/
def State.killWave (s : State) (id : Nat) : State :=
  ((((s.dropParked id).withdraw id).leaveWaits (1, id)).endWave id true).passUnit (1, id)

/-- A wave of a killed task: a record that it stands in ends KILLED, one not yet written is given up; what it leaves is in the
image of its workgroup, where that is saved (R364). -/
def State.killWaveOf (s : State) (id : Nat) : State :=
  let s1 := { s with detached := s.detached.map (fun (e : Nat × List ParkImage) => (e.1, e.2.filter (fun p => !(p.kind == 1 && p.unit == id)))) }
  let s2 := match s1.unitRecord (1, id) with
    | some x => (((((s1.leaveAll x (1, id)).endRecord x 7).passEntries x).killWave id)).freeRec x
    | none => s1.killWave id
  s2.resave (s.wave id).wg

/-- Waves of a task that have not ended. -/
def State.wavesOf (s : State) (t : Nat) : List Nat :=
  (s.waves.filter (fun e => e.2.task == t && !e.2.retired)).map (·.1)

/-- A task killed: it is placed no further, its waves are killed, and it fails; without a workgroup it is over. Its place with
the Dealer is free for another (R357). -/
def State.killTask (s : State) (t : Nat) : State :=
  let s1 := (s.modTask t (fun k => { k with bad := true, stop := false, paused := false, nextWg := k.nwg }))
  let s2 : State := (s1.wavesOf t).foldl (fun (acc : State) id => acc.killWaveOf id)
    { s1 with dealer := s1.dealer.map (fun (e : Nat × List Nat) => (e.1, e.2.filter (· ≠ t))) }
  (if ((s2.task t).map (·.live)).getD 0 = 0 then s2.completeTask t
   else s2.modTask t (fun k => { k with phase := .running })).post (.taskDispatch (((s.task t).map (·.die)).getD 0))

/-! ## Tasks (R336, R359) -/

/-- The record copy and the queue word that a TASK record keeps. -/
def State.recTask (s : State) (x : Nat) : List Dword × Word :=
  ((List.range 8).map (fun i => s.recWord x (0x600 + 8 * i)), wd (fld (s.recWord x 0x640) 0 32))

/-- A task put at the head of its run queue. -/
def State.headTask (s : State) (t : Nat) : State :=
  match s.task t with
  | none => s
  | some k =>
    ({ (s.modTask t (fun k => { k with phase := .queued, failed := false })) with
        queues := Sparse.put s.queues (k.die * 16 + k.level) (t :: Sparse.get [] s.queues (k.die * 16 + k.level)) }).post
      (.taskDispatch k.die)

/-- The push that PRETRY makes of a task's record. -/
def State.taskPush (s : State) (x t : Nat) : Push :=
  let r := s.recTask x
  { by_ := .device, words := r.1.set 0 (setFld (r.1.getD 0 0) 0 32 0), qw := r.2, count := 0, failed := false,
    src := ((s.task t).map (·.src)).getD 0, priv := true, die := ((s.task t).map (·.die)).getD 0 }

/-- A record pushed again: accepted by its target, or, for a default action, left to wait there (R322, R336). -/
def State.pushAgain (s : State) (p : Push) : State :=
  match s.judge p with
  | .accept die => s.acceptPush p die
  | .carry => s.sendLink p.die (s.qwPkg p.qw) (.push p)
  | .wait => { s with pushes := s.pushes ++ [p] }
  | _ => s

/-- Whether an ending pushes the record of a task again: PRETRY or PREDIR after DEP_FAILED, LAUNCH_FIT or SECVER. -/
def State.repushes (s : State) (x kind : Nat) (e : Ending) : Bool :=
  decide (kind = 4) && decide (17 ≤ fld (s.recWord x 0) 48 8) && decide (fld (s.recWord x 0) 48 8 ≤ 19) &&
  (match e with
   | .retry => true
   | .redirect _ => true
   | _ => false)

/-- Whether an ending takes no effect because the target refuses the record that it would push again, or no link carries
it (R336). -/
def State.repushFails (s : State) (x : Nat) (r : Record) (e : Ending) : Bool :=
  s.repushes x r.kind e && (match s.judge (s.taskPush x r.unit) with
    | .refuse _ => true
    | .lost => true
    | _ => false)

/-- A task given up without signals, because its record has been pushed again. -/
def State.forgetTask (s : State) (t : Nat) : State :=
  match s.task t with
  | none => s
  | some k =>
    let s1 := { s.drainKitty t with tasks := Sparse.erase s.tasks t }
    match k.record.bind s.recOfHandle with
    | some x => s1.unname x
    | none => s1

/-- The ending of a unit of KIND TASK. -/
def State.endTaskUnit (s : State) (x t : Nat) (e : Ending) : State :=
  match s.task t with
  | none => s
  | some k =>
    let r := s.recTask x
    let s0 := s.modTask t (fun k => { k with words := r.1, qw := r.2 })
    let ran := k.kernel.isSome
    if k.cause = 15 ∨ k.cause = 16 then
      (if e.kills then s0.killTask t
       else
         let b := (s.recWord x 0x70).toNat
         let s1 := s0.modTask t (fun k => { k with budget := b, hasBudget := decide (b ≠ 0), stop := false,
                                                   deadline := (s.recWord x 0x608).toNat })
         if ran then s1.post (.workgroupPlace k.die) else s1.headTask t)
    else if k.cause = 17 ∨ k.cause = 18 ∨ k.cause = 19 then
      (match e with
       | .resume =>
         if k.cause = 17 then
           (s0.modTask t (fun k => { k with words := k.words.set 0 (setFld (k.words.getD 0 0) 31 1 0) })).headTask t
         else s0.completeTask t
       | .retry => (s0.pushAgain (s.taskPush x t)).forgetTask t
       | .redirect _ => (s0.pushAgain (s.taskPush x t)).forgetTask t
       | _ => (s0.modTask t (fun k => { k with bad := true })).completeTask t)
    else
      (if e.kills then (s0.modTask t (fun k => { k with bad := true, skip := true, paused := false })).signalOn t
       else (s0.modTask t (fun k => { k with paused := s.prectl k.die k.ctx })).signalOn t)

/-! ## Endings (R333 to R335) -/

/-- The ending of a unit of KIND WAVE. A PC given by PREDIR loses its bits [1:0] (log 31). -/
def State.endWaveUnit (s : State) (x id : Nat) (e : Ending) : State :=
  match e with
  | .resume => s.continueAt x id (s.recWord x 0x50) (decide (fld (s.recWord x 0) 48 8 = 14))
  | .redirect pc => s.continueAt x id (pc &&& ~~~ 3) false
  | .retry => s.retryWave x id
  | _ => s.killWave id

/-- Whether an ending takes a unit off all that it waits on at once (R46, R333). -/
def leavesAll (kind status : Nat) (e : Ending) : Bool :=
  decide (status = 2) || (match e with
    | .resume => true
    | .redirect _ => kind == 1
    | .retry => false
    | _ => true)

/-- The workgroup of a unit. -/
def State.groupOfUnit (s : State) (u : Nat × Nat) : Option Nat :=
  match u.1 with
  | 1 => (Sparse.find s.waves u.2).map (·.wg)
  | 2 => (s.findMat u.2).map (fun m => m.2.wg)
  | 3 => (s.copyOf (segKey u.2)).map (·.wg)
  | _ => none

/-- A live record takes its ending; the image of a saved unit's workgroup holds it at once (R364). -/
def State.endUnit (s : State) (x : Nat) (e : Ending) : State :=
  match Sparse.find s.records x with
  | none => s
  | some r =>
    if s.repushFails x r e then s
    else
    let u := (r.kind, r.unit)
    let s1 := if leavesAll r.kind (s.recStatus x) e then s.leaveAll x u else s
    let s2 := s1.endRecord x (e.status r.kind)
    let s3 : State := match r.kind with
      | 1 => s2.endWaveUnit x r.unit e
      | 2 => (match e with
          | .retry => s2.retryMat x r.unit
          | .redirect _ => s2.retryMat x r.unit
          | .resume => s2.giveUpMat x r.unit false
          | _ => ((s2.findMat r.unit).elim s2 (fun m => s2.failTask m.2.wg)).giveUpMat x r.unit true)
      | 3 => (match e with
          | .retry => s2.prepSeg x (segKey r.unit) (segIx r.unit)
          | .redirect _ => s2.prepSeg x (segKey r.unit) (segIx r.unit)
          | .resume => s2.abandonSeg (segKey r.unit) (segIx r.unit) false
          | _ => ((s2.copyOf (segKey r.unit)).elim s2 (fun c => s2.failTask c.wg)).abandonSeg (segKey r.unit) (segIx r.unit) true)
      | 4 => s2.endTaskUnit x r.unit e
      | _ => s2
    let s4 := ((s3.passEntries x).releaseUnit u).freeRec x
    (s.groupOfUnit u).elim s4 s4.resave

/-- A parked unit whose DEADLINE has come is killed (R359). -/
def execParkedDeadline (die index : Nat) (s : State) : Host.Outcome State Fault Refusal :=
  let x := die * 4096 + index
  if s.recLive x ∧ s.recStatus x ≤ 3 ∧ s.recWord x 0x68 ≠ 0 ∧ s.gt ≥ (s.recWord x 0x68).toNat then
    .next (s.endUnit x .lapse)
  else .refused (.notEnabled "PARKED_DEADLINE")

/-! ## PRPLAY (R48) -/

/-- A unit off the dropped list: DROPPED falls in its record. -/
def State.undrop (s : State) (u : Nat × Nat) : State :=
  (match s.unitRecord u with
   | some x => s.setRecWord x 0 (setFld (s.recWord x 0) 0 1 0)
   | none => s).releaseUnit u

/-- The dropped list of a cluster walked, then the waiters that wait on nothing else replayed. -/
def State.playCluster (s : State) (cl : Nat) : State :=
  let s1 := (Sparse.get [] s.dropped cl).foldl (fun acc u =>
    ({ acc with dropped := Sparse.put acc.dropped cl ((Sparse.get [] acc.dropped cl).filter (· ≠ u)) }).undrop u) s
  let ws := ((s1.fbOf cl).filter (fun e => decide (e.state = .pending ∨ e.state = .opened))).flatMap (fun e => e.waiters)
  ws.foldl (fun acc u =>
    if acc.waitCount u = 1 ∧ !acc.isDropped u ∧ acc.eligible u then (acc.leaveWaits u).replayUnit u else acc) s1

end Sys2Proof.Machine
end

