-- ==== Sys2Proof/Machine/Registers.lean ====
section
/-! DEFINITION. System registers: which exist, what they read, which bits of them software writes (13/R340 to R342,
and the rules that define each); the snapshot registers and their latch (15/R395, R396). -/

namespace Sys2Proof.Machine

/-! ## Which registers exist (R340, R341) -/

/-- The instance a CSR number names: ignored for the registers of the package (R340). -/
def csrInst (num inst : Nat) : Nat := if csrInsts num = some 1 then 0 else inst

/-! ## Reads -/

/-- Cores of a die in the logical core map. -/
def State.coreCount (s : State) (die : Nat) : Nat :=
  ((List.range 128).filter (fun c => s.coreIn (128 * die + c))).length

/-- ID1 (R17). -/
def State.id1 (s : State) : Dword :=
  dw (s.coreCount 0 + 2 ^ 8 * s.coreCount 1 + 2 ^ 16 * s.coreCount 2 + 2 ^ 24 * s.coreCount 3)

/-- ID0 (R17). -/
def id0 : Dword := 0x4E59412801010004

/-- TQSTAT (R371); the rotation pointer is the one held bit by bit. -/
def State.tqstat (s : State) (die : Nat) : Dword :=
  dw ((if s.hasPool die then Nat.min (s.poolSize die - s.poolUsed die) 65535 else 0) * 2 ^ 32 +
    maskOf 16 (fun l => !(Sparse.get [] s.queues (die * 16 + l)).isEmpty) * 2 ^ 16 + fld (s.csrGet 0x203 die) 0 4)

/-- KSTAT (R382). -/
def State.kstat (s : State) (die : Nat) : Dword :=
  dw (maskOf (fld (s.csrGet 0x380 die) 8 8) (fun i => decide (Sparse.get KState.free s.kitty (die * 64 + i) = .free)))

/-- KWAIT (R382). -/
def State.kwait (s : State) (die : Nat) : Dword :=
  dw (fld (s.csrGet 0x382 die) 32 1 * 2 ^ 32 +
    Nat.min (s.records.filter (fun (e : Nat × Record) => e.1 / 4096 == die && e.2.hold && decide (s.recStatus e.1 ≤ 3))).length 65535 * 2 ^ 16 +
    Nat.min (Sparse.get [] s.kwaits die).length 65535)

/-- The value a register reads (R341); SNAPDATA reads its word without advancing. TARG0 to TARG2 are the argument words
of the task of the wave that moves; PRBASE.BASE has no reset value (R6, R341; log 13). -/
def State.csrRead (s : State) (num inst : Nat) : Dword :=
  if num = 0 then id0
  else if num = 1 then s.id1
  else if num = 0x20 then s.fbstat inst
  else if num = 0x80 ∧ (Sparse.find s.csr (0x80 * 256 + inst)).isNone then dw (Config.resetBase inst % 2 ^ 29 * 2 ^ 23)
  else if 0x90 ≤ num ∧ num ≤ 0x92 then ((s.task s.curWave.task).map (fun t => t.word (num - 0x90 + 5))).getD 0
  else if num = 0x203 then s.tqstat inst
  else if num = 0x381 then s.kstat inst
  else if num = 0x382 then s.kwait inst
  else if num = 0x3C2 then dw s.latchGT
  else if num = 0x3C4 then Sparse.get 0 s.latched (fld (s.csrGet 0x3C3 0) 16 16 * 65536 + fld (s.csrGet 0x3C3 0) 0 16)
  else s.csrGet num inst

/-! ## The bits software writes (R7) -/

/-- Ones from bit `lo`, `n` of them. -/
def ones (lo n : Nat) : Nat := (2 ^ n - 1) * 2 ^ lo

/-- RW bits of a register. -/
def csrRw (num : Nat) : Nat :=
  if num = 0x10 then ones 21 31 + ones 0 16
  else if 0x30 ≤ num ∧ num ≤ 0x37 then ones 0 16
  else if 0x60 ≤ num ∧ num ≤ 0x67 then ones 23 1 + ones 0 21
  else if num = 0x70 then ones 13 39 + 1
  else if num = 0x71 then ones 8 8
  else if num = 0x80 then ones 23 29 + 1
  else if num = 0x201 then ones 24 28 + ones 0 8
  else if num = 0x202 then ones 16 36 + ones 4 4 + 1
  else if num = 0x204 then ones 44 12 + ones 16 16
  else if num = 0x205 then ones 16 48
  else if 0x304 ≤ num ∧ num ≤ 0x35B then
    (if num % 4 = 0 then ones 0 64 - ones 56 1 else if num % 4 = 1 then ones 16 48 else if num % 4 = 2 then ones 16 48
     else ones 0 64)
  else if num = 0x380 then ones 8 8 + ones 0 6
  else if num = 0x383 then ones 16 48
  else if num = 0x390 then ones 15 37 + 1
  else if num = 0x3A0 then ones 63 1 + ones 0 32
  else if num = 0x3C0 then ones 63 1 + ones 8 8 + ones 0 5
  else if num = 0x3C1 then ones 0 64
  else if num = 0x3C3 then ones 0 32
  else if num = 0x401 then ones 0 32
  else if num = 0x402 then ones 0 11
  else if num = 0x410 then ones 0 33
  else if num = 0x411 then ones 13 39 + 1
  else if num = 0x430 then ones 16 4 + ones 0 7
  else if 0x1000 ≤ num ∧ num ≤ 0x1FFF then ones 63 1 + ones 0 13
  else 0

/-- W1C bits of a register. -/
def csrW1c (num : Nat) : Nat :=
  if num = 0x382 then ones 32 1
  else if num = 0x3A1 then 1
  else if num = 0x3C0 then ones 62 1
  else if num = 0x400 then ones 9 1
  else 0

/-- A write that no rule of the register's own refuses. -/
def State.csrStore (s : State) (num inst : Nat) (v : Dword) : State :=
  let old := s.csrGet num inst
  let rw := dw (csrRw num)
  let c := dw (csrW1c num)
  if csrRw num = 0 ∧ csrW1c num = 0 then s
  else s.csrPut num inst ((v &&& rw) ||| (old &&& ~~~ rw &&& ~~~ (v &&& c)))

/-! ## Snapshots (R395, R396) -/

/-- The state code of a resident wave. -/
def State.snapCode (s : State) (id : Nat) (w : Wave) : Nat :=
  if (Sparse.find s.indigo id).any (fun r => r.live) ∧ w.status = .waiting then 4
  else match w.status with
    | .empty => 0
    | .ready => 1
    | .waiting => 2
    | .parked => 3
    | .draining => 5
    | .yielded _ => 6

/-- Words of a core's block but its first. -/
def State.snapCore (s : State) (c : Nat) : List (Nat × Dword) :=
  let e := s.engine c
  let mine := s.copies.filter (fun (x : Nat × Copy) => x.1 / 128 == c)
  (s.waves.filter (fun (x : Nat × Wave) => coreOfWave x.1 == c)).flatMap (fun (x : Nat × Wave) =>
    [(c * 65536 + 1 + x.1 % 48, dw (fld x.2.pc 2 55 * 2 ^ 8 + s.snapCode x.1 x.2 * 16)),
     (c * 65536 + 49 + x.1 % 48, dw x.2.cnt)]) ++
  [(c * 65536 + 97, dw (mine.length % 256 + (mine.foldl (fun acc (x : Nat × Copy) => acc + x.2.flying) 0) % 256 * 256)),
   (c * 65536 + 98, dw (e.accepted % 64 + (e.token.elim 0 (fun id => 4096 + 256 * (s.wave id).wid))))]

/-- Words of a die's block. -/
def State.snapDie (s : State) (d : Nat) : List (Nat × Dword) :=
  let b := (640 + d) * 65536
  [(b, s.tqstat d), (b + 1, s.kstat d), (b + 2, s.kwait d),
   (b + 3, dw ((s.records.filter (fun (e : Nat × Record) => e.1 / 4096 == d)).length)),
   (b + 4, dw ((Sparse.get [] s.dealer d).length)), (b + 5, s.csrGet 0x200 d), (b + 6, s.csrGet 0x3A1 d),
   (b + 7, s.csrGet 0x391 d)]

/-- Words of the blocks of slices and ports that hold something. -/
def State.snapRest (s : State) : List (Nat × Dword) :=
  (s.slices.map (fun (e : Nat × Slice) => ((644 + e.1) * 65536,
    dw ((e.2.lines.filter (fun l => s.isTransient l)).length % 4096 +
      (e.2.lines.filter (fun l => l.twin.isSome)).length % 64 * 2 ^ 16 +
      ((e.2.lines.map (fun l => l.queue.length)).sum + e.2.wait.length) % 256 * 2 ^ 24)))) ++
  (s.ports.flatMap (fun (e : Nat × Nat × Nat × Nat) =>
    [((2180 + e.1) * 65536, dw e.2.1), ((2180 + e.1) * 65536 + 1, dw e.2.2.1)]))

/-- Words of the blocks of clusters. -/
def State.snapClusters (s : State) : List (Nat × Dword) :=
  (List.range 128).flatMap (fun cl =>
    [((512 + cl) * 65536, s.fbstat cl),
     ((512 + cl) * 65536 + 1, dw ((s.walks.filter (fun k => k.cluster == cl)).length % 32 +
       (Sparse.get [] s.l2tlb cl).length % 8192 * 2 ^ 16))])

/-- Every block latches (SNAPSHOT_LATCH). -/
def State.latch (s : State) (src : Nat) : State :=
  let cores := (s.waves.map (fun (e : Nat × Wave) => coreOfWave e.1) ++ s.copies.map (fun (e : Nat × Copy) => e.1 / 128) ++
    s.engines.map (fun (e : Nat × Engine) => e.1)).eraseDups
  let all := (List.range 512).map (fun c => (c * 65536, dw s.gt)) ++ (cores.filter (fun c => decide (c < 512))).flatMap s.snapCore ++
    s.snapClusters ++ (List.range 4).flatMap s.snapDie ++ s.snapRest
  ({ s with latched := all.foldl (fun (acc : Sparse Dword) (e : Nat × Dword) => if e.2 = 0 then acc else Sparse.put acc e.1 e.2) [], latchGT := s.gt }).csrPut
    0x3C0 0 (setFld (setFld (setFld (s.csrGet 0x3C0 0) 63 1 0) 62 1 1) 59 3 src)

/-- A trigger of a source whose enable is a bit of SNAPCTL: it latches only while ARM is 1. -/
def State.snapTrigger (s : State) (src bit : Nat) : State :=
  if fld (s.csrGet 0x3C0 0) 63 1 = 1 ∧ fld (s.csrGet 0x3C0 0) bit 1 = 1 then s.latch src else s

/-- SNAPDATA read: the word, and the word index advanced. -/
def State.snapNext (s : State) : State :=
  s.csrPut 0x3C3 0 (setFld (s.csrGet 0x3C3 0) 0 16 (fld (s.csrGet 0x3C3 0) 0 16 + 1))

end Sys2Proof.Machine
end

