-- ==== Sys2Proof/Machine/Router.lean ====
section
/-! DEFINITION. The fault router: parked records written (13/R324 to R328, 15/R373, R374), the fault policy and default
actions (15/R375 to R377), and the push of task records at their target (13/R322, 12/R308, R319, 21/R428, R431). -/

namespace Sys2Proof.Machine

/-! ## The policy (R375) -/

/-- Word w of a die's policy entry for a class. -/
def State.fpol (s : State) (die cls w : Nat) : Dword := s.csrGet (0x300 + 4 * cls + w) die

/-- Word w of the policy entry for a class that held when a record was written (R375). -/
def State.recPol (s : State) (x cls w : Nat) : Dword :=
  ((Sparse.find s.records x).map (fun r => Sparse.get 0 r.policy (cls * 4 + w))).getD 0

/-- The policy entries that a record of a class takes with it: its own, and PAGE for its fault-buffer entries. -/
def State.polOf (s : State) (die cls : Nat) : Sparse Dword :=
  ([cls, 5].eraseDups.flatMap (fun c => (List.range 4).map (fun w => (c * 4 + w, s.fpol die c w)))).foldl
    (fun acc e => Sparse.put acc e.1 e.2) []

/-- A default action on a record (R377): 2 KILL, 3 RESUME, 4 RETRY, every other code HOLD. It is logged. -/
def State.applyAction (s : State) (x cls a : Nat) : State :=
  let code := if a = 2 ∨ a = 3 ∨ a = 4 then a else 1
  let s1 := s.logFault (x / 4096) 1 cls code 0 (s.handleOf x) (s.recWord x 0x38) (s.recWord x 8)
  match code with
  | 2 => s1.endUnit x .kill
  | 3 => s1.endUnit x .resume
  | 4 => s1.endUnit x .retry
  | _ => { s1 with records := Sparse.update s1.records x (fun r => { r with hold := true }) }

/-- The record of a FAULT task (R320, R376). -/
def State.faultRecord (s : State) (x cls : Nat) (arg1 : Dword) : List Dword :=
  let e := s.recPol x cls 0
  [dw (2 * 2 ^ 60 + fld e 32 12 * 2 ^ 32), s.recWord x 0x68,
   dw (1024 * fld (s.recPol x cls 3) 32 32), 0, 0, dw (s.handleOf x + cls * 2 ^ 40), arg1, s.recWord x 0x40]

/-- The push of a FAULT task to the queue that a queue word names. -/
def State.faultPush (s : State) (x cls : Nat) (arg1 : Dword) (alternate : Bool) (q : Nat) : Push :=
  { by_ := .router (x / 4096) (x % 4096) alternate, words := s.faultRecord x cls arg1, qw := wd q, count := 0,
    failed := false, src := 0, priv := true, die := x / 4096 }

/-- One task that a record is to receive: pushed, or replaced by the policy's action (R376). -/
def State.routeOne (s : State) (x cls : Nat) (arg1 : Dword) : State :=
  if !s.recLive x ∨ s.recStatus x > 3 then s
  else
    let die := x / 4096
    let e := s.recPol x cls 0
    if fld e 60 3 = 0 ∧ fld e 63 1 = 1 ∧ s.depthOfRec (s.handleOf x) ≤ fld (s.csrGet 0x380 die) 4 2 then
      s.post (.taskPush (s.faultPush x cls arg1 false (fld e 0 32)))
    else s.applyAction x cls (if fld e 60 3 = 0 then fld e 57 3 else fld e 60 3)

/-! ## Records written (R45, R328, R373, R374) -/

/-- Whether the unit of an image still stands parked without a record. -/
def State.standing (s : State) (p : ParkImage) : Bool :=
  (s.unitRecord (p.kind, p.unit)).isNone &&
  match p.kind with
  | 1 => decide ((s.wave p.unit).status = .parked)
  | 2 => (s.findMat p.unit).isSome
  | 3 => ((s.segOf (segKey p.unit) (segIx p.unit)).map (·.parked)).getD false
  | 4 => (s.task p.unit).isSome
  | _ => true

/-- The lowest free index of a die's pool, none while PRBASE.V is 0 (log 17). -/
def State.freeIndex (s : State) (die : Nat) : Option Nat :=
  if fld (s.csrGet 0x80 die) 0 1 = 0 then none else Sparse.freeFrom s.records (die * 4096) 4096

/-- Free records of a die's pool. -/
def State.freeRecords (s : State) (die : Nat) : Nat :=
  if fld (s.csrGet 0x80 die) 0 1 = 0 then 0 else 4096 - (s.records.filter (fun e => e.1 / 4096 == die)).length

/-- An image with the words that only its writing settles (R43, R46, R47, R158, R376). -/
def State.settleImage (s : State) (p : ParkImage) : Sparse Dword :=
  let u := (p.kind, p.unit)
  let off := if p.cls = 0 then 0 else fld (s.fpol p.die p.cls 3) 0 32
  let g : Nat → Dword := fun i => Sparse.get 0 p.words i
  let drops := Nat.min (Sparse.get [] s.dropped p.cluster).length 255
  Sparse.put (Sparse.put (Sparse.put (Sparse.put (Sparse.put p.words 0 (setFld (g 0) 0 1 (if s.isDropped u then 1 else 0)))
    8 (if p.cls = 5 ∨ p.cls = 6 ∨ p.cls = 20 then setFld (g 8) 48 8 drops else g 8))
    12 (setFld (g 12) 40 4 (Nat.min (s.waitCount u) 15)))
    13 (dw (earliest [(g 13).toNat, if off = 0 then 0 else s.gt + 1000 * off])))
    17 (dw s.gt)

/-- The record x written: the unit's entries open, and the router acts. -/
def State.writeRecord (s : State) (x : Nat) (p : ParkImage) : State :=
  let u := (p.kind, p.unit)
  let named : FbEntry → Bool := fun e => decide (e.state = .pending) && e.named == u
  let pages := ((s.fbOf p.cluster).filter named).map (fun e => sext57 (e.page * 65536))
  let r : Record := { words := s.settleImage p, kind := p.kind, unit := p.unit, tasks := 0, hold := false,
                      marks := p.marks.foldl (fun m e => Sparse.put m e.1 { origin := e.2.1, addr := e.2.2 }) [],
                      policy := s.polOf p.die p.cls }
  let s1 := { s with records := Sparse.put s.records x r }
  let s2 := if pages = [] then s1 else s1.setFb p.cluster ((s1.fbOf p.cluster).map (fun e =>
    if named e then { e with state := .opened, record := some x } else e))
  let s3 := if p.cls ≠ 0 ∧ fld (s2.csrGet 0x3C0 0) 8 8 = p.cls then s2.snapTrigger 3 2 else s2
  let s4 := if p.cls ≠ 0 ∧ p.cls ≠ 5 then s3.routeOne x p.cls (s3.recWord x 0x38) else s3
  (pages.foldl (fun acc v => acc.routeOne x 5 v) s4).releaseUnit u

/-- An image kept until its die has a free index; the first that finds none, those that units ahead of it will take apart,
since the pool last had one is logged. -/
def State.detach (s : State) (p : ParkImage) : State :=
  let ahead := Sparse.get [] s.detached p.die
  let s1 := { s with detached := Sparse.put s.detached p.die (ahead ++ [p]) }
  if Sparse.get false s.recwait p.die || decide (s.freeRecords p.die > ahead.length) then s1
  else
    { (s1.logFault p.die 8 p.cls 0 0 0 (Sparse.get 0 p.words 7) (Sparse.get 0 p.words 1)) with
        recwait := Sparse.put s.recwait p.die true }

/-- The oldest detached image of a die written, where an index is free (R374). -/
def State.attach (s : State) (die : Nat) : State :=
  match Sparse.get [] s.detached die, s.freeIndex die with
  | p :: rest, some x =>
    let t := { s with detached := Sparse.put s.detached die rest }
    if t.standing p then t.writeRecord x p else t.passUnit (p.kind, p.unit)
  | _, _ => s

/-- A parked unit's record is written, or the unit waits detached for one; those that wait are written in the order of
detection (R374). -/
def execRecordWritten (p : ParkImage) (s : State) : Host.Outcome State Fault Refusal :=
  match Sparse.get [] s.detached p.die with
  | q :: _ => .next ((if q = p then s else s.detach p).attach p.die)
  | [] =>
    if !s.standing p then .next (s.passUnit (p.kind, p.unit))
    else match s.freeIndex p.die with
      | some x => .next (s.writeRecord x p)
      | none => .next (s.detach p)

/-! ## Pushes (R322) -/

def State.setSlot (s : State) (die slot : Nat) (f : EnqSlot → EnqSlot) : State :=
  { s with windows := Sparse.put s.windows (die * 16 + slot) (f (Sparse.get EnqSlot.empty s.windows (die * 16 + slot))) }

/-- The operation with which a wave waits for its push. -/
def State.pushOp (s : State) (id : Nat) : Option (Nat × MemOp) :=
  s.ops.find? (fun e => e.2.wave == id && (match e.2.kind with
    | .record _ _ => true
    | _ => false))

/-- The pusher hears that its push has been accepted. -/
def State.pushed (s : State) (p : Push) : State :=
  match p.by_ with
  | .wave id => (s.pushOp id).elim s (fun o => s.dropOp o.1 id)
  | .copy core slot =>
    (s.copyOf (Copy.key core slot)).elim s (fun c => s.freeCopy (Copy.key core slot) { c with segs := [] })
  | .window die slot => s.setSlot die slot (fun x => { x with state := 2, code := 0 })
  | _ => s

/-- A push that will never be accepted: with MISALIGN, REASON ENQ and a CODE, or with LINKTO (R319, R322, R376). -/
def State.unpushed (s : State) (p : Push) (cls : Nat) (finfo : Dword) (code : Nat) : State :=
  match p.by_ with
  | .wave id =>
    (match s.pushOp id with
     | none => s
     | some (n, o) =>
       let w := s.wave id
       let s1 := s.dropOp n id
       if w.retired then s1
       else s1.parkWave id { cls := cls, faddr := p.src, finfo := finfo, pre := false, pc := o.pc, iword := o.iword,
                             npc := w.pc, ahead := 0, unf := 0, gmode := o.gmode, vas := [], srcs := [], status := 0 })
  | .copy core slot =>
    (match s.copyOf (Copy.key core slot) with
     | none => s
     | some c =>
       let k := c.nsegs - 1
       (s.modSeg (Copy.key core slot) k (fun g => { g with push := 1 })).setSector (Copy.key core slot) k 0
         (.fail cls finfo p.src none))
  | .window die slot => s.setSlot die slot (fun x => { x with state := 3, code := code })
  | .router die index alternate =>
    let x := die * 4096 + index
    let c := fld (p.words.getD 5 0) 40 8
    if !s.recLive x ∨ s.recStatus x > 3 then s
    else if !alternate then
      s.post (.taskPush (s.faultPush x c (p.words.getD 6 0) true (fld (s.recPol x c 1) 32 32)))
    else
      (s.logFault die 6 c 0 0 (s.handleOf x) (s.recWord x 0x38) (s.recWord x 8)).applyAction x c (fld (s.recPol x c 0) 57 3)
  | _ => s

/-- Whether a push has lost what it was for: a record that has ended, or a wave that waits for it no more. -/
def State.stale (s : State) (p : Push) : Bool :=
  match p.by_ with
  | .router die i _ => !s.recLive (die * 4096 + i) || decide (s.recStatus (die * 4096 + i) > 3)
  | .wave id => (s.pushOp id).isNone
  | _ => false

/-- A push at its target. A FAULT task whose record has ended meanwhile is given up (R379). -/
def execTaskPush (p : Push) (s : State) : Host.Outcome State Fault Refusal :=
  if s.stale p then .next s
  else match s.judge p with
    | .accept die => .next ((s.acceptPush p die).pushed p)
    | .carry => .next (s.sendLink p.die (s.qwPkg p.qw) (.push p))
    | .wait => .next { s with pushes := s.pushes ++ [p] }
    | .lost => .next (s.unpushed p 12 (linkInfo 2 (s.qwPkg p.qw) 1) 5)
    | .refuse c => .next (s.unpushed p 7 (enqInfo c) c)

end Sys2Proof.Machine
end

