-- ==== Sys2Proof/Machine/Loader.lean ====
section
/-! DEFINITION. Code objects: the object file (16/R397 to R400), relocation (R401, R402), load records and kernel
indirection entries (R403, R404), the load with its checks and the verification cache (R405 to R407). -/

namespace Sys2Proof.Machine

/-! ## Memory as the security controller reads and writes it (log 27, 32) -/

def State.devNat (s : State) (pa n : Nat) : Nat :=
  ofBytes ((List.range n).map (fun i => s.newest (dieCore 0) ((pa + i) % 2 ^ 52)))

/-- Bytes written globally visible by the security controller. -/
def State.secWrite (s : State) (pa : Nat) (bs : List Byte) : State := s.devWrite (dieCore 0) (pa % 2 ^ 52) bs

/-! ## Load records (R403) -/

structure LoadRec where
  objpa  : Nat
  osize  : Nat
  gen    : Nat
  imgpa  : Nat
  imgva  : Nat
  imgmax : Nat
  nimp   : Nat
  imppa  : Nat
  kmpa   : Nat
  loaded : Bool
  deriving DecidableEq, Repr

def State.loadRec (s : State) (lr : Nat) : LoadRec :=
  { objpa := s.devNat lr 8, osize := s.devNat (lr + 12) 4, gen := s.devNat (lr + 10) 2, imgpa := s.devNat (lr + 16) 8,
    imgva := s.devNat (lr + 24) 8, imgmax := s.devNat (lr + 36) 4, nimp := s.devNat (lr + 32) 4,
    imppa := s.devNat (lr + 40) 8, kmpa := s.devNat (lr + 48) 8, loaded := s.devNat (lr + 63) 1 == 0 }

/-! ## The object file (R397, R398) -/

/-- A field of the file. -/
def State.obj (s : State) (r : LoadRec) (off n : Nat) : Nat := s.devNat (r.objpa + off) n

/-- FOFF (0), SIZE (1), ADDR (2) and the reserved word (3) of section `i`. -/
def State.sect (s : State) (r : LoadRec) (i j : Nat) : Nat := s.obj r (0x20 + 16 * i + 4 * j) 4

/-- Whether two of some (start, size) spans overlap; an empty one overlaps nothing. -/
def overlaps : List (Nat × Nat) → Bool
  | [] => false
  | x :: r => r.any (fun y => decide (x.2 ≠ 0) && decide (y.2 ≠ 0) && decide (x.1 < y.1 + y.2) && decide (y.1 < x.1 + x.2)) ||
      overlaps r

/-- HEADER: the header and the section table keep R397 and R398. -/
def State.headerGood (s : State) (r : LoadRec) : Bool :=
  let z := s.sect r
  decide (r.osize ≥ 0x90) && s.obj r 0 4 == 0x4A4F594E && s.obj r 4 4 / 2 ^ 17 == 0 && s.obj r 12 4 == 0 &&
  s.obj r 24 8 == 0 && s.obj r 16 8 % 65536 == 0 &&
  (List.range 7).all (fun i => z i 3 == 0 && decide (z i 0 + z i 1 ≤ r.osize)) &&
  z 0 2 == 0 && z 0 1 != 0 && z 0 1 % 4 == 0 && z 1 2 % 16 == 0 && z 1 1 % 16 == 0 && z 2 2 % 8 == 0 && z 2 1 % 8 == 0 &&
  decide (z 2 1 / 8 ≤ 4096) && z 3 1 % 16 == 0 && z 5 1 != 0 && z 5 1 % 64 == 0 && z 6 1 == 2420 &&
  z 6 0 + z 6 1 == r.osize && (List.range 4).all (fun i => z (i + 3) 2 == 0) &&
  !overlaps ((List.range 3).map (fun i => (z i 2, z i 1))) && !overlaps ((List.range 7).map (fun i => (z i 0, z i 1)))

/-- ISAVER (R219). -/
def State.versionGood (s : State) (r : LoadRec) : Bool := s.obj r 5 1 == 1 && s.obj r 4 1 == 0

/-- SIGNATURE (R398, R434): some key held for a slot that is not revoked verifies .sig. -/
def State.signatureGood (s : State) (r : LoadRec) : Bool :=
  let bytes : Nat → Nat → List Byte := fun off n =>
    (List.range n).map (fun i => s.newest (dieCore 0) ((r.objpa + off + i) % 2 ^ 52))
  s.keys.any (fun (e : Nat × List Byte) => !s.revoked.contains e.1 &&
    Config.verifies e.2 (Config.sha3 (bytes 0 (s.sect r 6 0))) (bytes (s.sect r 6 0) 2420))

/-- How many kernel descriptors the object has. -/
def State.kernels (s : State) (r : LoadRec) : Nat := s.sect r 5 1 / 64

/-- A field of descriptor `k` (R399). -/
def State.kd (s : State) (r : LoadRec) (k off n : Nat) : Nat := s.obj r (s.sect r 5 0 + 64 * k + off) n

/-- KDESC: whether descriptor `k` keeps R399. -/
def State.descGood (s : State) (r : LoadRec) (k : Nat) : Bool :=
  let w0 := s.kd r k 0 8
  let roles := s.kd r k 8 8
  let n := bits w0 19 5
  bits w0 3 15 == 0 && bits w0 32 32 % 4 == 0 && decide (bits w0 32 32 < s.sect r 0 1) && bits w0 24 8 % 8 == 0 &&
  decide (8 ≤ bits w0 24 8) && decide (bits w0 24 8 ≤ 64) && roles / 2 ^ (2 * Nat.min n 16) == 0 &&
  (List.range (Nat.min n 16)).all (fun i => bits roles (2 * i) 2 != 3) && s.kd r k 24 8 % 2 ^ 56 == 0

/-! ## Symbols (R400) -/

/-- NSYM; an empty .sym holds no symbol. -/
def State.nsym (s : State) (r : LoadRec) : Nat := if s.sect r 4 1 = 0 then 0 else s.obj r (s.sect r 4 0) 8

def State.symValue (s : State) (r : LoadRec) (j : Nat) : Nat := s.obj r (s.sect r 4 0 + 8 + 16 * j) 8
def State.symWord (s : State) (r : LoadRec) (j : Nat) : Nat := s.obj r (s.sect r 4 0 + 16 + 16 * j) 8
def State.symKind (s : State) (r : LoadRec) (j : Nat) : Nat := bits (s.symWord r j) 56 8

/-- Whether entry `j` passes; its NAME is looked at where the string area begins within SIZE (log 33). -/
def State.symGood (s : State) (r : LoadRec) (j : Nat) : Bool :=
  let size := s.sect r 4 1
  let area := 8 + 16 * s.nsym r
  let nm := area + bits (s.symWord r j) 0 32
  decide (8 + 16 * (j + 1) ≤ size) && decide (s.symKind r j ≤ 3) && bits (s.symWord r j) 32 24 == 0 &&
  (decide (area > size) || (decide (nm < size) &&
    (List.range (size - nm)).any (fun i => s.obj r (s.sect r 4 0 + nm + i) 1 == 0))) &&
  (s.symKind r j != 3 || decide (s.symValue r j < s.kernels r))

/-- How many entries of .sym to look at: one that does not fit ends the check. -/
def State.symLimit (s : State) (r : LoadRec) : Nat := Nat.min (s.nsym r) (s.sect r 4 1 / 16 + 1)

/-- The EXTERN entries, in order. -/
def State.externs (s : State) (r : LoadRec) : List Nat := (List.range (s.symLimit r)).filter (fun j => s.symKind r j == 2)

/-- SYMBOL of step 3: the index of the first failure. -/
def State.symbolBad (s : State) (r : LoadRec) : Option Nat :=
  if 0 < s.sect r 4 1 ∧ s.sect r 4 1 < 8 then some 0
  else match (List.range (s.symLimit r)).find? (fun j => !s.symGood r j) with
    | some j => some j
    | none =>
      let ex := s.externs r
      if r.nimp < ex.length then ex[r.nimp]?
      else if r.nimp > ex.length then some (s.nsym r)
      else none

/-! ## The image and its relocations (R401, R402) -/

def State.imageSize (s : State) (r : LoadRec) : Nat :=
  Nat.max (s.sect r 0 2 + s.sect r 0 1) (Nat.max (s.sect r 1 2 + s.sect r 1 1) (s.sect r 2 2 + s.sect r 2 1))

/-- A byte of the image: a relocated field, a loaded section, or a gap. -/
def State.imageByte (s : State) (r : LoadRec) (fields : Sparse Byte) (i : Nat) : Byte :=
  match Sparse.find fields i with
  | some b => b
  | none =>
    match (List.range 3).find? (fun j => decide (s.sect r j 2 ≤ i) && decide (i < s.sect r j 2 + s.sect r j 1)) with
    | some j => BitVec.ofNat 8 (s.obj r (s.sect r j 0 + (i - s.sect r j 2)) 1)
    | none => 0

/-- Fields put into an image. -/
def putField (fields : Sparse Byte) (off : Nat) (bs : List Byte) : Sparse Byte :=
  bs.zipIdx.foldl (fun acc e => Sparse.put acc (off + e.2) e.1) fields

/-- Whether the instruction at a field holds the field of a relocation TYPE (R402). -/
def holdsField (t : Nat) (w : Word) : Bool :=
  match decode w with
  | .error _ => false
  | .ok i => (match i, t with
    | .movh .., 2 => true
    | .addi .., 3 => true
    | .cmpi .., 3 => true
    | .movi .., 3 => true
    | .ldc .., 3 => true
    | .br .., 4 => true
    | .call .., 4 => true
    | .callg .., 5 => true
    | .andi .., 6 => true
    | .ori .., 6 => true
    | .xori .., 6 => true
    | .callg .., 6 => true
    | .bkpt .., 6 => true
    | .trap .., 6 => true
    | _, _ => false)

/-- S of a relocation, or none where its symbol is wrong (R402). -/
def State.relocSym (s : State) (r : LoadRec) (sym t : Nat) : Option Nat :=
  if sym = 0xFFFFFF then (if t = 6 then none else some r.imgva)
  else if sym ≥ s.nsym r then none
  else if (s.symKind r sym == 3) != (t == 6) then none
  else if s.symKind r sym = 2 then some (s.devNat (r.imppa + 8 * ((s.externs r).idxOf sym)) 8)
  else if s.symKind r sym = 3 then some (s.devNat (r.kmpa + 2 * s.symValue r sym) 2)
  else some (r.imgva + s.symValue r sym)

/-- The value that a relocation of an instruction writes, with its width, where it fits (R401). -/
def State.relocField (s : State) (r : LoadRec) (t off : Nat) (v a : Int) : Option (Nat × Nat) :=
  let d := toSigned 64 (ofInt 64 (v - ((r.imgva + off : Nat) : Int)))
  if t = 2 then
    (if -2147483648 ≤ v ∧ v ≤ 4294967295 then some (ofInt 20 ((v + 0x800) / 4096), 20) else none)
  else if t = 3 then some (ofInt 12 v, 12)
  else if t = 4 then
    (if d % 4 = 0 ∧ -524288 ≤ d / 4 ∧ d / 4 ≤ 524287 then some (ofInt 20 (d / 4), 20) else none)
  else if t = 5 then
    (if 0 ≤ a ∧ a < ((s.sect r 2 1 / 8 : Nat) : Int) then some (ofInt 12 a, 12) else none)
  else if t = 6 then (if 0 ≤ v ∧ v ≤ 4095 then some (ofInt 12 v, 12) else none)
  else none

/-- One record applied: the fields with its own, or the reason of the rejection. -/
def State.relocate (s : State) (r : LoadRec) (n : Nat) (fields : Sparse Byte) : Except Nat (Sparse Byte) :=
  let w := s.obj r (s.sect r 3 0 + 16 * n) 8
  let add := s.obj r (s.sect r 3 0 + 16 * n + 8) 8
  let t := bits w 32 8
  let off := bits w 0 32
  match s.relocSym r (bits w 40 24) t with
  | none => .error 6
  | some sv =>
    let v := toSigned 64 (sv + add)
    let within : Nat → Bool := fun j => decide (s.sect r j 2 ≤ off) && decide (off + 8 ≤ s.sect r j 2 + s.sect r j 1)
    if t = 1 then
      (if off % 8 = 0 ∧ (within 1 || within 2) then .ok (putField fields off (toBytes 8 (ofInt 64 v))) else .error 5)
    else
      let word := wd (ofBytes ((List.range 4).map (fun i => s.imageByte r fields (off + i))))
      if off % 4 ≠ 0 ∨ off + 4 > s.sect r 0 1 ∨ !holdsField t word then .error 5
      else match s.relocField r t off v (toSigned 64 add) with
        | some (f, width) => .ok (putField fields off (toBytes 4 (word.toNat / 2 ^ width * 2 ^ width + f)))
        | none => .error 5

/-- The records from `n` on applied in file order. -/
def State.relocateAll (s : State) (r : LoadRec) : Nat → Nat → Sparse Byte → Except (Nat × Nat) (Sparse Byte)
  | 0, _, fields => .ok fields
  | m + 1, n, fields => match s.relocate r n fields with
    | .error c => .error (c, n)
    | .ok f => s.relocateAll r m (n + 1) f

/-! ## load(lr) (R405, R406) -/

/-- Steps 1 to 4: the image, or a rejection with its INDEX. -/
def State.buildImage (s : State) (r : LoadRec) : Except (Nat × Nat) (List Byte) :=
  if !s.headerGood r then .error (1, 0)
  else if !s.versionGood r then .error (2, 0)
  else if !s.signatureGood r then .error (3, 0)
  else match (List.range (s.kernels r)).find? (fun k => !s.descGood r k) with
    | some k => .error (8, k)
    | none => match s.symbolBad r with
      | some j => .error (6, j)
      | none =>
        if s.imageSize r > r.imgmax then .error (7, 0)
        else match s.relocateAll r (s.sect r 3 1 / 16) 0 [] with
          | .error e => .error e
          | .ok fields => .ok ((List.range (s.imageSize r)).map (s.imageByte r fields))

/-- LREASON and LINDEX written. -/
def State.writeOutcome (s : State) (lr reason index : Nat) : State :=
  s.secWrite (lr + 0x38) (toBytes 8 (reason * 2 ^ 56 + index % 2 ^ 32))

/-- The first image offset at which memory differs. -/
def State.differs (s : State) (r : LoadRec) (image : List Byte) : Option Nat :=
  (List.range image.length).find? (fun i => s.newest (dieCore 0) ((r.imgpa + i) % 2 ^ 52) != image.getD i 0)

/-- load(lr): the state after it, and the rejection or the new cache entry. -/
def State.load (s : State) (lr : Nat) : State × Except (Nat × Nat) VEntry :=
  let r := s.loadRec lr
  let entry : VEntry := { lr := lr, gen := r.gen, svn := s.obj r 8 4, nk := s.kernels r }
  match s.buildImage r with
  | .error e => (s.writeOutcome lr e.1 e.2, .error e)
  | .ok image =>
    if r.loaded then
      (match s.differs r image with
       | some i => (s.writeOutcome lr 10 i, .error (10, i))
       | none => (s.writeOutcome lr 0 0, .ok entry))
    else ((s.secWrite r.imgpa image).writeOutcome lr 0 0, .ok entry)

/-- Whether a load touches HBM that nothing serves yet: its record, or something that it names (R431). -/
def State.loadHeld (s : State) (lr : Nat) : Bool :=
  let r := s.loadRec lr
  let held : Nat → Nat → Bool := fun a n =>
    (List.range ((a % 4096 + n + 4095) / 4096)).any (fun i => s.unserved ((a / 4096 + i) * 4096 % 2 ^ 52))
  held lr 64 || held r.objpa r.osize || held r.imgpa r.imgmax || held r.imppa (8 * r.nimp) ||
    held r.kmpa (2 * s.kernels r)

/-! ## The verification cache and the entries of a context (R404, R405) -/

/-- The indirection entry of a context. -/
def State.kixEntry (s : State) (ctx ix : Nat) : Dword := Sparse.get 0 s.kix (ctx * 4096 + ix)

/-- FSVN. -/
def State.fsvn (s : State) : Nat := fld (s.csrGet 0x420 0) 0 7

/-- The cache entry of a load record at its generation. -/
def State.cached (s : State) (lr : Nat) : Option VEntry :=
  s.vcache.find? (fun e => e.lr == lr && e.gen == s.devNat (lr + 10) 2)

/-- An entry put in front; the least recently used falls out. -/
def State.useEntry (s : State) (e : VEntry) : State :=
  { s with vcache := (e :: s.vcache.filter (fun x => !(x.lr == e.lr && x.gen == e.gen))).take 256 }

/-- Role code of R399. -/
def roleOf (n : Nat) : Role := if n = 0 then .copy else if n = 1 then .matrix else .vector

/-- What descriptor `k` and the object give a launch (R399, R403). -/
def State.kernelAt (s : State) (lr k : Nat) : Kernel :=
  let r := s.loadRec lr
  let w0 := s.kd r k 0 8
  let n := bits w0 19 5
  { entry := dw (r.imgva + bits w0 32 32), wsz := bits w0 24 8, nwave := n, w64 := bits w0 18 1 == 1,
    precise := bits w0 2 1 == 1, prefault := bits w0 1 1 == 1, indigo := bits w0 0 1 == 1,
    roles := (List.range n).map (fun i => roleOf (bits (s.kd r k 8 4) (2 * i) 2)),
    l := s.kd r k 20 4, s := s.kd r k 16 4,
    rings := ((List.range 8).filter (fun i => bits (s.kd r k 24 8) (56 + i) 1 == 1)).map (fun i =>
      let x := s.kd r k (0x20 + 4 * i) 4
      (i, bits x 28 4, 16 * bits x 16 12, 16 * bits x 0 16)),
    constPA := r.imgpa + s.sect r 1 2, constSz := s.sect r 1 1, gotPA := r.imgpa + s.sect r 2 2,
    gotSlots := s.sect r 2 1 / 8 }

end Sys2Proof.Machine
end

