-- ==== Sys2Proof/Machine/Dealer.lean ====
section
/-! DEFINITION. The task engine's dispatch (14/R357, R359, R378, R440, 15/R380 to R382), the launch checks (14/R347,
R348), placement (14/R349 to R351, 07/R150, R151, R159), retirement and completion (14/R352, 13/R336). -/

namespace Sys2Proof.Machine

/-! ## The launch (R347, R378, R440) -/

/-- A policy word as a dispatch reads it; zero for a class without an entry. -/
def State.policy (s : State) (die cls w : Nat) : Dword := if 1 ≤ cls ∧ cls ≤ 22 then s.fpol die cls w else 0

/-- A task with its launch parameters. -/
def State.launchOf (s : State) (k : Task) : Task :=
  let a := k.word 5
  if k.kind = 1 then
    { k with ctx := fld a 40 8, bbase := k.word 6, nback := fld a 24 16, nwg := fld a 0 24, gsz := fld a 50 2 + 1,
             regs := fld a 52 12 }
  else if k.kind = 2 then
    let c := fld a 40 8
    { k with ctx := fld (s.policy k.die c 0) 44 8, bbase := s.policy k.die c 2, nback := fld (s.policy k.die c 1) 16 16,
             boost := fld (s.policy k.die c 0) 52 4, nwg := 1, gsz := 1 }
  else
    { k with ctx := fld (s.csrGet 0x204 k.die) 44 8, bbase := s.csrGet 0x205 k.die,
             nback := Nat.max 1 (fld (s.csrGet 0x204 k.die) 16 16), boost := fld (s.csrGet 0x204 k.die) 52 4, nwg := 1,
             gsz := 1 }

/-- Whether a ring keeps R216 and lies within offsets S to L − 1; a slot holds at least 16 bytes (log 34). -/
def ringGood (k : Kernel) (r : Nat × Nat × Nat × Nat) : Bool :=
  decide (2 ≤ r.2.1) && decide (r.2.1 ≤ 8) && r.2.2.1 != 0 && decide (k.s ≤ r.2.2.2) &&
  decide (r.2.2.2 + r.2.1 * r.2.2.1 ≤ k.l)

/-- The REASON of the first launch check that fails, KIX apart (R348). -/
def State.launchBad (s : State) (t : Task) (k : Kernel) : Option Nat :=
  if k.l % 4096 ≠ 0 ∨ k.s % 4096 ≠ 0 ∨ k.s > k.l ∨ k.l + k.s > 1048576 then some 2
  else if k.rings.any (fun r => !ringGood k r) then some 3
  else if k.nwave = 0 ∨ k.nwave > 16 then some 4
  else if t.regs = 0 ∨ t.nback = 0 ∨ t.nwg = 0 ∨ (t.kind = 1 ∧ fld (t.word 5) 48 2 ≠ 0) ∨ fld t.bbase 0 16 ≠ 0 then some 5
  else if t.nback < k.nwave * t.gsz then some 6
  else if fld (s.csrGet 0x10 t.ctx) 21 31 = 0 then some 7
  else none

/-- The lowest launch tag that no live task holds. -/
def State.freeTag (s : State) : Nat :=
  let used := (s.tasks.filter (fun (e : Nat × Task) => !(decide (e.2.phase = .waiting ∨ e.2.phase = .queued ∨ e.2.phase = .kwait)))).map (fun (e : Nat × Task) => e.2.ltag)
  ((List.range 65536).find? (fun n => !used.contains n)).getD 0

/-! ## Placed waves (R346, R350, R154) -/

/-- Waves that a core holds. -/
def State.residents (s : State) (core : Nat) : List Nat := (s.waves.filter (fun (e : Nat × Wave) => coreOfWave e.1 == core)).map (·.1)

/-- The slot for the next wave: of those with a free number, the one with the fewest waves, then the lowest. -/
def slotPick (taken : List Nat) (core cap : Nat) : Option Nat :=
  let cnt : Nat → Nat := fun sl => (taken.filter (fun id => id / 12 == core * 4 + sl)).length
  let num : Nat → Option Nat := fun sl => (List.range cap).find? (fun r => !taken.contains (core * 48 + sl * 12 + r))
  let open_ := (List.range 4).filter (fun sl => (num sl).isSome)
  match open_.find? (fun sl => open_.all (fun x => decide (cnt sl ≤ cnt x))) with
  | some sl => (num sl).map (fun r => core * 48 + sl * 12 + r)
  | none => none

/-- Places for `n` waves, in order of WID. -/
def placesFor (core cap : Nat) : Nat → List Nat → Option (List Nat)
  | 0, _ => some []
  | n + 1, taken => match slotPick taken core cap with
    | none => none
    | some id => (placesFor core cap n (id :: taken)).map (id :: ·)

/-- A wave at its start. -/
def startWave_ (t : Nat) (k : Task) (x : Kernel) (g wid seg : Nat) (segG : List Nat) (bb : Dword) (kitty : Bool) : Wave :=
  let w := if x.w64 then 64 else 32
  let b := seg * 4 * w
  { Wave.empty with
    status := .ready, role := x.roles.getD wid .vector, w64 := x.w64, sys := k.isSys, kitty := kitty, ctx := k.ctx,
    task := t, wg := g, wid := wid, tid := (List.range w).map (fun l => wid * w + l), pc := x.entry,
    exm := dw (2 ^ w - 1), tm := dw (2 ^ w - 1), sz := x.wsz, hi := x.wsz, seg := seg,
    segGran := (segG.drop (wid * b / 4096)).take (((wid + 1) * b - 1) / 4096 + 1 - wid * b / 4096),
    segBase := wid * b % 4096, bb := bb,
    regs := (List.range x.wsz).map (fun j => (j, List.replicate w 0)), level := k.level - k.boost }

/-! ## Resources (R349, R159) -/

/-- Bytes of the register stacks of a workgroup, in granules. -/
def stackGrans (x : Kernel) (seg : Nat) : Nat := (x.nwave * seg * 4 * (if x.w64 then 64 else 32) + 4095) / 4096

/-- SEG that a launch asks for. -/
def fullSeg (k : Task) (x : Kernel) : Nat :=
  Nat.min (Nat.max ((k.regs + 7) / 8 * 8) 64) (if x.w64 then 2048 else 4096)

/-- The greatest multiple of 8 from `8 n` down to 64 whose stacks fit in `avail` granules. -/
def fitSeg (x : Kernel) (avail : Nat) : Nat → Option Nat
  | 0 => none
  | n + 1 => if n + 1 < 8 then none else if stackGrans x (8 * (n + 1)) ≤ avail then some (8 * (n + 1)) else fitSeg x avail n

/-- Granules of a core that a workgroup may take; `moved` leaves guest images out of account (R367). -/
def State.freeGrans (s : State) (core : Nat) (moved : Bool) : List Nat :=
  let mine := (s.wgs.filter (fun (e : Nat × Workgroup) => e.2.core == core)).map (fun (e : Nat × Workgroup) => e.2)
  ((List.range (s.reservedFrom core / 4096)).map (4096 * ·)).filter (fun g =>
    !(mine.any (fun x => x.segs.contains g || (decide (x.spb ≤ g) && decide (g < x.spb + x.l + x.s)))) &&
    (moved || !(Sparse.get [] s.guests core).contains g))

/-- The lowest run of `n` granules. -/
def lowestRun (free : List Nat) (n : Nat) : Option Nat :=
  if n = 0 then some (free.headD 0) else free.find? (fun g => (List.range n).all (fun i => free.contains (g + 4096 * i)))

/-- What a core gives a workgroup. -/
structure Spot where
  core : Nat
  spb  : Nat
  seg  : Nat
  segs : List Nat
  ids  : List Nat
  deriving DecidableEq, Repr

/-- The resource check of a core, backing areas apart (R349). -/
def State.spot (s : State) (k : Task) (x : Kernel) (core : Nat) (moved : Bool) : Option Spot :=
  let mine := (s.wgs.filter (fun (e : Nat × Workgroup) => e.2.core == core)).map (fun (e : Nat × Workgroup) => e.2)
  let free := s.freeGrans core moved
  let nsp := (x.l + x.s) / 4096
  if !s.coreIn core || s.underScan core then none
  else if (mine.map (fun g => g.rings.length)).sum + x.rings.length > 32 then none
  else if x.roles.contains .matrix && mine.any (fun g => g.tiles) then none
  else match lowestRun free nsp, placesFor core (12 - (s.kittyOn core).length) x.nwave (s.residents core) with
    | some spb, some ids =>
      let rest := free.filter (fun g => !(decide (spb ≤ g) && decide (g < spb + x.l + x.s)))
      if rest.length < 32 then none
      else (fitSeg x (rest.length - 32) (fullSeg k x / 8)).map (fun seg =>
        { core := core, spb := spb, seg := seg, segs := rest.take (stackGrans x seg), ids := ids })
    | _, _ => none

/-- Whether two tasks share backing areas (R347, R378, R440). -/
def shareAreas (a b : Nat × Task) : Bool :=
  if a.2.kind = 1 ∨ b.2.kind = 1 then a.1 == b.1
  else a.2.die == b.2.die && a.2.kind == b.2.kind && (a.2.kind == 3 || fld (a.2.word 5) 40 8 == fld (b.2.word 5) 40 8)

/-- Backing areas that live waves hold of those a task takes from. -/
def State.areasHeld (s : State) (t : Nat) (k : Task) : List Nat :=
  s.waves.filterMap (fun (e : Nat × Wave) =>
    if e.2.kitty then none
    else match s.task e.2.task, s.wg e.2.wg with
      | some k2, some g => if shareAreas (t, k) (e.2.task, k2) then g.areas[e.2.wid]? else none
      | _, _ => none)

/-- The lowest `n` areas that are free. -/
def State.areasFor (s : State) (t : Nat) (k : Task) (n : Nat) : Option (List Nat) :=
  let held := s.areasHeld t k
  let free := ((List.range (Nat.min k.nback (held.length + n))).filter (fun a => !held.contains a)).take n
  if free.length = n then some free else none

/-! ## Placement (R351) -/

/-- A workgroup set up on a core and its waves started. -/
def State.startGroup (s : State) (t : Nat) (k : Task) (x : Kernel) (p : Spot) (gang ggt wgid : Nat) (areas : List Nat)
    (kitty : Option Nat) (bbs : List Dword) : State :=
  let g := s.nextId
  let used := (s.wgs.filter (fun (e : Nat × Workgroup) => e.2.core == p.core)).map (fun (e : Nat × Workgroup) => e.2.wgt)
  let w : Workgroup :=
    { task := t, core := p.core, gang := gang, wgid := wgid, gangIx := wgid % k.gsz,
      wgt := ((List.range 256).find? (fun n => !used.contains n)).getD 0, ggt := ggt, waves := p.ids, spb := p.spb,
      l := x.l, s := x.s, cur := false, bars := List.replicate 8 { arrived := 0, phase := false }, departed := 0,
      ssarr := 0,
      rings := x.rings.map (fun r => (r.1, { ns := r.2.1, sb := r.2.2.1, off := r.2.2.2, pp := 0, cp := 0, slots := List.replicate r.2.1 .free, waitA := [], waitW := [] })),
      reord := [], tiles := x.roles.contains .matrix, kittyIx := kitty, areas := areas, segs := p.segs }
  let s1 := { s with nextId := g + 1, wgs := Sparse.put s.wgs g w }
  let z := winBase p.core + 0x180000
  let s2 := if w.tiles then
      { s1 with mem := s1.mem.filter (fun e => !(decide (z ≤ e.1) && decide (e.1 < z + 0x40000))),
                poison := s1.poison.filter (fun e => !(decide (z ≤ e.1) && decide (e.1 < z + 0x40000))) }
    else s1
  p.ids.zipIdx.foldl (fun (acc : State) (e : Nat × Nat) =>
    acc.setWave e.1 (startWave_ t k x g e.2 p.seg p.segs (bbs.getD e.2 0) kitty.isSome)) s2

/-- The gang tag for a gang on a cluster. -/
def State.freeGgt (s : State) (cl : Nat) : Nat :=
  let used := (s.wgs.filter (fun (e : Nat × Workgroup) => clusterOfCore e.2.core == cl)).map (fun (e : Nat × Workgroup) => e.2.ggt)
  ((List.range 256).find? (fun n => !used.contains n)).getD 0

/-- Spots on all of some cores. -/
def State.spots (s : State) (k : Task) (x : Kernel) (moved : Bool) : List Nat → Option (List Spot)
  | [] => some []
  | c :: r => match s.spot k x c moved, s.spots k x moved r with
    | some p, some ps => some (p :: ps)
    | _, _ => none

/-- The next workgroups of a launch: their spots, with the pointer after them. -/
def State.chooseSpots (s : State) (k : Task) (x : Kernel) (moved : Bool) : Option (List Spot × Nat) :=
  let ptr := Sparse.get 0 s.pointer k.die
  let n := Nat.min k.gsz (k.nwg - k.nextWg)
  if k.gsz = 1 then
    (List.range 128).findSome? (fun j =>
      let c := (ptr + j) % 128
      (s.spots k x moved [128 * k.die + c]).map (fun ps => (ps, (c + 1) % 128)))
  else
    (List.range 32).findSome? (fun j =>
      let cl := (ptr / 4 + j) % 32
      (s.spots k x moved ((List.range n).map (fun i => 128 * k.die + 4 * cl + i))).map (fun ps => (ps, 4 * ((cl + 1) % 32))))

/-- A gang placed. -/
def State.placeGang (s : State) (t : Nat) (k : Task) (x : Kernel) (ps : List Spot) (ptr : Nat) (areas : List Nat) : State :=
  let gang := s.nextId
  let ggt := s.freeGgt (clusterOfCore ((ps.head?.map (fun p => p.core)).getD 0))
  let s1 := ps.zipIdx.foldl (fun (acc : State) (e : Spot × Nat) =>
    let mine := (areas.drop (e.2 * x.nwave)).take x.nwave
    acc.startGroup t k x e.1 gang ggt (k.nextWg + e.2) mine none (mine.map (fun a => k.bbase + dw (0x90000 * a)))) { s with nextId := gang + 1 }
  let done := decide (k.nextWg + ps.length ≥ k.nwg)
  let s2 := s1.modTask t (fun k => { k with nextWg := k.nextWg + ps.length, live := k.live + ps.length,
                                            phase := if done then .running else .placing })
  { s2 with pointer := Sparse.put s2.pointer k.die ptr,
            dealer := if done then Sparse.put s2.dealer k.die ((Sparse.get [] s2.dealer k.die).filter (· ≠ t)) else s2.dealer }

/-- Whether nothing of a core's cache is left, in it or on its way to the homes. -/
def State.emptied (s : State) (core : Nat) : Bool :=
  let out : Instr → Bool := fun i => match i with
    | .ckin r => r.core == core
    | .wback r => r.core == core
    | .ack r => r.core == core && (match r.who with
      | .cache _ => true
      | _ => false)
    | _ => false
  decide (s.cacheOf core = []) && !s.agenda.any out &&
    !s.slices.any (fun (e : Nat × Slice) => e.2.wait.any out || e.2.lines.any (fun l => l.queue.any out ||
      l.held.any (fun h => h.hreq.who == .cache core)))

/-- Before local store of some cores is granted their caches are emptied (R151): how that goes on, none where it has only
to be waited for. -/
def State.vacate (s : State) (cores : List Nat) : Option State :=
  let t := cores.foldl (fun (acc : State) c => (acc.cacheOf c).foldl (fun (a : State) k => a.giveBack c k) acc) s
  if t.caches = s.caches ∧ cores.all s.vacating.contains then none
  else some { t with vacating := (t.vacating ++ cores).eraseDups }

/-- A grant on a die: its cores take copies again. -/
def State.granted (s : State) (die : Nat) : State := { s with vacating := s.vacating.filter (fun c => dieOfCore c != die) }

/-- The placement of a launch that is possible now, or how the caches of its cores are emptied for it; where only guest images stand in its way, the cores on which they do. -/
def State.tryLaunch (s : State) (t : Nat) : Option (State × List Nat) :=
  match s.task t with
  | none => none
  | some k => match k.kernel with
    | none => none
    | some x =>
      if k.stop || s.prectl k.die k.ctx then none
      else match s.areasFor t k (x.nwave * Nat.min k.gsz (k.nwg - k.nextWg)) with
        | none => none
        | some areas => match s.chooseSpots k x false with
          | some (ps, ptr) =>
            let cores := ps.map (fun p => p.core)
            if cores.all s.emptied then some ((s.placeGang t k x ps ptr areas).granted k.die, [])
            else (s.vacate cores).map (fun u => (u, []))
          | none => (s.chooseSpots k x true).map (fun r => (s, r.1.map (fun p => p.core)))

/-! ## The kitty (R381, R382) -/

/-- The lowest FREE context of a die. -/
def State.freeKitty (s : State) (die : Nat) : Option Nat :=
  (List.range (fld (s.csrGet 0x380 die) 8 8)).find? (fun i => decide (Sparse.get KState.free s.kitty (die * 64 + i) = .free))

/-- Whether a kernel fits in a kitty context. -/
def State.kittyFits (s : State) (die : Nat) (x : Kernel) : Bool :=
  decide (x.nwave ≤ 4) && !x.roles.contains .matrix && decide (x.l + x.s + 4096 * stackGrans x 64 ≤ s.kittyBytes die)

/-- A task that will not run: the record that it names takes the overflow action, with an entry KFIT. -/
def State.kittyMisfit (s : State) (t : Nat) (k : Task) : State :=
  let c := fld (k.word 5) 40 8
  let s1 := { s.drainKitty t with tasks := Sparse.erase s.tasks t }
  match k.record.bind s.recOfHandle with
  | none => s1
  | some x =>
    let s2 := s1.logFault k.die 7 c 0 0 (s.handleOf x) (s.recWord x 0x38) (s.recWord x 8)
    ((if s2.recLive x ∧ s2.recStatus x ≤ 3 then s2.applyAction x c (fld (s.recPol x c 0) 57 3) else s2)).unname x

/-- The workgroup of a nested handler placed on the context i that it holds. -/
def State.placeKitty (s : State) (t : Nat) (k : Task) (x : Kernel) (i : Nat) : State :=
  let core := s.kittyCore k.die i
  let base := s.kittyBase k.die i
  let num := 11 - (s.kittyOn core).findIdx (· == i)
  let p : Spot :=
    { core := core, spb := base, seg := 64, segs := (List.range (stackGrans x 64)).map (fun j => base + x.l + x.s + 4096 * j),
      ids := (List.range x.nwave).map (fun w => core * 48 + w * 12 + num) }
  let kbb := fld (s.csrGet 0x383 k.die) 16 48 * 65536
  let s1 := s.modTask t (fun k => { k with phase := .running, nextWg := 1, live := 1 })
  s1.startGroup t k x p s1.nextId (s1.freeGgt (clusterOfCore core)) 0 [] (some i)
    ((List.range x.nwave).map (fun w => dw (kbb + 0x90000 * (4 * i + w))))

/-- A task put on the kitty wait list. -/
def State.kittyWait (s : State) (t die : Nat) : State :=
  { (s.modTask t (fun k => { k with phase := .kwait })) with
    kwaits := Sparse.put s.kwaits die (Sparse.get [] s.kwaits die ++ [t]) }

/-! ## Dispatch (R357, R405) -/

/-- A dispatch refused with SECVER (R406). -/
def State.rejectTask (s : State) (t lr reason index : Nat) : State :=
  s.parkTask t 19 (dw lr) (dw (reason * 2 ^ 56 + index % 2 ^ 32)) 0

/-- The load record of an indirection entry. -/
def entryLr (e : Dword) : Nat := fld e 6 46 * 64

/-- The dispatch of a task goes on with its object's cache entry. -/
def State.settleTask (s : State) (t : Nat) (c : VEntry) : State :=
  match s.task t with
  | none => s
  | some k =>
    let kd := fld k.entry 52 12
    if c.svn < s.fsvn then s.rejectTask t c.lr 4 c.svn
    else if kd ≥ c.nk then s.rejectTask t c.lr 9 kd
    else
      let x := s.kernelAt c.lr kd
      let k1 := { k with kernel := some x, regs := if k.kind = 1 then k.regs else x.wsz }
      match s.launchBad k1 x with
      | some r => s.parkTask t 18 0 (dw (r * 2 ^ 56)) 0
      | none =>
        if k.nest ≥ 2 then
          (if !s.kittyFits k.die x then s.kittyMisfit t k
           else match k.kctx with
             | none => s.kittyWait t k.die
             | some i => (s.modTask t (fun _ => k1)).placeKitty t k1 x i)
        else
          ({ (s.modTask t (fun _ => { k1 with phase := .placing })) with
              dealer := Sparse.put s.dealer k.die (Sparse.get [] s.dealer k.die ++ [t]) }).post (.workgroupPlace k.die)

/-- A launch dispatched at ALEVEL or above aborts the die's scan test (R438). -/
def State.scanAbort (s : State) (die level : Nat) : State :=
  match Sparse.find s.scans die with
  | some x =>
    if level ≤ x.alevel then
      { (s.csrPut 0x430 die (setFld (s.csrGet 0x430 die) 20 4 3)) with scans := Sparse.erase s.scans die }
    else s
  | none => s

/-- The lowest-numbered FREE kitty context held for a nested task, which keeps one that it holds already (R382). -/
def State.takeKitty (s : State) (t : Nat) (k : Task) : State :=
  match (if k.nest ≥ 2 ∧ k.kctx.isNone then s.freeKitty k.die else none) with
  | none => s
  | some i => { (s.modTask t (fun k => { k with kctx := some i })) with kitty := Sparse.put s.kitty (k.die * 64 + i) .held }

/-- A task taken from its queue or the kitty wait list. -/
def State.dispatchTask (s0 : State) (t : Nat) : State :=
  match s0.task t with
  | none => s0
  | some k0 =>
    if k0.deadline ≠ 0 ∧ s0.gt ≥ k0.deadline then s0.parkTask t 16 (dw s0.gt) 0 0
    else
      let s := s0.takeKitty t k0
      let k := (s.task t).getD k0
      let l := s.launchOf k
      let e := s.kixEntry l.ctx (fld (k.word 0) 32 12)
      let s1 := (s.modTask t (fun _ => { l with ltag := s.freeTag, entry := e, phase := .loading })).scanAbort k.die k.level
      let s2 := match k.record.bind s.recOfHandle with
        | some x => if s1.recStatus x = 0 then s1.setRecWord x 0 (setFld (s1.recWord x 0) 32 8 1) else s1
        | none => s1
      if fld e 0 1 = 0 then s2.parkTask t 18 0 (dw (2 ^ 56)) 0
      else match s2.cached (entryLr e) with
        | some c => (s2.useEntry c).settleTask t c
        | none => s2.post (.objectLoad k.die t)

/-- Launches of a die that the Dealer holds or will hold. -/
def State.dealerLoad (s : State) (die : Nat) : Nat :=
  (Sparse.get [] s.dealer die).length +
    (s.tasks.filter (fun (e : Nat × Task) => e.2.die == die && decide (e.2.phase = .loading) && decide (e.2.nest < 2))).length

/-- The run queue from which R357 dispatches, with whether it is the turn of a lower level. -/
def State.pickLevel (s : State) (die : Nat) : Option (Nat × Bool) :=
  let full : Nat → Bool := fun l => Sparse.get [] s.queues (die * 16 + l) != []
  match (List.range 16).find? full with
  | none => none
  | some h =>
    let rp := fld (s.csrGet 0x203 die) 0 4
    let below := (List.range 16).filter (fun l => decide (l > h) && full l)
    if (Sparse.get 0 s.dispatchN die + 1) % 32 = 0 ∧ below ≠ [] then
      some ((((below.find? (fun l => decide (l ≥ Nat.max rp (h + 1)))).orElse (fun _ => below.head?)).getD h), true)
    else some (h, false)

/-- Whether the target of a task can take it: the Dealer, or the kitty (which has a wait list). -/
def State.canTake (s : State) (die t : Nat) : Bool :=
  ((s.task t).map (fun k => decide (k.nest ≥ 2))).getD true || decide (s.dealerLoad die < 16)

/-- The dispatch of a die's next task; none where it has none to dispatch. -/
def State.dispatchNext (s : State) (die : Nat) : Option State :=
  if !s.dieServes die || s.flushing.isSome then none
  else match Sparse.get [] s.kwaits die, s.freeKitty die with
    | t :: rest, some _ =>
      some (({ s with kwaits := Sparse.put s.kwaits die rest }.dispatchTask t).retryPushes.post (.taskDispatch die))
    | _, _ => match s.pickLevel die with
      | none => none
      | some (x, turn) => match Sparse.get [] s.queues (die * 16 + x) with
        | [] => none
        | t :: rest =>
          if !s.canTake die t then none
          else
            let s1 := { s with queues := Sparse.put s.queues (die * 16 + x) rest,
                               dispatchN := Sparse.put s.dispatchN die (Sparse.get 0 s.dispatchN die + 1) }
            let s2 := if turn then s1.csrPut 0x203 die (dw (if x = 15 then 1 else x + 1)) else s1
            let nested := ((s2.task t).map (fun k => decide (k.nest ≥ 2) && k.kctx.isNone)).getD false
            let s3 := if nested && (s2.freeKitty die).isNone then s2.kittyWait t die else s2.dispatchTask t
            some (s3.retryPushes.post (.taskDispatch die))

def execTaskDispatch (die : Nat) (s : State) : Host.Outcome State Fault Refusal :=
  match s.dispatchNext die with
  | some t => .next t
  | none => .refused (.notEnabled "TASK_DISPATCH")

/-- A load that a dispatch needs, and the same outcome for every dispatch that waits for it (R407); a place with the Dealer
of each of their dies may be free then (R357). It waits for what is not served (R431). -/
def execObjectLoad (die task : Nat) (s : State) : Host.Outcome State Fault Refusal :=
  match s.task task with
  | none => .refused (.notEnabled "OBJECT_LOAD")
  | some k =>
    if k.phase ≠ .loading ∨ k.die ≠ die then .refused (.notEnabled "OBJECT_LOAD")
    else if s.loadHeld (entryLr k.entry) then .next s
    else
      let lr := entryLr k.entry
      let all := (s.tasks.filter (fun (e : Nat × Task) => decide (e.2.phase = .loading) && entryLr e.2.entry == lr)).map (·.1)
      let dies := ((die :: all.filterMap (fun t => (s.task t).map (·.die))).eraseDups).map Instr.taskDispatch
      let r := s.load lr
      match r.2 with
      | .error e => .next ((all.foldl (fun (acc : State) t => acc.rejectTask t lr e.1 e.2) r.1).postAll dies)
      | .ok c => .next ((all.foldl (fun (acc : State) t => acc.settleTask t c) (r.1.useEntry c)).postAll dies)

/-! ## Retirement and completion (R352, R336) -/

/-- Whether every wave of a workgroup has exited or been killed. -/
def State.allEnded (s : State) (n : Nat) (g : Workgroup) : Bool :=
  g.waves.all (fun id => !((s.wave id).wg == n && (Sparse.find s.waves id).isSome) || (s.wave id).retired)

/-- Whether a copy that has not completed reads or writes scratchpad of a workgroup through an on-chip frame, in any part of
its stream (R111, R127). -/
def State.reachesPad (s : State) (core : Nat) (c : Copy) (g : Nat) : Bool :=
  c.reach.any (fun x =>
    (c.op.memDst && (s.windowPad core c.ctx c.fdst .copyWrite x.2).any (fun y => y.1 == g)) ||
    (c.op.memSrc && (s.windowPad core c.ctx c.fsrc .copyRead x.1).any (fun y => y.1 == g)))

/-- Whether a workgroup's segments have drained, its copies and matrix operations are over, and no copy of another that
reaches its scratchpad is left (R127, R352). Tiles are released with the rest: R169 names the matrix operations alone, R352
the copies too (log 119). -/
def State.quiet (s : State) (g : Nat) (k : Workgroup) : Bool :=
  !s.waves.any (fun (e : Nat × Wave) => e.2.wg == g && e.2.task == k.task) &&
  !s.copies.any (fun (e : Nat × Copy) => e.2.wg == g || (s.targets e.2).contains g || s.reachesPad (e.1 / 128) e.2 g) &&
  !s.engines.any (fun (e : Nat × Engine) => e.2.ops.any (fun m => m.wg == g))

/-- STATUS of PRECTL. -/
def State.preStatus (s : State) (die : Nat) : Nat := fld (s.csrGet 0x200 die) 8 4

def State.setPreStatus (s : State) (die st : Nat) : State := s.csrPut 0x200 die (setFld (s.csrGet 0x200 die) 8 4 st)

/-- Saved workgroups that a RESTORE has still to place. -/
def State.restoring (s : State) (die : Nat) : List Saved := s.saved.filter (fun x => x.die == die && !s.prectl die x.ctx)

/-- The end of a RESTORE, where the last workgroup that it had to place is placed or killed (R368). -/
def State.restored (s : State) (die : Nat) : State := if s.restoring die = [] then s.setPreStatus die 0 else s

/-- The image of a saved workgroup, or what is written of one that is being saved, and the granules that it takes given up. -/
def State.dropImage (s : State) (g : Nat) : State :=
  let gone := (s.saved.filter (fun x => x.wg == g)).flatMap (fun x => x.gran) ++ Sparse.get [] s.written g
  { s with written := Sparse.erase s.written g, saved := s.saved.filter (fun x => x.wg != g),
           guests := s.guests.map (fun (e : Nat × List Nat) => (e.1, e.2.filter (fun o => !gone.contains (some e.1, o)))) }

/-- A task with no workgroup left: it completes once it is wholly placed and does not stand still (R336, R352); one that has
given its signals is forgotten. -/
def State.tryComplete (s : State) (t : Nat) : Option State :=
  match s.task t with
  | none => none
  | some k =>
    if k.live ≠ 0 then none
    else if k.phase = .done then some { s with tasks := Sparse.erase s.tasks t }
    else if k.phase = .running ∧ k.nextWg ≥ k.nwg ∧ !k.stop then some (s.completeTask t)
    else none

/-- A workgroup's resources released. -/
def State.freeGroup (s0 : State) (g : Nat) (k : Workgroup) : State :=
  let die := dieOfCore k.core
  let s := if (s0.restoring die).any (fun x => x.wg == g) then (s0.dropImage g).restored die else s0.dropImage g
  let s1 := { (s.modTask k.task (fun t => { t with live := t.live - 1 })) with wgs := Sparse.erase s.wgs g }
  let s2 := match k.kittyIx with
    | some i => { s1 with kitty := Sparse.put s1.kitty (die * 64 + i) .free }
    | none => s1
  let s3 := s2.postAll [.workgroupPlace die, .taskDispatch die]
  (s3.tryComplete k.task).getD s3

/-- What retirement has come to for a workgroup; none where it waits. A FAULT or EVENT task completes with its waves, its
workgroup retires once it is quiet (R336, R352). -/
def State.retireStep (s : State) (g : Nat) : Option State :=
  match s.wg g with
  | none => none
  | some k =>
    match (s.task k.task).filter (fun t => t.kind != 1 && decide (t.phase = .running ∨ t.phase = .placing) && !t.stop &&
        s.allEnded g k) with
    | some _ => some (s.completeTask k.task)
    | none => if s.quiet g k then some (s.freeGroup g k) else none

def execWorkgroupRetire (wg : Nat) (s : State) : Host.Outcome State Fault Refusal :=
  match s.retireStep wg with
  | some t => .next t
  | none => .refused (.notEnabled "WORKGROUP_RETIRE")

/-! ## Budgets and deadlines (R358, R359) -/

/-- The waves of a task whose budget has run out stand still, and the task parks. -/
def execBudgetExhausted (task : Nat) (s : State) : Host.Outcome State Fault Refusal :=
  match s.task task with
  | some k =>
    if (k.phase = .placing ∨ k.phase = .running) ∧ !k.stop ∧ k.hasBudget ∧ k.budget = 0 then
      .next (s.parkTask task 15 (dw s.gt) 0 0)
    else .refused (.notEnabled "BUDGET_EXHAUSTED")
  | none => .refused (.notEnabled "BUDGET_EXHAUSTED")

/-- The waves of a task whose deadline has come stand still, and the task parks. -/
def execTaskDeadline (task : Nat) (s : State) : Host.Outcome State Fault Refusal :=
  match s.task task with
  | some k =>
    if (k.phase = .placing ∨ k.phase = .running) ∧ !k.stop ∧ k.deadline ≠ 0 ∧ s.gt ≥ k.deadline then
      .next (s.parkTask task 16 (dw s.gt) 0 0)
    else .refused (.notEnabled "TASK_DEADLINE")
  | none => .refused (.notEnabled "TASK_DEADLINE")

end Sys2Proof.Machine
end

