-- ==== Sys2Proof/Machine/Float.lean ====
section
/-! DEFINITION. Floating-point, conversion and packing instructions (10/R231, R233 to R238, R250, R251). -/

namespace Sys2Proof.Machine

/-- A float instruction of elements A and B. -/
def State.float3 (s : State) (i : Instr) (d : Reg) (p : Sel) (a : Reg) (q : Sel) (b : Reg)
    (f : Fmt → Env → Nat → Nat → Res) : Host.Outcome State Fault Refusal :=
  s.elems3 i d p a q b (fun t x y => f (fmtOf t) s.curWave.env x y)

/-- A float instruction of one element. -/
def State.float2 (s : State) (i : Instr) (d : Reg) (p : Sel) (a : Reg) (f : Fmt → Env → Nat → Res) :
    Host.Outcome State Fault Refusal :=
  s.elems2 i d p a (fun t x => f (fmtOf t) s.curWave.env x)

/-- A float instruction of elements A, B and C. -/
def State.float4 (s : State) (i : Instr) (d a b c : Reg) (p : Sel) (f : Fmt → Env → Nat → Nat → Nat → Res) :
    Host.Outcome State Fault Refusal :=
  s.elems4 i d a b c p (fun t x y z => f (fmtOf t) s.curWave.env x y z)

/-! ## R233 to R235 -/

def execFadd (d : Reg) (p : Sel) (a : Reg) (q : Sel) (b : Reg) (s : State) : Host.Outcome State Fault Refusal :=
  s.float3 (.fadd d p a q b) d p a q b fAdd

def execFsub (d : Reg) (p : Sel) (a : Reg) (q : Sel) (b : Reg) (s : State) : Host.Outcome State Fault Refusal :=
  s.float3 (.fsub d p a q b) d p a q b fSub

def execFmul (d : Reg) (p : Sel) (a : Reg) (q : Sel) (b : Reg) (s : State) : Host.Outcome State Fault Refusal :=
  s.float3 (.fmul d p a q b) d p a q b fMul

def execFmin (d : Reg) (p : Sel) (a : Reg) (q : Sel) (b : Reg) (s : State) : Host.Outcome State Fault Refusal :=
  s.float3 (.fmin d p a q b) d p a q b (fun f v x y => fMinMax f v false x y)

def execFmax (d : Reg) (p : Sel) (a : Reg) (q : Sel) (b : Reg) (s : State) : Host.Outcome State Fault Refusal :=
  s.float3 (.fmax d p a q b) d p a q b (fun f v x y => fMinMax f v true x y)

def execFscale (d : Reg) (p : Sel) (a : Reg) (q : Sel) (b : Reg) (s : State) : Host.Outcome State Fault Refusal :=
  s.elems3 (.fscale d p a q b) d p a q b
    (fun t x y => fScale (fmtOf t) s.curWave.env x (toSigned (Nat.min t.elem 32) y))

def execFneg (d : Reg) (p : Sel) (a : Reg) (s : State) : Host.Outcome State Fault Refusal :=
  s.elems2 (.fneg d p a) d p a (fun t x => plain (x ^^^ 2 ^ (t.elem - 1)))

def execFabs (d : Reg) (p : Sel) (a : Reg) (s : State) : Host.Outcome State Fault Refusal :=
  s.elems2 (.fabs d p a) d p a (fun t x => plain (x % 2 ^ (t.elem - 1)))

def execFfract (d : Reg) (p : Sel) (a : Reg) (s : State) : Host.Outcome State Fault Refusal :=
  s.float2 (.ffract d p a) d p a fFract

def execFclass (d : Reg) (p : Sel) (a : Reg) (s : State) : Host.Outcome State Fault Refusal :=
  s.laneOp (.fclass d p a) d 1 [(a, s.curWave.vcount, p)]
    (fun w l => byElems w.ty (fun x _ _ => plain (fClass (fmtOf w.ty) x)) (w.valP p a l) 0 0)

def execFrnd (d : Reg) (p : Sel) (a : Reg) (r : FRndMode) (s : State) : Host.Outcome State Fault Refusal :=
  s.float2 (.frnd d p a r) d p a (fun f v x =>
    fRnd f v (match r with
      | .gmode => v.rm
      | .rz => 1
      | .up => 2
      | .down => 3) x)

/-! ## R231 -/

def execFcmp (c : FCond) (kd : Low) (p : Sel) (a : Reg) (q : Sel) (b : Reg) (s : State) :
    Host.Outcome State Fault Refusal :=
  s.issue (.fcmp c kd p a q b) (fun t =>
    let w := t.curWave
    let f : Nat → Bool × Nat := fun l => fCompare (fmtOf w.ty) w.env c (w.valP p a l) (w.valP q b l)
    if w.conds (fun l => (0, (f l).2)) &&& w.te ≠ 0 then
      t.parkArith (.fcmp c kd p a q b) false (fun l => (0, (f l).2))
    else t.setCur (w.kbits kd (fun l => (f l).1)))

/-! ## R250, R251 -/

def execFma (d a b c : Reg) (p : Sel) (s : State) : Host.Outcome State Fault Refusal :=
  s.float4 (.fma d a b c p) d a b c p (fun f v x y z => fMadd f v false false x y z)

def execFms (d a b c : Reg) (p : Sel) (s : State) : Host.Outcome State Fault Refusal :=
  s.float4 (.fms d a b c p) d a b c p (fun f v x y z => fMadd f v false true x y z)

def execFnma (d a b c : Reg) (p : Sel) (s : State) : Host.Outcome State Fault Refusal :=
  s.float4 (.fnma d a b c p) d a b c p (fun f v x y z => fMadd f v true false x y z)

def execLerp (d a b c : Reg) (p : Sel) (s : State) : Host.Outcome State Fault Refusal :=
  s.float4 (.lerp d a b c p) d a b c p fLerp

def execFdot2 (d a b c : Reg) (p : Sel) (s : State) : Host.Outcome State Fault Refusal :=
  s.laneOp (.fdot2 d a b c p) d 1 [(a, 1, p), (b, 1, selId), (c, 1, selId)]
    (fun w l => fDot2 (fmtOf w.ty) w.env (bits (w.valP p a l) 0 16) (bits (w.valP p a l) 16 16)
      (bits (w.val b l) 0 16) (bits (w.val b l) 16 16) (w.v c l).toNat)

/-- CLAMP of elements: integers by signedness, floats by FMAX and then FMIN (R251). -/
def clampElem (t : Ty) (v : Env) (x y z : Nat) : Res :=
  if t.isFloat then
    let m := fMinMax (fmtOf t) v true x y
    let r := fMinMax (fmtOf t) v false m.1 z
    (r.1, r.2 ||| m.2)
  else
    let m := if elemInt t x < elemInt t y then y else x
    plain (if elemInt t z < elemInt t m then z else m)

def execClamp (d a b c : Reg) (p : Sel) (s : State) : Host.Outcome State Fault Refusal :=
  s.elems4 (.clamp d a b c p) d a b c p (fun t x y z => clampElem t s.curWave.env x y z)

/-! ## Conversion and packing (R236 to R238) -/

/-- One element converted from a type to another (R236). -/
def cvtElem (src dst : Ty) (v : Env) (x : Nat) : Res :=
  match src.isFloat, dst.isFloat with
  | false, false => plain (ofInt dst.elem (elemInt src x))
  | false, true => intToF (fmtOf dst) v (elemInt src x)
  | true, false => fToInt (fmtOf src) v dst.elem dst.signed x
  | true, true => fToF (fmtOf src) (fmtOf dst) v x

/-- Elements 0 to n − 1 converted, n the lesser count, and zero above (R236). -/
def cvtVal (src dst : Ty) (v : Env) (a : Nat) : Res :=
  (List.range (Nat.min src.elems dst.elems)).foldl (fun acc i =>
    (acc.1 + (cvtElem src dst v (bits a (src.elem * i) src.elem)).1 * 2 ^ (dst.elem * i),
     acc.2 ||| (cvtElem src dst v (bits a (src.elem * i) src.elem)).2)) (0, 0)

def execCvt (d : Reg) (p : Sel) (a : Reg) (t : Ty) (rz : Bool) (s : State) : Host.Outcome State Fault Refusal :=
  s.laneOp (.cvt d p a t rz) d (if t.wide then 2 else 1) [(a, s.curWave.vcount, p)]
    (fun w l => cvtVal w.ty t (if rz then w.env.withRm 1 else w.env) (w.valP p a l))

/-- The type that PACK reads its sources under (R237). -/
def packSource (t : Ty) : Ty :=
  match t with
  | .i16x2 => .i32
  | .n16x2 => .n32
  | .f16x2 => .f32
  | .bf16x2 => .f32
  | .i8x4 => .i16x2
  | .n8x4 => .n16x2
  | _ => .f16x2

/-- One element narrowed (R237). -/
def packElem (t : Ty) (v : Env) (x : Nat) : Res :=
  if t.isFloat then fToF (fmtOf (packSource t)) (fmtOf t) v x
  else plain (ofInt t.elem (clampInt (tyLo t) (tyHi t) (elemInt (packSource t) x)))

/-- The two sources of PACK narrowed into one lane. -/
def packVal (t : Ty) (v : Env) (a b : Nat) : Res :=
  (List.range t.elems).foldl (fun acc i =>
    let h := t.elems / 2
    let w := (packSource t).elem
    let r := packElem t v (bits (if i < h then a else b) (w * (i % h)) w)
    (acc.1 + r.1 * 2 ^ (t.elem * i), acc.2 ||| r.2)) (0, 0)

def execPack (d : Reg) (p : Sel) (a : Reg) (q : Sel) (b : Reg) (s : State) : Host.Outcome State Fault Refusal :=
  s.laneOp (.pack d p a q b) d 1 [(a, 1, p), (b, 1, q)]
    (fun w l => packVal w.ty w.env (w.valP p a l) (w.valP q b l))

/-- One element widened to 32 bits (R237), with the flushes of R180 (log 56). -/
def unpkVal (t : Ty) (v : Env) (a n : Nat) : Res :=
  let x := bits a (t.elem * (n % t.elems)) t.elem
  if t.isFloat then fToF (fmtOf t) f32 v x else plain (ofInt 32 (elemInt t x))

def execUnpk (d : Reg) (p : Sel) (a : Reg) (q : Sel) (b : Reg) (s : State) : Host.Outcome State Fault Refusal :=
  s.laneOp (.unpk d p a q b) d 1 [(a, 1, p), (b, 1, q)]
    (fun w l => unpkVal w.ty w.env (w.valP p a l) (w.valP q b l))

/-- SAT of an element (R238). -/
def satElem (t : Ty) (v : Env) (x : Nat) : Res :=
  if t.isFloat then fSat (fmtOf t) v x
  else plain (ofInt t.elem (clampInt 0 ((2 ^ (t.elem - 1) : Nat) - 1) (elemInt t x)))

def execSat (d : Reg) (p : Sel) (a : Reg) (s : State) : Host.Outcome State Fault Refusal :=
  s.elems2 (.sat d p a) d p a (fun t x => satElem t s.curWave.env x)

end Sys2Proof.Machine
end

