-- ==== Sys2Proof/Machine/Preempt.lean ====
section
/-! DEFINITION. Context save and restore (14/R363 to R369, 05/R128, 11/R284) and the Dealer's step (14/R351, R367, R368).
A saved workgroup stands on a core number of its own beyond the real ones (log 35): its waves by WID, its copies by
slot, its matrix operations in order, its scratchpad and tiles in that number's window. -/

namespace Sys2Proof.Machine

/-! ## Work that moves to another core -/

/-- A unit under its new number. -/
def moveUnit (fw fk : Nat → Nat) (u : Nat × Nat) : Nat × Nat :=
  match u.1 with
  | 1 => (1, fw u.2)
  | 3 => (3, segUnit (fk (segKey u.2)) (segIx u.2))
  | _ => u

/-- A table whose keys change. -/
def rekey {α : Type} (m : Sparse α) (f : Nat → Nat) : Sparse α := m.foldl (fun acc e => Sparse.put acc (f e.1) e.2) []

/-- Waves and copies under new numbers, wherever the state names them. -/
def State.renumber (s : State) (fw fk : Nat → Nat) : State :=
  let fu := moveUnit fw fk
  { s with
    waves := rekey s.waves fw,
    ops := s.ops.map (fun (e : Nat × MemOp) => (e.1, { e.2 with wave := fw e.2.wave })),
    copies := (rekey s.copies fk).map (fun (e : Nat × Copy) => (e.1, { e.2 with wave := fw e.2.wave })),
    records := s.records.map (fun (e : Nat × Record) => (e.1, { e.2 with unit := (fu (e.2.kind, e.2.unit)).2 })),
    fb := s.fb.map (fun (e : Nat × List FbEntry) => (e.1, e.2.map (fun x => { x with named := fu x.named, waiters := x.waiters.map fu }))),
    migs := s.migs.map (fun (e : Nat × List Migration) => (e.1, e.2.map (fun m => { m with waiters := m.waiters.map fu }))),
    link := s.link.map (fun l => match l.work with
      | .record id h => { l with work := .record (fw id) h }
      | _ => l),
    dropped := s.dropped.map (fun (e : Nat × List (Nat × Nat)) => (e.1, e.2.map fu)),
    detached := s.detached.map (fun (e : Nat × List ParkImage) => (e.1, e.2.map (fun p =>
      { p with unit := (fu (p.kind, p.unit)).2, wave := fw p.wave }))),
    caches := s.caches.map (fun (e : Nat × List CacheCopy) => (e.1, e.2.map (fun c => { c with writers := c.writers.map fw }))) }

/-- A workgroup whose waves have new numbers. -/
def Workgroup.renumber (g : Workgroup) (fw : Nat → Nat) (core : Nat) (places : List Nat) : Workgroup :=
  { g with
    core := core, waves := places,
    rings := g.rings.map (fun (r : Nat × Ring) => (r.1, { r.2 with
      slots := r.2.slots.map (fun x => { x with holder := x.holder.map fw }), waitA := r.2.waitA.map fw, waitW := r.2.waitW.map fw })),
    reord := g.reord.map (fun a => { a with wave := fw a.wave }) }

/-- The cells of `n` bytes from `a` moved to `b`; what stood there is gone. -/
def State.moveBytes (s : State) (a b n : Nat) : State :=
  let within : Nat → Nat → Bool := fun x k => decide (x ≤ k) && decide (k < x + n)
  let cells := s.mem.filter (fun e => within a e.1)
  let marks := s.poison.filter (fun e => within a e.1)
  { s with mem := cells.foldl (fun acc e => Sparse.put acc (b + (e.1 - a)) e.2) (s.mem.filter (fun e => !within a e.1 && !within b e.1)),
           poison := marks.foldl (fun acc e => Sparse.put acc (b + (e.1 - a)) e.2) (s.poison.filter (fun e => !within a e.1 && !within b e.1)) }

/-- A workgroup moved: from its core and its region to a core, a region, places for its waves by WID and slots for its
copies. -/
def State.moveGroup (s : State) (n core spb : Nat) (places : List Nat) (slot : Nat → Nat) : State :=
  match s.wg n with
  | none => s
  | some g =>
    let old := g.core
    let fw : Nat → Nat := fun id =>
      if (Sparse.find s.waves id).any (fun w => w.wg == n && w.task == g.task) then places.getD (s.wave id).wid id else id
    let mine := (s.copies.filter (fun (e : Nat × Copy) => e.2.wg == n && e.1 / 128 == old)).map (·.1)
    let fk : Nat → Nat := fun k => if mine.contains k then Copy.key core (slot (k % 128)) else k
    let e := s.engine old
    let ops := e.ops.filter (fun m => m.wg == n)
    let tok := if g.tiles then e.token else none
    let tokq := if g.tiles then e.tokq else []
    let s1 := s.setEngine old
      { e with ops := e.ops.filter (fun m => m.wg != n), token := if g.tiles then none else e.token,
               tokq := if g.tiles then [] else e.tokq }
    let s2 := (s1.releaseHeld old).renumber fw fk
    let t := s2.engine core
    let s3 := s2.setEngine core
      { t with ops := t.ops ++ ops.map (fun m => { m with wave := fw m.wave, seen := rekey m.seen (fun a => a + spb - g.spb) }), token := if g.tiles then tok.map fw else t.token,
               tokq := if g.tiles then tokq.map fw else t.tokq, stop := !real core }
    let s4 := s3.moveBytes (winBase old + g.spb) (winBase core + spb) (g.l + g.s)
    let s5 := if g.tiles then s4.moveBytes (winBase old + 0x180000) (winBase core + 0x180000) 0x40000 else s4
    let g2 := g.renumber fw core places
    { s5 with wgs := Sparse.put s5.wgs n { g2 with spb := spb } }

/-! ## Save (R363 to R366, R369) -/

/-- The workgroups of a context on a die that PRECTL concerns: resident ones, in no kitty context. -/
def State.groupsOf (s : State) (die ctx : Nat) : List (Nat × Workgroup) :=
  s.wgs.filter (fun (e : Nat × Workgroup) => real e.2.core && dieOfCore e.2.core == die && e.2.kittyIx.isNone &&
    ((s.task e.2.task).map (fun k => k.ctx == ctx)).getD false)

/-- Bytes of local store that an operation has still to read, and their poison, kept as they stand: its registrations fall when the engine
stops, and restored it reads what stood at its issue (R277, R284). -/
def State.freezeOp (s : State) (g : Workgroup) (m : MatOp) : MatOp :=
  let rest := ((List.range m.chunks).filter (fun c => decide (m.nextc ≤ c))).flatMap (fun c => (m.chunkReads c).flatMap g.pieces)
  { m with seen := rest.foldl (fun acc r => (List.range r.2).foldl (fun (a : Sparse (Byte × Mark)) i =>
      let o := m.at g r.1 + i
      if (Sparse.find a o).isNone then Sparse.put a o (s.byte (winBase g.core + o), s.mark (winBase g.core + o)) else a) acc) m.seen }

/-- The matrix engine of a workgroup's core stopped: it takes nothing more of it, and what its registrations held is
written (R284). -/
def State.stopEngine (s : State) (n : Nat) (g : Workgroup) : State :=
  let e := s.engine g.core
  (s.setEngine g.core { e with
    stop := true, ops := e.ops.map (fun m => if m.wg = n ∧ !m.parked then s.freezeOp g m else m) }).releaseHeld g.core

/-- A SAVE asked for (R363): every engine is told, C copies are checked in, indigo runs end, lookahead windows close and
signals wait. -/
def State.beginSave (s : State) (die ctx : Nat) : State :=
  let gs := s.groupsOf die ctx
  let mine : Nat → Bool := fun n => gs.any (fun e => e.1 == n)
  let s1 := gs.foldl (fun (acc : State) (e : Nat × Workgroup) =>
    let t := acc.checkInAll e.2.core []
    if e.2.tiles then t.stopEngine e.1 e.2 else t) s
  let s2 := { s1 with
    barred := s1.barred.filter (fun (b : Nat × Nat) => !(b.1 == die && b.2 == ctx)) ++ [(die, ctx)],
    saving := s1.saving.filter (fun (b : Nat × Nat) => !(b.1 == die && b.2 == ctx)) ++ [(die, ctx)],
    waves := s1.waves.map (fun (e : Nat × Wave) => (e.1, if mine e.2.wg && real (coreOfWave e.1) then { e.2 with windows := [] } else e.2)),
    tasks := s1.tasks.map (fun (e : Nat × Task) => (e.1,
      if e.2.die = die ∧ e.2.ctx = ctx ∧ e.2.phase = TPhase.signalling then { e.2 with paused := true } else e.2)),
    indigo := s1.indigo.filter (fun (e : Nat × Indigo) => !mine (s1.wave e.1).wg) }
  s2.csrPut 0x200 die (setFld (setFld (s2.csrGet 0x200 die) 48 8 ctx) 8 4 1)

/-- Whether nothing of an operation is under way: it waits with its record, or for its wave to take its fault. -/
def MemOp.rests (o : MemOp) : Bool := (o.resume && !o.replay) || (!o.lanes.any LaneOp.open && o.lanes.any LaneOp.bad && !o.replay)

/-- Every engine of a die has stopped the work of some workgroups at its boundary (R364, R128, R284). -/
def State.stopped (s : State) (gs : List (Nat × Workgroup)) : Bool :=
  let mine : Nat → Bool := fun id => gs.any (fun e => (s.wave id).wg == e.1 && (s.wave id).task == e.2.task)
  decide (s.agenda = []) &&
  s.ops.all (fun (e : Nat × MemOp) => !mine e.2.wave || e.2.rests) &&
  s.copies.all (fun (e : Nat × Copy) => !gs.any (fun g => e.2.wg == g.1) || e.2.segs.all (fun x => x.2.parked)) &&
  s.turns.all (fun t => match t with
    | .redo id _ => !mine id
    | _ => true)

/-- Whether a C copy holds stores of waves of some workgroups (R80, R147). -/
def State.unchecked (s : State) (gs : List (Nat × Workgroup)) : Bool :=
  s.caches.any (fun (e : Nat × List CacheCopy) => e.2.any (fun c => decide (c.kind = .c) && c.writers.any (fun id =>
    gs.any (fun g => (s.wave id).wg == g.1 && (s.wave id).task == g.2.task))))

/-- Granules that images on a die take. -/
def State.areaTaken (s : State) (die : Nat) : List (Option Nat × Nat) :=
  s.saved.flatMap (fun x => if x.die = die then x.gran else []) ++
    s.written.flatMap (fun e => if (s.wg e.1).any (fun g => dieOfCore g.core == die) then e.2 else [])

/-- Places for image granules on a die, in the order of R366, but for those of a workgroup's own core and of a core under
test (R438). Of two clusters at one distance the lower comes first, and a cluster's cores come in ascending order
(log 120). -/
def State.imageRoom (s : State) (die core : Nat) : List (Option Nat × Nat) :=
  let cl := clusterOfCore core
  let onCore : Nat → List (Option Nat × Nat) := fun c =>
    if c = core ∨ !s.coreIn c ∨ s.underScan c then [] else ((s.freeGrans c false).drop 32).map (fun o => (some c, o))
  let own := (List.range 4).flatMap (fun i => onCore (4 * cl + i))
  let rest := (List.range 32).flatMap (fun d =>
    if d = 0 then []
    else (if cl % 32 ≥ d then (List.range 4).flatMap (fun i => onCore (4 * (cl - d) + i)) else []) ++
      (if cl % 32 + d < 32 then (List.range 4).flatMap (fun i => onCore (4 * (cl + d) + i)) else []))
  let taken := s.areaTaken die
  let area := ((List.range (fld (s.csrGet 0x201 die) 0 8 * 4096)).map (fun i => ((none : Option Nat), i))).filter (fun g => !taken.contains g)
  own ++ rest ++ area

/-- The lowest pseudo-core number of a die without a saved workgroup. -/
def State.freePseudo (s : State) (die : Nat) : Nat :=
  (((List.range (s.saved.length + 1)).map (fun k => 512 * (k + 1) + die * 128)).find? (fun p => !s.saved.any (fun x => x.pcore == p))).getD 0

/-- The units of a workgroup that may wait: its waves and its copies' segments. -/
def State.unitsOf (s : State) (n : Nat) : List (Nat × Nat) :=
  (s.waves.filter (fun (e : Nat × Wave) => e.2.wg == n)).map (fun e => (1, e.1)) ++
  (s.copies.filter (fun (e : Nat × Copy) => e.2.wg == n)).flatMap (fun e => e.2.segs.map (fun x => (3, segUnit e.1 x.1)))

/-- A unit taken off every fault-buffer entry that it waits on as a waiter, and off the dropped lists (R369). -/
def State.offLists (s : State) (u : Nat × Nat) : State :=
  let waits := s.fb.any (fun (e : Nat × List FbEntry) => e.2.any (fun x => x.waiters.contains u)) || s.isDropped u
  let s1 := { s with fb := s.fb.map (fun (e : Nat × List FbEntry) => (e.1, e.2.map (fun (x : FbEntry) => { x with waiters := x.waiters.filter (· ≠ u) }))),
                     dropped := s.dropped.map (fun (e : Nat × List (Nat × Nat)) => (e.1, e.2.filter (· ≠ u))) }
  match s1.unitRecord u with
  | some x =>
    if waits then
      (s1.setRecWord x 0 (setFld (s1.recWord x 0) 0 1 0)).setRecWord x 0x60 (setFld (s1.recWord x 0x60) 40 4 0)
    else s1
  | none => s1

/-- Granules that a workgroup's image takes from now on; those of local store are guests there. -/
def State.takeGranules (s : State) (n : Nat) (room : List (Option Nat × Nat)) : State :=
  { s with
    guests := room.foldl (fun (acc : Sparse (List Nat)) (r : Option Nat × Nat) => match r.1 with
      | some c => Sparse.put acc c (Sparse.get [] acc c ++ [r.2])
      | none => acc) s.guests,
    written := Sparse.put s.written n (Sparse.get [] s.written n ++ room) }

/-- More granules of a workgroup's image written where there is room; each that fits nowhere waits (R366). -/
def State.saveParts (s : State) (die n : Nat) : State :=
  match s.wg n with
  | none => s
  | some g =>
    let have_ := Sparse.get [] s.written n
    let room := (s.imageRoom die g.core).take (s.imageGrans n g - have_.length)
    if room = [] then s else (s.putImage die ((s.imageOf n g).drop (4096 * have_.length)) room).takeGranules n room

/-- Whether a workgroup's image is written whole. -/
def State.partsWhole (s : State) (n : Nat) : Bool :=
  (s.wg n).any (fun g => decide ((Sparse.get [] s.written n).length ≥ s.imageGrans n g))

/-- A workgroup whose image is written taken off its core: its units leave the lists of their cluster (R369). -/
def State.saveGroup (s : State) (die ctx n : Nat) : State :=
  match s.wg n with
  | none => s
  | some g =>
    let gran := Sparse.get [] s.written n
    let p := s.freePseudo die
    let s1 := (s.unitsOf n).foldl (fun (acc : State) u => acc.offLists u) s
    let s2 := s1.moveGroup n p g.spb ((List.range g.waves.length).map (fun i => p * 48 + i)) id
    { s2 with saved := s2.saved ++ [{ pcore := p, die := die, ctx := ctx, wg := n, gran := gran }], written := Sparse.erase s2.written n }

/-- How a save under way on a die goes on: once its engines have stopped, what C copies hold of its waves' stores is checked
in; then, every engine having acknowledged, granule after granule is written as far as there is room; with all of them written
STATUS is SAVED and the resources are free (R364, R366). -/
def State.finishSave (s : State) (die : Nat) : Option State :=
  (s.saving.filter (fun b => b.1 == die)).findSome? (fun b =>
    let gs := s.groupsOf die b.2
    if !s.stopped gs then none
    else if s.unchecked gs then some (gs.foldl (fun (acc : State) (e : Nat × Workgroup) => acc.checkInAll e.2.core []) s)
    else
      let t := gs.foldl (fun (acc : State) (e : Nat × Workgroup) => acc.saveParts die e.1) s
      if gs.all (fun e => t.partsWhole e.1) then
        let images := gs.foldl (fun (acc : State) (e : Nat × Workgroup) =>
          acc.putImage die (acc.imageOf e.1 e.2) (Sparse.get [] acc.written e.1)) t
        let u := gs.foldl (fun (acc : State) (e : Nat × Workgroup) => acc.saveGroup die b.2 e.1) images
        let v := gs.foldl (fun (acc : State) (e : Nat × Workgroup) => acc.setEngine e.2.core { acc.engine e.2.core with stop := false }) u
        some (({ v with saving := v.saving.filter (· ≠ b) }.setPreStatus die 2).post (.workgroupPlace die))
      else if t.written = s.written then none
      else some t)

def execContextSaveComplete (die : Nat) (s : State) : Host.Outcome State Fault Refusal :=
  match s.finishSave die with
  | some t => .next t
  | none => .refused (.notEnabled "CONTEXT_SAVE_COMPLETE")

/-- PRECTL written with OP = SAVE. -/
def execPrectlSave (die ctx : Nat) (s : State) : Host.Outcome State Fault Refusal :=
  if s.preStatus die = 1 ∨ s.preStatus die = 3 then .next (s.setPreStatus die 4) else .next (s.beginSave die ctx)

/-! ## Restore (R368, R369) -/

/-- PRECTL written with OP = RESTORE; signals of the context's tasks go on (R364). -/
def execPrectlRestore (die ctx : Nat) (s : State) : Host.Outcome State Fault Refusal :=
  if s.preStatus die = 1 ∨ s.preStatus die = 3 ∨ !s.saved.any (fun x => x.die == die && x.ctx == ctx) then
    .next (s.setPreStatus die 4)
  else
    let s1 := { s with
      barred := s.barred.filter (fun b => !(b.1 == die && b.2 == ctx)),
      tasks := s.tasks.map (fun (e : Nat × Task) => (e.1, if e.2.die = die ∧ e.2.ctx = ctx then { e.2 with paused := false } else e.2)) }
    .next ((s1.csrPut 0x200 die (setFld (setFld (s1.csrGet 0x200 die) 48 8 ctx) 8 4 3)).post (.workgroupPlace die))

/-- Free slots of a core's copy engine. -/
def State.freeSlots (s : State) (core : Nat) : List Nat :=
  (List.range 128).filter (fun i => (Sparse.find s.copies (Copy.key core i)).isNone)

/-- Granules that the segments of a workgroup's waves take, each at its SEG. -/
def State.stackNeed (s : State) (n : Nat) (g : Workgroup) : Nat :=
  match s.waves.find? (fun (e : Nat × Wave) => e.2.wg == n && e.2.task == g.task) with
  | some e => (g.waves.length * e.2.seg * 4 * e.2.width + 4095) / 4096
  | none => 0

/-- The check of a core for a saved workgroup: R349 with its saved SEG, and slots for its copies. -/
def State.restoreSpot (s : State) (x : Saved) (core : Nat) (moved : Bool) : Option Spot :=
  match s.wg x.wg with
  | none => none
  | some g =>
    let here := (s.wgs.filter (fun (e : Nat × Workgroup) => e.2.core == core)).map (fun (e : Nat × Workgroup) => e.2)
    let free := s.freeGrans core moved
    let live := (s.waves.filter (fun (e : Nat × Wave) => e.2.wg == x.wg && e.2.task == g.task)).length
    let ncp := (s.copies.filter (fun (e : Nat × Copy) => e.2.wg == x.wg)).length
    if !s.coreIn core || s.underScan core then none
    else if (here.map (fun k => k.rings.length)).sum + g.rings.length > 32 then none
    else if g.tiles && here.any (fun k => k.tiles) then none
    else if (s.freeSlots core).length < ncp then none
    else match lowestRun free ((g.l + g.s) / 4096), placesFor core (12 - (s.kittyOn core).length) live (s.residents core) with
      | some spb, some ids =>
        let rest := free.filter (fun o => !(decide (spb ≤ o) && decide (o < spb + g.l + g.s)))
        if rest.length < 32 + s.stackNeed x.wg g then none
        else some { core := core, spb := spb, seg := 0, segs := rest.take (s.stackNeed x.wg g), ids := ids }
      | _, _ => none

/-- Spots for saved workgroups on given cores. -/
def State.restoreSpots (s : State) (moved : Bool) : List (Saved × Nat) → Option (List (Saved × Spot))
  | [] => some []
  | (x, c) :: r => match s.restoreSpot x c moved, s.restoreSpots moved r with
    | some p, some ps => some ((x, p) :: ps)
    | _, _ => none

/-- Places for a saved gang: one core of the die, or the cores of one cluster by gang index. -/
def State.restorePlaces (s : State) (die : Nat) (xs : List Saved) (moved : Bool) : Option (List (Saved × Spot)) :=
  let ptr := Sparse.get 0 s.pointer die
  match xs with
  | [] => none
  | x :: _ =>
    if ((s.wg x.wg).bind (fun g => s.task g.task)).all (fun k => k.gsz == 1) then
      (List.range 128).findSome? (fun j => s.restoreSpots moved [(x, 128 * die + (ptr + j) % 128)])
    else
      (List.range 32).findSome? (fun j => s.restoreSpots moved
        (xs.map (fun y => (y, 128 * die + 4 * ((ptr / 4 + j) % 32) + ((s.wg y.wg).map (fun g => g.gangIx)).getD 0))))

/-- A saved workgroup restored to its spot: its images loaded, matrix operations that waited for a place accepted (R284), its
frames with V = 0, its waiters to replay. -/
def State.restoreGroup (s : State) (x : Saved) (p : Spot) : State :=
  match s.wg x.wg with
  | none => s
  | some g =>
    let wids := ((s.waves.filter (fun (e : Nat × Wave) => e.2.wg == x.wg && e.2.task == g.task)).map (fun (e : Nat × Wave) => e.2.wid)).mergeSort
    let places := (List.range g.waves.length).map (fun i => if wids.contains i then p.ids.getD (wids.idxOf i) 0 else 2 ^ 40 + i)
    let used := (s.copies.filter (fun (e : Nat × Copy) => e.2.wg == x.wg)).map (fun e => e.1 % 128)
    let free := s.freeSlots p.core
    let s1 := s.moveGroup x.wg p.core p.spb places (fun sl => free.getD (used.idxOf sl) 0)
    let here := (s1.wgs.filter (fun (e : Nat × Workgroup) => e.1 != x.wg && e.2.core == p.core)).map (fun (e : Nat × Workgroup) => e.2.wgt)
    let tag := ((List.range 256).find? (fun n => !here.contains n)).getD 0
    let s2 := (s1.modWg x.wg (fun k => { k with segs := p.segs, wgt := tag })).clearFrames (fun w _ _ => (s1.wave w).wg == x.wg)
    let fit : Wave → Wave := fun w =>
      let b := w.seg * 4 * w.width
      { w with segGran := (p.segs.drop (w.wid * b / 4096)).take (((w.wid + 1) * b - 1) / 4096 + 1 - w.wid * b / 4096),
               segBase := w.wid * b % 4096 }
    let s3 := { (s2.dropImage x.wg) with
      waves := s2.waves.map (fun (e : Nat × Wave) => (e.1, if e.2.wg = x.wg ∧ e.2.task = g.task then fit e.2 else e.2)) }
    (((s3.unitsOf x.wg).foldl (fun (acc : State) u => acc.releaseUnit u) s3).acceptWaiting p.core).postAll
      [.matrixPass p.core, .segmentIssue p.core, .workgroupRetire x.wg]

/-- The gang tag of restored workgroups. -/
def State.restoreGang (s : State) (die : Nat) (ps : List (Saved × Spot)) : State :=
  let cl := clusterOfCore ((ps.head?.map (fun e => e.2.core)).getD 0)
  let ggt := s.freeGgt cl
  let s1 := ps.foldl (fun (acc : State) (e : Saved × Spot) => (acc.restoreGroup e.1 e.2).modWg e.1.wg (fun k => { k with ggt := ggt })) s
  s1.restored die

/-! ## The Dealer's step (R351, R367, R368) -/

/-- A granule of an image that lay on a core is one of the save area from now on. -/
def State.movedGranule (s : State) (core off area : Nat) : State :=
  let f : Option Nat × Nat → Option Nat × Nat := fun r => if r = (some core, off) then (none, area) else r
  { s with
    guests := Sparse.put s.guests core ((Sparse.get [] s.guests core).filter (· ≠ off)),
    written := s.written.map (fun (x : Nat × List (Option Nat × Nat)) => (x.1, x.2.map f)),
    saved := s.saved.map (fun x => { x with gran := x.gran.map f }) }

/-- Guest granules of a core moved to the save area, as far as it has room. -/
def State.moveGuests (s : State) (core : Nat) : State :=
  let die := dieOfCore core
  let taken := s.areaTaken die
  let area := ((List.range (fld (s.csrGet 0x201 die) 0 8 * 4096)).filter (fun i => !taken.contains (none, i)))
  ((Sparse.get [] s.guests core).zip area).foldl (fun (acc : State) (e : Nat × Nat) =>
    (acc.putGranule die (none, e.2) (acc.read (winBase core + e.1) 4096)).movedGranule core e.1 e.2) s

/-- Guest images of some cores make room, where any can. -/
def State.clearGuests (s : State) (cores : List Nat) : Option State :=
  let t := cores.foldl (fun (acc : State) c => acc.moveGuests c) s
  if t.guests = s.guests then none else some t

/-- A saved gang placed, if one can be, once the caches of its cores are empty (R151). -/
def State.placeSaved (s : State) (die : Nat) : Option State :=
  let xs := s.restoring die
  let gangs := (xs.map (fun x => ((s.wg x.wg).map (fun g => g.gang)).getD 0)).eraseDups
  gangs.findSome? (fun n =>
    let mine := xs.filter (fun x => ((s.wg x.wg).map (fun g => g.gang)).getD 0 == n)
    match s.restorePlaces die mine false with
    | some ps =>
      let cores := ps.map (fun e => e.2.core)
      if cores.all s.emptied then some ((s.restoreGang die ps).granted die) else s.vacate cores
    | none => match s.restorePlaces die mine true with
      | some ps => s.clearGuests (ps.map (fun e => e.2.core))
      | none => none)

/-- The first launch of the Dealer that can place something. -/
def State.placeLaunch (s : State) : List Nat → Option State
  | [] => none
  | t :: r => match s.tryLaunch t with
    | some (u, []) => some u
    | some (_, cs) => (match s.clearGuests cs with
      | some u => some u
      | none => s.placeLaunch r)
    | none => s.placeLaunch r

/-! ## Segments of waves under YIELDC (07/R160; log 46) -/

/-- Waves of a core under YIELDC whose segment the Dealer may take: none with an access or a result outstanding. -/
def State.lendable (s : State) (core : Nat) : List Nat :=
  (s.waves.filter (fun (e : Nat × Wave) => coreOfWave e.1 == core && e.2.hasSeg && !e.2.kitty && !e.2.retired &&
    (match e.2.status with
     | .yielded _ => true
     | _ => false) &&
    !s.ops.any (fun o => o.2.wave == e.1) && s.pendingRegs e.1 == [])).map (·.1)

/-- A wave's segment taken: its whole span spilled, and the granules freed that hold nothing of another wave. Without a
segment, LO and HI stand at what HI was. -/
def State.takeSegment (s : State) (id : Nat) : Option State :=
  let w := s.wave id
  let kept := s.waves.flatMap (fun (e : Nat × Wave) => if e.1 ≠ id ∧ e.2.wg = w.wg then e.2.segGran else [])
  match spillRegs ((List.range (w.hi - w.lo)).map (w.lo + ·)) id s with
  | .ok t => some ((t.modWave id (fun x => { x with lo := x.hi, hasSeg := false, segGran := [], segBase := 0 })).modWg w.wg
      (fun k => { k with segs := k.segs.filter (fun g => !w.segGran.contains g || kept.contains g) }))
  | _ => none

/-- A placement on a core that lacks nothing but register space (R159, R349). -/
def State.lacksSpace (s : State) (k : Task) (x : Kernel) (core : Nat) : Bool :=
  let mine := (s.wgs.filter (fun (e : Nat × Workgroup) => e.2.core == core)).map (fun (e : Nat × Workgroup) => e.2)
  s.coreIn core && !s.underScan core && decide ((mine.map (fun g => g.rings.length)).sum + x.rings.length ≤ 32) &&
    !(x.roles.contains .matrix && mine.any (fun g => g.tiles)) &&
    (lowestRun (s.freeGrans core false) ((x.l + x.s) / 4096)).isSome &&
    (placesFor core (12 - (s.kittyOn core).length) x.nwave (s.residents core)).isSome && (s.spot k x core false).isNone

/-- A segment taken for a launch. -/
def State.takeFor (s : State) (t : Nat) : Option State :=
  match s.task t with
  | none => none
  | some k => match k.kernel with
    | none => none
    | some x =>
      if k.stop || s.prectl k.die k.ctx || (s.areasFor t k (x.nwave * Nat.min k.gsz (k.nwg - k.nextWg))).isNone then none
      else (List.range 128).findSome? (fun c =>
        match s.lendable (128 * k.die + c) with
        | [] => none
        | l => if s.lacksSpace k x (128 * k.die + c) then l.findSome? s.takeSegment else none)

/-- A segment taken for the first launch that wants one, where the Dealer takes it. -/
def State.placeTaking (s : State) (die : Nat) : Option State :=
  if Config.takesSegment s.ticks then (Sparse.get [] s.dealer die).findSome? s.takeFor else none

def execWorkgroupPlace (die : Nat) (s : State) : Host.Outcome State Fault Refusal :=
  let t := if !s.dieServes die then none
    else if s.restoring die ≠ [] then s.placeSaved die
    else match s.placeLaunch (Sparse.get [] s.dealer die) with
      | some u => some u
      | none => s.placeTaking die
  match t with
  | some u => .next (u.postAll [.workgroupPlace die, .taskDispatch die])
  | none => .refused (.notEnabled "WORKGROUP_PLACE")

/-- A write to PRECTL (R363): SAVE, RESTORE, or its CTX field alone. -/
def State.writePrectl (s : State) (die : Nat) (v : Dword) : State :=
  let end_ : Host.Outcome State Fault Refusal → State := fun r => match r with
    | .next t => t
    | _ => s
  if fld v 0 2 = 1 then end_ (execPrectlSave die (fld v 48 8) s)
  else if fld v 0 2 = 2 then end_ (execPrectlRestore die (fld v 48 8) s)
  else s.csrPut 0x200 die (setFld (s.csrGet 0x200 die) 48 8 (fld v 48 8))

/-- CTXBASE (R366): a write while an image is being written, held or read is discarded. -/
def execCtxbaseWrite (die : Nat) (v : Dword) (s : State) : Host.Outcome State Fault Refusal :=
  if 1 ≤ s.preStatus die ∧ s.preStatus die ≤ 3 then .next s else .next (s.csrStore 0x201 die v)

end Sys2Proof.Machine
end

