-- ==== Sys2Proof/Machine/Flush.lean ====
section
/-! DEFINITION. What empties the L2: a write to L2MODE and its flush (04/R96), RGSET and its drain (03/R62, 13/R338); and
PTLD with its checks (03/R73, R74). -/

namespace Sys2Proof.Machine

/-! ## L2MODE (R96) -/

/-- Whether anything but the writer of L2MODE runs in the package. -/
def State.busyBut (s : State) (by_ : Option Nat) : Bool :=
  s.waves.any (fun (e : Nat × Wave) => real (coreOfWave e.1) && some e.1 != by_) ||
  s.copies.any (fun (e : Nat × Copy) => real (e.1 / 128)) ||
  s.engines.any (fun (e : Nat × Engine) => real e.1 && decide (e.2.ops ≠ [])) || decide (s.records ≠ []) ||
  s.tasks.any (fun (e : Nat × Task) =>
    !(decide (e.2.phase = .waiting ∨ e.2.phase = .queued ∨ e.2.phase = .kwait)) &&
    !(by_.any (fun id => (s.wave id).task == e.1)))

/-- Step 1 of an accepted write: every core's cache and every copy of a peer proxy is emptied. -/
def State.emptyCaches (s : State) : State :=
  let t := s.caches.foldl (fun (acc : State) (e : Nat × List CacheCopy) =>
    e.2.foldl (fun (a : State) c => a.giveBack e.1 c) acc) s
  { t with slices := t.slices.map (fun (e : Nat × Slice) =>
      (e.1, { e.2 with
        lines := e.2.lines.filter (fun l => targetOf l.line != .peer),
        ehz := (e.2.lines.filter (fun l => targetOf l.line == .peer)).foldl (fun acc l => Nat.max acc l.lh) e.2.ehz })) }

/-- A write to L2MODE, by a wave or by the host: refused, or the flush begins. -/
def State.writeL2mode (s : State) (v : Dword) (by_ : Option Nat) : State :=
  let set : State → Nat → State := fun t st => t.csrPut 0x50 0 (setFld (t.csrGet 0x50 0) 4 4 st)
  if s.flushing.isSome || s.busyBut by_ then set s 2
  else ({ set s 1 with flushing := some (fld v 0 1, false, by_) }).emptyCaches

/-- Steps 3 and 4: every slice takes the greatest horizon, the mode changes, and what was held goes on. -/
def State.endFlush (s : State) (v : Nat) (lost : Bool) : State :=
  let top := s.slices.foldl (fun acc (e : Nat × Slice) => Nat.max acc e.2.ehz) 0
  let held := s.slices.flatMap (fun (e : Nat × Slice) => e.2.wait)
  let t : State :=
    { s with flushing := none,
             slices := if top = 0 then [] else (List.range 1536).map (fun h => (h, { lines := [], ehz := top, wait := [], claims := [] })) }
  (t.csrPut 0x50 0 (dw (v + (if lost then 48 else 0)))).postAll (held ++ (List.range 4).map Instr.taskDispatch)

/-- One step of a flush under way, with no other event under way: a line evicted, or the end. -/
def State.flushStep (s : State) : Option State :=
  match s.flushing with
  | none => none
  | some (v, lost, _) =>
    if s.agenda ≠ [] then none
    else match s.slices.findSome? (fun (e : Nat × Slice) => (e.2.lines.find? (fun l => l.held.isNone)).map (fun l => (e.1, l))) with
      | some (h, ln) => some (s.evict h ln true)
      | none =>
        if s.slices.any (fun (e : Nat × Slice) => decide (e.2.lines ≠ [])) then none else some (s.endFlush v lost)

def execL2modeWrite (v : Dword) (by_ : Option Nat) (s : State) : Host.Outcome State Fault Refusal :=
  .next (s.writeL2mode v by_)

def execL2FlushComplete (s : State) : Host.Outcome State Fault Refusal :=
  match s.flushStep with
  | some t => .next t
  | none => .refused (.notEnabled "L2_FLUSH_COMPLETE")

/-! ## RGSET (R62, R338) -/

/-- The status with which RGSET refuses an entry, if it does: 2 BADFIELD, 1 BADTABLE. -/
def State.rangeBad (s : State) (w0 w1 : Dword) : Option Nat :=
  if fld w0 52 11 ≠ 0 ∨ fld w0 11 5 ≠ 0 ∨ fld w0 7 1 ≠ 0 ∨ fld w0 3 1 ≠ 0 ∨ fld w0 0 3 ≥ 6 ∨ fld w1 52 12 ≠ 0 ∨
      fld w1 0 16 ≠ 0 ∨ fld w0 16 36 > fld w1 16 36 ∨ fld w1 16 36 > 0x7FFFFF then some 2
  else if fld w0 63 1 = 1 ∧ fld w0 8 3 ≠ 0 ∧ (Sparse.find s.tables (fld w0 8 3)).isNone then some 1
  else none

/-- An accepted entry: it is installed, covered lines in a FREE state leave their slices, and the others are to drain. -/
def State.startRange (s : State) (e : Nat) (w0 w1 : Dword) : State :=
  let old := Sparse.get (0, 0) s.ranges e
  let mine : List (Nat × L2Line) := s.slices.flatMap (fun (x : Nat × Slice) =>
    (x.2.lines.filter (fun l => (rangeHolds old l.line || rangeHolds (w0, w1) l.line) && l.table != noTable &&
      targetOf l.line == .hbm)).map (fun l => (x.1, l)))
  let idle : Nat × L2Line → Bool := fun x => x.2.held.isNone && s.baseOf x.2 == 0
  let rest := mine.filter (fun x => !idle x)
  let d : RangeDrain :=
    { entry := e, w0 := old.1, w1 := old.2, wave := s.cur, lost := false, done := decide (rest = []),
      lines := rest.map (fun x => (x.1, x.2.line)) }
  (mine.filter idle).foldl (fun (acc : State) (x : Nat × L2Line) => match acc.lineAt x.1 x.2.line with
    | some l => acc.evictLine x.1 l
    | none => acc) { s with ranges := Sparse.put s.ranges e (w0, w1), drains := s.drains ++ [d] }

/-- Whether a line of a drain can be seen to now: it has left, or it can be evicted; one whose epoch or split row goes on
waits. -/
def State.drainable (s : State) (x : Nat × Nat) : Bool :=
  match s.lineAt x.1 x.2 with
  | none => true
  | some l => l.held.isNone && !(s.baseOf l == 3 && decide (l.count > 0))

/-- One step of a drain under way, with no other event under way. -/
def State.drainStep (s : State) : Option State :=
  if s.agenda ≠ [] then none
  else match s.drains with
    | [] => none
    | d :: rest =>
      let w := s.wave d.wave
      if d.done then (if w.status = .waiting ∧ w.stage = 1 then none else some { s with drains := rest })
      else if d.lines = [] then some { s with drains := { d with done := true } :: rest }
      else match d.lines.find? s.drainable with
        | none => none
        | some x =>
          let less := { s with drains := { d with lines := d.lines.filter (fun y => y != x) } :: rest }
          match s.lineAt x.1 x.2 with
          | none => some less
          | some l => if s.baseOf l = 0 then some (less.evictLine x.1 l) else some (s.evict x.1 l true)

def execRgsetDrainComplete (s : State) : Host.Outcome State Fault Refusal :=
  match s.drainStep with
  | some t => .next t
  | none => .refused (.notEnabled "RGSET_DRAIN_COMPLETE")

/-- Whether an operation reads a table's image. -/
def MemOp.isImage (o : MemOp) : Bool :=
  match o.kind with
  | .image _ _ => true
  | _ => false

/-- Whether a PTLD or an RGSET of the package has begun and not completed. -/
def State.loadingTable (s : State) : Bool :=
  decide (s.drains ≠ []) || s.ops.any (fun (e : Nat × MemOp) => e.2.isImage && !e.2.resume)

/-- The entry's words that RGSET names. -/
def Wave.rangeWords (w : Wave) (a : Nat) : Dword × Dword := (w.v64 a w.uniform, w.v64 (a + 2) w.uniform)

/-- RGSET waits for its turn, begins, and waits for its drain. -/
def State.rangePrep (s : State) (a e : Nat) : Move :=
  let w := s.curWave
  if w.stage = 1 then
    (match s.drains with
     | d :: _ => if d.done then .ok s else .wait s
     | [] => .ok s)
  else if s.loadingTable then .wait s
  else if (s.rangeBad (w.rangeWords a).1 (w.rangeWords a).2).isSome then .ok s
  else
    let t := (s.setCur { w with stage := 1 }).startRange e (w.rangeWords a).1 (w.rangeWords a).2
    match t.drains with
    | d :: _ => if d.done then .ok t else .wait t
    | [] => .ok t

def execRgset (d a : Reg) (e : Fin 64) (s : State) : Host.Outcome State Fault Refusal :=
  s.issueWith (.rgset d a e) none (fun t => t.rangePrep a e.val) (fun t =>
    match t.drains with
    | x :: rest => ({ t with drains := rest } : State).laneWrite (.rgset d a e) d 1 [] (fun _ => plain (if x.lost then 3 else 0))
    | [] => t.laneWrite (.rgset d a e) d 1 []
        (fun _ => plain ((t.rangeBad (s.curWave.rangeWords a).1 (s.curWave.rangeWords a).2).getD 0)))

/-! ## PTLD (R67, R73, R74, R338) -/

/-- Attribute of state `st`: transient, and base. -/
def tTransient (h : Dword) (st : Nat) : Bool := fld h (3 * st + 2) 1 == 1
def tBase (h : Dword) (st : Nat) : Nat := fld h (3 * st) 2

/-- Whether a request, host or internal event can be delivered in a state. -/
def delivered (h : Dword) (st ev : Nat) : Bool :=
  ev == 12 || ev == 13 ||
  (!tTransient h st && (decide (ev < 9) || (ev == 14 && tBase h st != 3) || (ev == 15 && tBase h st == 1)))

/-- The response that a row makes reachable in its next state. -/
def answers (r : Dword) (ev : Nat) : Bool :=
  (ev == 9 && (acts r 4 || acts r 5)) || (ev == 10 && acts r 6) || (ev == 11 && acts r 7)

/-- A table with its rows' indices. -/
def indexed (t : Table) : List (Nat × Dword) := t.rows.zipIdx.map (fun e => (e.2, e.1))

/-- One round of reachability: rows whose response a reachable row calls for. -/
def reachMore (t : Table) (reach : List Nat) : List Nat :=
  (List.range 128).filter (fun i => reach.contains i ||
    (tTransient t.header (i / 16) && (indexed t).any (fun r => reach.contains r.1 && rowNext r.2 == i / 16 && answers r.2 (i % 16))))

/-- The reachable rows (R67): at most 24 response rows can become so, one round each. -/
def reachFrom (t : Table) : Nat → List Nat → List Nat
  | 0, r => r
  | n + 1, r => if reachMore t r = r then r else reachFrom t n (reachMore t r)

def liveRows (t : Table) : List Nat :=
  reachFrom t 24 ((List.range 128).filter (fun i => delivered t.header (i / 16) (i % 16)))

/-- Actions that R68 allows on an event, as a mask. -/
def allowed (ev : Nat) : Nat :=
  match ev with
  | 0 => 0x80DF
  | 1 => 0x80D1
  | 2 => 0xB1F0
  | 3 => 0xB1F0
  | 4 => 0xB2F0
  | 5 => 0x84D3
  | 6 => 0xA8F0
  | 7 => 0x9800
  | 8 => 0x91D0
  | 10 => 0x1100
  | 11 => 0x1100
  | 12 => 0x4004
  | 13 => 0x2100
  | 14 => 0x10D0
  | _ => 0

/-- ACTION. -/
def actionBad (ev : Nat) (r : Dword) : Bool :=
  fld r 16 16 &&& (0xFFFF - allowed ev) != 0 || (acts r 15 && (fld r 16 16 != 0x8000 || rowMsg r != 0)) ||
  (ev == 4 && acts r 5 && (acts r 4 || acts r 6 || acts r 7))

/-- GRANT (R69). -/
def grantBad (cls ev : Nat) (r : Dword) : Bool :=
  (match rowMsg r with
   | 1 => !(acts r 0 && (acts r 1 != acts r 3))
   | 2 => !(acts r 0 && acts r 2)
   | 3 => !(acts r 0 && acts r 10 && acts r 1 && cls == 2)
   | 4 => acts r 0 || acts r 9
   | 5 => !(acts r 0 || acts r 9)
   | _ => false) ||
  (decide (ev < 9) && ev != 7 && !forwards r && rowMsg r == 0 && !acts r 15)

/-- DOUBLE. -/
def doubleBad (h : Dword) (st : Nat) (r : Dword) : Bool :=
  fld h 56 8 == 0 && tBase h st == 2 && (acts r 2 || rowMsg r == 2) && !acts r 6 && !acts r 7

/-- RESPREQ. -/
def respBad (ev : Nat) (r : Dword) : Bool := decide (9 ≤ ev) && decide (ev ≤ 13) && (forwards r || acts r 15)

/-- STATE. -/
def stateBad (h : Dword) (st ev : Nat) (r : Dword) : Bool :=
  let n := rowNext r
  let hostT := (ev == 12 || ev == 13) && tTransient h st
  (forwards r && !tTransient h n) || (!forwards r && tTransient h n && !hostT) || (hostT && n != st) ||
  (decide (9 ≤ ev) && decide (ev ≤ 11) && (tTransient h n || tBase h n != tBase h st)) ||
  ((acts r 2 || rowMsg r == 2) && tBase h n != 2) || (acts r 10 && tBase h n != 3) ||
  (ev == 14 && !forwards r && tBase h n != 0)

/-- The status word for a failing check: its code and the lowest row at which it fails. -/
def firstBad (rows : List (Nat × Dword)) (code : Nat) (f : Nat → Nat → Dword → Bool) : Option Nat :=
  (rows.find? (fun x => f (x.1 / 16) (x.1 % 16) x.2)).map (fun x => code * 2 ^ 24 + x.1 * 2 ^ 16)

/-- The status word of PTLD for a table number and an image (R73, R74); 0 is success. -/
def State.tableStatus (s : State) (n : Nat) (t : Table) : Nat :=
  let h := t.header
  let rows := indexed t
  let live := rows.filter (fun x => (liveRows t).contains x.1)
  if n = 0 ∨ s.ranges.any (fun (e : Nat × Dword × Dword) => fld e.2.1 63 1 == 1 && fld e.2.1 8 3 == n) then 0x09FF0000
  else if fld h 56 8 > 2 ∨ fld h 24 32 ≠ 0 ∨ fld h 0 3 ≠ 0 then 0x01FF0000
  else
    ((firstBad rows 2 (fun _ _ r => fld r 63 1 == 0)).orElse (fun _ =>
      (firstBad rows 3 (fun _ _ r => fld r 32 19 != 0 || fld r 0 16 != 0 || decide (rowMsg r > 5))).orElse (fun _ =>
        (firstBad live 10 (fun _ _ r => decide (rowLease r ≥ 9))).orElse (fun _ =>
          (firstBad live 4 (fun _ ev r => actionBad ev r)).orElse (fun _ =>
            (firstBad live 5 (fun _ ev r => grantBad (fld h 56 8) ev r)).orElse (fun _ =>
              (firstBad live 6 (fun st _ r => doubleBad h st r)).orElse (fun _ =>
                (firstBad live 7 (fun _ ev r => respBad ev r)).orElse (fun _ =>
                  firstBad live 8 (fun st ev r => stateBad h st ev r))))))))).getD 0

/-- An image of 1,032 bytes as a table. -/
def imageTable (bs : List Byte) : Table :=
  { header := dw (ofBytes (bs.take 8)), rows := (List.range 128).map (fun i => dw (ofBytes ((bs.drop (8 + 8 * i)).take 8))) }

def execPtld (d a : Reg) (n : Low) (s : State) : Host.Outcome State Fault Refusal :=
  s.issueWith (.ptld d a n) none (fun t => if t.loadingTable then .wait t else .ok t) (fun t =>
    let w := t.curWave
    t.startOp
      { wave := t.cur, kind := .image n.val w.uniform, pc := w.pc - 4, iword := encode (.ptld d a n), frame := none,
        dst := [w.wb + d.val], size := 1, hint := .nl, order := .plain, scope := none, count := none, seq := w.seq,
        gmode := w.gmode, replay := false, resume := false, npc := 0, cdepth := w.cdepth,
        lanes := (List.range 1032).map (fun i =>
          { lane := i, va := w.v64 a w.uniform + dw i, phase := .xlate, data := [], cmp := [], key := none }) })

/-- An image that has been read whole: checked, installed, its status word written. -/
def State.ptldFinish (s : State) : Option State :=
  match s.ops.find? (fun (e : Nat × MemOp) => e.2.isImage && !e.2.resume && e.2.lanes.all (fun x => decide (x.phase = .fin))) with
  | none => none
  | some (id, o) =>
    match o.kind with
    | .image n _ =>
      let t := imageTable (o.lanes.flatMap (fun x => x.data))
      let st := s.tableStatus n t
      let s1 := if st = 0 then { s with tables := Sparse.put s.tables n t } else s
      some ((s1.modLive o.wave (fun w => o.dst.foldl (fun (acc : Wave) j =>
        (List.range w.width).foldl (fun (b : Wave) l => if w.active l then b.setLmark j l .none else b)
          (acc.lwrite j (fun l => if w.active l then some (wd st) else none))) w)).dropOp id o.wave)
    | _ => none

end Sys2Proof.Machine
end

