-- ==== Sys2Proof/Machine/Migrate.lean ====
section
/-! DEFINITION. Page migration: the request ring (13/R342), a migration's steps (02/R51, R52) and the release of the
units that wait on it (02/R53). -/

namespace Sys2Proof.Machine

/-- Bytes of the page of a migration. -/
def Migration.bytes (m : Migration) : Nat := if m.size = 1 then 2 ^ 21 else 2 ^ 16

/-- The old frame. -/
def Migration.source (m : Migration) : Nat := fld m.oldv 16 36 * 65536

/-- Whether a line belongs to the old frame. -/
def Migration.holds (m : Migration) (s : State) (line : Nat) : Bool :=
  (List.range (m.bytes / 4096)).any (fun i =>
    decide (s.place (m.source + 4096 * i) ≤ line) && decide (line < s.place (m.source + 4096 * i) + 4096))

/-- A request's STATUS written by a die's engine. -/
def State.migStatus (s : State) (die req st : Nat) : State := s.devWrite (dieCore die) (req + 0x19) (toBytes 1 st)

/-- Every translation that came from a leaf is gone (R52, R39). -/
def State.shootDown (s : State) (leafPA : Nat) : State :=
  let t := s.clearFrames (fun _ _ f => f.v && f.leaf == leafPA)
  let keep : List TlbEntry → List TlbEntry := fun es => es.filter (fun e => e.leafA != leafPA)
  { t with l1tlb := t.l1tlb.map (fun (e : Nat × List TlbEntry) => (e.1, keep e.2)),
           l2tlb := t.l2tlb.map (fun (e : Nat × List TlbEntry) => (e.1, keep e.2)) }

/-- C copies of the old frame checked in, so that every store made through the old leaf reaches its home. -/
def State.checkInPage (s : State) (m : Migration) : State :=
  s.caches.foldl (fun (acc : State) (e : Nat × List CacheCopy) =>
    (e.2.filter (fun c => decide (c.kind = .c) && m.holds s c.line)).foldl (fun (a : State) c => a.checkIn e.1 c []) acc) s

/-- Whether no part of a page is served (R13, R431). -/
def State.unservedPage (s : State) (pa n : Nat) : Bool := (List.range (n / 4096)).any (fun i => s.unserved (pa + 4096 * i))

/-- A request taken: refused, found changed, or begun. What its reserved bits and the low bits of LEAFPA hold, and LEAFPA's
bits above 51, are not looked at (log 118). -/
def State.takeRequest (s : State) (die req : Nat) : State :=
  let ring : Nat → Nat → Nat := s.newestNat (dieCore die)
  let leafPA := ring req 8 % 2 ^ 52 / 8 * 8
  let oldv := dw (ring (req + 8) 8)
  let dest := ring (req + 16) 8
  let sz := ring (req + 24) 1 % 4
  let at_ := s.place leafPA
  let tgt := targetOf (dest % 2 ^ 52)
  if sz > 1 ∨ dest ≥ 2 ^ 52 ∨ dest % (if sz = 1 then 2 ^ 21 else 2 ^ 16) ≠ 0 ∨
      !(tgt == .hbm || tgt == .alias_ || tgt == .host) ∨ fld oldv 13 2 = 3 ∨ !agrees dest (fld oldv 13 2) (fld oldv 8 2) then s.migStatus die req 5
  else if dw (ring leafPA 8) ≠ oldv then s.migStatus die req 2
  else
    let m : Migration :=
      { id := s.nextId, req := req, leafPA := at_, oldv := oldv, dest := dest, size := sz, drained := false, waiters := [] }
    let s1 := (({ s with nextId := s.nextId + 1 }.devWrite (dieCore die) leafPA (toBytes 8 (setFld oldv 58 2 1).toNat)).shootDown at_).checkInPage m
    { s1 with migs := Sparse.put s1.migs die (Sparse.get [] s1.migs die ++ [m]) }

/-- The request at the head of a die's ring. -/
def State.nextRequest (s : State) (die : Nat) : Nat :=
  fld (s.csrGet 0x70 die) 13 39 * 8192 + 32 * fld (s.csrGet 0x71 die) 0 8

/-- Whether a die's engine takes a request now: the engine of a failed die takes none (R13), and a request or a leaf in HBM
that nothing serves waits (R431). -/
def State.mayTake (s : State) (die : Nat) : Bool :=
  !s.unserved (s.nextRequest die) && !s.unserved (s.newestNat (dieCore die) (s.nextRequest die) 8 % 2 ^ 52 / 8 * 8) &&
  s.failed / 2 ^ die % 2 == 0 && fld (s.csrGet 0x70 die) 0 1 == 1 && fld (s.csrGet 0x71 die) 0 8 != fld (s.csrGet 0x71 die) 8 8 &&
  decide ((Sparse.get [] s.migs die).length < 16)

def execMigrationTake (die : Nat) (s : State) : Host.Outcome State Fault Refusal :=
  if !s.mayTake die then .refused (.notEnabled "MIGRATION_TAKE")
  else
    let p := s.csrGet 0x71 die
    .next (((s.csrPut 0x71 die (setFld p 0 8 (fld p 0 8 + 1))).takeRequest die (s.nextRequest die)).post (.migrationTake die))

/-- A migration of a die. -/
def State.migration (s : State) (die id : Nat) : Option Migration := (Sparse.get [] s.migs die).find? (fun m => m.id == id)

def State.modMig (s : State) (die id : Nat) (f : Migration → Migration) : State :=
  { s with migs := Sparse.put s.migs die ((Sparse.get [] s.migs die).map (fun m => if m.id = id then f m else m)) }

/-- Whether every access that translated through the old leaf has reached its home (R52). -/
def State.hasDrained (s : State) (m : Migration) : Bool := !s.underWay (m.holds s)

/-- Whether a byte of the old frame is poisoned by an uncorrectable error; what is poisoned by its tag alone moves
(R392). -/
def State.badSource (s : State) (m : Migration) : Bool :=
  s.poison.any (fun (e : Nat × Mark) => decide (e.2.origin ≠ 9) && m.holds s (e.1 / 128 * 128))

def execMigrationDrained (die id : Nat) (s : State) : Host.Outcome State Fault Refusal :=
  match s.migration die id with
  | some m =>
    if m.drained ∨ !s.hasDrained m then .refused (.notEnabled "MIGRATION_DRAINED")
    else .next ((s.modMig die id (fun m => { m with drained := true })).post
      (.migrationCopyDone die id (if s.badSource m then .badSource else .good)))
  | none => .refused (.notEnabled "MIGRATION_DRAINED")

/-- The page copied line by line through the L2, by the engine of a die. -/
def copyLines (die src dst : Nat) : Nat → State → State
  | 0, s => s
  | n + 1, s =>
    let t := copyLines die src dst n s
    t.devWrite (dieCore die) (dst + 128 * n) ((List.range 128).map (fun i => t.newest (dieCore die) (src + 128 * n + i)))

/-- The lines of the old frame given up, in the L2 and in every cache; leases that still run are not forgotten
(R60). -/
def State.dropFrame (s : State) (m : Migration) : State :=
  { s with
    caches := s.caches.map (fun (e : Nat × List CacheCopy) => (e.1, e.2.filter (fun c => !m.holds s c.line))),
    slices := s.slices.map (fun (e : Nat × Slice) => (e.1, { e.2 with
      lines := e.2.lines.filter (fun l => !m.holds s l.line),
      ehz := (e.2.lines.filter (fun l => m.holds s l.line)).foldl (fun acc l => Nat.max acc l.lh) e.2.ehz })) }

/-- The tags after a move: those of the destination's granules are computed afresh, so they agree with its sectors, and
the old frame is no encrypted page any more; its tag poison stays behind nowhere (R391, R392). -/
def State.retagged (s : State) (m : Migration) : State :=
  let inDest : Nat → Bool := fun a => inRange (m.dest, m.bytes) (dieLocal a)
  let kept := s.encs.filter (fun e => !m.holds s (dieLocal e.1) && e.1 != m.dest)
  { s with
    poison := s.poison.filter (fun (e : Nat × Mark) => !m.holds s (e.1 / 128 * 128)),
    tagDiff := s.tagDiff.filter (fun (e : Nat × Dword) => !inDest e.1 && !m.holds s (dieLocal e.1)),
    encs := if fld m.oldv 57 1 = 1 ∧ (targetOf m.dest = .hbm ∨ targetOf m.dest = .alias_) then (m.dest, m.bytes) :: kept else kept }

/-- The compare-and-exchange by a die's engine that ends a migration: the leaf takes a frame and MS 0, A and D as
found. -/
def State.endLeaf (s : State) (die : Nat) (m : Migration) (pa : Nat) : Option State :=
  let cur := dw (s.newestNat (dieCore die) m.leafPA 8)
  if setFld cur 6 2 0 = setFld (setFld m.oldv 58 2 1) 6 2 0 then
    some (s.devWrite (dieCore die) m.leafPA (toBytes 8 (setFld (setFld cur 58 2 0) 16 36 (pa / 65536)).toNat))
  else none

def execMigrationCopyDone (die id : Nat) (how : CopyEnd) (s : State) : Host.Outcome State Fault Refusal :=
  match s.migration die id with
  | some m =>
    if !m.drained ∨ s.unservedPage m.source m.bytes ∨ (s.mode = .ochre ∧ s.unservedPage m.dest m.bytes) then
      .refused (.notEnabled "MIGRATION_COPY_DONE")
    else
      let end_ := if s.badSource m then CopyEnd.badSource else if s.unservedPage m.dest m.bytes then .badDest else how
      let s1 := match end_ with
        | .good =>
          let c := (copyLines die m.source m.dest (m.bytes / 128) s).dropFrame m
          (match c.endLeaf die m m.dest with
           | some t => (t.retagged m).migStatus die m.req 1
           | none => c.migStatus die m.req 2)
        | .badSource => ((s.endLeaf die m m.source).getD s).migStatus die m.req 3
        | .badDest => ((s.endLeaf die m m.source).getD s).migStatus die m.req 4
      let s2 := { s1 with migs := Sparse.put s1.migs die ((Sparse.get [] s1.migs die).filter (fun x => x.id != id)) }
      .next ((m.waiters.foldl (fun (acc : State) u => acc.releaseUnit u) s2).post (.migrationTake die))
  | none => .refused (.notEnabled "MIGRATION_COPY_DONE")

end Sys2Proof.Machine
end

