-- ==== Sys2Proof/Machine/Platform.lean ====
section
/-! DEFINITION. Writes to system registers, by CSRW and by the host (13/R340 to R342, 21/R427, R437, and the rules of
single registers); the scan test (21/R438), bring-up and power (21/R431 to R433), Tosor (21/R429, R430), the host's
windows (21/R426, R428), the attestation mailbox (21/R434 to R436), the scrubber (15/R392) and triggers (15/R395). -/

namespace Sys2Proof.Machine

/-! ## What waits goes on -/

/-- What a die that now serves, or memory that is now served, lets go on: requests held at homes, pushes held at their
targets, walks, loads of code objects, migrations (R431, R13). -/
def State.release (s : State) : State :=
  let held := s.slices.flatMap (fun (e : Nat × Slice) => e.2.wait)
  let loads := (s.tasks.filter (fun (e : Nat × Task) => decide (e.2.phase = .loading))).map (fun (e : Nat × Task) => Instr.objectLoad e.2.die e.1)
  let moves := s.migs.flatMap (fun (e : Nat × List Migration) =>
    (e.2.filter (fun m => m.drained)).map (fun m => Instr.migrationCopyDone e.1 m.id (if s.badSource m then .badSource else .good)))
  ({ s with slices := s.slices.map (fun (e : Nat × Slice) => (e.1, { e.2 with wait := [] })) }.postAll
    (held ++ s.walks.map Instr.walkComplete ++ loads ++ (List.range 4).map Instr.migrationTake ++ moves)).retryPushes

/-- An EVENT record that the device pushes to PLCFG.EVQW; its KIX is 0, which no rule gives (log 40). -/
def State.pushEvent (s : State) (die code arg : Nat) : State :=
  s.post (.taskPush
    { by_ := .device, words := [dw (3 * 2 ^ 60 + 2 ^ 59), 0, 0, 0, 0, dw code, dw arg, 0], qw := wd (s.csrGet 0x401 0).toNat,
      count := 0, failed := false, src := 0, priv := true, die := die })

/-! ## Registers with rules of their own -/

/-- TWLOG: V written 1 clears V and CNT (R81). -/
def State.writeTwlog (s : State) (die : Nat) (v : Dword) : State :=
  if fld v 0 1 = 1 then s.csrPut 0x40 die (setFld (setFld (s.csrGet 0x40 die) 0 1 0) 52 12 0) else s

/-- PRBASE: refused while a record of the die is live, or where a valid pool would lie outside the die's HBM; once a pool is
valid, detached units are written, the longest detached first, and the next exhaustion is logged again (R341, R374). -/
def State.writePrbase (s : State) (die : Nat) (v : Dword) : State :=
  if s.records.any (fun (e : Nat × Record) => e.1 / 4096 == die) ∨ (fld v 0 1 = 1 ∧ fld v 23 29 * 2 ^ 23 / 2 ^ 37 ≠ die) then s
  else
    let t := s.csrStore 0x80 die v
    if fld v 0 1 = 1 then { t with recwait := Sparse.put t.recwait die false } else t

/-- MRBASE: BASE stands while EN is 1 (R342). -/
def State.writeMrbase (s : State) (die : Nat) (v : Dword) : State :=
  let old := s.csrGet 0x70 die
  (s.csrStore 0x70 die (if fld old 0 1 = 1 then setFld v 13 39 (fld old 13 39) else v)).post (.migrationTake die)

/-- TQBASE: discarded while a record is in the pool (R371). -/
def State.writeTqbase (s : State) (die : Nat) (v : Dword) : State :=
  if s.poolUsed die ≠ 0 then s else s.csrStore 0x202 die v

/-- KCFG: refused while a context is not FREE, or for a field beyond its limits (R381). -/
def State.writeKcfg (s : State) (die : Nat) (v : Dword) : State :=
  let busy := (List.range 64).any (fun i => decide (Sparse.get KState.free s.kitty (die * 64 + i) ≠ .free))
  if busy ∨ fld v 8 8 < 2 ∨ fld v 8 8 > 64 ∨ fld v 4 2 < 1 ∨ fld v 4 2 > 3 ∨ fld v 0 4 < 1 ∨ fld v 0 4 > 8 then
    s.csrPut 0x382 die (setFld (s.csrGet 0x382 die) 32 1 1)
  else s.csrStore 0x380 die v

/-! ## The scan test (R438) -/

def State.scanResult (s : State) (die res : Nat) : State := s.csrPut 0x430 die (setFld (s.csrGet 0x430 die) 20 4 res)

/-- SCANCTL: with GO a test begins, unless one runs or the core is not in the map. -/
def State.writeScan (s : State) (die : Nat) (v : Dword) : State :=
  let t := s.csrStore 0x430 die v
  let core := 128 * die + fld v 0 7
  if fld v 7 1 = 0 then t
  else if (Sparse.find s.scans die).isSome ∨ !s.coreIn core then t.scanResult die 4
  else { t.scanResult die 0 with scans := Sparse.put t.scans die { core := core, alevel := fld v 16 4, begun := false } }

/-- Steps 1 and 2 of a test: guest images leave the core, and once nothing is left on it its pattern begins. -/
def State.scanStep (s : State) (die : Nat) : Option State :=
  match Sparse.find s.scans die with
  | none => none
  | some x =>
    if x.begun then none
    else
      let t := s.moveGuests x.core
      if s.wgs.any (fun (e : Nat × Workgroup) => e.2.core == x.core) ∨ s.residents x.core ≠ [] ∨
          Sparse.get [] t.guests x.core ≠ [] then (if t.guests = s.guests then none else some t)
      else some { t with scans := Sparse.put t.scans die { x with begun := true } }

def execScanTestStart (die : Nat) (v : Dword) (s : State) : Host.Outcome State Fault Refusal :=
  .next (s.writeScan die (setFld v 7 1 1))

def execScanPatternStart (die : Nat) (s : State) : Host.Outcome State Fault Refusal :=
  match s.scanStep die with
  | some t => .next t
  | none => .refused (.notEnabled "SCAN_PATTERN_START")

/-- The pattern's end: PASS returns the core, FAIL removes it and pushes the event. -/
def execScanTestComplete (die : Nat) (pass : Bool) (s : State) : Host.Outcome State Fault Refusal :=
  match Sparse.find s.scans die with
  | some x =>
    if !x.begun then .refused (.notEnabled "SCAN_TEST_COMPLETE")
    else
      let t := { s with scans := Sparse.erase s.scans die }
      if pass then .next ((t.scanResult die 1).post (.workgroupPlace die))
      else .next ((({ t with cores := t.cores ++ [x.core] }.scanResult die 2).pushEvent die 2 x.core).post (.workgroupPlace die))
  | none => .refused (.notEnabled "SCAN_TEST_COMPLETE")

/-! ## The write of a register (R7, R340, R341, R427) -/

/-- A register written, by a wave or by the host: under its own rule, or bit by bit. -/
def State.writeCsr (s : State) (num inst : Nat) (v : Dword) (by_ : Option Nat) : State :=
  if num = 0x50 then s.writeL2mode v by_
  else if num = 0x40 then s.writeTwlog inst v
  else if num = 0x70 then s.writeMrbase inst v
  else if num = 0x71 then (s.csrStore 0x71 inst v).post (.migrationTake inst)
  else if num = 0x80 then s.writePrbase inst v
  else if num = 0xA0 then s.csrPut 0xA0 inst 0
  else if num = 0x200 then s.writePrectl inst v
  else if num = 0x201 then (if 1 ≤ s.preStatus inst ∧ s.preStatus inst ≤ 3 then s else s.csrStore 0x201 inst v)
  else if num = 0x202 then s.writeTqbase inst v
  else if num = 0x380 then s.writeKcfg inst v
  else if num = 0x430 then s.writeScan inst v
  else s.csrStore num inst v

def execTwlogClear (die : Nat) (v : Dword) (s : State) : Host.Outcome State Fault Refusal := .next (s.writeTwlog die v)
def execPrbaseWrite (die : Nat) (v : Dword) (s : State) : Host.Outcome State Fault Refusal := .next (s.writePrbase die v)
def execSiglostClear (die : Nat) (s : State) : Host.Outcome State Fault Refusal := .next (s.csrPut 0xA0 die 0)
def execMrbaseWrite (die : Nat) (v : Dword) (s : State) : Host.Outcome State Fault Refusal := .next (s.writeMrbase die v)
def execTqbaseWrite (die : Nat) (v : Dword) (s : State) : Host.Outcome State Fault Refusal := .next (s.writeTqbase die v)
def execKcfgWrite (die : Nat) (v : Dword) (s : State) : Host.Outcome State Fault Refusal := .next (s.writeKcfg die v)

/-! ## Keys and the mailbox (R434 to R436) -/

/-- A digest's agreement with the fused hash of a slot. -/
def fused (slot : Nat) (key : List Byte) : Bool := Config.sha3 key == (List.range 32).map (fun i => Config.fusedHash slot i)

/-- A command ends in ERROR. -/
def State.mailFail (s : State) (st : Nat) : State :=
  { s with mailbox := { s.mailbox with state := 3, status := st, outlen := 0, output := [] } }

/-- A command ends in DONE with a result. -/
def State.mailDone (s : State) (out : List Byte) : State :=
  { s with mailbox := { s.mailbox with state := 2, status := 0, outlen := out.length, output := out } }

/-- Input bytes. -/
def State.mailIn (s : State) (off n : Nat) : List Byte := (List.range n).map (fun i => Sparse.get 0 s.mailbox.input (off + i))

/-- Whether the input's signature verifies under the slot-0 key, over its first 4 bytes and the identity key. -/
def State.mailSigned (s : State) : Bool :=
  match Sparse.find s.keys 0 with
  | some k => Config.verifies k (Config.sha3 (s.mailIn 0 4 ++ (List.range 1312).map (fun i => Config.identityKey i))) (s.mailIn 4 2420)
  | none => false

/-- The report of QUOTE without its signature. -/
def State.report (s : State) : List Byte :=
  toBytes 8 id0.toNat ++ toBytes 8 s.id1.toNat ++ toBytes 8 s.fsvn ++
  toBytes 8 (maskOf 4 (fun i => s.revoked.contains i) + 256 * maskOf 4 (fun i => (Sparse.find s.keys i).isSome)) ++
  (List.range 32).map (fun i => Config.firmwareHash i) ++
  (List.range 4).flatMap (fun k => (List.range 32).map (fun i => Config.fusedHash k i)) ++ s.mailIn 0 32

/-- A command of the mailbox, whole; where several checks fail, the length comes first and the signature next (log 41). -/
def State.mailCommand (s : State) (cmd : Nat) : State :=
  let need := if cmd = 1 then 32 else if cmd = 2 ∨ cmd = 3 then 2424 else if cmd = 4 then 1316 else 0
  let n := ofBytes (s.mailIn 0 4)
  if cmd = 0 ∨ cmd > 5 then s.mailFail 4
  else if s.mailbox.inlen ≠ need then s.mailFail 3
  else if cmd = 1 then s.mailDone (s.report ++ (List.range 2420).map (fun i => Config.identitySign (Config.sha3 s.report) i))
  else if cmd = 5 then s.mailDone ((List.range 1312).map (fun i => Config.identityKey i))
  else if cmd = 4 then
    (if n = 0 ∨ n > 3 ∨ s.revoked.contains n then s.mailFail 5
     else if !fused n (s.mailIn 4 1312) then s.mailFail 6
     else { s with keys := Sparse.put s.keys n (s.mailIn 4 1312) }.mailDone [])
  else if !s.mailSigned then s.mailFail 1
  else if cmd = 2 then
    (if n > 63 then s.mailFail 2 else if n ≤ s.fsvn then s.mailDone [] else (s.csrPut 0x420 0 (dw n)).mailDone [])
  else if n = 0 ∨ n > 3 ∨ s.revoked.contains n then s.mailFail 5
  else { s with revoked := s.revoked ++ [n], keys := Sparse.erase s.keys n }.mailDone []

def execQuote (s : State) : Host.Outcome State Fault Refusal := s.hostEvent "QUOTE" (s.mailCommand 1)
def execAdvsvn (s : State) : Host.Outcome State Fault Refusal := s.hostEvent "ADVSVN" (s.mailCommand 2)
def execRevoke (s : State) : Host.Outcome State Fault Refusal := s.hostEvent "REVOKE" (s.mailCommand 3)
def execSetkey (s : State) : Host.Outcome State Fault Refusal := s.hostEvent "SETKEY" (s.mailCommand 4)
def execIdkey (s : State) : Host.Outcome State Fault Refusal := s.hostEvent "IDKEY" (s.mailCommand 5)

/-- A 4-byte host write at an offset of the mailbox: CMD, INLEN and IN take it. -/
def State.mailWrite (s : State) (off : Nat) (v : Dword) : State :=
  if off = 0 then s.mailCommand (fld v 0 32)
  else if off = 8 then { s with mailbox := { s.mailbox with inlen := fld v 0 32 } }
  else if 0x10 ≤ off ∧ off < 0x1000 ∧ off % 4 = 0 then
    { s with mailbox := { s.mailbox with
        input := (toBytes 4 (fld v 0 32)).zipIdx.foldl (fun acc e => Sparse.set 0 acc (off - 0x10 + e.2) e.1) s.mailbox.input } }
  else s

/-- A 4-byte value of the mailbox as the host reads it (R436). -/
def State.mailWord (s : State) (off : Nat) : Nat :=
  if off = 4 then s.mailbox.state % 4 + 256 * s.mailbox.status
  else if off = 8 then s.mailbox.inlen
  else if off = 12 then s.mailbox.outlen
  else if off < 16 then 0
  else if off < 0x1000 then ofBytes (s.mailIn (off - 16) 4)
  else ofBytes ((List.range 4).map (fun i => s.mailbox.output.getD (off - 0x1000 + i) 0))

/-- PLSTAT as BAR0 shows it, with MODE (R431). -/
def State.plstatBar (s : State) : Dword :=
  setFld (s.csrRead 0x400 0) 62 2 (match s.mode with
    | .reset => 0
    | .ochre => 1
    | .full => 2
    | .degraded => 3)

/-- The 8 bytes at a multiple of 8 in BAR0 as the host reads them (R17, R426 to R428, R436); what is reserved or write only
reads zero. -/
def State.barQuad (s : State) (o : Nat) : Dword :=
  let num := (o - 0x10000000) % 0x80000 / 8
  let inst := (o - 0x10000000) / 0x80000
  let slot := Sparse.get EnqSlot.empty s.windows (o / 0x1000 * 16 + o % 0x1000 / 0x80)
  if o < 0x4000 then
    (if o % 0x1000 ≥ 0x800 then 0
     else if o % 0x80 < 0x40 then slot.words.getD (o % 0x80 / 8) 0
     else if o % 0x80 = 0x40 then dw (slot.qw.toNat + slot.dcnt % 65536 * 2 ^ 32)
     else if o % 0x80 = 0x50 then dw (slot.state + 256 * slot.code)
     else 0)
  else if o = 0x10000 then id0
  else if o = 0x10008 then s.id1
  else if o = 0x10100 then s.plstatBar
  else if 0x20000 ≤ o ∧ o < 0x22000 then dw (s.mailWord (o - 0x20000) + s.mailWord (o - 0x20000 + 4) * 2 ^ 32)
  else if 0x10000000 ≤ o ∧ o < 0x18000000 then
    (match csrInsts num with
     | none => 0
     | some n => if inst ≥ n ∨ (0x90 ≤ num ∧ num ≤ 0x92) then 0 else if num = 0x400 then s.plstatBar else s.csrRead num inst)
  else 0

/-- What a host read at an offset of BAR0 gives: 8 bytes, or, at an odd multiple of 4 below the register window, the 4 bytes
that stand there (R427, R436). -/
def State.barRead (s : State) (o : Nat) : Dword :=
  if o % 8 = 0 then s.barQuad o
  else if o % 8 = 4 ∧ o < 0x10000000 then dw (fld (s.barQuad (o - 4)) 32 32)
  else 0

/-- A host read of BAR0 answered (R426, R427): the value goes to the host, and a read of SNAPDATA advances SNAPSEL (R396). -/
def State.hostRead (s : State) (o : Nat) : State :=
  let t := { s with sent := s.sent ++ [{ who := .host 0, kind := .register, line := o, data := toBytes 8 (s.barRead o).toNat,
                                         old := 0, expiry := 0, wct := 0, due := s.gt, left := 0 }] }
  if o = 0x10000000 + 8 * 0x3C4 then t.snapNext else t

/-- A host access to BAR0 (R426, R427): a write to a system register, or, with NUM 0x20000 + o, of 4 bytes at offset o of the
mailbox, or, with NUM 2^32 + o, a read at offset o (log 106). -/
def execRegisterWrite (num inst : Nat) (v : Dword) (s : State) : Host.Outcome State Fault Refusal :=
  if 2 ^ 32 ≤ num ∧ s.powered then .next (s.hostRead (num - 2 ^ 32))
  else s.hostEvent "REGISTER_WRITE"
    (if 0x20000 ≤ num ∧ num < 0x22000 then s.mailWrite (num - 0x20000) v
     else match csrInsts num with
       | none => s
       | some n => if inst ≥ n ∨ (0x90 ≤ num ∧ num ≤ 0x92) then s else s.writeCsr num inst v none)

/-! ## The enqueue windows (R428) -/

/-- A write to DOOR: the push begins, unless one is under way. What SRCVA a push from a window has is not stated (log 42). -/
def execDoor (die slot : Nat) (s : State) : Host.Outcome State Fault Refusal :=
  let x := Sparse.get EnqSlot.empty s.windows (die * 16 + slot)
  if !s.powered || decide (die > 3) || decide (slot > 15) then .refused (.notEnabled "DOOR")
  else if s.mode = .reset ∨ x.state = 1 then .next s
  else .next (((s.setSlot die slot (fun y => { y with state := 1 })).draw).post (.taskPush
    { by_ := .window die slot, words := x.words, qw := x.qw, count := x.dcnt % 65536, failed := false,
      src := Config.freeDword s.fresh, priv := true, die := die }))

/-- A write of a field of a slot: 8 bytes of REC, QW, or DCNT. -/
def execEnqSlotFieldWrite (die slot off : Nat) (v : Dword) (s : State) : Host.Outcome State Fault Refusal :=
  if !s.powered || decide (die > 3) || decide (slot > 15) then .refused (.notEnabled "ENQ_SLOT_FIELD_WRITE")
  else if s.mode = .reset then .next s
  else .next (s.setSlot die slot (fun y =>
    if y.state = 1 then y
    else if off < 0x40 ∧ off % 8 = 0 then { y with words := y.words.set (off / 8) v, state := 0 }
    else if off = 0x40 then { y with qw := wd v.toNat, state := 0 }
    else if off = 0x44 then { y with dcnt := fld v 0 16, state := 0 }
    else y))

/-! ## Triggers and reads (R395, R396, R426) -/

def execSnaphost (s : State) : Host.Outcome State Fault Refusal := s.hostEvent "SNAPHOST" (s.snapTrigger 2 1)
/-- A peer's trigger, which a Tosor port brings only while GT is locked (R395, R430). -/
def execSnapPeerTrigger (s : State) : Host.Outcome State Fault Refusal :=
  if s.powered && s.gtLocked then .next (s.snapTrigger 5 4) else .refused (.notEnabled "SNAP_PEER_TRIGGER")
def execSnapdataRead (s : State) : Host.Outcome State Fault Refusal := s.hostEvent "SNAPDATA_READ" s.snapNext

/-- GT has reached SNAPGT. -/
def execSnapGtTrigger (s : State) : Host.Outcome State Fault Refusal :=
  if s.gt ≥ (s.csrGet 0x3C1 0).toNat then .next (s.snapTrigger 4 3) else .refused (.notEnabled "SNAP_GT_TRIGGER")

/-! ## Bring-up (R431) and power (R432, R433) -/

/-- The package out of reset: fuses and the package number stay, and so do the model's own counters; the keys of encrypted
pages are drawn (R391). -/
def State.restart (s : State) (trip : Bool) (p : Power) : State :=
  let t := { State.reset with power := p, pkg := s.pkg, revoked := s.revoked, ticks := s.ticks, fresh := s.fresh + 1, keyDraw := s.fresh }
  (t.csrPut 0x420 0 (s.csrGet 0x420 0)).csrPut 0x400 0 (if trip then 512 else 0)

/-- Firmware sets a die's pools in its own HBM, die 0's in the first 16 GiB (log 13). -/
def State.setPools (s : State) (die : Nat) : State :=
  let span := if die = 0 then 2 ^ 34 else 2 ^ 37
  let t := if fld (s.csrGet 0x80 die) 0 1 = 1 then s
    else { s.csrPut 0x80 die (dw (die * 2 ^ 37 + Config.poolAt die 0 % (span / 2 ^ 23) * 2 ^ 23 + 1)) with
      recwait := Sparse.put s.recwait die false }
  if fld (t.csrGet 0x202 die) 0 1 = 1 then t
  else t.csrPut 0x202 die
    (dw (die * 2 ^ 37 + Config.poolAt die 1 % (span / 2 ^ 21) * 2 ^ 21 + Config.poolAt die 2 % 16 * 16 + 1))

def execReset (trip : Bool) (s : State) : Host.Outcome State Fault Refusal := .next (s.restart trip .d0)

/-- The public key of slot 0 that the firmware image carries. -/
def firmwareKeyBytes : List Byte := (List.range 1312).map (fun i => Config.firmwareKey i)

/-- Whether the firmware verifies: the slot-0 key that it carries has the slot's fused hash, and its signature stands under
that key over its SHA3-256 (R434, R435; log 13). -/
def firmwareGood : Bool :=
  fused 0 firmwareKeyBytes && Config.verifies firmwareKeyBytes ((List.range 32).map (fun i => Config.firmwareHash i)) Config.firmwareSig

/-- Firmware has been checked: where it verifies, die 0 serves, and the key of slot 0 is held. -/
def execOchreEntry (s : State) : Host.Outcome State Fault Refusal :=
  if s.mode = .reset ∧ s.power = .d0 then
    .next (if firmwareGood then { s with mode := .ochre, keys := Sparse.put s.keys 0 firmwareKeyBytes }.setPools 0 else s)
  else .refused (.notEnabled "OCHRE_ENTRY")

/-- Bring-up ends: pools are set, what waited goes on, and die 0 pushes the event. -/
def State.enterService (s : State) (m : Mode) (code bad : Nat) : State :=
  let t := { s with mode := m, failed := bad }
  let u := ((List.range 4).filter (fun d => bad / 2 ^ d % 2 == 0)).foldl (fun (acc : State) d => acc.setPools d) t
  let v := u.csrPut 0x400 0 (setFld (u.csrGet 0x400 0) 0 8 (maskOf 8 (fun i =>
    Config.portsTrained 0 / 2 ^ i % 2 == 1 && bad / 2 ^ (i / 2) % 2 == 0)))
  ((v.pushEvent 0 1 (code + 256 * bad)).release).postAll ((List.range 4).map Instr.taskDispatch ++ (List.range 4).map Instr.workgroupPlace)

def execFullEntry (s : State) : Host.Outcome State Fault Refusal :=
  if s.mode = .ochre ∧ s.power = .d0 then .next (s.enterService .full 2 0) else .refused (.notEnabled "FULL_ENTRY")

def execDegradedEntry (failed : BitVec 4) (s : State) : Host.Outcome State Fault Refusal :=
  if s.mode = .ochre ∧ s.power = .d0 ∧ failed ≠ 0 then .next (s.enterService .degraded 3 failed.toNat)
  else .refused (.notEnabled "DEGRADED_ENTRY")

/-- PWRLIM.LIMIT in watts: below 600 it acts as 600, above 1,600 as 1,600 (R437). -/
def State.powerLimit (s : State) : Nat := Nat.max 600 (Nat.min 1600 (fld (s.csrGet 0x402 0) 0 11))

/-- The power measured over a window, in watts, exceeds the limit (R433; log 125). -/
def execPowerOverLimit (watts : Nat) (s : State) : Host.Outcome State Fault Refusal :=
  if watts > s.powerLimit then .next { s with throttle := true } else .refused (.notEnabled "POWER_OVER_LIMIT")

/-- It has fallen below the limit again; at the limit the idle cycles go on. -/
def execPowerBelowLimit (watts : Nat) (s : State) : Host.Outcome State Fault Refusal :=
  if watts < s.powerLimit then .next { s with throttle := false } else .refused (.notEnabled "POWER_BELOW_LIMIT")

def execThermalThrottle (s : State) : Host.Outcome State Fault Refusal := .next { s with hot := true }
def execThermalThrottleEnd (s : State) : Host.Outcome State Fault Refusal := .next { s with hot := false }
def execThermalTrip (s : State) : Host.Outcome State Fault Refusal := .next (s.restart true .d0)

def execD3hotEntry (s : State) : Host.Outcome State Fault Refusal :=
  if s.power = .d0 then .next { s with power := .d3hot } else .refused (.notEnabled "D3HOT_ENTRY")

/-- Every state of the device is lost. -/
def execD3coldEntry (s : State) : Host.Outcome State Fault Refusal :=
  if s.power = .d3cold then .refused (.notEnabled "D3COLD_ENTRY") else .next (s.restart false .d3cold)

/-- From D3hot the device goes on; from D3cold it begins its bring-up. -/
def execD0Return (s : State) : Host.Outcome State Fault Refusal :=
  if s.power = .d0 then .refused (.notEnabled "D0_RETURN") else .next { s with power := .d0 }

/-! ## Tosor (R429, R430) -/

/-- What a port is chosen by: the address of a request, the VA of a task record, a handle (R429). -/
def Link.key (l : Link) : Nat :=
  match l.work with
  | .req _ _ r => r.line
  | .push p => p.src.toNat
  | .signal g => g.src.toNat
  | .record _ h => h

/-- The port that is to carry traffic: one of its route's that are up, by a hash (R429). -/
def State.portOf (s : State) (l : Link) : Option Nat :=
  let ports := (List.range 8).filter (fun p => s.routePorts l.die l.pkg / 2 ^ p % 2 == 1)
  ports[Config.portHash l.key % ports.length]?

/-- Whether two requests belong to one sector of a copy, whose bytes land together (R115). -/
def Link.oneSector (a b : Link) : Bool :=
  match a.work, b.work with
  | .req _ _ r, .req _ _ q => r.who == q.who && (match r.who with
    | .seg _ _ _ _ => true
    | _ => false)
  | _, _ => false

/-- The CODE with which another package's engine refuses a push, 0 where it takes it (R322; log 20). -/
def peerAnswer (n : Nat) : Nat := [0, 1, 3, 4].getD (Config.peerCode n % 4) 0

/-- The stage of a wave that waits for a record on another package; its `arg` is the instruction's word. The next stage is
that of one whose request has been carried. -/
def linkStage : Nat := 7

/-- Traffic carried: a request is answered, a push taken or refused, a signal delivered, a record's instruction performed
(R429; log 20). -/
def State.carry (s : State) (l : Link) : State :=
  match l.work with
  | .req h ev r => s.peerDo h ev r
  | .push p =>
    if s.stale p then s
    else
      let c := peerAnswer s.fresh
      if c = 0 then s.draw.pushed p else s.draw.unpushed p 7 (enqInfo c) c
  | .signal g => s.post (.successorSignal g)
  | .record id _ => s.modLive id (fun w => if w.stage = linkStage then { w with stage := linkStage + 1 } else w)

/-- The traffic that a flit of a port carries: the oldest that the port is to carry, with the rest of its sector. -/
def State.cargo (s : State) (port : Nat) : List Link :=
  match (if s.gtLocked then s.link.find? (fun l => s.portOf l == some port) else none) with
  | some l => s.link.filter (fun m => m == l || l.oneSector m)
  | none => []

/-- A flit on a port that is up: counted, with what it carries, retried, or the port goes down after 8 retries. -/
def execTosorFlit (port : Nat) (crcOk : Bool) (s : State) : Host.Outcome State Fault Refusal :=
  let st := s.csrGet 0x400 0
  let x := Sparse.get (0, 0, 0) s.ports port
  let load := s.cargo port
  if port > 7 ∨ fld st 0 8 / 2 ^ port % 2 = 0 then .refused (.notEnabled "TOSOR_FLIT")
  else if crcOk then
    .next (load.foldl State.carry
      { s with ports := Sparse.put s.ports port (x.1 + 1, x.2.1, 0), link := s.link.filter (fun l => !load.contains l) })
  else if x.2.2 < 8 then .next { s with ports := Sparse.put s.ports port (x.1, x.2.1 + 1, x.2.2 + 1) }
  else .next ({ s with ports := Sparse.put s.ports port (x.1, x.2.1, 0) }.csrPut 0x400 0 (setFld st port 1 0))

/-- GT stands at a time; a snapshot armed for the time latches as GT passes it (R395). -/
def State.reachTime (s : State) (g : Nat) : State :=
  let t := { s with gt := g }
  if s.gt < (s.csrGet 0x3C1 0).toNat ∧ (s.csrGet 0x3C1 0).toNat ≤ g then t.snapTrigger 4 3 else t

/-- GT is locked to the time root's, which a package that is the root itself keeps (TLCFG.ROOT), and never goes back (log 3):
peer accesses, pushes and signals that waited go on. No port trains before bring-up ends (R431). -/
def execGtLockAcquired (s : State) : Host.Outcome State Fault Refusal :=
  if s.mode = .full ∨ s.mode = .degraded then
    let u := if fld (s.csrGet 0x410 0) 32 1 = 1 then s else s.reachTime (Nat.max s.gt (Config.rootTime s.ticks))
    let t := (u.csrPut 0x400 0 (setFld (u.csrGet 0x400 0) 8 1 1)).release
    let ts := (t.tasks.filter (fun (e : Nat × Task) => decide (e.2.phase = .signalling))).map (fun (e : Nat × Task) => e.1)
    .next (ts.foldl (fun (acc : State) n => acc.signalOn n) t)
  else .refused (.notEnabled "GT_LOCK_ACQUIRED")

def execGtLockLost (s : State) : Host.Outcome State Fault Refusal :=
  .next (s.csrPut 0x400 0 (setFld (s.csrGet 0x400 0) 8 1 0))

/-- Whether traffic can go no further: the completion timeout TLCFG.TMO has run out (in µs, 0 as 1), or no port carries it
(R429, R430, R437). -/
def State.overdue (s : State) (l : Link) : Bool :=
  decide (s.gt ≥ l.since + 1000 * Nat.max 1 (fld (s.csrGet 0x410 0) 0 32)) || (s.gtLocked && !s.routes l.die l.pkg)

/-- The park of a wave whose access to a record on another package meets LINKTO. -/
def State.parkLink (s : State) (id pkg : Nat) : State :=
  let x := s.wave id
  if x.status = .waiting ∧ x.stage = linkStage then
    let word := wd x.arg
    let h := match decode word with
      | .ok i => (match i with
        | .prplay a => x.v a x.uniform
        | _ => x.v (bits word.toNat 12 6) x.uniform)
      | .error _ => 0
    s.parkPre id word 12 (dw h.toNat) (linkInfo 2 pkg 1) []
  else s

/-- Traffic lost: whoever waits for it meets LINKTO, PATH TOSOR (R319, R323, R330, R384, R428). -/
def State.loseLink (s : State) (l : Link) : State :=
  match l.work with
  | .req _ _ r => s.refuse r 12 (fun _ => linkInfo 2 l.pkg 1)
  | .push p => if s.stale p then s else s.unpushed p 12 (linkInfo 2 l.pkg 1) 5
  | .signal g =>
    (match s.task g.task with
     | none => s
     | some k =>
       if k.skip then ((s.loseSignal k.die).modTask g.task (fun k => { k with succIx := k.succIx + 1 })).signalOn g.task
       else s.parkTask g.task 12 (k.succVA + dw (16 * k.succIx)) (linkInfo 2 l.pkg 1) 0)
  | .record id _ => s.parkLink id l.pkg

/-- Traffic lost that the links hold, with the rest of its sectors. -/
def State.loseLinks (s : State) (gone : List Link) : State :=
  let all := s.link.filter (fun l => gone.any (fun g => g == l || g.oneSector l))
  all.foldl State.loseLink { s with link := s.link.filter (fun l => !all.contains l) }

/-- Whether outstanding traffic is what someone waits for. -/
def Link.awaited (l : Link) (w : TosorWait) : Bool :=
  match l.work, w with
  | .req _ _ r, .op id => r.who == .op id
  | .req _ _ r, .seg core copy seg => (match r.who with
    | .seg c k g _ => c == core && k == copy && g == seg
    | _ => false)
  | .push p, .push q => p == q
  | .signal g, .task t => g.task == t
  | .record n _, .wave id => n == id
  | _, _ => false

/-- The completion timeout of traffic that someone waits for (R429). -/
def State.timeOut (s : State) (w : TosorWait) : Option State :=
  match s.link.filter (fun l => l.awaited w && s.overdue l) with
  | [] => none
  | gone => some (s.loseLinks gone)

def execTosorTimeout (w : TosorWait) (s : State) : Host.Outcome State Fault Refusal :=
  match s.timeOut w with
  | some t => .next t
  | none => .refused (.notEnabled "TOSOR_TIMEOUT")

/-- What the Tosor links do of themselves: traffic whose time has run out is lost, or a flit carries the oldest that a port
may (log 20). -/
def State.linkStep (s : State) : Option State :=
  match s.link.find? s.overdue with
  | some l => some (s.loseLinks [l])
  | none =>
    match (if Config.flitComes s.ticks && s.gtLocked then s.link.findSome? s.portOf else none) with
    | some p => (match execTosorFlit p true s with
      | .next t => some t
      | _ => none)
    | none => none

/-! ## Encrypted pages (R391) -/

/-- The granule of an encrypted page in which a byte of HBM lies, by the address that the page's leaf gives it, in either
layout (R391; log 105). -/
def State.granuleOf (s : State) (p : Nat) : Option Nat :=
  s.encs.findSome? (fun e =>
    let q := if targetOf e.1 = .alias_ then interleaved p else p
    if e.1 ≤ q ∧ q < e.1 + e.2 then some (q / 65536 * 65536) else none)

/-- Whether a sector lies in a page held encrypted. -/
def State.encrypted (s : State) (p : Nat) : Bool := (s.granuleOf p).isSome

/-- The sector of an encrypted page as HBM holds it; the tweak is of the address that the page's leaf gives (log 105). -/
def State.cipher (s : State) (pa : Nat) : List Byte :=
  Config.xts (Config.hbmKey s.keyDraw 0) (pa / 32) (s.read (s.place (pa / 32 * 32)) 32)

/-- The tag of a granule's sectors, as they stand. -/
def State.granuleTag (s : State) (g : Nat) : Dword :=
  (List.range 2048).foldl (fun acc i => acc ^^^ Config.kmac (Config.hbmKey s.keyDraw 1) (g / 32 + i) (s.cipher (g + 32 * i))) 0

/-- The tag that the HBM controller holds for a granule: it follows every sector write, so it differs from that of the
sectors only by what befell the granule in another way. -/
def State.heldTag (s : State) (g : Nat) : Dword := s.granuleTag g ^^^ Sparse.get 0 s.tagDiff g

/-! ## The scrubber (R392) -/

/-- The sector that a die's scrubber looks at next. -/
def State.scrubAt (s : State) (die : Nat) : Nat := die * 2 ^ 37 + fld (s.csrGet 0x3A1 die) 5 47 * 32 % 2 ^ 37

/-- Its position past that sector; the end of the die's HBM ends a pass. -/
def State.scrubOn (s : State) (die : Nat) : State :=
  let p := s.scrubAt die + 32
  let st := s.csrGet 0x3A1 die
  if p = (die + 1) * 2 ^ 37 then s.csrPut 0x3A1 die (setFld (setFld st 5 47 (die * 2 ^ 32)) 0 1 1)
  else s.csrPut 0x3A1 die (setFld st 5 47 (p / 32))

/-- The granule in which the scrubber finds a tag mismatch once it has read a sector: an encrypted one whose last sector it is
and whose held tag is not that of its sectors. -/
def State.badGranule (s : State) (p : Nat) : Option Nat :=
  (s.granuleOf p).bind (fun g => if s.place (g + 65504) = p ∧ Sparse.get 0 s.tagDiff g ≠ 0 then some g else none)

/-- The end of a sector: a tag mismatch poisons the granule and is logged. -/
def State.scrubbed (s : State) (die p : Nat) : State :=
  match s.badGranule p with
  | some g =>
    let t := (List.range 2048).foldl (fun (acc : State) i =>
      let q := s.place (g + 32 * i)
      acc.setMark q ((acc.mark q).join { origin := 9, addr := q })) s
    (t.logFault die 5 0 0 9 0 (dw g) 0).scrubOn die
  | none => s.scrubOn die

/-- A sector scrubbed; the engine of a failed die does nothing (R13). -/
def execScrubSector (die : Nat) (found : ScrubFind) (s : State) : Host.Outcome State Fault Refusal :=
  let p := s.scrubAt die
  if die > 3 ∨ s.failed / 2 ^ die % 2 = 1 ∨ fld (s.csrGet 0x3A0 die) 63 1 = 0 then .refused (.notEnabled "SCRUB_SECTOR")
  else match found with
    | .clean => .next (s.scrubbed die p)
    | .correctable => .next ((s.logFault die 3 0 0 5 0 (dw p) 0).scrubbed die p)
    | .uncorrectable =>
      if (s.mark p).origin = 5 then .next (s.scrubbed die p)
      else .next (((s.setMark p { origin := 5, addr := p }).logFault die 4 0 0 5 0 (dw p) 0).scrubbed die p)
    | .tagMismatch => if (s.badGranule p).isSome then .next (s.scrubbed die p) else .refused (.notEnabled "SCRUB_SECTOR")

/-! ## Events inside the issue slot -/

/-- The duplicated scoreboard disagrees: the instruction is squashed before it has any effect and issues again, and CNTSBM of
the core counts it (R356). -/
def execScoreboardSquash (core _slot : Nat) (s : State) : Host.Outcome State Fault Refusal :=
  .next { s with cntsbm := Sparse.put s.cntsbm core (Sparse.get 0 s.cntsbm core + 1) }

/-- A fill lands (R156): the range is resident already, and the wave that waits for it looks again (log 43). -/
def execFillComplete (wave : Nat) (s : State) : Host.Outcome State Fault Refusal :=
  match Sparse.find s.waves wave with
  | some w => if w.status = .waiting then .next (s.setWave wave { w with status := .ready }) else .next s
  | none => .refused (.notEnabled "FILL_COMPLETE")

end Sys2Proof.Machine
end

