-- ==== Sys2Proof/Machine/System.lean ====
section
/-! DEFINITION. The system instructions (13/R329 to R343): records and the registers of parked waves (R330 to R332),
endings (R333), PRPLAY, SNAP, KREPL, and the system registers (R340). PTLD and RGSET stand in Flush.lean. -/

namespace Sys2Proof.Machine

/-! ## Records (R330) -/

/-- MISALIGN, REASON RECORD, with the handle as fault address. -/
def recFault (h : Word) (code : Nat) : Option (Nat × Dword × Dword) := some (7, dw h.toNat, misInfo 0x39 code)

/-- Whether a handle names a record of this package. -/
def State.isOwn (s : State) (h : Word) : Bool := bits h.toNat 19 13 == s.pkg

/-- The record that a handle of this package names. -/
def handleRec (h : Word) : Nat := bits h.toNat 17 2 * 4096 + bits h.toNat 0 12

/-- The checks of a handle: `live` where ENDED is checked, `wave` where KIND is, `offs` the offsets of PRLD and PRST. What
another package's record holds is not this package's (log 28). -/
def State.recCheck (s : State) (h : Word) (live wave : Bool) (offs : List Nat) : Option (Nat × Dword × Dword) :=
  let x := handleRec h
  if !s.reachable (bits h.toNat 19 13) then recFault h 1
  else if s.isOwn h && !s.recLive x then recFault h 2
  else if s.isOwn h && live && decide (s.recStatus x > 2) then recFault h 3
  else if s.isOwn h && wave && fld (s.recWord x 0) 60 4 != 1 then recFault h 4
  else if offs.any (fun o => o % 8 != 0 || decide (o ≥ 0x800)) then recFault h 5
  else none

/-- The handle operand. -/
def State.handle (s : State) (a : Nat) : Word := s.curWave.v a s.curWave.uniform

/-- An access to another package: it is sent, and the wave waits until a port has carried it (R330, R429, R430); where no port
can, it meets LINKTO. -/
def State.linkPrep (s : State) (i : Instr) (h : Word) : Move :=
  let die := dieOfCore (coreOfWave s.cur)
  let pkg := bits h.toNat 19 13
  if s.isOwn h || s.curWave.stage == linkStage + 1 then .ok s
  else if s.curWave.stage = linkStage then .wait s
  else if s.gtLocked && !s.routes die pkg then .fault s 12 (dw h.toNat) (linkInfo 2 pkg 1)
  else .wait ((s.setCur { s.curWave with stage := linkStage, arg := (encode i).toNat }).sendLink die pkg (.record s.cur h.toNat))

/-- Per-lane operand of vA+1. -/
def State.laneArg (s : State) (a l : Nat) : Nat := (s.curWave.v (a + 1) l).toNat

/-- A value read for each active lane of a pair. -/
def State.putLanes (s : State) (i : Instr) (d : Nat) (f : Nat → Dword) : State :=
  s.laneWrite i d 2 [] (fun l => plain (f l).toNat)

/-- What a lane reads of another package (log 28). -/
def State.foreign (s : State) (l : Nat) : Dword := Config.freeDword (64 * s.fresh + l)

def execPrld (d a : Reg) (s : State) : Host.Outcome State Fault Refusal :=
  let h := s.handle a
  s.issueWith (.prld d a) (s.recCheck h false false (s.curWave.lanes.map (s.laneArg a)))
    (fun t => t.linkPrep (.prld d a) h)
    (fun t => if t.isOwn h then
        let u := t.putLanes (.prld d a) d (fun l => t.recWord (handleRec h) (t.laneArg a l))
        let mark : Nat → Nat → Mark := fun i l => t.recMark (handleRec h) (t.laneArg a l + 4 * i)
        u.setCur ((u.curWave.markLanes d u.curWave.lanes (mark 0)).markLanes (d + 1) u.curWave.lanes (mark 1))
      else (t.putLanes (.prld d a) d t.foreign).draw)

/-- The bits of a record's word that PRST writes (R325, R281). -/
def prstBits (kind off : Nat) : Dword :=
  if off = 0x18 then 0xFFFFFFFF
  else if off = 0x20 ∨ off = 0x28 ∨ off = 0x30 ∨ off = 0x48 ∨ off = 0x68 ∨ off = 0x70 then 0xFFFFFFFFFFFFFFFF
  else if off = 0x60 then 0x1000000
  else if off < 0x100 then 0
  else if kind = 2 ∧ off = 0x600 then 0x00FF0FFFFFFFC0FF
  else 0xFFFFFFFFFFFFFFFF

/-- PRST of one lane: what a word holds of lane masks is cut to the unit's lanes (R4), and a clean word takes the place of a
poisoned one (R385). -/
def State.storeRec (s : State) (x off : Nat) (v : Dword) : State :=
  let w0 := s.recWord x 0
  let m0 := prstBits (fld w0 60 4) off
  let m := if (off = 0x20 ∨ off = 0x28) ∧ fld w0 1 1 = 0 then m0 &&& 0xFFFFFFFF else m0
  let t := s.setRecWord x off ((v &&& m) ||| (s.recWord x off &&& ~~~ m))
  if m = 0 then t
  else { t with records := Sparse.update t.records x (fun r => { r with marks := r.marks.filter (fun e => decide (e.1 / 8 ≠ off / 8)) }) }

def execPrst (d a : Reg) (s : State) : Host.Outcome State Fault Refusal :=
  let h := s.handle a
  s.issueWith (.prst d a) (s.recCheck h true false (s.curWave.lanes.map (s.laneArg a)))
    (fun t => t.linkPrep (.prst d a) h)
    (fun t => if t.isOwn h then
        t.curWave.lanes.foldl (fun (acc : State) l => acc.storeRec (handleRec h) (t.laneArg a l) (t.curWave.v64 d l)) t
      else t)

/-! ## Registers of a parked wave (R332) -/

/-- The bits of a frame register (R36). -/
def Frame.toNat (f : Frame) : Nat :=
  let b : Bool → Nat := fun x => if x then 1 else 0
  f.vbase * 2 ^ 135 + f.pbase * 2 ^ 83 + f.limit * 2 ^ 53 + f.sz * 2 ^ 51 + f.cc * 2 ^ 49 + f.wp * 2 ^ 46 + f.cp * 2 ^ 44 +
  b f.enc * 2 ^ 43 + b f.p * 2 ^ 42 + b f.x * 2 ^ 41 + b f.w * 2 ^ 40 + b f.r * 2 ^ 39 + b f.g * 2 ^ 38 + b f.v

/-- Fields of a selector. -/
def selKind (x : Nat) : Nat := bits x 12 2
def selNum (x : Nat) : Nat := bits x 6 6
def selPair (x : Nat) : Bool := bits x 14 1 == 1

/-- A vector register's lane below lo: its place in the backing area, reached as the spill engine of the parked wave's core
`c` reaches it, with the leaf, or the fault. -/
def State.parkedAt (s : State) (c : Nat) (w : Wave) (k : Access) (j l : Nat) : Reach :=
  s.reach c w.ctx w.sys k 7 (w.backAt j + dw (4 * l))

/-- The registers that a selector names below lo, as reached. -/
def State.selReach (s : State) (c : Nat) (w : Wave) (k : Access) (n x : Nat) : List (Dword × Reach) :=
  if selKind x ≠ 0 then []
  else ((List.range n).filter (fun i => decide (w.wb + selNum x + i < w.lo))).map (fun i =>
    let j := w.wb + selNum x + i
    let l := x % w.width
    (w.backAt j + dw (4 * l), s.parkedAt c w k j l))

/-- The first failure among places reached: class, address, information word. -/
def firstFailure : List (Dword × Reach) → Option (Nat × Dword × Dword)
  | [] => none
  | (_, .fail c fa i) :: _ => some (spillClass c, fa, i)
  | _ :: r => firstFailure r

/-- How many registers a lane's selector reaches. -/
def selCount (write : Bool) (x : Nat) : Nat := if write && !selPair x then 1 else 2

/-- The first place among those reached whose page migrates: its address, and the migration (R53). -/
def firstMoving : List (Dword × Reach) → Option (Dword × Nat × Nat)
  | [] => none
  | (va, .moving d i) :: _ => some (va, d, i)
  | _ :: r => firstMoving r

/-- A handler's selectors whose backing area migrates: it parks on the migration (R53). Where the area is not served it waits
(R431). -/
def State.selPrep (s : State) (i : Instr) (h : Word) (a : Nat) (k : Access) (write : Bool) : Move :=
  (s.linkPrep i h).bind (fun t =>
    let id := (Sparse.find t.records (handleRec h)).elim 0 (fun r => r.unit)
    let places := if t.isOwn h then t.curWave.lanes.flatMap (fun l =>
        t.selReach (coreOfWave id) (t.wave id) k (selCount write (t.laneArg a l)) (t.laneArg a l)) else []
    match firstMoving places with
    | some (va, d, m) => .fault t 0 va (dw (d * 2 ^ 32 + m))
    | none => if places.any (fun x => x.2 == .held) then .wait t else .ok t)

/-- A register of the parked wave as the alias reads it (R161). -/
def State.parkedReg (s : State) (c : Nat) (w : Wave) (j l : Nat) : Word :=
  if j < w.lo then (match s.parkedAt c w .load j l with
    | .ok p _ => wd (s.newestNat c p 4)
    | _ => 0)
  else w.lreg j l

/-- What PRREG reads for a selector. -/
def State.selRead (s : State) (c : Nat) (w : Wave) (x : Nat) : Dword :=
  match selKind x with
  | 0 => dw ((s.parkedReg c w (w.wb + selNum x) (x % w.width)).toNat +
      2 ^ 32 * (s.parkedReg c w (w.wb + selNum x + 1) (x % w.width)).toNat)
  | 1 => w.kread (selNum x % 8)
  | 2 => if x % w.width % 4 = 3 then 0 else dw (bits (w.frame (selNum x % 8)).toNat (64 * (x % w.width % 4)) 64)
  | _ => 0

/-- Leaves of the places reached from core `c` get A, and D for a write (R34). -/
def State.touchReach (s : State) (c : Nat) (rs : List (Dword × Reach)) (write : Bool) : State :=
  rs.foldl (fun (acc : State) (r : Dword × Reach) => match r.2 with
    | .ok _ leaf => acc.setAD c leaf write
    | _ => acc) s

/-- The park of a handler for lanes whose backing-area access failed. -/
def State.parkSel (s : State) (i : Instr) (bad : List (Nat × Nat × Dword × Dword)) : State :=
  match bad with
  | [] => s
  | (_, cls, va, info) :: _ =>
    let w := s.curWave
    s.parkWave s.cur
      { cls := cls, faddr := va, finfo := info, pre := false, pc := w.pc - 4, iword := encode i, npc := w.pc, ahead := 0,
        unf := dw (maskOf w.width (fun l => bad.any (fun b => b.1 == l))), gmode := w.gmode, vas := [], srcs := [],
        status := 0 }

/-- Lanes whose backing-area access fails. -/
def State.selBad (s : State) (c : Nat) (w : Wave) (a : Nat) (k : Access) (write : Bool) : List (Nat × Nat × Dword × Dword) :=
  s.curWave.lanes.filterMap (fun l =>
    (firstFailure (s.selReach c w k (selCount write (s.laneArg a l)) (s.laneArg a l))).map (fun f => (l, f)))

def execPrreg (d a : Reg) (s : State) : Host.Outcome State Fault Refusal :=
  let h := s.handle a
  s.issueWith (.prreg d a) (s.recCheck h false true [])
    (fun t => t.selPrep (.prreg d a) h a .load false)
    (fun t =>
      match (if t.isOwn h ∧ t.recStatus (handleRec h) ≤ 3 then Sparse.find t.records (handleRec h) else none) with
      | none => (t.putLanes (.prreg d a) d t.foreign).draw
      | some r =>
        let w := t.wave r.unit
        let c := coreOfWave r.unit
        let bad := t.selBad c w a .load false
        let good := t.curWave.lanes.filter (fun l => !bad.any (fun b => b.1 == l))
        let t1 := good.foldl (fun (acc : State) l => acc.touchReach c (t.selReach c w .load 2 (t.laneArg a l)) false) t
        let all := t1.curWave
        let t2 := (t1.setCur { all with exm := dw (maskOf all.width (fun l => good.contains l)), gmode := setFld all.gmode 0 3 0 }).putLanes
          (.prreg d a) d (fun l => t.selRead c w (t.laneArg a l))
        (t2.setCur { t2.curWave with exm := all.exm, gmode := all.gmode }).parkSel (.prreg d a) bad)

/-- PWREG of one lane: `v` is vD, vD+1 of the handler's lane. -/
def State.selWrite (s : State) (id x : Nat) (v : Dword) : State :=
  let w := s.wave id
  match selKind x with
  | 0 =>
    (List.range (selCount true x)).foldl (fun (acc : State) i =>
      let j := w.wb + selNum x + i
      let l := x % w.width
      let y := wd (fld v (32 * i) 32)
      if j < w.lo then (match acc.parkedAt (coreOfWave id) w .store j l with
        | .ok p leaf => (acc.setAD (coreOfWave id) leaf true).devWrite (coreOfWave id) p (toBytes 4 y.toNat)
        | _ => acc)
      else acc.modLive id (fun u => if u.lo ≤ j ∧ j < u.hi ∧ j < u.stkmax then
        (u.lwrite j (fun m => if m = l then some y else none)).setLmark j l .none else u)) s
  | 1 => s.modLive id (fun u => u.kwrite (selNum x % 8) v)
  | 2 =>
    if x % w.width % 4 = 0 ∧ fld v 0 1 = 0 then
      s.modLive id (fun u => u.setFrame (selNum x % 8) { u.frame (selNum x % 8) with v := false })
    else s
  | _ => s

def execPwreg (d a : Reg) (s : State) : Host.Outcome State Fault Refusal :=
  let h := s.handle a
  s.issueWith (.pwreg d a) (s.recCheck h true true [])
    (fun t => t.selPrep (.pwreg d a) h a .store true)
    (fun t =>
      match (if t.isOwn h then Sparse.find t.records (handleRec h) else none) with
      | none => t
      | some r =>
        let bad := t.selBad (coreOfWave r.unit) (t.wave r.unit) a .store true
        ((t.curWave.lanes.filter (fun l => !bad.any (fun b => b.1 == l))).foldl
          (fun (acc : State) l => acc.selWrite r.unit (t.laneArg a l) (t.curWave.v64 d l)) t).parkSel (.pwreg d a) bad)

/-! ## Endings (R333 to R336) -/

/-- A PRETRY or PREDIR that pushes a task's record again waits or is refused with the push (R336). -/
def State.againPrep (s : State) (h : Word) (e : Ending) : Move :=
  let x := handleRec h
  let again : Bool := match e with
    | .retry => true
    | .redirect _ => true
    | _ => false
  match (if s.isOwn h && again then Sparse.find s.records x else none) with
  | none => .ok s
  | some r =>
    let c := fld (s.recWord x 0) 48 8
    if r.kind ≠ 4 ∨ c < 17 ∨ c > 19 then .ok s
    else
      let p := s.taskPush x r.unit
      match s.judge p with
        | .refuse code => .fault s 7 p.src (enqInfo code)
        | .wait => .wait s
        | .carry => .ok s
        | .lost => .fault s 12 p.src (linkInfo 2 (s.qwPkg p.qw) 1)
        | _ => .ok s

/-- An ending: the handle's checks, the fence, then the unit ends. -/
def State.ending (s : State) (i : Instr) (a : Nat) (e : Wave → Ending) : Host.Outcome State Fault Refusal :=
  let h := s.handle a
  s.issueWith i (s.recCheck h true false [])
    (fun t => ((t.fencePrep (if t.isOwn h then 4 else 5)).bind (fun u => u.linkPrep i h)).bind (fun u => u.againPrep h (e u.curWave)))
    (fun t => if t.isOwn h then t.endUnit (handleRec h) (e t.curWave) else t)

def execPresume (a : Reg) (s : State) : Host.Outcome State Fault Refusal := s.ending (.presume a) a (fun _ => .resume)
def execPretry (a : Reg) (s : State) : Host.Outcome State Fault Refusal := s.ending (.pretry a) a (fun _ => .retry)
def execPredir (d a : Reg) (s : State) : Host.Outcome State Fault Refusal :=
  s.ending (.predir d a) a (fun w => .redirect (w.v64 d w.uniform))
def execPkill (a : Reg) (s : State) : Host.Outcome State Fault Refusal := s.ending (.pkill a) a (fun _ => .kill)

/-- PRPLAY (R337, R48). -/
def execPrplay (a : Reg) (s : State) : Host.Outcome State Fault Refusal :=
  let h := s.handle a
  s.issueWith (.prplay a) (if s.reachable (bits h.toNat 19 13) then none else recFault h 1)
    (fun t => t.linkPrep (.prplay a) h)
    (fun t => if t.isOwn h then t.playCluster (bits h.toNat 17 2 * 32 + bits h.toNat 12 5) else t)

/-! ## SNAP, KREPL (R343, R339) -/

/-- SNAP; what it sends to other packages is theirs (log 1). -/
def execSnap (b : Bool) (s : State) : Host.Outcome State Fault Refusal := s.issue (.snap b) (fun t => t.snapTrigger 1 0)

/-- The indirection entry that KREPL names: index and context. -/
def Wave.kixOf (w : Wave) (a : Nat) : Nat :=
  bits (w.v (a + 2) w.uniform).toNat 16 8 * 4096 + bits (w.v (a + 2) w.uniform).toNat 0 12

def execKrepl (d a : Reg) (s : State) : Host.Outcome State Fault Refusal :=
  s.issue (.krepl d a) (fun t =>
    let w := t.curWave
    let old := Sparse.get 0 t.kix (w.kixOf a)
    ({ t with kix := Sparse.put t.kix (w.kixOf a) (w.v64 a w.uniform &&& 0xFFFFFFFFFFFFFFC1) } : State).putLanes (.krepl d a) d (fun _ => old))

/-! ## System registers (R340) -/

/-- MISALIGN, REASON CSR: an unassigned number, or an instance beyond the register's; the bits [31:24] of the number, which are
ignored, are not in the fault address (log 122). -/
def csrCheck (n : Word) : Option (Nat × Dword × Dword) :=
  let fail : Nat → Option (Nat × Dword × Dword) := fun c => some (7, dw (bits n.toNat 0 24), misInfo 0x3A c)
  match csrInsts (bits n.toNat 0 16) with
  | none => fail 1
  | some k => if k ≠ 1 ∧ bits n.toNat 16 8 ≥ k then fail 2 else none

def csrNum (n : Word) : Nat := bits n.toNat 0 16
def csrIx (n : Word) : Nat := csrInst (csrNum n) (bits n.toNat 16 8)

def execCsrr (d a : Reg) (s : State) : Host.Outcome State Fault Refusal :=
  let n := s.handle a
  s.issueWith (.csrr d a) (csrCheck n) .ok (fun t =>
    let u := t.putLanes (.csrr d a) d (fun _ => t.csrRead (csrNum n) (csrIx n))
    if csrNum n = 0x3C4 then u.snapNext else u)

/-- A CSRW to L2MODE writes once, and waits for the flush that it began (R96). -/
def State.modePrep (s : State) (v : Dword) : Move :=
  let w := s.curWave
  if w.stage = 1 then (if s.flushing.isSome then .wait s else .ok s)
  else
    let t := (s.setCur { w with stage := 1 }).writeL2mode v (some s.cur)
    if s.flushing.isNone ∧ t.flushing.isSome then .wait t else .ok t

def execCsrw (d a : Reg) (s : State) : Host.Outcome State Fault Refusal :=
  let n := s.handle a
  let v := s.curWave.v64 d s.curWave.uniform
  s.issueWith (.csrw d a) (csrCheck n)
    (fun t => if csrNum n = 0x50 then t.modePrep v else .ok t)
    (fun t => if csrNum n = 0x50 then t else t.writeCsr (csrNum n) (csrIx n) v (some t.cur))

end Sys2Proof.Machine
end

