-- ==== Sys2Proof/Machine/Indigo.lean ====
section
/-! DEFINITION. Instruction fetch (02/R33, R42; log 19), and where an indigo run begins and ends (14/R360, R361). What a
run does stands in Ahead.lean. -/

namespace Sys2Proof.Machine

/-! ## Fetch -/

/-- The word at a physical address as a core reads it; a byte of on-chip memory comes through its window. -/
def State.fetchWord (s : State) (core pa : Nat) : Word :=
  if targetOf pa = .onchip then
    wd (ofBytes (s.windowRead ((pa - 0x10000000000) / 0x200000) (pa % 0x200000) 4 false false))
  else match s.usable core (lineOf pa) with
    | some c => wd (ofBytes ((c.data.drop (pa % 128)).take 4))
    | none => wd (s.newestNat core pa 4)

/-- The word that a wave has fetched for the instruction at its PC (R57). -/
def Wave.fetched (w : Wave) : Option Word := match w.fword with
  | some (pc, x) => if pc = w.pc then some x else none
  | none => none

/-- The instruction at a wave's PC, where it has been fetched. -/
def State.instrAt (s : State) (id : Nat) : Option Instr :=
  match (s.wave id).fetched.map decode with
  | some (.ok i) => some i
  | _ => none

/-! ## Entry and exit (R360, R361) -/

/-- Whether a lane of an operation waits on a walk or has missed in the L2: its home has found its line or a sector absent, or
will, or waits for the host. -/
def State.misses (s : State) (op : Nat) (o : MemOp) : Bool :=
  let mine : HomeReq → Bool := fun r => match r.who with
    | .op n => n == op
    | _ => false
  let absent : Instr → Bool := fun i => (reqOfEvent i).any (fun r => mine r && (s.lineAt (s.homeOf r.core r.line) r.line).isNone)
  o.missed || o.lanes.any (fun x => decide (x.phase = .xlate)) || s.agenda.any absent ||
  s.slices.any (fun (e : Nat × Slice) => e.2.wait.any absent || e.2.lines.any (fun l => l.held.any (fun h =>
    h.host && decide (h.tries = 100) && (mine h.hreq || l.queue.any (fun i => (reqOfEvent i).any mine)))))

/-- The load or atomic whose result the instruction of a waiting wave needs. -/
def State.awaited (s : State) (id : Nat) : Option (Nat × MemOp) :=
  let w := s.wave id
  if w.status ≠ .waiting ∨ w.stage ≠ 0 then none
  else match s.instrAt id with
    | none => none
    | some i =>
      s.ops.find? (fun (e : Nat × MemOp) => e.2.wave == id && !e.2.resume &&
        (match e.2.kind with
         | .load _ => true
         | .atomic _ _ => true
         | _ => false) &&
        ((i.opnds w).names w).any (fun n => n.kind == 0 && e.2.dst.contains n.num))

/-- The operation for which a wave may begin a run: its launch carries INDIGO, the awaited operation missed, no other wave
of the slot is in a run, and the wave has not run ahead from this wait. Waiting times are not counted (log 44). -/
def State.mayRun (s : State) (id : Nat) : Option Nat :=
  let w := s.wave id
  if !((s.kernelOf w).any (fun k => k.indigo)) || !real (coreOfWave id) then none
  else match s.awaited id with
    | none => none
    | some (op, o) =>
      if s.misses op o && !(s.indigo.any (fun (e : Nat × Indigo) => e.2.live && decide ((s.wave e.1).status = .waiting) && e.1 / 12 == id / 12)) &&
          !((Sparse.find s.indigo id).any (fun r => r.op == op && r.seq == w.seq)) then some op
      else none

/-- A run begun: the copy of the window's state, with the registers that outstanding operations will write. -/
def State.enterRun (s : State) (id op : Nat) : State :=
  let w := s.wave id
  let c := { w with status := .ready, windows := [], stage := 0, gate := [], region := none, rer := 0, mq := [], cq := [],
                    xq := [], sq := [], rpoison := [], hi := w.stkmax }
  let r : Indigo :=
    { live := true, seq := w.seq, copy := c, kmarks := [], fmarks := s.pendingFrames id, run := 0, op := op,
      marks := (s.pendingRegs id).flatMap (fun j => (List.range 64).map (64 * j + ·)) }
  { s with indigo := Sparse.put s.indigo id r }

/-- A run over: its copy is discarded, and the wave waits again at the blocked instruction. -/
def State.exitRun (s : State) (id : Nat) : State :=
  { s with indigo := Sparse.update s.indigo id (fun r =>
      { r with live := false, copy := Wave.empty, marks := [], kmarks := [], fmarks := [] }) }

/-- Whether a run ends before its next instruction: the result has come, 512 instructions have run, or the wave is parked,
killed or stopped. -/
def State.runOver (s : State) (id : Nat) (r : Indigo) : Bool :=
  decide (r.run ≥ 512) || ((s.awaited id).map (fun e => e.1)) != some r.op || s.stoodStill (s.wave id) ||
  s.prectl (dieOfCore (coreOfWave id)) (s.wave id).ctx

def execIndigoEntry (wave : Nat) (s : State) : Host.Outcome State Fault Refusal :=
  match s.mayRun wave with
  | some op => .next (s.enterRun wave op)
  | none => .refused (.notEnabled "INDIGO_ENTRY")

def execIndigoExit (wave : Nat) (s : State) : Host.Outcome State Fault Refusal :=
  match Sparse.find s.indigo wave with
  | some r => if r.live ∧ s.runOver wave r then .next (s.exitRun wave) else .refused (.notEnabled "INDIGO_EXIT")
  | none => .refused (.notEnabled "INDIGO_EXIT")

end Sys2Proof.Machine
end

