-- ==== Sys2Proof/Machine/Integer.lean ====
section
/-! DEFINITION. Integer, logic, shift and bit-field instructions, compares and selects (10/R225 to R232, R247, R248,
R251). -/

namespace Sys2Proof.Machine

/-! ## Arithmetic (R225) -/

def execAdd (d : Reg) (p : Sel) (a : Reg) (q : Sel) (b : Reg) (s : State) : Host.Outcome State Fault Refusal :=
  s.elems3 (.add d p a q b) d p a q b (fun _ x y => plain (x + y))

def execSub (d : Reg) (p : Sel) (a : Reg) (q : Sel) (b : Reg) (s : State) : Host.Outcome State Fault Refusal :=
  s.elems3 (.sub d p a q b) d p a q b (fun t x y => plain (x + 2 ^ t.elem - y))

def execMul (d : Reg) (p : Sel) (a : Reg) (q : Sel) (b : Reg) (s : State) : Host.Outcome State Fault Refusal :=
  s.elems3 (.mul d p a q b) d p a q b (fun _ x y => plain (x * y))

def execMulh (d : Reg) (p : Sel) (a : Reg) (q : Sel) (b : Reg) (s : State) : Host.Outcome State Fault Refusal :=
  s.elems3 (.mulh d p a q b) d p a q b
    (fun t x y => plain (ofInt t.elem (elemInt t x * elemInt t y / ((2 ^ t.elem : Nat) : Int))))

def execAbsd (d : Reg) (p : Sel) (a : Reg) (q : Sel) (b : Reg) (s : State) : Host.Outcome State Fault Refusal :=
  s.elems3 (.absd d p a q b) d p a q b (fun t x y => plain (elemInt t x - elemInt t y).natAbs)

def execAvg (d : Reg) (p : Sel) (a : Reg) (q : Sel) (b : Reg) (s : State) : Host.Outcome State Fault Refusal :=
  s.elems3 (.avg d p a q b) d p a q b (fun t x y => plain (ofInt t.elem ((elemInt t x + elemInt t y + 1) / 2)))

def execMin (d : Reg) (p : Sel) (a : Reg) (q : Sel) (b : Reg) (s : State) : Host.Outcome State Fault Refusal :=
  s.elems3 (.min d p a q b) d p a q b (fun t x y => plain (if elemInt t y < elemInt t x then y else x))

def execMax (d : Reg) (p : Sel) (a : Reg) (q : Sel) (b : Reg) (s : State) : Host.Outcome State Fault Refusal :=
  s.elems3 (.max d p a q b) d p a q b (fun t x y => plain (if elemInt t x < elemInt t y then y else x))

def execSatadd (d : Reg) (p : Sel) (a : Reg) (q : Sel) (b : Reg) (s : State) : Host.Outcome State Fault Refusal :=
  s.elems3 (.satadd d p a q b) d p a q b
    (fun t x y => plain (ofInt t.elem (clampInt (tyLo t) (tyHi t) (elemInt t x + elemInt t y))))

def execSatsub (d : Reg) (p : Sel) (a : Reg) (q : Sel) (b : Reg) (s : State) : Host.Outcome State Fault Refusal :=
  s.elems3 (.satsub d p a q b) d p a q b
    (fun t x y => plain (ofInt t.elem (clampInt (tyLo t) (tyHi t) (elemInt t x - elemInt t y))))

/-- An add or subtract through the carries of k7: `f` gives the result and the carry of a lane. -/
def State.carryOp (s : State) (i : Instr) (d : Reg) (p : Sel) (a : Reg) (q : Sel) (b : Reg)
    (f : Nat → Nat → Nat → Nat → Nat × Bool) : Host.Outcome State Fault Refusal :=
  s.issue i (fun t =>
    let w := t.curWave
    let r : Nat → Nat × Bool := fun l =>
      f w.ty.elem (w.valP p a l) (w.valP q b l) (if bitOf (w.kread 7) l then 1 else 0)
    let u := t.laneWrite i d w.vcount [(a, w.vcount, p), (b, w.vcount, q)] (fun l => plain (r l).1)
    u.setCur { u.curWave with k := (w.kbits 7 (fun l => (r l).2)).k })

def execAddc (d : Reg) (p : Sel) (a : Reg) (q : Sel) (b : Reg) (s : State) : Host.Outcome State Fault Refusal :=
  s.carryOp (.addc d p a q b) d p a q b (fun e x y c => ((x + y + c) % 2 ^ e, decide (x + y + c ≥ 2 ^ e)))

def execSubb (d : Reg) (p : Sel) (a : Reg) (q : Sel) (b : Reg) (s : State) : Host.Outcome State Fault Refusal :=
  s.carryOp (.subb d p a q b) d p a q b (fun e x y c => ((x + 2 ^ (e + 1) - y - c) % 2 ^ e, decide (x < y + c)))

/-! ## Logic (R226) -/

def execAnd (d : Reg) (p : Sel) (a : Reg) (q : Sel) (b : Reg) (s : State) : Host.Outcome State Fault Refusal :=
  s.whole3 (.and d p a q b) d p a q b (fun x y => x &&& y)

def execOr (d : Reg) (p : Sel) (a : Reg) (q : Sel) (b : Reg) (s : State) : Host.Outcome State Fault Refusal :=
  s.whole3 (.or d p a q b) d p a q b (fun x y => x ||| y)

def execXor (d : Reg) (p : Sel) (a : Reg) (q : Sel) (b : Reg) (s : State) : Host.Outcome State Fault Refusal :=
  s.whole3 (.xor d p a q b) d p a q b (fun x y => x ^^^ y)

def execAndn (d : Reg) (p : Sel) (a : Reg) (q : Sel) (b : Reg) (s : State) : Host.Outcome State Fault Refusal :=
  s.whole3 (.andn d p a q b) d p a q b (fun x y => x &&& (2 ^ 64 - 1 - y))

def execOrn (d : Reg) (p : Sel) (a : Reg) (q : Sel) (b : Reg) (s : State) : Host.Outcome State Fault Refusal :=
  s.whole3 (.orn d p a q b) d p a q b (fun x y => x ||| (2 ^ 64 - 1 - y))

/-! ## Shifts, rotates and counts (R227) -/

/-- a << c of e bits. -/
def shlBits (e a c : Nat) : Nat := if c ≥ e then 0 else a * 2 ^ c % 2 ^ e

def shrBits (e a c : Nat) : Nat := if c ≥ e then 0 else a % 2 ^ e / 2 ^ c

def sarBits (e a c : Nat) : Nat := ofInt e (toSigned e a / ((2 ^ Nat.min c e : Nat) : Int))

/-- Set bits among the low n. -/
def popBits : Nat → Nat → Nat
  | 0, _ => 0
  | n + 1, a => a % 2 + popBits n (a / 2)

/-- Trailing zeros among the low n. -/
def ctzBits : Nat → Nat → Nat
  | 0, _ => 0
  | n + 1, a => if a % 2 = 1 then 0 else 1 + ctzBits n (a / 2)

/-- The low n bits in reverse order. -/
def revBits : Nat → Nat → Nat
  | 0, _ => 0
  | n + 1, a => a % 2 * 2 ^ n + revBits n (a / 2)

def clzBits (e a : Nat) : Nat := if a % 2 ^ e = 0 then e else e - 1 - (a % 2 ^ e).log2

def execShl (d : Reg) (p : Sel) (a : Reg) (q : Sel) (b : Reg) (s : State) : Host.Outcome State Fault Refusal :=
  s.elems3 (.shl d p a q b) d p a q b (fun t x y => plain (shlBits t.elem x y))

def execShr (d : Reg) (p : Sel) (a : Reg) (q : Sel) (b : Reg) (s : State) : Host.Outcome State Fault Refusal :=
  s.elems3 (.shr d p a q b) d p a q b (fun t x y => plain (shrBits t.elem x y))

def execSar (d : Reg) (p : Sel) (a : Reg) (q : Sel) (b : Reg) (s : State) : Host.Outcome State Fault Refusal :=
  s.elems3 (.sar d p a q b) d p a q b (fun t x y => plain (sarBits t.elem x y))

def execRol (d : Reg) (p : Sel) (a : Reg) (q : Sel) (b : Reg) (s : State) : Host.Outcome State Fault Refusal :=
  s.elems3 (.rol d p a q b) d p a q b
    (fun t x y => plain (x * 2 ^ (y % t.elem) + x / 2 ^ (t.elem - y % t.elem)))

def execFshr (d : Reg) (p : Sel) (a : Reg) (q : Sel) (b : Reg) (s : State) : Host.Outcome State Fault Refusal :=
  s.laneOp (.fshr d p a q b) d s.curWave.vcount
    [(d, s.curWave.vcount, selId), (a, s.curWave.vcount, p), (b, s.curWave.vcount, q)]
    (fun w l => plain ((w.valP p a l * 2 ^ w.ty.elem + w.val d l) / 2 ^ (w.valP q b l % w.ty.elem) % 2 ^ w.ty.elem))

def execPopc (d : Reg) (p : Sel) (a : Reg) (s : State) : Host.Outcome State Fault Refusal :=
  s.elems2 (.popc d p a) d p a (fun t x => plain (popBits t.elem x))

def execClz (d : Reg) (p : Sel) (a : Reg) (s : State) : Host.Outcome State Fault Refusal :=
  s.elems2 (.clz d p a) d p a (fun t x => plain (clzBits t.elem x))

def execCtz (d : Reg) (p : Sel) (a : Reg) (s : State) : Host.Outcome State Fault Refusal :=
  s.elems2 (.ctz d p a) d p a (fun t x => plain (ctzBits t.elem x))

def execBrev (d : Reg) (p : Sel) (a : Reg) (s : State) : Host.Outcome State Fault Refusal :=
  s.elems2 (.brev d p a) d p a (fun t x => plain (revBits t.elem x))

/-! ## Bit fields (R228) -/

/-- Bits pos to pos + len − 1 of e. -/
def fieldMask (e pos len : Nat) : Nat := if pos ≥ e then 0 else (2 ^ len - 1) * 2 ^ pos % 2 ^ e

def bfxBits (e : Nat) (signed : Bool) (a pos len : Nat) : Nat :=
  let f := (if pos < e then a % 2 ^ e / 2 ^ pos else 0) % 2 ^ Nat.min len e
  if signed && decide (1 ≤ len) && decide (len ≤ e) then ofInt e (toSigned len f) else f

def bfiBits (e a b pos len : Nat) : Nat :=
  if pos ≥ e then a
  else (a &&& (2 ^ e - 1 - fieldMask e pos len)) ||| (b * 2 ^ pos &&& fieldMask e pos len)

def execBfx (d : Reg) (p : Sel) (a : Reg) (q : Sel) (b : Reg) (s : State) : Host.Outcome State Fault Refusal :=
  s.laneOp (.bfx d p a q b) d s.curWave.vcount [(a, s.curWave.vcount, p), (b, s.curWave.vcount, q)]
    (fun w l => plain (bfxBits w.ty.elem w.ty.signed (w.valP p a l) (bits (w.valP q b l) 0 8) (bits (w.valP q b l) 8 8)))

def execBmsk (d : Reg) (p : Sel) (a : Reg) (q : Sel) (b : Reg) (s : State) : Host.Outcome State Fault Refusal :=
  s.laneOp (.bmsk d p a q b) d s.curWave.vcount [(a, s.curWave.vcount, p), (b, s.curWave.vcount, q)]
    (fun w l => plain (fieldMask w.ty.elem (bits (w.valP p a l) 0 8) (bits (w.valP q b l) 0 8)))

def execBfi (d a b c : Reg) (p : Sel) (s : State) : Host.Outcome State Fault Refusal :=
  s.elems4 (.bfi d a b c p) d a b c p (fun t x y z => plain (bfiBits t.elem x y (bits z 0 8) (bits z 8 8)))

/-! ## Compares and selects (R229, R230, R232) -/

def execCmp (c : ICond) (kd : Low) (p : Sel) (a : Reg) (q : Sel) (b : Reg) (s : State) :
    Host.Outcome State Fault Refusal :=
  s.issue (.cmp c kd p a q b) (fun t =>
    t.setCur (t.curWave.kbits kd (fun l => iCompare c t.curWave.ty.elem t.curWave.ty.signed
      (t.curWave.valP p a l) (t.curWave.valP q b l))))

def execScmp (c : ICond) (p : Sel) (a : Reg) (q : Sel) (b : Reg) (s : State) : Host.Outcome State Fault Refusal :=
  s.issue (.scmp c p a q b) (fun t =>
    let w := t.curWave
    let r := w.active w.uniform && iCompare c w.ty.elem w.ty.signed (w.valP p a w.uniform) (w.valP q b w.uniform)
    t.setCur { w with cct := r })

/-- sext(imm12) to n bits. -/
def sext12 (n : Nat) (imm : BitVec 12) : Nat := ofInt n imm.toInt

/-- The width class in bits. -/
def Wave.wclass (w : Wave) : Nat := if w.vcount = 2 then 64 else 32

def execCmpi (c : ICond) (kd : Low) (a : Reg) (imm : BitVec 12) (s : State) : Host.Outcome State Fault Refusal :=
  s.issue (.cmpi c kd a imm) (fun t =>
    t.setCur (t.curWave.kbits kd (fun l => iCompare c t.curWave.ty.elem t.curWave.ty.signed
      (t.curWave.val a l) (sext12 t.curWave.wclass imm))))

/-- SEL under mask m. -/
def State.select (s : State) (i : Instr) (d : Reg) (p : Sel) (a : Reg) (q : Sel) (b : Reg) (m : Nat) :
    Host.Outcome State Fault Refusal :=
  s.laneOp i d s.curWave.vcount [(a, s.curWave.vcount, p), (b, s.curWave.vcount, q)]
    (fun w l => plain (if bitOf (w.kread m) l then w.valP p a l else w.valP q b l))

def execSelK03 (d : Reg) (p : Sel) (a : Reg) (q : Sel) (b : Reg) (m : Fin 4) (s : State) :
    Host.Outcome State Fault Refusal :=
  s.select (.selK03 d p a q b m) d p a q b m

def execSelK47 (d : Reg) (p : Sel) (a : Reg) (q : Sel) (b : Reg) (m : Fin 4) (s : State) :
    Host.Outcome State Fault Refusal :=
  s.select (.selK47 d p a q b m) d p a q b (4 + m)

/-! ## Four operands (R251) -/

def execMad (d a b c : Reg) (p : Sel) (s : State) : Host.Outcome State Fault Refusal :=
  s.elems4 (.mad d a b c p) d a b c p (fun _ x y z => plain (x * y + z))

def execMadh (d a b c : Reg) (p : Sel) (s : State) : Host.Outcome State Fault Refusal :=
  s.elems4 (.madh d a b c p) d a b c p
    (fun t x y z => plain (ofInt t.elem ((elemInt t x * elemInt t y + elemInt t z) / ((2 ^ t.elem : Nat) : Int))))

def execDot4 (d a b c : Reg) (p : Sel) (s : State) : Host.Outcome State Fault Refusal :=
  s.laneOp (.dot4 d a b c p) d 1 [(a, 1, p), (b, 1, selId), (c, 1, selId)]
    (fun w l => plain (ofInt 32 (((w.v c l).toNat : Int) + ((List.range 4).map (fun i =>
      elemInt w.ty (bits (w.valP p a l) (8 * i) 8) * elemInt w.ty (bits (w.val b l) (8 * i) 8))).sum)))

/-! ## Immediates (R247, R248) -/

/-- An I-format instruction on the whole value of the width class. -/
def State.immOp (s : State) (i : Instr) (d a : Reg) (f : Nat → Nat → Nat) : Host.Outcome State Fault Refusal :=
  s.laneOp i d s.curWave.vcount [(a, s.curWave.vcount, selId)] (fun w l => plain (f w.wclass (w.val a l)))

def execAddi (d a : Reg) (imm : BitVec 12) (s : State) : Host.Outcome State Fault Refusal :=
  s.immOp (.addi d a imm) d a (fun n x => x + sext12 n imm)

def execAndi (d a : Reg) (imm : BitVec 12) (s : State) : Host.Outcome State Fault Refusal :=
  s.immOp (.andi d a imm) d a (fun _ x => x &&& imm.toNat)

def execOri (d a : Reg) (imm : BitVec 12) (s : State) : Host.Outcome State Fault Refusal :=
  s.immOp (.ori d a imm) d a (fun _ x => x ||| imm.toNat)

def execXori (d a : Reg) (imm : BitVec 12) (s : State) : Host.Outcome State Fault Refusal :=
  s.immOp (.xori d a imm) d a (fun _ x => x ^^^ imm.toNat)

def execShli (d a : Reg) (c : Fin 64) (s : State) : Host.Outcome State Fault Refusal :=
  s.immOp (.shli d a c) d a (fun n x => shlBits n x c)

def execShri (d a : Reg) (c : Fin 64) (s : State) : Host.Outcome State Fault Refusal :=
  s.immOp (.shri d a c) d a (fun n x => shrBits n x c)

def execSari (d a : Reg) (c : Fin 64) (s : State) : Host.Outcome State Fault Refusal :=
  s.immOp (.sari d a c) d a (fun n x => sarBits n x c)

def execMovi (d : Reg) (imm : BitVec 12) (s : State) : Host.Outcome State Fault Refusal :=
  s.laneOp (.movi d imm) d 1 [] (fun _ _ => plain (sext12 32 imm))

def execMovh (d : Reg) (imm : BitVec 20) (s : State) : Host.Outcome State Fault Refusal :=
  s.laneOp (.movh d imm) d 1 [] (fun _ _ => plain (imm.toNat * 4096))

end Sys2Proof.Machine
end

