-- ==== Sys2Proof/Machine/Special.lean ====
section
/-! DEFINITION. Long-latency arithmetic (12/R303 to R305) and its approximate functions (08/R185; log 7). -/

namespace Sys2Proof.Machine

/-! ## Approximate functions -/

/-- Whether a magnitude m × 2^e is at most 2^0. -/
def atMostOne (m : Nat) (e : Int) : Bool := if e ≥ 0 then decide (m * 2 ^ e.toNat ≤ 1) else decide (m ≤ 2 ^ (-e).toNat)

/-- Whether a magnitude m × 2^e is at least 2^0. -/
def atLeastOne (m : Nat) (e : Int) : Bool := if e ≥ 0 then decide (m * 2 ^ e.toNat ≥ 1) else decide (m ≥ 2 ^ (-e).toNat)

/-- Whether a positive code lies within `n` ulps of the value v at which y ↦ `pow` × y^k is 1, v being at or above the
code `low`. -/
def withinUlps (f : Fmt) (k n low : Nat) (m : Nat) (e : Int) (code : Nat) : Bool :=
  match f.value low, f.value code with
  | .fin _ _ eu, .fin _ mc ec =>
    let b := if eu < ec then eu else ec
    let c := mc * 2 ^ (ec - b).toNat
    let u := n * 2 ^ (eu - b).toNat
    atMostOne (m * (c - u) ^ k) (e + k * b) && atLeastOne (m * (c + u) ^ k) (e + k * b)
  | _, _ => false

/-- A code that is not the exact result, with its conditions: a tiny one flushed where results are (R180, R183). -/
def Fmt.inexact (f : Fmt) (v : Env) (neg : Bool) (code : Nat) : Res :=
  if code % 2 ^ (f.e + f.m) < 2 ^ f.m then
    (if v.flushOut then f.signBit neg else code, cUnderflow + cInexact)
  else (code, cInexact)

/-- A result that no bound of R185 covers, its exact value being below the normal range: a free code there, with the
sign of the exact value (log 7). -/
def Fmt.freeTiny (f : Fmt) (v : Env) (neg : Bool) (pick : Nat) : Res :=
  f.inexact v neg (f.signBit neg + pick % 2 ^ f.m)

/-- A value within the bound of R185 for x^(-1/k) of a positive finite x = m × 2^e, given its rounding and its
truncation. A power of two has the exact reciprocal; a result that overflows is rounded (log 7). -/
def pickNear (f : Fmt) (v : Env) (fn k ty x : Nat) (neg : Bool) (m : Nat) (e : Int) (r low : Res) : Res :=
  let mag := r.1 % 2 ^ (f.e + f.m)
  let pick := Config.approxPick fn ty v.rm x
  if (r.2 &&& cInexact = 0 ∧ k = 1) ∨ r.2 &&& cOverflow ≠ 0 then r
  else if mag / 2 ^ f.m = 0 then f.freeTiny v neg pick
  else
    let n := if v.rm = 0 then 1 else 2
    let ok := ((List.range 9).map (fun i => mag + i - 4)).filter (fun c =>
      decide (2 ^ f.m ≤ c) && withinUlps f k n (low.1 % 2 ^ (f.e + f.m)) m e c)
    let c := ok.getD (pick % Nat.max 1 ok.length) mag
    (f.signBit neg + c, if r.2 = 0 ∧ c = mag then 0 else cInexact)

/-! Codes in the order of their values: the magnitude, negated with the sign. -/

def Fmt.ord (f : Fmt) (code : Nat) : Int :=
  let mag := code % 2 ^ (f.e + f.m)
  if code / 2 ^ (f.e + f.m) % 2 = 1 then -(mag : Int) else mag

def Fmt.ofOrd (f : Fmt) (neg : Bool) (z : Int) : Nat :=
  f.signBit (if z = 0 then neg else decide (z < 0)) + z.natAbs

/-- n × 2^s rounded up (`up`) or down, subnormals kept. -/
def Fmt.toward (f : Fmt) (up : Bool) (n s : Int) : Nat :=
  (rnd f { rm := if up then 2 else 3, dn := 0, nanp := 0, lgy := 0 } (decide (n < 0)) n.natAbs s).1

/-- A result of an approximate function (R185): the exact value lies between lo × 2^s and hi × 2^s; the bound is `ulps` of its
ulps, or `abs` × 2^s where that is larger, and one ulp more where RM is not 0. The code that `pick` takes is within the bound
of every value of the enclosure, so of the exact one. -/
def pickWithin (f : Fmt) (v : Env) (ulps abs : Nat) (lo hi s : Int) (pick : Nat) : Res :=
  let neg := decide (lo < 0)
  let mag := Nat.min lo.natAbs hi.natAbs
  let q : Int := (mag.log2 : Int) + s - f.m
  if (mag.log2 : Int) + s < f.emin then f.freeTiny v neg pick
  else
    let ulp := 2 ^ (q - s).toNat
    let tol := Nat.max (ulps * ulp) abs + (if v.rm = 0 then 0 else ulp)
    let a := f.ord (f.toward true (hi - tol) s)
    let b := f.ord (f.toward false (lo + tol) s)
    f.inexact v neg (f.ofOrd neg (a + (pick % Nat.max 1 (b - a + 1).toNat : Nat)))

/-- Rounding toward zero. -/
def Env.trunc (v : Env) : Env := v.withRm 1

def fRcp (f : Fmt) (v : Env) (ty x : Nat) : Res :=
  match f.arith v x with
  | .fin n m e =>
    if m = 0 then (f.inf n, cDivZero)
    else pickNear f v 0 1 ty x n m e (fDiv f v f.one x)
      (fDiv f v.trunc f.one x)
  | .inf n => plain (f.signBit n)
  | y => (f.nanOf v [y], sigCond [y])

/-- 1 / √(m × 2^e) rounded: from the root of 2^(2p) / m taken with enough bits. -/
def rsqrtRound (f : Fmt) (v : Env) (m : Nat) (e : Int) : Res :=
  let m1 := if e % 2 = 0 then m else 2 * m
  let e1 := if e % 2 = 0 then e else e - 1
  let p := f.m + 4 + m1.log2
  let q := Nat.sqrt (4 ^ p / m1)
  rnd f v false (2 * q + (if q * q * m1 = 4 ^ p then 0 else 1)) (-(e1 / 2) - p - 1)

def fRsq (f : Fmt) (v : Env) (ty x : Nat) : Res :=
  match f.arith v x with
  | .fin n m e =>
    if m = 0 then (f.inf n, cDivZero)
    else if n then (f.nan, cInvalid)
    else pickNear f v 1 2 ty x false m e (rsqrtRound f v m e) (rsqrtRound f v.trunc m e)
  | .inf false => plain 0
  | .inf true => (f.nan, cInvalid)
  | y => (f.nanOf v [y], sigCond [y])

/-- The largest integer at most (−1)^n × m × 2^e, and whether it equals it. -/
def floorOf (n : Bool) (m : Nat) (e : Int) : Int × Bool :=
  if e ≥ 0 then ((if n then -(m * 2 ^ e.toNat : Nat) else (m * 2 ^ e.toNat : Nat)), true)
  else
    let d := 2 ^ (-e).toNat
    let x : Int := if n then -(m : Int) else m
    (x / d, x % d == 0)

/-! Enclosures of exact results, in fixed point. -/

/-- The product of 2^(2^-i) over the bits i of a 64-bit fraction, the most significant first, each factor and product
rounded down at 96 bits; `c` is the factor of the bit before. -/
def expBits (fr : Nat) : Nat → Nat → Nat → Nat
  | 0, _, acc => acc
  | i + 1, c, acc =>
    let r := Nat.sqrt (c * 2 ^ 96)
    expBits fr i r (if fr.testBit i then acc * r / 2 ^ 96 else acc)

/-- 2^x × 2^96 for a fraction x of 64 bits, from below, the error less than 2^8. -/
def exp2Frac (fr : Nat) : Nat := expBits fr 64 (2 ^ 97) (2 ^ 96)

/-- Bits of log2 of y × 2^-192, from 1 to 2, by squaring. -/
def logBits : Nat → Nat → Nat → Nat
  | 0, _, acc => acc
  | i + 1, y, acc =>
    let z := y * y / 2 ^ 192
    if z ≥ 2 ^ 193 then logBits i (z / 2) (2 * acc + 1) else logBits i z (2 * acc)

/-- log2 (m × 2^e) × 2^64, from below, the error less than 2. -/
def log2Fix (m : Nat) (e : Int) : Int :=
  ((m.log2 : Int) + e) * 2 ^ 64 + logBits 64 (m * 2 ^ 192 / 2 ^ m.log2) 0

/-- π / 2 × 2^192, rounded down. -/
def halfPi : Nat := 0x1921fb54442d18469898cc51701b839a252049c1114cf98e8

/-- A sine or cosine series at r × 2^-192: `n` further terms after `t`, the k-th power's, with turning signs. -/
def trigSeries (r : Nat) : Nat → Nat → Nat → Bool → Int → Int
  | 0, _, _, _, acc => acc
  | n + 1, k, t, neg, acc =>
    let u := t * r / 2 ^ 192 * r / 2 ^ 192 / ((k + 1) * (k + 2))
    trigSeries r n (k + 2) u (!neg) (if neg then acc - u else acc + u)

/-- sin or cos of ±m × 2^e, at most 2^16, times 2^192: what the quadrant leaves of the argument is put into the series. -/
def trigFix (cos : Bool) (neg : Bool) (m : Nat) (e : Int) : Int :=
  let x := if e ≥ -192 then m * 2 ^ (e + 192).toNat else m / 2 ^ (-e - 192).toNat
  let k := x / halfPi
  let r := x % halfPi
  let s := trigSeries r 24 1 r true r
  let c := trigSeries r 24 0 (2 ^ 192) true (2 ^ 192 : Nat)
  let v := match (k + (if cos then 1 else 0)) % 4 with
    | 0 => s
    | 1 => c
    | 2 => -s
    | _ => -c
  if neg && !cos then -v else v

/-- Ulps of the bound of FEXP2, FLOG2, FSIN and FCOS under round to nearest (R185). -/
def Fmt.ulps (f : Fmt) : Nat := if f.m = 23 then 2 else 1

/-- FEXP2: exact at integers; else 2^k × 2^fraction within its bound. -/
def fExp2 (f : Fmt) (v : Env) (ty x : Nat) : Res :=
  match f.arith v x with
  | .fin n m e =>
    -- beyond 2^20 every format has over- or underflowed
    let big := m ≠ 0 ∧ (m.log2 : Int) + e > 20
    let k : Int × Bool := if big then (if n then -(2 ^ 20) else 2 ^ 20, true) else floorOf n m e
    if k.2 then rnd f v false 1 k.1
    else if k.1 > f.emax then rnd f v false 3 k.1
    else
      let fr := (floorOf n m (e + 64)).1 - k.1 * 2 ^ 64
      let lo := exp2Frac fr.toNat
      pickWithin f v f.ulps 0 lo (Nat.min (lo + 2 ^ 34) (2 ^ 97)) (k.1 - 96) (Config.approxBits 2 ty v.rm x)
  | .inf n => plain (if n then 0 else f.inf false)
  | y => (f.nanOf v [y], sigCond [y])

/-- FLOG2: exact at powers of two; else within its bound. -/
def fLog2 (f : Fmt) (v : Env) (ty x : Nat) : Res :=
  match f.arith v x with
  | .fin n m e =>
    if m = 0 then (f.inf true, cDivZero)
    else if n then (f.nan, cInvalid)
    else if m = 2 ^ m.log2 then
      (if (m.log2 : Int) + e = 0 then plain (f.signBit (zeroSign v))
       else rnd f v (decide ((m.log2 : Int) + e < 0)) ((m.log2 : Int) + e).natAbs 0)
    else pickWithin f v f.ulps 0 (log2Fix m e) (log2Fix m e + 2) (-64) (Config.approxBits 3 ty v.rm x)
  | .inf false => plain (f.inf false)
  | .inf true => (f.nan, cInvalid)
  | y => (f.nanOf v [y], sigCond [y])

/-- FSIN (4) and FCOS (5): exact at zeros; up to 2^16 within the bound, with its absolute part; above, a free value from
−1 to 1. -/
def fTrig (cos : Bool) (f : Fmt) (v : Env) (ty x : Nat) : Res :=
  match f.arith v x with
  | .fin n m e =>
    let pick := Config.approxBits (if cos then 5 else 4) ty v.rm x
    if m = 0 then plain (if cos then f.one else f.signBit n)
    else if fLess (.fin false 1 16) (.fin false m e) then
      f.inexact v n (f.ofOrd n ((pick : Int) % (2 * f.one + 1) - f.one))
    else if !cos && decide ((m.log2 : Int) + e < f.emin) then f.freeTiny v n pick
    else
      let y := trigFix cos n m e
      -- neither exceeds 1, nor a sine its argument
      let most : Int := if cos then 2 ^ 192 else (Nat.min (2 ^ 192) (m * 2 ^ (e + 192).toNat) : Nat)
      pickWithin f v f.ulps (2 ^ (192 - (if f.m = 23 then 24 else 11))) (max (y - 2 ^ 64) (-most)) (min (y + 2 ^ 64) most) (-192) pick
  | .inf _ => (f.nan, cInvalid)
  | y => (f.nanOf v [y], sigCond [y])

/-! ## Integer division (R305) -/

def intDiv (t : Ty) (rem : Bool) (a b : Nat) : Res :=
  let n := t.elem
  if b % 2 ^ n = 0 then (if rem then a % 2 ^ n else 2 ^ n - 1, cDivZero)
  else
    let x := elemInt t a
    let y := elemInt t b
    plain (ofInt n (if rem then Int.tmod x y else Int.tdiv x y))

/-! ## Issue -/

/-- A long-latency instruction: its result is written when it arrives, or the trap is taken in its place (R184). -/
def State.longOp (s : State) (i : Instr) (d : Reg) (srcs : List Reg) (int : Bool) (f : Wave → Nat → Res) :
    Host.Outcome State Fault Refusal :=
  s.issue i (fun t =>
    let w := t.curWave
    let n := w.vcount
    if w.conds (f w) &&& w.te ≠ 0 then t.parkArith i int (f w)
    else if w.lanes = [] then t.emptyOp .s
    else
      let vals := w.lanes.map (fun l => (l, (List.range n).map (fun j => wd ((f w l).1 / 2 ^ (32 * j) % 2 ^ 32))))
      let id := t.nextId
      let o : MemOp :=
        { wave := t.cur, kind := .long vals, pc := w.pc - 4, iword := encode i, frame := none,
          dst := (List.range n).map (w.wb + d.val + ·), size := 4 * n, hint := .dflt, order := .plain, scope := none,
          count := some .s, seq := w.seq, gmode := w.gmode, replay := false, resume := false, npc := 0,
          cdepth := w.cdepth, lanes := [] }
      let w1 := (w.markTo d n (w.srcMark (srcs.map (fun r => ((r.val, n, selId) : Src))))).countUp .s id
      ((({ t with ops := Sparse.put t.ops id o, nextId := id + 1 } : State).setCur w1).post (.longLatencyResult id)))

/-- A long-latency float instruction of one source. -/
def State.long1 (s : State) (i : Instr) (d a : Reg) (f : Fmt → Env → Nat → Nat → Res) : Host.Outcome State Fault Refusal :=
  s.longOp i d [a] false (fun w l => byElems w.ty (fun x _ _ => f (fmtOf w.ty) w.env w.ty.toNat x) (w.val a l) 0 0)

def execFdiv (d a b : Reg) (la : Ahead) (s : State) : Host.Outcome State Fault Refusal :=
  s.longOp (.fdiv d a b la) d [a, b] false (fun w l =>
    byElems w.ty (fun x y _ => fDiv (fmtOf w.ty) w.env x y) (w.val a l) (w.val b l) 0)

def execFsqrt (d a : Reg) (la : Ahead) (s : State) : Host.Outcome State Fault Refusal :=
  s.long1 (.fsqrt d a la) d a (fun f v _ x => fSqrt f v x)

def execFrcp (d a : Reg) (la : Ahead) (s : State) : Host.Outcome State Fault Refusal := s.long1 (.frcp d a la) d a fRcp

def execFrsq (d a : Reg) (la : Ahead) (s : State) : Host.Outcome State Fault Refusal := s.long1 (.frsq d a la) d a fRsq

def execFexp2 (d a : Reg) (la : Ahead) (s : State) : Host.Outcome State Fault Refusal := s.long1 (.fexp2 d a la) d a fExp2

def execFlog2 (d a : Reg) (la : Ahead) (s : State) : Host.Outcome State Fault Refusal := s.long1 (.flog2 d a la) d a fLog2

def execFsin (d a : Reg) (la : Ahead) (s : State) : Host.Outcome State Fault Refusal :=
  s.long1 (.fsin d a la) d a (fTrig false)

def execFcos (d a : Reg) (la : Ahead) (s : State) : Host.Outcome State Fault Refusal :=
  s.long1 (.fcos d a la) d a (fTrig true)

def execIdiv (d a b : Reg) (la : Ahead) (s : State) : Host.Outcome State Fault Refusal :=
  s.longOp (.idiv d a b la) d [a, b] true (fun w l =>
    byElems w.ty (fun x y _ => intDiv w.ty false x y) (w.val a l) (w.val b l) 0)

def execIrem (d a b : Reg) (la : Ahead) (s : State) : Host.Outcome State Fault Refusal :=
  s.longOp (.irem d a b la) d [a, b] true (fun w l =>
    byElems w.ty (fun x y _ => intDiv w.ty true x y) (w.val a l) (w.val b l) 0)

end Sys2Proof.Machine
end

