-- ==== Sys2Proof/Machine/Dispatch.lean ====
section
/-! DEFINITION. The meaning of every instruction and event: one arm per constructor of `Instr`. -/

namespace Sys2Proof.Machine

def exec (i : Instr) (s : State) : Host.Outcome State Fault Refusal :=
  match i with
  | .add d p a q b => Sys2Proof.Machine.execAdd d p a q b s
  | .sub d p a q b => Sys2Proof.Machine.execSub d p a q b s
  | .addc d p a q b => Sys2Proof.Machine.execAddc d p a q b s
  | .subb d p a q b => Sys2Proof.Machine.execSubb d p a q b s
  | .mul d p a q b => Sys2Proof.Machine.execMul d p a q b s
  | .mulh d p a q b => Sys2Proof.Machine.execMulh d p a q b s
  | .absd d p a q b => Sys2Proof.Machine.execAbsd d p a q b s
  | .avg d p a q b => Sys2Proof.Machine.execAvg d p a q b s
  | .min d p a q b => Sys2Proof.Machine.execMin d p a q b s
  | .max d p a q b => Sys2Proof.Machine.execMax d p a q b s
  | .satadd d p a q b => Sys2Proof.Machine.execSatadd d p a q b s
  | .satsub d p a q b => Sys2Proof.Machine.execSatsub d p a q b s
  | .and d p a q b => Sys2Proof.Machine.execAnd d p a q b s
  | .or d p a q b => Sys2Proof.Machine.execOr d p a q b s
  | .xor d p a q b => Sys2Proof.Machine.execXor d p a q b s
  | .andn d p a q b => Sys2Proof.Machine.execAndn d p a q b s
  | .orn d p a q b => Sys2Proof.Machine.execOrn d p a q b s
  | .rol d p a q b => Sys2Proof.Machine.execRol d p a q b s
  | .fshr d p a q b => Sys2Proof.Machine.execFshr d p a q b s
  | .shl d p a q b => Sys2Proof.Machine.execShl d p a q b s
  | .shr d p a q b => Sys2Proof.Machine.execShr d p a q b s
  | .sar d p a q b => Sys2Proof.Machine.execSar d p a q b s
  | .popc d p a => Sys2Proof.Machine.execPopc d p a s
  | .clz d p a => Sys2Proof.Machine.execClz d p a s
  | .ctz d p a => Sys2Proof.Machine.execCtz d p a s
  | .brev d p a => Sys2Proof.Machine.execBrev d p a s
  | .bfx d p a q b => Sys2Proof.Machine.execBfx d p a q b s
  | .bmsk d p a q b => Sys2Proof.Machine.execBmsk d p a q b s
  | .cmp c kd p a q b => Sys2Proof.Machine.execCmp c kd p a q b s
  | .scmp c p a q b => Sys2Proof.Machine.execScmp c p a q b s
  | .selK03 d p a q b m => Sys2Proof.Machine.execSelK03 d p a q b m s
  | .selK47 d p a q b m => Sys2Proof.Machine.execSelK47 d p a q b m s
  | .fadd d p a q b => Sys2Proof.Machine.execFadd d p a q b s
  | .fsub d p a q b => Sys2Proof.Machine.execFsub d p a q b s
  | .fmul d p a q b => Sys2Proof.Machine.execFmul d p a q b s
  | .fmin d p a q b => Sys2Proof.Machine.execFmin d p a q b s
  | .fmax d p a q b => Sys2Proof.Machine.execFmax d p a q b s
  | .fscale d p a q b => Sys2Proof.Machine.execFscale d p a q b s
  | .fneg d p a => Sys2Proof.Machine.execFneg d p a s
  | .fabs d p a => Sys2Proof.Machine.execFabs d p a s
  | .ffract d p a => Sys2Proof.Machine.execFfract d p a s
  | .fclass d p a => Sys2Proof.Machine.execFclass d p a s
  | .frnd d p a r => Sys2Proof.Machine.execFrnd d p a r s
  | .fcmp c kd p a q b => Sys2Proof.Machine.execFcmp c kd p a q b s
  | .cvt d p a t rz => Sys2Proof.Machine.execCvt d p a t rz s
  | .pack d p a q b => Sys2Proof.Machine.execPack d p a q b s
  | .unpk d p a q b => Sys2Proof.Machine.execUnpk d p a q b s
  | .sat d p a => Sys2Proof.Machine.execSat d p a s
  | .shfl d p a q b m => Sys2Proof.Machine.execShfl d p a q b m s
  | .qxh d p a => Sys2Proof.Machine.execQxh d p a s
  | .qxv d p a => Sys2Proof.Machine.execQxv d p a s
  | .qxd d p a => Sys2Proof.Machine.execQxd d p a s
  | .qbc d p a n => Sys2Proof.Machine.execQbc d p a n s
  | .qswz d p a hi6 lo2 => Sys2Proof.Machine.execQswz d p a hi6 lo2 s
  | .wred d p a op => Sys2Proof.Machine.execWred d p a op s
  | .wscan d p a op excl => Sys2Proof.Machine.execWscan d p a op excl s
  | .kand kd ka kb => Sys2Proof.Machine.execKand kd ka kb s
  | .kor kd ka kb => Sys2Proof.Machine.execKor kd ka kb s
  | .kxor kd ka kb => Sys2Proof.Machine.execKxor kd ka kb s
  | .kandn kd ka kb => Sys2Proof.Machine.execKandn kd ka kb s
  | .knot kd ka => Sys2Proof.Machine.execKnot kd ka s
  | .kmov kd ka => Sys2Proof.Machine.execKmov kd ka s
  | .kpopc d ka => Sys2Proof.Machine.execKpopc d ka s
  | .kffs d ka => Sys2Proof.Machine.execKffs d ka s
  | .exmrd kd => Sys2Proof.Machine.execExmrd kd s
  | .exmwr ka => Sys2Proof.Machine.execExmwr ka s
  | .mov d p a => Sys2Proof.Machine.execMov d p a s
  | .sread d n => Sys2Proof.Machine.execSread d n s
  | .hlprd d p a => Sys2Proof.Machine.execHlprd d p a s
  | .fma d a b c p => Sys2Proof.Machine.execFma d a b c p s
  | .fms d a b c p => Sys2Proof.Machine.execFms d a b c p s
  | .fnma d a b c p => Sys2Proof.Machine.execFnma d a b c p s
  | .mad d a b c p => Sys2Proof.Machine.execMad d a b c p s
  | .madh d a b c p => Sys2Proof.Machine.execMadh d a b c p s
  | .bfi d a b c p => Sys2Proof.Machine.execBfi d a b c p s
  | .dot4 d a b c p => Sys2Proof.Machine.execDot4 d a b c p s
  | .fdot2 d a b c p => Sys2Proof.Machine.execFdot2 d a b c p s
  | .lerp d a b c p => Sys2Proof.Machine.execLerp d a b c p s
  | .clamp d a b c p => Sys2Proof.Machine.execClamp d a b c p s
  | .ld d a f sz ch la => Sys2Proof.Machine.execLd d a f sz ch la s
  | .st d a f sz ch la => Sys2Proof.Machine.execSt d a f sz ch la s
  | .ldl d a sz la => Sys2Proof.Machine.execLdl d a sz la s
  | .stl d a sz la => Sys2Proof.Machine.execStl d a sz la s
  | .prf flt a f sz ch la => Sys2Proof.Machine.execPrf flt a f sz ch la s
  | .ldAcq d a f sz sc la => Sys2Proof.Machine.execLdAcq d a f sz sc la s
  | .stRel d a f sz sc la => Sys2Proof.Machine.execStRel d a f sz sc la s
  | .aadd d a f sc o la => Sys2Proof.Machine.execAadd d a f sc o la s
  | .amin d a f sc o la => Sys2Proof.Machine.execAmin d a f sc o la s
  | .amax d a f sc o la => Sys2Proof.Machine.execAmax d a f sc o la s
  | .aand d a f sc o la => Sys2Proof.Machine.execAand d a f sc o la s
  | .aor d a f sc o la => Sys2Proof.Machine.execAor d a f sc o la s
  | .axor d a f sc o la => Sys2Proof.Machine.execAxor d a f sc o la s
  | .axchg d a f sc o la => Sys2Proof.Machine.execAxchg d a f sc o la s
  | .acas d a f sc o la => Sys2Proof.Machine.execAcas d a f sc o la s
  | .afadd d a f sc o la => Sys2Proof.Machine.execAfadd d a f sc o la s
  | .ainc d a f sc o la => Sys2Proof.Machine.execAinc d a f sc o la s
  | .fence sc la => Sys2Proof.Machine.execFence sc la s
  | .fencex dir la => Sys2Proof.Machine.execFencex dir la s
  | .wait n c la => Sys2Proof.Machine.execWait n c la s
  | .xlb a f la => Sys2Proof.Machine.execXlb a f la s
  | .xinv a sc la => Sys2Proof.Machine.execXinv a sc la s
  | .fdiv d a b la => Sys2Proof.Machine.execFdiv d a b la s
  | .fsqrt d a la => Sys2Proof.Machine.execFsqrt d a la s
  | .frcp d a la => Sys2Proof.Machine.execFrcp d a la s
  | .frsq d a la => Sys2Proof.Machine.execFrsq d a la s
  | .fexp2 d a la => Sys2Proof.Machine.execFexp2 d a la s
  | .flog2 d a la => Sys2Proof.Machine.execFlog2 d a la s
  | .fsin d a la => Sys2Proof.Machine.execFsin d a la s
  | .fcos d a la => Sys2Proof.Machine.execFcos d a la s
  | .idiv d a b la => Sys2Proof.Machine.execIdiv d a b la s
  | .irem d a b la => Sys2Proof.Machine.execIrem d a b la s
  | .cpy d a f ch la => Sys2Proof.Machine.execCpy d a f ch la s
  | .cpymc d a f mask la => Sys2Proof.Machine.execCpymc d a f mask la s
  | .cpyst g a f ch la => Sys2Proof.Machine.execCpyst g a f ch la s
  | .cpyg d a f ch la => Sys2Proof.Machine.execCpyg d a f ch la s
  | .cpys d a la => Sys2Proof.Machine.execCpys d a la s
  | .cpyp d a f g ch la => Sys2Proof.Machine.execCpyp d a f g ch la s
  | .cpyq d a f g ch la => Sys2Proof.Machine.execCpyq d a f g ch la s
  | .mma d a z c la => Sys2Proof.Machine.execMma d a z c la s
  | .mmas d a z c la => Sys2Proof.Machine.execMmas d a z c la s
  | .mmab d a z c la => Sys2Proof.Machine.execMmab d a z c la s
  | .comp a c la => Sys2Proof.Machine.execComp a c la s
  | .plnw a sel c la => Sys2Proof.Machine.execPlnw a sel c la s
  | .plnr a sel c la => Sys2Proof.Machine.execPlnr a sel c la s
  | .accz d n la => Sys2Proof.Machine.execAccz d n la s
  | .accld d a la => Sys2Proof.Machine.execAccld d a la s
  | .accst d a la => Sys2Proof.Machine.execAccst d a la s
  | .accrd d a r la => Sys2Proof.Machine.execAccrd d a r la s
  | .accwr d a r la => Sys2Proof.Machine.execAccwr d a r la s
  | .mxtokAcq la => Sys2Proof.Machine.execMxtokAcq la s
  | .mxtokRel la => Sys2Proof.Machine.execMxtokRel la s
  | .mxtokPass w la => Sys2Proof.Machine.execMxtokPass w la s
  | .bar b la => Sys2Proof.Machine.execBar b la s
  | .sstep la => Sys2Proof.Machine.execSstep la s
  | .rnga d g la => Sys2Proof.Machine.execRnga d g la s
  | .rngc a g la => Sys2Proof.Machine.execRngc a g la s
  | .rngw d g la => Sys2Proof.Machine.execRngw d g la s
  | .rngf a g la => Sys2Proof.Machine.execRngf a g la s
  | .yieldc n off la => Sys2Proof.Machine.execYieldc n off la s
  | .enq a la => Sys2Proof.Machine.execEnq a la s
  | .enqd a la => Sys2Proof.Machine.execEnqd a la s
  | .movh d imm => Sys2Proof.Machine.execMovh d imm s
  | .br m c off => Sys2Proof.Machine.execBr m c off s
  | .call off => Sys2Proof.Machine.execCall off s
  | .sigchk x => Sys2Proof.Machine.execSigchk x s
  | .addi d a imm => Sys2Proof.Machine.execAddi d a imm s
  | .andi d a imm => Sys2Proof.Machine.execAndi d a imm s
  | .ori d a imm => Sys2Proof.Machine.execOri d a imm s
  | .xori d a imm => Sys2Proof.Machine.execXori d a imm s
  | .shli d a c => Sys2Proof.Machine.execShli d a c s
  | .shri d a c => Sys2Proof.Machine.execShri d a c s
  | .sari d a c => Sys2Proof.Machine.execSari d a c s
  | .cmpi c kd a imm => Sys2Proof.Machine.execCmpi c kd a imm s
  | .movi d imm => Sys2Proof.Machine.execMovi d imm s
  | .ldc d a imm => Sys2Proof.Machine.execLdc d a imm s
  | .callr a => Sys2Proof.Machine.execCallr a s
  | .callg slot => Sys2Proof.Machine.execCallg slot s
  | .ret => Sys2Proof.Machine.execRet s
  | .enter n => Sys2Proof.Machine.execEnter n s
  | .exit => Sys2Proof.Machine.execExit s
  | .jmpr a => Sys2Proof.Machine.execJmpr a s
  | .mpush k => Sys2Proof.Machine.execMpush k s
  | .melse => Sys2Proof.Machine.execMelse s
  | .mpop => Sys2Proof.Machine.execMpop s
  | .setm a => Sys2Proof.Machine.execSetm a s
  | .setmf f v => Sys2Proof.Machine.execSetmf f v s
  | .getm d => Sys2Proof.Machine.execGetm d s
  | .regn => Sys2Proof.Machine.execRegn s
  | .nop => Sys2Proof.Machine.execNop s
  | .bkpt c => Sys2Proof.Machine.execBkpt c s
  | .trap c => Sys2Proof.Machine.execTrap c s
  | .esc x y z => Sys2Proof.Machine.execEsc x y z s
  | .prld d a => Sys2Proof.Machine.execPrld d a s
  | .prst d a => Sys2Proof.Machine.execPrst d a s
  | .prreg d a => Sys2Proof.Machine.execPrreg d a s
  | .pwreg d a => Sys2Proof.Machine.execPwreg d a s
  | .presume a => Sys2Proof.Machine.execPresume a s
  | .pretry a => Sys2Proof.Machine.execPretry a s
  | .predir d a => Sys2Proof.Machine.execPredir d a s
  | .pkill a => Sys2Proof.Machine.execPkill a s
  | .prplay a => Sys2Proof.Machine.execPrplay a s
  | .snap x => Sys2Proof.Machine.execSnap x s
  | .reord d a => Sys2Proof.Machine.execReord d a s
  | .ptld d a n => Sys2Proof.Machine.execPtld d a n s
  | .rgset d a e => Sys2Proof.Machine.execRgset d a e s
  | .krepl d a => Sys2Proof.Machine.execKrepl d a s
  | .csrr d a => Sys2Proof.Machine.execCsrr d a s
  | .csrw d a => Sys2Proof.Machine.execCsrw d a s
  | .unassignedWord w => Sys2Proof.Machine.execUnassignedWord w s
  | .contextSaveComplete die => Sys2Proof.Machine.execContextSaveComplete die s
  | .walkComplete k => Sys2Proof.Machine.execWalkComplete k s
  | .recordWritten p => Sys2Proof.Machine.execRecordWritten p s
  | .lateFault op lanes cls finfo => Sys2Proof.Machine.execLateFault op lanes cls finfo s
  | .migrationTake die => Sys2Proof.Machine.execMigrationTake die s
  | .migrationDrained die id => Sys2Proof.Machine.execMigrationDrained die id s
  | .migrationCopyDone die id how => Sys2Proof.Machine.execMigrationCopyDone die id how s
  | .rds r => Sys2Proof.Machine.execRds r s
  | .rdnc r => Sys2Proof.Machine.execRdnc r s
  | .wr r => Sys2Proof.Machine.execWr r s
  | .wrnc r => Sys2Proof.Machine.execWrnc r s
  | .atom r => Sys2Proof.Machine.execAtom r s
  | .ckout r => Sys2Proof.Machine.execCkout r s
  | .ckin r => Sys2Proof.Machine.execCkin r s
  | .drop r => Sys2Proof.Machine.execDrop r s
  | .wback r => Sys2Proof.Machine.execWback r s
  | .iack core line home => Sys2Proof.Machine.execIack core line home s
  | .rcld core line data poison => Sys2Proof.Machine.execRcld core line data poison s
  | .birsp line data poisoned => Sys2Proof.Machine.execBirsp line data poisoned s
  | .lhpass line => Sys2Proof.Machine.execLhpass line s
  | .inv core line home => Sys2Proof.Machine.execInv core line home s
  | .upd core line home bytes => Sys2Proof.Machine.execUpd core line home bytes s
  | .recall core line => Sys2Proof.Machine.execRecall core line s
  | .dataS r => Sys2Proof.Machine.execDataS r s
  | .dataX r => Sys2Proof.Machine.execDataX r s
  | .dataC r => Sys2Proof.Machine.execDataC r s
  | .ack r => Sys2Proof.Machine.execAck r s
  | .ackData r => Sys2Proof.Machine.execAckData r s
  | .cCopyExpiry core line => Sys2Proof.Machine.execCCopyExpiry core line s
  | .fenceGtPass wave => Sys2Proof.Machine.execFenceGtPass wave s
  | .onchipWindowAccess a => Sys2Proof.Machine.execOnchipWindowAccess a s
  | .taskPush p => Sys2Proof.Machine.execTaskPush p s
  | .successorSignal g => Sys2Proof.Machine.execSuccessorSignal g s
  | .taskDispatch die => Sys2Proof.Machine.execTaskDispatch die s
  | .objectLoad die task => Sys2Proof.Machine.execObjectLoad die task s
  | .workgroupPlace die => Sys2Proof.Machine.execWorkgroupPlace die s
  | .workgroupRetire wg => Sys2Proof.Machine.execWorkgroupRetire wg s
  | .budgetExhausted task => Sys2Proof.Machine.execBudgetExhausted task s
  | .taskDeadline task => Sys2Proof.Machine.execTaskDeadline task s
  | .parkedDeadline die index => Sys2Proof.Machine.execParkedDeadline die index s
  | .indigoEntry wave => Sys2Proof.Machine.execIndigoEntry wave s
  | .indigoExit wave => Sys2Proof.Machine.execIndigoExit wave s
  | .fillComplete wave => Sys2Proof.Machine.execFillComplete wave s
  | .segmentIssue core => Sys2Proof.Machine.execSegmentIssue core s
  | .segmentRetire core copy seg => Sys2Proof.Machine.execSegmentRetire core copy seg s
  | .segmentPark core copy seg => Sys2Proof.Machine.execSegmentPark core copy seg s
  | .matrixPass core => Sys2Proof.Machine.execMatrixPass core s
  | .sstepSwap gang => Sys2Proof.Machine.execSstepSwap gang s
  | .lCopyExpiry core line => Sys2Proof.Machine.execLCopyExpiry core line s
  | .longLatencyResult op => Sys2Proof.Machine.execLongLatencyResult op s
  | .xinvComplete op => Sys2Proof.Machine.execXinvComplete op s
  | .snpinv tag pa => Sys2Proof.Machine.execSnpinv tag pa s
  | .snpdata tag pa => Sys2Proof.Machine.execSnpdata tag pa s
  | .registerWrite num inst v => Sys2Proof.Machine.execRegisterWrite num inst v s
  | .l2modeWrite v by_ => Sys2Proof.Machine.execL2modeWrite v by_ s
  | .twlogClear die v => Sys2Proof.Machine.execTwlogClear die v s
  | .prbaseWrite die v => Sys2Proof.Machine.execPrbaseWrite die v s
  | .siglostClear die => Sys2Proof.Machine.execSiglostClear die s
  | .mrbaseWrite die v => Sys2Proof.Machine.execMrbaseWrite die v s
  | .prectlSave die ctx => Sys2Proof.Machine.execPrectlSave die ctx s
  | .prectlRestore die ctx => Sys2Proof.Machine.execPrectlRestore die ctx s
  | .ctxbaseWrite die v => Sys2Proof.Machine.execCtxbaseWrite die v s
  | .tqbaseWrite die v => Sys2Proof.Machine.execTqbaseWrite die v s
  | .kcfgWrite die v => Sys2Proof.Machine.execKcfgWrite die v s
  | .snapdataRead => Sys2Proof.Machine.execSnapdataRead s
  | .snaphost => Sys2Proof.Machine.execSnaphost s
  | .snapGtTrigger => Sys2Proof.Machine.execSnapGtTrigger s
  | .snapPeerTrigger => Sys2Proof.Machine.execSnapPeerTrigger s
  | .door die slot => Sys2Proof.Machine.execDoor die slot s
  | .enqSlotFieldWrite die slot off v => Sys2Proof.Machine.execEnqSlotFieldWrite die slot off v s
  | .quote => Sys2Proof.Machine.execQuote s
  | .advsvn => Sys2Proof.Machine.execAdvsvn s
  | .revoke => Sys2Proof.Machine.execRevoke s
  | .setkey => Sys2Proof.Machine.execSetkey s
  | .idkey => Sys2Proof.Machine.execIdkey s
  | .scanTestStart die v => Sys2Proof.Machine.execScanTestStart die v s
  | .scanPatternStart die => Sys2Proof.Machine.execScanPatternStart die s
  | .scanTestComplete die pass => Sys2Proof.Machine.execScanTestComplete die pass s
  | .scrubSector die found => Sys2Proof.Machine.execScrubSector die found s
  | .hostrd tag pa => Sys2Proof.Machine.execHostrd tag pa s
  | .hostwr tag pa bytes => Sys2Proof.Machine.execHostwr tag pa bytes s
  | .biconflict line => Sys2Proof.Machine.execBiconflict line s
  | .biTimeout line => Sys2Proof.Machine.execBiTimeout line s
  | .snpcur tag pa => Sys2Proof.Machine.execSnpcur tag pa s
  | .cxlCacheResponse line data poisoned => Sys2Proof.Machine.execCxlCacheResponse line data poisoned s
  | .hostportTimeout line => Sys2Proof.Machine.execHostportTimeout line s
  | .tosorFlit port crcOk => Sys2Proof.Machine.execTosorFlit port crcOk s
  | .tosorTimeout w => Sys2Proof.Machine.execTosorTimeout w s
  | .gtLockAcquired => Sys2Proof.Machine.execGtLockAcquired s
  | .gtLockLost => Sys2Proof.Machine.execGtLockLost s
  | .scoreboardSquash core slot => Sys2Proof.Machine.execScoreboardSquash core slot s
  | .reset trip => Sys2Proof.Machine.execReset trip s
  | .ochreEntry => Sys2Proof.Machine.execOchreEntry s
  | .fullEntry => Sys2Proof.Machine.execFullEntry s
  | .degradedEntry failed => Sys2Proof.Machine.execDegradedEntry failed s
  | .powerOverLimit watts => Sys2Proof.Machine.execPowerOverLimit watts s
  | .thermalThrottle => Sys2Proof.Machine.execThermalThrottle s
  | .thermalTrip => Sys2Proof.Machine.execThermalTrip s
  | .d3hotEntry => Sys2Proof.Machine.execD3hotEntry s
  | .d3coldEntry => Sys2Proof.Machine.execD3coldEntry s
  | .d0Return => Sys2Proof.Machine.execD0Return s
  | .powerBelowLimit watts => Sys2Proof.Machine.execPowerBelowLimit watts s
  | .thermalThrottleEnd => Sys2Proof.Machine.execThermalThrottleEnd s
  | .l2FlushComplete => Sys2Proof.Machine.execL2FlushComplete s
  | .rgsetDrainComplete => Sys2Proof.Machine.execRgsetDrainComplete s

end Sys2Proof.Machine
end

