-- ==== Sys2Proof/Machine/Ahead.lean ====
section
/-! DEFINITION. What an indigo run does with each instruction (14/R361, 02/R50, 06/R146): it executes against its copy of
the window's state; translation misses walk, loads become prefetches, and nothing else of the package changes. -/

namespace Sys2Proof.Machine

/-! ## Indigo sources (R361) -/

/-- Masks that an instruction reads; 8 stands for CC.T. -/
def kReads (i : Instr) : List Nat :=
  match i with
  | .addc _ _ _ _ _ => [7]
  | .subb _ _ _ _ _ => [7]
  | .selK03 _ _ _ _ _ m => [m.val]
  | .selK47 _ _ _ _ _ m => [4 + m.val]
  | .kand _ a b => [a.val, b.val]
  | .kor _ a b => [a.val, b.val]
  | .kxor _ a b => [a.val, b.val]
  | .kandn _ a b => [a.val, b.val]
  | .knot _ a => [a.val]
  | .kmov _ a => [a.val]
  | .kpopc _ a => [a.val]
  | .kffs _ a => [a.val]
  | .exmwr a => [a.val]
  | .br m c _ =>
    (match c with
     | .t => [8]
     | .f => [8]
     | _ => [m.val])
  | _ => []

/-- Masks that an instruction writes; 8 stands for CC.T. -/
def kWrites (i : Instr) : List Nat :=
  match i with
  | .addc _ _ _ _ _ => [7]
  | .subb _ _ _ _ _ => [7]
  | .cmp _ k _ _ _ _ => [k.val]
  | .cmpi _ k _ _ => [k.val]
  | .fcmp _ k _ _ _ _ => [k.val]
  | .scmp _ _ _ _ _ => [8]
  | .kand d _ _ => [d.val]
  | .kor d _ _ => [d.val]
  | .kxor d _ _ => [d.val]
  | .kandn d _ _ => [d.val]
  | .knot d _ => [d.val]
  | .kmov d _ => [d.val]
  | .exmrd d => [d.val]
  | _ => []

/-- Instructions whose lanes read other lanes. -/
def crossLane (i : Instr) : Bool :=
  match i with
  | .shfl _ _ _ _ _ _ => true
  | .qxh _ _ _ => true
  | .qxv _ _ _ => true
  | .qxd _ _ _ => true
  | .qbc _ _ _ _ => true
  | .qswz _ _ _ _ _ => true
  | .wred _ _ _ _ => true
  | .wscan _ _ _ _ _ => true
  | .setm _ => true
  | _ => false

/-- Whether some source of a lane is indigo. -/
def Indigo.tainted (r : Indigo) (i : Instr) (l : Nat) : Bool :=
  let w := r.copy
  let o := i.opnds w
  let from_ : List Nat := if crossLane i then List.range w.width else l :: o.sels.map (fun p => w.srcLane p l)
  (kReads i).any r.kmarks.contains || o.rdF.any r.fmarks.contains ||
  (singles o.rd).any (fun n => from_.any (fun x => r.marks.contains ((w.wb + n) * 64 + x)))

/-- Marks of the registers d in some lanes set where `f` says so, cleared elsewhere. -/
def Indigo.remark (r : Indigo) (ds lanes : List Nat) (f : Nat → Bool) : Indigo :=
  let at_ : List Nat := ds.flatMap (fun n => lanes.map (fun l => (r.copy.wb + n) * 64 + l))
  { r with marks := r.marks.filter (fun m => !at_.contains m) ++ at_.filter (fun m => f (m % 64)) }

/-! ## Computed instructions -/

/-- Instructions that a run computes in its copy: class 00 and 01, ADDI to MOVI, MOVH, LDC, SETM, SETMF, GETM, NOP. -/
def computed (i : Instr) : Bool :=
  decide (bits (encode i).toNat 30 2 ≤ 1) ||
  (match i with
   | .addi _ _ _ => true
   | .andi _ _ _ => true
   | .ori _ _ _ => true
   | .xori _ _ _ => true
   | .shli _ _ _ => true
   | .shri _ _ _ => true
   | .sari _ _ _ => true
   | .cmpi _ _ _ _ => true
   | .movi _ _ => true
   | .movh _ _ => true
   | .ldc _ _ _ => true
   | .setm _ => true
   | .setmf _ _ => true
   | .getm _ => true
   | .nop => true
   | _ => false)

/-- Instructions that read or write GMODE whole. -/
def readsMode (i : Instr) : Bool :=
  match i with
  | .setm _ => true
  | .setmf _ _ => true
  | .getm _ => true
  | _ => false

/-- The copy after a computed instruction: no condition traps, nothing folds into SIGR (R258), a lane whose constant lies
outside is indigo. -/
def State.runCompute (s : State) (id : Nat) (r : Indigo) (i : Instr) : Option Indigo :=
  let w := r.copy
  let o := i.opnds w
  let c : Wave := if readsMode i then w else { w with gmode := setFld w.gmode 16 5 0 }
  let stops : Bool := match i with
    | .exmwr a => r.kmarks.contains a.val
    | .setm _ => w.lanes.any (r.tainted i)
    | _ => false
  if stops then none
  else match exec i { s with cur := id, waves := Sparse.put s.waves id c, ops := [], engines := [], indigo := [] } with
    | .next t =>
      let x := t.wave id
      let z : Wave := match i with
        | .sread d n => if n.val = 0x16 then x.vwrite d.val (fun _ => w.sigr) else x
        | _ => x
      let y : Wave := { z with status := .ready, sigr := w.sigr, gmode := if readsMode i then x.gmode else setFld x.gmode 16 5 (fld w.gmode 16 5) }
      let far : Nat → Bool := fun l => match i with
        | .ldc _ a imm => !constOk (((s.kernelOf w).map (·.constSz)).getD 0) (w.constOff a imm l)
        | _ => false
      if x.pc ≠ w.pc + 4 then none
      else
        let q := r.remark (singles o.wr) w.lanes (fun l => r.tainted i l || far l)
        let kt : Bool := w.lanes.any (r.tainted i)
        let kw := kWrites i
        some { q with copy := y, run := r.run + 1,
                      kmarks := r.kmarks.filter (fun k => !kw.contains k) ++ (if kt then kw.filter (· ≠ 0) else []) }
    | _ => none

/-! ## Memory instructions -/

/-- A translation that a run lacks: it walks, and under PREFAULT a page that is not there gets an entry of its own, with
a record whose unit is no unit (R50). -/
def State.runMiss (s : State) (id : Nat) (va : Dword) : State :=
  let core := coreOfWave id
  let cl := clusterOfCore core
  let w := s.wave id
  let s1 := s.askWalk cl w.ctx (pageOf va)
  if !((s.kernelOf w).any (fun k => k.prefault)) || (findKey (s.fbOf cl) (s.asid w.ctx) (pageOf va)).isSome then s1
  else match s.walk core w.ctx va, (s.fbOf cl).findIdx? (fun e => decide (e.state = .free)) with
    | .bad 1 lvl, some i =>
      let e : FbEntry :=
        { state := .pending, asid := s.asid w.ctx, ctx := w.ctx, page := pageOf va, level := lvl, reason := 1,
          named := (5, cl * 8 + i), waiters := [], record := none, prefault := true }
      (s1.setFb cl ((s.fbOf cl).set i e)).post
        (.recordWritten
          { die := dieOfCore core, cluster := cl, kind := 5, cls := 5, wave := 0, unit := cl * 8 + i, status := 0,
            words := [(0, dw (5 * 2 ^ 60 + 5 * 2 ^ 48)), (7, va), (8, accessInfo 1 0 lvl 6 i)], marks := [], entries := [] })
    | _, _ => s1

/-- A lane of a run as a prefetch of its own, which walks and asks for its lines, and which no counter counts (R146, R295). -/
def State.runAsk (s : State) (id : Nat) (r : Indigo) (f : Frame) (size : Nat) (va : Dword) : State :=
  let o : MemOp :=
    { wave := id, kind := .prefetch false, pc := r.copy.pc, iword := 0, frame := some f, dst := [], size := size, hint := .dflt,
      order := .plain, scope := none, count := none, seq := r.seq, gmode := r.copy.gmode, replay := false, resume := false,
      npc := 0, cdepth := r.copy.cdepth,
      lanes := [{ lane := 0, va := va, phase := .xlate, data := [], cmp := [], key := none }] }
  ({ s with ops := Sparse.put s.ops s.nextId o, nextId := s.nextId + 1 } : State).tryOp s.nextId

/-- A lane of a memory instruction of a run: a usable copy gives its bytes, else its lines are asked for. -/
def State.runLane (s : State) (id : Nat) (r : Indigo) (f : Frame) (size : Nat) (va : Dword) : State × Option (List Byte) :=
  let w := r.copy
  let core := coreOfWave id
  match s.resolve core w.ctx w.sys f .prefetch va none with
  | .miss => ((s.runMiss id va).runAsk id r f size va, none)
  | .deny _ => (s, none)
  | .ok pa a =>
    match (if a.cached && targetOf pa != .onchip && pa % 128 + size ≤ 128 then s.usable core (lineOf pa) else none) with
    | some c => (s, some ((c.data.drop (pa % 128)).take size))
    | none => (s.runAsk id r f size va, none)

/-- The bytes of a load as registers of a lane (R289). -/
def laneWords (signed : Bool) (size : Nat) (bs : List Byte) : List Word :=
  if size < 4 then [wd (if signed then ofInt 32 (toSigned (8 * size) (ofBytes bs)) else ofBytes bs)]
  else (List.range (size / 4)).map (fun i => wd (ofBytes ((bs.drop (4 * i)).take 4)))

/-- Registers from d of a lane of the copy, with the words a load gives them; they are no longer indigo. -/
def Indigo.land (r : Indigo) (d l : Nat) (vs : List Word) : Indigo :=
  (((List.range vs.length).zip vs).foldl (fun (acc : Indigo) x =>
    { acc with copy := acc.copy.lwrite (acc.copy.wb + d + x.1) (fun k => if k = l then some x.2 else none) }) r).remark
    ((List.range vs.length).map (d + ·)) [l] (fun _ => false)

/-- A load, atomic or prefetch of a run. -/
def State.runMem (s : State) (id : Nat) (r : Indigo) (a f : Nat) (size : Nat) (signed : Bool)
    (dst : Option (Nat × Nat)) : State × Indigo :=
  let w := r.copy
  let valid : Nat → Bool := fun l => !r.fmarks.contains f && !r.marks.contains ((w.wb + a) * 64 + l)
  let q : Indigo := match dst with
    | some (d, n) => r.remark (regsFrom d n) w.lanes (fun _ => true)
    | none => r
  w.lanes.foldl (fun (acc : State × Indigo) l =>
    if !valid l then acc
    else
      let y := acc.1.runLane id r (w.frame f) size (w.memVa f a l)
      match dst, y.2 with
      | some (d, _), some bs => (y.1, acc.2.land d l (laneWords signed size bs))
      | _, _ => (y.1, acc.2)) (s, q)

/-- LDL of a run: what lies in the scratchpad is read; an address in the alias ends the run. -/
def State.runLdl (s : State) (r : Indigo) (d a : Nat) (sz : Size) : Option Indigo :=
  let w := r.copy
  let clean : List Nat := w.lanes.filter (fun l => !r.marks.contains ((w.wb + a) * 64 + l))
  if clean.any (fun l => decide (0x100000 ≤ (w.v a l).toNat) && decide ((w.v a l).toNat < 0x180000)) then none
  else match s.wg w.wg with
    | none => none
    | some g =>
      some (clean.foldl (fun (acc : Indigo) l =>
        match localAt w g.l (w.v a l).toNat sz.bytes with
        | .pad p => acc.land d l (laneWords (sizeSigned sz) sz.bytes ((List.range sz.bytes).map (fun i => s.byte (g.pa false (p + i)))))
        | _ => acc) (r.remark (regsFrom d sz.regs) w.lanes (fun _ => true)))

/-- The copy past its instruction. -/
def Indigo.past (r : Indigo) : Indigo := { r with copy := { r.copy with pc := r.copy.pc + 4 }, run := r.run + 1 }

/-- A miss of an XLB of a run walks; the run waits where the walk finds a leaf. -/
def State.runWalk (s : State) (id : Nat) (r : Indigo) (va : Dword) (lost : Indigo) (x : WalkEnd) : State × Indigo :=
  match x with
  | .leaf _ _ _ => (s.runMiss id va, r)
  | _ => (s.runMiss id va, lost)

/-- The translation that an XLB of a run asks for: the frame of a TLB entry, else a walk. -/
def State.runLookup (s : State) (id : Nat) (r : Indigo) (va : Dword) (hit : Frame → Indigo) (lost : Indigo) : State × Indigo :=
  match s.tlbLookup (coreOfWave id) (s.asid r.copy.ctx) (pageOf va) with
  | some e => (s, hit (frameOf e va))
  | none => s.runWalk id r va lost (s.walk (coreOfWave id) r.copy.ctx va)

/-- XLB of a run: the copy's frame is written, indigo where the address is; the run waits for the walk that it needs. -/
def State.runXlb (s : State) (id : Nat) (r : Indigo) (a f : Nat) : State × Indigo :=
  let w := r.copy
  let off : Indigo := { r with copy := w.setFrame f { w.frame f with v := false } }.past
  if w.lanes = [] then (s, { off with fmarks := r.fmarks.filter (· ≠ f) })
  else
    let u := w.uniform
    let lost : Indigo := { off with fmarks := f :: r.fmarks.filter (· ≠ f) }
    if r.marks.contains ((w.wb + a) * 64 + u) || r.marks.contains ((w.wb + a + 1) * 64 + u) then (s, lost)
    else
      let va := w.v64 a u
      let set : Frame → Indigo := fun x => { r with copy := w.setFrame f x, fmarks := r.fmarks.filter (· ≠ f) }.past
      if !canonical va then (s, set { w.frame f with vbase := fld va 0 57, v := false })
      else s.runLookup id r va set (set { w.frame f with vbase := fld va 0 57, v := false })

/-! ## One instruction of a run -/

/-- What an instruction of a run does; none ends the run. -/
def State.runInstr (s : State) (id : Nat) (r : Indigo) (i : Instr) : Option (State × Indigo) :=
  let w := r.copy
  let n := w.vcount
  let mem : Reg → Low → Nat → Bool → Option (Nat × Nat) → Option (State × Indigo) := fun a f size signed dst =>
    let x := s.runMem id r a.val f.val size signed dst
    some (x.1, x.2.past)
  let atom : Reg → Reg → Low → Option (State × Indigo) := fun d a f => mem a f (4 * n) false (some (d.val, n))
  let long : Reg → Option (State × Indigo) := fun d => some (s, (r.remark (regsFrom d n) w.lanes (fun _ => true)).past)
  if computed i then (s.runCompute id r i).map (fun q => (s, q))
  else match i with
    | .ld d a f sz _ _ => mem a f sz.bytes (sizeSigned sz) (some (d.val, sz.regs))
    | .ldAcq d a f sz _ _ => mem a f sz.size.bytes false (some (d.val, sz.size.regs))
    | .prf _ a f sz _ _ => mem a f sz.bytes false none
    | .aadd d a f _ _ _ => atom d a f
    | .amin d a f _ _ _ => atom d a f
    | .amax d a f _ _ _ => atom d a f
    | .aand d a f _ _ _ => atom d a f
    | .aor d a f _ _ _ => atom d a f
    | .axor d a f _ _ _ => atom d a f
    | .axchg d a f _ _ _ => atom d a f
    | .acas d a f _ _ _ => atom d a f
    | .afadd d a f _ _ _ => atom d a f
    | .ainc d a f _ _ _ => atom d a f
    | .ldl d a sz _ => (s.runLdl r d.val a.val sz).map (fun q => (s, q.past))
    | .st _ _ _ _ _ _ => some (s, r.past)
    | .stRel _ _ _ _ _ _ => some (s, r.past)
    | .stl _ _ _ _ => some (s, r.past)
    | .xlb a f _ => some (s.runXlb id r a.val f.val)
    | .fdiv d _ _ _ => long d
    | .fsqrt d _ _ => long d
    | .frcp d _ _ => long d
    | .frsq d _ _ => long d
    | .fexp2 d _ _ => long d
    | .flog2 d _ _ => long d
    | .fsin d _ _ => long d
    | .fcos d _ _ => long d
    | .idiv d _ _ _ => long d
    | .irem d _ _ _ => long d
    | .br m c off =>
      if (kReads i).any r.kmarks.contains then none
      else
        let q := r.past
        some (s, if w.taken m c then { q with copy := { q.copy with pc := w.pc + 4 * off.signExtend 64 } } else q)
    | _ => none

/-- The word at the PC of a run's copy. -/
def State.runWord (s : State) (id : Nat) (r : Indigo) : Option Instr :=
  let w := r.copy
  match s.resolve (coreOfWave id) w.ctx w.sys Frame.empty .fetch w.pc none with
  | .ok pa _ => (match decode (s.fetchWord (coreOfWave id) pa) with
    | .ok i => some i
    | .error _ => none)
  | _ => none

/-- Whether a run's fetch waits: for a walk, or for memory that nothing serves (R50, R431). -/
def State.runFetches (s : State) (id : Nat) (r : Indigo) : Bool :=
  match s.resolve (coreOfWave id) r.copy.ctx r.copy.sys Frame.empty .fetch r.copy.pc none with
  | .miss => true
  | .ok pa _ => s.unserved pa
  | .deny _ => false

/-- A run's next instruction, or its end. A fetch that misses the TLBs walks, and the run waits for it; a walk that faults
gives it nothing (R50; log 92). -/
def State.runStep (s : State) (id : Nat) (r : Indigo) : State :=
  if s.runOver id r then s.exitRun id
  else if s.runFetches id r then s.runMiss id r.copy.pc
  else match s.runWord id r with
    | none => s.exitRun id
    | some i =>
      let o := i.opnds r.copy
      if (i.unimpl r.copy).isSome || (o.rd ++ o.wr).any (fun x => decide (x.1 + x.2 > r.copy.sz)) then s.exitRun id
      else match s.runInstr id r i with
        | none => s.exitRun id
        | some (t, q) => { t with indigo := Sparse.put t.indigo id q }

end Sys2Proof.Machine
end

