-- ==== Sys2Proof/Machine/Schedule.lean ====
section
/-! DEFINITION. Which move comes next (log 2): forced moves, events under way, events that time or the state has made
due, and the wave that an issue slot chooses (14/R354, R355); the fetch of an instruction (02/R33, R42; log 19), and where an
indigo run takes its place (14/R360). -/

namespace Sys2Proof.Machine

/-! ## Time (log 3) -/

/-- GT runs on by at least 1 ns with every step; a snapshot armed for the time latches as GT passes it (R395). -/
def State.tick (s : State) : State :=
  ({ s with ticks := s.ticks + 1 } : State).reachTime (s.gt + 1 + Config.gtAdvance s.ticks)

/-! ## Fetch (R33, R42) -/

/-- A fetch that must wait for its translation, or that is refused. -/
def State.startFetch (s : State) (id : Nat) : State :=
  let w := s.wave id
  s.startOp
    { wave := id, kind := .fetch, pc := w.pc, iword := 0, frame := none, dst := [], size := 4, hint := .dflt,
      order := .plain, scope := none, count := none, seq := w.seq, gmode := w.gmode, replay := false, resume := false,
      npc := w.pc + 4, cdepth := w.cdepth,
      lanes := [{ lane := 0, va := w.pc, phase := .xlate, data := [], cmp := [], key := none }] }

/-- A fetched word used up: it stays for an instruction that waits, and goes with one that has issued or parked. -/
def Wave.usedWord (w : Wave) : Wave := if w.status = .waiting then w else { w with fword := none }

/-- The instruction that a word stands for; a word that the decoder refuses is an event of its own (R208). -/
def instrOf (x : Word) : Instr := match decode x with
  | .ok i => i
  | .error _ => .unassignedWord x

/-- The instruction at a wave's PC, performed once its word has been fetched. -/
def State.issueWave (s : State) (id : Nat) : Host.Outcome State Fault Refusal :=
  match (s.wave id).fetched with
  | none => .next (s.startFetch id)
  | some x => match exec (instrOf x) { s with cur := id } with
    | .next t => .next (t.modLive id Wave.usedWord)
    | r => r

/-! ## Waves that may move (R354) -/

/-- Whether the package serves instructions (R431, R432). -/
def State.serving (s : State) : Bool := decide (s.mode ≠ .reset) && decide (s.power = .d0)

/-- Whether an operation has lanes that no walk under way will translate. -/
def State.needsTry (s : State) (o : MemOp) : Bool :=
  (o.replay || !o.resume) && o.lanes.any (fun x => decide (x.phase = .xlate) &&
    !s.walks.any (fun k => k.cluster == clusterOfCore (coreOfWave o.wave) &&
      k.asid == s.asid (s.wave o.wave).ctx && k.page == pageOf x.va))

/-- A segment for a wave that has lost its own: granules that a restore kept for it, else free ones (R160). -/
def State.segRoom (s : State) (id : Nat) : Option (List Nat × Nat) :=
  let w := s.wave id
  if w.segGran ≠ [] then some (w.segGran, w.segBase)
  else
    let n := (w.seg * 4 * w.width + 4095) / 4096
    let free := s.freeGrans (coreOfWave id) false
    if free.length < n + 32 then none else some (free.take n, 0)

/-- A wave given a segment again: its registers from the window's first on are filled, and it becomes ready (R160). A
fill that faults parks it before the instruction at its PC (R158). -/
def State.refill (s : State) (id : Nat) (gs : List Nat) (base : Nat) : State :=
  let w := s.wave id
  match s.makeResident id w.wb (w.wb + w.sz) with
  | .wait t => t
  | .fault t cls a i => t.stopPrep id (instrOf ((w.fetched).getD (t.wordAt (coreOfWave id) w.ctx w.pc))) cls a i
  | .ok t => (t.modWave id (fun x =>
      { x with hasSeg := true, segGran := gs, segBase := base, status := match x.status with
                                                                  | .yielded _ => .ready
                                                                  | y => y })).modWg w.wg
      (fun k => { k with segs := k.segs ++ gs.filter (fun g => !k.segs.contains g) })

/-- What is done for a wave that may have a segment again: granules of the cache region are granted once the core's cache
has been emptied (R151). -/
def State.regain (s : State) (id : Nat) : State :=
  let core := coreOfWave id
  match s.segRoom id with
  | none => s
  | some (gs, base) =>
    if (s.wave id).segGran ≠ [] then s.refill id gs base
    else if s.emptied core then { s with vacating := s.vacating.filter (· ≠ core) }.refill id gs base
    else (s.vacate [core]).getD s

/-- Whether a core's die has failed (R13). -/
def State.deadCore (s : State) (core : Nat) : Bool := s.failed / 2 ^ dieOfCore core % 2 == 1

/-- A wave that may be chosen: it is on a real core of a die that has not failed, has not ended, is neither parked nor
stopped, fetches nothing, and no replay of its lanes is under way. -/
def State.canMove (s : State) (id : Nat) : Bool :=
  match Sparse.find s.waves id with
  | none => false
  | some w =>
    s.serving && real (coreOfWave id) && !s.deadCore (coreOfWave id) && !w.retired && !s.stoodStill w &&
    (w.kitty || !s.prectl (dieOfCore (coreOfWave id)) w.ctx) &&
    (match w.status with
     | .ready => true
     | .waiting => true
     | .yielded n => decide (w.cq.length ≤ n)
     | _ => false) &&
    (w.hasSeg || (s.segRoom id).isSome) &&
    !s.ops.any (fun e => e.2.wave == id && decide (e.2.kind = .fetch) && !e.2.resume) &&
    !s.turns.any (fun t => match t with
      | .redo i _ => i == id
      | _ => false)

/-- An operation of a wave whose lanes are all over, some of them refused: the wave parks for it first (R439). -/
def State.lateOp (s : State) (id : Nat) : Option Nat :=
  (s.ops.find? (fun e => e.2.wave == id && !e.2.resume && !e.2.lanes.any LaneOp.open && e.2.lanes.any LaneOp.bad &&
    s.mayPark e.1 e.2)).map (·.1)

/-- Whether a wave that issues nothing has work of its own left: accesses to translate, or a fault to take. -/
def State.canWork (s : State) (id : Nat) : Bool :=
  match Sparse.find s.waves id with
  | none => false
  | some w =>
    s.serving && real (coreOfWave id) && !s.deadCore (coreOfWave id) &&
    (decide (w.status = .draining) ||
      (w.parkable && (!s.stoodStill w || s.prectl (dieOfCore (coreOfWave id)) w.ctx))) &&
    ((s.lateOp id).isSome || s.ops.any (fun (e : Nat × MemOp) => e.2.wave == id && s.needsTry e.2))

/-- The indigo run that a wave is in (R360). -/
def State.liveRun (s : State) (id : Nat) : Option Indigo :=
  (Sparse.find s.indigo id).bind (fun r => if r.live then some r else none)

/-- What a wave does that may issue: its next instruction, or an instruction of an indigo run. -/
def State.advance (s : State) (id : Nat) : Host.Outcome State Fault Refusal :=
  match s.liveRun id with
  | some r => .next (s.runStep id r)
  | none => match s.mayRun id with
    | some op => .next (s.enterRun id op)
    | none => s.issueWave id

/-- The move of a wave. -/
def State.moveWave (s : State) (id : Nat) : Host.Outcome State Fault Refusal :=
  if s.canMove id && !(s.wave id).hasSeg then .next (s.regain id)
  else
  let t := if s.canMove id then s.modLive id (fun w => match w.status with
      | .yielded _ => { w with status := .ready }
      | _ => w) else s
  match t.lateOp id with
  | some o => .next (t.finishOp o)
  | none =>
    match t.ops.find? (fun e => e.2.wave == id && t.needsTry e.2) with
    | some e => .next (t.tryOp e.1)
    | none => if s.canMove id then t.advance id else .next t

/-! ## The choice of a slot (R355) -/

/-- The place of a wave in the order of choice: the smallest is chosen. -/
def State.rank (s : State) (id : Nat) : Nat :=
  let w := s.wave id
  let r := id % 12
  if w.idle ≥ 64 then (2 ^ 20 - Nat.min w.idle (2 ^ 20)) * 16 + r
  else
    2 ^ 30 + w.level * 2 ^ 10 +
      (if (s.engine (coreOfWave id)).token = some id then 0 else if w.role = .copy then 64 else 128) +
      (r + 12 - Sparse.get 0 s.slotPtr (id / 12)) % 12

/-- The first by rank. -/
def State.best (s : State) : List Nat → Option Nat
  | [] => none
  | x :: r => match s.best r with
    | none => some x
    | some y => if s.rank x ≤ s.rank y then some x else some y

/-- Whether the instruction that a wave stands at would go on now, and not wait for an operand, a lookahead window or
anything else. -/
def State.wouldGo (s : State) (id : Nat) : Bool :=
  match s.issueWave id with
  | .next t => decide ((t.wave id).status ≠ .waiting)
  | _ => false

/-- The ready waves of R354; one in an indigo run is none of them, nor one that waits for a segment. A wave whose instruction
has not been fetched is ready to fetch it (log 19). -/
def State.isReady (s : State) (id : Nat) : Bool :=
  s.canMove id && (s.wave id).hasSeg &&
  (if (s.wave id).fetched.isNone then decide ((s.wave id).status ≠ .waiting) else s.wouldGo id)

def State.readyWaves (s : State) : List Nat := (s.waves.map (·.1)).filter s.isReady

/-- Waves that are not ready and have something to do: one that tries again what it waits for, one with accesses to
translate, one in an indigo run while no other wave of its slot is ready. -/
def State.others (s : State) (ready : List Nat) : List Nat :=
  (s.waves.map (·.1)).filter (fun id => !ready.contains id &&
    (s.canWork id || (s.canMove id && !((s.liveRun id).any (fun r => !s.runOver id r) && ready.any (fun y => y / 12 == id / 12)))))

/-- A slot's choice noted: its pointer, how long the other waves of the slot have been ready without being chosen, and the
slot that comes after it. -/
def State.noteChoice (s : State) (id : Nat) (ready : List Nat) : State :=
  let t := (s.waves.map (·.1)).foldl (fun (acc : State) o =>
    if o / 12 = id / 12 then
      acc.modLive o (fun w => { w with idle := if o = id ∨ !ready.contains o then 0 else w.idle + 1 })
    else acc) s
  { t with slotPtr := Sparse.put s.slotPtr (id / 12) ((id % 12 + 1) % 12), slotTurn := id / 12 + 1 }

/-- The choice of the next slot that has a ready wave. -/
def State.chooseReady (s : State) (ready : List Nat) : Option Nat :=
  let first := (ready.find? (fun id => decide (id / 12 ≥ s.slotTurn))).orElse (fun _ => ready.head?)
  first.bind (fun x => s.best (ready.filter (fun y => y / 12 == x / 12)))

/-- The wave that moves: on even steps a ready one, on odd ones one of the others, each kind instead of the other where that
has none; with the ready waves where one of them was chosen. Over the power limit every second step is idle (R433). -/
def State.chooseWave (s : State) : Option (Nat × Option (List Nat)) :=
  if (s.throttle || s.hot) && s.ticks % 4 ≥ 2 then none
  else
    let ready := s.readyWaves
    let rest := s.others ready
    if rest ≠ [] ∧ (s.ticks % 2 = 1 ∨ ready = []) then rest[s.ticks / 2 % rest.length]?.map (fun id => (id, none))
    else (s.chooseReady ready).map (fun id => (id, some ready))

/-! ## Replays of lanes from a record (R334) -/

/-- Lanes of the registers and masks that an instruction wrote, put into another wave. -/
def mergeLanes (unf : Dword) (regs : List Nat) (src dst : Wave) : Wave :=
  let d1 := regs.foldl (fun (acc : Wave) j =>
    (List.range acc.width).foldl (fun (a : Wave) l => if bitOf unf l then a.setLmark j l (src.lmark j l) else a)
      (acc.lwrite j (fun l => if bitOf unf l then some (src.lreg j l) else none))) dst
  { d1 with k := src.k.map (fun (e : Nat × Dword) => (e.1, (e.2 &&& unf) ||| (Sparse.get 0 dst.k e.1 &&& ~~~ unf))) }

/-- A replay of lanes: the instruction of the record is performed in the patched wave, not charged to its task; then the
wave goes on as `back`, or parks again with what the record held. -/
def State.redoMove (s : State) (id : Nat) (back : Wave) : State :=
  let w := s.wave id
  let charge : State → Bool → State := fun t b => t.modTask w.task (fun k => { k with hasBudget := b })
  let had := ((s.task w.task).map (·.hasBudget)).getD false
  match decode (wd w.arg) with
  | .error _ => s.setWave id back
  | .ok i =>
    match exec i { charge s false with cur := id } with
    | .next t =>
      let done := t.ops.foldl (fun (acc : State) (e : Nat × MemOp) =>
        if e.2.wave = id ∧ (Sparse.find s.ops e.1).isNone then
          (match exec (.longLatencyResult e.1) acc with
           | .next u => u
           | _ => acc)
        else acc) (charge t had)
      let tw := done.wave id
      if tw.status = .waiting then { done with turns := .redo id back :: done.turns }
      else
        let regs := (singles (i.opnds w).wr).map (w.wb + ·)
        let out := mergeLanes w.exm regs tw back
        if tw.status = .parked then
          let fix : Instr → Instr := fun e => match e with
            | .recordWritten p =>
              if p.kind = 1 ∧ p.unit = id then
                .recordWritten { p with words := Sparse.put (Sparse.put (Sparse.put (Sparse.put p.words 4 back.exm) 3
                  (setFld (Sparse.get 0 p.words 3) 0 32 back.sigr.toNat)) 6 back.gmode) 10 back.pc }
              else e
            | _ => e
          { done with agenda := done.agenda.map fix }.setWave id { out with status := .parked }
        else done.setWave id out
    | _ => s.setWave id back

/-! ## Events that are due -/

/-- Segments that have settled. -/
def State.dueSegs (s : State) : List Instr :=
  s.copies.flatMap (fun (e : Nat × Copy) =>
    if real (e.1 / 128) then
      e.2.segs.filterMap (fun (g : Nat × Seg) =>
        if s.segSettled g.2 then
          some (if g.2.sectors.all (fun x => decide (x.2 = .landed)) then Instr.segmentRetire (e.1 / 128) (e.1 % 128) g.1
            else Instr.segmentPark (e.1 / 128) (e.1 % 128) g.1)
        else if g.2.pushStopped then
          some (Instr.segmentPark (e.1 / 128) (e.1 % 128) g.1)
        else none)
    else [])

/-- Leases and copies that have run out. -/
def State.dueLeases (s : State) : List Instr :=
  (s.caches.flatMap (fun (e : Nat × List CacheCopy) => e.2.filterMap (fun c =>
    if c.expiry ≤ s.gt ∧ c.kind = .l then some (Instr.lCopyExpiry e.1 c.line)
    else if c.expiry ≤ s.gt ∧ c.kind = .c then some (Instr.cCopyExpiry e.1 c.line)
    else none))) ++
  (s.slices.flatMap (fun (e : Nat × Slice) => e.2.lines.filterMap (fun l =>
    if s.lhDue l then some (Instr.lhpass l.line) else none)))

/-- Deadlines that have come (R359). -/
def State.dueDeadlines (s : State) : List Instr :=
  (s.records.filterMap (fun (e : Nat × Record) =>
    if s.recStatus e.1 ≤ 3 ∧ s.recWord e.1 0x68 ≠ 0 ∧ s.gt ≥ (s.recWord e.1 0x68).toNat then
      some (Instr.parkedDeadline (e.1 / 4096) (e.1 % 4096)) else none)) ++
  (s.tasks.filterMap (fun (e : Nat × Task) =>
    if (e.2.phase = .placing ∨ e.2.phase = .running) ∧ !e.2.stop ∧ e.2.deadline ≠ 0 ∧ s.gt ≥ e.2.deadline then
      some (Instr.taskDeadline e.1) else none))

/-- Records that units wait for and that can be written now: on a die, of the unit that has waited longest (R374). -/
def State.dueRecords (s : State) : List Instr :=
  (List.range 4).filterMap (fun die => match Sparse.get [] s.detached die, s.freeIndex die with
    | p :: _, some _ => some (Instr.recordWritten p)
    | _, _ => none)

/-- XINVs whose entries nothing under way uses any more (R302). -/
def State.dueXinvs (s : State) : List Instr :=
  s.ops.filterMap (fun (e : Nat × MemOp) => match e.2.kind with
    | .xinv fs => if s.xinvDone fs then some (Instr.xinvComplete e.1) else none
    | _ => none)

/-- The first event that is due. -/
def State.due (s : State) : Option Instr :=
  if !s.serving then none
  else match s.dueDeadlines ++ s.dueRecords with
    | i :: _ => some i
    | [] => match s.dueXinvs ++ s.dueSegs with
      | i :: _ => some i
      | [] => s.dueLeases.head?

/-- The first of some attempts that does something. -/
def firstSome (fs : List (Unit → Option State)) : Option State :=
  match fs with
  | [] => none
  | f :: r => match f () with
    | some t => some t
    | none => firstSome r

/-- The Dealer's move once the caches of its cores are empty: a wave takes its segment again, a launch is placed, or, where
neither can be any more, the cores take copies as before (R151). -/
def State.settleGrant (s : State) : Option State :=
  match s.vacating with
  | [] => none
  | c :: _ =>
    let die := dieOfCore c
    let mine := s.vacating.filter (fun x => dieOfCore x == die)
    if !mine.all s.emptied then none
    else match (s.waves.map (·.1)).find? (fun id => mine.contains (coreOfWave id) && s.canMove id && !(s.wave id).hasSeg) with
      | some id => some (s.regain id)
      | none => match execWorkgroupPlace die s with
        | .next t => some t
        | _ => some (s.granted die)

/-- Long work of the package that can go on now: a flush or a drain (R62, R96), an image that PTLD read (R338), a save
(R364), a scan test (R438), a migration whose old leaf is out of use (R53), a workgroup that retires (R352), a task that
completes or gives its signals (R323), Tosor traffic (R429), a grant of local store (R151), a segment that the Dealer takes (R160). -/
def State.dueWork (s : State) : Option State :=
  let out : Host.Outcome State Fault Refusal → Option State := fun r => match r with
    | .next t => some t
    | _ => none
  if !s.serving then none
  else firstSome
    [fun _ => s.flushStep, fun _ => s.drainStep, fun _ => s.ptldFinish,
     fun _ => (List.range 4).findSome? s.finishSave,
     fun _ => (s.scans.map (·.1)).findSome? s.scanStep,
     fun _ => s.scans.findSome? (fun (e : Nat × Scan) =>
       if e.2.begun then out (execScanTestComplete e.1 (Config.scanPasses s.ticks) s) else none),
     fun _ => s.migs.findSome? (fun (e : Nat × List Migration) => e.2.findSome? (fun m => out (execMigrationDrained e.1 m.id s))),
     fun _ => (s.wgs.map (·.1)).findSome? s.retireStep,
     fun _ => (s.tasks.map (·.1)).findSome? s.signalStep,
     fun _ => (s.tasks.map (·.1)).findSome? s.tryComplete,
     fun _ => s.linkStep,
     fun _ => s.settleGrant,
     fun _ => if s.waves.any (fun (e : Nat × Wave) => match e.2.status with
         | .yielded _ => e.2.hasSeg
         | _ => false)
       then (List.range 4).findSome? s.placeTaking else none]

/-! ## A program placed from outside (log 6) -/

/-- The role that lets a wave issue an instruction. -/
def roleFor (w : Word) : Role :=
  match decode w with
  | .ok i => (i.opnds Wave.empty).role.getD .vector
  | .error _ => .vector

/-- A wave as its placement leaves it: one W32 wave of a system context with a window of 64 registers. -/
def firstWave (w : Word) : Wave :=
  { Wave.empty with
    status := .ready, role := roleFor w, sys := true, tid := List.range 32, pc := 0x10000, exm := 0xFFFFFFFF,
    tm := 0xFFFFFFFF, sz := 64, hi := 64, seg := 64, segGran := [0, 4096],
    fword := some (0x10000, w), regs := (List.range 64).map (fun j => (j, List.replicate 32 0)) }

/-- Its workgroup, with 64 KiB of scratchpad. -/
def firstGroup : Workgroup :=
  { task := 0, core := 0, gang := 0, wgid := 0, gangIx := 0, wgt := 0, ggt := 0, waves := [0], spb := 0x2000, l := 0x10000,
    s := 0, cur := false, bars := List.replicate 8 { arrived := 0, phase := false }, departed := 0, ssarr := 0,
    rings := [], reord := [], tiles := true, kittyIx := none, areas := [0], segs := [0, 4096] }

/-- Its task. -/
def firstTask : Task :=
  { die := 0, words := [dw (2 ^ 60 + 2 ^ 59), 0, 0, 0, 0, dw (2 ^ 52 + 2 ^ 24 + 1), 0, 0], qw := 0x300000, level := 0,
    src := 0, count := 0, failed := false, phase := .running, ltag := 0, succIx := 0, nest := 0, record := none, ctx := 0,
    bbase := 0, nback := 1, boost := 0, entry := 0, kernel := none, nwg := 1, gsz := 1, regs := 64, nextWg := 1, live := 1,
    budget := 0, hasBudget := false, deadline := 0, bad := false, cause := 0, skip := false, stop := false, paused := false, wct := 0, kctx := none }

/-- The state with a program of one word placed: the package in full service, a wave at the word, which it has fetched, and
the translation of its page at hand; that wave moves next. -/
def State.withProgram (s : State) (w : Word) : State :=
  { s.write 0x10000 (toBytes 4 w.toNat) with
    mode := .full, power := .d0,
    waves := Sparse.put s.waves 0 (firstWave w), wgs := Sparse.put s.wgs 0 firstGroup,
    tasks := Sparse.put s.tasks 0 firstTask,
    l1tlb := Sparse.put s.l1tlb 0 (tlbOf (s.asid 0) 1 0x120DF 8 0 :: Sparse.get [] s.l1tlb 0),
    ops := s.ops.filter (fun e => e.2.wave != 0), indigo := Sparse.erase s.indigo 0,
    barred := s.barred.filter (fun e => e.2 != 0),
    turns := [.wave 0] }

/-! ## One move -/

/-- An event performed; one that cannot occur is dropped (log 2). -/
def State.perform (s : State) (i : Instr) : Host.Outcome State Fault Refusal :=
  match exec i s with
  | .refused _ => .next s
  | r => r

/-- Whether a term is an event and no instruction of a wave. -/
def isEvent (i : Instr) : Bool :=
  match i with
  | .unassignedWord _ => false
  | _ => (match decode (encode i) with
    | .ok j => decide (j ≠ i)
    | .error _ => true)

/-- The wave of the slot whose turn it is. -/
def State.slotMove (s : State) : Host.Outcome State Fault Refusal :=
  match s.chooseWave with
  | none => .next s
  | some (id, none) => s.moveWave id
  | some (id, some ready) => (s.noteChoice id ready).moveWave id

/-! ## What the outside does to the memories (R385, R391; log 2) -/

/-- The record whose bytes lie at an address of HBM, and the offset in it (R324). -/
def State.recordAt (s : State) (p : Nat) : Option (Nat × Nat) :=
  (s.records.find? (fun (e : Nat × Record) =>
    let b := fld (s.csrGet 0x80 (e.1 / 4096)) 23 29 * 2 ^ 23 + e.1 % 4096 * 2048
    decide (b ≤ p) && decide (p < b + 2048))).map
    (fun e => (e.1, p - (fld (s.csrGet 0x80 (e.1 / 4096)) 23 29 * 2 ^ 23 + e.1 % 4096 * 2048)))

/-- Where the poison of a line's sector lies: in a copy that its slice holds, dirty or clean, or at home (R390). -/
def State.originAt (s : State) (line : Nat) : Nat :=
  match s.slices.findSome? (fun (e : Nat × Slice) => e.2.lines.find? (fun l => l.line == line && decide (l.way ≠ 98))) with
  | some l => if l.dirty then 4 else 3
  | none => homeOrigin line

/-- An uncorrectable error in the word, element or sector at an address. -/
def State.upset (s : State) (pa : Nat) : State :=
  let p := s.place pa
  if isOnchip p then
    s.setMark p { origin := if p % 0x200000 ≥ 0x180000 then 8 else 1, addr := p % 0x200000 / 4 * 4 }
  else match s.recordAt p with
    | some (x, off) => { s with records := Sparse.update s.records x (fun r =>
        { r with marks := (List.range 8).foldl (fun m i =>
            Sparse.put m (off / 32 * 32 + 4 * i) { origin := 5, addr := dieLocal pa / 32 * 32 }) r.marks }) }
    | none => s.setMark p { origin := s.originAt (lineOf pa), addr := dieLocal pa / 32 * 32 }

/-- An uncorrectable error in a word of a wave's registers: its place is that of the register's slot in the segment (R153). -/
def State.upsetReg (s : State) (id reg lane : Nat) : State :=
  s.modLive id (fun w =>
    let x := w.segBase + (reg % w.seg * w.width + lane) * 4
    w.setLmark reg lane { origin := 1, addr := w.segGran.getD (x / 4096) 0 + x % 4096 })

/-- An uncorrectable error in a word of a core's cache copy. -/
def State.upsetCopy (s : State) (core line off : Nat) : State :=
  { s with caches := Sparse.update s.caches core (fun cs => cs.map (fun c =>
      if c.line = line then { c with marks := Sparse.put c.marks (off / 4 * 4) { origin := 2, addr := line + off / 4 * 4 } } else c)) }

/-- A change of the sectors of an encrypted granule that its controller did not make: the tag no longer fits. -/
def State.tampered (s : State) (p : Nat) (d : Dword) : State :=
  match s.granuleOf p with
  | some g => { s with tagDiff := Sparse.set 0 s.tagDiff g (Sparse.get 0 s.tagDiff g ^^^ d) }
  | none => s

/-- What moves when nothing is forced. -/
def State.freeMove (s : State) : Host.Outcome State Fault Refusal :=
  match s.agenda with
  | i :: r => { s with agenda := r }.perform i
  | [] => match s.due with
    | some i => s.perform i
    | none => match s.dueWork with
      | some t => .next t
      | none => s.slotMove

/-- The next move. -/
def State.move (s : State) : Host.Outcome State Fault Refusal :=
  match s.turns with
  | [] => s.freeMove
  | .event i :: r => if isEvent i then { s with turns := r }.perform i else .next { s with turns := r }
  | .wave id :: r =>
    if { s with turns := r }.canMove id || { s with turns := r }.canWork id then { s with turns := r }.moveWave id else .next { s with turns := r }
  | .upset pa :: r => .next ({ s with turns := r }.upset pa)
  | .upsetReg id reg lane :: r => .next ({ s with turns := r }.upsetReg id reg lane)
  | .upsetCopy core line off :: r => .next ({ s with turns := r }.upsetCopy core line off)
  | .tamper g d :: r => .next ({ s with turns := r }.tampered g d)
  | .redo id back :: r =>
    if s.agenda = [] ∧ s.ticks % 2 = 0 then .next ({ s with turns := r }.redoMove id back) else s.freeMove

end Sys2Proof.Machine
end

