-- ==== Sys2Proof/Machine/Step.lean ====
section
/-! DEFINITION. One step of the package: time runs on and the next move is made. -/

namespace Sys2Proof.Machine

/-- One step. -/
def step (s : State) : Host.Outcome State Fault Refusal := s.tick.move

/-- The state with one instruction placed where the next step fetches (log 6). -/
def State.withFetchWord (s : State) (_nbits w : Nat) : State := s.withProgram (BitVec.ofNat 32 w)

end Sys2Proof.Machine
end

