-- ==== Sys2Proof/Laws/PerInstr.lean ====
section
/-! SUPPORT. The family Encoding: the word of every instruction fits in 32 bits, so that `encode` drops no bit of a
field (R193); an event has the word 0. -/

namespace Sys2Proof

/-- The code of a BCond lies below 7. -/
theorem BCond.code_lt (e : BCond) : e.toNat < 7 := by cases e <;> decide

/-- The code of a Bool lies below 2. -/
theorem Bool.code_lt (e : Bool) : e.toNat < 2 := by cases e <;> decide

/-- The code of a Counter lies below 4. -/
theorem Counter.code_lt (e : Counter) : e.toNat < 4 := by cases e <;> decide

/-- The code of a FCond lies below 8. -/
theorem FCond.code_lt (e : FCond) : e.toNat < 8 := by cases e <;> decide

/-- The code of a FRndMode lies below 4. -/
theorem FRndMode.code_lt (e : FRndMode) : e.toNat < 4 := by cases e <;> decide

/-- The code of a FenceDir lies below 2. -/
theorem FenceDir.code_lt (e : FenceDir) : e.toNat < 2 := by cases e <;> decide

/-- The code of a Hint lies below 3. -/
theorem Hint.code_lt (e : Hint) : e.toNat < 3 := by cases e <;> decide

/-- The code of a ICond lies below 8. -/
theorem ICond.code_lt (e : ICond) : e.toNat < 8 := by cases e <;> decide

/-- The code of a OSize lies below 3. -/
theorem OSize.code_lt (e : OSize) : e.toNat < 3 := by cases e <;> decide

/-- The code of a Order lies below 4. -/
theorem Order.code_lt (e : Order) : e.toNat < 4 := by cases e <;> decide

/-- The code of a RedOp lies below 6. -/
theorem RedOp.code_lt (e : RedOp) : e.toNat < 6 := by cases e <;> decide

/-- The code of a Scope lies below 6. -/
theorem Scope.code_lt (e : Scope) : e.toNat < 6 := by cases e <;> decide

/-- The code of a ShflMode lies below 4. -/
theorem ShflMode.code_lt (e : ShflMode) : e.toNat < 4 := by cases e <;> decide

/-- The code of a Size lies below 7. -/
theorem Size.code_lt (e : Size) : e.toNat < 7 := by cases e <;> decide

/-- The code of a Ty lies below 14. -/
theorem Ty.code_lt (e : Ty) : e.toNat < 14 := by cases e <;> decide

end Sys2Proof

namespace Sys2Proof.Laws

/-- What the family says of an instruction. -/
def Encoding.Statement (i : Instr) : Prop := encodeNat i < 2 ^ 32

theorem Encoding.add (d : Reg) (p : Sel) (a : Reg) (q : Sel) (b : Reg) : Encoding.Statement (.add d p a q b) := by
  have h0 := d.isLt
  have h1 := p.isLt
  have h2 := a.isLt
  have h3 := q.isLt
  have h4 := b.isLt
  show fmtA3 0x01000000 d.val p.val a.val q.val b.val 0 < 2 ^ 32
  unfold fmtA3
  omega

theorem Encoding.sub (d : Reg) (p : Sel) (a : Reg) (q : Sel) (b : Reg) : Encoding.Statement (.sub d p a q b) := by
  have h0 := d.isLt
  have h1 := p.isLt
  have h2 := a.isLt
  have h3 := q.isLt
  have h4 := b.isLt
  show fmtA3 0x01000001 d.val p.val a.val q.val b.val 0 < 2 ^ 32
  unfold fmtA3
  omega

theorem Encoding.addc (d : Reg) (p : Sel) (a : Reg) (q : Sel) (b : Reg) : Encoding.Statement (.addc d p a q b) := by
  have h0 := d.isLt
  have h1 := p.isLt
  have h2 := a.isLt
  have h3 := q.isLt
  have h4 := b.isLt
  show fmtA3 0x01000002 d.val p.val a.val q.val b.val 0 < 2 ^ 32
  unfold fmtA3
  omega

theorem Encoding.subb (d : Reg) (p : Sel) (a : Reg) (q : Sel) (b : Reg) : Encoding.Statement (.subb d p a q b) := by
  have h0 := d.isLt
  have h1 := p.isLt
  have h2 := a.isLt
  have h3 := q.isLt
  have h4 := b.isLt
  show fmtA3 0x01000003 d.val p.val a.val q.val b.val 0 < 2 ^ 32
  unfold fmtA3
  omega

theorem Encoding.mul (d : Reg) (p : Sel) (a : Reg) (q : Sel) (b : Reg) : Encoding.Statement (.mul d p a q b) := by
  have h0 := d.isLt
  have h1 := p.isLt
  have h2 := a.isLt
  have h3 := q.isLt
  have h4 := b.isLt
  show fmtA3 0x02000000 d.val p.val a.val q.val b.val 0 < 2 ^ 32
  unfold fmtA3
  omega

theorem Encoding.mulh (d : Reg) (p : Sel) (a : Reg) (q : Sel) (b : Reg) : Encoding.Statement (.mulh d p a q b) := by
  have h0 := d.isLt
  have h1 := p.isLt
  have h2 := a.isLt
  have h3 := q.isLt
  have h4 := b.isLt
  show fmtA3 0x02000001 d.val p.val a.val q.val b.val 0 < 2 ^ 32
  unfold fmtA3
  omega

theorem Encoding.absd (d : Reg) (p : Sel) (a : Reg) (q : Sel) (b : Reg) : Encoding.Statement (.absd d p a q b) := by
  have h0 := d.isLt
  have h1 := p.isLt
  have h2 := a.isLt
  have h3 := q.isLt
  have h4 := b.isLt
  show fmtA3 0x02000002 d.val p.val a.val q.val b.val 0 < 2 ^ 32
  unfold fmtA3
  omega

theorem Encoding.avg (d : Reg) (p : Sel) (a : Reg) (q : Sel) (b : Reg) : Encoding.Statement (.avg d p a q b) := by
  have h0 := d.isLt
  have h1 := p.isLt
  have h2 := a.isLt
  have h3 := q.isLt
  have h4 := b.isLt
  show fmtA3 0x02000003 d.val p.val a.val q.val b.val 0 < 2 ^ 32
  unfold fmtA3
  omega

theorem Encoding.min (d : Reg) (p : Sel) (a : Reg) (q : Sel) (b : Reg) : Encoding.Statement (.min d p a q b) := by
  have h0 := d.isLt
  have h1 := p.isLt
  have h2 := a.isLt
  have h3 := q.isLt
  have h4 := b.isLt
  show fmtA3 0x03000000 d.val p.val a.val q.val b.val 0 < 2 ^ 32
  unfold fmtA3
  omega

theorem Encoding.max (d : Reg) (p : Sel) (a : Reg) (q : Sel) (b : Reg) : Encoding.Statement (.max d p a q b) := by
  have h0 := d.isLt
  have h1 := p.isLt
  have h2 := a.isLt
  have h3 := q.isLt
  have h4 := b.isLt
  show fmtA3 0x03000001 d.val p.val a.val q.val b.val 0 < 2 ^ 32
  unfold fmtA3
  omega

theorem Encoding.satadd (d : Reg) (p : Sel) (a : Reg) (q : Sel) (b : Reg) : Encoding.Statement (.satadd d p a q b) := by
  have h0 := d.isLt
  have h1 := p.isLt
  have h2 := a.isLt
  have h3 := q.isLt
  have h4 := b.isLt
  show fmtA3 0x03000002 d.val p.val a.val q.val b.val 0 < 2 ^ 32
  unfold fmtA3
  omega

theorem Encoding.satsub (d : Reg) (p : Sel) (a : Reg) (q : Sel) (b : Reg) : Encoding.Statement (.satsub d p a q b) := by
  have h0 := d.isLt
  have h1 := p.isLt
  have h2 := a.isLt
  have h3 := q.isLt
  have h4 := b.isLt
  show fmtA3 0x03000003 d.val p.val a.val q.val b.val 0 < 2 ^ 32
  unfold fmtA3
  omega

theorem Encoding.and (d : Reg) (p : Sel) (a : Reg) (q : Sel) (b : Reg) : Encoding.Statement (.and d p a q b) := by
  have h0 := d.isLt
  have h1 := p.isLt
  have h2 := a.isLt
  have h3 := q.isLt
  have h4 := b.isLt
  show fmtA3 0x04000000 d.val p.val a.val q.val b.val 0 < 2 ^ 32
  unfold fmtA3
  omega

theorem Encoding.or (d : Reg) (p : Sel) (a : Reg) (q : Sel) (b : Reg) : Encoding.Statement (.or d p a q b) := by
  have h0 := d.isLt
  have h1 := p.isLt
  have h2 := a.isLt
  have h3 := q.isLt
  have h4 := b.isLt
  show fmtA3 0x04000001 d.val p.val a.val q.val b.val 0 < 2 ^ 32
  unfold fmtA3
  omega

theorem Encoding.xor (d : Reg) (p : Sel) (a : Reg) (q : Sel) (b : Reg) : Encoding.Statement (.xor d p a q b) := by
  have h0 := d.isLt
  have h1 := p.isLt
  have h2 := a.isLt
  have h3 := q.isLt
  have h4 := b.isLt
  show fmtA3 0x04000002 d.val p.val a.val q.val b.val 0 < 2 ^ 32
  unfold fmtA3
  omega

theorem Encoding.andn (d : Reg) (p : Sel) (a : Reg) (q : Sel) (b : Reg) : Encoding.Statement (.andn d p a q b) := by
  have h0 := d.isLt
  have h1 := p.isLt
  have h2 := a.isLt
  have h3 := q.isLt
  have h4 := b.isLt
  show fmtA3 0x04000003 d.val p.val a.val q.val b.val 0 < 2 ^ 32
  unfold fmtA3
  omega

theorem Encoding.orn (d : Reg) (p : Sel) (a : Reg) (q : Sel) (b : Reg) : Encoding.Statement (.orn d p a q b) := by
  have h0 := d.isLt
  have h1 := p.isLt
  have h2 := a.isLt
  have h3 := q.isLt
  have h4 := b.isLt
  show fmtA3 0x05000000 d.val p.val a.val q.val b.val 0 < 2 ^ 32
  unfold fmtA3
  omega

theorem Encoding.rol (d : Reg) (p : Sel) (a : Reg) (q : Sel) (b : Reg) : Encoding.Statement (.rol d p a q b) := by
  have h0 := d.isLt
  have h1 := p.isLt
  have h2 := a.isLt
  have h3 := q.isLt
  have h4 := b.isLt
  show fmtA3 0x05000001 d.val p.val a.val q.val b.val 0 < 2 ^ 32
  unfold fmtA3
  omega

theorem Encoding.fshr (d : Reg) (p : Sel) (a : Reg) (q : Sel) (b : Reg) : Encoding.Statement (.fshr d p a q b) := by
  have h0 := d.isLt
  have h1 := p.isLt
  have h2 := a.isLt
  have h3 := q.isLt
  have h4 := b.isLt
  show fmtA3 0x05000002 d.val p.val a.val q.val b.val 0 < 2 ^ 32
  unfold fmtA3
  omega

theorem Encoding.shl (d : Reg) (p : Sel) (a : Reg) (q : Sel) (b : Reg) : Encoding.Statement (.shl d p a q b) := by
  have h0 := d.isLt
  have h1 := p.isLt
  have h2 := a.isLt
  have h3 := q.isLt
  have h4 := b.isLt
  show fmtA3 0x06000000 d.val p.val a.val q.val b.val 0 < 2 ^ 32
  unfold fmtA3
  omega

theorem Encoding.shr (d : Reg) (p : Sel) (a : Reg) (q : Sel) (b : Reg) : Encoding.Statement (.shr d p a q b) := by
  have h0 := d.isLt
  have h1 := p.isLt
  have h2 := a.isLt
  have h3 := q.isLt
  have h4 := b.isLt
  show fmtA3 0x06000001 d.val p.val a.val q.val b.val 0 < 2 ^ 32
  unfold fmtA3
  omega

theorem Encoding.sar (d : Reg) (p : Sel) (a : Reg) (q : Sel) (b : Reg) : Encoding.Statement (.sar d p a q b) := by
  have h0 := d.isLt
  have h1 := p.isLt
  have h2 := a.isLt
  have h3 := q.isLt
  have h4 := b.isLt
  show fmtA3 0x06000002 d.val p.val a.val q.val b.val 0 < 2 ^ 32
  unfold fmtA3
  omega

theorem Encoding.popc (d : Reg) (p : Sel) (a : Reg) : Encoding.Statement (.popc d p a) := by
  have h0 := d.isLt
  have h1 := p.isLt
  have h2 := a.isLt
  show fmtA3 0x07000000 d.val p.val a.val 0 0 0 < 2 ^ 32
  unfold fmtA3
  omega

theorem Encoding.clz (d : Reg) (p : Sel) (a : Reg) : Encoding.Statement (.clz d p a) := by
  have h0 := d.isLt
  have h1 := p.isLt
  have h2 := a.isLt
  show fmtA3 0x07000001 d.val p.val a.val 0 0 0 < 2 ^ 32
  unfold fmtA3
  omega

theorem Encoding.ctz (d : Reg) (p : Sel) (a : Reg) : Encoding.Statement (.ctz d p a) := by
  have h0 := d.isLt
  have h1 := p.isLt
  have h2 := a.isLt
  show fmtA3 0x07000002 d.val p.val a.val 0 0 0 < 2 ^ 32
  unfold fmtA3
  omega

theorem Encoding.brev (d : Reg) (p : Sel) (a : Reg) : Encoding.Statement (.brev d p a) := by
  have h0 := d.isLt
  have h1 := p.isLt
  have h2 := a.isLt
  show fmtA3 0x07000003 d.val p.val a.val 0 0 0 < 2 ^ 32
  unfold fmtA3
  omega

theorem Encoding.bfx (d : Reg) (p : Sel) (a : Reg) (q : Sel) (b : Reg) : Encoding.Statement (.bfx d p a q b) := by
  have h0 := d.isLt
  have h1 := p.isLt
  have h2 := a.isLt
  have h3 := q.isLt
  have h4 := b.isLt
  show fmtA3 0x08000000 d.val p.val a.val q.val b.val 0 < 2 ^ 32
  unfold fmtA3
  omega

theorem Encoding.bmsk (d : Reg) (p : Sel) (a : Reg) (q : Sel) (b : Reg) : Encoding.Statement (.bmsk d p a q b) := by
  have h0 := d.isLt
  have h1 := p.isLt
  have h2 := a.isLt
  have h3 := q.isLt
  have h4 := b.isLt
  show fmtA3 0x08000001 d.val p.val a.val q.val b.val 0 < 2 ^ 32
  unfold fmtA3
  omega

theorem Encoding.cmp (c : ICond) (kd : Low) (p : Sel) (a : Reg) (q : Sel) (b : Reg) : Encoding.Statement (.cmp c kd p a q b) := by
  have h0 := ICond.code_lt c
  have h1 := kd.isLt
  have h2 := p.isLt
  have h3 := a.isLt
  have h4 := q.isLt
  have h5 := b.isLt
  show fmtA3 0x09000000 (c.toNat * 8 + kd.val) p.val a.val q.val b.val 0 < 2 ^ 32
  unfold fmtA3
  omega

theorem Encoding.scmp (c : ICond) (p : Sel) (a : Reg) (q : Sel) (b : Reg) : Encoding.Statement (.scmp c p a q b) := by
  have h0 := ICond.code_lt c
  have h1 := p.isLt
  have h2 := a.isLt
  have h3 := q.isLt
  have h4 := b.isLt
  show fmtA3 0x0A000000 (c.toNat * 8) p.val a.val q.val b.val 0 < 2 ^ 32
  unfold fmtA3
  omega

theorem Encoding.selK03 (d : Reg) (p : Sel) (a : Reg) (q : Sel) (b : Reg) (m : Fin 4) : Encoding.Statement (.selK03 d p a q b m) := by
  have h0 := d.isLt
  have h1 := p.isLt
  have h2 := a.isLt
  have h3 := q.isLt
  have h4 := b.isLt
  have h5 := m.isLt
  show fmtA3 0x0B000000 d.val p.val a.val q.val b.val m.val < 2 ^ 32
  unfold fmtA3
  omega

theorem Encoding.selK47 (d : Reg) (p : Sel) (a : Reg) (q : Sel) (b : Reg) (m : Fin 4) : Encoding.Statement (.selK47 d p a q b m) := by
  have h0 := d.isLt
  have h1 := p.isLt
  have h2 := a.isLt
  have h3 := q.isLt
  have h4 := b.isLt
  have h5 := m.isLt
  show fmtA3 0x0C000000 d.val p.val a.val q.val b.val m.val < 2 ^ 32
  unfold fmtA3
  omega

theorem Encoding.fadd (d : Reg) (p : Sel) (a : Reg) (q : Sel) (b : Reg) : Encoding.Statement (.fadd d p a q b) := by
  have h0 := d.isLt
  have h1 := p.isLt
  have h2 := a.isLt
  have h3 := q.isLt
  have h4 := b.isLt
  show fmtA3 0x0D000000 d.val p.val a.val q.val b.val 0 < 2 ^ 32
  unfold fmtA3
  omega

theorem Encoding.fsub (d : Reg) (p : Sel) (a : Reg) (q : Sel) (b : Reg) : Encoding.Statement (.fsub d p a q b) := by
  have h0 := d.isLt
  have h1 := p.isLt
  have h2 := a.isLt
  have h3 := q.isLt
  have h4 := b.isLt
  show fmtA3 0x0D000001 d.val p.val a.val q.val b.val 0 < 2 ^ 32
  unfold fmtA3
  omega

theorem Encoding.fmul (d : Reg) (p : Sel) (a : Reg) (q : Sel) (b : Reg) : Encoding.Statement (.fmul d p a q b) := by
  have h0 := d.isLt
  have h1 := p.isLt
  have h2 := a.isLt
  have h3 := q.isLt
  have h4 := b.isLt
  show fmtA3 0x0D000002 d.val p.val a.val q.val b.val 0 < 2 ^ 32
  unfold fmtA3
  omega

theorem Encoding.fmin (d : Reg) (p : Sel) (a : Reg) (q : Sel) (b : Reg) : Encoding.Statement (.fmin d p a q b) := by
  have h0 := d.isLt
  have h1 := p.isLt
  have h2 := a.isLt
  have h3 := q.isLt
  have h4 := b.isLt
  show fmtA3 0x0E000000 d.val p.val a.val q.val b.val 0 < 2 ^ 32
  unfold fmtA3
  omega

theorem Encoding.fmax (d : Reg) (p : Sel) (a : Reg) (q : Sel) (b : Reg) : Encoding.Statement (.fmax d p a q b) := by
  have h0 := d.isLt
  have h1 := p.isLt
  have h2 := a.isLt
  have h3 := q.isLt
  have h4 := b.isLt
  show fmtA3 0x0E000001 d.val p.val a.val q.val b.val 0 < 2 ^ 32
  unfold fmtA3
  omega

theorem Encoding.fscale (d : Reg) (p : Sel) (a : Reg) (q : Sel) (b : Reg) : Encoding.Statement (.fscale d p a q b) := by
  have h0 := d.isLt
  have h1 := p.isLt
  have h2 := a.isLt
  have h3 := q.isLt
  have h4 := b.isLt
  show fmtA3 0x0E000002 d.val p.val a.val q.val b.val 0 < 2 ^ 32
  unfold fmtA3
  omega

theorem Encoding.fneg (d : Reg) (p : Sel) (a : Reg) : Encoding.Statement (.fneg d p a) := by
  have h0 := d.isLt
  have h1 := p.isLt
  have h2 := a.isLt
  show fmtA3 0x0F000000 d.val p.val a.val 0 0 0 < 2 ^ 32
  unfold fmtA3
  omega

theorem Encoding.fabs (d : Reg) (p : Sel) (a : Reg) : Encoding.Statement (.fabs d p a) := by
  have h0 := d.isLt
  have h1 := p.isLt
  have h2 := a.isLt
  show fmtA3 0x0F000001 d.val p.val a.val 0 0 0 < 2 ^ 32
  unfold fmtA3
  omega

theorem Encoding.ffract (d : Reg) (p : Sel) (a : Reg) : Encoding.Statement (.ffract d p a) := by
  have h0 := d.isLt
  have h1 := p.isLt
  have h2 := a.isLt
  show fmtA3 0x0F000002 d.val p.val a.val 0 0 0 < 2 ^ 32
  unfold fmtA3
  omega

theorem Encoding.fclass (d : Reg) (p : Sel) (a : Reg) : Encoding.Statement (.fclass d p a) := by
  have h0 := d.isLt
  have h1 := p.isLt
  have h2 := a.isLt
  show fmtA3 0x0F000003 d.val p.val a.val 0 0 0 < 2 ^ 32
  unfold fmtA3
  omega

theorem Encoding.frnd (d : Reg) (p : Sel) (a : Reg) (r : FRndMode) : Encoding.Statement (.frnd d p a r) := by
  have h0 := d.isLt
  have h1 := p.isLt
  have h2 := a.isLt
  have h3 := FRndMode.code_lt r
  show fmtA3 0x10000000 d.val p.val a.val 0 0 r.toNat < 2 ^ 32
  unfold fmtA3
  omega

theorem Encoding.fcmp (c : FCond) (kd : Low) (p : Sel) (a : Reg) (q : Sel) (b : Reg) : Encoding.Statement (.fcmp c kd p a q b) := by
  have h0 := FCond.code_lt c
  have h1 := kd.isLt
  have h2 := p.isLt
  have h3 := a.isLt
  have h4 := q.isLt
  have h5 := b.isLt
  show fmtA3 0x11000000 (c.toNat * 8 + kd.val) p.val a.val q.val b.val 0 < 2 ^ 32
  unfold fmtA3
  omega

theorem Encoding.cvt (d : Reg) (p : Sel) (a : Reg) (t : Ty) (rz : Bool) : Encoding.Statement (.cvt d p a t rz) := by
  have h0 := d.isLt
  have h1 := p.isLt
  have h2 := a.isLt
  have h3 := Ty.code_lt t
  have h4 := Bool.code_lt rz
  show fmtA3 0x12000000 d.val p.val a.val 0 t.toNat rz.toNat < 2 ^ 32
  unfold fmtA3
  omega

theorem Encoding.pack (d : Reg) (p : Sel) (a : Reg) (q : Sel) (b : Reg) : Encoding.Statement (.pack d p a q b) := by
  have h0 := d.isLt
  have h1 := p.isLt
  have h2 := a.isLt
  have h3 := q.isLt
  have h4 := b.isLt
  show fmtA3 0x13000000 d.val p.val a.val q.val b.val 0 < 2 ^ 32
  unfold fmtA3
  omega

theorem Encoding.unpk (d : Reg) (p : Sel) (a : Reg) (q : Sel) (b : Reg) : Encoding.Statement (.unpk d p a q b) := by
  have h0 := d.isLt
  have h1 := p.isLt
  have h2 := a.isLt
  have h3 := q.isLt
  have h4 := b.isLt
  show fmtA3 0x13000001 d.val p.val a.val q.val b.val 0 < 2 ^ 32
  unfold fmtA3
  omega

theorem Encoding.sat (d : Reg) (p : Sel) (a : Reg) : Encoding.Statement (.sat d p a) := by
  have h0 := d.isLt
  have h1 := p.isLt
  have h2 := a.isLt
  show fmtA3 0x13000002 d.val p.val a.val 0 0 0 < 2 ^ 32
  unfold fmtA3
  omega

theorem Encoding.shfl (d : Reg) (p : Sel) (a : Reg) (q : Sel) (b : Reg) (m : ShflMode) : Encoding.Statement (.shfl d p a q b m) := by
  have h0 := d.isLt
  have h1 := p.isLt
  have h2 := a.isLt
  have h3 := q.isLt
  have h4 := b.isLt
  have h5 := ShflMode.code_lt m
  show fmtA3 0x14000000 d.val p.val a.val q.val b.val m.toNat < 2 ^ 32
  unfold fmtA3
  omega

theorem Encoding.qxh (d : Reg) (p : Sel) (a : Reg) : Encoding.Statement (.qxh d p a) := by
  have h0 := d.isLt
  have h1 := p.isLt
  have h2 := a.isLt
  show fmtA3 0x15000000 d.val p.val a.val 0 0 0 < 2 ^ 32
  unfold fmtA3
  omega

theorem Encoding.qxv (d : Reg) (p : Sel) (a : Reg) : Encoding.Statement (.qxv d p a) := by
  have h0 := d.isLt
  have h1 := p.isLt
  have h2 := a.isLt
  show fmtA3 0x15000001 d.val p.val a.val 0 0 0 < 2 ^ 32
  unfold fmtA3
  omega

theorem Encoding.qxd (d : Reg) (p : Sel) (a : Reg) : Encoding.Statement (.qxd d p a) := by
  have h0 := d.isLt
  have h1 := p.isLt
  have h2 := a.isLt
  show fmtA3 0x15000002 d.val p.val a.val 0 0 0 < 2 ^ 32
  unfold fmtA3
  omega

theorem Encoding.qbc (d : Reg) (p : Sel) (a : Reg) (n : Fin 4) : Encoding.Statement (.qbc d p a n) := by
  have h0 := d.isLt
  have h1 := p.isLt
  have h2 := a.isLt
  have h3 := n.isLt
  show fmtA3 0x15000003 d.val p.val a.val 0 n.val 0 < 2 ^ 32
  unfold fmtA3
  omega

theorem Encoding.qswz (d : Reg) (p : Sel) (a : Reg) (hi6 : Fin 64) (lo2 : Fin 4) : Encoding.Statement (.qswz d p a hi6 lo2) := by
  have h0 := d.isLt
  have h1 := p.isLt
  have h2 := a.isLt
  have h3 := hi6.isLt
  have h4 := lo2.isLt
  show fmtA3 0x16000000 d.val p.val a.val 0 hi6.val lo2.val < 2 ^ 32
  unfold fmtA3
  omega

theorem Encoding.wred (d : Reg) (p : Sel) (a : Reg) (op : RedOp) : Encoding.Statement (.wred d p a op) := by
  have h0 := d.isLt
  have h1 := p.isLt
  have h2 := a.isLt
  have h3 := RedOp.code_lt op
  show fmtA3 0x17000000 d.val p.val a.val 0 op.toNat 0 < 2 ^ 32
  unfold fmtA3
  omega

theorem Encoding.wscan (d : Reg) (p : Sel) (a : Reg) (op : RedOp) (excl : Bool) : Encoding.Statement (.wscan d p a op excl) := by
  have h0 := d.isLt
  have h1 := p.isLt
  have h2 := a.isLt
  have h3 := RedOp.code_lt op
  have h4 := Bool.code_lt excl
  show fmtA3 0x18000000 d.val p.val a.val 0 op.toNat excl.toNat < 2 ^ 32
  unfold fmtA3
  omega

theorem Encoding.kand (kd : Low) (ka : Low) (kb : Low) : Encoding.Statement (.kand kd ka kb) := by
  have h0 := kd.isLt
  have h1 := ka.isLt
  have h2 := kb.isLt
  show fmtA3 0x19000000 kd.val 0 ka.val 0 kb.val 0 < 2 ^ 32
  unfold fmtA3
  omega

theorem Encoding.kor (kd : Low) (ka : Low) (kb : Low) : Encoding.Statement (.kor kd ka kb) := by
  have h0 := kd.isLt
  have h1 := ka.isLt
  have h2 := kb.isLt
  show fmtA3 0x19000001 kd.val 0 ka.val 0 kb.val 0 < 2 ^ 32
  unfold fmtA3
  omega

theorem Encoding.kxor (kd : Low) (ka : Low) (kb : Low) : Encoding.Statement (.kxor kd ka kb) := by
  have h0 := kd.isLt
  have h1 := ka.isLt
  have h2 := kb.isLt
  show fmtA3 0x19000002 kd.val 0 ka.val 0 kb.val 0 < 2 ^ 32
  unfold fmtA3
  omega

theorem Encoding.kandn (kd : Low) (ka : Low) (kb : Low) : Encoding.Statement (.kandn kd ka kb) := by
  have h0 := kd.isLt
  have h1 := ka.isLt
  have h2 := kb.isLt
  show fmtA3 0x19000003 kd.val 0 ka.val 0 kb.val 0 < 2 ^ 32
  unfold fmtA3
  omega

theorem Encoding.knot (kd : Low) (ka : Low) : Encoding.Statement (.knot kd ka) := by
  have h0 := kd.isLt
  have h1 := ka.isLt
  show fmtA3 0x1A000000 kd.val 0 ka.val 0 0 0 < 2 ^ 32
  unfold fmtA3
  omega

theorem Encoding.kmov (kd : Low) (ka : Low) : Encoding.Statement (.kmov kd ka) := by
  have h0 := kd.isLt
  have h1 := ka.isLt
  show fmtA3 0x1A000001 kd.val 0 ka.val 0 0 0 < 2 ^ 32
  unfold fmtA3
  omega

theorem Encoding.kpopc (d : Reg) (ka : Low) : Encoding.Statement (.kpopc d ka) := by
  have h0 := d.isLt
  have h1 := ka.isLt
  show fmtA3 0x1A000002 d.val 0 ka.val 0 0 0 < 2 ^ 32
  unfold fmtA3
  omega

theorem Encoding.kffs (d : Reg) (ka : Low) : Encoding.Statement (.kffs d ka) := by
  have h0 := d.isLt
  have h1 := ka.isLt
  show fmtA3 0x1A000003 d.val 0 ka.val 0 0 0 < 2 ^ 32
  unfold fmtA3
  omega

theorem Encoding.exmrd (kd : Low) : Encoding.Statement (.exmrd kd) := by
  have h0 := kd.isLt
  show fmtA3 0x1B000000 kd.val 0 0 0 0 0 < 2 ^ 32
  unfold fmtA3
  omega

theorem Encoding.exmwr (ka : Low) : Encoding.Statement (.exmwr ka) := by
  have h0 := ka.isLt
  show fmtA3 0x1B000001 0 0 ka.val 0 0 0 < 2 ^ 32
  unfold fmtA3
  omega

theorem Encoding.mov (d : Reg) (p : Sel) (a : Reg) : Encoding.Statement (.mov d p a) := by
  have h0 := d.isLt
  have h1 := p.isLt
  have h2 := a.isLt
  show fmtA3 0x1C000000 d.val p.val a.val 0 0 0 < 2 ^ 32
  unfold fmtA3
  omega

theorem Encoding.sread (d : Reg) (n : Fin 64) : Encoding.Statement (.sread d n) := by
  have h0 := d.isLt
  have h1 := n.isLt
  show fmtA3 0x1C000001 d.val 0 n.val 0 0 0 < 2 ^ 32
  unfold fmtA3
  omega

theorem Encoding.hlprd (d : Reg) (p : Sel) (a : Reg) : Encoding.Statement (.hlprd d p a) := by
  have h0 := d.isLt
  have h1 := p.isLt
  have h2 := a.isLt
  show fmtA3 0x1C000002 d.val p.val a.val 0 0 0 < 2 ^ 32
  unfold fmtA3
  omega

theorem Encoding.fma (d : Reg) (a : Reg) (b : Reg) (c : Reg) (p : Sel) : Encoding.Statement (.fma d a b c p) := by
  have h0 := d.isLt
  have h1 := a.isLt
  have h2 := b.isLt
  have h3 := c.isLt
  have h4 := p.isLt
  show fmtA4 0x40000000 d.val a.val b.val c.val p.val < 2 ^ 32
  unfold fmtA4
  omega

theorem Encoding.fms (d : Reg) (a : Reg) (b : Reg) (c : Reg) (p : Sel) : Encoding.Statement (.fms d a b c p) := by
  have h0 := d.isLt
  have h1 := a.isLt
  have h2 := b.isLt
  have h3 := c.isLt
  have h4 := p.isLt
  show fmtA4 0x44000000 d.val a.val b.val c.val p.val < 2 ^ 32
  unfold fmtA4
  omega

theorem Encoding.fnma (d : Reg) (a : Reg) (b : Reg) (c : Reg) (p : Sel) : Encoding.Statement (.fnma d a b c p) := by
  have h0 := d.isLt
  have h1 := a.isLt
  have h2 := b.isLt
  have h3 := c.isLt
  have h4 := p.isLt
  show fmtA4 0x48000000 d.val a.val b.val c.val p.val < 2 ^ 32
  unfold fmtA4
  omega

theorem Encoding.mad (d : Reg) (a : Reg) (b : Reg) (c : Reg) (p : Sel) : Encoding.Statement (.mad d a b c p) := by
  have h0 := d.isLt
  have h1 := a.isLt
  have h2 := b.isLt
  have h3 := c.isLt
  have h4 := p.isLt
  show fmtA4 0x4C000000 d.val a.val b.val c.val p.val < 2 ^ 32
  unfold fmtA4
  omega

theorem Encoding.madh (d : Reg) (a : Reg) (b : Reg) (c : Reg) (p : Sel) : Encoding.Statement (.madh d a b c p) := by
  have h0 := d.isLt
  have h1 := a.isLt
  have h2 := b.isLt
  have h3 := c.isLt
  have h4 := p.isLt
  show fmtA4 0x50000000 d.val a.val b.val c.val p.val < 2 ^ 32
  unfold fmtA4
  omega

theorem Encoding.bfi (d : Reg) (a : Reg) (b : Reg) (c : Reg) (p : Sel) : Encoding.Statement (.bfi d a b c p) := by
  have h0 := d.isLt
  have h1 := a.isLt
  have h2 := b.isLt
  have h3 := c.isLt
  have h4 := p.isLt
  show fmtA4 0x54000000 d.val a.val b.val c.val p.val < 2 ^ 32
  unfold fmtA4
  omega

theorem Encoding.dot4 (d : Reg) (a : Reg) (b : Reg) (c : Reg) (p : Sel) : Encoding.Statement (.dot4 d a b c p) := by
  have h0 := d.isLt
  have h1 := a.isLt
  have h2 := b.isLt
  have h3 := c.isLt
  have h4 := p.isLt
  show fmtA4 0x58000000 d.val a.val b.val c.val p.val < 2 ^ 32
  unfold fmtA4
  omega

theorem Encoding.fdot2 (d : Reg) (a : Reg) (b : Reg) (c : Reg) (p : Sel) : Encoding.Statement (.fdot2 d a b c p) := by
  have h0 := d.isLt
  have h1 := a.isLt
  have h2 := b.isLt
  have h3 := c.isLt
  have h4 := p.isLt
  show fmtA4 0x5C000000 d.val a.val b.val c.val p.val < 2 ^ 32
  unfold fmtA4
  omega

theorem Encoding.lerp (d : Reg) (a : Reg) (b : Reg) (c : Reg) (p : Sel) : Encoding.Statement (.lerp d a b c p) := by
  have h0 := d.isLt
  have h1 := a.isLt
  have h2 := b.isLt
  have h3 := c.isLt
  have h4 := p.isLt
  show fmtA4 0x60000000 d.val a.val b.val c.val p.val < 2 ^ 32
  unfold fmtA4
  omega

theorem Encoding.clamp (d : Reg) (a : Reg) (b : Reg) (c : Reg) (p : Sel) : Encoding.Statement (.clamp d a b c p) := by
  have h0 := d.isLt
  have h1 := a.isLt
  have h2 := b.isLt
  have h3 := c.isLt
  have h4 := p.isLt
  show fmtA4 0x64000000 d.val a.val b.val c.val p.val < 2 ^ 32
  unfold fmtA4
  omega

theorem Encoding.ld (d : Reg) (a : Reg) (f : Low) (sz : Size) (ch : Hint) (la : Ahead) : Encoding.Statement (.ld d a f sz ch la) := by
  have h0 := d.isLt
  have h1 := a.isLt
  have h2 := f.isLt
  have h3 := Size.code_lt sz
  have h4 := Hint.code_lt ch
  have h5 := la.isLt
  show fmtM 0x80000000 d.val a.val f.val (sz.toNat * 4 + ch.toNat) la.val < 2 ^ 32
  unfold fmtM
  omega

theorem Encoding.st (d : Reg) (a : Reg) (f : Low) (sz : Size) (ch : Hint) (la : Ahead) : Encoding.Statement (.st d a f sz ch la) := by
  have h0 := d.isLt
  have h1 := a.isLt
  have h2 := f.isLt
  have h3 := Size.code_lt sz
  have h4 := Hint.code_lt ch
  have h5 := la.isLt
  show fmtM 0x81000000 d.val a.val f.val (sz.toNat * 4 + ch.toNat) la.val < 2 ^ 32
  unfold fmtM
  omega

theorem Encoding.ldl (d : Reg) (a : Reg) (sz : Size) (la : Ahead) : Encoding.Statement (.ldl d a sz la) := by
  have h0 := d.isLt
  have h1 := a.isLt
  have h2 := Size.code_lt sz
  have h3 := la.isLt
  show fmtM 0x82000000 d.val a.val 0 (sz.toNat * 4) la.val < 2 ^ 32
  unfold fmtM
  omega

theorem Encoding.stl (d : Reg) (a : Reg) (sz : Size) (la : Ahead) : Encoding.Statement (.stl d a sz la) := by
  have h0 := d.isLt
  have h1 := a.isLt
  have h2 := Size.code_lt sz
  have h3 := la.isLt
  show fmtM 0x83000000 d.val a.val 0 (sz.toNat * 4) la.val < 2 ^ 32
  unfold fmtM
  omega

theorem Encoding.prf (flt : Bool) (a : Reg) (f : Low) (sz : Size) (ch : Hint) (la : Ahead) : Encoding.Statement (.prf flt a f sz ch la) := by
  have h0 := Bool.code_lt flt
  have h1 := a.isLt
  have h2 := f.isLt
  have h3 := Size.code_lt sz
  have h4 := Hint.code_lt ch
  have h5 := la.isLt
  show fmtM 0x84000000 flt.toNat a.val f.val (sz.toNat * 4 + ch.toNat) la.val < 2 ^ 32
  unfold fmtM
  omega

theorem Encoding.ldAcq (d : Reg) (a : Reg) (f : Low) (sz : OSize) (sc : Scope) (la : Ahead) : Encoding.Statement (.ldAcq d a f sz sc la) := by
  have h0 := d.isLt
  have h1 := a.isLt
  have h2 := f.isLt
  have h3 := OSize.code_lt sz
  have h4 := Scope.code_lt sc
  have h5 := la.isLt
  show fmtM 0x85000000 d.val a.val f.val (sz.toNat * 8 + sc.toNat) la.val < 2 ^ 32
  unfold fmtM
  omega

theorem Encoding.stRel (d : Reg) (a : Reg) (f : Low) (sz : OSize) (sc : Scope) (la : Ahead) : Encoding.Statement (.stRel d a f sz sc la) := by
  have h0 := d.isLt
  have h1 := a.isLt
  have h2 := f.isLt
  have h3 := OSize.code_lt sz
  have h4 := Scope.code_lt sc
  have h5 := la.isLt
  show fmtM 0x86000000 d.val a.val f.val (sz.toNat * 8 + sc.toNat) la.val < 2 ^ 32
  unfold fmtM
  omega

theorem Encoding.aadd (d : Reg) (a : Reg) (f : Low) (sc : Scope) (o : Order) (la : Ahead) : Encoding.Statement (.aadd d a f sc o la) := by
  have h0 := d.isLt
  have h1 := a.isLt
  have h2 := f.isLt
  have h3 := Scope.code_lt sc
  have h4 := Order.code_lt o
  have h5 := la.isLt
  show fmtM 0x88000000 d.val a.val f.val (sc.toNat * 4 + o.toNat) la.val < 2 ^ 32
  unfold fmtM
  omega

theorem Encoding.amin (d : Reg) (a : Reg) (f : Low) (sc : Scope) (o : Order) (la : Ahead) : Encoding.Statement (.amin d a f sc o la) := by
  have h0 := d.isLt
  have h1 := a.isLt
  have h2 := f.isLt
  have h3 := Scope.code_lt sc
  have h4 := Order.code_lt o
  have h5 := la.isLt
  show fmtM 0x89000000 d.val a.val f.val (sc.toNat * 4 + o.toNat) la.val < 2 ^ 32
  unfold fmtM
  omega

theorem Encoding.amax (d : Reg) (a : Reg) (f : Low) (sc : Scope) (o : Order) (la : Ahead) : Encoding.Statement (.amax d a f sc o la) := by
  have h0 := d.isLt
  have h1 := a.isLt
  have h2 := f.isLt
  have h3 := Scope.code_lt sc
  have h4 := Order.code_lt o
  have h5 := la.isLt
  show fmtM 0x8A000000 d.val a.val f.val (sc.toNat * 4 + o.toNat) la.val < 2 ^ 32
  unfold fmtM
  omega

theorem Encoding.aand (d : Reg) (a : Reg) (f : Low) (sc : Scope) (o : Order) (la : Ahead) : Encoding.Statement (.aand d a f sc o la) := by
  have h0 := d.isLt
  have h1 := a.isLt
  have h2 := f.isLt
  have h3 := Scope.code_lt sc
  have h4 := Order.code_lt o
  have h5 := la.isLt
  show fmtM 0x8B000000 d.val a.val f.val (sc.toNat * 4 + o.toNat) la.val < 2 ^ 32
  unfold fmtM
  omega

theorem Encoding.aor (d : Reg) (a : Reg) (f : Low) (sc : Scope) (o : Order) (la : Ahead) : Encoding.Statement (.aor d a f sc o la) := by
  have h0 := d.isLt
  have h1 := a.isLt
  have h2 := f.isLt
  have h3 := Scope.code_lt sc
  have h4 := Order.code_lt o
  have h5 := la.isLt
  show fmtM 0x8C000000 d.val a.val f.val (sc.toNat * 4 + o.toNat) la.val < 2 ^ 32
  unfold fmtM
  omega

theorem Encoding.axor (d : Reg) (a : Reg) (f : Low) (sc : Scope) (o : Order) (la : Ahead) : Encoding.Statement (.axor d a f sc o la) := by
  have h0 := d.isLt
  have h1 := a.isLt
  have h2 := f.isLt
  have h3 := Scope.code_lt sc
  have h4 := Order.code_lt o
  have h5 := la.isLt
  show fmtM 0x8D000000 d.val a.val f.val (sc.toNat * 4 + o.toNat) la.val < 2 ^ 32
  unfold fmtM
  omega

theorem Encoding.axchg (d : Reg) (a : Reg) (f : Low) (sc : Scope) (o : Order) (la : Ahead) : Encoding.Statement (.axchg d a f sc o la) := by
  have h0 := d.isLt
  have h1 := a.isLt
  have h2 := f.isLt
  have h3 := Scope.code_lt sc
  have h4 := Order.code_lt o
  have h5 := la.isLt
  show fmtM 0x8E000000 d.val a.val f.val (sc.toNat * 4 + o.toNat) la.val < 2 ^ 32
  unfold fmtM
  omega

theorem Encoding.acas (d : Reg) (a : Reg) (f : Low) (sc : Scope) (o : Order) (la : Ahead) : Encoding.Statement (.acas d a f sc o la) := by
  have h0 := d.isLt
  have h1 := a.isLt
  have h2 := f.isLt
  have h3 := Scope.code_lt sc
  have h4 := Order.code_lt o
  have h5 := la.isLt
  show fmtM 0x8F000000 d.val a.val f.val (sc.toNat * 4 + o.toNat) la.val < 2 ^ 32
  unfold fmtM
  omega

theorem Encoding.afadd (d : Reg) (a : Reg) (f : Low) (sc : Scope) (o : Order) (la : Ahead) : Encoding.Statement (.afadd d a f sc o la) := by
  have h0 := d.isLt
  have h1 := a.isLt
  have h2 := f.isLt
  have h3 := Scope.code_lt sc
  have h4 := Order.code_lt o
  have h5 := la.isLt
  show fmtM 0x90000000 d.val a.val f.val (sc.toNat * 4 + o.toNat) la.val < 2 ^ 32
  unfold fmtM
  omega

theorem Encoding.ainc (d : Reg) (a : Reg) (f : Low) (sc : Scope) (o : Order) (la : Ahead) : Encoding.Statement (.ainc d a f sc o la) := by
  have h0 := d.isLt
  have h1 := a.isLt
  have h2 := f.isLt
  have h3 := Scope.code_lt sc
  have h4 := Order.code_lt o
  have h5 := la.isLt
  show fmtM 0x91000000 d.val a.val f.val (sc.toNat * 4 + o.toNat) la.val < 2 ^ 32
  unfold fmtM
  omega

theorem Encoding.fence (sc : Scope) (la : Ahead) : Encoding.Statement (.fence sc la) := by
  have h0 := Scope.code_lt sc
  have h1 := la.isLt
  show fmtM 0x92000000 0 0 0 sc.toNat la.val < 2 ^ 32
  unfold fmtM
  omega

theorem Encoding.fencex (dir : FenceDir) (la : Ahead) : Encoding.Statement (.fencex dir la) := by
  have h0 := FenceDir.code_lt dir
  have h1 := la.isLt
  show fmtM 0x93000000 0 0 0 dir.toNat la.val < 2 ^ 32
  unfold fmtM
  omega

theorem Encoding.wait (n : Fin 64) (c : Counter) (la : Ahead) : Encoding.Statement (.wait n c la) := by
  have h0 := n.isLt
  have h1 := Counter.code_lt c
  have h2 := la.isLt
  show fmtM 0x94000000 0 n.val c.toNat 0 la.val < 2 ^ 32
  unfold fmtM
  omega

theorem Encoding.xlb (a : Reg) (f : Low) (la : Ahead) : Encoding.Statement (.xlb a f la) := by
  have h0 := a.isLt
  have h1 := f.isLt
  have h2 := la.isLt
  show fmtM 0x95000000 0 a.val f.val 0 la.val < 2 ^ 32
  unfold fmtM
  omega

theorem Encoding.xinv (a : Reg) (sc : Scope) (la : Ahead) : Encoding.Statement (.xinv a sc la) := by
  have h0 := a.isLt
  have h1 := Scope.code_lt sc
  have h2 := la.isLt
  show fmtM 0x96000000 0 a.val 0 sc.toNat la.val < 2 ^ 32
  unfold fmtM
  omega

theorem Encoding.fdiv (d : Reg) (a : Reg) (b : Reg) (la : Ahead) : Encoding.Statement (.fdiv d a b la) := by
  have h0 := d.isLt
  have h1 := a.isLt
  have h2 := b.isLt
  have h3 := la.isLt
  show fmtM 0x98000000 d.val a.val 0 (b.val * 4) la.val < 2 ^ 32
  unfold fmtM
  omega

theorem Encoding.fsqrt (d : Reg) (a : Reg) (la : Ahead) : Encoding.Statement (.fsqrt d a la) := by
  have h0 := d.isLt
  have h1 := a.isLt
  have h2 := la.isLt
  show fmtM 0x99000000 d.val a.val 0 0 la.val < 2 ^ 32
  unfold fmtM
  omega

theorem Encoding.frcp (d : Reg) (a : Reg) (la : Ahead) : Encoding.Statement (.frcp d a la) := by
  have h0 := d.isLt
  have h1 := a.isLt
  have h2 := la.isLt
  show fmtM 0x9A000000 d.val a.val 0 0 la.val < 2 ^ 32
  unfold fmtM
  omega

theorem Encoding.frsq (d : Reg) (a : Reg) (la : Ahead) : Encoding.Statement (.frsq d a la) := by
  have h0 := d.isLt
  have h1 := a.isLt
  have h2 := la.isLt
  show fmtM 0x9B000000 d.val a.val 0 0 la.val < 2 ^ 32
  unfold fmtM
  omega

theorem Encoding.fexp2 (d : Reg) (a : Reg) (la : Ahead) : Encoding.Statement (.fexp2 d a la) := by
  have h0 := d.isLt
  have h1 := a.isLt
  have h2 := la.isLt
  show fmtM 0x9C000000 d.val a.val 0 0 la.val < 2 ^ 32
  unfold fmtM
  omega

theorem Encoding.flog2 (d : Reg) (a : Reg) (la : Ahead) : Encoding.Statement (.flog2 d a la) := by
  have h0 := d.isLt
  have h1 := a.isLt
  have h2 := la.isLt
  show fmtM 0x9D000000 d.val a.val 0 0 la.val < 2 ^ 32
  unfold fmtM
  omega

theorem Encoding.fsin (d : Reg) (a : Reg) (la : Ahead) : Encoding.Statement (.fsin d a la) := by
  have h0 := d.isLt
  have h1 := a.isLt
  have h2 := la.isLt
  show fmtM 0x9E000000 d.val a.val 0 0 la.val < 2 ^ 32
  unfold fmtM
  omega

theorem Encoding.fcos (d : Reg) (a : Reg) (la : Ahead) : Encoding.Statement (.fcos d a la) := by
  have h0 := d.isLt
  have h1 := a.isLt
  have h2 := la.isLt
  show fmtM 0x9F000000 d.val a.val 0 0 la.val < 2 ^ 32
  unfold fmtM
  omega

theorem Encoding.idiv (d : Reg) (a : Reg) (b : Reg) (la : Ahead) : Encoding.Statement (.idiv d a b la) := by
  have h0 := d.isLt
  have h1 := a.isLt
  have h2 := b.isLt
  have h3 := la.isLt
  show fmtM 0xA0000000 d.val a.val 0 (b.val * 4) la.val < 2 ^ 32
  unfold fmtM
  omega

theorem Encoding.irem (d : Reg) (a : Reg) (b : Reg) (la : Ahead) : Encoding.Statement (.irem d a b la) := by
  have h0 := d.isLt
  have h1 := a.isLt
  have h2 := b.isLt
  have h3 := la.isLt
  show fmtM 0xA1000000 d.val a.val 0 (b.val * 4) la.val < 2 ^ 32
  unfold fmtM
  omega

theorem Encoding.cpy (d : Reg) (a : Reg) (f : Low) (ch : Hint) (la : Ahead) : Encoding.Statement (.cpy d a f ch la) := by
  have h0 := d.isLt
  have h1 := a.isLt
  have h2 := f.isLt
  have h3 := Hint.code_lt ch
  have h4 := la.isLt
  show fmtM 0xA2000000 d.val a.val f.val ch.toNat la.val < 2 ^ 32
  unfold fmtM
  omega

theorem Encoding.cpymc (d : Reg) (a : Reg) (f : Low) (mask : BitVec 4) (la : Ahead) : Encoding.Statement (.cpymc d a f mask la) := by
  have h0 := d.isLt
  have h1 := a.isLt
  have h2 := f.isLt
  have h3 := mask.isLt
  have h4 := la.isLt
  show fmtM 0xA3000000 d.val a.val f.val mask.toNat la.val < 2 ^ 32
  unfold fmtM
  omega

theorem Encoding.cpyst (g : Low) (a : Reg) (f : Low) (ch : Hint) (la : Ahead) : Encoding.Statement (.cpyst g a f ch la) := by
  have h0 := g.isLt
  have h1 := a.isLt
  have h2 := f.isLt
  have h3 := Hint.code_lt ch
  have h4 := la.isLt
  show fmtM 0xA4000000 g.val a.val f.val ch.toNat la.val < 2 ^ 32
  unfold fmtM
  omega

theorem Encoding.cpyg (d : Reg) (a : Reg) (f : Low) (ch : Hint) (la : Ahead) : Encoding.Statement (.cpyg d a f ch la) := by
  have h0 := d.isLt
  have h1 := a.isLt
  have h2 := f.isLt
  have h3 := Hint.code_lt ch
  have h4 := la.isLt
  show fmtM 0xA5000000 d.val a.val f.val ch.toNat la.val < 2 ^ 32
  unfold fmtM
  omega

theorem Encoding.cpys (d : Reg) (a : Reg) (la : Ahead) : Encoding.Statement (.cpys d a la) := by
  have h0 := d.isLt
  have h1 := a.isLt
  have h2 := la.isLt
  show fmtM 0xA6000000 d.val a.val 0 0 la.val < 2 ^ 32
  unfold fmtM
  omega

theorem Encoding.cpyp (d : Reg) (a : Reg) (f : Low) (g : Low) (ch : Hint) (la : Ahead) : Encoding.Statement (.cpyp d a f g ch la) := by
  have h0 := d.isLt
  have h1 := a.isLt
  have h2 := f.isLt
  have h3 := g.isLt
  have h4 := Hint.code_lt ch
  have h5 := la.isLt
  show fmtM 0xA7000000 d.val a.val f.val (g.val * 4 + ch.toNat) la.val < 2 ^ 32
  unfold fmtM
  omega

theorem Encoding.cpyq (d : Reg) (a : Reg) (f : Low) (g : Low) (ch : Hint) (la : Ahead) : Encoding.Statement (.cpyq d a f g ch la) := by
  have h0 := d.isLt
  have h1 := a.isLt
  have h2 := f.isLt
  have h3 := g.isLt
  have h4 := Hint.code_lt ch
  have h5 := la.isLt
  show fmtM 0xA8000000 d.val a.val f.val (g.val * 4 + ch.toNat) la.val < 2 ^ 32
  unfold fmtM
  omega

theorem Encoding.mma (d : Reg) (a : Reg) (z : Bool) (c : Fin 16) (la : Ahead) : Encoding.Statement (.mma d a z c la) := by
  have h0 := d.isLt
  have h1 := a.isLt
  have h2 := Bool.code_lt z
  have h3 := c.isLt
  have h4 := la.isLt
  show fmtM 0xA9000000 d.val a.val 0 (z.toNat * 16 + c.val) la.val < 2 ^ 32
  unfold fmtM
  omega

theorem Encoding.mmas (d : Reg) (a : Reg) (z : Bool) (c : Fin 16) (la : Ahead) : Encoding.Statement (.mmas d a z c la) := by
  have h0 := d.isLt
  have h1 := a.isLt
  have h2 := Bool.code_lt z
  have h3 := c.isLt
  have h4 := la.isLt
  show fmtM 0xAA000000 d.val a.val 0 (z.toNat * 16 + c.val) la.val < 2 ^ 32
  unfold fmtM
  omega

theorem Encoding.mmab (d : Reg) (a : Reg) (z : Bool) (c : Fin 16) (la : Ahead) : Encoding.Statement (.mmab d a z c la) := by
  have h0 := d.isLt
  have h1 := a.isLt
  have h2 := Bool.code_lt z
  have h3 := c.isLt
  have h4 := la.isLt
  show fmtM 0xAB000000 d.val a.val 0 (z.toNat * 16 + c.val) la.val < 2 ^ 32
  unfold fmtM
  omega

theorem Encoding.comp (a : Reg) (c : Fin 16) (la : Ahead) : Encoding.Statement (.comp a c la) := by
  have h0 := a.isLt
  have h1 := c.isLt
  have h2 := la.isLt
  show fmtM 0xAC000000 0 a.val 0 c.val la.val < 2 ^ 32
  unfold fmtM
  omega

theorem Encoding.plnw (a : Reg) (sel : Bool) (c : Fin 16) (la : Ahead) : Encoding.Statement (.plnw a sel c la) := by
  have h0 := a.isLt
  have h1 := Bool.code_lt sel
  have h2 := c.isLt
  have h3 := la.isLt
  show fmtM 0xAD000000 0 a.val sel.toNat c.val la.val < 2 ^ 32
  unfold fmtM
  omega

theorem Encoding.plnr (a : Reg) (sel : Bool) (c : Fin 16) (la : Ahead) : Encoding.Statement (.plnr a sel c la) := by
  have h0 := a.isLt
  have h1 := Bool.code_lt sel
  have h2 := c.isLt
  have h3 := la.isLt
  show fmtM 0xAE000000 0 a.val sel.toNat c.val la.val < 2 ^ 32
  unfold fmtM
  omega

theorem Encoding.accz (d : Reg) (n : Fin 32) (la : Ahead) : Encoding.Statement (.accz d n la) := by
  have h0 := d.isLt
  have h1 := n.isLt
  have h2 := la.isLt
  show fmtM 0xAF000000 d.val 0 0 n.val la.val < 2 ^ 32
  unfold fmtM
  omega

theorem Encoding.accld (d : Reg) (a : Reg) (la : Ahead) : Encoding.Statement (.accld d a la) := by
  have h0 := d.isLt
  have h1 := a.isLt
  have h2 := la.isLt
  show fmtM 0xB0000000 d.val a.val 0 0 la.val < 2 ^ 32
  unfold fmtM
  omega

theorem Encoding.accst (d : Reg) (a : Reg) (la : Ahead) : Encoding.Statement (.accst d a la) := by
  have h0 := d.isLt
  have h1 := a.isLt
  have h2 := la.isLt
  show fmtM 0xB1000000 d.val a.val 0 0 la.val < 2 ^ 32
  unfold fmtM
  omega

theorem Encoding.accrd (d : Reg) (a : Reg) (r : Fin 32) (la : Ahead) : Encoding.Statement (.accrd d a r la) := by
  have h0 := d.isLt
  have h1 := a.isLt
  have h2 := r.isLt
  have h3 := la.isLt
  show fmtM 0xB2000000 d.val a.val 0 r.val la.val < 2 ^ 32
  unfold fmtM
  omega

theorem Encoding.accwr (d : Reg) (a : Reg) (r : Fin 32) (la : Ahead) : Encoding.Statement (.accwr d a r la) := by
  have h0 := d.isLt
  have h1 := a.isLt
  have h2 := r.isLt
  have h3 := la.isLt
  show fmtM 0xB3000000 d.val a.val 0 r.val la.val < 2 ^ 32
  unfold fmtM
  omega

theorem Encoding.mxtokAcq (la : Ahead) : Encoding.Statement (.mxtokAcq la) := by
  have h0 := la.isLt
  show fmtM 0xB4000000 0 0 0 0 la.val < 2 ^ 32
  unfold fmtM
  omega

theorem Encoding.mxtokRel (la : Ahead) : Encoding.Statement (.mxtokRel la) := by
  have h0 := la.isLt
  show fmtM 0xB4000080 0 0 0 0 la.val < 2 ^ 32
  unfold fmtM
  omega

theorem Encoding.mxtokPass (w : Fin 16) (la : Ahead) : Encoding.Statement (.mxtokPass w la) := by
  have h0 := w.isLt
  have h1 := la.isLt
  show fmtM 0xB4000100 0 w.val 0 0 la.val < 2 ^ 32
  unfold fmtM
  omega

theorem Encoding.bar (b : Low) (la : Ahead) : Encoding.Statement (.bar b la) := by
  have h0 := b.isLt
  have h1 := la.isLt
  show fmtM 0xB5000000 0 0 0 b.val la.val < 2 ^ 32
  unfold fmtM
  omega

theorem Encoding.sstep (la : Ahead) : Encoding.Statement (.sstep la) := by
  have h0 := la.isLt
  show fmtM 0xB6000000 0 0 0 0 la.val < 2 ^ 32
  unfold fmtM
  omega

theorem Encoding.rnga (d : Reg) (g : Low) (la : Ahead) : Encoding.Statement (.rnga d g la) := by
  have h0 := d.isLt
  have h1 := g.isLt
  have h2 := la.isLt
  show fmtM 0xB7000000 d.val 0 g.val 0 la.val < 2 ^ 32
  unfold fmtM
  omega

theorem Encoding.rngc (a : Reg) (g : Low) (la : Ahead) : Encoding.Statement (.rngc a g la) := by
  have h0 := a.isLt
  have h1 := g.isLt
  have h2 := la.isLt
  show fmtM 0xB8000000 0 a.val g.val 0 la.val < 2 ^ 32
  unfold fmtM
  omega

theorem Encoding.rngw (d : Reg) (g : Low) (la : Ahead) : Encoding.Statement (.rngw d g la) := by
  have h0 := d.isLt
  have h1 := g.isLt
  have h2 := la.isLt
  show fmtM 0xB9000000 d.val 0 g.val 0 la.val < 2 ^ 32
  unfold fmtM
  omega

theorem Encoding.rngf (a : Reg) (g : Low) (la : Ahead) : Encoding.Statement (.rngf a g la) := by
  have h0 := a.isLt
  have h1 := g.isLt
  have h2 := la.isLt
  show fmtM 0xBA000000 0 a.val g.val 0 la.val < 2 ^ 32
  unfold fmtM
  omega

theorem Encoding.yieldc (n : Fin 64) (off : BitVec 14) (la : Ahead) : Encoding.Statement (.yieldc n off la) := by
  have h0 := n.isLt
  have h1 := off.isLt
  have h2 := la.isLt
  show fmtM 0xBB000000 n.val 0 0 off.toNat la.val < 2 ^ 32
  unfold fmtM
  omega

theorem Encoding.enq (a : Reg) (la : Ahead) : Encoding.Statement (.enq a la) := by
  have h0 := a.isLt
  have h1 := la.isLt
  show fmtM 0xBC000000 0 a.val 0 0 la.val < 2 ^ 32
  unfold fmtM
  omega

theorem Encoding.enqd (a : Reg) (la : Ahead) : Encoding.Statement (.enqd a la) := by
  have h0 := a.isLt
  have h1 := la.isLt
  show fmtM 0xBD000000 0 a.val 0 0 la.val < 2 ^ 32
  unfold fmtM
  omega

theorem Encoding.movh (d : Reg) (imm : BitVec 20) : Encoding.Statement (.movh d imm) := by
  have h0 := d.isLt
  have h1 := imm.isLt
  show fmtJ 0xE0000000 d.val imm.toNat < 2 ^ 32
  unfold fmtJ
  omega

theorem Encoding.br (m : Low) (c : BCond) (off : BitVec 20) : Encoding.Statement (.br m c off) := by
  have h0 := m.isLt
  have h1 := BCond.code_lt c
  have h2 := off.isLt
  show fmtJ 0xE4000000 (m.val * 8 + c.toNat) off.toNat < 2 ^ 32
  unfold fmtJ
  omega

theorem Encoding.call (off : BitVec 20) : Encoding.Statement (.call off) := by
  have h0 := off.isLt
  show fmtJ 0xE8000000 0 off.toNat < 2 ^ 32
  unfold fmtJ
  omega

theorem Encoding.sigchk (x : BitVec 20) : Encoding.Statement (.sigchk x) := by
  have h0 := x.isLt
  show fmtJ 0xEC000000 0 x.toNat < 2 ^ 32
  unfold fmtJ
  omega

theorem Encoding.addi (d : Reg) (a : Reg) (imm : BitVec 12) : Encoding.Statement (.addi d a imm) := by
  have h0 := d.isLt
  have h1 := a.isLt
  have h2 := imm.isLt
  show fmtI 0xC0000000 d.val a.val imm.toNat < 2 ^ 32
  unfold fmtI
  omega

theorem Encoding.andi (d : Reg) (a : Reg) (imm : BitVec 12) : Encoding.Statement (.andi d a imm) := by
  have h0 := d.isLt
  have h1 := a.isLt
  have h2 := imm.isLt
  show fmtI 0xC1000000 d.val a.val imm.toNat < 2 ^ 32
  unfold fmtI
  omega

theorem Encoding.ori (d : Reg) (a : Reg) (imm : BitVec 12) : Encoding.Statement (.ori d a imm) := by
  have h0 := d.isLt
  have h1 := a.isLt
  have h2 := imm.isLt
  show fmtI 0xC2000000 d.val a.val imm.toNat < 2 ^ 32
  unfold fmtI
  omega

theorem Encoding.xori (d : Reg) (a : Reg) (imm : BitVec 12) : Encoding.Statement (.xori d a imm) := by
  have h0 := d.isLt
  have h1 := a.isLt
  have h2 := imm.isLt
  show fmtI 0xC3000000 d.val a.val imm.toNat < 2 ^ 32
  unfold fmtI
  omega

theorem Encoding.shli (d : Reg) (a : Reg) (c : Fin 64) : Encoding.Statement (.shli d a c) := by
  have h0 := d.isLt
  have h1 := a.isLt
  have h2 := c.isLt
  show fmtI 0xC4000000 d.val a.val c.val < 2 ^ 32
  unfold fmtI
  omega

theorem Encoding.shri (d : Reg) (a : Reg) (c : Fin 64) : Encoding.Statement (.shri d a c) := by
  have h0 := d.isLt
  have h1 := a.isLt
  have h2 := c.isLt
  show fmtI 0xC5000000 d.val a.val c.val < 2 ^ 32
  unfold fmtI
  omega

theorem Encoding.sari (d : Reg) (a : Reg) (c : Fin 64) : Encoding.Statement (.sari d a c) := by
  have h0 := d.isLt
  have h1 := a.isLt
  have h2 := c.isLt
  show fmtI 0xC6000000 d.val a.val c.val < 2 ^ 32
  unfold fmtI
  omega

theorem Encoding.cmpi (c : ICond) (kd : Low) (a : Reg) (imm : BitVec 12) : Encoding.Statement (.cmpi c kd a imm) := by
  have h0 := ICond.code_lt c
  have h1 := kd.isLt
  have h2 := a.isLt
  have h3 := imm.isLt
  show fmtI 0xC7000000 (c.toNat * 8 + kd.val) a.val imm.toNat < 2 ^ 32
  unfold fmtI
  omega

theorem Encoding.movi (d : Reg) (imm : BitVec 12) : Encoding.Statement (.movi d imm) := by
  have h0 := d.isLt
  have h1 := imm.isLt
  show fmtI 0xC8000000 d.val 0 imm.toNat < 2 ^ 32
  unfold fmtI
  omega

theorem Encoding.ldc (d : Reg) (a : Reg) (imm : BitVec 12) : Encoding.Statement (.ldc d a imm) := by
  have h0 := d.isLt
  have h1 := a.isLt
  have h2 := imm.isLt
  show fmtI 0xC9000000 d.val a.val imm.toNat < 2 ^ 32
  unfold fmtI
  omega

theorem Encoding.callr (a : Reg) : Encoding.Statement (.callr a) := by
  have h0 := a.isLt
  show fmtI 0xCA000000 0 a.val 0 < 2 ^ 32
  unfold fmtI
  omega

theorem Encoding.callg (slot : BitVec 12) : Encoding.Statement (.callg slot) := by
  have h0 := slot.isLt
  show fmtI 0xCB000000 0 0 slot.toNat < 2 ^ 32
  unfold fmtI
  omega

theorem Encoding.ret : Encoding.Statement (.ret ) := by
  show fmtI 0xCC000000 0 0 0 < 2 ^ 32
  unfold fmtI
  omega

theorem Encoding.enter (n : BitVec 12) : Encoding.Statement (.enter n) := by
  have h0 := n.isLt
  show fmtI 0xCD000000 0 0 n.toNat < 2 ^ 32
  unfold fmtI
  omega

theorem Encoding.exit : Encoding.Statement (.exit ) := by
  show fmtI 0xCE000000 0 0 0 < 2 ^ 32
  unfold fmtI
  omega

theorem Encoding.jmpr (a : Reg) : Encoding.Statement (.jmpr a) := by
  have h0 := a.isLt
  show fmtI 0xCF000000 0 a.val 0 < 2 ^ 32
  unfold fmtI
  omega

theorem Encoding.mpush (k : Low) : Encoding.Statement (.mpush k) := by
  have h0 := k.isLt
  show fmtI 0xD0000000 0 k.val 0 < 2 ^ 32
  unfold fmtI
  omega

theorem Encoding.melse : Encoding.Statement (.melse ) := by
  show fmtI 0xD1000000 0 0 0 < 2 ^ 32
  unfold fmtI
  omega

theorem Encoding.mpop : Encoding.Statement (.mpop ) := by
  show fmtI 0xD2000000 0 0 0 < 2 ^ 32
  unfold fmtI
  omega

theorem Encoding.setm (a : Reg) : Encoding.Statement (.setm a) := by
  have h0 := a.isLt
  show fmtI 0xD3000000 0 a.val 0 < 2 ^ 32
  unfold fmtI
  omega

theorem Encoding.setmf (f : Fin 16) (v : BitVec 8) : Encoding.Statement (.setmf f v) := by
  have h0 := f.isLt
  have h1 := v.isLt
  show fmtI 0xD4000000 0 0 (f.val * 256 + v.toNat) < 2 ^ 32
  unfold fmtI
  omega

theorem Encoding.getm (d : Reg) : Encoding.Statement (.getm d) := by
  have h0 := d.isLt
  show fmtI 0xD5000000 d.val 0 0 < 2 ^ 32
  unfold fmtI
  omega

theorem Encoding.regn : Encoding.Statement (.regn ) := by
  show fmtI 0xD6000000 0 0 0 < 2 ^ 32
  unfold fmtI
  omega

theorem Encoding.nop : Encoding.Statement (.nop ) := by
  show fmtI 0xD7000000 0 0 0 < 2 ^ 32
  unfold fmtI
  omega

theorem Encoding.bkpt (c : BitVec 12) : Encoding.Statement (.bkpt c) := by
  have h0 := c.isLt
  show fmtI 0xD8000000 0 0 c.toNat < 2 ^ 32
  unfold fmtI
  omega

theorem Encoding.trap (c : BitVec 12) : Encoding.Statement (.trap c) := by
  have h0 := c.isLt
  show fmtI 0xD9000000 0 0 c.toNat < 2 ^ 32
  unfold fmtI
  omega

theorem Encoding.esc (x : Fin 64) (y : Fin 64) (z : BitVec 12) : Encoding.Statement (.esc x y z) := by
  have h0 := x.isLt
  have h1 := y.isLt
  have h2 := z.isLt
  show fmtI 0xDE000000 x.val y.val z.toNat < 2 ^ 32
  unfold fmtI
  omega

theorem Encoding.prld (d : Reg) (a : Reg) : Encoding.Statement (.prld d a) := by
  have h0 := d.isLt
  have h1 := a.isLt
  show fmtI 0xDF000040 d.val a.val 0 < 2 ^ 32
  unfold fmtI
  omega

theorem Encoding.prst (d : Reg) (a : Reg) : Encoding.Statement (.prst d a) := by
  have h0 := d.isLt
  have h1 := a.isLt
  show fmtI 0xDF000080 d.val a.val 0 < 2 ^ 32
  unfold fmtI
  omega

theorem Encoding.prreg (d : Reg) (a : Reg) : Encoding.Statement (.prreg d a) := by
  have h0 := d.isLt
  have h1 := a.isLt
  show fmtI 0xDF0000C0 d.val a.val 0 < 2 ^ 32
  unfold fmtI
  omega

theorem Encoding.pwreg (d : Reg) (a : Reg) : Encoding.Statement (.pwreg d a) := by
  have h0 := d.isLt
  have h1 := a.isLt
  show fmtI 0xDF000100 d.val a.val 0 < 2 ^ 32
  unfold fmtI
  omega

theorem Encoding.presume (a : Reg) : Encoding.Statement (.presume a) := by
  have h0 := a.isLt
  show fmtI 0xDF000140 0 a.val 0 < 2 ^ 32
  unfold fmtI
  omega

theorem Encoding.pretry (a : Reg) : Encoding.Statement (.pretry a) := by
  have h0 := a.isLt
  show fmtI 0xDF000180 0 a.val 0 < 2 ^ 32
  unfold fmtI
  omega

theorem Encoding.predir (d : Reg) (a : Reg) : Encoding.Statement (.predir d a) := by
  have h0 := d.isLt
  have h1 := a.isLt
  show fmtI 0xDF0001C0 d.val a.val 0 < 2 ^ 32
  unfold fmtI
  omega

theorem Encoding.pkill (a : Reg) : Encoding.Statement (.pkill a) := by
  have h0 := a.isLt
  show fmtI 0xDF000200 0 a.val 0 < 2 ^ 32
  unfold fmtI
  omega

theorem Encoding.prplay (a : Reg) : Encoding.Statement (.prplay a) := by
  have h0 := a.isLt
  show fmtI 0xDF000240 0 a.val 0 < 2 ^ 32
  unfold fmtI
  omega

theorem Encoding.snap (x : Bool) : Encoding.Statement (.snap x) := by
  have h0 := Bool.code_lt x
  show fmtI 0xDF000280 0 0 x.toNat < 2 ^ 32
  unfold fmtI
  omega

theorem Encoding.reord (d : Reg) (a : Reg) : Encoding.Statement (.reord d a) := by
  have h0 := d.isLt
  have h1 := a.isLt
  show fmtI 0xDF0002C0 d.val a.val 0 < 2 ^ 32
  unfold fmtI
  omega

theorem Encoding.ptld (d : Reg) (a : Reg) (n : Low) : Encoding.Statement (.ptld d a n) := by
  have h0 := d.isLt
  have h1 := a.isLt
  have h2 := n.isLt
  show fmtI 0xDF000300 d.val a.val n.val < 2 ^ 32
  unfold fmtI
  omega

theorem Encoding.rgset (d : Reg) (a : Reg) (e : Fin 64) : Encoding.Statement (.rgset d a e) := by
  have h0 := d.isLt
  have h1 := a.isLt
  have h2 := e.isLt
  show fmtI 0xDF000340 d.val a.val e.val < 2 ^ 32
  unfold fmtI
  omega

theorem Encoding.krepl (d : Reg) (a : Reg) : Encoding.Statement (.krepl d a) := by
  have h0 := d.isLt
  have h1 := a.isLt
  show fmtI 0xDF000380 d.val a.val 0 < 2 ^ 32
  unfold fmtI
  omega

theorem Encoding.csrr (d : Reg) (a : Reg) : Encoding.Statement (.csrr d a) := by
  have h0 := d.isLt
  have h1 := a.isLt
  show fmtI 0xDF0003C0 d.val a.val 0 < 2 ^ 32
  unfold fmtI
  omega

theorem Encoding.csrw (d : Reg) (a : Reg) : Encoding.Statement (.csrw d a) := by
  have h0 := d.isLt
  have h1 := a.isLt
  show fmtI 0xDF000400 d.val a.val 0 < 2 ^ 32
  unfold fmtI
  omega

theorem Encoding.unassignedWord (w : BitVec 32) : Encoding.Statement (.unassignedWord w) := w.isLt

theorem Encoding.contextSaveComplete (die : Nat) : Encoding.Statement (.contextSaveComplete die) := Nat.two_pow_pos 32

theorem Encoding.walkComplete (k : WalkKey) : Encoding.Statement (.walkComplete k) := Nat.two_pow_pos 32

theorem Encoding.recordWritten (p : ParkImage) : Encoding.Statement (.recordWritten p) := Nat.two_pow_pos 32

theorem Encoding.lateFault (op : Nat) (lanes : List Nat) (cls : Nat) (finfo : Dword) : Encoding.Statement (.lateFault op lanes cls finfo) := Nat.two_pow_pos 32

theorem Encoding.migrationTake (die : Nat) : Encoding.Statement (.migrationTake die) := Nat.two_pow_pos 32

theorem Encoding.migrationDrained (die : Nat) (id : Nat) : Encoding.Statement (.migrationDrained die id) := Nat.two_pow_pos 32

theorem Encoding.migrationCopyDone (die : Nat) (id : Nat) (how : CopyEnd) : Encoding.Statement (.migrationCopyDone die id how) := Nat.two_pow_pos 32

theorem Encoding.rds (r : HomeReq) : Encoding.Statement (.rds r) := Nat.two_pow_pos 32

theorem Encoding.rdnc (r : HomeReq) : Encoding.Statement (.rdnc r) := Nat.two_pow_pos 32

theorem Encoding.wr (r : HomeReq) : Encoding.Statement (.wr r) := Nat.two_pow_pos 32

theorem Encoding.wrnc (r : HomeReq) : Encoding.Statement (.wrnc r) := Nat.two_pow_pos 32

theorem Encoding.atom (r : HomeReq) : Encoding.Statement (.atom r) := Nat.two_pow_pos 32

theorem Encoding.ckout (r : HomeReq) : Encoding.Statement (.ckout r) := Nat.two_pow_pos 32

theorem Encoding.ckin (r : HomeReq) : Encoding.Statement (.ckin r) := Nat.two_pow_pos 32

theorem Encoding.drop (r : HomeReq) : Encoding.Statement (.drop r) := Nat.two_pow_pos 32

theorem Encoding.wback (r : HomeReq) : Encoding.Statement (.wback r) := Nat.two_pow_pos 32

theorem Encoding.cxlCacheResponse (line : Nat) (data : Option (List Byte)) (poisoned : Bool) : Encoding.Statement (.cxlCacheResponse line data poisoned) := Nat.two_pow_pos 32

theorem Encoding.iack (core : Nat) (line : Nat) (home : Nat) : Encoding.Statement (.iack core line home) := Nat.two_pow_pos 32

theorem Encoding.rcld (core : Nat) (line : Nat) (data : Option (List Byte)) (poison : List Nat) : Encoding.Statement (.rcld core line data poison) := Nat.two_pow_pos 32

theorem Encoding.birsp (line : Nat) (data : Option (List Byte)) (poisoned : Bool) : Encoding.Statement (.birsp line data poisoned) := Nat.two_pow_pos 32

theorem Encoding.lhpass (line : Nat) : Encoding.Statement (.lhpass line) := Nat.two_pow_pos 32

theorem Encoding.inv (core : Nat) (line : Nat) (home : Nat) : Encoding.Statement (.inv core line home) := Nat.two_pow_pos 32

theorem Encoding.upd (core : Nat) (line : Nat) (home : Nat) (bytes : List (Nat × Byte)) : Encoding.Statement (.upd core line home bytes) := Nat.two_pow_pos 32

theorem Encoding.recall (core : Nat) (line : Nat) : Encoding.Statement (.recall core line) := Nat.two_pow_pos 32

theorem Encoding.dataS (r : Reply) : Encoding.Statement (.dataS r) := Nat.two_pow_pos 32

theorem Encoding.dataX (r : Reply) : Encoding.Statement (.dataX r) := Nat.two_pow_pos 32

theorem Encoding.dataC (r : Reply) : Encoding.Statement (.dataC r) := Nat.two_pow_pos 32

theorem Encoding.ack (r : Reply) : Encoding.Statement (.ack r) := Nat.two_pow_pos 32

theorem Encoding.ackData (r : Reply) : Encoding.Statement (.ackData r) := Nat.two_pow_pos 32

theorem Encoding.cCopyExpiry (core : Nat) (line : Nat) : Encoding.Statement (.cCopyExpiry core line) := Nat.two_pow_pos 32

theorem Encoding.fenceGtPass (wave : Nat) : Encoding.Statement (.fenceGtPass wave) := Nat.two_pow_pos 32

theorem Encoding.onchipWindowAccess (a : WindowAccess) : Encoding.Statement (.onchipWindowAccess a) := Nat.two_pow_pos 32

theorem Encoding.taskPush (p : Push) : Encoding.Statement (.taskPush p) := Nat.two_pow_pos 32

theorem Encoding.successorSignal (g : Signal) : Encoding.Statement (.successorSignal g) := Nat.two_pow_pos 32

theorem Encoding.taskDispatch (die : Nat) : Encoding.Statement (.taskDispatch die) := Nat.two_pow_pos 32

theorem Encoding.objectLoad (die : Nat) (task : Nat) : Encoding.Statement (.objectLoad die task) := Nat.two_pow_pos 32

theorem Encoding.workgroupPlace (die : Nat) : Encoding.Statement (.workgroupPlace die) := Nat.two_pow_pos 32

theorem Encoding.workgroupRetire (wg : Nat) : Encoding.Statement (.workgroupRetire wg) := Nat.two_pow_pos 32

theorem Encoding.budgetExhausted (task : Nat) : Encoding.Statement (.budgetExhausted task) := Nat.two_pow_pos 32

theorem Encoding.taskDeadline (task : Nat) : Encoding.Statement (.taskDeadline task) := Nat.two_pow_pos 32

theorem Encoding.parkedDeadline (die : Nat) (index : Nat) : Encoding.Statement (.parkedDeadline die index) := Nat.two_pow_pos 32

theorem Encoding.indigoEntry (wave : Nat) : Encoding.Statement (.indigoEntry wave) := Nat.two_pow_pos 32

theorem Encoding.indigoExit (wave : Nat) : Encoding.Statement (.indigoExit wave) := Nat.two_pow_pos 32

theorem Encoding.fillComplete (wave : Nat) : Encoding.Statement (.fillComplete wave) := Nat.two_pow_pos 32

theorem Encoding.segmentIssue (core : Nat) : Encoding.Statement (.segmentIssue core) := Nat.two_pow_pos 32

theorem Encoding.segmentRetire (core : Nat) (copy : Nat) (seg : Nat) : Encoding.Statement (.segmentRetire core copy seg) := Nat.two_pow_pos 32

theorem Encoding.segmentPark (core : Nat) (copy : Nat) (seg : Nat) : Encoding.Statement (.segmentPark core copy seg) := Nat.two_pow_pos 32

theorem Encoding.matrixPass (core : Nat) : Encoding.Statement (.matrixPass core) := Nat.two_pow_pos 32

theorem Encoding.sstepSwap (gang : Nat) : Encoding.Statement (.sstepSwap gang) := Nat.two_pow_pos 32

theorem Encoding.lCopyExpiry (core : Nat) (line : Nat) : Encoding.Statement (.lCopyExpiry core line) := Nat.two_pow_pos 32

theorem Encoding.longLatencyResult (op : Nat) : Encoding.Statement (.longLatencyResult op) := Nat.two_pow_pos 32

theorem Encoding.xinvComplete (op : Nat) : Encoding.Statement (.xinvComplete op) := Nat.two_pow_pos 32

theorem Encoding.snpinv (tag : Nat) (pa : Nat) : Encoding.Statement (.snpinv tag pa) := Nat.two_pow_pos 32

theorem Encoding.snpdata (tag : Nat) (pa : Nat) : Encoding.Statement (.snpdata tag pa) := Nat.two_pow_pos 32

theorem Encoding.registerWrite (num : Nat) (inst : Nat) (v : Dword) : Encoding.Statement (.registerWrite num inst v) := Nat.two_pow_pos 32

theorem Encoding.l2modeWrite (v : Dword) (by_ : Option Nat) : Encoding.Statement (.l2modeWrite v by_) := Nat.two_pow_pos 32

theorem Encoding.twlogClear (die : Nat) (v : Dword) : Encoding.Statement (.twlogClear die v) := Nat.two_pow_pos 32

theorem Encoding.prbaseWrite (die : Nat) (v : Dword) : Encoding.Statement (.prbaseWrite die v) := Nat.two_pow_pos 32

theorem Encoding.siglostClear (die : Nat) : Encoding.Statement (.siglostClear die) := Nat.two_pow_pos 32

theorem Encoding.mrbaseWrite (die : Nat) (v : Dword) : Encoding.Statement (.mrbaseWrite die v) := Nat.two_pow_pos 32

theorem Encoding.prectlSave (die : Nat) (ctx : Nat) : Encoding.Statement (.prectlSave die ctx) := Nat.two_pow_pos 32

theorem Encoding.prectlRestore (die : Nat) (ctx : Nat) : Encoding.Statement (.prectlRestore die ctx) := Nat.two_pow_pos 32

theorem Encoding.ctxbaseWrite (die : Nat) (v : Dword) : Encoding.Statement (.ctxbaseWrite die v) := Nat.two_pow_pos 32

theorem Encoding.tqbaseWrite (die : Nat) (v : Dword) : Encoding.Statement (.tqbaseWrite die v) := Nat.two_pow_pos 32

theorem Encoding.kcfgWrite (die : Nat) (v : Dword) : Encoding.Statement (.kcfgWrite die v) := Nat.two_pow_pos 32

theorem Encoding.snapdataRead : Encoding.Statement (.snapdataRead ) := Nat.two_pow_pos 32

theorem Encoding.snaphost : Encoding.Statement (.snaphost ) := Nat.two_pow_pos 32

theorem Encoding.snapGtTrigger : Encoding.Statement (.snapGtTrigger ) := Nat.two_pow_pos 32

theorem Encoding.snapPeerTrigger : Encoding.Statement (.snapPeerTrigger ) := Nat.two_pow_pos 32

theorem Encoding.door (die : Nat) (slot : Nat) : Encoding.Statement (.door die slot) := Nat.two_pow_pos 32

theorem Encoding.enqSlotFieldWrite (die : Nat) (slot : Nat) (off : Nat) (v : Dword) : Encoding.Statement (.enqSlotFieldWrite die slot off v) := Nat.two_pow_pos 32

theorem Encoding.quote : Encoding.Statement (.quote ) := Nat.two_pow_pos 32

theorem Encoding.advsvn : Encoding.Statement (.advsvn ) := Nat.two_pow_pos 32

theorem Encoding.revoke : Encoding.Statement (.revoke ) := Nat.two_pow_pos 32

theorem Encoding.setkey : Encoding.Statement (.setkey ) := Nat.two_pow_pos 32

theorem Encoding.idkey : Encoding.Statement (.idkey ) := Nat.two_pow_pos 32

theorem Encoding.scanTestStart (die : Nat) (v : Dword) : Encoding.Statement (.scanTestStart die v) := Nat.two_pow_pos 32

theorem Encoding.scanPatternStart (die : Nat) : Encoding.Statement (.scanPatternStart die) := Nat.two_pow_pos 32

theorem Encoding.scanTestComplete (die : Nat) (pass : Bool) : Encoding.Statement (.scanTestComplete die pass) := Nat.two_pow_pos 32

theorem Encoding.scrubSector (die : Nat) (found : ScrubFind) : Encoding.Statement (.scrubSector die found) := Nat.two_pow_pos 32

theorem Encoding.hostrd (tag : Nat) (pa : Nat) : Encoding.Statement (.hostrd tag pa) := Nat.two_pow_pos 32

theorem Encoding.hostwr (tag : Nat) (pa : Nat) (bytes : List (Nat × Byte)) : Encoding.Statement (.hostwr tag pa bytes) := Nat.two_pow_pos 32

theorem Encoding.biconflict (line : Nat) : Encoding.Statement (.biconflict line) := Nat.two_pow_pos 32

theorem Encoding.biTimeout (line : Nat) : Encoding.Statement (.biTimeout line) := Nat.two_pow_pos 32

theorem Encoding.snpcur (tag : Nat) (pa : Nat) : Encoding.Statement (.snpcur tag pa) := Nat.two_pow_pos 32

theorem Encoding.hostportTimeout (line : Nat) : Encoding.Statement (.hostportTimeout line) := Nat.two_pow_pos 32

theorem Encoding.tosorFlit (port : Nat) (crcOk : Bool) : Encoding.Statement (.tosorFlit port crcOk) := Nat.two_pow_pos 32

theorem Encoding.tosorTimeout (w : TosorWait) : Encoding.Statement (.tosorTimeout w) := Nat.two_pow_pos 32

theorem Encoding.gtLockAcquired : Encoding.Statement (.gtLockAcquired ) := Nat.two_pow_pos 32

theorem Encoding.gtLockLost : Encoding.Statement (.gtLockLost ) := Nat.two_pow_pos 32

theorem Encoding.scoreboardSquash (core : Nat) (slot : Nat) : Encoding.Statement (.scoreboardSquash core slot) := Nat.two_pow_pos 32

theorem Encoding.reset (trip : Bool) : Encoding.Statement (.reset trip) := Nat.two_pow_pos 32

theorem Encoding.ochreEntry : Encoding.Statement (.ochreEntry ) := Nat.two_pow_pos 32

theorem Encoding.fullEntry : Encoding.Statement (.fullEntry ) := Nat.two_pow_pos 32

theorem Encoding.degradedEntry (failed : BitVec 4) : Encoding.Statement (.degradedEntry failed) := Nat.two_pow_pos 32

theorem Encoding.powerOverLimit (watts : Nat) : Encoding.Statement (.powerOverLimit watts) := Nat.two_pow_pos 32

theorem Encoding.thermalThrottle : Encoding.Statement (.thermalThrottle ) := Nat.two_pow_pos 32

theorem Encoding.thermalTrip : Encoding.Statement (.thermalTrip ) := Nat.two_pow_pos 32

theorem Encoding.d3hotEntry : Encoding.Statement (.d3hotEntry ) := Nat.two_pow_pos 32

theorem Encoding.d3coldEntry : Encoding.Statement (.d3coldEntry ) := Nat.two_pow_pos 32

theorem Encoding.d0Return : Encoding.Statement (.d0Return ) := Nat.two_pow_pos 32

theorem Encoding.powerBelowLimit (watts : Nat) : Encoding.Statement (.powerBelowLimit watts) := Nat.two_pow_pos 32

theorem Encoding.thermalThrottleEnd : Encoding.Statement (.thermalThrottleEnd ) := Nat.two_pow_pos 32

theorem Encoding.l2FlushComplete : Encoding.Statement (.l2FlushComplete ) := Nat.two_pow_pos 32

theorem Encoding.rgsetDrainComplete : Encoding.Statement (.rgsetDrainComplete ) := Nat.two_pow_pos 32

end Sys2Proof.Laws
end

