-- ==== Sys2Proof/Safety.lean ====
section
/-! DEFINITION. What claims are stated in: the canonical form of memory and of the poison table, a step that goes on,
the conditions on which an instruction issues, and what a lane instruction leaves. -/

namespace Sys2Proof.Safety

open Sys2Proof.Machine

/-- Memory is in its canonical form: addresses strictly rising, no byte listed that reads as what an unlisted one
does. -/
def memWf (s : State) : Bool := Sparse.wf (0 : Byte) s.mem

/-- Poison marks are in the same form. -/
def poisonWf (s : State) : Bool := Sparse.wf Mark.none s.poison

/-- A step goes on: the machine neither stops nor refuses. -/
def GoesOn (s : State) : Prop := ∃ t, step s = .next t

/-! ## Issue (09/R211) -/

/-- Instruction i of the wave that moves passes the checks made of every instruction: nothing outstanding where it is
serial, no refusal (UNIMPL, PRIV, ROLE, LOOKAHEAD), no result that it must wait for, no poison consumed, its counter
not full. -/
def passes (s : State) (i : Instr) : Bool :=
  !((i.opnds s.curWave).serial && (s.pendingRegs s.cur != [] || s.pendingFrames s.cur != [])) &&
  (s.refusal i).isNone &&
  !s.resultWait s.cur ((i.opnds s.curWave).names s.curWave) && s.curWave.gate == [] &&
  s.curWave.consumed (i.opnds s.curWave) == [] && !s.curWave.full (i.opnds s.curWave)

/-- It issues from state u: s once the wave's span holds the registers that it writes (07/R153, R158). -/
def Issues (s : State) (i : Instr) (u : State) : Prop :=
  passes s i = true ∧ s.span (i.opnds s.curWave) = .ok u

/-- It issues from state u after what it waits for has come about. -/
def IssuesAfter (s : State) (prep : State → Move) (i : Instr) (u : State) : Prop :=
  passes s i = true ∧ (prep s).bind (fun t => t.span (i.opnds s.curWave)) = .ok u

/-! ## Encodings (09/R193) -/

/-- An instruction's word is that of format A3 with the fields given; every field not its own is 0. -/
def isA3 (i : Instr) (op6 sub2 d pa a pb b : Nat) : Prop :=
  (encode i).toNat = op6 * 2 ^ 24 + d * 2 ^ 18 + pa * 2 ^ 16 + a * 2 ^ 10 + pb * 2 ^ 8 + b * 4 + sub2

/-- Its word is that of format A4. -/
def isA4 (i : Instr) (op4 d a b c pa : Nat) : Prop :=
  (encode i).toNat = 2 ^ 30 + op4 * 2 ^ 26 + d * 2 ^ 20 + a * 2 ^ 14 + b * 2 ^ 8 + c * 4 + pa

/-- Its word is that of format I. -/
def isI (i : Instr) (op5 d a imm : Nat) : Prop :=
  (encode i).toNat = 6 * 2 ^ 29 + op5 * 2 ^ 24 + d * 2 ^ 18 + a * 2 ^ 12 + imm

/-! ## What a lane instruction leaves (10/R222, 07/R153) -/

/-- A logical register that the wave's span holds; a write to any other is discarded. -/
def holds (w : Wave) (j : Nat) : Bool := decide (j < w.stkmax) && decide (w.lo ≤ j) && decide (j < w.hi)

/-- Registers d to d + n − 1 take the value f in the active lanes, low word first; every other register and every
other lane is as before. -/
def Gets (u t : State) (d n : Nat) (f : Nat → Nat) : Prop :=
  ∀ j l, l < u.curWave.width →
    t.curWave.lreg j l =
      if holds u.curWave j = true ∧ u.curWave.wb + d ≤ j ∧ j < u.curWave.wb + d + n ∧ u.curWave.active l = true then
        BitVec.ofNat 32 (f l / 2 ^ (32 * (j - (u.curWave.wb + d))))
      else u.curWave.lreg j l

/-- t is u with instruction i issued, but for vector registers of the wave that moves and their poison marks: memory,
masks, frames, counters and every other register are as issue leaves them. -/
def OnlyRegs (u t : State) (i : Instr) : Prop :=
  t = (u.issuedBy i).setCur
    { (u.issuedBy i).curWave with regs := t.curWave.regs, rpoison := t.curWave.rpoison }

/-- t is u with instruction i issued, but for the mask registers of the wave that moves. -/
def OnlyMasks (u t : State) (i : Instr) : Prop :=
  t = (u.issuedBy i).setCur { (u.issuedBy i).curWave with k := t.curWave.k }

/-- Element k of a value of the type in force. -/
def element (t : Ty) (k x : Nat) : Nat := bits x (t.elem * k) t.elem

/-- An instruction i of a wave completes with registers d on, n of them, holding in every active lane a value whose
elements are g of lane and element. -/
def CompletesElements (s u : State) (i : Instr) (d n : Nat) (g : Nat → Nat → Nat) : Prop :=
  Issues s i u → ∃ t, exec i s = .next t ∧ OnlyRegs u t i ∧
    ∃ f, Gets u t d n f ∧ ∀ l k, u.curWave.active l = true → k < u.curWave.ty.elems →
      element u.curWave.ty k (f l) = g l k % 2 ^ u.curWave.ty.elem

/-- An instruction i of a wave completes with registers d on, n of them, holding f in every active lane. -/
def CompletesValue (s u : State) (i : Instr) (d n : Nat) (f : Nat → Nat) : Prop :=
  Issues s i u → ∃ t, exec i s = .next t ∧ OnlyRegs u t i ∧ Gets u t d n f

/-- An instruction i of a wave completes with mask kd holding f of each of the wave's lanes; k0 is never written. -/
def CompletesMask (s u : State) (i : Instr) (kd : Nat) (f : Nat → Bool) : Prop :=
  Issues s i u → ∃ t, exec i s = .next t ∧ OnlyMasks u t i ∧
    (∀ n, n ≠ kd ∨ n = 0 → t.curWave.kread n = u.curWave.kread n) ∧
    (kd ≠ 0 → ∀ l, bitOf (t.curWave.kread kd) l = if l < u.curWave.width then f l else false)

/-- An instruction i of a wave issues, and then changes only what f says of the wave. -/
def CompletesWave (s u : State) (i : Instr) (f : Wave → Wave) : Prop :=
  Issues s i u → exec i s = .next ((u.issuedBy i).setCur (f (u.issuedBy i).curWave))

/-- An instruction i of a wave whose lanes raise no condition enabled in GMODE.TE completes with registers d on, n of
them, holding in every active lane a value whose elements are those of g (08/R184, 10/R222). -/
def CompletesFloat (s u : State) (i : Instr) (d n : Nat) (g : Nat → Nat → Res) : Prop :=
  Issues s i u →
    (∀ l k, u.curWave.active l = true → k < u.curWave.ty.elems → (g l k).2 &&& u.curWave.te = 0) →
    ∃ t, exec i s = .next t ∧ OnlyRegs u t i ∧
      ∃ f, Gets u t d n f ∧ ∀ l k, u.curWave.active l = true → k < u.curWave.ty.elems →
        element u.curWave.ty k (f l) = (g l k).1 % 2 ^ u.curWave.ty.elem

/-- Element k of lane l of a source operand, read through its selector (08/R173, 07/R167). -/
def src (u : State) (p : Sel) (a : Reg) (l k : Nat) : Nat := element u.curWave.ty k (u.curWave.valP p a l)

/-- The signed or unsigned reading of an element under the type in force. -/
def srcInt (u : State) (p : Sel) (a : Reg) (l k : Nat) : Int := elemInt u.curWave.ty (src u p a l k)

/-- The wave parks at instruction i, which has issued: its registers are as they were, and a record of class cls with
fault address and information word goes to be written (02/R42, 13/R328). -/
def ParksIssued (u t : State) (i : Instr) (cls : Nat) (faddr finfo : Dword) : Prop :=
  t.curWave = { (u.issuedBy i).curWave with status := .parked, windows := [], stage := 0 } ∧ t.mem = (u.issuedBy i).mem ∧
  ∃ r, t.agenda = (u.issuedBy i).agenda ++ [.recordWritten r] ∧ r.kind = 1 ∧ r.unit = u.cur ∧ r.cls = cls ∧
    Sparse.get 0 r.words 2 = u.curWave.pc ∧ Sparse.get 0 r.words 7 = faddr ∧ Sparse.get 0 r.words 8 = finfo

/-- An instruction i of a wave whose active lanes raise a condition enabled in GMODE.TE, r giving each lane's, parks with
ARITH at itself: the fault address has the lanes that raised an enabled condition, the information word all conditions
raised, those that were enabled too, and whether a division of integers raised them (08/R184). -/
def ParksArith (s u : State) (i : Instr) (int : Bool) (r : Nat → Res) : Prop :=
  let w := u.curWave
  let on := w.lanes.foldl (fun acc l => acc ||| (r l).2) 0
  Issues s i u → on &&& w.te ≠ 0 →
    ∃ t, exec i s = .next t ∧
      ParksIssued u t i 9 (dw (maskOf w.width (fun l => w.active l && (r l).2 &&& w.te != 0)))
        (dw ((if int then 2 ^ 10 else 0) + (on &&& w.te) * 2 ^ 5 + on))

/-- The wave parks before instruction i issues: nothing of it but its place has changed, and a record of class cls with
fault address and information word goes to be written (13/R328). -/
def ParksBefore (s t : State) (cls : Nat) (faddr finfo : Dword) : Prop :=
  t.curWave = { s.curWave with status := .parked, windows := [], stage := 0 } ∧ t.mem = s.mem ∧
  ∃ r, t.agenda = s.agenda ++ [.recordWritten r] ∧ r.kind = 1 ∧ r.unit = s.cur ∧ r.cls = cls ∧
    Sparse.get 0 r.words 2 = s.curWave.pc ∧ Sparse.get 0 r.words 7 = faddr ∧ Sparse.get 0 r.words 8 = finfo

/-- The operation that an access of the wave that moves begins: one lane for each active lane, at the frame's base plus
the lane's offset, with its data and compare bytes (12/R285 to R287). -/
def AccessOf (u : State) (f : Nat) (a : Reg) (size : Nat) (dst : List Nat) (data cmp : Nat → List Byte) (o : MemOp) : Prop :=
  o.wave = u.cur ∧ o.frame = some (u.curWave.frame f) ∧ o.size = size ∧ o.dst = dst.map (u.curWave.wb + ·) ∧
  o.pc = u.curWave.pc ∧ o.gmode = u.curWave.gmode ∧ o.count = some .m ∧
  o.lanes = u.curWave.lanes.map (fun l =>
    { lane := l, va := sext57 (u.curWave.frame f).vbase + (u.curWave.v a l).signExtend 64, phase := .xlate,
      data := data l, cmp := cmp l, key := none })

/-- The bytes of n registers from d in a lane, low byte of the first first. -/
def laneData (u : State) (d n l : Nat) : List Byte :=
  (List.range (4 * n)).map (fun b => BitVec.ofNat 8 ((u.curWave.v (d + b / 4) l).toNat / 256 ^ (b % 4)))

end Sys2Proof.Safety
end

