-- ==== Sys2Proof/Certificates/Slice0/Obligations.lean ====
section
/-! DEFINITION. What the model is held to: the statements for the provers. -/

open Sys2Proof

open Sys2Proof.Machine

open Sys2Proof.Safety

/-! ## Encoding -/

/-- Every well-formed instruction is read back from its word, with every field as it was. -/
def Obligations.DecodeReadsEncode : Prop :=
  ∀ i : Instr, i.wf = true → i.isEvent = false → (∀ w, i ≠ .unassignedWord w) → decode (encode i) = .ok i

/-- A word that decodes is the word of what it decodes to, and that is a well-formed instruction: each word has one
meaning and no bit of it is ignored. -/
def Obligations.EncodeReadsDecode : Prop :=
  ∀ (w : Word) (i : Instr), decode w = .ok i → encode i = w ∧ i.wf = true ∧ i.isEvent = false

/-! ## Lane arithmetic -/

/-- 10/R225, R251: the integer instructions by element, of three and of four operands, with their frame. -/
def Obligations.IntegerArithmetic : Prop :=
  (∀ (s u : State) (d a b : Reg) (p q : Sel),
     let e := u.curWave.ty.elem
     let n := u.curWave.vcount
     let lo := tyLo u.curWave.ty
     let hi := tyHi u.curWave.ty
     CompletesElements s u (.add d p a q b) d n (fun l k => src u p a l k + src u q b l k) ∧
     CompletesElements s u (.sub d p a q b) d n (fun l k => src u p a l k + 2 ^ e - src u q b l k) ∧
     CompletesElements s u (.mul d p a q b) d n (fun l k => src u p a l k * src u q b l k) ∧
     CompletesElements s u (.mulh d p a q b) d n (fun l k => ofInt e (srcInt u p a l k * srcInt u q b l k / 2 ^ e)) ∧
     CompletesElements s u (.absd d p a q b) d n (fun l k => (srcInt u p a l k - srcInt u q b l k).natAbs) ∧
     CompletesElements s u (.avg d p a q b) d n (fun l k => ofInt e ((srcInt u p a l k + srcInt u q b l k + 1) / 2)) ∧
     CompletesElements s u (.min d p a q b) d n (fun l k => ofInt e (min (srcInt u p a l k) (srcInt u q b l k))) ∧
     CompletesElements s u (.max d p a q b) d n (fun l k => ofInt e (max (srcInt u p a l k) (srcInt u q b l k))) ∧
     CompletesElements s u (.satadd d p a q b) d n
       (fun l k => ofInt e (max lo (min hi (srcInt u p a l k + srcInt u q b l k)))) ∧
     CompletesElements s u (.satsub d p a q b) d n
       (fun l k => ofInt e (max lo (min hi (srcInt u p a l k - srcInt u q b l k))))) ∧
  (∀ (s u : State) (d a b c : Reg) (p : Sel),
     let w := u.curWave
     let e := w.ty.elem
     let B := fun l k => element w.ty k (w.val b l)
     let C := fun l k => element w.ty k (w.val c l)
     CompletesElements s u (.mad d a b c p) d w.vcount (fun l k => src u p a l k * B l k + C l k) ∧
     CompletesElements s u (.madh d a b c p) d w.vcount
       (fun l k => ofInt e ((srcInt u p a l k * elemInt w.ty (B l k) + elemInt w.ty (C l k)) / 2 ^ e)) ∧
     CompletesValue s u (.dot4 d a b c p) d 1 (fun l => ofInt 32 (((w.v c l).toNat : Int) +
       (elemInt w.ty (bits (w.valP p a l) 0 8) * elemInt w.ty (bits (w.val b l) 0 8) +
        elemInt w.ty (bits (w.valP p a l) 8 8) * elemInt w.ty (bits (w.val b l) 8 8) +
        elemInt w.ty (bits (w.valP p a l) 16 8) * elemInt w.ty (bits (w.val b l) 16 8) +
        elemInt w.ty (bits (w.valP p a l) 24 8) * elemInt w.ty (bits (w.val b l) 24 8)))) ∧
     (w.ty.isFloat = false → CompletesElements s u (.clamp d a b c p) d w.vcount
       (fun l k => ofInt e (min (max (srcInt u p a l k) (elemInt w.ty (B l k))) (elemInt w.ty (C l k))))))

/-- 10/R225: the sum or difference with the carry of k7, and the carry out, in the active lanes. -/
def Obligations.CarryArithmetic : Prop :=
  ∀ (s u : State) (d a b : Reg) (p q : Sel) (i : Instr) (f : Nat → Nat → Nat → Nat × Bool),
    (i = .addc d p a q b ∧ f = (fun x y c => ((x + y + c) % 2 ^ u.curWave.ty.elem, decide (2 ^ u.curWave.ty.elem ≤ x + y + c)))) ∨
    (i = .subb d p a q b ∧ f = (fun (x y c : Nat) => (ofInt u.curWave.ty.elem ((x : Int) - (y : Int) - (c : Int)), decide ((x : Int) - (y : Int) - (c : Int) < 0)))) →
    Issues s i u →
    let r := fun l => f (u.curWave.valP p a l) (u.curWave.valP q b l) (if bitOf (u.curWave.kread 7) l then 1 else 0)
    ∃ t, exec i s = .next t ∧
      t = (u.issuedBy i).setCur { (u.issuedBy i).curWave with
        regs := t.curWave.regs, rpoison := t.curWave.rpoison, k := t.curWave.k } ∧
      Gets u t d u.curWave.vcount (fun l => (r l).1) ∧
      (∀ n, n ≠ 7 → t.curWave.kread n = u.curWave.kread n) ∧
      ∀ l, l < u.curWave.width →
        bitOf (t.curWave.kread 7) l = if u.curWave.active l then (r l).2 else bitOf (u.curWave.kread 7) l

/-- 10/R226, R232, R246: logic, selects and moves on the whole value of the width class. -/
def Obligations.Logic : Prop :=
  (∀ (s u : State) (d a b : Reg) (p q : Sel),
     let A := u.curWave.valP p a
     let B := u.curWave.valP q b
     let n := u.curWave.vcount
     CompletesValue s u (.and d p a q b) d n (fun l => A l &&& B l) ∧
     CompletesValue s u (.or d p a q b) d n (fun l => A l ||| B l) ∧
     CompletesValue s u (.xor d p a q b) d n (fun l => A l ^^^ B l) ∧
     CompletesValue s u (.andn d p a q b) d n (fun l => A l &&& (2 ^ 64 - 1 - B l)) ∧
     CompletesValue s u (.orn d p a q b) d n (fun l => A l ||| (2 ^ 64 - 1 - B l))) ∧
  (∀ (d a b : Reg) (p q : Sel) (m : Fin 4),
     isA3 (.and d p a q b) 4 0 d p a q b ∧ isA3 (.or d p a q b) 4 1 d p a q b ∧ isA3 (.xor d p a q b) 4 2 d p a q b ∧
     isA3 (.andn d p a q b) 4 3 d p a q b ∧ isA3 (.orn d p a q b) 5 0 d p a q b ∧
     isA3 (.selK03 d p a q b m) 0x0B m d p a q b ∧ isA3 (.selK47 d p a q b m) 0x0C m d p a q b) ∧
  (∀ (s u : State) (d a b : Reg) (p q : Sel) (m : Fin 4),
     let w := u.curWave
     CompletesValue s u (.selK03 d p a q b m) d w.vcount
       (fun l => if m.val = 0 ∨ bitOf (w.kread m) l = true then w.valP p a l else w.valP q b l) ∧
     CompletesValue s u (.selK47 d p a q b m) d w.vcount
       (fun l => if bitOf (w.kread (4 + m)) l then w.valP p a l else w.valP q b l) ∧
     CompletesValue s u (.mov d p a) d w.vcount (w.valP p a))

/-- 10/R227: shifts and rotates; a count of the width or more gives zeros, or the sign. Counts and the reversal of bits. -/
def Obligations.Shifts : Prop :=
  (∀ (d a b : Reg) (p q : Sel),
     isA3 (.shl d p a q b) 6 0 d p a q b ∧ isA3 (.shr d p a q b) 6 1 d p a q b ∧ isA3 (.sar d p a q b) 6 2 d p a q b ∧
     isA3 (.rol d p a q b) 5 1 d p a q b ∧ isA3 (.fshr d p a q b) 5 2 d p a q b ∧
     isA3 (.popc d p a) 7 0 d p a 0 0 ∧ isA3 (.clz d p a) 7 1 d p a 0 0 ∧ isA3 (.ctz d p a) 7 2 d p a 0 0 ∧
     isA3 (.brev d p a) 7 3 d p a 0 0) ∧
  (∀ (s u : State) (d a b : Reg) (p q : Sel),
     let e := u.curWave.ty.elem
     let n := u.curWave.vcount
     CompletesElements s u (.shl d p a q b) d n
       (fun l k => if src u q b l k ≥ e then 0 else src u p a l k * 2 ^ src u q b l k) ∧
     CompletesElements s u (.shr d p a q b) d n
       (fun l k => if src u q b l k ≥ e then 0 else src u p a l k / 2 ^ src u q b l k) ∧
     CompletesElements s u (.sar d p a q b) d n
       (fun l k => ofInt e (if src u q b l k ≥ e then (if toSigned e (src u p a l k) < 0 then -1 else 0)
         else toSigned e (src u p a l k) / 2 ^ src u q b l k)) ∧
     CompletesElements s u (.rol d p a q b) d n
       (fun l k => src u p a l k * 2 ^ (src u q b l k % e) + src u p a l k / 2 ^ (e - src u q b l k % e)) ∧
     CompletesValue s u (.fshr d p a q b) d n
       (fun l => (u.curWave.valP p a l * 2 ^ e + u.curWave.val d l) / 2 ^ (u.curWave.valP q b l % e) % 2 ^ e)) ∧
  (∀ (s u : State) (d a : Reg) (p : Sel),
     let e := u.curWave.ty.elem
     let n := u.curWave.vcount
     CompletesElements s u (.popc d p a) d n (fun l k => ((List.range e).filter (fun j => (src u p a l k).testBit j)).length) ∧
     CompletesElements s u (.clz d p a) d n
       (fun l k => ((List.range e).find? (fun j => (src u p a l k).testBit (e - 1 - j))).getD e) ∧
     CompletesElements s u (.ctz d p a) d n (fun l k => ((List.range e).find? (fun j => (src u p a l k).testBit j)).getD e) ∧
     CompletesElements s u (.brev d p a) d n (fun l k => maskOf e (fun j => (src u p a l k).testBit (e - 1 - j))))

/-- 10/R228: bit fields; a position at or beyond the width takes nothing. -/
def Obligations.BitFields : Prop :=
  ∀ (s u : State) (d a b c : Reg) (p q : Sel),
    isA3 (.bfx d p a q b) 8 0 d p a q b ∧ isA3 (.bmsk d p a q b) 8 1 d p a q b ∧ isA4 (.bfi d a b c p) 5 d a b c p ∧
    let e := u.curWave.ty.elem
    let n := u.curWave.vcount
    CompletesValue s u (.bfx d p a q b) d n (fun l =>
      let pos := u.curWave.valP q b l % 256
      let len := u.curWave.valP q b l / 256 % 256
      let f := (if pos < e then u.curWave.valP p a l % 2 ^ e / 2 ^ pos else 0) % 2 ^ (min len e)
      if u.curWave.ty.signed = true ∧ 1 ≤ len ∧ len ≤ e then ofInt e (toSigned len f) else f) ∧
    CompletesValue s u (.bmsk d p a q b) d n (fun l =>
      let pos := u.curWave.valP p a l % 256
      let len := u.curWave.valP q b l % 256
      if pos ≥ e then 0 else (2 ^ len - 1) * 2 ^ pos % 2 ^ e) ∧
    CompletesElements s u (.bfi d a b c p) d n (fun l k =>
      let z := element u.curWave.ty k (u.curWave.val c l)
      let pos := z % 256
      let m := if pos ≥ e then 0 else (2 ^ (z / 256 % 256) - 1) * 2 ^ pos % 2 ^ e
      if pos ≥ e then src u p a l k
      else (src u p a l k &&& (2 ^ e - 1 - m)) ||| (element u.curWave.ty k (u.curWave.val b l) * 2 ^ pos &&& m))

/-- 10/R230, R231, R201: the bits of the active lanes, and those alone; what each condition asks of two values. FCMP
writes where no enabled condition is raised; with a NaN operand EQ, LT, LE, GT, GE and OR are false, NE and UN are
true. -/
def Obligations.Compares : Prop :=
  (∀ (s u : State) (a b : Reg) (p q : Sel) (kd : Low) (c : ICond) (imm : BitVec 12),
     let w := u.curWave
     let holds := fun x y => iCompare c w.ty.elem w.ty.signed x y
     CompletesMask s u (.cmp c kd p a q b) kd
       (fun l => if w.active l then holds (w.valP p a l) (w.valP q b l) else bitOf (w.kread kd) l) ∧
     CompletesMask s u (.cmpi c kd a imm) kd
       (fun l => if w.active l then holds (w.val a l) (ofInt (32 * w.vcount) imm.toInt) else bitOf (w.kread kd) l) ∧
     CompletesWave s u (.scmp c p a q b)
       (fun v => { v with cct := w.active w.uniform && holds (w.valP p a w.uniform) (w.valP q b w.uniform) })) ∧
  (∀ (n : Nat) (signed : Bool) (a b : Nat),
     let x : Int := if signed then toSigned n a else a
     let y : Int := if signed then toSigned n b else b
     iCompare .ne n signed a b = !iCompare .eq n signed a b ∧ (iCompare .lt n signed a b = true ↔ x < y) ∧
     iCompare .ge n signed a b = !iCompare .lt n signed a b ∧ iCompare .gt n signed a b = iCompare .lt n signed b a ∧
     iCompare .le n signed a b = !iCompare .gt n signed a b ∧ iCompare .bc n signed a b = !iCompare .bs n signed a b ∧
     (iCompare .bs n signed a b = true ↔ ∃ j, a.testBit j = true ∧ b.testBit j = true) ∧
     (a < 2 ^ n → b < 2 ^ n → 0 < n → (iCompare .eq n signed a b = true ↔ x = y))) ∧
  (∀ (s u : State) (a b : Reg) (p q : Sel) (kd : Low) (c : FCond),
     let w := u.curWave
     let r := fun l => fCompare (fmtOf w.ty) w.env c (w.valP p a l) (w.valP q b l)
     (∀ l, w.active l = true → (r l).2 &&& w.te = 0) →
     CompletesMask s u (.fcmp c kd p a q b) kd (fun l => if w.active l then (r l).1 else bitOf (w.kread kd) l)) ∧
  (∀ (f : Fmt) (v : Env) (x y : Nat), (f.arith v x).isNan = true ∨ (f.arith v y).isNan = true →
     (fCompare f v .eq x y).1 = false ∧ (fCompare f v .lt x y).1 = false ∧ (fCompare f v .le x y).1 = false ∧
     (fCompare f v .gt x y).1 = false ∧ (fCompare f v .ge x y).1 = false ∧ (fCompare f v .or x y).1 = false ∧
     (fCompare f v .ne x y).1 = true ∧ (fCompare f v .un x y).1 = true)

/-- 10/R247, R248: the immediates, on the whole value of the width class. -/
def Obligations.Immediates : Prop :=
  ∀ (s u : State) (d a : Reg) (imm : BitVec 12) (c : Fin 64) (big : BitVec 20),
    isI (.addi d a imm) 0 d a imm.toNat ∧ isI (.andi d a imm) 1 d a imm.toNat ∧ isI (.ori d a imm) 2 d a imm.toNat ∧
    isI (.xori d a imm) 3 d a imm.toNat ∧ isI (.shli d a c) 4 d a c ∧ isI (.shri d a c) 5 d a c ∧
    isI (.sari d a c) 6 d a c ∧
    let A := u.curWave.val a
    let n := u.curWave.vcount
    let w := 32 * n
    CompletesValue s u (.addi d a imm) d n (fun l => ofInt w (A l + imm.toInt)) ∧
    CompletesValue s u (.andi d a imm) d n (fun l => A l &&& imm.toNat) ∧
    CompletesValue s u (.ori d a imm) d n (fun l => A l ||| imm.toNat) ∧
    CompletesValue s u (.xori d a imm) d n (fun l => A l ^^^ imm.toNat) ∧
    CompletesValue s u (.shli d a c) d n (fun l => if w ≤ c.val then 0 else A l * 2 ^ c.val % 2 ^ w) ∧
    CompletesValue s u (.shri d a c) d n (fun l => if w ≤ c.val then 0 else A l / 2 ^ c.val) ∧
    CompletesValue s u (.sari d a c) d n
      (fun l => ofInt w (if w ≤ c.val then (if toSigned w (A l) < 0 then -1 else 0) else toSigned w (A l) / 2 ^ c.val)) ∧
    CompletesValue s u (.movi d imm) d 1 (fun _ => ofInt 32 imm.toInt) ∧
    CompletesValue s u (.movh d big) d 1 (fun _ => big.toNat * 4096)

/-! ## Floating point -/

/-- 10/R233 to R235, R250, R251, R238: float instructions by element where no enabled condition is raised, with their
frame; the operations on the bits of a float raise nothing and read no mode. -/
def Obligations.FloatArithmetic : Prop :=
  (∀ (s u : State) (d a b c : Reg) (p q : Sel) (r : FRndMode),
     let w := u.curWave
     let f := fmtOf w.ty
     let v := w.env
     let n := w.vcount
     let A := src u p a
     let B := src u q b
     let B4 := fun l k => element w.ty k (w.val b l)
     let C := fun l k => element w.ty k (w.val c l)
     CompletesFloat s u (.fadd d p a q b) d n (fun l k => fAdd f v (A l k) (B l k)) ∧
     CompletesFloat s u (.fsub d p a q b) d n (fun l k => fSub f v (A l k) (B l k)) ∧
     CompletesFloat s u (.fmul d p a q b) d n (fun l k => fMul f v (A l k) (B l k)) ∧
     CompletesFloat s u (.fmin d p a q b) d n (fun l k => fMinMax f v false (A l k) (B l k)) ∧
     CompletesFloat s u (.fmax d p a q b) d n (fun l k => fMinMax f v true (A l k) (B l k)) ∧
     CompletesFloat s u (.fscale d p a q b) d n (fun l k => fScale f v (A l k) (toSigned (min w.ty.elem 32) (B l k))) ∧
     CompletesFloat s u (.ffract d p a) d n (fun l k => fFract f v (A l k)) ∧
     CompletesFloat s u (.frnd d p a r) d n (fun l k => fRnd f v (match r with
       | .gmode => v.rm
       | .rz => 1
       | .up => 2
       | .down => 3) (A l k)) ∧
     CompletesFloat s u (.fma d a b c p) d n (fun l k => fMadd f v false false (A l k) (B4 l k) (C l k)) ∧
     CompletesFloat s u (.fms d a b c p) d n (fun l k => fMadd f v false true (A l k) (B4 l k) (C l k)) ∧
     CompletesFloat s u (.fnma d a b c p) d n (fun l k => fMadd f v true false (A l k) (B4 l k) (C l k)) ∧
     CompletesFloat s u (.lerp d a b c p) d n (fun l k => fLerp f v (A l k) (B4 l k) (C l k)) ∧
     CompletesFloat s u (.clamp d a b c p) d n (fun l k => clampElem w.ty v (A l k) (B4 l k) (C l k)) ∧
     CompletesFloat s u (.sat d p a) d n (fun l k => satElem w.ty v (A l k))) ∧
  (∀ (s u : State) (d a : Reg) (p : Sel),
     let e := u.curWave.ty.elem
     let n := u.curWave.vcount
     CompletesElements s u (.fneg d p a) d n (fun l k => (src u p a l k + 2 ^ (e - 1)) % 2 ^ e) ∧
     CompletesElements s u (.fabs d p a) d n (fun l k => src u p a l k % 2 ^ (e - 1)) ∧
     CompletesElements s u (.fclass d p a) d 1 (fun l k => fClass (fmtOf u.curWave.ty) (src u p a l k)))

/-- 10/R236, R237, R250: conversion, packing and FDOT2 where no enabled condition is raised. -/
def Obligations.Conversions : Prop :=
  ∀ (s u : State) (d a b c : Reg) (p q : Sel) (ty : Ty) (rz : Bool) (i : Instr) (n : Nat) (g : Nat → Res),
    let w := u.curWave
    (i = .cvt d p a ty rz ∧ n = (if ty.wide then 2 else 1) ∧
        g = (fun l => cvtVal w.ty ty (if rz then w.env.withRm 1 else w.env) (w.valP p a l))) ∨
      (i = .pack d p a q b ∧ n = 1 ∧ g = (fun l => packVal w.ty w.env (w.valP p a l) (w.valP q b l))) ∨
      (i = .unpk d p a q b ∧ n = 1 ∧ g = (fun l => unpkVal w.ty w.env (w.valP p a l) (w.valP q b l))) ∨
      (i = .fdot2 d a b c p ∧ n = 1 ∧ g = (fun l => fDot2 (fmtOf w.ty) w.env (bits (w.valP p a l) 0 16)
        (bits (w.valP p a l) 16 16) (bits (w.val b l) 0 16) (bits (w.val b l) 16 16) (w.v c l).toNat)) →
    Issues s i u → (∀ l, w.active l = true → (g l).2 &&& w.te = 0) →
    ∃ t, exec i s = .next t ∧ OnlyRegs u t i ∧ Gets u t d n (fun l => (g l).1)

/-- 08/R177, R180: what rnd makes of a non-zero exact value m × 2^e of a sign: the code of the format that the rounding
mode asks for, among all finite ones; infinity or the largest finite code where the rounded value lies beyond it; a zero
where the result is tiny and results are flushed. 08/R178: sums, differences, products and fused products round the exact
value once. 08/R180 to R182: subnormal operands read as zeros, the NaN that an operation gives, infinities, and FMIN and
FMAX. -/
def Obligations.FloatRounding : Prop :=
  (∀ (f : Fmt) (v : Env) (neg : Bool) (m : Nat) (e b : Int), f ∈ [f16, bf16, f32, f64] → m ≠ 0 → v.rm ≤ 4 → b + 2 ≤ e →
     b + 2 ≤ f.emin - f.m →
     let r := rnd f v neg m e
     let sign := f.signBit neg
     -- magnitudes as multiples of 2^b
     let x := m * 2 ^ (e - b).toNat
     let at_ := fun c => match f.value c with
       | .fin _ k y => k * 2 ^ (y - b).toNat
       | _ => 0
     let inf := (2 ^ f.e - 1) * 2 ^ f.m
     let top := at_ (inf - 1)
     let gap := top - at_ (inf - 2)
     let least := at_ (2 ^ f.m)
     let up : Prop := v.rm = 2 ∧ neg = false ∨ v.rm = 3 ∧ neg = true
     let down : Prop := v.rm = 1 ∨ v.rm = 2 ∧ neg = true ∨ v.rm = 3 ∧ neg = false
     let beyond : Prop := if up then top < x else if down then top + gap ≤ x else 2 * top + gap ≤ 2 * x
     let tiny : Prop := if up then x + at_ 1 / 2 ≤ least else if down then x < least else x + at_ 1 / 4 < least
     let far := fun y z : Nat => (y - z) + (z - y)
     (beyond → r = (sign + (if down then inf - 1 else inf), cOverflow + cInexact)) ∧
     (tiny → v.flushOut = true → r = (sign, cUnderflow + cInexact)) ∧
     (¬ beyond → ¬ (tiny ∧ v.flushOut = true) → ∃ c, c < inf ∧ r.1 = sign + c ∧
       (at_ c = x → r.2 = 0) ∧ (at_ c ≠ x → tiny → r.2 = cUnderflow + cInexact) ∧ (at_ c ≠ x → ¬ tiny → r.2 = cInexact) ∧
       (up → x ≤ at_ c ∧ ∀ d, d < inf → x ≤ at_ d → at_ c ≤ at_ d) ∧
       (down → at_ c ≤ x ∧ ∀ d, d < inf → at_ d ≤ x → at_ d ≤ at_ c) ∧
       (¬ up → ¬ down → ∀ d, d < inf → d ≠ c → far x (at_ c) < far x (at_ d) ∨
         (far x (at_ c) = far x (at_ d) ∧ if v.rm = 0 then c % 2 = 0 else at_ d ≤ at_ c)))) ∧
  (∀ (v : Env) (neg : Bool) (m : Nat) (e : Int), m ≠ 0 → v.rm ≤ 4 → 0 ≤ e → 480 ≤ m * 2 ^ e.toNat →
     rnd e4m3 v neg m e = ((if neg then 0xFE else 0x7E), cOverflow + cInexact)) ∧
  (∀ (f : Fmt) (v : Env) (a b c : Nat) (n n' n'' : Bool) (m m' m'' : Nat) (e e' e'' : Int),
     f.arith v a = .fin n m e → f.arith v b = .fin n' m' e' → f.arith v c = .fin n'' m'' e'' → v.lgy / 2 % 2 = 0 →
     -- a sum of two signed values, at a scale below both
     let sum := fun (s s' t : Bool) (k k' i : Nat) (y y' j : Int) => j ≤ y ∧ j ≤ y' ∧
       (if t then -((i : Nat) : Int) else i) = (if s then -1 else 1) * ((k * 2 ^ (y - j).toNat : Nat) : Int) +
         (if s' then -1 else 1) * ((k' * 2 ^ (y' - j).toNat : Nat) : Int)
     let nought := if v.rm = 3 then f.signBit true else f.signBit false
     (m ≠ 0 → m' ≠ 0 →
       (∃ s k y, sum n n' s m m' k e e' y ∧ fAdd f v a b = if k = 0 then (nought, 0) else rnd f v s k y) ∧
       (∃ s k y, sum n (!n') s m m' k e e' y ∧ fSub f v a b = if k = 0 then (nought, 0) else rnd f v s k y) ∧
       fMul f v a b = rnd f v (n != n') (m * m') (e + e') ∧
       (m'' ≠ 0 → ∃ s k y, sum (n != n') n'' s (m * m') m'' k (e + e') e'' y ∧
         fMadd f v false false a b c = if k = 0 then (nought, 0) else rnd f v s k y)) ∧
     (m = 0 → m' = 0 → n = n' → fAdd f v a b = (f.signBit n, 0)) ∧
     (m = 0 → m' = 0 → n ≠ n' → fAdd f v a b = (nought, 0)) ∧
     (m = 0 ∨ m' = 0 → fMul f v a b = (f.signBit (n != n'), 0))) ∧
  (∀ (f : Fmt) (v : Env) (a b : Nat), f ∈ [f16, bf16, f32, f64] → a < 2 ^ (1 + f.e + f.m) → b < 2 ^ (1 + f.e + f.m) →
     let x := f.arith v a
     let y := f.arith v b
     let quiet := fun z => z ||| 2 ^ (f.m - 1)
     let raised := if x.isSnan = true ∨ y.isSnan = true then cInvalid else 0
     (v.flushIn = true → f.isSub a = true → x = .fin (a.testBit (f.e + f.m)) 0 0) ∧
     (x.isNan = true ∨ y.isNan = true →
       let z := if v.nanp = 0 then f.nan else if x.isNan = true then quiet a else quiet b
       fAdd f v a b = (z, raised) ∧ fSub f v a b = (z, raised) ∧ fMul f v a b = (z, raised) ∧ fDiv f v a b = (z, raised)) ∧
     (x = .inf true ∧ y = .inf false → fAdd f v a b = (f.nan, cInvalid)) ∧
     (x = .inf true ∧ y = .inf true → fSub f v a b = (f.nan, cInvalid) ∧ fDiv f v a b = (f.nan, cInvalid)) ∧
     (∀ n, x = .inf n → y.isZero = true → fMul f v a b = (f.nan, cInvalid)) ∧
     (x.isZero = true → y.isZero = true → fDiv f v a b = (f.nan, cInvalid)) ∧
     (v.lgy % 2 = 0 → x.isNan = true → y.isNan = false → ∀ mx, (fMinMax f v mx a b).1 = f.flushed v b) ∧
     (v.lgy % 2 = 0 → x.isNan = false → y.isNan = true → ∀ mx, (fMinMax f v mx a b).1 = f.flushed v a) ∧
     (v.lgy % 2 = 1 → x.isNan = true ∨ y.isNan = true → ∀ mx, fMinMax f v mx a b = (f.flushed v b, raised)))

/-- 08/R184: lanes that raise an enabled condition park their wave with ARITH in place of the write, and no lane is
written: of the float instructions by element, conversion, packing, FDOT2 and FCMP, the reductions and scans of floats,
and the long-latency instructions, which take the trap when they issue (the model's reading, log 70). -/
def Obligations.ArithTrap : Prop :=
  (∀ (s u : State) (d a b c : Reg) (p q : Sel) (m : FRndMode),
     let w := u.curWave
     let f := fmtOf w.ty
     let v := w.env
     let on := fun (g : Nat → Nat → Nat → Res) (x y z : Nat → Nat) (l : Nat) => byElems w.ty g (x l) (y l) (z l)
     let A := w.valP p a
     let B := w.valP q b
     let B4 := w.val b
     let C := w.val c
     let nought := fun (_ : Nat) => 0
     ParksArith s u (.fadd d p a q b) false (on (fun x y _ => fAdd f v x y) A B nought) ∧
     ParksArith s u (.fsub d p a q b) false (on (fun x y _ => fSub f v x y) A B nought) ∧
     ParksArith s u (.fmul d p a q b) false (on (fun x y _ => fMul f v x y) A B nought) ∧
     ParksArith s u (.fmin d p a q b) false (on (fun x y _ => fMinMax f v false x y) A B nought) ∧
     ParksArith s u (.fmax d p a q b) false (on (fun x y _ => fMinMax f v true x y) A B nought) ∧
     ParksArith s u (.fscale d p a q b) false (on (fun x y _ => fScale f v x (toSigned (min w.ty.elem 32) y)) A B nought) ∧
     ParksArith s u (.ffract d p a) false (on (fun x _ _ => fFract f v x) A nought nought) ∧
     ParksArith s u (.frnd d p a m) false (on (fun x _ _ => fRnd f v (match m with
       | .gmode => v.rm
       | .rz => 1
       | .up => 2
       | .down => 3) x) A nought nought) ∧
     ParksArith s u (.sat d p a) false (on (fun x _ _ => satElem w.ty v x) A nought nought) ∧
     ParksArith s u (.fma d a b c p) false (on (fMadd f v false false) A B4 C) ∧
     ParksArith s u (.fms d a b c p) false (on (fMadd f v false true) A B4 C) ∧
     ParksArith s u (.fnma d a b c p) false (on (fMadd f v true false) A B4 C) ∧
     ParksArith s u (.lerp d a b c p) false (on (fLerp f v) A B4 C) ∧
     ParksArith s u (.clamp d a b c p) false (on (clampElem w.ty v) A B4 C)) ∧
  (∀ (s u : State) (d a b c : Reg) (p q : Sel) (ty : Ty) (rz : Bool) (kd : Low) (k : FCond),
     let w := u.curWave
     let A := w.valP p a
     let B := w.valP q b
     ParksArith s u (.cvt d p a ty rz) false (fun l => cvtVal w.ty ty (if rz then w.env.withRm 1 else w.env) (A l)) ∧
     ParksArith s u (.pack d p a q b) false (fun l => packVal w.ty w.env (A l) (B l)) ∧
     ParksArith s u (.unpk d p a q b) false (fun l => unpkVal w.ty w.env (A l) (B l)) ∧
     ParksArith s u (.fdot2 d a b c p) false (fun l => fDot2 (fmtOf w.ty) w.env (bits (A l) 0 16) (bits (A l) 16 16)
       (bits (w.val b l) 0 16) (bits (w.val b l) 16 16) (w.v c l).toNat) ∧
     ParksArith s u (.fcmp k kd p a q b) false (fun l => (0, (fCompare (fmtOf w.ty) w.env k (A l) (B l)).2))) ∧
  (∀ (s u : State) (d a : Reg) (p : Sel) (op : RedOp) (excl : Bool),
     let w := u.curWave
     let A := w.valP p a
     let step := fun x l => byElems w.ty (fun y z _ => redElem w.ty w.env op y z) x (A l) 0
     let before := fun l => w.lanes.filter (fun m => m < l)
     let r := fun l => match before l with
       | [] => (0, 0)
       | m :: rest => step (rest.foldl (fun x n => (step x n).1) (A m)) l
     ParksArith s u (.wred d p a op) false r ∧ ParksArith s u (.wscan d p a op excl) false r) ∧
  ∀ (s u : State) (d a b : Reg) (la : Ahead),
     let w := u.curWave
     let f := fmtOf w.ty
     let v := w.env
     let n := w.ty.toNat
     let on := fun (g : Nat → Nat → Res) (l : Nat) => byElems w.ty (fun x y _ => g x y) (w.val a l) (w.val b l) 0
     let one := fun (g : Nat → Res) (l : Nat) => byElems w.ty (fun x _ _ => g x) (w.val a l) 0 0
     ParksArith s u (.fdiv d a b la) false (on (fDiv f v)) ∧ ParksArith s u (.fsqrt d a la) false (one (fSqrt f v)) ∧
     ParksArith s u (.frcp d a la) false (one (fRcp f v n)) ∧ ParksArith s u (.frsq d a la) false (one (fRsq f v n)) ∧
     ParksArith s u (.fexp2 d a la) false (one (fExp2 f v n)) ∧ ParksArith s u (.flog2 d a la) false (one (fLog2 f v n)) ∧
     ParksArith s u (.fsin d a la) false (one (fTrig false f v n)) ∧
     ParksArith s u (.fcos d a la) false (one (fTrig true f v n)) ∧
     ParksArith s u (.idiv d a b la) true (on (intDiv w.ty false)) ∧
     ParksArith s u (.irem d a b la) true (on (intDiv w.ty true))

/-! ## Across lanes -/

/-- 10/R240 to R242: what each active lane receives of another, with the frame. -/
def Obligations.LaneMoves : Prop :=
  ∀ (s u : State) (d a b : Reg) (p q : Sel) (n : Fin 4) (hi6 : Fin 64) (lo2 : Fin 4),
    isA3 (.shfl d p a q b .idx) 0x14 0 d p a q b ∧ isA3 (.shfl d p a q b .up) 0x14 1 d p a q b ∧
    isA3 (.shfl d p a q b .dn) 0x14 2 d p a q b ∧ isA3 (.shfl d p a q b .xor) 0x14 3 d p a q b ∧
    isA3 (.qxh d p a) 0x15 0 d p a 0 0 ∧ isA3 (.qxv d p a) 0x15 1 d p a 0 0 ∧ isA3 (.qxd d p a) 0x15 2 d p a 0 0 ∧
    isA3 (.qbc d p a n) 0x15 3 d p a 0 n ∧ isA3 (.qswz d p a hi6 lo2) 0x16 lo2 d p a 0 hi6 ∧
    isA3 (.hlprd d p a) 0x1C 2 d p a 0 0 ∧
    let w := u.curWave
    let A := w.valP p a
    let W := w.width
    let B := fun l => (w.v b (w.srcLane q l)).toNat
    CompletesValue s u (.shfl d p a q b .idx) d w.vcount (fun l => A (B l % W)) ∧
    CompletesValue s u (.shfl d p a q b .up) d w.vcount (fun l => A (if l < B l % W then l else l - B l % W)) ∧
    CompletesValue s u (.shfl d p a q b .dn) d w.vcount (fun l => A (if W ≤ l + B l % W then l else l + B l % W)) ∧
    CompletesValue s u (.shfl d p a q b .xor) d w.vcount (fun l => A (l ^^^ (B l % W))) ∧
    CompletesValue s u (.qxh d p a) d w.vcount (fun l => A (l ^^^ 1)) ∧
    CompletesValue s u (.qxv d p a) d w.vcount (fun l => A (l ^^^ 2)) ∧
    CompletesValue s u (.qxd d p a) d w.vcount (fun l => A (l ^^^ 3)) ∧
    CompletesValue s u (.qbc d p a n) d w.vcount (fun l => A (4 * (l / 4) + n)) ∧
    CompletesValue s u (.qswz d p a hi6 lo2) d w.vcount
      (fun l => A (4 * (l / 4) + (4 * hi6.val + lo2.val) / 4 ^ (l % 4) % 4)) ∧
    CompletesValue s u (.hlprd d p a) d 1 (fun l =>
      maskOf 4 (fun j => (w.v a (w.srcLane p l)).toNat.testBit j && !w.active (4 * (l / 4) + j) &&
        (List.range 4).any (fun m => w.active (4 * (l / 4) + m))))

/-- 10/R243: reductions and scans combine the active lanes in ascending order; the first lane of an exclusive scan
receives the identity. -/
def Obligations.Reductions : Prop :=
  ∀ (s u : State) (d a : Reg) (p : Sel) (op : RedOp) (excl : Bool),
    let w := u.curWave
    let A := w.valP p a
    let step := fun x l => byElems w.ty (fun y z _ => redElem w.ty w.env op y z) x (A l) 0
    let upto := fun (ls : List Nat) => match ls with
      | [] => redStart w.ty op
      | l :: r => r.foldl (fun x m => (step x m).1) (A l)
    (∀ l, l ∈ w.lanes → (w.lanes.any (fun m => m < l)) = true → (step (upto (w.lanes.filter (fun m => m < l))) l).2 &&& w.te = 0) →
    CompletesValue s u (.wred d p a op) d w.vcount (fun _ => upto w.lanes) ∧
    CompletesValue s u (.wscan d p a op excl) d w.vcount
      (fun l => upto (w.lanes.filter (fun m => if excl then m < l else m ≤ l)))

/-- 10/R244, R245, 07/R168: mask instructions ignore EXM; k0 is never written. The count and the lowest set bit of a mask,
in the active lanes. -/
def Obligations.Masks : Prop :=
  (∀ (kd ka kb : Low) (d : Reg),
     isA3 (.kand kd ka kb) 0x19 0 kd 0 ka 0 kb ∧ isA3 (.kor kd ka kb) 0x19 1 kd 0 ka 0 kb ∧
     isA3 (.kxor kd ka kb) 0x19 2 kd 0 ka 0 kb ∧ isA3 (.kandn kd ka kb) 0x19 3 kd 0 ka 0 kb ∧
     isA3 (.knot kd ka) 0x1A 0 kd 0 ka 0 0 ∧ isA3 (.kmov kd ka) 0x1A 1 kd 0 ka 0 0 ∧
     isA3 (.kpopc d ka) 0x1A 2 d 0 ka 0 0 ∧ isA3 (.kffs d ka) 0x1A 3 d 0 ka 0 0) ∧
  (∀ (s u : State) (kd ka kb : Low),
     let w := u.curWave
     let x := fun l => bitOf (w.kread ka) l
     let y := fun l => bitOf (w.kread kb) l
     CompletesMask s u (.kand kd ka kb) kd (fun l => x l && y l) ∧
     CompletesMask s u (.kor kd ka kb) kd (fun l => x l || y l) ∧
     CompletesMask s u (.kxor kd ka kb) kd (fun l => x l != y l) ∧
     CompletesMask s u (.kandn kd ka kb) kd (fun l => x l && !y l) ∧
     CompletesMask s u (.knot kd ka) kd (fun l => !x l) ∧
     CompletesMask s u (.kmov kd ka) kd x ∧
     CompletesMask s u (.exmrd kd) kd (fun l => bitOf w.exm l) ∧
     CompletesWave s u (.exmwr ka) (fun v => { v with exm := w.kread ka &&& w.tm })) ∧
  (∀ (s u : State) (d : Reg) (ka : Low),
     let w := u.curWave
     CompletesValue s u (.kpopc d ka) d 1 (fun _ => ((List.range w.width).filter (fun l => bitOf (w.kread ka) l)).length) ∧
     CompletesValue s u (.kffs d ka) d 1
       (fun _ => ((List.range w.width).find? (fun l => bitOf (w.kread ka) l)).getD 0xFFFFFFFF))

/-! ## Special registers, modes, signatures, constants -/

/-- 07/R171: what SREAD gives each active lane, and the high halves that reads of GT and LWCT leave; what it gives of the
wave's workgroup and of the grid of its launch. -/
def Obligations.SpecialReads : Prop :=
  ∀ (s u : State) (d : Reg) (n : Fin 64), Issues s (.sread d n) u →
    let w := u.curWave
    ∃ t f, exec (.sread d n) s = .next t ∧ Gets u t d 1 f ∧
      t = (u.issuedBy (.sread d n)).setCur { (u.issuedBy (.sread d n)).curWave with
        regs := t.curWave.regs, rpoison := t.curWave.rpoison,
        gthi := if n.val = 0x18 then BitVec.ofNat 32 (u.gt / 2 ^ 32) else w.gthi,
        lwcthi := if n.val = 0x1A then BitVec.ofNat 32 (w.lwct / 2 ^ 32) else w.lwcthi } ∧
      (n.val = 0x00 → ∀ l, f l = l) ∧ (n.val = 0x01 → ∀ l, f l = w.tid.getD l 0) ∧ (n.val = 0x02 → ∀ l, f l = w.wid) ∧
      (n.val = 0x09 → ∀ l, f l = w.width) ∧
      (n.val = 0x0A → ∀ l, f l = match w.role with
        | .copy => 0
        | .matrix => 1
        | .vector => 2) ∧
      (n.val = 0x0B → ∀ l, f l = coreOfWave u.cur) ∧ (n.val = 0x0C → ∀ l, f l = u.pkg) ∧
      (n.val = 0x0D → ∀ l, f l = w.wb) ∧ (n.val = 0x0E → ∀ l, f l = w.sz) ∧ (n.val = 0x0F → ∀ l, f l = w.seg) ∧
      (n.val = 0x10 → ∀ l, f l = w.cnt) ∧ (n.val = 0x11 → ∀ l, f l = w.msd) ∧
      (n.val = 0x16 → ∀ l, f l = w.sigr.toNat) ∧ (n.val = 0x17 → ∀ l, f l = w.rer.toNat) ∧
      (n.val = 0x18 → ∀ l, f l = u.gt) ∧ (n.val = 0x19 → ∀ l, f l = w.gthi.toNat) ∧
      (n.val = 0x1A → ∀ l, f l = w.lwct) ∧ (n.val = 0x1B → ∀ l, f l = w.lwcthi.toNat) ∧
      (n.val = 0x1C → ∀ l, f l = w.cdepth) ∧
      (∀ g, u.wg w.wg = some g →
        (n.val = 0x03 → ∀ l, f l = g.wgid) ∧ (n.val = 0x05 → ∀ l, f l = g.gangIx) ∧
        (n.val = 0x07 → ∀ l, f l = g.waves.length * w.width) ∧ (n.val = 0x08 → ∀ l, f l = g.waves.length) ∧
        (n.val = 0x12 → ∀ l, f l = g.spb) ∧ (n.val = 0x13 → ∀ l, f l = g.l) ∧ (n.val = 0x14 → ∀ l, f l = g.s) ∧
        (n.val = 0x15 → ∀ l, f l = if g.cur then 1 else 0)) ∧
      ∀ g k, u.wg w.wg = some g → u.task g.task = some k →
        (n.val = 0x04 → k.gsz ≠ 0 → ∀ l, f l = g.wgid / k.gsz) ∧ (n.val = 0x06 → ∀ l, f l = k.nwg)

/-- 10/R256, R257, R259, 15/R388: modes, region entry, NOP, and the check of a signature that agrees. -/
def Obligations.ModesAndRegions : Prop :=
  ∀ (s u : State) (d a : Reg) (f : Fin 16) (v : BitVec 8) (x : BitVec 20),
    let w := u.curWave
    CompletesWave s u (.setm a) (fun y => { y with gmode := dw ((w.v64 a w.uniform).toNat % 2 ^ 61) }) ∧
    CompletesWave s u (.setmf f v)
      (fun y => { y with gmode := setFld w.gmode (setmfLow f.val) (setmfWidth f.val) v.toNat }) ∧
    CompletesValue s u (.getm d) d 2 (fun _ => w.gmode.toNat) ∧
    CompletesWave s u .regn (fun y => { y with region := some y.regionOf, rer := y.pc ||| 1, restarts := 0 }) ∧
    CompletesWave s u .nop (fun y => y) ∧
    (s.curWave.sigr.toNat % 2 ^ 20 = x.toNat → CompletesWave s u (.sigchk x) (fun y => { y with sigr := 0 }))

/-- 10/R259, R253, 07/R155, R158: a signature that does not agree, a target that is not a multiple of 4, a slot that the GOT
does not have, and a call or a window beyond its limits park the wave, before the instruction. The fault address 0 of a
signature that does not agree and of a limit is the model's choice (log 23), as is that a call's target is checked before
its limits (log 38). -/
def Obligations.ChecksPark : Prop :=
  (∀ (s : State) (x : BitVec 20), passes s (.sigchk x) = true → s.curWave.sigr.toNat % 2 ^ 20 ≠ x.toNat →
     ∃ t, exec (.sigchk x) s = .next t ∧
       ParksBefore s t 14 0 (dw (s.curWave.sigr.toNat * 2 ^ 32 + x.toNat))) ∧
  (∀ (s : State) (a : Reg) (i : Instr), i = .jmpr a ∨ i = .callr a → passes s i = true →
     (s.curWave.v64 a s.curWave.uniform).toNat % 4 ≠ 0 →
     ∃ t, exec i s = .next t ∧ ParksBefore s t 7 (s.curWave.v64 a s.curWave.uniform) (dw (0x30 * 2 ^ 56))) ∧
  (∀ (s : State) (n : BitVec 12), passes s (.callg n) = true →
     (∀ k, s.kernelOf s.curWave = some k → k.gotSlots ≤ n.toNat →
       ∃ t, exec (.callg n) s = .next t ∧ ParksBefore s t 7 (dw n.toNat) (dw (0x31 * 2 ^ 56))) ∧
     ∀ x, s.gotSlot s.curWave n.toNat = some x → x.toNat % 4 ≠ 0 →
       ∃ t, exec (.callg n) s = .next t ∧ ParksBefore s t 7 x (dw (0x30 * 2 ^ 56))) ∧
  (∀ (s : State) (i : Instr),
     (∃ off : BitVec 20, i = .call off) ∨
       (∃ a : Reg, i = .callr a ∧ (s.curWave.v64 a s.curWave.uniform).toNat % 4 = 0) ∨
       (∃ (n : BitVec 12) (x : Dword), i = .callg n ∧ s.gotSlot s.curWave n.toNat = some x ∧ x.toNat % 4 = 0) →
     passes s i = true → s.curWave.cdepth = 4096 ∨ s.curWave.stkmax < s.curWave.wb + s.curWave.sz →
     ∃ t, exec i s = .next t ∧ ParksBefore s t 20 0 (accessInfo 0x20 0 0 7 15)) ∧
  (∀ (s : State) (n : BitVec 12), passes s (.enter n) = true → s.curWave.stkmax < s.curWave.wb + n.toNat →
     ∃ t, exec (.enter n) s = .next t ∧ ParksBefore s t 20 0 (accessInfo 0x20 0 0 7 15))

/-- 10/R249: LDC writes each active lane whose offset lies in the block; any other lane parks the wave with MISALIGN,
the lowest such offset as fault address, after the others are written. -/
def Obligations.Constants : Prop :=
  ∀ (s u : State) (d a : Reg) (imm : BitVec 12), Issues s (.ldc d a imm) u →
    let w := u.curWave
    let k := u.kernelOf w
    let off := fun l => BitVec.ofNat 64 (w.v a l).toNat + imm.signExtend 64
    let ok := fun l => decide ((off l).toNat % 4 = 0 ∧ (off l).toNat + 4 ≤ (k.map (·.constSz)).getD 0)
    ∃ t, exec (.ldc d a imm) s = .next t ∧ t.mem = (u.issuedBy (.ldc d a imm)).mem ∧
      (∀ l, l < w.width → t.curWave.v d l =
        if holds w (w.wb + d) = true ∧ w.active l = true ∧ ok l = true then
          BitVec.ofNat 32 (u.newestNat (coreOfWave u.cur) ((k.map (·.constPA)).getD 0 + (off l).toNat) 4)
        else w.v d l) ∧
      (∀ j l, l < w.width → j ≠ w.wb + d → t.curWave.lreg j l = w.lreg j l) ∧
      (w.lanes.all ok = true → OnlyRegs u t (.ldc d a imm)) ∧
      ∀ l0, w.lanes.find? (fun l => !ok l) = some l0 → t.curWave.status = .parked ∧
        ∃ r, t.agenda = (u.issuedBy (.ldc d a imm)).agenda ++ [.recordWritten r] ∧ r.cls = 7 ∧
          Sparse.get 0 r.words 7 = off l0

/-! ## Control -/

/-- 09/R205, 10/R252, R253, 05/R122: a branch moves the PC when its condition holds and changes nothing else; JMPR moves it
to a register; YIELDC moves it and waits for the counter C. -/
def Obligations.Branches : Prop :=
  (∀ (s u : State) (m : Low) (c : BCond) (off : BitVec 20),
     let w := u.curWave
     let z := if m.val = 0 then w.exm = 0 else w.kread m &&& w.exm = 0
     let f := if m.val = 0 then w.exm = w.cut (~~~ 0) else w.kread m &&& w.exm = w.exm
     let taken := match c with
       | .always => True
       | .t => w.cct = true
       | .f => w.cct = false
       | .z => z
       | .nz => ¬ z
       | .full => f
       | .nfull => ¬ f
     (taken → CompletesWave s u (.br m c off) (fun v => { v with pc := w.pc + 4 * off.signExtend 64 })) ∧
     (¬ taken → CompletesWave s u (.br m c off) (fun v => v))) ∧
  (∀ (s u : State) (a : Reg) (n : Fin 64) (off : BitVec 14) (la : Ahead),
     ((s.curWave.v64 a s.curWave.uniform).toNat % 4 = 0 →
       CompletesWave s u (.jmpr a) (fun v => { v with pc := s.curWave.v64 a s.curWave.uniform })) ∧
     CompletesWave s u (.yieldc n off la) (fun v => { v with
       pc := u.curWave.pc + 4 * off.signExtend 64,
       status := if u.curWave.cq.length ≤ n.val then .ready else .yielded n.val }))

/-- 07/R155: a call within its depth limits keeps its link word (the first sixteen in the wave, the others in the
backing area), opens the callee's window over the caller's last eight registers, and jumps. -/
def Obligations.Calls : Prop :=
  ∀ (s u : State) (i : Instr) (target : Dword),
    (∃ off : BitVec 20, i = .call off ∧ target = s.curWave.pc + 4 * off.signExtend 64) ∨
      (∃ a : Reg, i = .callr a ∧ target = s.curWave.v64 a s.curWave.uniform ∧ target.toNat % 4 = 0) ∨
      (∃ g : BitVec 12, i = .callg g ∧ s.gotSlot s.curWave g.toNat = some target ∧ target.toNat % 4 = 0) →
    s.curWave.cdepth ≠ 4096 → s.curWave.wb + s.curWave.sz ≤ s.curWave.stkmax → IssuesAfter s State.spillLink i u →
    exec i s = .next ((u.issuedBy i).setCur { (u.issuedBy i).curWave with
      links := if u.curWave.cdepth < 16 then Sparse.put u.curWave.links u.curWave.cdepth
          (dw ((u.curWave.sz / 8 - 1) * 2 ^ 55 + (u.curWave.pc + 4).toNat / 4 % 2 ^ 55))
        else u.curWave.links,
      cdepth := u.curWave.cdepth + 1, wb := u.curWave.wb + u.curWave.sz - 8, sz := 8, pc := target })

/-- 07/R155: ENTER sizes the window once its registers are resident and ends the span there (the model's reading, log
45), and RET returns to the caller's window and PC; a
RET at depth 0, like EXIT, ends the wave. -/
def Obligations.WindowsAndEnds : Prop :=
  (∀ (s u : State) (n : BitVec 12), s.curWave.wb + n.toNat ≤ s.curWave.stkmax →
    IssuesAfter s (fun t => t.makeResident t.cur t.curWave.wb (t.curWave.wb + n.toNat)) (.enter n) u →
    let w := u.curWave
    ∃ t, exec (.enter n) s = .next t ∧ t.curWave.sz = n.toNat ∧ t.curWave.hi = w.wb + n.toNat ∧
      t = (u.issuedBy (.enter n)).setCur { (u.issuedBy (.enter n)).curWave with
        sz := t.curWave.sz, hi := t.curWave.hi, regs := t.curWave.regs, rpoison := t.curWave.rpoison,
        tags := t.curWave.tags } ∧
      ∀ j l, t.curWave.lreg j l = if j < w.wb + n.toNat then w.lreg j l else 0) ∧
  (∀ (s u : State) (link : Dword) (place leaf : Nat), s.curWave.cdepth ≠ 0 → s.topLink = (.ok place leaf, link) →
    IssuesAfter s (fun t => (if leaf = 0 then t else t.setAD (coreOfWave t.cur) leaf false).fillCaller link) .ret u →
    ∃ t, exec .ret s = .next t ∧ t.curWave.pc = linkPc link ∧ t.curWave.cdepth = u.curWave.cdepth - 1 ∧
      t.curWave.sz = 8 * (fld link 55 3 + 1) ∧ t.curWave.wb = u.curWave.wb - (8 * (fld link 55 3 + 1) - 8) ∧
      t.mem = (u.issuedBy .ret).mem) ∧
  (∀ s u : State, s.curWave.cdepth = 0 → Issues s .ret u → exec .ret s = .next ((u.issuedBy .ret).endWave u.cur false)) ∧
  ∀ s u : State, Issues s .exit u → exec .exit s = .next ((u.issuedBy .exit).endWave u.cur false)

/-- 07/R170: the mask stack. A push keeps EXM and the taken lanes and narrows EXM; the else part takes the lanes not
taken; a pop restores what the push saw, also GMODE. -/
def Obligations.MaskStack : Prop :=
  (∀ (s u : State) (k : Low), s.curWave.msd ≠ 256 → IssuesAfter s State.spillMask (.mpush k) u →
    let w := u.curWave
    ∃ t, exec (.mpush k) s = .next t ∧ t.mem = (u.issuedBy (.mpush k)).mem ∧ t.curWave.regs = w.regs ∧
      t.curWave.exm = w.exm &&& w.kread k ∧ t.curWave.msd = w.msd + 1 ∧ t.curWave.gmode = w.gmode ∧
      Sparse.find t.curWave.mstack w.msd =
        some { exm := w.exm, t := w.exm &&& w.kread k, gmode := w.gmode, els := false }) ∧
  (∀ (s u : State) (e : MaskEntry), s.curWave.msd ≠ 0 → IssuesAfter s State.fillMask .melse u →
    Sparse.find u.curWave.mstack (u.curWave.msd - 1) = some e →
    ∃ t, exec .melse s = .next t ∧ t.mem = (u.issuedBy .melse).mem ∧ t.curWave.regs = u.curWave.regs ∧
      t.curWave.exm = e.exm &&& ~~~ e.t ∧ t.curWave.gmode = e.gmode ∧ t.curWave.msd = u.curWave.msd) ∧
  (∀ (s u : State) (e : MaskEntry), s.curWave.msd ≠ 0 → IssuesAfter s State.fillMask .mpop u →
    Sparse.find u.curWave.mstack (u.curWave.msd - 1) = some e →
    ∃ t, exec .mpop s = .next t ∧ t.mem = (u.issuedBy .mpop).mem ∧ t.curWave.regs = u.curWave.regs ∧
      t.curWave.exm = e.exm ∧ t.curWave.gmode = e.gmode ∧ t.curWave.msd = u.curWave.msd - 1) ∧
  ∀ s : State, (∀ k, passes s (.mpush k) = true → s.curWave.msd = 256 →
      ∃ t, exec (.mpush k) s = .next t ∧ ParksBefore s t 20 0 (accessInfo 0x21 0 0 7 15)) ∧
    (s.curWave.msd = 0 → (passes s .melse = true →
      ∃ t, exec .melse s = .next t ∧ ParksBefore s t 20 0 (accessInfo 0x22 0 0 7 15)) ∧
      (passes s .mpop = true → ∃ t, exec .mpop s = .next t ∧ ParksBefore s t 20 0 (accessInfo 0x22 0 0 7 15)))

/-! ## Traps (13/R345, 09/R208 to R212, 14/R353) -/

/-- 13/R345: TRAP takes its fault after it has issued; BKPT before, and is the instruction that the record names. -/
def Obligations.SoftwareTraps : Prop :=
  ∀ (s u : State) (c : BitVec 12),
    (Issues s (.trap c) u → ∃ t, exec (.trap c) s = .next t ∧ ParksIssued u t (.trap c) 21 (dw c.toNat) 0) ∧
    (passes s (.bkpt c) = true → ∃ t, exec (.bkpt c) s = .next t ∧ ParksBefore s t 22 (dw c.toNat) 0)

/-- 09/R208 to R210: an escape, and a word that no encoding of the manual has, park the wave with UNIMPL at the word's
PC. -/
def Obligations.UnimplementedWords : Prop :=
  (∀ (s : State) (x y : Fin 64) (z : BitVec 12),
    ∃ t, exec (.esc x y z) s = .next t ∧
      ParksBefore s t 2 s.curWave.pc (unimplInfo 3 (encode (.esc x y z)))) ∧
  ∀ (s : State) (w : Word) (e : Reject), decode w = .error e →
    ∃ t sub, exec (.unassignedWord w) s = .next t ∧ 1 ≤ sub ∧ sub ≤ 4 ∧ ParksBefore s t 1 s.curWave.pc (unimplInfo sub w) ∧
      (e = .opcode → sub = 1) ∧ (e = .field → sub = 2)

/-- 09/R211, R212, 14/R353, 11/R261: a privileged instruction of an ordinary context parks with PRIV; one of another role,
or one that needs the matrix token and does not hold it, parks with ROLE. Nothing of it is done. The manual gives no fault
address for these; 0 is the model's choice (log 23). -/
def Obligations.PrivilegeAndRole : Prop :=
  ∀ (s : State) (i : Instr), i.isEvent = false → (∀ w, i ≠ .unassignedWord w) → (∀ x y z, i ≠ .esc x y z) →
    let w := s.curWave
    let o := i.opnds w
    i.unimpl w = none →
    (o.serial && (s.pendingRegs s.cur != [] || s.pendingFrames s.cur != [])) = false →
    (o.priv = true ∧ w.sys = false → ∃ t, exec i s = .next t ∧ ParksBefore s t 3 0 0) ∧
    ((o.priv = false ∨ w.sys = true) → o.role = some .copy ∧ w.role ≠ .copy →
      ∃ t, exec i s = .next t ∧ ParksBefore s t 4 0 (roleInfo 1)) ∧
    ((o.priv = false ∨ w.sys = true) → o.role = some .matrix ∧ w.role ≠ .matrix →
      ∃ t, exec i s = .next t ∧ ParksBefore s t 4 0 (roleInfo 2)) ∧
    ((o.priv = false ∨ w.sys = true) → (∀ r, o.role = some r → w.role = r) → o.token = true →
      (s.engine (coreOfWave s.cur)).token ≠ some s.cur → ∃ t, exec i s = .next t ∧ ParksBefore s t 4 0 (roleInfo 0x10))

/-! ## What issue itself does -/

/-- 09/R211, 10/R258, 14/R358, 07/R164: issue moves the PC past the word, folds the word into SIGR where the instruction
folds, charges the budget and counts affine operands and instructions whose sources are all uniform; memory, every
vector register, mask and frame of the wave, tags of registers that the instruction does not write, and every other wave
are as before. That an instruction is one of the scalar unit where it has vector operands and every register of every
source is uniform, and that an operand of several registers is affine where one of them is and none is plain, is the
model's reading (log 98). -/
def Obligations.IssueEffect : Prop :=
  ∀ (s : State) (i : Instr),
    let t := s.issuedBy i
    let w := s.curWave
    let o := i.opnds w
    t.curWave.pc = w.pc + 4 ∧ t.curWave.sigr = (if o.fold then sigFold w.sigr (encode i) else w.sigr) ∧
    t.curWave.regs = w.regs ∧ t.curWave.rpoison = w.rpoison ∧ t.curWave.k = w.k ∧ t.curWave.frames = w.frames ∧
    t.curWave.exm = w.exm ∧ t.curWave.gmode = w.gmode ∧ t.curWave.cct = w.cct ∧ t.curWave.wb = w.wb ∧
    t.curWave.mq = w.mq ∧ t.curWave.cq = w.cq ∧ t.curWave.xq = w.xq ∧ t.curWave.sq = w.sq ∧
    (∀ j, j ≠ s.cur → t.wave j = s.wave j) ∧ t.mem = s.mem ∧ t.csr = s.csr ∧ t.gt = s.gt ∧ t.cur = s.cur ∧ t.ops = s.ops ∧
    (∀ k, s.task w.task = some k → k.hasBudget = true →
      (t.task w.task).map (·.budget) = some (k.budget - if w.w64 then 2 else 1)) ∧
    (∀ j, j ≠ w.task → t.task j = s.task j) ∧
    let core := coreOfWave s.cur
    let tags := fun (r : Regs) => (List.range r.2).map (fun n => w.tag (w.wb + r.1 + n))
    (∀ j, (∀ r ∈ o.wr, j < w.wb + r.1 ∨ w.wb + r.1 + r.2 ≤ j) → t.curWave.tag j = w.tag j) ∧
    Sparse.get 0 t.cntaff core = Sparse.get 0 s.cntaff core +
      (o.rd.filter (fun r => decide (Tag.affine ∈ tags r) && decide (Tag.plain ∉ tags r))).length ∧
    Sparse.get 0 t.cntuni core = Sparse.get 0 s.cntuni core +
      (if (o.rd ≠ [] ∨ o.wr ≠ []) ∧ ∀ r ∈ o.rd, ∀ x ∈ tags r, x = .uniform then 1 else 0) ∧
    ∀ c, c ≠ core → Sparse.get 0 t.cntaff c = Sparse.get 0 s.cntaff c ∧ Sparse.get 0 t.cntuni c = Sparse.get 0 s.cntuni c

/-- 07/R153, R156 to R158: what extending the span does to the wave that moves: its span, registers in it with their tags,
and A bits of frames; with a span that reaches far enough nothing at all. A spilled register's lanes go to its place in
the backing area, four bytes a lane (in private L2 mode the home may hold them instead); of memory only they and the
leaf's A and D bits change. -/
def Obligations.SpanEffect : Prop :=
  (∀ (s u : State) (o : Opnds), s.span o = .ok u →
     u.cur = s.cur ∧
     u.curWave = { s.curWave with lo := u.curWave.lo, hi := u.curWave.hi, regs := u.curWave.regs,
                                  rpoison := u.curWave.rpoison, tags := u.curWave.tags,
                                  frames := u.curWave.frames } ∧
     (o.top s.curWave ≤ s.curWave.hi → u = s)) ∧
  (∀ (s t : State) (id j pa leaf : Nat),
     s.reach (coreOfWave id) (s.wave id).ctx (s.wave id).sys .store 7 ((s.wave id).backAt j) = .ok pa leaf →
     pa % 65536 + 4 * (s.wave id).width ≤ 65536 → s.spillReg id j = .ok t →
     (s.privateMode = false → ∀ l b, l < (s.wave id).width → b < 4 →
       t.byte (s.place (pa + (4 * l + b))) =
         BitVec.ofNat 8 (((Sparse.get [] (s.wave id).regs j).getD l 0).toNat / 256 ^ b)) ∧
     ∀ a, (∀ i, i < 4 * (s.wave id).width → a ≠ s.place (pa + i)) → (∀ i, i < 8 → a ≠ s.place (leaf + i)) →
       t.byte a = s.byte a)

/-! ## Memory (12) -/

/-- 12/R285 to R295, 06/R142: an access begins an operation with the lanes, addresses, data and destinations that its
operands give, a store keeping its whole source registers for a record (13/R327); with no active lane it only counts and
asks nothing of its order. An ordered access first does what its order asks, at the widest scope of its lanes (the model's
reading, log 25); the base that an address starts from is sign-extended (the model's reading, log 53). The frame of every
access that begins: of memory only A and D bits change, in the leaves of the pages that its lanes reach (02/R34). -/
def Obligations.AccessesBegin : Prop :=
  (∀ (s u : State) (d a : Reg) (f : Low) (sz : Size) (osz : OSize) (ch : Hint) (sc : Scope) (la : Ahead) (flt : Bool),
     let none_ := fun (_ : Nat) => ([] : List Byte)
     (Issues s (.ld d a f sz ch la) u → ∃ o, AccessOf u f a sz.bytes (regsFrom d sz.regs) none_ none_ o ∧
       o.kind = .load (decide (sz = .i8 ∨ sz = .i16)) ∧ o.hint = ch ∧ o.order = .plain ∧ o.scope = none ∧
       exec (.ld d a f sz ch la) s = .next ((u.issuedBy (.ld d a f sz ch la)).begin_ o)) ∧
     (Issues s (.st d a f sz ch la) u → ∃ o,
       AccessOf u f a sz.bytes [] (fun l => (laneData u d sz.regs l).take sz.bytes) (laneData u d sz.regs) o ∧
       o.kind = .store ∧ o.hint = ch ∧ o.order = .plain ∧ o.scope = none ∧
       exec (.st d a f sz ch la) s = .next ((u.issuedBy (.st d a f sz ch la)).begin_ o)) ∧
     (Issues s (.prf flt a f sz ch la) u → ∃ o, AccessOf u f a sz.bytes [] none_ none_ o ∧
       o.kind = .prefetch flt ∧ o.hint = ch ∧ o.order = .plain ∧ o.scope = none ∧
       exec (.prf flt a f sz ch la) s = .next ((u.issuedBy (.prf flt a f sz ch la)).begin_ o)) ∧
     (Issues s (.ldAcq d a f osz sc la) u → ∃ o,
       AccessOf u f a osz.size.bytes (regsFrom d osz.size.regs) none_ none_ o ∧
       o.kind = .load false ∧ o.order = .acq ∧ o.scope = some sc ∧
       let v := u.issuedBy (.ldAcq d a f osz sc la)
       exec (.ldAcq d a f osz sc la) s = .next (State.begin_
         (if u.curWave.lanes ≠ [] ∧ 2 ≤ v.widest f a .load sc then v.checkInAll (coreOfWave v.cur) [] else v) o)) ∧
     (IssuesAfter s (fun t => if t.curWave.lanes = [] then .ok t else t.fencePrep (t.widest f a .store sc)) (.stRel d a f osz sc la) u → ∃ o,
       AccessOf u f a osz.size.bytes [] (laneData u d osz.size.regs) (laneData u d osz.size.regs) o ∧
       o.kind = .store ∧ o.order = .rel ∧ o.scope = some sc ∧
       exec (.stRel d a f osz sc la) s = .next ((u.issuedBy (.stRel d a f osz sc la)).begin_ o))) ∧
  (∀ (s : State) (o : MemOp) (a : Nat), (s.wave o.wave).status ≠ .draining → (∀ x ∈ o.lanes, x.phase = .xlate) →
     (∀ x ∈ o.lanes, ∀ pa at_ i, s.laneHit o x = .ok pa at_ → i < 8 → a ≠ s.place (at_.leaf + i)) →
     (s.startOp o).byte a = s.byte a)

/-- 12/R296, R297: an atomic begins an operation with its operator, the type in force, its data and, for ACAS, the
compare value before the data; with an active lane a release first does what a fence does, and an acquire checks in the
core's copies, each at the widest scope of the lanes (the model's reading, log 25); without one it only counts. The base
that an address starts from is sign-extended (the model's reading, log 53). What each atomic stores in place of the old
value. -/
def Obligations.AtomicsBegin : Prop :=
  (∀ (s u : State) (d a : Reg) (f : Low) (sc : Scope) (r : Order) (la : Ahead) (i : Instr) (op : AtomOp),
     (i, op) ∈ [(Instr.aadd d a f sc r la, AtomOp.add), (.amin d a f sc r la, .min), (.amax d a f sc r la, .max),
       (.aand d a f sc r la, .and), (.aor d a f sc r la, .or), (.axor d a f sc r la, .xor), (.axchg d a f sc r la, .xchg),
       (.acas d a f sc r la, .cas), (.afadd d a f sc r la, .fadd), (.ainc d a f sc r la, .inc)] →
     IssuesAfter s (fun t => if (r = .rel ∨ r = .ar) ∧ t.curWave.lanes ≠ [] then t.fencePrep (t.widest f a .atomic sc)
       else .ok t) i u →
     let n := u.curWave.vcount
     let v := u.issuedBy i
     ∃ o, AccessOf u f a (4 * n) (regsFrom d n)
         (laneData u (if op = .cas then d + n else d) n) (fun l => if op = .cas then laneData u d n l else []) o ∧
       o.kind = .atomic op u.curWave.ty ∧ o.order = r ∧ o.scope = some sc ∧
       exec i s = .next (State.begin_
         (if (r = .acq ∨ r = .ar) ∧ u.curWave.lanes ≠ [] ∧ 2 ≤ v.widest f a .atomic sc then
           v.checkInAll (coreOfWave v.cur) [] else v) o)) ∧
  (∀ (t : Ty) (d c : Dword) (old : Nat),
     let e := if t.elem = 64 then 64 else 32
     let x := old % 2 ^ e
     let y := d.toNat % 2 ^ e
     let f := fun (op : AtomOp) => atomEval { op := op, ty := t, data := d, cmp := c } old
     let le : Prop := if t.signed = true then toSigned e x ≤ toSigned e y else x ≤ y
     f .add = (x + y) % 2 ^ e ∧ f .and = x &&& y ∧ f .or = x ||| y ∧ f .xor = x ^^^ y ∧ f .xchg = y ∧
     (le → f .min = x ∧ f .max = y) ∧ (¬ le → f .min = y ∧ f .max = x) ∧
     f .cas = (if x = c.toNat % 2 ^ e then y else x) ∧ f .inc = (if y ≤ x then 0 else x + 1))

/-- 07/R161, R162, 12/R288, R294, 11/R278: STL stores each active lane's bytes in the workgroup's scratchpad, and every other
byte of memory is as before; LDL writes each active lane its bytes, extended as the size says, and memory and every other
register are as before. A lane that reaches nothing parks the wave with MISALIGN once the other lanes are done. A write to
a granule that a matrix operation has still to read is held. With a lane in the register alias the instruction waits for
every earlier result; a lane of the alias reads, or writes, the register that its address names, where the segment holds
it. -/
def Obligations.LocalAccesses : Prop :=
  (∀ (s u : State) (d a : Reg) (sz : Size) (la : Ahead) (g : Workgroup),
     s.curWave.aliased a = false → Issues s (.stl d a sz la) u → u.wg u.curWave.wg = some g →
     (u.engine g.core).ops = [] → (u.engine g.core).held = [] →
     let w := u.curWave
     let at_ := fun l j => g.pa false ((w.v a l).toNat + j)
     (∀ l ∈ w.lanes, (w.v a l).toNat + sz.bytes ≤ g.l ∧ (w.v a l).toNat < 0x100000) →
     ∃ t, exec (.stl d a sz la) s = .next t ∧ t.curWave.regs = w.regs ∧
       (∀ l ∈ w.lanes, ∀ j, j < sz.bytes → (∀ m ∈ w.lanes, l < m → ∀ k, k < sz.bytes → at_ m k ≠ at_ l j) →
         t.byte (at_ l j) = (laneData u d sz.regs l).getD j 0) ∧
       ∀ x, (∀ l ∈ w.lanes, ∀ j, j < sz.bytes → x ≠ at_ l j) → t.byte x = u.byte x) ∧
  (∀ (s u : State) (d a : Reg) (sz : Size) (la : Ahead) (g : Workgroup),
     s.curWave.aliased a = false → Issues s (.ldl d a sz la) u → u.wg u.curWave.wg = some g →
     let w := u.curWave
     let bytes := fun l => ofBytes ((List.range sz.bytes).map (fun j => u.byte (g.pa false ((w.v a l).toNat + j))))
     (∀ l ∈ w.lanes, (w.v a l).toNat + sz.bytes ≤ g.l ∧ (w.v a l).toNat < 0x100000) →
     ∃ t, exec (.ldl d a sz la) s = .next t ∧ t.mem = (u.issuedBy (.ldl d a sz la)).mem ∧
       ∀ j l, l < w.width → t.curWave.lreg j l =
         if holds w j = true ∧ w.wb + d ≤ j ∧ j < w.wb + d + sz.regs ∧ w.active l = true then
           (if sz = .i8 then (BitVec.ofNat 8 (bytes l)).signExtend 32
            else if sz = .i16 then (BitVec.ofNat 16 (bytes l)).signExtend 32
            else BitVec.ofNat 32 (bytes l / 2 ^ (32 * (j - (w.wb + d)))))
         else w.lreg j l) ∧
  (∀ (s u : State) (d a : Reg) (sz : Size) (la : Ahead) (g : Workgroup) (i : Instr),
     i = .ldl d a sz la ∨ (i = .stl d a sz la ∧ (u.engine g.core).ops = [] ∧ (u.engine g.core).held = []) →
     s.curWave.aliased a = false → Issues s i u → u.wg u.curWave.wg = some g →
     u.stoodStill u.curWave = false → (∀ e ∈ u.ops, e.2.wave = u.cur → e.2.lanes.any LaneOp.bad = false) →
     let w := u.curWave
     ∀ l0, w.lanes.find? (fun l => decide (g.l < (w.v a l).toNat + sz.bytes ∨ 0x100000 ≤ (w.v a l).toNat)) = some l0 →
     ∃ t r, exec i s = .next t ∧ t.curWave.status = .parked ∧
       t.agenda = (u.issuedBy i).agenda ++ [.recordWritten r] ∧ r.kind = 1 ∧ r.unit = u.cur ∧ r.cls = 7 ∧
       Sparse.get 0 r.words 2 = w.pc ∧ Sparse.get 0 r.words 7 = dw (w.v a l0).toNat ∧ Sparse.get 0 r.words 8 = misInfo 0x36 0) ∧
  (∀ (s u : State) (d a : Reg) (sz : Size) (la : Ahead) (g : Workgroup) (l : Nat),
     s.curWave.aliased a = false → Issues s (.stl d a sz la) u → u.wg u.curWave.wg = some g →
     let w := u.curWave
     let at_ := fun j => g.at false ((w.v a l).toNat + j)
     w.lanes = [l] → (w.v a l).toNat + sz.bytes ≤ g.l → (w.v a l).toNat < 0x100000 →
     (∀ j, j < sz.bytes → at_ j < 0x200000) → (∃ j, j < sz.bytes ∧ u.registered g.core (at_ j) 1 = true) →
     ∃ t x, exec (.stl d a sz la) s = .next t ∧ t.mem = (u.issuedBy (.stl d a sz la)).mem ∧ t.curWave.regs = w.regs ∧
       (t.engine g.core).held = (u.engine g.core).held ++ [x] ∧ x.who = .op u.nextId ∧ x.pa = winBase g.core + at_ 0 ∧
       x.bytes.map (·.2) = (laneData u d sz.regs l).take sz.bytes ∧ (Sparse.find t.ops u.nextId).isSome = true) ∧
  (∀ (s u : State) (d a : Reg) (la : Ahead) (g : Workgroup), s.curWave.aliased a = true →
     (∀ (sz : Size) (i : Instr), i = .ldl d a sz la ∨ i = .stl d a sz la → passes s i = true →
       s.pendingRegs s.cur ≠ [] ∨ s.pendingFrames s.cur ≠ [] → exec i s = .next s.hold) ∧
     (s.pendingRegs s.cur = [] → s.pendingFrames s.cur = [] →
      let w := u.curWave
      let reg := fun l => ((w.v a l).toNat - 0x100000) / (4 * w.width)
      let lane := fun l => ((w.v a l).toNat - 0x100000) % (4 * w.width) / 4
      (∀ l ∈ w.lanes, 0x100000 ≤ (w.v a l).toNat ∧ (w.v a l).toNat < 0x180000 ∧ (w.v a l).toNat % 4 = 0 ∧
        w.lo ≤ reg l ∧ s.curWave.lo ≤ reg l) → u.wg w.wg = some g →
      (Issues s (.ldl d a .b32 la) u → ∃ t, exec (.ldl d a .b32 la) s = .next t ∧
        t.mem = (u.issuedBy (.ldl d a .b32 la)).mem ∧ ∀ j l, l < w.width → t.curWave.lreg j l =
          if holds w j = true ∧ j = w.wb + d ∧ w.active l = true then w.lreg (reg l) (lane l) else w.lreg j l) ∧
      (Issues s (.stl d a .b32 la) u → ∃ t, exec (.stl d a .b32 la) s = .next t ∧
        t.mem = (u.issuedBy (.stl d a .b32 la)).mem ∧
        (∀ l ∈ w.lanes, holds w (reg l) = true → (∀ m ∈ w.lanes, l < m → w.v a m ≠ w.v a l) →
          t.curWave.lreg (reg l) (lane l) = w.v d l) ∧
        ∀ j m, m < w.width → (∀ l ∈ w.lanes, reg l ≠ j ∨ lane l ≠ m) → t.curWave.lreg j m = w.lreg j m)))

/-- 12/R303 to R305: a long-latency instruction begins, and LONG_LATENCY_RESULT writes what it computed. Where an
enabled condition is raised the wave parks with ARITH; without an active lane it only counts. -/
def Obligations.LongLatency : Prop :=
  ∀ (s u : State) (d a b : Reg) (la : Ahead) (i : Instr) (g : Nat → Nat → Res),
    let w := u.curWave
    let A := fun l k => element w.ty k (w.val a l)
    let B := fun l k => element w.ty k (w.val b l)
    let F := fmtOf w.ty
    let T := w.ty.toNat
    (i = .fdiv d a b la ∧ g = (fun l k => fDiv F w.env (A l k) (B l k))) ∨
      (i = .fsqrt d a la ∧ g = (fun l k => fSqrt F w.env (A l k))) ∨
      (i = .frcp d a la ∧ g = (fun l k => fRcp F w.env T (A l k))) ∨
      (i = .frsq d a la ∧ g = (fun l k => fRsq F w.env T (A l k))) ∨
      (i = .fexp2 d a la ∧ g = (fun l k => fExp2 F w.env T (A l k))) ∨
      (i = .flog2 d a la ∧ g = (fun l k => fLog2 F w.env T (A l k))) ∨
      (i = .fsin d a la ∧ g = (fun l k => fTrig false F w.env T (A l k))) ∨
      (i = .fcos d a la ∧ g = (fun l k => fTrig true F w.env T (A l k))) ∨
      (i = .idiv d a b la ∧ g = (fun l k => intDiv w.ty false (A l k) (B l k))) ∨
      (i = .irem d a b la ∧ g = (fun l k => intDiv w.ty true (A l k) (B l k))) →
    Issues s i u →
    (w.lanes = [] → exec i s = .next ((u.issuedBy i).emptyOp .s)) ∧
    (w.lanes ≠ [] → (∀ l k, w.active l = true → k < w.ty.elems → (g l k).2 &&& w.te = 0) →
    ∃ t o vals, exec i s = .next t ∧ Sparse.find t.ops u.nextId = some o ∧ o.kind = .long vals ∧ o.wave = u.cur ∧
      o.dst = (regsFrom d w.vcount).map (w.wb + ·) ∧ t.agenda = (u.issuedBy i).agenda ++ [.longLatencyResult u.nextId] ∧
      t.mem = (u.issuedBy i).mem ∧ t.curWave.regs = w.regs ∧ t.curWave.sq.length = w.sq.length + 1 ∧
      vals.map (·.1) = w.lanes ∧
      ∀ l ws, (l, ws) ∈ vals → ws.length = w.vcount ∧ ∀ k, k < w.ty.elems →
        element w.ty k ((ws.getD 0 0).toNat + 2 ^ 32 * (ws.getD 1 0).toNat) = (g l k).1 % 2 ^ w.ty.elem)

/-- 12/R302, R303: the result of a long-latency operation reaches its lanes and nothing else; an XINV completes once the
accesses that translated through what it cleared have reached their home, and stays until then. -/
def Obligations.LateResults : Prop :=
  ∀ (s : State) (id : Nat) (o : MemOp), Sparse.find s.ops id = some o →
    (∀ vals, o.kind = .long vals → (s.wave o.wave).status = .ready ∨ (s.wave o.wave).status = .waiting →
      (Sparse.find s.waves o.wave).isSome = true → o.dst.Nodup →
      ∃ t, exec (.longLatencyResult id) s = .next t ∧ t.mem = s.mem ∧ Sparse.find t.ops id = none ∧
        ∀ n j l ws, n < o.dst.length → o.dst.getD n 0 = j → l < (s.wave o.wave).width → holds (s.wave o.wave) j = true →
          Sparse.find vals l = some ws → (t.wave o.wave).lreg j l = ws.getD n 0) ∧
    (∀ fs, o.kind = .xinv fs →
      (s.xinvDone fs = true → ∃ t, exec (.xinvComplete id) s = .next t ∧ t.mem = s.mem ∧ Sparse.find t.ops id = none) ∧
      (s.xinvDone fs = false → exec (.xinvComplete id) s = .next s))

/-! ## Fences, waits, translation -/

/-- 06/R139, R141, R144, 07/R156, 14/R356: when a fence or a wait completes, and when it holds its wave. That E2O waits for
every engine write made so far in the package is the model's reading (log 64), as is that the end of a fill readies a wave
that waits (log 43). -/
def Obligations.FencesAndWaits : Prop :=
  ∀ (s : State) (sc : Scope) (n : Fin 64) (c : Counter) (wave : Nat) (la : Ahead),
    let w := s.curWave
    (passes s (.fence sc la) = true →
      (s.accessing s.cur = false → sc.toNat < 2 ∨ (w.stage ≠ 0 ∧ w.lwct < s.gt) →
        exec (.fence sc la) s = .next (s.issuedBy (.fence sc la))) ∧
      (s.accessing s.cur = true ∨ (2 ≤ sc.toNat ∧ w.stage ≠ 0 ∧ s.gt ≤ w.lwct) →
        exec (.fence sc la) s = .next s.hold)) ∧
    (passes s (.fencex .o2e la) = true → w.stage ≠ 0 →
      (s.accessing s.cur = false → s.holdsStores s.cur = false →
        exec (.fencex .o2e la) s = .next (s.issuedBy (.fencex .o2e la))) ∧
      (s.accessing s.cur = true → exec (.fencex .o2e la) s = .next s.hold) ∧
      (s.accessing s.cur = false → s.holdsStores s.cur = true →
        exec (.fencex .o2e la) s = .next ((s.checkInAll (coreOfWave s.cur) [s.cur]).hold))) ∧
    (passes s (.fencex .e2o la) = true →
      (w.stage = 0 → s.ewct = 0 ∨ s.ewct < s.gt → exec (.fencex .e2o la) s = .next (s.issuedBy (.fencex .e2o la))) ∧
      (w.stage ≠ 0 → w.arg = 0 ∨ w.arg < s.gt → exec (.fencex .e2o la) s = .next (s.issuedBy (.fencex .e2o la))) ∧
      (w.stage ≠ 0 → w.arg ≠ 0 → s.gt ≤ w.arg → exec (.fencex .e2o la) s = .next s.hold)) ∧
    (passes s (.wait n c la) = true →
      (w.countVal c ≤ n.val → exec (.wait n c la) s = .next (s.issuedBy (.wait n c la))) ∧
      (n.val < w.countVal c → exec (.wait n c la) s = .next s.hold)) ∧
    (∀ v, Sparse.find s.waves wave = some v →
      (v.status = .waiting ∧ v.stage ≠ 0 ∧ v.lwct < s.gt →
        exec (.fenceGtPass wave) s = .next (s.setWave wave { v with status := .ready })) ∧
      (v.status = .waiting → exec (.fillComplete wave) s = .next (s.setWave wave { v with status := .ready }))) ∧
    ∀ core slot, exec (.scoreboardSquash core slot) s = .next { s with cntsbm := Sparse.put s.cntsbm core (Sparse.get 0 s.cntsbm core + 1) }

/-- 02/R37, R39, R41, 12/R301, R302: XLB asks for the translation of a uniform address and without an active lane
invalidates its frame; XINV invalidates the wave's own frames of the page and its core's TLB entries, and knows what they
map, for whose accesses its completion waits; the end of a walk that found a leaf fills the TLBs of the cores that wait,
which then hold it; a walk whose tables lie in HBM that nothing serves goes on (21/R431). -/
def Obligations.Translation : Prop :=
  (∀ (s u : State) (a : Reg) (f : Low) (la : Ahead), Issues s (.xlb a f la) u →
    let w := u.curWave
    (w.lanes = [] → exec (.xlb a f la) s = .next (((u.issuedBy (.xlb a f la)).setCur
      ((u.issuedBy (.xlb a f la)).curWave.setFrame f { w.frame f with v := false })).emptyOp .m)) ∧
    (w.lanes ≠ [] → ∃ o, o.wave = u.cur ∧ o.kind = .xlb f.val ∧ o.count = some .m ∧ o.dst = [] ∧
      o.lanes = [{ lane := 0, va := w.v64 a w.uniform, phase := .xlate, data := [], cmp := [], key := none }] ∧
      exec (.xlb a f la) s = .next ((u.issuedBy (.xlb a f la)).startOp o))) ∧
  (∀ (s u : State) (a : Reg) (sc : Scope) (la : Ahead), Issues s (.xinv a sc la) u →
    let w := u.curWave
    let i : Instr := .xinv a sc la
    let va := w.v64 a w.uniform
    (w.lanes = [] → exec i s = .next ((u.issuedBy i).emptyOp .m)) ∧
    (w.lanes ≠ [] → ∃ t, exec i s = .next t ∧ t.mem = (u.issuedBy i).mem ∧ t.curWave.regs = w.regs ∧
      t.curWave.mq.length = w.mq.length + 1 ∧
      t.agenda = (u.issuedBy i).agenda ++ [.xinvComplete u.nextId] ∧
      (∃ o, Sparse.find t.ops u.nextId = some o ∧ o.wave = u.cur ∧
        o.kind = .xinv (if canonical va then ((u.issuedBy i).cleared sc u.cur w.ctx (pageOf va)).eraseDups else [])) ∧
      (canonical va = true → (∀ f, (t.curWave.frame f).maps (pageOf va) = false) ∧
        (sc ≠ .wave → ∀ es, (coreOfWave u.cur, es) ∈ t.l1tlb → ∀ e ∈ es, e.hits (u.asid w.ctx) (pageOf va) = false)))) ∧
  (∀ (s : State) (k : WalkKey), k ∈ s.walks →
    let s1 : State := { s with walks := s.walks.filter (· != k) }
    (∀ e at_ lvl, s1.walk (4 * k.cluster) k.ctx (sext57 (k.page * 65536)) = .leaf e at_ lvl →
      exec (.walkComplete k) s = .next (((s1.walkCores k).foldl
        (fun acc c => acc.tlbFill c (tlbOf k.asid k.page e at_ lvl)) s1).retryAll k.cluster true)) ∧
    (s1.walk (4 * k.cluster) k.ctx (sext57 (k.page * 65536)) = .held → exec (.walkComplete k) s = .next s) ∧
    ((∀ e at_ lvl, s1.walk (4 * k.cluster) k.ctx (sext57 (k.page * 65536)) ≠ .leaf e at_ lvl) →
      s1.walk (4 * k.cluster) k.ctx (sext57 (k.page * 65536)) ≠ .held →
      s1.stalled k.cluster = [] → s1.stalledSegs k.cluster = [] → exec (.walkComplete k) s = .next s1)) ∧
  ∀ (s : State) (c asid page at_ lvl : Nat) (e : Dword),
    (s.tlbFill c (tlbOf asid page e at_ lvl)).tlbLookup c asid page = some (tlbOf asid page e at_ lvl)

/-! ## Synchronisation -/

/-- 12/R309, R310, 04/R107, 13/R344: a barrier lets its waves through when the last of them has arrived; a superstep
swaps the halves of a gang's scratchpads; REORD leaves a lone wave's threads in the order of their keys. That BAR and SSTEP
execute whatever their LA holds is the model's reading (log 50). -/
def Obligations.Barriers : Prop :=
  (∀ (s : State) (b : Low) (la : Ahead) (g : Workgroup), passes s (.bar b la) = true → s.wg s.curWave.wg = some g →
    let w := s.curWave
    let old := g.bar b
    let all := 2 ^ g.waves.length - 1
    let last := (old.arrived ||| 2 ^ w.wid ||| g.departed) &&& all = all
    let with_ := fun (x : Barrier) => s.modWg w.wg (fun k => { k with
      bars := (List.range 8).map (fun i => if i = b.val then x else k.bar i) })
    (w.stage = 0 → last → exec (.bar b la) s = .next ((with_ { arrived := 0, phase := !old.phase }).issuedBy (.bar b la))) ∧
    (w.stage = 0 → ¬ last → exec (.bar b la) s = .next (((with_ { old with arrived := old.arrived ||| 2 ^ w.wid }).setCur
      { w with stage := 1, arg := if old.phase then 1 else 0 }).hold)) ∧
    (w.stage ≠ 0 → w.arg ≠ (if old.phase then 1 else 0) → exec (.bar b la) s = .next (s.issuedBy (.bar b la))) ∧
    (w.stage ≠ 0 → w.arg = (if old.phase then 1 else 0) → exec (.bar b la) s = .next s.hold)) ∧
  (∀ (s : State) (la : Ahead) (g : Workgroup), passes s (.sstep la) = true → s.wg s.curWave.wg = some g →
    let w := s.curWave
    let t := (s.modWg w.wg (fun k => { k with ssarr := k.ssarr ||| 2 ^ w.wid })).setCur
      { w with stage := 1, arg := if g.cur then 1 else 0 }
    (w.stage = 0 → t.swapReady g.gang = true → exec (.sstep la) s = .next ((t.swap g.gang).issuedBy (.sstep la))) ∧
    (w.stage = 0 → t.swapReady g.gang = false → exec (.sstep la) s = .next t.hold) ∧
    (w.stage ≠ 0 → s.swapReady g.gang = false → w.arg ≠ (if g.cur then 1 else 0) →
      exec (.sstep la) s = .next (s.issuedBy (.sstep la)))) ∧
  (∀ (s : State) (gang : Nat),
    (s.swapReady gang = true → exec (.sstepSwap gang) s = .next (s.swap gang)) ∧
    (s.swapReady gang = false → exec (.sstepSwap gang) s = .refused (.notEnabled "SSTEP_SWAP")) ∧
    (s.swap gang).mem = s.mem ∧ (s.swap gang).waves = s.waves ∧
    ∀ n k, s.wg n = some k → (s.swap gang).wg n =
      some (if k.gang = gang then { k with cur := !k.cur, ssarr := 0 } else k)) ∧
  ∀ (s : State) (d a : Reg) (g : Workgroup), passes s (.reord d a) = true → s.wg s.curWave.wg = some g →
    let w := s.curWave
    let here := (List.range w.width).filter (bitOf w.exm)
    let live := w.v64 a w.uniform
    s.curWave.stage = 0 → g.reord = [] → g.waves = [s.cur] →
    (∀ n, n < 64 → bitOf live n = true → w.lo ≤ w.wb + n ∧ w.wb + n < w.hi ∧ w.wb + n < w.stkmax) →
    w.wb ≤ w.hi →
    ∃ (t : State) (order : List Nat), exec (.reord d a) s = .next t ∧ order.Perm here ∧
      order.Pairwise (fun l m => (w.v d l).toNat < (w.v d m).toNat ∨ (w.v d l = w.v d m ∧ l < m)) ∧
      t.curWave.pc = w.pc + 4 ∧ t.mem = s.mem ∧
      ∀ i, i < here.length →
        t.curWave.tid.getD (here.getD i 0) 0 = w.tid.getD (order.getD i 0) 0 ∧
        ∀ n, n < 64 → bitOf live n = true →
          t.curWave.v n (here.getD i 0) = w.v n (order.getD i 0)

/-- 12/R312 to R315: what the four ring instructions do to a ring's slots and pointers, when they wait, and when they
trap. RNGW takes a FULL slot without a further wait for the engine's writes, which a slot has behind it when it is FULL (the
model's reading, log 94). -/
def Obligations.Rings : Prop :=
  (∀ (s u : State) (d a : Reg) (g : Low) (la : Ahead) (r : Ring), s.ring g = some r →
    let slot := fun n => r.slots.getD n RingSlot.free
    let j := (s.curWave.v a s.curWave.uniform).toNat % 8
    ((slot r.pp).state = .empty → r.waitA.head?.getD s.cur = s.cur → Issues s (.rnga d g la) u →
      ∃ t, exec (.rnga d g la) s = .next t ∧ t.mem = (u.issuedBy (.rnga d g la)).mem ∧
        Gets u t d 1 (fun _ => r.pp) ∧
        t.ring g = some { r with slots := r.slots.set r.pp { slot r.pp with state := .held, holder := some s.cur, fail := false },
                                 pp := (r.pp + 1) % r.ns, waitA := r.waitA.filter (· ≠ s.cur) }) ∧
    ((slot r.pp).state ≠ .empty ∨ r.waitA.head?.getD s.cur ≠ s.cur → passes s (.rnga d g la) = true →
      (r.waitA.contains s.cur = true → exec (.rnga d g la) s = .next s.hold) ∧
      (r.waitA.contains s.cur = false → exec (.rnga d g la) s =
        .next (s.modRing g (fun x => { x with waitA := x.waitA ++ [s.cur] })).hold)) ∧
    (j < r.ns → (slot j).state = .held → (slot j).holder = some s.cur → (slot j).cpyst = false →
      (IssuesAfter s (fun t => t.fencexPrep .o2e) (.rngc a g la) u →
        exec (.rngc a g la) s = .next ((u.issuedBy (.rngc a g la)).modRing g
          (fun x => x.setSlot j { x.slot j with state := .full, holder := none }))) ∧
      (∀ t, passes s (.rngc a g la) = true → s.fencexPrep .o2e = .wait t → exec (.rngc a g la) s = .next t.hold)) ∧
    ((slot r.cp).state = .full → r.waitW.head?.getD s.cur = s.cur → Issues s (.rngw d g la) u →
      ∃ t, exec (.rngw d g la) s = .next t ∧ t.mem = (u.issuedBy (.rngw d g la)).mem ∧
        Gets u t d 1 (fun _ => r.cp + if (slot r.cp).fail then 256 else 0) ∧
        t.ring g = some { r with slots := r.slots.set r.cp { slot r.cp with state := .taken, holder := some s.cur },
                                 cp := (r.cp + 1) % r.ns, waitW := r.waitW.filter (· ≠ s.cur) }) ∧
    ((slot r.cp).state ≠ .full ∨ r.waitW.head?.getD s.cur ≠ s.cur → passes s (.rngw d g la) = true →
      (r.waitW.contains s.cur = true → exec (.rngw d g la) s = .next s.hold) ∧
      (r.waitW.contains s.cur = false → exec (.rngw d g la) s =
        .next (s.modRing g (fun x => { x with waitW := x.waitW ++ [s.cur] })).hold)) ∧
    (j < r.ns → (slot j).state = .taken → (slot j).holder = some s.cur →
      (s.loading s.cur = false → Issues s (.rngf a g la) u →
        exec (.rngf a g la) s = .next ((u.issuedBy (.rngf a g la)).modRing g
          (fun x => x.setSlot j { x.slot j with state := .empty, holder := none }))) ∧
      (s.loading s.cur = true → passes s (.rngf a g la) = true → exec (.rngf a g la) s = .next s.hold)) ∧
    (∀ i, i = .rngc a g la ∨ i = .rngf a g la → passes s i = true → r.ns ≤ j →
      ∃ t, exec i s = .next t ∧ ParksBefore s t 7 (dw j) (misInfo 0x37 5)) ∧
    (passes s (.rngc a g la) = true → j < r.ns →
      ((slot j).state ≠ .held ∨ (slot j).holder ≠ some s.cur →
        ∃ t, exec (.rngc a g la) s = .next t ∧ ParksBefore s t 7 (dw j) (misInfo 0x37 1)) ∧
      ((slot j).state = .held → (slot j).holder = some s.cur → (slot j).cpyst = true →
        ∃ t, exec (.rngc a g la) s = .next t ∧ ParksBefore s t 7 (dw j) (misInfo 0x37 2))) ∧
    (passes s (.rngf a g la) = true → j < r.ns → (slot j).state ≠ .taken ∨ (slot j).holder ≠ some s.cur →
      ∃ t, exec (.rngf a g la) s = .next t ∧ ParksBefore s t 7 (dw j) (misInfo 0x37 4))) ∧
  ∀ (s : State) (d a : Reg) (g : Low) (la : Ahead) (i : Instr),
    i = .rnga d g la ∨ i = .rngc a g la ∨ i = .rngw d g la ∨ i = .rngf a g la → s.ring g = none → passes s i = true →
    ∃ t, exec i s = .next t ∧ ParksBefore s t 7 0 (misInfo 0x37 3)

/-! ## The matrix engine and its token (11) -/

/-- 11/R261, R264, R265, R274, R275: an octet instruction hands the engine one operation for each octet with an active lane,
with the rows, offsets and formats that its lanes and GMODE give; a tile instruction hands it one operation, and all
of them but ACCZ need an active lane. -/
def Obligations.MatrixOperations : Prop :=
  (∀ (s u : State) (d a : Reg) (z sel : Bool) (c : Fin 16) (la : Ahead) (i : Instr) (kind : MatKind)
     (tile xf ff : Nat) (b bs as : Option Nat),
     let zc := (if z then 16 else 0) + c.val
     (i, kind, tile, xf, ff, b, bs, as) ∈
       [(Instr.mma d a z c la, MatKind.mma, d.val, zc, 0, some (a.val + 1), none, none),
        (.mmas d a z c la, .mmas, d.val, zc, 0, some (a.val + 1), none, none),
        (.mmab d a z c la, .mmab, d.val, zc, 0, some (a.val + 1), some (a.val + 3), some (a.val + 2)),
        (.comp a c la, .comp, 0, c.val, 0, none, none, some (a.val + 1)),
        (.plnw a sel c la, .plnw, 0, c.val, if sel then 1 else 0, none, none, some (a.val + 1)),
        (.plnr a sel c la, .plnr, 0, c.val, if sel then 1 else 0, none, none, some (a.val + 1))] →
     IssuesAfter s State.matRoom i u →
     let w := u.curWave
     let core := coreOfWave u.cur
     let rows := fun o => (List.range 8).filter (fun j => w.active (8 * o + j))
     ∃ (t : State) (ops : List MatOp), exec i s = .next t ∧ t.mem = (u.issuedBy i).mem ∧ t.curWave.regs = w.regs ∧
       ops.map (·.oct) = (List.range (w.width / 8)).filter (fun o => rows o != []) ∧
       (∀ m ∈ ops, m.kind = kind ∧ m.tile = tile ∧ m.xf = xf ∧ m.ff = ff ∧ m.nextc = 0 ∧ m.wave = u.cur ∧ m.wg = w.wg ∧
         m.parked = false ∧ m.mxa = fld w.gmode 21 8 ∧ m.mxb = fld w.gmode 29 8 ∧ m.rowList = rows m.oct ∧
         (∀ j ∈ rows m.oct, m.aoff.getD j 0 = (w.v a (8 * m.oct + j)).toNat) ∧
         (∀ r, as = some r → ∀ j ∈ rows m.oct, m.asoff.getD j 0 = (w.v r (8 * m.oct + j)).toNat) ∧
         (∀ r j, b = some r → (rows m.oct).head? = some j → m.boff = (w.v r (8 * m.oct + j)).toNat) ∧
         (∀ r j, bs = some r → (rows m.oct).head? = some j → m.bsoff = (w.v r (8 * m.oct + j)).toNat)) ∧
       (ops ≠ [] → t.curWave.xq.length = w.xq.length + 1) ∧ (ops = [] → t = (u.issuedBy i).emptyOp .x) ∧
       ((∀ m ∈ ops, m.badRange (((u.wg w.wg).map (·.l)).getD 0) = none) →
         (t.engine core).ops = (u.engine core).ops ++ ops)) ∧
  (∀ (s u : State) (d a : Reg) (n : Fin 32) (la : Ahead) (i : Instr) (ok : MatOp → Prop),
     let w := u.curWave
     let core := coreOfWave u.cur
     (i = .accz d n la ∧ ok = (fun m => m.kind = .accz ∧ m.tile = d.val ∧ m.xf = n.val)) ∨
       (w.lanes ≠ [] ∧
         ((i = .accld d a la ∧ ok = (fun m => m.kind = .accld ∧ m.tile = d.val ∧ m.aoff = [(w.v a w.uniform).toNat])) ∨
          (i = .accst d a la ∧ ok = (fun m => m.kind = .accst ∧ m.tile = d.val ∧ m.aoff = [(w.v a w.uniform).toNat])) ∨
          (i = .accrd d a n la ∧ ok = (fun m => m.kind = .accrd ∧ m.tile = a.val ∧ m.xf = n.val ∧
             m.dst = w.wb + d.val ∧ m.vals.map (·.1) = w.lanes)) ∨
          (i = .accwr d a n la ∧ ok = (fun m => m.kind = .accwr ∧ m.tile = d.val ∧ m.xf = n.val ∧
             m.vals = w.lanes.map (fun l => (l, w.v a l)))))) →
     IssuesAfter s State.matRoom i u →
     ∃ (t : State) (m : MatOp), exec i s = .next t ∧ t.mem = (u.issuedBy i).mem ∧ t.curWave.regs = w.regs ∧ ok m ∧
       m.wave = u.cur ∧ m.oct = 15 ∧ m.nextc = 0 ∧ m.parked = false ∧ t.curWave.xq.length = w.xq.length + 1 ∧
       (m.badRange (((u.wg w.wg).map (·.l)).getD 0) = none → (t.engine core).ops = (u.engine core).ops ++ [m]))

/-- 11/R264, R269, R274, R275: what a pass of one operation alone does: to tiles, scratchpad and registers. -/
def Obligations.MatrixPasses : Prop :=
  ∀ (s : State) (core : Nat) (m : MatOp) (g : Workgroup), (s.engine core).stop = false → (s.engine core).group = [m] →
    (s.engine core).held = [] → (∀ x ∈ (s.engine core).ops, x.id = m.id → x = m) → s.poison = [] →
    (∀ e ∈ m.seen, e.2.2 = Mark.none) → s.wg m.wg = some g →
    let cell := fun (a t i j : Nat) => tileAddr core t i j ≤ a ∧ a < tileAddr core t i j + 4
    ((m.kind = .mma ∨ m.kind = .mmas ∨ m.kind = .mmab) → m.nextc < m.total →
      ∃ t, exec (.matrixPass core) s = .next t ∧
        (∀ j col, j ∈ m.rowList → col < 32 → t.tileGet core (m.tile + m.oct / 4) (8 * (m.oct % 4) + j) col =
          (fAdd f32 addEnv (if 16 ≤ m.xf ∧ m.nextc = 0 then 0
            else s.tileGet core (m.tile + m.oct / 4) (8 * (m.oct % 4) + j) col) (s.chunkSum m m.nextc j col)).1 % 2 ^ 32) ∧
        ∀ a, (∀ j col, j ∈ m.rowList → col < 32 → ¬ cell a (m.tile + m.oct / 4) (8 * (m.oct % 4) + j) col) →
          t.byte a = s.byte a) ∧
    (m.oct = 15 → m.nextc = 0 →
      ∃ t, exec (.matrixPass core) s = .next t ∧
        (m.kind = .accz →
          (∀ k i j, k ≤ m.xf → i < 32 → j < 32 → t.tileGet core (m.tile + k) i j = 0) ∧
          ∀ a, (∀ k i j, k ≤ m.xf → i < 32 → j < 32 → ¬ cell a (m.tile + k) i j) → t.byte a = s.byte a) ∧
        (m.kind = .accld →
          (∀ i j, i < 32 → j < 32 → t.tileGet core m.tile i j =
            ofBytes (s.matBytes m (m.aoff.getD 0 0 + 4 * (32 * i + j)) 4)) ∧
          ∀ a, (∀ i j, i < 32 → j < 32 → ¬ cell a m.tile i j) → t.byte a = s.byte a) ∧
        (m.kind = .accst → m.base = 0 ∨ m.base = g.s →
          let at_ := fun n => winBase g.core + m.at g (m.aoff.getD 0 0 + n)
          (∀ n, n < 4096 → t.byte (at_ n) = s.byte (tileAddr core m.tile 0 0 + n)) ∧
          ∀ a, (∀ n, n < 4096 → a ≠ at_ n) → t.byte a = s.byte a) ∧
        (m.kind = .accrd → t.mem = s.mem ∧
          (∀ v, Sparse.find s.waves m.wave = some v → v.status = .ready → holds v m.dst = true → ∀ l x,
            (l, x) ∈ m.vals → l < v.width →
            (t.wave m.wave).lreg m.dst l = wd (s.tileGet core m.tile (m.xf + l / 32) (l % 32)))) ∧
        (m.kind = .accwr → (m.vals.map (·.1)).Nodup →
          (∀ l x, (l, x) ∈ m.vals → t.tileGet core m.tile (m.xf + l / 32) (l % 32) = x.toNat) ∧
          ∀ a, (∀ l x, (l, x) ∈ m.vals → ¬ cell a m.tile (m.xf + l / 32) (l % 32)) → t.byte a = s.byte a))

/-- 11/R261, R262: the matrix token is taken when it is free and the wave's turn has come, and waited for else; released,
which does nothing in a wave without it; or passed to a live MATRIX wave of the workgroup. A pass without the token, or to
no such wave, parks; the fault address 0 of such a record is the model's choice (log 23). -/
def Obligations.MatrixToken : Prop :=
  ∀ (s u : State) (w : Fin 16) (la : Ahead),
    let e := s.engine (coreOfWave s.cur)
    let core := coreOfWave u.cur
    (e.token = some s.cur ∨ (e.token = none ∧ e.tokq.head?.getD s.cur = s.cur) → Issues s (.mxtokAcq la) u →
      exec (.mxtokAcq la) s = .next ((u.issuedBy (.mxtokAcq la)).setEngine core
        { u.engine core with token := some u.cur, tokq := (u.engine core).tokq.filter (· ≠ u.cur) })) ∧
    ((∃ x, e.token = some x ∧ x ≠ s.cur) ∨ (e.token = none ∧ e.tokq.head?.getD s.cur ≠ s.cur) →
      passes s (.mxtokAcq la) = true →
      (e.tokq.contains s.cur = false →
        exec (.mxtokAcq la) s = .next ((s.setEngine (coreOfWave s.cur) { e with tokq := e.tokq ++ [s.cur] }).hold)) ∧
      (e.tokq.contains s.cur = true → exec (.mxtokAcq la) s = .next s.hold)) ∧
    (e.token = some s.cur → Issues s (.mxtokRel la) u →
      exec (.mxtokRel la) s = .next ((u.issuedBy (.mxtokRel la)).setEngine core { u.engine core with token := none })) ∧
    (e.token ≠ some s.cur → Issues s (.mxtokRel la) u → exec (.mxtokRel la) s = .next (u.issuedBy (.mxtokRel la))) ∧
    (∀ x, e.token = some s.cur → s.passTarget w = some x → Issues s (.mxtokPass w la) u →
      exec (.mxtokPass w la) s =
        .next ((u.issuedBy (.mxtokPass w la)).setEngine core { u.engine core with token := some x })) ∧
    (passes s (.mxtokPass w la) = true →
      (e.token ≠ some s.cur → ∃ t, exec (.mxtokPass w la) s = .next t ∧ ParksBefore s t 4 0 (roleInfo 0x10)) ∧
      (e.token = some s.cur → s.passTarget w = none →
        ∃ t, exec (.mxtokPass w la) s = .next t ∧ ParksBefore s t 4 0 (roleInfo 0x11))) ∧
    ∀ x, s.passTarget w = some x ↔ ∃ g v, s.wg s.curWave.wg = some g ∧ g.waves[w.val]? = some x ∧
      Sparse.find s.waves x = some v ∧ v.role = .matrix ∧ v.retired = false

/-! ## Copies (05, 12) -/

/-- 05/R108 to R123, 12/R286, R306 to R308: a copy instruction whose operands pass its checks takes a free slot, the lowest
(the model's choice, log 124), with what its control registers give, and counts on C; where none is free it waits; without
an active lane it does nothing more than issue; one that fails a check parks before it issues. The bases that its
addresses start from are sign-extended (the model's reading, log 53). Segments are issued, retire when every sector has
landed, and park where one has not; the copy barrier's ARR rises by the bytes that landed. -/
def Obligations.Copies : Prop :=
  (∀ (s u : State) (d a : Reg) (f g : Low) (ch : Hint) (mask : BitVec 4) (la : Ahead) (i : Instr) (op : CopyOp)
     (bar fr to_ mk ring : Nat) (h : Hint),
     (i, op, bar, fr, to_, mk, ring, h) ∈
       [(Instr.cpy d a f ch la, CopyOp.cpy, d.val, f.val, 0, 0, 0, ch), (.cpymc d a f mask la, .cpymc, d.val, f.val, 0, mask.toNat, 0, .dflt),
        (.cpyst g a f ch la, .cpyst, 0, f.val, 0, 0, g.val, ch), (.cpyg d a f ch la, .cpyg, d.val, f.val, 0, 0, 0, ch),
        (.cpys d a la, .cpys, d.val, 0, 0, 0, 0, .dflt), (.cpyp d a f g ch la, .cpyp, d.val, f.val, g.val, 0, 0, ch),
        (.cpyq d a f g ch la, .cpyq, d.val, f.val, g.val, 0, 0, ch)] →
     let w := s.curWave
     let n := w.uniform
     let c0 := s.newCopy i op bar a fr to_ mk ring h
     let at_ := fun (x k : Nat) => sext57 (w.frame x).vbase + (w.v (a.val + k) n).signExtend 64
     (w.lanes = [] → Issues s i u → exec i s = .next (u.issuedBy i)) ∧
     (∀ cls fa fi, w.lanes ≠ [] → passes s i = true → s.copyCheck c0 = some (cls, fa, fi) →
       ∃ t, exec i s = .next t ∧ ParksBefore s t cls fa fi) ∧
     (w.lanes ≠ [] → passes s i = true → s.copyCheck c0 = none →
       (∀ k, k < 128 → (s.copyOf (Copy.key (coreOfWave s.cur) k)).isSome = true) → exec i s = .next s.hold) ∧
     (∀ slot, w.lanes ≠ [] → Issues s i u → s.storing s.cur = false → s.copyCheck c0 = none → s.freeSlot (coreOfWave s.cur) = some slot →
       ∃ c, exec i s = .next ((u.issuedBy i).takeCopy (coreOfWave s.cur) slot c) ∧ c.op = op ∧ c.wave = s.cur ∧
         c.shape = w.v64 a n ∧ c.pc = w.pc ∧ c.next = 0 ∧ c.segs = [] ∧
         c.src = (if op = .cpyg ∨ op = .cpys then dw (w.v (a.val + 2) n).toNat else at_ fr 2) ∧
         c.dst = (if op = .cpyg then at_ fr 3 else if op = .cpyp ∨ op = .cpyq then at_ to_ 3
           else dw (w.v (a.val + 3) n).toNat) ∧
         (op ≠ .cpymc → c.n = fld c.shape 52 12 * (16 * fld c.shape 40 12)) ∧
         (op ≠ .cpyst ∧ op ≠ .cpyq → c.bar = (w.v bar n).toNat) ∧
         (op = .cpyq → c.recVA = w.v64 bar n ∧ c.queue = w.v (bar + 2) n) ∧
         let t := (u.issuedBy i).takeCopy (coreOfWave s.cur) slot c
         (c.n ≠ 0 → s.curWave.status ≠ .draining → Sparse.find t.copies (Copy.key (coreOfWave s.cur) slot) = some c ∧
           t.curWave.cq.length = u.curWave.cq.length + 1 ∧ t.mem = (u.issuedBy i).mem ∧
           t.agenda = (u.issuedBy i).agenda ++ [.segmentIssue (coreOfWave s.cur)]))) ∧
  (∀ (s : State) (core copy k : Nat) (c : Copy) (x : Seg),
     let key := Copy.key core copy
     (∀ n, s.nextSeg core = some n → exec (.segmentIssue core) s = .next (s.issueSeg n)) ∧
     (s.nextSeg core = none → exec (.segmentIssue core) s = .next s) ∧
     (s.copyOf key = some c → s.segOf key k = some x → s.segSettled x = true →
       let n := c.bytesOf k (x.sectors.map (·.1))
       (∀ e ∈ x.sectors, e.2 = .landed) →
         exec (.segmentRetire core copy k) s = .next
           ((((s.modCopyOf key (fun y => { y with
                  segs := Sparse.erase y.segs k, tail := if k + 1 = c.nsegs then x.landB + n else y.tail })).barrierAdd c n 0
             (if x.prk then 2 ^ 32 - n % 2 ^ 32 else 0) 0).copyDone key).post (.segmentIssue core))) ∧
     (s.copyOf key = some c → s.segOf key k = some x → s.segSettled x = true →
       let good := (x.sectors.filter (fun e => decide (e.2 = .landed))).map (·.1)
       let bad := x.sectors.filter (fun e => decide (e.2 ≠ .landed))
       bad ≠ [] →
         ∃ t, exec (.segmentPark core copy k) s = .next t ∧ ∃ y, t.segOf key k = some y ∧ y.parked = true ∧
           y.sectors = bad ∧ y.prk = true ∧ y.landB = x.landB + c.bytesOf k good ∧
           ∃ r, t.agenda = s.agenda ++ [.recordWritten r, .segmentIssue core] ∧ r.kind = 3 ∧ r.unit = segUnit key k) ∧
     ∀ (w : Workgroup) (n : Nat), c.op.barred = true → c.op ≠ .cpymc → s.wg c.wg = some w → (s.engine w.core).ops = [] → (s.engine w.core).held = [] →
       (s.barrierAdd c n 0 0 0).readNat (w.pa false c.bar) 4 % 2 ^ 32 = (s.readNat (w.pa false c.bar) 4 + n) % 2 ^ 32)

/-! ## Tasks (12, 13, 14) -/

/-- 12/R317 to R319: an enqueue whose queue word and address are good begins the read of its record after what a fence
does; one whose are not parks with MISALIGN before it issues. 13/R320 to R323, R336, 14/R357, 21/R428, R429: a pushed
record, whoever pushes it, enters the pool of its die, or its queue when nothing is awaited, waits, is handed to the Tosor
links, or is refused, and its pusher hears of it: a wave goes on or parks, a copy ends or its last segment fails, an enqueue
window shows its end, a refused fault task takes its other route. A signal counts the oldest waiting copy of its source
down and readies it at zero; a die dispatches from its lowest-numbered queue that is not empty; a load's outcome is that
of every task that waits for it, and a load waits for memory that is not served. That a refused record of the device is
lost is the model's choice (log 79), as is that in OCHRE a push to another die than 0 waits (log 80) and that ENQD's count
keeps 16 bits (log 116). -/
def Obligations.TasksMove : Prop :=
  (∀ (s u : State) (a : Reg) (la : Ahead) (i : Instr) (count : Wave → Nat),
     (i = .enq a la ∧ count = fun _ => 0) ∨
       (i = .enqd a la ∧ count = fun w => (w.v (a.val + 3) w.uniform).toNat % 65536) →
     let w := s.curWave
     let q := w.v (a.val + 2) w.uniform
     let va := w.v64 a w.uniform
     (w.lanes = [] → Issues s i u → exec i s = .next (u.issuedBy i)) ∧
     (w.lanes ≠ [] → s.qwOk q = true → va.toNat % 64 = 0 →
       IssuesAfter s (fun t => t.fencePrep (if s.qwPkg q = s.pkg then 4 else 5)) i u →
       ∃ o, o.wave = u.cur ∧ o.kind = .record (u.curWave.v (a.val + 2) u.curWave.uniform) (count u.curWave) ∧ o.size = 64 ∧
         o.dst = [] ∧ o.count = none ∧
         o.lanes = [{ lane := u.curWave.uniform, va := u.curWave.v64 a u.curWave.uniform, phase := .xlate, data := [],
                      cmp := [], key := none }] ∧
         exec i s = .next ((u.issuedBy i).startOp o)) ∧
     (w.lanes ≠ [] → passes s i = true →
       (s.qwOk q = false → ∃ t, exec i s = .next t ∧ ParksBefore s t 7 va (enqInfo 1)) ∧
       (s.qwOk q = true → va.toNat % 64 ≠ 0 → ∃ t, exec i s = .next t ∧ ParksBefore s t 7 va (enqInfo 2)))) ∧
  ((∀ (s : State) (p : Push) (die : Nat), s.judge p = .accept die → s.stale p = false →
     ∃ (t : State) (k : Task), exec (.taskPush p) s = .next (t.pushed p) ∧ t.task s.nextId = some k ∧ k.die = die ∧ k.qw = p.qw ∧ k.src = p.src ∧
       k.count = p.count ∧ k.level = bits p.qw.toNat 0 4 ∧ (∀ n, 1 ≤ n → k.words.getD n 0 = p.words.getD n 0) ∧
       (p.count ≠ 0 → k.phase = .waiting ∧ Sparse.get [] t.pool die = Sparse.get [] s.pool die ++ [s.nextId]) ∧
       (p.count = 0 → p.failed = false → fld (p.words.getD 0 0) 31 1 = 0 → k.phase = .queued ∧
         Sparse.get [] t.queues (die * 16 + k.level) = Sparse.get [] s.queues (die * 16 + k.level) ++ [s.nextId] ∧
         t.agenda = s.agenda ++ [.taskDispatch die])) ∧
   (∀ (s : State) (p : Push),
     (s.judge p = .wait → s.stale p = false → exec (.taskPush p) s = .next { s with pushes := s.pushes ++ [p] }) ∧
     (s.judge p = .carry → s.stale p = false → exec (.taskPush p) s = .next
       { s with link := s.link ++ [{ work := .push p, die := p.die, pkg := s.qwPkg p.qw, since := s.gt }] }) ∧
     (∀ c, s.judge p = .refuse c → s.stale p = false → exec (.taskPush p) s = .next (s.unpushed p 7 (enqInfo c) c)) ∧
     (s.judge p = .lost → s.stale p = false →
       exec (.taskPush p) s = .next (s.unpushed p 12 (linkInfo 2 (s.qwPkg p.qw) 1) 5)) ∧
     (s.stale p = true → exec (.taskPush p) s = .next s) ∧
     (s.qwOk p.qw = false → s.judge p = .refuse 1) ∧
     let die := qwDie p.qw p.die
     (s.qwOk p.qw = true → s.qwPkg p.qw = s.pkg → (∀ d n, p.by_ ≠ .window d n) → (∀ n, p.by_ ≠ .peer n) →
       (s.mode = .ochre → die ≠ 0 → s.judge p = .wait) ∧
       (s.dieServes die = true → ∀ c, s.refuses p die true = some c → s.judge p = .refuse c) ∧
       (s.dieServes die = true → s.refuses p die true = none →
         (s.poolSize die ≤ s.poolUsed die → s.judge p = .wait) ∧
         (s.poolUsed die < s.poolSize die → s.judge p = .accept die)))) ∧
   (∀ (s : State) (p : Push) (cls code : Nat) (info : Dword),
     (∀ id n o, p.by_ = .wave id → s.pushOp id = some (n, o) →
       s.pushed p = s.dropOp n id ∧
       ((s.wave id).retired = true → s.unpushed p cls info code = s.dropOp n id) ∧
       ((s.wave id).retired = false → ∃ r, ((s.unpushed p cls info code).wave id).status = .parked ∧
         (s.unpushed p cls info code).agenda = (s.dropOp n id).agenda ++ [.recordWritten r] ∧ r.kind = 1 ∧ r.unit = id ∧
         r.cls = cls ∧ Sparse.get 0 r.words 2 = o.pc ∧ Sparse.get 0 r.words 7 = p.src ∧ Sparse.get 0 r.words 8 = info)) ∧
     (∀ core slot c, p.by_ = .copy core slot → s.copyOf (Copy.key core slot) = some c →
       (s.pushed p).copyOf (Copy.key core slot) = none ∧
       ∀ g, s.segOf (Copy.key core slot) (c.nsegs - 1) = some g → (s.unpushed p cls info code).segOf (Copy.key core slot) (c.nsegs - 1) =
         some { g with push := 1, sectors := Sparse.update g.sectors 0 (fun _ => .fail cls info p.src none) }) ∧
     (∀ die slot, p.by_ = .window die slot →
       let x := Sparse.get EnqSlot.empty s.windows (die * 16 + slot)
       s.pushed p = { s with windows := Sparse.put s.windows (die * 16 + slot) { x with state := 2, code := 0 } } ∧
       s.unpushed p cls info code = { s with windows := Sparse.put s.windows (die * 16 + slot) { x with state := 3, code := code } }) ∧
     (∀ die ix, p.by_ = .router die ix false → s.recLive (die * 4096 + ix) = true → s.recStatus (die * 4096 + ix) ≤ 3 →
       ∃ q, s.unpushed p cls info code = s.post (.taskPush q) ∧ q.by_ = .router die ix true) ∧
     (p.by_ = .device → s.pushed p = s ∧ s.unpushed p cls info code = s)) ∧
   (∀ (s : State) (g : Signal), g.task = 0 → s.gtLocked = true → g.pkg = s.pkg →
     let waiting := Sparse.get [] s.pool g.die
     let first := waiting.find? (fun t => ((s.task t).map (fun k => k.src == g.src)).getD false)
     (∀ t k, first = some t → s.task t = some k → 2 ≤ k.count →
       exec (.successorSignal g) s =
         .next (s.modTask t (fun x => { x with count := x.count - 1, failed := x.failed || g.failed }))) ∧
     (∀ t k, first = some t → s.task t = some k → k.count = 1 → k.failed = false → g.failed = false →
       ∃ v, exec (.successorSignal g) s = .next v ∧ v.task t = some { k with count := 0, phase := .queued } ∧
         Sparse.get [] v.pool g.die = waiting.filter (· ≠ t) ∧
         Sparse.get [] v.queues (k.die * 16 + k.level) = Sparse.get [] s.queues (k.die * 16 + k.level) ++ [t]) ∧
     (first = none → ∃ v, exec (.successorSignal g) s = .next v ∧
       v.csrGet 0xA0 g.die = dw (min ((s.csrGet 0xA0 g.die).toNat + 1) (2 ^ 32 - 1)))) ∧
   (∀ (s : State) (die h t : Nat) (rest : List Nat) (k : Task), s.dieServes die = true → s.flushing = none →
     Sparse.get [] s.kwaits die = [] → h < 16 → (∀ l, l < h → Sparse.get [] s.queues (die * 16 + l) = []) →
     Sparse.get [] s.queues (die * 16 + h) = t :: rest → (Sparse.get 0 s.dispatchN die + 1) % 32 ≠ 0 →
     s.task t = some k → k.nest < 2 → s.dealerLoad die < 16 →
     exec (.taskDispatch die) s =
       .next ((({ s with queues := Sparse.put s.queues (die * 16 + h) rest,
                         dispatchN := Sparse.put s.dispatchN die (Sparse.get 0 s.dispatchN die + 1) }
         ).dispatchTask t).retryPushes.post (.taskDispatch die))) ∧
   ∀ (s : State) (die task : Nat) (k : Task), s.task task = some k → k.phase = .loading → k.die = die →
     let lr := entryLr k.entry
     let all := (s.tasks.filter (fun (e : Nat × Task) => decide (e.2.phase = .loading) && entryLr e.2.entry == lr)).map (·.1)
     let dies := (die :: all.filterMap (fun t => (s.task t).map (·.die))).eraseDups
     (s.loadHeld lr = true → exec (.objectLoad die task) s = .next s) ∧
     (∀ e, s.loadHeld lr = false → (s.load lr).2 = .error e → exec (.objectLoad die task) s =
       .next ((all.foldl (fun (acc : State) t => acc.rejectTask t lr e.1 e.2) (s.load lr).1).postAll
         (dies.map Instr.taskDispatch))) ∧
     (∀ c, s.loadHeld lr = false → (s.load lr).2 = .ok c → exec (.objectLoad die task) s =
       .next ((all.foldl (fun (acc : State) t => acc.settleTask t c) ((s.load lr).1.useEntry c)).postAll
         (dies.map Instr.taskDispatch))))

/-- 14/R352, R357 to R361, 07/R160, 13/R336: workgroups are placed and retire, and a launch without successors is over
with its last workgroup; a segment that the Dealer takes leaves its wave none
and its span spilled, and of other waves nothing but A bits of frames changed; a task whose budget or deadline has run out stands still and
parks; an indigo run changes nothing but its own record. -/
def Obligations.WorkgroupsAndLimits : Prop :=
  (∀ (s u : State) (die t : Nat) (rest : List Nat), s.dieServes die = true → s.restoring die = [] →
    Sparse.get [] s.dealer die = t :: rest → s.tryLaunch t = some (u, []) →
    exec (.workgroupPlace die) s = .next (u.postAll [.workgroupPlace die, .taskDispatch die])) ∧
  (∀ (s : State) (g : Nat) (k : Workgroup), s.wg g = some k → s.quiet g k = true →
    (s.task k.task = none → exec (.workgroupRetire g) s = .next (s.freeGroup g k)) ∧
    (∀ t, s.task k.task = some t → t.kind = 1 → exec (.workgroupRetire g) s = .next (s.freeGroup g k)) ∧
    (s.freeGroup g k).wg g = none ∧ (s.task k.task = none → (s.freeGroup g k).mem = s.mem) ∧
    ∀ t, s.task k.task = some t →
      (2 ≤ t.live → (s.freeGroup g k).mem = s.mem ∧ (s.freeGroup g k).task k.task = some { t with live := t.live - 1 }) ∧
      (t.live = 1 → t.phase = .running → t.nwg ≤ t.nextWg → t.stop = false → t.nSucc = 0 → t.record = none →
        (s.freeGroup g k).task k.task = none)) ∧
  (∀ (s : State) (task : Nat) (k : Task) (i : Instr) (cls : Nat), s.task task = some k →
    k.phase = .placing ∨ k.phase = .running → k.stop = false →
    (i = .budgetExhausted task ∧ cls = 15 ∧ k.hasBudget = true ∧ k.budget = 0) ∨
      (i = .taskDeadline task ∧ cls = 16 ∧ k.deadline ≠ 0 ∧ k.deadline ≤ s.gt) →
    ∃ t, exec i s = .next t ∧ t.task task = some { k with cause := cls, stop := true } ∧ t.waves = s.waves ∧ t.mem = s.mem ∧
      ∃ r, t.agenda = s.agenda ++ [.recordWritten r] ∧ r.kind = 4 ∧ r.unit = task ∧ r.cls = cls ∧
        Sparse.get 0 r.words 7 = dw s.gt) ∧
  (∀ (s t : State) (id : Nat), s.takeSegment id = some t →
    (t.wave id).hasSeg = false ∧ (t.wave id).lo = (s.wave id).hi ∧ (t.wave id).hi = (s.wave id).hi ∧
    ∀ j, j ≠ id → t.wave j = { s.wave j with frames := (t.wave j).frames }) ∧
  (∀ (s : State) (wave op : Nat), s.mayRun wave = some op →
    ∃ r, exec (.indigoEntry wave) s = .next { s with indigo := Sparse.put s.indigo wave r } ∧ r.live = true ∧ r.op = op ∧
      r.run = 0 ∧ r.copy.pc = (s.wave wave).pc ∧ r.copy.regs = (s.wave wave).regs) ∧
  ∀ (s : State) (wave : Nat) (r : Indigo), Sparse.find s.indigo wave = some r → r.live = true → s.runOver wave r = true →
    ∃ x, exec (.indigoExit wave) s = .next { s with indigo := x } ∧ ∀ y, Sparse.find x wave = some y → y.live = false

/-! ## Records and endings (13) -/

/-- 13/R330 to R332: what a handler reads and writes of a record of its own package and of the vector registers, masks and
frames of the parked wave that it stands for, lane by lane in ascending order, its frame, and the traps of a bad handle. -/
def Obligations.RecordInstructions : Prop :=
  ∀ (s u : State) (d a : Reg),
    let h := s.handle a
    let x := handleRec h
    s.isOwn h = true →
    let w := u.curWave
    let arg := fun l => (w.v (a.val + 1) l).toNat
    let offs := s.curWave.lanes.map (fun l => (s.curWave.v (a.val + 1) l).toNat)
    (s.recCheck h false false offs = none → Issues s (.prld d a) u →
      ∃ t, exec (.prld d a) s = .next t ∧ OnlyRegs u t (.prld d a) ∧ Gets u t d 2 (fun l => (u.recWord x (arg l)).toNat)) ∧
    (s.recCheck h true false offs = none → Issues s (.prst d a) u →
      ∃ t, exec (.prst d a) s = .next t ∧ t.waves = (u.issuedBy (.prst d a)).waves ∧ t.mem = (u.issuedBy (.prst d a)).mem ∧
        (∀ y o, y ≠ x → t.recWord y o = u.recWord y o) ∧
        (∀ o, (∀ l ∈ w.lanes, arg l / 8 ≠ o / 8) → t.recWord x o = u.recWord x o) ∧
        ∀ l ∈ w.lanes, (∀ m ∈ w.lanes, l < m → arg m ≠ arg l) →
          let m := prstBits (fld (u.recWord x 0) 60 4) (arg l)
          let keep := if (arg l = 0x20 ∨ arg l = 0x28) ∧ fld (u.recWord x 0) 1 1 = 0 then m &&& 0xFFFFFFFF else m
          t.recWord x (arg l) = (w.v64 d l &&& keep) ||| (u.recWord x (arg l) &&& ~~~ keep)) ∧
    (∀ r, s.recCheck h false true [] = none → s.recStatus x ≤ 3 → Sparse.find s.records x = some r →
      IssuesAfter s (fun t => t.selPrep (.prreg d a) h a .load false) (.prreg d a) u →
      let p := u.wave r.unit
      (∀ l ∈ w.lanes, selKind (arg l) = 0 → p.lo ≤ p.wb + selNum (arg l)) →
      ∃ t, exec (.prreg d a) s = .next t ∧ OnlyRegs u t (.prreg d a) ∧ Gets u t d 2 (fun l =>
        let sel := arg l
        let n := p.wb + selNum sel
        if selKind sel = 0 then (p.lreg n (sel % p.width)).toNat + 2 ^ 32 * (p.lreg (n + 1) (sel % p.width)).toNat
        else if selKind sel = 1 then (p.kread (selNum sel % 8)).toNat
        else if selKind sel = 2 ∧ sel % p.width % 4 ≠ 3 then
          bits (p.frame (selNum sel % 8)).toNat (64 * (sel % p.width % 4)) 64
        else 0)) ∧
    (∀ r, s.recCheck h true true [] = none → Sparse.find u.records x = some r → r.unit ≠ u.cur →
      (Sparse.find u.waves r.unit).isSome = true →
      IssuesAfter s (fun t => t.selPrep (.pwreg d a) h a .store true) (.pwreg d a) u →
      let p := u.wave r.unit
      let n := fun l => p.wb + selNum (arg l)
      let at_ := fun l => arg l % p.width
      let k := fun l => selNum (arg l) % 8
      let pair := fun l => if selPair (arg l) = true then 2 else 1
      let cleared := fun l => selKind (arg l) = 2 ∧ at_ l % 4 = 0 ∧ fld (w.v64 d l) 0 1 = 0
      (∀ l ∈ w.lanes, selKind (arg l) = 0 → p.lo ≤ n l) →
      ∃ t, exec (.pwreg d a) s = .next t ∧ t.mem = (u.issuedBy (.pwreg d a)).mem ∧
        (∀ l ∈ w.lanes, ∀ i, selKind (arg l) = 0 → i < pair l → n l + i < p.hi → n l + i < p.stkmax →
          (∀ m ∈ w.lanes, l < m → selKind (arg m) = 0 → at_ m = at_ l → n l + i < n m ∨ n m + pair m ≤ n l + i) →
          (t.wave r.unit).lreg (n l + i) (at_ l) = wd (fld (w.v64 d l) (32 * i) 32)) ∧
        (∀ j m, m < p.width → (∀ l ∈ w.lanes, selKind (arg l) = 0 → at_ l = m → j < n l ∨ n l + pair l ≤ j) →
          (t.wave r.unit).lreg j m = p.lreg j m) ∧
        (∀ l ∈ w.lanes, selKind (arg l) = 1 → k l ≠ 0 → (∀ m ∈ w.lanes, l < m → selKind (arg m) = 1 → k m ≠ k l) →
          (t.wave r.unit).kread (k l) = p.cut (w.v64 d l)) ∧
        (∀ y, y = 0 ∨ (∀ l ∈ w.lanes, selKind (arg l) = 1 → k l ≠ y) → (t.wave r.unit).kread y = p.kread y) ∧
        (∀ l ∈ w.lanes, cleared l → (t.wave r.unit).frame (k l) = { p.frame (k l) with v := false }) ∧
        ∀ y, (∀ l ∈ w.lanes, cleared l → k l ≠ y) → (t.wave r.unit).frame y = p.frame y) ∧
    (∀ i lv wv os cls fa fi, (i, lv, wv, os) ∈ [(Instr.prld d a, false, false, offs), (.prst d a, true, false, offs),
        (.prreg d a, false, true, []), (.pwreg d a, true, true, []), (.presume a, true, false, []),
        (.pretry a, true, false, []), (.predir d a, true, false, []), (.pkill a, true, false, [])] →
      passes s i = true → s.recCheck h lv wv os = some (cls, fa, fi) →
      ∃ t, exec i s = .next t ∧ ParksBefore s t cls fa fi)

/-- 13/R333 to R337, R339, R343: endings, PRPLAY, SNAP and KREPL. -/
def Obligations.EndingsAndTriggers : Prop :=
  (∀ (s u : State) (d a : Reg) (i : Instr) (e : Wave → Ending),
    (i, e) ∈ [(Instr.presume a, fun _ => Ending.resume), (.pretry a, fun _ => .retry), (.pkill a, fun _ => .kill),
      (.predir d a, fun w => .redirect (w.v64 d w.uniform))] →
    let h := s.handle a
    s.isOwn h = true → u.isOwn h = true → s.recCheck h true false [] = none →
    IssuesAfter s (fun t => ((t.fencePrep 4).bind (fun v => v.linkPrep i h)).bind (fun v => v.againPrep h (e v.curWave))) i u →
    exec i s = .next ((u.issuedBy i).endUnit (handleRec h) (e u.curWave))) ∧
  (∀ (s : State) (x id : Nat) (pc : Dword) (b : Bool) (w : Wave), Sparse.find s.waves id = some w → w.status = .parked →
    ((s.continueAt x id pc b).wave id).status = .ready ∧ ((s.continueAt x id pc b).wave id).pc = pc) ∧
  (∀ (s u : State) (a : Reg), let h := s.handle a
    s.isOwn h = true → Issues s (.prplay a) u → s.reachable (bits h.toNat 19 13) = true →
    exec (.prplay a) s = .next ((u.issuedBy (.prplay a)).playCluster (bits h.toNat 17 2 * 32 + bits h.toNat 12 5))) ∧
  (∀ (s u : State) (b : Bool), Issues s (.snap b) u →
    exec (.snap b) s = .next ((u.issuedBy (.snap b)).snapTrigger 1 0)) ∧
  (∀ (s : State) (src bit : Nat), let c := s.csrGet 0x3C0 0
    (fld c 63 1 = 0 ∨ fld c bit 1 = 0 → s.snapTrigger src bit = s) ∧
    (fld c 63 1 = 1 → fld c bit 1 = 1 → (s.snapTrigger src bit).latchGT = s.gt ∧
      fld ((s.snapTrigger src bit).csrGet 0x3C0 0) 63 1 = 0 ∧ fld ((s.snapTrigger src bit).csrGet 0x3C0 0) 62 1 = 1)) ∧
  ∀ (s u : State) (d a : Reg), Issues s (.krepl d a) u →
    let w := u.curWave
    let q := (w.v (a.val + 2) w.uniform).toNat
    let n := bits q 16 8 * 4096 + bits q 0 12
    ∃ t, exec (.krepl d a) s = .next t ∧ t.mem = (u.issuedBy (.krepl d a)).mem ∧
      Gets u t d 2 (fun _ => (Sparse.get 0 u.kix n).toNat) ∧
      Sparse.get 0 t.kix n = w.v64 a w.uniform &&& 0xFFFFFFFFFFFFFFC1 ∧
      ∀ m, m ≠ n → Sparse.get 0 t.kix m = Sparse.get 0 u.kix m

/-- 13/R338, R340 to R342, 03/R62, R73: system registers read and written whole, bit by bit of those that software
writes; a number without a register traps; PTLD begins the read of its image; RGSET installs an entry whose lines have
drained and gives back the status of one that it refuses. -/
def Obligations.SystemRegisters : Prop :=
  (∀ (s u : State) (d a : Reg), csrCheck (s.handle a) = none → Issues s (.csrr d a) u →
    let n := csrNum (s.handle a)
    ∃ t, exec (.csrr d a) s = .next t ∧ Gets u t d 2 (fun _ =>
      ((u.issuedBy (.csrr d a)).csrRead n (csrIx (s.handle a))).toNat) ∧
      t.mem = (u.issuedBy (.csrr d a)).mem ∧ (n ≠ 0x3C4 → OnlyRegs u t (.csrr d a))) ∧
  (∀ (s u : State) (d a : Reg), csrCheck (s.handle a) = none → csrNum (s.handle a) ≠ 0x50 → Issues s (.csrw d a) u →
    exec (.csrw d a) s = .next ((u.issuedBy (.csrw d a)).writeCsr (csrNum (s.handle a)) (csrIx (s.handle a))
      (s.curWave.v64 d s.curWave.uniform) (some u.cur))) ∧
  (∀ (s u : State) (d a : Reg), csrCheck (s.handle a) = none → csrNum (s.handle a) = 0x50 → s.curWave.stage = 1 →
    s.flushing = none → Issues s (.csrw d a) u → exec (.csrw d a) s = .next (u.issuedBy (.csrw d a))) ∧
  (∀ (s : State) (d a : Reg) (i : Instr) (code : Nat), i = .csrr d a ∨ i = .csrw d a → passes s i = true →
    (csrInsts (bits (s.handle a).toNat 0 16) = none ∧ code = 1) ∨
      (∃ k, csrInsts (bits (s.handle a).toNat 0 16) = some k ∧ k ≠ 1 ∧ k ≤ bits (s.handle a).toNat 16 8 ∧ code = 2) →
    ∃ t, exec i s = .next t ∧ ParksBefore s t 7 (dw (bits (s.handle a).toNat 0 24)) (misInfo 0x3A code)) ∧
  (∀ (s : State) (num inst : Nat) (v : Dword) (by_ : Option Nat),
    num ∉ [0x40, 0x50, 0x70, 0x71, 0x80, 0xA0, 0x200, 0x201, 0x202, 0x380, 0x430] →
    (s.writeCsr num inst v by_).csrGet num inst = (v &&& dw (csrRw num)) |||
      (s.csrGet num inst &&& ~~~ dw (csrRw num) &&& ~~~ (v &&& dw (csrW1c num))) ∧
    ∀ m n, m * 256 + n ≠ num * 256 + inst → (s.writeCsr num inst v by_).csrGet m n = s.csrGet m n) ∧
  (∀ (s u : State) (d a : Reg) (n : Low), s.loadingTable = false → Issues s (.ptld d a n) u →
    let w := u.curWave
    ∃ o, o.wave = u.cur ∧ o.kind = .image n.val w.uniform ∧ o.dst = [w.wb + d.val] ∧ o.size = 1 ∧
      o.lanes.map (·.va) = (List.range 1032).map (fun i => w.v64 a w.uniform + dw i) ∧
      exec (.ptld d a n) s = .next ((u.issuedBy (.ptld d a n)).startOp o)) ∧
  ∀ (s u : State) (d a : Reg) (e : Fin 64),
    let i : Instr := .rgset d a e
    let w0 := s.curWave.v64 a s.curWave.uniform
    let w1 := s.curWave.v64 (a.val + 2) s.curWave.uniform
    (∀ st, s.curWave.stage = 0 → s.loadingTable = false → s.rangeBad w0 w1 = some st → Issues s i u →
      ∃ t, exec i s = .next t ∧ OnlyRegs u t i ∧ Gets u t d 1 (fun _ => st)) ∧
    (∀ x rest, s.curWave.stage = 1 → s.drains = x :: rest → x.done = true → Issues s i u →
      ∃ t, exec i s = .next t ∧ t.drains = rest ∧ t.ranges = u.ranges ∧ t.mem = (u.issuedBy i).mem ∧
        Gets u t d 1 (fun _ => if x.lost then 3 else 0)) ∧
    (s.startRange e.val w0 w1).ranges = Sparse.put s.ranges e.val (w0, w1)

/-- 13/R328, R342, 14/R359, R363, R364, R366, 02/R51, R52, R439: the events that write records, save contexts and migrate
pages. A save whose granules do not all find room writes those that do, and goes on later. What a request's reserved bits
and the low bits of its LEAFPA hold is not looked at (log 118), and a request in HBM that nothing serves waits (log 101). -/
def Obligations.SystemEvents : Prop :=
  (∀ (s : State) (p : ParkImage), Sparse.get [] s.detached p.die = [] →
    (s.standing p = false → exec (.recordWritten p) s = .next (s.passUnit (p.kind, p.unit))) ∧
    (∀ x, s.standing p = true → s.freeIndex p.die = some x → exec (.recordWritten p) s = .next (s.writeRecord x p)) ∧
    (s.standing p = true → s.freeIndex p.die = none → ∃ t, exec (.recordWritten p) s = .next t ∧
      Sparse.get [] t.detached p.die = [p] ∧ t.waves = s.waves ∧
      Sparse.get false t.recwait p.die = true)) ∧
  (∀ (s : State) (op : Nat) (lanes : List Nat) (cls : Nat) (info : Dword),
    exec (.lateFault op lanes cls info) s = .next (s.failLanes op lanes cls info)) ∧
  (∀ (s : State) (die index : Nat), let x := die * 4096 + index
    s.recLive x = true → s.recStatus x ≤ 3 → s.recWord x 0x68 ≠ 0 → (s.recWord x 0x68).toNat ≤ s.gt →
    exec (.parkedDeadline die index) s = .next (s.endUnit x .lapse)) ∧
  (∀ (s t : State) (die : Nat), s.finishSave die = some t →
    exec (.contextSaveComplete die) s = .next t ∧
    ∀ ctx, s.saving = [(die, ctx)] → let gs := s.groupsOf die ctx
      s.unchecked gs = false →
      (gs.all (fun e => (gs.foldl (fun (acc : State) e => acc.saveParts die e.1) s).partsWhole e.1) = true →
        fld (t.csrGet 0x200 die) 8 4 = 2 ∧ t.saving = []) ∧
      (gs.all (fun e => (gs.foldl (fun (acc : State) e => acc.saveParts die e.1) s).partsWhole e.1) = false →
        t = gs.foldl (fun (acc : State) e => acc.saveParts die e.1) s ∧ t.written ≠ s.written)) ∧
  (∀ (s : State) (die : Nat), s.failed / 2 ^ die % 2 = 0 → fld (s.csrGet 0x70 die) 0 1 = 1 →
    fld (s.csrGet 0x71 die) 0 8 ≠ fld (s.csrGet 0x71 die) 8 8 → (Sparse.get [] s.migs die).length < 16 →
    let p := s.csrGet 0x71 die
    let req := fld (s.csrGet 0x70 die) 13 39 * 8192 + 32 * fld p 0 8
    s.unserved req = false → s.unserved (s.newestNat (dieCore die) req 8 % 2 ^ 52 / 8 * 8) = false →
    exec (.migrationTake die) s = .next (((s.csrPut 0x71 die (setFld p 0 8 (fld p 0 8 + 1))).takeRequest die req).post
      (.migrationTake die))) ∧
  ∀ (s : State) (die id : Nat) (m : Migration), s.migration die id = some m →
    s.unservedPage m.source m.bytes = false → s.unservedPage m.dest m.bytes = false →
    (m.drained = false → s.hasDrained m = true → ∃ t, exec (.migrationDrained die id) s = .next t ∧ t.mem = s.mem ∧
      t.migration die id = some { m with drained := true } ∧
      t.agenda = s.agenda ++ [.migrationCopyDone die id (if s.badSource m then .badSource else .good)]) ∧
    (m.drained = true → m.waiters = [] → s.badSource m = true → ∃ t, exec (.migrationCopyDone die id .good) s = .next t ∧
      t.migration die id = none ∧ t.agenda = (((s.endLeaf die m m.source).getD s).migStatus die m.req 3).agenda ++ [.migrationTake die]) ∧
    (m.drained = true → m.waiters = [] → s.badSource m = false →
      let c := (copyLines die m.source m.dest (m.bytes / 128) s).dropFrame m
      let r := match c.endLeaf die m m.dest with
        | some t => (t.retagged m).migStatus die m.req 1
        | none => c.migStatus die m.req 2
      exec (.migrationCopyDone die id .good) s =
        .next (({ r with migs := Sparse.put r.migs die ((Sparse.get [] r.migs die).filter (fun x => x.id != id)) }).post
          (.migrationTake die)))

/-! ## Homes (03, 04) -/

/-- 03/R55 to R57, R60, 12/R297: an uncached access to a line of HBM that no slice holds is served at its home: a load sends
the line's bytes back, a store writes exactly its bytes, an atomic stores what its operator gives and sends the old
value back, a check-out is not granted. 03/R59, R70, R77, R79, R80: what the homes of present lines do: a request waits while
the line is transient, else its row is applied; a lease runs to GT plus 16 times the DUR of its class's LSCLS register, for a
page of class 2 (SC) at most 4,096, and raises LH, with the guard of a requester in another package; a check-in writes
only the bytes that differ from the twin; WBACK of a line that has left writes its bytes. The homes that do not hold
requests back (flushes, 04/R96; failed dies and memory that nothing serves, log 101) are meant, at which nothing waits and no
line stands beside its set for want of a way. That a check-in allocates no line is log 103. -/
def Obligations.LineProtocol : Prop :=
  (∀ (s : State) (r : HomeReq) (id : Nat), r.who = .op id → r.cc = 0 → r.cp = 3 → targetOf r.line = .hbm →
     let h := s.homeOf r.core r.line
     (∀ ev, s.holdsReq h ev r = false) → (s.slice h).wait = [] → (∀ l ∈ (s.slice h).lines, l.way ≠ 99) →
     s.inPool r.line = false → s.lineAt h r.line = none →
     let p := s.place r.line
     let u := s.modOp id (fun o => { o with missed := true })
     (∀ i, i = .rds r ∨ i = .rdnc r → ∃ y, exec i s = .next (u.post (.ackData y)) ∧ y.who = r.who ∧ y.lanes = r.lanes ∧
       y.line = r.line ∧ y.data = s.read p 128 ∧ y.keep = false) ∧
     (∀ i, i = .wr r ∨ i = .wrnc r → (r.bytes.map (·.1)).Nodup →
       ∃ t y, exec i s = .next t ∧ t.agenda = s.agenda ++ [.ack y] ∧ y.who = r.who ∧ y.lanes = r.lanes ∧ y.wct = s.gt ∧
         y.bare = false ∧ (∀ e ∈ r.bytes, t.byte (p + e.1) = e.2) ∧
         ∀ a, (∀ e ∈ r.bytes, a ≠ p + e.1) → t.byte a = s.byte a) ∧
     (∀ a off b, r.atom = some a → r.bytes = [(off, b)] → off + atomBytes a ≤ 128 →
       ∃ t y, exec (.atom r) s = .next t ∧ t.agenda = s.agenda ++ [.ackData y] ∧ y.who = r.who ∧ y.lanes = r.lanes ∧
         y.old = dw (s.readNat (p + off) (atomBytes a)) ∧ y.wct = s.gt ∧
         t.readNat (p + off) (atomBytes a) = atomEval a (s.readNat (p + off) (atomBytes a)) % 2 ^ (8 * atomBytes a) ∧
         ∀ x, (x < p + off ∨ p + off + atomBytes a ≤ x) → t.byte x = s.byte x) ∧
     ∃ y, exec (.ckout r) s = .next (u.post (.ack y)) ∧ y.bare = true ∧ y.who = r.who ∧ y.lanes = r.lanes) ∧
  ((∀ (s : State) (r : HomeReq) (ln : L2Line) (i : Instr) (ev : Nat),
     (i, ev) ∈ [(Instr.ckin r, 6), (.drop r, 7), (.wback r, 8)] → (∃ c, r.who = .cache c) → targetOf r.line = .hbm →
     let h := s.homeOf r.core r.line
     s.holdsReq h ev r = false → (s.slice h).wait = [] → (∀ l ∈ (s.slice h).lines, l.way ≠ 99) →
     s.lineAt h r.line = some ln → ln.table ≠ noTable →
     let out := fun (t : State) => if ev = 8 then t else t.wakeSlice h
     (ln.held.isSome = true ∨ s.isTransient ln = true →
       exec i s = .next (out (s.putLine h { ln with queue := ln.queue ++ [i] }))) ∧
     (ln.held = none → s.isTransient ln = false →
       let ln1 := s.fetchSectors ln (ln.valid ||| validFor ev r)
       let u := ((s.putLine h ln1).touchLine h r.line).recoded h r.line (ln.valid, s.lineData ln)
       exec i s = .next (out (match u.lineAt h r.line with
         | some l => u.serveFit h l ev i r
         | none => u)))) ∧
   (∀ (s : State) (r : HomeReq), (∃ c, r.who = .cache c) → targetOf r.line = .hbm →
     let h := s.homeOf r.core r.line
     s.holdsReq h 8 r = false → (s.slice h).wait = [] → (∀ l ∈ (s.slice h).lines, l.way ≠ 99) → r.cc = 1 →
     s.rangeOf r.line = none → s.lineAt h r.line = none → r.scope = none → (r.bytes.map (·.1)).Nodup →
     ∃ t, exec (.wback r) s = .next t ∧ (∀ e ∈ r.bytes, t.byte (s.place r.line + e.1) = e.2) ∧
       ∀ a, (∀ e ∈ r.bytes, a ≠ s.place r.line + e.1) → t.byte a = s.byte a) ∧
   (∀ (s : State) (h : Nat) (ln : L2Line) (bs : List (Nat × Byte)), ln.data = none → (bs.map (·.1)).Nodup → 2 ≤ ln.count →
     let t := (s.merge h ln bs).1
     let l := (s.merge h ln bs).2
     let twin := ln.twin.getD []
     l.count = ln.count - 1 ∧
     l.cf = (ln.cf || bs.any (fun e => decide (twin.getD e.1 0 ≠ e.2) && ln.changed.contains e.1)) ∧
     (∀ e ∈ bs, twin.getD e.1 0 ≠ e.2 → t.byte (s.place ln.line + e.1) = e.2) ∧
     ∀ a, (∀ e ∈ bs, twin.getD e.1 0 ≠ e.2 → a ≠ s.place ln.line + e.1) → t.byte a = s.byte a) ∧
   ∀ (s : State) (h : Nat) (ln : L2Line) (row : Dword) (r : HomeReq), acts row 1 = true → acts row 8 = false →
     acts row 9 = false → acts row 11 = false → acts row 12 = false →
     let a := s.actRow h ln row 0 r [] none
     let cls := if rowLease row = 0 then ln.lc else rowLease row - 1
     let len := 16 * fld (s.csrGet (0x30 + cls) 0) 0 16
     let guard := match r.who with
       | .peer _ _ => 40
       | _ => 0
     a.expiry = s.gt + (if r.cc = 2 then Nat.min len 4096 else len) ∧ a.ln.lh = max ln.lh (a.expiry + guard) ∧
       (s.inPool ln.line = false → a.s = s) ∧ (∀ c, r.who = .op c → acts row 2 = true → a.ln.owner = .core r.core))

/-- 03/R70, R78, R79: a check-out of a line that is present, by a row that saves a twin and sends the line under a lease
(in the TWIN image the row of each state), is granted where a twin slot is free: the answer carries the twin, made of
the line where none exists, and an expiry of GT plus the length of the row's lease class; the checkout count rises, LH
does not, and memory is as before. -/
def Obligations.CheckoutGranted : Prop :=
  ∀ (s : State) (r : HomeReq) (ln : L2Line) (id : Nat),
    let h := s.homeOf r.core r.line
    let row := s.tableRow ln.table ln.state 5
    let twin := ln.twin.getD (s.lineData ln)
    let cls := if rowLease row = 0 then ln.lc else rowLease row - 1
    r.who = .op id → r.cc = 1 → r.scope = none → targetOf r.line = .hbm → s.holdsReq h 5 r = false → s.inPool r.line = false →
    (s.slice h).wait = [] → (∀ l ∈ (s.slice h).lines, l.way ≠ 99) → s.lineAt h r.line = some ln → ln.held = none → s.isTransient ln = false → ln.way ≠ 98 →
    ln.table ≠ noTable → s.tableFor r = (ln.table, ln.lc) → ln.valid = 15 →
    rowMsg row = 3 → acts row 0 = true → acts row 1 = true → acts row 10 = true →
    (∀ k ∈ [4, 5, 6, 7, 8, 9, 11, 15], acts row k = false) →
    ln.twin.isSome = true ∨ ((s.slice h).lines.filter (fun l => l.twin.isSome)).length < 32 →
    ∃ t y l, exec (.ckout r) s = .next t ∧ t.agenda = s.agenda ++ [.dataC y] ∧ t.mem = s.mem ∧ y.who = r.who ∧
      y.lanes = r.lanes ∧ y.line = r.line ∧ y.data = twin ∧ y.expiry = s.gt + 16 * fld (s.csrGet (0x30 + cls) 0) 0 16 ∧
      t.lineAt h r.line = some l ∧ l.twin = some twin ∧ l.count = ln.count + 1 ∧ l.state = rowNext row ∧ l.lh = ln.lh

/-- 03/R56 to R58, R72, 06/R131 to R135, R140, 04/R95: answers reach who waits for them, and probes take copies away, each for
the home slice that it comes from. A store whose check-out is answered without a C copy is sent on as WR (log 114), and a
RECALL that meets a line given back already is answered with what was given back (log 115). -/
def Obligations.AnswersAndProbes : Prop :=
  (∀ (s : State) (y : Reply) (id j : Nat) (o : MemOp) (x : LaneOp) (w : Wave) (sg : Bool) (i : Instr),
    i = .dataS y ∨ i = .dataX y ∨ i = .ackData y → y.who = .op id → Sparse.find s.ops id = some o → o.kind = .load sg →
    o.lanes = [x] → x.phase = .sent → x.lane ∈ y.lanes → o.dst = [j] → o.size = 4 → o.resume = false →
    Sparse.find s.waves o.wave = some w → w.status = .ready → holds w j = true → x.lane < w.width → s.inPool y.line = false →
    s.inBacking w.ctx x.va = false → ∃ t, exec i s = .next t ∧ t.mem = s.mem ∧ Sparse.find t.ops id = none ∧
      ∀ n l, l < w.width → (t.wave o.wave).lreg n l =
        if n = j ∧ l = x.lane then wd (ofBytes ((y.data.drop (x.va.toNat % 128)).take 4)) else w.lreg n l) ∧
  (∀ (s : State) (y : Reply) (id : Nat) (o : MemOp) (w : Wave), y.who = .op id → Sparse.find s.ops id = some o →
    o.kind = .store → (∀ x ∈ o.lanes, x.away = true ∧ x.lane ∈ y.lanes ∧ x.writes ≠ some (y.line, true)) →
    o.resume = false → Sparse.find s.waves o.wave = some w → w.status = .ready →
    ∃ t, exec (.ack y) s = .next t ∧ t.mem = s.mem ∧ Sparse.find t.ops id = none ∧ (t.wave o.wave).regs = w.regs ∧
      (t.wave o.wave).lwct = max w.lwct y.wct) ∧
  (∀ (s : State) (y : Reply) (id : Nat) (o : MemOp), y.who = .op id → Sparse.find s.ops id = some o →
    (∃ x ∈ o.lanes, x.lane ∈ y.lanes ∧ x.writes = some (y.line, true)) →
    exec (.ack y) s = .next (s.uncheckedOut id y) ∧ exec (.ackData y) s = .next (s.uncheckedOut id y)) ∧
  (∀ (s : State) (y : Reply) (c : Nat), y.who = .cache c →
    ((s.copyAt y.core y.line).any (fun x => decide (x.kind = .x ∨ x.kind = .c)) = true → exec (.dataC y) s = .next s) ∧
    ((s.copyAt y.core y.line).any (fun x => decide (x.kind = .x ∨ x.kind = .c)) = false → ∃ t k, exec (.dataC y) s = .next t ∧ t.cacheOf y.core = k :: (s.cacheOf y.core).filter (fun x => x.line != y.line) ∧
      k.line = y.line ∧ k.kind = .c ∧ k.data = y.data ∧ k.expiry = y.expiry)) ∧
  (∀ (s : State) (core line : Nat),
    (∀ home, ∃ t, exec (.inv core line home) s = .next t ∧ t.agenda = s.agenda ++ [.iack core line home] ∧ t.mem = s.mem ∧
      t.cacheOf core = (if s.homeOf core line = home then
        (s.cacheOf core).filter (fun c => !(c.line == line && decide (c.kind = .l ∨ c.kind = .t))) else s.cacheOf core)) ∧
    (∀ home bytes, ∃ t, exec (.upd core line home bytes) s = .next t ∧ t.agenda = s.agenda ++ [.iack core line home] ∧
      t.mem = s.mem ∧ t.cacheOf core = (if s.homeOf core line = home then (s.cacheOf core).map (fun c => if c.line = line then
        c.store (bytes.filter (fun b => !(s.ownBytes core line true).contains b.1)) false 0 else c) else s.cacheOf core)) ∧
    (∀ c, (s.cacheOf core).find? (fun c => c.line == line && decide (c.kind = .x)) = some c →
      ∃ t ps, exec (.recall core line) s = .next t ∧ t.mem = s.mem ∧
        t.agenda = s.agenda ++ [.rcld core line (if c.dirty = [] then none else some c.data) ps] ∧
        t.cacheOf core = (s.cacheOf core).filter (fun c => !(c.line == line && decide (c.kind = .x)))) ∧
    ((s.cacheOf core).find? (fun c => c.line == line && decide (c.kind = .x)) = none →
      let g := s.takeGiven core line
      ((∀ r, g.2 = some r → r.bytes = []) → exec (.recall core line) s = .next (g.1.post (.rcld core line none []))) ∧
      ∀ r, g.2 = some r → r.bytes ≠ [] → exec (.recall core line) s = .next (g.1.post (.rcld core line
        (some (patch (((g.1.lineAt (g.1.homeOf core line) line).map g.1.lineData).getD []) r.bytes)) r.poison))) ∧
    ((∃ c ∈ s.cacheOf core, c.line = line ∧ c.kind = .l ∧ c.expiry ≤ s.gt) →
      ∃ t, exec (.lCopyExpiry core line) s = .next t ∧ t.mem = s.mem ∧ t.agenda = s.agenda ∧
        t.cacheOf core = (s.cacheOf core).filter (fun c => !(c.line == line && decide (c.kind = .l)))) ∧
    ((∀ c ∈ s.cacheOf core, c.line = line → c.kind ≠ .l ∨ s.gt < c.expiry) →
      exec (.lCopyExpiry core line) s = .refused (.notEnabled "L_COPY_EXPIRY")) ∧
    ∀ c, (s.cacheOf core).find? (fun c => c.line == line && decide (c.kind = .c) && decide (c.expiry ≤ s.gt)) = some c →
      exec (.cCopyExpiry core line) s = .next (s.checkIn core c [])) ∧
  (∀ (s : State) (core line h : Nat) (ln : L2Line) (hd : Held) (d : Option (List Byte)) (ps : List Nat) (pz : Bool),
    (s.splitOf h line (fun x => decide (x.acks > 0)) = some (ln, hd) →
      exec (.iack core line h) s = .next (s.complete h ln { hd with acks := hd.acks - 1 })) ∧
    (s.splitOf h line (fun x => decide (x.acks > 0)) = none →
      s.splitOf h line (fun x => decide (x.acks = 0) && !x.rcl && !x.host) = some (ln, hd) →
      exec (.iack core line h) s = .next (s.complete h ln hd)) ∧
    (h = s.homeOf core line → s.splitOf h line (fun x => x.rcl) = some (ln, hd) →
      exec (.rcld core line d ps) s = .next (s.complete h ln { hd with rcl := false, rdata := d, soiled := ps })) ∧
    (s.hostSplit line = some (h, ln, hd) →
      exec (.birsp line d pz) s = .next (s.complete h ln
        { hd with host := false, hdata := d, soiled := if pz then [0, 1, 2, 3] else [] }))) ∧
  (∀ (s : State) (h : Nat) (ln : L2Line) (hd : Held), hd.acks ≠ 0 ∨ hd.rcl = true ∨ hd.host = true →
    s.complete h ln hd = s.putLine h { ln with held := some hd }) ∧
  (∀ (s : State) (line h : Nat) (ln : L2Line), s.slices = [(h, { lines := [ln], ehz := 0, wait := [], claims := [] })] → ln.line = line →
    ln.held = none → s.isTransient ln = false → ln.lh ≤ s.gt → ln.way < 98 →
    ∃ t l, exec (.lhpass line) s = .next t ∧ t.lineAt h line = some l ∧ t.agenda = ln.queue ++ s.agenda ∧ t.mem = s.mem ∧
      l.state = (if s.baseOf ln = 1 then rowNext (s.tableRow ln.table ln.state 15) else ln.state)) ∧
  ∀ (s : State) (a : WindowAccess),
    let core := (a.pa - 0x10000000000) / 0x200000
    (2 ^ 52 ≤ a.pa → exec (.onchipWindowAccess a) s = .fault (.beyondMap a.pa)) ∧
    (a.pa < 2 ^ 52 → targetOf a.pa = .onchip → a.pa % 0x200000 < 0x1C0000 →
      (s.windowWaits a = false → exec (.onchipWindowAccess a) s = .next (s.windowPerform a)) ∧
      (s.windowWaits a = true → exec (.onchipWindowAccess a) s =
        .next (s.setEngine core { s.engine core with held := (s.engine core).held ++ [a] }))) ∧
    (a.who = .device → a.raw = true → a.atom = none → ∀ vs, vs ≠ [] → a.bytes = offBytes 0 vs →
      let q := winBase core + a.pa % 0x200000
      (∀ n, n < vs.length → (s.windowPerform a).byte (q + n) = vs.getD n 0) ∧
      ∀ x, (x < q ∨ q + vs.length ≤ x) → (s.windowPerform a).byte x = s.byte x)

/-! ## The host's ports (03/R88 to R91, 21) -/

/-- 03/R88 to R91, 21/R425, R431, 04/R95: host reads and writes reach their home, or the home of every partition, and wait for
HBM that nothing serves (log 101); a back-invalidation that conflicts is tried again and given up after the third; snoops
wait for LH, and answer with the line's data where it was written, or without where no home holds the line; a line of the
host window that has waited takes the host's answer, and without one its requester meets LINKTO. That SNPCUR is answered
at once, and that SNPDATA leaves the line in the L2, is log 110; that what the host sends in RESET is lost, log 121. -/
def Obligations.HostPort : Prop :=
  (∀ (s : State) (tag pa : Nat) (bytes : List (Nat × Byte)), targetOf pa = .hbm → (∀ e ∈ bytes, e.1 < 128) →
    s.power ≠ .d3cold →
    let r := hostReqOf tag pa []
    let w := hostReqOf tag pa bytes
    let h := s.homeOf 0 (lineOf pa)
    let sl := s.slice h
    (s.mode = .reset → exec (.hostrd tag pa) s = .next s ∧ exec (.hostwr tag pa bytes) s = .next s) ∧
    (s.mode ≠ .reset → s.unserved (lineOf pa) = false → exec (.hostrd tag pa) s = .next (s.hostHome 12 r) ∧
      exec (.hostwr tag pa bytes) s = .next (s.hostHome 13 w)) ∧
    (s.mode ≠ .reset → s.unserved (lineOf pa) = true →
      exec (.hostrd tag pa) s = .next (s.setSlice h { sl with wait := sl.wait ++ [.rds r] }) ∧
      exec (.hostwr tag pa bytes) s = .next (s.setSlice h { sl with wait := sl.wait ++ [.wr w] }))) ∧
  (∀ (s : State) (line h : Nat) (ln : L2Line) (hd : Held), s.hostSplit line = some (h, ln, hd) →
    (hd.tries ≠ 3 → exec (.biconflict line) s =
      .next (s.putLine h { ln with held := some { hd with tries := hd.tries + 1 } })) ∧
    (hd.tries = 3 → exec (.biconflict line) s = .next (s.abortSplit h ln hd)) ∧
    exec (.biTimeout line) s = .next (s.abortSplit h ln hd)) ∧
  (∀ (s : State) (tag pa : Nat), targetOf pa = .host →
    let ls := s.snooped (lineOf pa)
    let said := fun (y : Sent) (d : List Byte) => y.who = .host tag ∧ y.kind = .snoop ∧ y.line = lineOf pa ∧ y.data = d
    (∃ y, exec (.snpcur tag pa) s = .next { s with sent := s.sent ++ [y] } ∧
      said y (((ls.find? (fun x => x.2.valid != 0)).map (fun x => s.lineData x.2)).getD [])) ∧
    (∀ h ln, ls.find? (fun x => s.snoopWaits x.2) = some (h, ln) →
      exec (.snpinv tag pa) s = .next (s.putLine h { ln with queue := ln.queue ++ [.snpinv tag pa] }) ∧
      exec (.snpdata tag pa) s = .next (s.putLine h { ln with queue := ln.queue ++ [.snpdata tag pa] })) ∧
    (ls = [] → ∃ y, said y [] ∧ exec (.snpinv tag pa) s = .next { s with sent := s.sent ++ [y] } ∧
      exec (.snpdata tag pa) s = .next { s with sent := s.sent ++ [y] }) ∧
    ∀ h ln, ls = [(h, ln)] → s.snoopWaits ln = false →
      ∃ y, said y (if ln.dirty = true then s.lineData ln else []) ∧
        let t := { s with sent := s.sent ++ [y] }
        let u := if ln.dirty = true then t.writeAt (t.heldBytes ln) else t
        (ln.held = none → exec (.snpinv tag pa) s = .next (t.leaveLine h ln)) ∧
        (ln.held.isSome = true → exec (.snpinv tag pa) s =
          .next (u.putLine h { ln with valid := 0, hostOwn := false, dirty := false })) ∧
        exec (.snpdata tag pa) s = .next (u.putLine h { ln with hostOwn := false, dirty := false })) ∧
  ∀ (s : State) (line h : Nat) (ln : L2Line) (hd : Held), s.hostWait line = some (h, ln, hd) →
    (∀ d : List Byte, ln.way ≠ 98 → s.otherHalf line hd.hreq = none → ln.enc = s.encFor ln.wp 15 d → s.poison = [] →
      d.length = 128 → ∃ t, exec (.cxlCacheResponse line (some d) false) s = .next t ∧
        (∀ n, n < 128 → t.byte (s.place line + n) = d.getD n 0) ∧
        (∀ a, (a < s.place line ∨ s.place line + 128 ≤ a) → t.byte a = s.byte a) ∧
        t.agenda = eventOf hd.ev hd.hreq :: ln.queue ++ s.agenda) ∧
    (writesHalf hd.hreq = false →
      (ln.way = 98 ∨ ln.valid = 0 → exec (.hostportTimeout line) s =
        .next ((((s.dropLine h ln.line).wakeSlice h).postFront ln.queue).refuse hd.hreq 12 (fun _ => linkInfo 3 s.pkg 1))) ∧
      (ln.way ≠ 98 → ln.valid ≠ 0 → exec (.hostportTimeout line) s =
        .next (((s.putLine h { ln with held := none, queue := [] }).postFront ln.queue).refuse hd.hreq 12
          (fun _ => linkInfo 3 s.pkg 1))))

/-! ## Registers that the host writes, the mailbox, the windows (13, 15, 21) -/

/-- 13/R340 to R342, R363, R371, R381, 04/R96, 03/R81, 01/R17, 21/R426, R427: writes of system registers, by the host or as
events, and when a register's own rule refuses them; what the host reads of BAR0, ID0 and ID1 among it, also 4 bytes at an
odd multiple of 4. That a number of 2^32 and more stands for a read is the model's numbering (log 106), that what the host
writes in RESET is lost its choice (log 121). -/
def Obligations.RegisterWrites : Prop :=
  ∀ (s : State) (die num inst : Nat) (v : Dword) (by_ : Option Nat),
    (s.power ≠ .d3cold → s.mode = .reset → num < 2 ^ 32 → exec (.registerWrite num inst v) s = .next s) ∧
    (s.power ≠ .d3cold → s.mode ≠ .reset →
      (∀ n, csrInsts num = some n → inst < n → num ∉ [0x90, 0x91, 0x92] →
        exec (.registerWrite num inst v) s = .next (s.writeCsr num inst v none)) ∧
      (num < 0x20000 → csrInsts num = none → exec (.registerWrite num inst v) s = .next s) ∧
      ∀ off, off < 0x2000 → exec (.registerWrite (0x20000 + off) inst v) s = .next (s.mailWrite off v)) ∧
    (s.power ≠ .d3cold → ∀ off, ∃ t y, exec (.registerWrite (2 ^ 32 + off) inst v) s = .next t ∧ t.sent = s.sent ++ [y] ∧ y.kind = .register ∧
        y.line = off ∧ y.data = toBytes 8 (s.barRead off).toNat ∧ t.mem = s.mem ∧ t.waves = s.waves ∧
        (off = 0x10000 → y.data = toBytes 8 id0.toNat) ∧ (off = 0x10008 → y.data = toBytes 8 s.id1.toNat) ∧
        (off % 8 = 4 → off < 0x10000000 → y.data = toBytes 8 (fld (s.barRead (off - 4)) 32 32))) ∧
    (s.power = .d3cold → exec (.registerWrite num inst v) s = .refused (.notEnabled "REGISTER_WRITE")) ∧
    (∃ t, exec (.l2modeWrite v by_) s = .next t ∧
      (s.flushing.isSome = true ∨ s.busyBut by_ = true → t.mem = s.mem ∧ t.flushing = s.flushing ∧
        fld (t.csrGet 0x50 0) 4 4 = 2) ∧
      (s.flushing = none → s.busyBut by_ = false → s.caches = [] → t.flushing = some (fld v 0 1, false, by_) ∧
        fld (t.csrGet 0x50 0) 4 4 = 1)) ∧
    (∃ t, exec (.twlogClear die v) s = .next t ∧ (fld v 0 1 = 0 → t = s) ∧
      (fld v 0 1 = 1 → fld (t.csrGet 0x40 die) 0 1 = 0 ∧ fld (t.csrGet 0x40 die) 52 12 = 0)) ∧
    (∃ t, exec (.siglostClear die) s = .next t ∧ t.csrGet 0xA0 die = 0 ∧ t.mem = s.mem) ∧
    (∃ t, exec (.prbaseWrite die v) s = .next t ∧
      (s.records.any (fun (e : Nat × Record) => e.1 / 4096 == die) = true → t = s) ∧
      (s.records.any (fun (e : Nat × Record) => e.1 / 4096 == die) = false → fld v 0 1 = 0 →
        fld (t.csrGet 0x80 die) 0 1 = 0 ∧ fld (t.csrGet 0x80 die) 23 29 = fld v 23 29)) ∧
    (∃ t, exec (.mrbaseWrite die v) s = .next t ∧ fld (t.csrGet 0x70 die) 0 1 = fld v 0 1 ∧
      fld (t.csrGet 0x70 die) 13 39 = (if fld (s.csrGet 0x70 die) 0 1 = 1 then fld (s.csrGet 0x70 die) 13 39 else fld v 13 39) ∧
      t.agenda = s.agenda ++ [.migrationTake die]) ∧
    (∃ t, exec (.tqbaseWrite die v) s = .next t ∧ (s.poolUsed die ≠ 0 → t = s) ∧
      (s.poolUsed die = 0 → fld (t.csrGet 0x202 die) 16 36 = fld v 16 36 ∧ fld (t.csrGet 0x202 die) 0 1 = fld v 0 1)) ∧
    (∃ t, exec (.kcfgWrite die v) s = .next t ∧
      ((∃ i, i < 64 ∧ Sparse.get KState.free s.kitty (die * 64 + i) ≠ .free) →
        fld (t.csrGet 0x382 die) 32 1 = 1 ∧ t.csrGet 0x380 die = s.csrGet 0x380 die) ∧
      ((∀ i, i < 64 → Sparse.get KState.free s.kitty (die * 64 + i) = .free) → 2 ≤ fld v 8 8 → fld v 8 8 ≤ 64 →
        1 ≤ fld v 4 2 → fld v 4 2 ≤ 3 → 1 ≤ fld v 0 4 → fld v 0 4 ≤ 8 → fld (t.csrGet 0x380 die) 8 8 = fld v 8 8 ∧
          fld (t.csrGet 0x380 die) 4 2 = fld v 4 2 ∧ fld (t.csrGet 0x380 die) 0 4 = fld v 0 4)) ∧
    (∃ t, exec (.ctxbaseWrite die v) s = .next t ∧
      (1 ≤ s.preStatus die → s.preStatus die ≤ 3 → t = s) ∧
      (s.preStatus die = 0 → fld (t.csrGet 0x201 die) 24 28 = fld v 24 28 ∧ fld (t.csrGet 0x201 die) 0 8 = fld v 0 8)) ∧
    (∀ ctx, ctx < 256 →
      (∃ t, exec (.prectlSave die ctx) s = .next t ∧
        (s.preStatus die = 1 ∨ s.preStatus die = 3 → t.preStatus die = 4 ∧ t.barred = s.barred) ∧
        (s.preStatus die ≠ 1 → s.preStatus die ≠ 3 → t.preStatus die = 1 ∧ t.prectl die ctx = true)) ∧
      (s.saved.any (fun x => x.die == die && x.ctx == ctx) = false →
        ∃ t, exec (.prectlRestore die ctx) s = .next t ∧ t.preStatus die = 4 ∧ t.barred = s.barred) ∧
      (s.saved.any (fun x => x.die == die && x.ctx == ctx) = true → s.preStatus die ≠ 1 → s.preStatus die ≠ 3 →
        s.tasks = [] → ∃ t, exec (.prectlRestore die ctx) s = .next t ∧ t.preStatus die = 3 ∧ t.prectl die ctx = false))

/-- 21/R428, R430, R434 to R436, 15/R395, R396: the mailbox's commands, the enqueue windows, and the triggers of a snapshot.
The order in which a command is checked (the length, then the signature or the key's number, then the rest) is log 41, and
that a command is lost in RESET log 121. -/
def Obligations.HostCommands : Prop :=
  (∀ (s : State) (i : Instr) (cmd need : Nat), s.power ≠ .d3cold → s.mode ≠ .reset →
    (i, cmd, need) ∈ [(Instr.quote, 1, 32), (.advsvn, 2, 2424), (.revoke, 3, 2424), (.setkey, 4, 1316), (.idkey, 5, 0)] →
    (s.mailbox.inlen ≠ need → ∃ t, exec i s = .next t ∧ t.mailbox.state = 3 ∧ t.mailbox.status = 3 ∧ t.mailbox.output = [] ∧
      t.keys = s.keys ∧ t.revoked = s.revoked ∧ t.csr = s.csr ∧ t.mem = s.mem) ∧
    (s.mailbox.inlen = need → cmd = 1 ∨ cmd = 5 → ∃ t, exec i s = .next t ∧ t.mailbox.state = 2 ∧ t.mailbox.status = 0 ∧
      t.mailbox.outlen = t.mailbox.output.length ∧ t.keys = s.keys ∧ t.csr = s.csr ∧ t.mem = s.mem) ∧
    (s.mailbox.inlen = need → cmd = 2 ∨ cmd = 3 → s.mailSigned = false →
      ∃ t, exec i s = .next t ∧ t.mailbox.state = 3 ∧ t.mailbox.status = 1 ∧ t.keys = s.keys ∧ t.csr = s.csr) ∧
    let n := ofBytes (s.mailIn 0 4)
    (s.mailbox.inlen = need → cmd = 2 → s.mailSigned = true → n ≤ 63 →
      ∃ t, exec i s = .next t ∧ t.mailbox.state = 2 ∧ (s.fsvn < n → t.csrGet 0x420 0 = dw n) ∧
        (n ≤ s.fsvn → t.csr = s.csr)) ∧
    (s.mailbox.inlen = need → cmd = 3 → s.mailSigned = true → 1 ≤ n → n ≤ 3 → s.revoked.contains n = false →
      ∃ t, exec i s = .next t ∧ t.mailbox.state = 2 ∧ t.revoked = s.revoked ++ [n] ∧ Sparse.find t.keys n = none) ∧
    (s.mailbox.inlen = need → cmd = 4 → 1 ≤ n → n ≤ 3 → s.revoked.contains n = false → fused n (s.mailIn 4 1312) = true →
      ∃ t, exec i s = .next t ∧ t.mailbox.state = 2 ∧ Sparse.find t.keys n = some (s.mailIn 4 1312)) ∧
    (s.mailbox.inlen = need → cmd = 4 → n = 0 ∨ 3 < n ∨ s.revoked.contains n = true →
      ∃ t, exec i s = .next t ∧ t.mailbox.state = 3 ∧ t.mailbox.status = 5 ∧ t.keys = s.keys)) ∧
  (∀ (s : State) (die slot off : Nat) (v : Dword), s.power ≠ .d3cold → s.mode ≠ .reset → die ≤ 3 → slot ≤ 15 →
    let x := Sparse.get EnqSlot.empty s.windows (die * 16 + slot)
    (x.state = 1 → exec (.door die slot) s = .next s) ∧
    (x.state ≠ 1 → ∃ t p, exec (.door die slot) s = .next t ∧ t.agenda = s.agenda ++ [.taskPush p] ∧
      p.by_ = .window die slot ∧ p.words = x.words ∧ p.qw = x.qw ∧ p.count = x.dcnt % 65536 ∧ p.priv = true ∧
      (Sparse.get EnqSlot.empty t.windows (die * 16 + slot)).state = 1) ∧
    ∃ t, exec (.enqSlotFieldWrite die slot off v) s = .next t ∧ t.mem = s.mem ∧ t.agenda = s.agenda ∧
      let y := Sparse.get EnqSlot.empty t.windows (die * 16 + slot)
      (x.state = 1 → y = x) ∧
      (x.state ≠ 1 → off < 0x40 → off % 8 = 0 → y = { x with words := x.words.set (off / 8) v, state := 0 }) ∧
      (x.state ≠ 1 → off = 0x40 → y = { x with qw := wd v.toNat, state := 0 }) ∧
      (x.state ≠ 1 → off = 0x44 → y = { x with dcnt := fld v 0 16, state := 0 })) ∧
  (∀ s : State, s.power ≠ .d3cold → s.mode = .reset → ∀ i ∈ [Instr.quote, .advsvn, .revoke, .setkey, .idkey, .snaphost,
    .snapdataRead], exec i s = .next s) ∧
  ∀ (s : State), s.power ≠ .d3cold → s.mode ≠ .reset →
    exec .snaphost s = .next (s.snapTrigger 2 1) ∧
    (s.gtLocked = true → exec .snapPeerTrigger s = .next (s.snapTrigger 5 4)) ∧
    (s.gtLocked = false → exec .snapPeerTrigger s = .refused (.notEnabled "SNAP_PEER_TRIGGER")) ∧
    ((s.csrGet 0x3C1 0).toNat ≤ s.gt → exec .snapGtTrigger s = .next (s.snapTrigger 4 3)) ∧
    (s.gt < (s.csrGet 0x3C1 0).toNat → exec .snapGtTrigger s = .refused (.notEnabled "SNAP_GT_TRIGGER")) ∧
    ∃ t, exec .snapdataRead s = .next t ∧
      fld (t.csrGet 0x3C3 0) 0 16 = (fld (s.csrGet 0x3C3 0) 0 16 + 1) % 2 ^ 16 ∧
      fld (t.csrGet 0x3C3 0) 16 16 = fld (s.csrGet 0x3C3 0) 16 16

/-- 15/R392, 21/R429 to R433, R437, R438, 03/R62, 04/R96: bring-up, power, Tosor, the scan test, the scrubber and the ends of
flushes and drains. That RESET empties memory and keeps revocations and the package number is log 86 (a byte that nothing
has written reads as 0, log 4), that D3hot keeps all state log 87, that the scrubber's mark shows at once log 59; that the
firmware carries the slot-0 key and a signature log 13, that GT never goes back when it is locked log 3, and how traffic is
carried log 20. -/
def Obligations.PlatformEvents : Prop :=
  (∀ (s : State) (trip : Bool), ∃ t, exec (.reset trip) s = .next t ∧ t.mode = .reset ∧ t.power = .d0 ∧ t.mem = [] ∧
    t.waves = [] ∧ t.pkg = s.pkg ∧ t.revoked = s.revoked ∧ t.csrGet 0x420 0 = s.csrGet 0x420 0 ∧
    fld (t.csrGet 0x400 0) 9 1 = (if trip then 1 else 0)) ∧
  (∀ (s : State) (watts : Nat), let lim := fld (s.csrGet 0x402 0) 0 11
    exec .thermalTrip s = exec (.reset true) s ∧
    exec .thermalThrottle s = .next { s with hot := true } ∧ exec .thermalThrottleEnd s = .next { s with hot := false } ∧
    s.powerLimit = (if lim < 600 then 600 else if 1600 < lim then 1600 else lim) ∧
    (s.powerLimit < watts → exec (.powerOverLimit watts) s = .next { s with throttle := true } ∧
      exec (.powerBelowLimit watts) s = .refused (.notEnabled "POWER_BELOW_LIMIT")) ∧
    (watts < s.powerLimit → exec (.powerBelowLimit watts) s = .next { s with throttle := false }) ∧
    (watts ≤ s.powerLimit → exec (.powerOverLimit watts) s = .refused (.notEnabled "POWER_OVER_LIMIT")) ∧
    (s.power = .d0 → exec .d3hotEntry s = .next { s with power := .d3hot }) ∧
    (s.power ≠ .d0 → exec .d0Return s = .next { s with power := .d0 }) ∧
    (s.power ≠ .d3cold → ∃ t, exec .d3coldEntry s = .next t ∧ t.power = .d3cold ∧ t.mem = [] ∧ t.waves = []) ∧
    (s.mode = .reset → s.power = .d0 →
      (firmwareGood = true → ∃ t, exec .ochreEntry s = .next t ∧ t.mode = .ochre ∧ t.mem = s.mem ∧
        Sparse.find t.keys 0 = some firmwareKeyBytes ∧ fld (t.csrGet 0x80 0) 0 1 = 1 ∧ fld (t.csrGet 0x202 0) 0 1 = 1) ∧
      (firmwareGood = false → exec .ochreEntry s = .next s)) ∧
    (s.mode = .ochre → s.power = .d0 → s.slices = [] → s.pushes = [] →
      (∃ t, exec .fullEntry s = .next t ∧ t.mode = .full ∧ t.failed = 0 ∧ t.mem = s.mem) ∧
      ∀ bad, bad ≠ 0 → ∃ t, exec (.degradedEntry bad) s = .next t ∧ t.mode = .degraded ∧ t.failed = bad.toNat ∧ t.mem = s.mem) ∧
    (s.mode ≠ .ochre → exec .fullEntry s = .refused (.notEnabled "FULL_ENTRY"))) ∧
  (∀ (s : State) (port : Nat) (ok : Bool), let st := s.csrGet 0x400 0
    let x := Sparse.get (0, 0, 0) s.ports port
    let load := s.cargo port
    let good := { s with ports := Sparse.put s.ports port (x.1 + 1, x.2.1, 0) }
    port ≤ 7 → fld st port 1 = 1 →
    (ok = true → exec (.tosorFlit port ok) s =
      .next (load.foldl State.carry { good with link := s.link.filter (fun l => !load.contains l) })) ∧
    (ok = true → s.gtLocked = false → exec (.tosorFlit port ok) s = .next good) ∧
    (ok = false → x.2.2 < 8 →
      exec (.tosorFlit port ok) s = .next { s with ports := Sparse.put s.ports port (x.1, x.2.1 + 1, x.2.2 + 1) }) ∧
    (ok = false → 8 ≤ x.2.2 → ∃ t, exec (.tosorFlit port ok) s = .next t ∧ fld (t.csrGet 0x400 0) port 1 = 0 ∧
      t.link = s.link)) ∧
  (∀ (s : State) (w : TosorWait) (late : Link → Prop), (∀ l, late l ↔
      s.gt ≥ l.since + 1000 * max 1 (fld (s.csrGet 0x410 0) 0 32) ∨ (s.gtLocked = true ∧ s.routes l.die l.pkg = false)) →
    (∀ l ∈ s.link, l.awaited w = true → late l → exec (.tosorTimeout w) s =
      .next (s.loseLinks (s.link.filter (fun l => l.awaited w && s.overdue l)))) ∧
    ((∀ l ∈ s.link, l.awaited w = true → ¬ late l) →
      exec (.tosorTimeout w) s = .refused (.notEnabled "TOSOR_TIMEOUT"))) ∧
  (∀ s : State,
    (s.mode = .full ∨ s.mode = .degraded → s.slices = [] → s.pushes = [] → s.tasks = [] →
      ∃ t, exec .gtLockAcquired s = .next t ∧ t.gtLocked = true ∧ t.mem = s.mem ∧
        t.gt = (if fld (s.csrGet 0x410 0) 32 1 = 1 then s.gt else max s.gt (Config.rootTime s.ticks))) ∧
    (s.mode = .reset ∨ s.mode = .ochre → exec .gtLockAcquired s = .refused (.notEnabled "GT_LOCK_ACQUIRED")) ∧
    ∃ t, exec .gtLockLost s = .next t ∧ t.gtLocked = false ∧ t.mem = s.mem) ∧
  (∀ (s : State) (die : Nat) (v : Dword) (pass : Bool),
    (s.coreIn (128 * die + fld v 0 7) = true → Sparse.find s.scans die = none →
      ∃ t, exec (.scanTestStart die v) s = .next t ∧
        Sparse.find t.scans die = some { core := 128 * die + fld v 0 7, alevel := fld v 16 4, begun := false }) ∧
    (Sparse.find s.scans die ≠ none → ∃ t, exec (.scanTestStart die v) s = .next t ∧ t.scans = s.scans ∧
      fld (t.csrGet 0x430 die) 20 4 = 4) ∧
    (∀ x, Sparse.find s.scans die = some x → x.begun = false → s.wgs = [] → s.residents x.core = [] → s.guests = [] →
      exec (.scanPatternStart die) s = .next { s with scans := Sparse.put s.scans die { x with begun := true } }) ∧
    (∀ x, Sparse.find s.scans die = some x → x.begun = true →
      ∃ t, exec (.scanTestComplete die pass) s = .next t ∧ Sparse.find t.scans die = none ∧
        fld (t.csrGet 0x430 die) 20 4 = (if pass then 1 else 2) ∧
        t.cores = (if pass then s.cores else s.cores ++ [x.core])) ∧
    (die ≤ 3 → s.failed / 2 ^ die % 2 = 0 → fld (s.csrGet 0x3A0 die) 63 1 = 1 →
      let p := s.scrubAt die
      let bad := s.setMark p { origin := 5, addr := p }
      exec (.scrubSector die .clean) s = .next (s.scrubbed die p) ∧
      exec (.scrubSector die .correctable) s = .next ((s.logFault die 3 0 0 5 0 (dw p) 0).scrubbed die p) ∧
      ((s.mark p).origin ≠ 5 → exec (.scrubSector die .uncorrectable) s =
        .next ((bad.logFault die 4 0 0 5 0 (dw p) 0).scrubbed die p) ∧ (bad.mark p).origin = 5) ∧
      ((s.mark p).origin = 5 → exec (.scrubSector die .uncorrectable) s = .next (s.scrubbed die p)) ∧
      (s.badGranule p = none → s.scrubbed die p = s.scrubOn die ∧
        exec (.scrubSector die .tagMismatch) s = .refused (.notEnabled "SCRUB_SECTOR")) ∧
      ∀ g, s.badGranule p = some g → exec (.scrubSector die .tagMismatch) s = .next (s.scrubbed die p) ∧
        (fld (s.csrGet 0x390 die) 0 1 = 0 → ∀ i, i < 2048 →
          ((s.scrubbed die p).mark (s.place (g + 32 * i))).origin ≠ 0))) ∧
  (∀ s t : State, s.flushStep = some t → exec .l2FlushComplete s = .next t) ∧
  (∀ (s : State) (v : Nat) (lost : Bool) (by_ : Option Nat), s.flushing = some (v, lost, by_) → s.agenda = [] → s.slices = [] →
    v < 2 → ∃ t, exec .l2FlushComplete s = .next t ∧ t.flushing = none ∧ fld (t.csrGet 0x50 0) 0 1 = v ∧
      fld (t.csrGet 0x50 0) 4 4 = (if lost then 3 else 0)) ∧
  (∀ s t : State, s.drainStep = some t → exec .rgsetDrainComplete s = .next t) ∧
  ∀ (s : State) (d : RangeDrain) (rest : List RangeDrain), s.agenda = [] → s.drains = d :: rest → d.done = false →
    d.lines = [] → exec .rgsetDrainComplete s = .next { s with drains := { d with done := true } :: rest }

/-! ## The machine as a whole -/

/-- 21/R431, R437, 03/R59, R61, 04/R96, R100, 02/R23, R26, 13/R341, R342, 14/R363, R366, R371, R440, 15/R375, R381, R382,
R392, R394, R395, 16/R404: the values that the manual gives for reset, and that memory and its poison marks are in their
canonical form. That the enqueue windows are at STATE 0 is log 12, that no place holds a wave log 11. -/
def Obligations.ResetValues : Prop :=
  State.reset.mode = .reset ∧ memWf State.reset = true ∧ poisonWf State.reset = true ∧
  (∀ inst, State.reset.csrRead 0 inst = 0x4E59412801010004 ∧ State.reset.csrRead 1 inst = 0x80808080) ∧
  (∀ p ∈ [(0x30, 0x40), (0x31, 0x10), (0x32, 0x100), (0x33, 0x400), (0x34, 0x1000), (0x35, 0), (0x36, 0), (0x37, 0),
      (0x50, 0), (0x60, 0x88FFFF), (0x61, 0x88FFFF), (0x62, 0x88FFFF), (0x63, 0x88FFFF), (0x64, 0x88FFFF), (0x65, 0x88FFFF),
      (0x66, 0x88FFFF), (0x67, 0x88FFFF), (0x10, 0), (0x20, 0), (0x40, 0), (0x70, 0), (0x71, 0), (0xA0, 0), (0x200, 0),
      (0x201, 0), (0x202, 0), (0x204, 0x10000), (0x205, 0), (0x380, 0x1024), (0x381, 0xFFFF), (0x382, 0), (0x383, 0),
      (0x390, 0), (0x391, 0), (0x3A0, 0x15180), (0x3A1, 0), (0x3C0, 1), (0x3C1, 0), (0x400, 0), (0x401, 0x300000),
      (0x402, 1600), (0x410, 2000), (0x411, 0), (0x430, 0)],
    ∀ inst, inst < 256 → State.reset.csrRead p.1 inst = dw p.2) ∧
  (∀ die, die < 4 → fld (State.reset.csrRead 0x80 die) 0 1 = 0 ∧ fld (State.reset.csrRead 0x203 die) 0 4 = 1) ∧
  (∀ cls die, 1 ≤ cls → cls ≤ 22 → die < 4 →
    State.reset.csrRead (0x300 + 4 * cls) die = (if cls = 13 then 0x4200000000300000 else 0x1200000000300000) ∧
    State.reset.csrRead (0x300 + 4 * cls + 1) die = 0x0030000000010000 ∧
    State.reset.csrRead (0x300 + 4 * cls + 2) die = 0 ∧ State.reset.csrRead (0x300 + 4 * cls + 3) die = 0) ∧
  (∀ n, n < 4096 → State.reset.csrRead (0x1000 + n) 0 = 0) ∧
  (∀ a, rangeIn State.reset.ranges a = none) ∧ (∀ t, Sparse.find State.reset.tables t = none) ∧
  (∀ n, Sparse.get 0 State.reset.kix n = 0) ∧ (∀ id, (State.reset.wave id).status = .empty) ∧
  ∀ i, Sparse.get KState.free State.reset.kitty i = .free ∧ (Sparse.get EnqSlot.empty State.reset.windows i).state = 0

/-- Words that the manual's programs give, with the instruction that each stands for. -/
def Obligations.DecodeWords : Prop :=
  ∀ p ∈ [((0x0D150824 : Word), Instr.fadd 5 1 2 0 9), (0x4080420C, .fma 8 1 2 3 0),
      (0x114C1410, .fcmp .lt 3 0 5 0 4), (0x80106502, .ld 4 6 2 .b32 .dflt 2), (0xE5B00002, .br 3 .z 2),
      (0xCE000000, .exit), (0xD4000106, .setmf 1 6), (0x1B000401, .exmwr 1), (0xDF3820C0, .prreg 14 2),
      (0xBA001000, .rngf 1 0 0), (0xA9102110, .mma 4 2 true 1 0), (0xE0441201, .movh 4 0x41201), (0xC0104800, .addi 4 4 0x800),
      (0xCB000000, .callg 0), (0xE8040048, .call 0x40048)],
    decode p.1 = .ok p.2

/-- 14/R354, 02/R33, 03/R57, 09/R208: where a wave that may move is next (forced, or chosen by its slot) and has no access
of its own to see to, the step performs the instruction whose word it has fetched for its PC, with GT run on, and the
word is used up unless the instruction waits; a word that no encoding has is performed as such. Where it has fetched
none the step begins the fetch, whose answer brings the wave the word of its PC. That one move is made per step, in this order, is
log 2, that GT rises by 1 and a free amount log 3, that one word is fetched at issue and held log 19. -/
def Obligations.StepRunsDecoded : Prop :=
  (∀ (s : State) (id : Nat), let t := s.tick
    ∀ u : State, ((∃ rest, t.turns = .wave id :: rest ∧ u = { t with turns := rest }) ∨
        (t.turns = [] ∧ t.agenda = [] ∧ t.due = none ∧ t.dueWork = none ∧
          ((t.chooseWave = some (id, none) ∧ u = t) ∨
            ∃ ready, t.chooseWave = some (id, some ready) ∧ u = t.noteChoice id ready))) →
      u.canMove id = true → (u.wave id).hasSeg = true →
      let v := u.modLive id (fun w => match w.status with
        | .yielded _ => { w with status := .ready }
        | _ => w)
      v.lateOp id = none → v.ops.find? (fun e => e.2.wave == id && v.needsTry e.2) = none → v.liveRun id = none →
      v.mayRun id = none →
      (∀ x i, (v.wave id).fword = some ((v.wave id).pc, x) →
        decode x = .ok i ∨ (i = .unassignedWord x ∧ ∃ e, decode x = .error e) →
        (∀ w, exec i { v with cur := id } = .next w →
          step s = .next (w.modLive id (fun y => if y.status = .waiting then y else { y with fword := none }))) ∧
        ∀ r, exec i { v with cur := id } = r → (∀ w, r ≠ .next w) → step s = r) ∧
      ((v.wave id).fetched = none → step s = .next (v.startFetch id))) ∧
  (∀ (s : State) (y : Reply) (i : Instr) (id : Nat) (o : MemOp) (x : LaneOp) (w : Wave), i = .dataS y ∨ i = .ackData y →
    y.who = .op id → Sparse.find s.ops id = some o → o.kind = .fetch → o.lanes = [x] → x.phase = .sent →
    x.lane ∈ y.lanes → o.resume = false → o.size = 4 → Sparse.find s.waves o.wave = some w → w.status = .ready →
    s.inPool y.line = false → s.inBacking w.ctx x.va = false → ∃ t, exec i s = .next t ∧ t.mem = s.mem ∧
      (t.wave o.wave).fword = some (o.pc, wd (ofBytes ((y.data.drop (x.va.toNat % 128)).take 4)))) ∧
  (∀ (s : State) (core pa : Nat), s.caches = [] → s.slices = [] → targetOf pa ≠ .onchip → pa % 4 = 0 →
    s.fetchWord core pa = wd (ofBytes ((List.range 4).map (fun i => s.byte (s.place (pa + i)))))) ∧
  ∀ s : State, let t := s.tick
    t.gt = s.gt + 1 + Config.gtAdvance s.ticks ∧ t.mem = s.mem ∧ t.waves = s.waves ∧ t.turns = s.turns ∧ t.agenda = s.agenda

/-- No data ends a run: an instruction of a wave always leaves a next state, be it its effect, a wait or a trap, and so
does a word that no encoding has. -/
def Obligations.InstructionsGoOn : Prop :=
  (∀ (s : State) (i : Instr), i.isEvent = false → (∀ w, i ≠ .unassignedWord w) → ∃ t, exec i s = .next t) ∧
  ∀ (s : State) (w : Word) (e : Reject), decode w = .error e → ∃ t, exec (.unassignedWord w) s = .next t

/-- Every step keeps memory in its canonical form. -/
def Obligations.StepKeepsMemoryForm : Prop :=
  ∀ s t : State, memWf s = true → step s = .next t → memWf t = true
end

