-- ==== Sys2Proof/Laws/Memory.lean ====
section
/-! SUPPORT. Tables and memory: what a read gives after a write, and that every write keeps the canonical form. -/

namespace Sys2Proof.Machine

/-! ## Tables -/

theorem Sparse.get_put_same {α : Type} (d : α) (m : Sparse α) (k : Nat) (v : α) : Sparse.get d (Sparse.put m k v) k = v := by
  induction m with
  | nil => simp [Sparse.put, Sparse.get]
  | cons e r ih =>
    obtain ⟨k', v'⟩ := e
    simp only [Sparse.put]
    split
    · rename_i h
      simp [Sparse.get, Nat.ne_of_lt h, ih]
    · split <;> simp [Sparse.get]

theorem Sparse.get_put_other {α : Type} (d : α) (m : Sparse α) {k j : Nat} (v : α) (h : j ≠ k) :
    Sparse.get d (Sparse.put m k v) j = Sparse.get d m j := by
  induction m with
  | nil => simp [Sparse.put, Sparse.get, Ne.symm h]
  | cons e r ih =>
    obtain ⟨k', v'⟩ := e
    simp only [Sparse.put]
    split
    · simp [Sparse.get, ih]
    · split
      · rename_i h1 h2
        subst h2
        simp [Sparse.get, Ne.symm h]
      · simp [Sparse.get, Ne.symm h]

theorem Sparse.find_put_same {α : Type} (m : Sparse α) (k : Nat) (v : α) : Sparse.find (Sparse.put m k v) k = some v := by
  induction m with
  | nil => simp [Sparse.put, Sparse.find]
  | cons e r ih =>
    obtain ⟨k', v'⟩ := e
    simp only [Sparse.put]
    split
    · rename_i h
      simp [Sparse.find, Nat.ne_of_lt h, ih]
    · split <;> simp [Sparse.find]

theorem Sparse.find_put_other {α : Type} (m : Sparse α) {k j : Nat} (v : α) (h : j ≠ k) :
    Sparse.find (Sparse.put m k v) j = Sparse.find m j := by
  induction m with
  | nil => simp [Sparse.put, Sparse.find, Ne.symm h]
  | cons e r ih =>
    obtain ⟨k', v'⟩ := e
    simp only [Sparse.put]
    split
    · simp [Sparse.find, ih]
    · split
      · rename_i h1 h2
        subst h2
        simp [Sparse.find, Ne.symm h]
      · simp [Sparse.find, Ne.symm h]

theorem Sparse.get_eq_find {α : Type} (d : α) (m : Sparse α) (k : Nat) : Sparse.get d m k = (Sparse.find m k).getD d := by
  induction m with
  | nil => rfl
  | cons e r ih =>
    obtain ⟨k', v'⟩ := e
    simp only [Sparse.get, Sparse.find]
    split <;> simp [*]

theorem Sparse.get_update_other {α : Type} (d : α) (m : Sparse α) {k j : Nat} (f : α → α) (h : j ≠ k) :
    Sparse.get d (Sparse.update m k f) j = Sparse.get d m j := by
  unfold Sparse.update
  split
  · exact Sparse.get_put_other d m _ h
  · rfl

theorem Sparse.get_erase_other {α : Type} (d : α) (m : Sparse α) {k j : Nat} (h : j ≠ k) :
    Sparse.get d (Sparse.erase m k) j = Sparse.get d m j := by
  induction m with
  | nil => rfl
  | cons e r ih =>
    obtain ⟨k', v'⟩ := e
    simp only [Sparse.erase]
    split
    · rename_i h1
      subst h1
      simp [Sparse.get, Ne.symm h, ih]
    · simp [Sparse.get, ih]

theorem Sparse.get_erase_same {α : Type} (d : α) (m : Sparse α) (k : Nat) : Sparse.get d (Sparse.erase m k) k = d := by
  induction m with
  | nil => rfl
  | cons e r ih =>
    obtain ⟨k', v'⟩ := e
    simp only [Sparse.erase]
    split
    · exact ih
    · rename_i h1
      simp [Sparse.get, h1, ih]

theorem Sparse.get_set_same {α : Type} [DecidableEq α] (d : α) (m : Sparse α) (k : Nat) (v : α) :
    Sparse.get d (Sparse.set d m k v) k = v := by
  unfold Sparse.set
  split
  · rename_i h
    rw [Sparse.get_erase_same, h]
  · exact Sparse.get_put_same d m k v

theorem Sparse.get_set_other {α : Type} [DecidableEq α] (d : α) (m : Sparse α) {k j : Nat} (v : α) (h : j ≠ k) :
    Sparse.get d (Sparse.set d m k v) j = Sparse.get d m j := by
  unfold Sparse.set
  split
  · exact Sparse.get_erase_other d m h
  · exact Sparse.get_put_other d m v h

/-! ## The canonical form -/

theorem Sparse.wfFrom_mono {α : Type} [DecidableEq α] (d : α) {a b : Nat} (m : Sparse α) (h : a ≤ b) :
    Sparse.wfFrom d b m = true → Sparse.wfFrom d a m = true := by
  cases m with
  | nil => exact id
  | cons e r =>
    obtain ⟨k, v⟩ := e
    simp only [Sparse.wfFrom, Bool.and_eq_true, decide_eq_true_eq]
    rintro ⟨⟨h1, h2⟩, h3⟩
    exact ⟨⟨le_trans h h1, h2⟩, h3⟩

theorem Sparse.wfFrom_put {α : Type} [DecidableEq α] (d : α) (m : Sparse α) (a k : Nat) (v : α) (hk : a ≤ k) (hv : v ≠ d) :
    Sparse.wfFrom d a m = true → Sparse.wfFrom d a (Sparse.put m k v) = true := by
  induction m generalizing a with
  | nil => intro; simp [Sparse.put, Sparse.wfFrom, hk, hv]
  | cons e r ih =>
    obtain ⟨k', v'⟩ := e
    simp only [Sparse.put, Sparse.wfFrom, Bool.and_eq_true, decide_eq_true_eq]
    rintro ⟨⟨h1, h2⟩, h3⟩
    split
    · rename_i h4
      simp [Sparse.wfFrom, h1, h2, ih (k' + 1) h4 h3]
    · split
      · rename_i h4 h5
        subst h5
        simp [Sparse.wfFrom, hk, hv, h3]
      · have h6 : k + 1 ≤ k' := by omega
        simp [Sparse.wfFrom, hk, hv, h2, h3, h6]

theorem Sparse.wfFrom_filter {α : Type} [DecidableEq α] (d : α) (m : Sparse α) (a : Nat) (p : Nat × α → Bool) :
    Sparse.wfFrom d a m = true → Sparse.wfFrom d a (m.filter p) = true := by
  induction m generalizing a with
  | nil => exact id
  | cons e r ih =>
    obtain ⟨k, v⟩ := e
    simp only [Sparse.wfFrom, Bool.and_eq_true, decide_eq_true_eq]
    rintro ⟨⟨h1, h2⟩, h3⟩
    by_cases hp : p (k, v)
    · simp [hp, Sparse.wfFrom, h1, h2, ih (k + 1) h3]
    · simp only [List.filter_cons, hp]
      exact Sparse.wfFrom_mono d _ (by omega) (ih (k + 1) h3)

theorem Sparse.erase_eq_filter {α : Type} (m : Sparse α) (k : Nat) :
    Sparse.erase m k = m.filter (fun e => !decide (e.1 = k)) := by
  induction m with
  | nil => rfl
  | cons e r ih =>
    obtain ⟨k', v'⟩ := e
    by_cases h : k' = k <;> simp [Sparse.erase, h, ih]

theorem Sparse.wf_set {α : Type} [DecidableEq α] (d : α) (m : Sparse α) (k : Nat) (v : α) :
    Sparse.wf d m = true → Sparse.wf d (Sparse.set d m k v) = true := by
  intro h
  unfold Sparse.set
  split
  · rw [Sparse.erase_eq_filter]
    exact Sparse.wfFrom_filter d m 0 _ h
  · rename_i hv
    exact Sparse.wfFrom_put d m 0 k v (Nat.zero_le k) hv h

/-! ## Memory -/

theorem Memory.wf_filter {m : List Host.Cell} (p : Nat × Byte → Bool) (h : Memory.wf m = true) : Memory.wf (m.filter p) = true :=
  Sparse.wfFrom_filter 0 m 0 p h

theorem Memory.wf_put {m : List Host.Cell} (k : Nat) (v : Byte) (hv : v ≠ 0) (h : Memory.wf m = true) :
    Memory.wf (Sparse.put m k v) = true := Sparse.wfFrom_put 0 m 0 k v (Nat.zero_le k) hv h

/-- A byte stored keeps the canonical form. -/
theorem State.setByte_wf {s : State} (a : Nat) (b : Byte) (h : Memory.wf s.mem = true) : Memory.wf (s.setByte a b).mem = true :=
  Sparse.wf_set 0 s.mem a b h

/-- Bytes stored from an address up keep the canonical form. -/
theorem State.write_wf {s : State} (a : Nat) (bs : List Byte) (h : Memory.wf s.mem = true) : Memory.wf (s.write a bs).mem = true := by
  induction bs generalizing a s with
  | nil => exact h
  | cons b r ih => exact ih (a + 1) (State.setByte_wf a b h)

/-- Bytes stored at addresses keep the canonical form. -/
theorem State.writeAt_wf {s : State} (bs : List (Nat × Byte)) (h : Memory.wf s.mem = true) : Memory.wf (s.writeAt bs).mem = true := by
  induction bs generalizing s with
  | nil => exact h
  | cons e r ih => exact ih (State.setByte_wf e.1 e.2 h)

theorem State.writeNat_wf {s : State} (a n v : Nat) (h : Memory.wf s.mem = true) : Memory.wf (s.writeNat a n v).mem = true :=
  State.write_wf a (toBytes n v) h

theorem State.byte_setByte_same (s : State) (a : Nat) (b : Byte) : (s.setByte a b).byte a = b := Sparse.get_set_same 0 s.mem a b

theorem State.byte_setByte_other (s : State) {a c : Nat} (b : Byte) (h : c ≠ a) : (s.setByte a b).byte c = s.byte c :=
  Sparse.get_set_other 0 s.mem b h

/-- A store leaves every byte outside it as it was. -/
theorem State.byte_write_outside (s : State) (a : Nat) (bs : List Byte) (c : Nat) (h : c < a ∨ a + bs.length ≤ c) :
    (s.write a bs).byte c = s.byte c := by
  induction bs generalizing a s with
  | nil => rfl
  | cons b r ih =>
    have h1 : c < a + 1 ∨ a + 1 + r.length ≤ c := by
      simp only [List.length_cons] at h
      omega
    have h2 : c ≠ a := by
      simp only [List.length_cons] at h
      omega
    exact (ih (s.setByte a b) (a + 1) h1).trans (State.byte_setByte_other s b h2)

/-- A store gives each of its bytes. -/
theorem State.byte_write_inside (s : State) (a : Nat) (bs : List Byte) (i : Nat) (h : i < bs.length) :
    (s.write a bs).byte (a + i) = bs.getD i 0 := by
  induction bs generalizing a s i with
  | nil => simp at h
  | cons b r ih =>
    cases i with
    | zero =>
      refine (State.byte_write_outside (s.setByte a b) (a + 1) r a (by omega)).trans ?_
      simpa using State.byte_setByte_same s a b
    | succ j =>
      have hj : j < r.length := by simpa using h
      have := ih (s.setByte a b) (a + 1) j hj
      rw [show a + (j + 1) = a + 1 + j by omega, List.getD_cons_succ]
      exact this

/-- Bytes stored at addresses leave every other byte as it was. -/
theorem State.byte_writeAt_outside (s : State) (bs : List (Nat × Byte)) (c : Nat) (h : ∀ e ∈ bs, c ≠ e.1) :
    (s.writeAt bs).byte c = s.byte c := by
  induction bs generalizing s with
  | nil => rfl
  | cons e r ih =>
    exact (ih (s.setByte e.1 e.2) (fun x hx => h x (List.mem_cons_of_mem _ hx))).trans
      (State.byte_setByte_other s e.2 (h e (List.mem_cons_self ..)))

end Sys2Proof.Machine
end

