-- ==== Sys2Proof/Laws/State.lean ====
section
/-! SUPPORT. Every field of the state after every plain update of it. -/

set_option linter.all false

namespace Sys2Proof.Machine

/-! ## setWave -/

@[simp] theorem State.mode_setWave (s : State) (id : Nat) (w : Wave) : (s.setWave id w).mode = s.mode := rfl
@[simp] theorem State.power_setWave (s : State) (id : Nat) (w : Wave) : (s.setWave id w).power = s.power := rfl
@[simp] theorem State.failed_setWave (s : State) (id : Nat) (w : Wave) : (s.setWave id w).failed = s.failed := rfl
@[simp] theorem State.throttle_setWave (s : State) (id : Nat) (w : Wave) : (s.setWave id w).throttle = s.throttle := rfl
@[simp] theorem State.hot_setWave (s : State) (id : Nat) (w : Wave) : (s.setWave id w).hot = s.hot := rfl
@[simp] theorem State.gt_setWave (s : State) (id : Nat) (w : Wave) : (s.setWave id w).gt = s.gt := rfl
@[simp] theorem State.ticks_setWave (s : State) (id : Nat) (w : Wave) : (s.setWave id w).ticks = s.ticks := rfl
@[simp] theorem State.fresh_setWave (s : State) (id : Nat) (w : Wave) : (s.setWave id w).fresh = s.fresh := rfl
@[simp] theorem State.nextId_setWave (s : State) (id : Nat) (w : Wave) : (s.setWave id w).nextId = s.nextId := rfl
@[simp] theorem State.cur_setWave (s : State) (id : Nat) (w : Wave) : (s.setWave id w).cur = s.cur := rfl
@[simp] theorem State.slotTurn_setWave (s : State) (id : Nat) (w : Wave) : (s.setWave id w).slotTurn = s.slotTurn := rfl
@[simp] theorem State.slotPtr_setWave (s : State) (id : Nat) (w : Wave) : (s.setWave id w).slotPtr = s.slotPtr := rfl
@[simp] theorem State.turns_setWave (s : State) (id : Nat) (w : Wave) : (s.setWave id w).turns = s.turns := rfl
@[simp] theorem State.agenda_setWave (s : State) (id : Nat) (w : Wave) : (s.setWave id w).agenda = s.agenda := rfl
@[simp] theorem State.mem_setWave (s : State) (id : Nat) (w : Wave) : (s.setWave id w).mem = s.mem := rfl
@[simp] theorem State.poison_setWave (s : State) (id : Nat) (w : Wave) : (s.setWave id w).poison = s.poison := rfl
@[simp] theorem State.pkg_setWave (s : State) (id : Nat) (w : Wave) : (s.setWave id w).pkg = s.pkg := rfl
@[simp] theorem State.csr_setWave (s : State) (id : Nat) (w : Wave) : (s.setWave id w).csr = s.csr := rfl
@[simp] theorem State.cores_setWave (s : State) (id : Nat) (w : Wave) : (s.setWave id w).cores = s.cores := rfl
@[simp] theorem State.waves_setWave (s : State) (id : Nat) (w : Wave) : (s.setWave id w).waves = Sparse.put s.waves id w := rfl
@[simp] theorem State.wgs_setWave (s : State) (id : Nat) (w : Wave) : (s.setWave id w).wgs = s.wgs := rfl
@[simp] theorem State.tasks_setWave (s : State) (id : Nat) (w : Wave) : (s.setWave id w).tasks = s.tasks := rfl
@[simp] theorem State.queues_setWave (s : State) (id : Nat) (w : Wave) : (s.setWave id w).queues = s.queues := rfl
@[simp] theorem State.pool_setWave (s : State) (id : Nat) (w : Wave) : (s.setWave id w).pool = s.pool := rfl
@[simp] theorem State.kwaits_setWave (s : State) (id : Nat) (w : Wave) : (s.setWave id w).kwaits = s.kwaits := rfl
@[simp] theorem State.dealer_setWave (s : State) (id : Nat) (w : Wave) : (s.setWave id w).dealer = s.dealer := rfl
@[simp] theorem State.pointer_setWave (s : State) (id : Nat) (w : Wave) : (s.setWave id w).pointer = s.pointer := rfl
@[simp] theorem State.dispatchN_setWave (s : State) (id : Nat) (w : Wave) : (s.setWave id w).dispatchN = s.dispatchN := rfl
@[simp] theorem State.pushes_setWave (s : State) (id : Nat) (w : Wave) : (s.setWave id w).pushes = s.pushes := rfl
@[simp] theorem State.kitty_setWave (s : State) (id : Nat) (w : Wave) : (s.setWave id w).kitty = s.kitty := rfl
@[simp] theorem State.ops_setWave (s : State) (id : Nat) (w : Wave) : (s.setWave id w).ops = s.ops := rfl
@[simp] theorem State.l1tlb_setWave (s : State) (id : Nat) (w : Wave) : (s.setWave id w).l1tlb = s.l1tlb := rfl
@[simp] theorem State.l2tlb_setWave (s : State) (id : Nat) (w : Wave) : (s.setWave id w).l2tlb = s.l2tlb := rfl
@[simp] theorem State.walks_setWave (s : State) (id : Nat) (w : Wave) : (s.setWave id w).walks = s.walks := rfl
@[simp] theorem State.fb_setWave (s : State) (id : Nat) (w : Wave) : (s.setWave id w).fb = s.fb := rfl
@[simp] theorem State.dropped_setWave (s : State) (id : Nat) (w : Wave) : (s.setWave id w).dropped = s.dropped := rfl
@[simp] theorem State.migs_setWave (s : State) (id : Nat) (w : Wave) : (s.setWave id w).migs = s.migs := rfl
@[simp] theorem State.caches_setWave (s : State) (id : Nat) (w : Wave) : (s.setWave id w).caches = s.caches := rfl
@[simp] theorem State.copies_setWave (s : State) (id : Nat) (w : Wave) : (s.setWave id w).copies = s.copies := rfl
@[simp] theorem State.engines_setWave (s : State) (id : Nat) (w : Wave) : (s.setWave id w).engines = s.engines := rfl
@[simp] theorem State.slices_setWave (s : State) (id : Nat) (w : Wave) : (s.setWave id w).slices = s.slices := rfl
@[simp] theorem State.sent_setWave (s : State) (id : Nat) (w : Wave) : (s.setWave id w).sent = s.sent := rfl
@[simp] theorem State.tables_setWave (s : State) (id : Nat) (w : Wave) : (s.setWave id w).tables = s.tables := rfl
@[simp] theorem State.ranges_setWave (s : State) (id : Nat) (w : Wave) : (s.setWave id w).ranges = s.ranges := rfl
@[simp] theorem State.drains_setWave (s : State) (id : Nat) (w : Wave) : (s.setWave id w).drains = s.drains := rfl
@[simp] theorem State.records_setWave (s : State) (id : Nat) (w : Wave) : (s.setWave id w).records = s.records := rfl
@[simp] theorem State.detached_setWave (s : State) (id : Nat) (w : Wave) : (s.setWave id w).detached = s.detached := rfl
@[simp] theorem State.recwait_setWave (s : State) (id : Nat) (w : Wave) : (s.setWave id w).recwait = s.recwait := rfl
@[simp] theorem State.saved_setWave (s : State) (id : Nat) (w : Wave) : (s.setWave id w).saved = s.saved := rfl
@[simp] theorem State.saving_setWave (s : State) (id : Nat) (w : Wave) : (s.setWave id w).saving = s.saving := rfl
@[simp] theorem State.written_setWave (s : State) (id : Nat) (w : Wave) : (s.setWave id w).written = s.written := rfl
@[simp] theorem State.guests_setWave (s : State) (id : Nat) (w : Wave) : (s.setWave id w).guests = s.guests := rfl
@[simp] theorem State.barred_setWave (s : State) (id : Nat) (w : Wave) : (s.setWave id w).barred = s.barred := rfl
@[simp] theorem State.indigo_setWave (s : State) (id : Nat) (w : Wave) : (s.setWave id w).indigo = s.indigo := rfl
@[simp] theorem State.windows_setWave (s : State) (id : Nat) (w : Wave) : (s.setWave id w).windows = s.windows := rfl
@[simp] theorem State.mailbox_setWave (s : State) (id : Nat) (w : Wave) : (s.setWave id w).mailbox = s.mailbox := rfl
@[simp] theorem State.keys_setWave (s : State) (id : Nat) (w : Wave) : (s.setWave id w).keys = s.keys := rfl
@[simp] theorem State.revoked_setWave (s : State) (id : Nat) (w : Wave) : (s.setWave id w).revoked = s.revoked := rfl
@[simp] theorem State.kix_setWave (s : State) (id : Nat) (w : Wave) : (s.setWave id w).kix = s.kix := rfl
@[simp] theorem State.vcache_setWave (s : State) (id : Nat) (w : Wave) : (s.setWave id w).vcache = s.vcache := rfl
@[simp] theorem State.scans_setWave (s : State) (id : Nat) (w : Wave) : (s.setWave id w).scans = s.scans := rfl
@[simp] theorem State.flushing_setWave (s : State) (id : Nat) (w : Wave) : (s.setWave id w).flushing = s.flushing := rfl
@[simp] theorem State.latched_setWave (s : State) (id : Nat) (w : Wave) : (s.setWave id w).latched = s.latched := rfl
@[simp] theorem State.latchGT_setWave (s : State) (id : Nat) (w : Wave) : (s.setWave id w).latchGT = s.latchGT := rfl
@[simp] theorem State.cntuni_setWave (s : State) (id : Nat) (w : Wave) : (s.setWave id w).cntuni = s.cntuni := rfl
@[simp] theorem State.cntaff_setWave (s : State) (id : Nat) (w : Wave) : (s.setWave id w).cntaff = s.cntaff := rfl
@[simp] theorem State.ewct_setWave (s : State) (id : Nat) (w : Wave) : (s.setWave id w).ewct = s.ewct := rfl
@[simp] theorem State.encs_setWave (s : State) (id : Nat) (w : Wave) : (s.setWave id w).encs = s.encs := rfl
@[simp] theorem State.tagDiff_setWave (s : State) (id : Nat) (w : Wave) : (s.setWave id w).tagDiff = s.tagDiff := rfl
@[simp] theorem State.keyDraw_setWave (s : State) (id : Nat) (w : Wave) : (s.setWave id w).keyDraw = s.keyDraw := rfl
@[simp] theorem State.vacating_setWave (s : State) (id : Nat) (w : Wave) : (s.setWave id w).vacating = s.vacating := rfl
@[simp] theorem State.ports_setWave (s : State) (id : Nat) (w : Wave) : (s.setWave id w).ports = s.ports := rfl
@[simp] theorem State.link_setWave (s : State) (id : Nat) (w : Wave) : (s.setWave id w).link = s.link := rfl
@[simp] theorem State.cntsbm_setWave (s : State) (id : Nat) (w : Wave) : (s.setWave id w).cntsbm = s.cntsbm := rfl

/-! ## setCur -/

@[simp] theorem State.mode_setCur (s : State) (w : Wave) : (s.setCur w).mode = s.mode := rfl
@[simp] theorem State.power_setCur (s : State) (w : Wave) : (s.setCur w).power = s.power := rfl
@[simp] theorem State.failed_setCur (s : State) (w : Wave) : (s.setCur w).failed = s.failed := rfl
@[simp] theorem State.throttle_setCur (s : State) (w : Wave) : (s.setCur w).throttle = s.throttle := rfl
@[simp] theorem State.hot_setCur (s : State) (w : Wave) : (s.setCur w).hot = s.hot := rfl
@[simp] theorem State.gt_setCur (s : State) (w : Wave) : (s.setCur w).gt = s.gt := rfl
@[simp] theorem State.ticks_setCur (s : State) (w : Wave) : (s.setCur w).ticks = s.ticks := rfl
@[simp] theorem State.fresh_setCur (s : State) (w : Wave) : (s.setCur w).fresh = s.fresh := rfl
@[simp] theorem State.nextId_setCur (s : State) (w : Wave) : (s.setCur w).nextId = s.nextId := rfl
@[simp] theorem State.cur_setCur (s : State) (w : Wave) : (s.setCur w).cur = s.cur := rfl
@[simp] theorem State.slotTurn_setCur (s : State) (w : Wave) : (s.setCur w).slotTurn = s.slotTurn := rfl
@[simp] theorem State.slotPtr_setCur (s : State) (w : Wave) : (s.setCur w).slotPtr = s.slotPtr := rfl
@[simp] theorem State.turns_setCur (s : State) (w : Wave) : (s.setCur w).turns = s.turns := rfl
@[simp] theorem State.agenda_setCur (s : State) (w : Wave) : (s.setCur w).agenda = s.agenda := rfl
@[simp] theorem State.mem_setCur (s : State) (w : Wave) : (s.setCur w).mem = s.mem := rfl
@[simp] theorem State.poison_setCur (s : State) (w : Wave) : (s.setCur w).poison = s.poison := rfl
@[simp] theorem State.pkg_setCur (s : State) (w : Wave) : (s.setCur w).pkg = s.pkg := rfl
@[simp] theorem State.csr_setCur (s : State) (w : Wave) : (s.setCur w).csr = s.csr := rfl
@[simp] theorem State.cores_setCur (s : State) (w : Wave) : (s.setCur w).cores = s.cores := rfl
@[simp] theorem State.waves_setCur (s : State) (w : Wave) : (s.setCur w).waves = Sparse.put s.waves s.cur w := rfl
@[simp] theorem State.wgs_setCur (s : State) (w : Wave) : (s.setCur w).wgs = s.wgs := rfl
@[simp] theorem State.tasks_setCur (s : State) (w : Wave) : (s.setCur w).tasks = s.tasks := rfl
@[simp] theorem State.queues_setCur (s : State) (w : Wave) : (s.setCur w).queues = s.queues := rfl
@[simp] theorem State.pool_setCur (s : State) (w : Wave) : (s.setCur w).pool = s.pool := rfl
@[simp] theorem State.kwaits_setCur (s : State) (w : Wave) : (s.setCur w).kwaits = s.kwaits := rfl
@[simp] theorem State.dealer_setCur (s : State) (w : Wave) : (s.setCur w).dealer = s.dealer := rfl
@[simp] theorem State.pointer_setCur (s : State) (w : Wave) : (s.setCur w).pointer = s.pointer := rfl
@[simp] theorem State.dispatchN_setCur (s : State) (w : Wave) : (s.setCur w).dispatchN = s.dispatchN := rfl
@[simp] theorem State.pushes_setCur (s : State) (w : Wave) : (s.setCur w).pushes = s.pushes := rfl
@[simp] theorem State.kitty_setCur (s : State) (w : Wave) : (s.setCur w).kitty = s.kitty := rfl
@[simp] theorem State.ops_setCur (s : State) (w : Wave) : (s.setCur w).ops = s.ops := rfl
@[simp] theorem State.l1tlb_setCur (s : State) (w : Wave) : (s.setCur w).l1tlb = s.l1tlb := rfl
@[simp] theorem State.l2tlb_setCur (s : State) (w : Wave) : (s.setCur w).l2tlb = s.l2tlb := rfl
@[simp] theorem State.walks_setCur (s : State) (w : Wave) : (s.setCur w).walks = s.walks := rfl
@[simp] theorem State.fb_setCur (s : State) (w : Wave) : (s.setCur w).fb = s.fb := rfl
@[simp] theorem State.dropped_setCur (s : State) (w : Wave) : (s.setCur w).dropped = s.dropped := rfl
@[simp] theorem State.migs_setCur (s : State) (w : Wave) : (s.setCur w).migs = s.migs := rfl
@[simp] theorem State.caches_setCur (s : State) (w : Wave) : (s.setCur w).caches = s.caches := rfl
@[simp] theorem State.copies_setCur (s : State) (w : Wave) : (s.setCur w).copies = s.copies := rfl
@[simp] theorem State.engines_setCur (s : State) (w : Wave) : (s.setCur w).engines = s.engines := rfl
@[simp] theorem State.slices_setCur (s : State) (w : Wave) : (s.setCur w).slices = s.slices := rfl
@[simp] theorem State.sent_setCur (s : State) (w : Wave) : (s.setCur w).sent = s.sent := rfl
@[simp] theorem State.tables_setCur (s : State) (w : Wave) : (s.setCur w).tables = s.tables := rfl
@[simp] theorem State.ranges_setCur (s : State) (w : Wave) : (s.setCur w).ranges = s.ranges := rfl
@[simp] theorem State.drains_setCur (s : State) (w : Wave) : (s.setCur w).drains = s.drains := rfl
@[simp] theorem State.records_setCur (s : State) (w : Wave) : (s.setCur w).records = s.records := rfl
@[simp] theorem State.detached_setCur (s : State) (w : Wave) : (s.setCur w).detached = s.detached := rfl
@[simp] theorem State.recwait_setCur (s : State) (w : Wave) : (s.setCur w).recwait = s.recwait := rfl
@[simp] theorem State.saved_setCur (s : State) (w : Wave) : (s.setCur w).saved = s.saved := rfl
@[simp] theorem State.saving_setCur (s : State) (w : Wave) : (s.setCur w).saving = s.saving := rfl
@[simp] theorem State.written_setCur (s : State) (w : Wave) : (s.setCur w).written = s.written := rfl
@[simp] theorem State.guests_setCur (s : State) (w : Wave) : (s.setCur w).guests = s.guests := rfl
@[simp] theorem State.barred_setCur (s : State) (w : Wave) : (s.setCur w).barred = s.barred := rfl
@[simp] theorem State.indigo_setCur (s : State) (w : Wave) : (s.setCur w).indigo = s.indigo := rfl
@[simp] theorem State.windows_setCur (s : State) (w : Wave) : (s.setCur w).windows = s.windows := rfl
@[simp] theorem State.mailbox_setCur (s : State) (w : Wave) : (s.setCur w).mailbox = s.mailbox := rfl
@[simp] theorem State.keys_setCur (s : State) (w : Wave) : (s.setCur w).keys = s.keys := rfl
@[simp] theorem State.revoked_setCur (s : State) (w : Wave) : (s.setCur w).revoked = s.revoked := rfl
@[simp] theorem State.kix_setCur (s : State) (w : Wave) : (s.setCur w).kix = s.kix := rfl
@[simp] theorem State.vcache_setCur (s : State) (w : Wave) : (s.setCur w).vcache = s.vcache := rfl
@[simp] theorem State.scans_setCur (s : State) (w : Wave) : (s.setCur w).scans = s.scans := rfl
@[simp] theorem State.flushing_setCur (s : State) (w : Wave) : (s.setCur w).flushing = s.flushing := rfl
@[simp] theorem State.latched_setCur (s : State) (w : Wave) : (s.setCur w).latched = s.latched := rfl
@[simp] theorem State.latchGT_setCur (s : State) (w : Wave) : (s.setCur w).latchGT = s.latchGT := rfl
@[simp] theorem State.cntuni_setCur (s : State) (w : Wave) : (s.setCur w).cntuni = s.cntuni := rfl
@[simp] theorem State.cntaff_setCur (s : State) (w : Wave) : (s.setCur w).cntaff = s.cntaff := rfl
@[simp] theorem State.ewct_setCur (s : State) (w : Wave) : (s.setCur w).ewct = s.ewct := rfl
@[simp] theorem State.encs_setCur (s : State) (w : Wave) : (s.setCur w).encs = s.encs := rfl
@[simp] theorem State.tagDiff_setCur (s : State) (w : Wave) : (s.setCur w).tagDiff = s.tagDiff := rfl
@[simp] theorem State.keyDraw_setCur (s : State) (w : Wave) : (s.setCur w).keyDraw = s.keyDraw := rfl
@[simp] theorem State.vacating_setCur (s : State) (w : Wave) : (s.setCur w).vacating = s.vacating := rfl
@[simp] theorem State.ports_setCur (s : State) (w : Wave) : (s.setCur w).ports = s.ports := rfl
@[simp] theorem State.link_setCur (s : State) (w : Wave) : (s.setCur w).link = s.link := rfl
@[simp] theorem State.cntsbm_setCur (s : State) (w : Wave) : (s.setCur w).cntsbm = s.cntsbm := rfl

/-! ## modWave -/

@[simp] theorem State.mode_modWave (s : State) (id : Nat) (f : Wave → Wave) : (s.modWave id f).mode = s.mode := rfl
@[simp] theorem State.power_modWave (s : State) (id : Nat) (f : Wave → Wave) : (s.modWave id f).power = s.power := rfl
@[simp] theorem State.failed_modWave (s : State) (id : Nat) (f : Wave → Wave) : (s.modWave id f).failed = s.failed := rfl
@[simp] theorem State.throttle_modWave (s : State) (id : Nat) (f : Wave → Wave) : (s.modWave id f).throttle = s.throttle := rfl
@[simp] theorem State.hot_modWave (s : State) (id : Nat) (f : Wave → Wave) : (s.modWave id f).hot = s.hot := rfl
@[simp] theorem State.gt_modWave (s : State) (id : Nat) (f : Wave → Wave) : (s.modWave id f).gt = s.gt := rfl
@[simp] theorem State.ticks_modWave (s : State) (id : Nat) (f : Wave → Wave) : (s.modWave id f).ticks = s.ticks := rfl
@[simp] theorem State.fresh_modWave (s : State) (id : Nat) (f : Wave → Wave) : (s.modWave id f).fresh = s.fresh := rfl
@[simp] theorem State.nextId_modWave (s : State) (id : Nat) (f : Wave → Wave) : (s.modWave id f).nextId = s.nextId := rfl
@[simp] theorem State.cur_modWave (s : State) (id : Nat) (f : Wave → Wave) : (s.modWave id f).cur = s.cur := rfl
@[simp] theorem State.slotTurn_modWave (s : State) (id : Nat) (f : Wave → Wave) : (s.modWave id f).slotTurn = s.slotTurn := rfl
@[simp] theorem State.slotPtr_modWave (s : State) (id : Nat) (f : Wave → Wave) : (s.modWave id f).slotPtr = s.slotPtr := rfl
@[simp] theorem State.turns_modWave (s : State) (id : Nat) (f : Wave → Wave) : (s.modWave id f).turns = s.turns := rfl
@[simp] theorem State.agenda_modWave (s : State) (id : Nat) (f : Wave → Wave) : (s.modWave id f).agenda = s.agenda := rfl
@[simp] theorem State.mem_modWave (s : State) (id : Nat) (f : Wave → Wave) : (s.modWave id f).mem = s.mem := rfl
@[simp] theorem State.poison_modWave (s : State) (id : Nat) (f : Wave → Wave) : (s.modWave id f).poison = s.poison := rfl
@[simp] theorem State.pkg_modWave (s : State) (id : Nat) (f : Wave → Wave) : (s.modWave id f).pkg = s.pkg := rfl
@[simp] theorem State.csr_modWave (s : State) (id : Nat) (f : Wave → Wave) : (s.modWave id f).csr = s.csr := rfl
@[simp] theorem State.cores_modWave (s : State) (id : Nat) (f : Wave → Wave) : (s.modWave id f).cores = s.cores := rfl
@[simp] theorem State.waves_modWave (s : State) (id : Nat) (f : Wave → Wave) : (s.modWave id f).waves = Sparse.put s.waves id (f (s.wave id)) := rfl
@[simp] theorem State.wgs_modWave (s : State) (id : Nat) (f : Wave → Wave) : (s.modWave id f).wgs = s.wgs := rfl
@[simp] theorem State.tasks_modWave (s : State) (id : Nat) (f : Wave → Wave) : (s.modWave id f).tasks = s.tasks := rfl
@[simp] theorem State.queues_modWave (s : State) (id : Nat) (f : Wave → Wave) : (s.modWave id f).queues = s.queues := rfl
@[simp] theorem State.pool_modWave (s : State) (id : Nat) (f : Wave → Wave) : (s.modWave id f).pool = s.pool := rfl
@[simp] theorem State.kwaits_modWave (s : State) (id : Nat) (f : Wave → Wave) : (s.modWave id f).kwaits = s.kwaits := rfl
@[simp] theorem State.dealer_modWave (s : State) (id : Nat) (f : Wave → Wave) : (s.modWave id f).dealer = s.dealer := rfl
@[simp] theorem State.pointer_modWave (s : State) (id : Nat) (f : Wave → Wave) : (s.modWave id f).pointer = s.pointer := rfl
@[simp] theorem State.dispatchN_modWave (s : State) (id : Nat) (f : Wave → Wave) : (s.modWave id f).dispatchN = s.dispatchN := rfl
@[simp] theorem State.pushes_modWave (s : State) (id : Nat) (f : Wave → Wave) : (s.modWave id f).pushes = s.pushes := rfl
@[simp] theorem State.kitty_modWave (s : State) (id : Nat) (f : Wave → Wave) : (s.modWave id f).kitty = s.kitty := rfl
@[simp] theorem State.ops_modWave (s : State) (id : Nat) (f : Wave → Wave) : (s.modWave id f).ops = s.ops := rfl
@[simp] theorem State.l1tlb_modWave (s : State) (id : Nat) (f : Wave → Wave) : (s.modWave id f).l1tlb = s.l1tlb := rfl
@[simp] theorem State.l2tlb_modWave (s : State) (id : Nat) (f : Wave → Wave) : (s.modWave id f).l2tlb = s.l2tlb := rfl
@[simp] theorem State.walks_modWave (s : State) (id : Nat) (f : Wave → Wave) : (s.modWave id f).walks = s.walks := rfl
@[simp] theorem State.fb_modWave (s : State) (id : Nat) (f : Wave → Wave) : (s.modWave id f).fb = s.fb := rfl
@[simp] theorem State.dropped_modWave (s : State) (id : Nat) (f : Wave → Wave) : (s.modWave id f).dropped = s.dropped := rfl
@[simp] theorem State.migs_modWave (s : State) (id : Nat) (f : Wave → Wave) : (s.modWave id f).migs = s.migs := rfl
@[simp] theorem State.caches_modWave (s : State) (id : Nat) (f : Wave → Wave) : (s.modWave id f).caches = s.caches := rfl
@[simp] theorem State.copies_modWave (s : State) (id : Nat) (f : Wave → Wave) : (s.modWave id f).copies = s.copies := rfl
@[simp] theorem State.engines_modWave (s : State) (id : Nat) (f : Wave → Wave) : (s.modWave id f).engines = s.engines := rfl
@[simp] theorem State.slices_modWave (s : State) (id : Nat) (f : Wave → Wave) : (s.modWave id f).slices = s.slices := rfl
@[simp] theorem State.sent_modWave (s : State) (id : Nat) (f : Wave → Wave) : (s.modWave id f).sent = s.sent := rfl
@[simp] theorem State.tables_modWave (s : State) (id : Nat) (f : Wave → Wave) : (s.modWave id f).tables = s.tables := rfl
@[simp] theorem State.ranges_modWave (s : State) (id : Nat) (f : Wave → Wave) : (s.modWave id f).ranges = s.ranges := rfl
@[simp] theorem State.drains_modWave (s : State) (id : Nat) (f : Wave → Wave) : (s.modWave id f).drains = s.drains := rfl
@[simp] theorem State.records_modWave (s : State) (id : Nat) (f : Wave → Wave) : (s.modWave id f).records = s.records := rfl
@[simp] theorem State.detached_modWave (s : State) (id : Nat) (f : Wave → Wave) : (s.modWave id f).detached = s.detached := rfl
@[simp] theorem State.recwait_modWave (s : State) (id : Nat) (f : Wave → Wave) : (s.modWave id f).recwait = s.recwait := rfl
@[simp] theorem State.saved_modWave (s : State) (id : Nat) (f : Wave → Wave) : (s.modWave id f).saved = s.saved := rfl
@[simp] theorem State.saving_modWave (s : State) (id : Nat) (f : Wave → Wave) : (s.modWave id f).saving = s.saving := rfl
@[simp] theorem State.written_modWave (s : State) (id : Nat) (f : Wave → Wave) : (s.modWave id f).written = s.written := rfl
@[simp] theorem State.guests_modWave (s : State) (id : Nat) (f : Wave → Wave) : (s.modWave id f).guests = s.guests := rfl
@[simp] theorem State.barred_modWave (s : State) (id : Nat) (f : Wave → Wave) : (s.modWave id f).barred = s.barred := rfl
@[simp] theorem State.indigo_modWave (s : State) (id : Nat) (f : Wave → Wave) : (s.modWave id f).indigo = s.indigo := rfl
@[simp] theorem State.windows_modWave (s : State) (id : Nat) (f : Wave → Wave) : (s.modWave id f).windows = s.windows := rfl
@[simp] theorem State.mailbox_modWave (s : State) (id : Nat) (f : Wave → Wave) : (s.modWave id f).mailbox = s.mailbox := rfl
@[simp] theorem State.keys_modWave (s : State) (id : Nat) (f : Wave → Wave) : (s.modWave id f).keys = s.keys := rfl
@[simp] theorem State.revoked_modWave (s : State) (id : Nat) (f : Wave → Wave) : (s.modWave id f).revoked = s.revoked := rfl
@[simp] theorem State.kix_modWave (s : State) (id : Nat) (f : Wave → Wave) : (s.modWave id f).kix = s.kix := rfl
@[simp] theorem State.vcache_modWave (s : State) (id : Nat) (f : Wave → Wave) : (s.modWave id f).vcache = s.vcache := rfl
@[simp] theorem State.scans_modWave (s : State) (id : Nat) (f : Wave → Wave) : (s.modWave id f).scans = s.scans := rfl
@[simp] theorem State.flushing_modWave (s : State) (id : Nat) (f : Wave → Wave) : (s.modWave id f).flushing = s.flushing := rfl
@[simp] theorem State.latched_modWave (s : State) (id : Nat) (f : Wave → Wave) : (s.modWave id f).latched = s.latched := rfl
@[simp] theorem State.latchGT_modWave (s : State) (id : Nat) (f : Wave → Wave) : (s.modWave id f).latchGT = s.latchGT := rfl
@[simp] theorem State.cntuni_modWave (s : State) (id : Nat) (f : Wave → Wave) : (s.modWave id f).cntuni = s.cntuni := rfl
@[simp] theorem State.cntaff_modWave (s : State) (id : Nat) (f : Wave → Wave) : (s.modWave id f).cntaff = s.cntaff := rfl
@[simp] theorem State.ewct_modWave (s : State) (id : Nat) (f : Wave → Wave) : (s.modWave id f).ewct = s.ewct := rfl
@[simp] theorem State.encs_modWave (s : State) (id : Nat) (f : Wave → Wave) : (s.modWave id f).encs = s.encs := rfl
@[simp] theorem State.tagDiff_modWave (s : State) (id : Nat) (f : Wave → Wave) : (s.modWave id f).tagDiff = s.tagDiff := rfl
@[simp] theorem State.keyDraw_modWave (s : State) (id : Nat) (f : Wave → Wave) : (s.modWave id f).keyDraw = s.keyDraw := rfl
@[simp] theorem State.vacating_modWave (s : State) (id : Nat) (f : Wave → Wave) : (s.modWave id f).vacating = s.vacating := rfl
@[simp] theorem State.ports_modWave (s : State) (id : Nat) (f : Wave → Wave) : (s.modWave id f).ports = s.ports := rfl
@[simp] theorem State.link_modWave (s : State) (id : Nat) (f : Wave → Wave) : (s.modWave id f).link = s.link := rfl
@[simp] theorem State.cntsbm_modWave (s : State) (id : Nat) (f : Wave → Wave) : (s.modWave id f).cntsbm = s.cntsbm := rfl

/-! ## post -/

@[simp] theorem State.mode_post (s : State) (i : Instr) : (s.post i).mode = s.mode := rfl
@[simp] theorem State.power_post (s : State) (i : Instr) : (s.post i).power = s.power := rfl
@[simp] theorem State.failed_post (s : State) (i : Instr) : (s.post i).failed = s.failed := rfl
@[simp] theorem State.throttle_post (s : State) (i : Instr) : (s.post i).throttle = s.throttle := rfl
@[simp] theorem State.hot_post (s : State) (i : Instr) : (s.post i).hot = s.hot := rfl
@[simp] theorem State.gt_post (s : State) (i : Instr) : (s.post i).gt = s.gt := rfl
@[simp] theorem State.ticks_post (s : State) (i : Instr) : (s.post i).ticks = s.ticks := rfl
@[simp] theorem State.fresh_post (s : State) (i : Instr) : (s.post i).fresh = s.fresh := rfl
@[simp] theorem State.nextId_post (s : State) (i : Instr) : (s.post i).nextId = s.nextId := rfl
@[simp] theorem State.cur_post (s : State) (i : Instr) : (s.post i).cur = s.cur := rfl
@[simp] theorem State.slotTurn_post (s : State) (i : Instr) : (s.post i).slotTurn = s.slotTurn := rfl
@[simp] theorem State.slotPtr_post (s : State) (i : Instr) : (s.post i).slotPtr = s.slotPtr := rfl
@[simp] theorem State.turns_post (s : State) (i : Instr) : (s.post i).turns = s.turns := rfl
@[simp] theorem State.agenda_post (s : State) (i : Instr) : (s.post i).agenda = s.agenda ++ [i] := rfl
@[simp] theorem State.mem_post (s : State) (i : Instr) : (s.post i).mem = s.mem := rfl
@[simp] theorem State.poison_post (s : State) (i : Instr) : (s.post i).poison = s.poison := rfl
@[simp] theorem State.pkg_post (s : State) (i : Instr) : (s.post i).pkg = s.pkg := rfl
@[simp] theorem State.csr_post (s : State) (i : Instr) : (s.post i).csr = s.csr := rfl
@[simp] theorem State.cores_post (s : State) (i : Instr) : (s.post i).cores = s.cores := rfl
@[simp] theorem State.waves_post (s : State) (i : Instr) : (s.post i).waves = s.waves := rfl
@[simp] theorem State.wgs_post (s : State) (i : Instr) : (s.post i).wgs = s.wgs := rfl
@[simp] theorem State.tasks_post (s : State) (i : Instr) : (s.post i).tasks = s.tasks := rfl
@[simp] theorem State.queues_post (s : State) (i : Instr) : (s.post i).queues = s.queues := rfl
@[simp] theorem State.pool_post (s : State) (i : Instr) : (s.post i).pool = s.pool := rfl
@[simp] theorem State.kwaits_post (s : State) (i : Instr) : (s.post i).kwaits = s.kwaits := rfl
@[simp] theorem State.dealer_post (s : State) (i : Instr) : (s.post i).dealer = s.dealer := rfl
@[simp] theorem State.pointer_post (s : State) (i : Instr) : (s.post i).pointer = s.pointer := rfl
@[simp] theorem State.dispatchN_post (s : State) (i : Instr) : (s.post i).dispatchN = s.dispatchN := rfl
@[simp] theorem State.pushes_post (s : State) (i : Instr) : (s.post i).pushes = s.pushes := rfl
@[simp] theorem State.kitty_post (s : State) (i : Instr) : (s.post i).kitty = s.kitty := rfl
@[simp] theorem State.ops_post (s : State) (i : Instr) : (s.post i).ops = s.ops := rfl
@[simp] theorem State.l1tlb_post (s : State) (i : Instr) : (s.post i).l1tlb = s.l1tlb := rfl
@[simp] theorem State.l2tlb_post (s : State) (i : Instr) : (s.post i).l2tlb = s.l2tlb := rfl
@[simp] theorem State.walks_post (s : State) (i : Instr) : (s.post i).walks = s.walks := rfl
@[simp] theorem State.fb_post (s : State) (i : Instr) : (s.post i).fb = s.fb := rfl
@[simp] theorem State.dropped_post (s : State) (i : Instr) : (s.post i).dropped = s.dropped := rfl
@[simp] theorem State.migs_post (s : State) (i : Instr) : (s.post i).migs = s.migs := rfl
@[simp] theorem State.caches_post (s : State) (i : Instr) : (s.post i).caches = s.caches := rfl
@[simp] theorem State.copies_post (s : State) (i : Instr) : (s.post i).copies = s.copies := rfl
@[simp] theorem State.engines_post (s : State) (i : Instr) : (s.post i).engines = s.engines := rfl
@[simp] theorem State.slices_post (s : State) (i : Instr) : (s.post i).slices = s.slices := rfl
@[simp] theorem State.sent_post (s : State) (i : Instr) : (s.post i).sent = s.sent := rfl
@[simp] theorem State.tables_post (s : State) (i : Instr) : (s.post i).tables = s.tables := rfl
@[simp] theorem State.ranges_post (s : State) (i : Instr) : (s.post i).ranges = s.ranges := rfl
@[simp] theorem State.drains_post (s : State) (i : Instr) : (s.post i).drains = s.drains := rfl
@[simp] theorem State.records_post (s : State) (i : Instr) : (s.post i).records = s.records := rfl
@[simp] theorem State.detached_post (s : State) (i : Instr) : (s.post i).detached = s.detached := rfl
@[simp] theorem State.recwait_post (s : State) (i : Instr) : (s.post i).recwait = s.recwait := rfl
@[simp] theorem State.saved_post (s : State) (i : Instr) : (s.post i).saved = s.saved := rfl
@[simp] theorem State.saving_post (s : State) (i : Instr) : (s.post i).saving = s.saving := rfl
@[simp] theorem State.written_post (s : State) (i : Instr) : (s.post i).written = s.written := rfl
@[simp] theorem State.guests_post (s : State) (i : Instr) : (s.post i).guests = s.guests := rfl
@[simp] theorem State.barred_post (s : State) (i : Instr) : (s.post i).barred = s.barred := rfl
@[simp] theorem State.indigo_post (s : State) (i : Instr) : (s.post i).indigo = s.indigo := rfl
@[simp] theorem State.windows_post (s : State) (i : Instr) : (s.post i).windows = s.windows := rfl
@[simp] theorem State.mailbox_post (s : State) (i : Instr) : (s.post i).mailbox = s.mailbox := rfl
@[simp] theorem State.keys_post (s : State) (i : Instr) : (s.post i).keys = s.keys := rfl
@[simp] theorem State.revoked_post (s : State) (i : Instr) : (s.post i).revoked = s.revoked := rfl
@[simp] theorem State.kix_post (s : State) (i : Instr) : (s.post i).kix = s.kix := rfl
@[simp] theorem State.vcache_post (s : State) (i : Instr) : (s.post i).vcache = s.vcache := rfl
@[simp] theorem State.scans_post (s : State) (i : Instr) : (s.post i).scans = s.scans := rfl
@[simp] theorem State.flushing_post (s : State) (i : Instr) : (s.post i).flushing = s.flushing := rfl
@[simp] theorem State.latched_post (s : State) (i : Instr) : (s.post i).latched = s.latched := rfl
@[simp] theorem State.latchGT_post (s : State) (i : Instr) : (s.post i).latchGT = s.latchGT := rfl
@[simp] theorem State.cntuni_post (s : State) (i : Instr) : (s.post i).cntuni = s.cntuni := rfl
@[simp] theorem State.cntaff_post (s : State) (i : Instr) : (s.post i).cntaff = s.cntaff := rfl
@[simp] theorem State.ewct_post (s : State) (i : Instr) : (s.post i).ewct = s.ewct := rfl
@[simp] theorem State.encs_post (s : State) (i : Instr) : (s.post i).encs = s.encs := rfl
@[simp] theorem State.tagDiff_post (s : State) (i : Instr) : (s.post i).tagDiff = s.tagDiff := rfl
@[simp] theorem State.keyDraw_post (s : State) (i : Instr) : (s.post i).keyDraw = s.keyDraw := rfl
@[simp] theorem State.vacating_post (s : State) (i : Instr) : (s.post i).vacating = s.vacating := rfl
@[simp] theorem State.ports_post (s : State) (i : Instr) : (s.post i).ports = s.ports := rfl
@[simp] theorem State.link_post (s : State) (i : Instr) : (s.post i).link = s.link := rfl
@[simp] theorem State.cntsbm_post (s : State) (i : Instr) : (s.post i).cntsbm = s.cntsbm := rfl

/-! ## postAll -/

@[simp] theorem State.mode_postAll (s : State) (is : List Instr) : (s.postAll is).mode = s.mode := rfl
@[simp] theorem State.power_postAll (s : State) (is : List Instr) : (s.postAll is).power = s.power := rfl
@[simp] theorem State.failed_postAll (s : State) (is : List Instr) : (s.postAll is).failed = s.failed := rfl
@[simp] theorem State.throttle_postAll (s : State) (is : List Instr) : (s.postAll is).throttle = s.throttle := rfl
@[simp] theorem State.hot_postAll (s : State) (is : List Instr) : (s.postAll is).hot = s.hot := rfl
@[simp] theorem State.gt_postAll (s : State) (is : List Instr) : (s.postAll is).gt = s.gt := rfl
@[simp] theorem State.ticks_postAll (s : State) (is : List Instr) : (s.postAll is).ticks = s.ticks := rfl
@[simp] theorem State.fresh_postAll (s : State) (is : List Instr) : (s.postAll is).fresh = s.fresh := rfl
@[simp] theorem State.nextId_postAll (s : State) (is : List Instr) : (s.postAll is).nextId = s.nextId := rfl
@[simp] theorem State.cur_postAll (s : State) (is : List Instr) : (s.postAll is).cur = s.cur := rfl
@[simp] theorem State.slotTurn_postAll (s : State) (is : List Instr) : (s.postAll is).slotTurn = s.slotTurn := rfl
@[simp] theorem State.slotPtr_postAll (s : State) (is : List Instr) : (s.postAll is).slotPtr = s.slotPtr := rfl
@[simp] theorem State.turns_postAll (s : State) (is : List Instr) : (s.postAll is).turns = s.turns := rfl
@[simp] theorem State.agenda_postAll (s : State) (is : List Instr) : (s.postAll is).agenda = s.agenda ++ is := rfl
@[simp] theorem State.mem_postAll (s : State) (is : List Instr) : (s.postAll is).mem = s.mem := rfl
@[simp] theorem State.poison_postAll (s : State) (is : List Instr) : (s.postAll is).poison = s.poison := rfl
@[simp] theorem State.pkg_postAll (s : State) (is : List Instr) : (s.postAll is).pkg = s.pkg := rfl
@[simp] theorem State.csr_postAll (s : State) (is : List Instr) : (s.postAll is).csr = s.csr := rfl
@[simp] theorem State.cores_postAll (s : State) (is : List Instr) : (s.postAll is).cores = s.cores := rfl
@[simp] theorem State.waves_postAll (s : State) (is : List Instr) : (s.postAll is).waves = s.waves := rfl
@[simp] theorem State.wgs_postAll (s : State) (is : List Instr) : (s.postAll is).wgs = s.wgs := rfl
@[simp] theorem State.tasks_postAll (s : State) (is : List Instr) : (s.postAll is).tasks = s.tasks := rfl
@[simp] theorem State.queues_postAll (s : State) (is : List Instr) : (s.postAll is).queues = s.queues := rfl
@[simp] theorem State.pool_postAll (s : State) (is : List Instr) : (s.postAll is).pool = s.pool := rfl
@[simp] theorem State.kwaits_postAll (s : State) (is : List Instr) : (s.postAll is).kwaits = s.kwaits := rfl
@[simp] theorem State.dealer_postAll (s : State) (is : List Instr) : (s.postAll is).dealer = s.dealer := rfl
@[simp] theorem State.pointer_postAll (s : State) (is : List Instr) : (s.postAll is).pointer = s.pointer := rfl
@[simp] theorem State.dispatchN_postAll (s : State) (is : List Instr) : (s.postAll is).dispatchN = s.dispatchN := rfl
@[simp] theorem State.pushes_postAll (s : State) (is : List Instr) : (s.postAll is).pushes = s.pushes := rfl
@[simp] theorem State.kitty_postAll (s : State) (is : List Instr) : (s.postAll is).kitty = s.kitty := rfl
@[simp] theorem State.ops_postAll (s : State) (is : List Instr) : (s.postAll is).ops = s.ops := rfl
@[simp] theorem State.l1tlb_postAll (s : State) (is : List Instr) : (s.postAll is).l1tlb = s.l1tlb := rfl
@[simp] theorem State.l2tlb_postAll (s : State) (is : List Instr) : (s.postAll is).l2tlb = s.l2tlb := rfl
@[simp] theorem State.walks_postAll (s : State) (is : List Instr) : (s.postAll is).walks = s.walks := rfl
@[simp] theorem State.fb_postAll (s : State) (is : List Instr) : (s.postAll is).fb = s.fb := rfl
@[simp] theorem State.dropped_postAll (s : State) (is : List Instr) : (s.postAll is).dropped = s.dropped := rfl
@[simp] theorem State.migs_postAll (s : State) (is : List Instr) : (s.postAll is).migs = s.migs := rfl
@[simp] theorem State.caches_postAll (s : State) (is : List Instr) : (s.postAll is).caches = s.caches := rfl
@[simp] theorem State.copies_postAll (s : State) (is : List Instr) : (s.postAll is).copies = s.copies := rfl
@[simp] theorem State.engines_postAll (s : State) (is : List Instr) : (s.postAll is).engines = s.engines := rfl
@[simp] theorem State.slices_postAll (s : State) (is : List Instr) : (s.postAll is).slices = s.slices := rfl
@[simp] theorem State.sent_postAll (s : State) (is : List Instr) : (s.postAll is).sent = s.sent := rfl
@[simp] theorem State.tables_postAll (s : State) (is : List Instr) : (s.postAll is).tables = s.tables := rfl
@[simp] theorem State.ranges_postAll (s : State) (is : List Instr) : (s.postAll is).ranges = s.ranges := rfl
@[simp] theorem State.drains_postAll (s : State) (is : List Instr) : (s.postAll is).drains = s.drains := rfl
@[simp] theorem State.records_postAll (s : State) (is : List Instr) : (s.postAll is).records = s.records := rfl
@[simp] theorem State.detached_postAll (s : State) (is : List Instr) : (s.postAll is).detached = s.detached := rfl
@[simp] theorem State.recwait_postAll (s : State) (is : List Instr) : (s.postAll is).recwait = s.recwait := rfl
@[simp] theorem State.saved_postAll (s : State) (is : List Instr) : (s.postAll is).saved = s.saved := rfl
@[simp] theorem State.saving_postAll (s : State) (is : List Instr) : (s.postAll is).saving = s.saving := rfl
@[simp] theorem State.written_postAll (s : State) (is : List Instr) : (s.postAll is).written = s.written := rfl
@[simp] theorem State.guests_postAll (s : State) (is : List Instr) : (s.postAll is).guests = s.guests := rfl
@[simp] theorem State.barred_postAll (s : State) (is : List Instr) : (s.postAll is).barred = s.barred := rfl
@[simp] theorem State.indigo_postAll (s : State) (is : List Instr) : (s.postAll is).indigo = s.indigo := rfl
@[simp] theorem State.windows_postAll (s : State) (is : List Instr) : (s.postAll is).windows = s.windows := rfl
@[simp] theorem State.mailbox_postAll (s : State) (is : List Instr) : (s.postAll is).mailbox = s.mailbox := rfl
@[simp] theorem State.keys_postAll (s : State) (is : List Instr) : (s.postAll is).keys = s.keys := rfl
@[simp] theorem State.revoked_postAll (s : State) (is : List Instr) : (s.postAll is).revoked = s.revoked := rfl
@[simp] theorem State.kix_postAll (s : State) (is : List Instr) : (s.postAll is).kix = s.kix := rfl
@[simp] theorem State.vcache_postAll (s : State) (is : List Instr) : (s.postAll is).vcache = s.vcache := rfl
@[simp] theorem State.scans_postAll (s : State) (is : List Instr) : (s.postAll is).scans = s.scans := rfl
@[simp] theorem State.flushing_postAll (s : State) (is : List Instr) : (s.postAll is).flushing = s.flushing := rfl
@[simp] theorem State.latched_postAll (s : State) (is : List Instr) : (s.postAll is).latched = s.latched := rfl
@[simp] theorem State.latchGT_postAll (s : State) (is : List Instr) : (s.postAll is).latchGT = s.latchGT := rfl
@[simp] theorem State.cntuni_postAll (s : State) (is : List Instr) : (s.postAll is).cntuni = s.cntuni := rfl
@[simp] theorem State.cntaff_postAll (s : State) (is : List Instr) : (s.postAll is).cntaff = s.cntaff := rfl
@[simp] theorem State.ewct_postAll (s : State) (is : List Instr) : (s.postAll is).ewct = s.ewct := rfl
@[simp] theorem State.encs_postAll (s : State) (is : List Instr) : (s.postAll is).encs = s.encs := rfl
@[simp] theorem State.tagDiff_postAll (s : State) (is : List Instr) : (s.postAll is).tagDiff = s.tagDiff := rfl
@[simp] theorem State.keyDraw_postAll (s : State) (is : List Instr) : (s.postAll is).keyDraw = s.keyDraw := rfl
@[simp] theorem State.vacating_postAll (s : State) (is : List Instr) : (s.postAll is).vacating = s.vacating := rfl
@[simp] theorem State.ports_postAll (s : State) (is : List Instr) : (s.postAll is).ports = s.ports := rfl
@[simp] theorem State.link_postAll (s : State) (is : List Instr) : (s.postAll is).link = s.link := rfl
@[simp] theorem State.cntsbm_postAll (s : State) (is : List Instr) : (s.postAll is).cntsbm = s.cntsbm := rfl

/-! ## draw -/

@[simp] theorem State.mode_draw (s : State) : (s.draw).mode = s.mode := rfl
@[simp] theorem State.power_draw (s : State) : (s.draw).power = s.power := rfl
@[simp] theorem State.failed_draw (s : State) : (s.draw).failed = s.failed := rfl
@[simp] theorem State.throttle_draw (s : State) : (s.draw).throttle = s.throttle := rfl
@[simp] theorem State.hot_draw (s : State) : (s.draw).hot = s.hot := rfl
@[simp] theorem State.gt_draw (s : State) : (s.draw).gt = s.gt := rfl
@[simp] theorem State.ticks_draw (s : State) : (s.draw).ticks = s.ticks := rfl
@[simp] theorem State.fresh_draw (s : State) : (s.draw).fresh = s.fresh + 1 := rfl
@[simp] theorem State.nextId_draw (s : State) : (s.draw).nextId = s.nextId := rfl
@[simp] theorem State.cur_draw (s : State) : (s.draw).cur = s.cur := rfl
@[simp] theorem State.slotTurn_draw (s : State) : (s.draw).slotTurn = s.slotTurn := rfl
@[simp] theorem State.slotPtr_draw (s : State) : (s.draw).slotPtr = s.slotPtr := rfl
@[simp] theorem State.turns_draw (s : State) : (s.draw).turns = s.turns := rfl
@[simp] theorem State.agenda_draw (s : State) : (s.draw).agenda = s.agenda := rfl
@[simp] theorem State.mem_draw (s : State) : (s.draw).mem = s.mem := rfl
@[simp] theorem State.poison_draw (s : State) : (s.draw).poison = s.poison := rfl
@[simp] theorem State.pkg_draw (s : State) : (s.draw).pkg = s.pkg := rfl
@[simp] theorem State.csr_draw (s : State) : (s.draw).csr = s.csr := rfl
@[simp] theorem State.cores_draw (s : State) : (s.draw).cores = s.cores := rfl
@[simp] theorem State.waves_draw (s : State) : (s.draw).waves = s.waves := rfl
@[simp] theorem State.wgs_draw (s : State) : (s.draw).wgs = s.wgs := rfl
@[simp] theorem State.tasks_draw (s : State) : (s.draw).tasks = s.tasks := rfl
@[simp] theorem State.queues_draw (s : State) : (s.draw).queues = s.queues := rfl
@[simp] theorem State.pool_draw (s : State) : (s.draw).pool = s.pool := rfl
@[simp] theorem State.kwaits_draw (s : State) : (s.draw).kwaits = s.kwaits := rfl
@[simp] theorem State.dealer_draw (s : State) : (s.draw).dealer = s.dealer := rfl
@[simp] theorem State.pointer_draw (s : State) : (s.draw).pointer = s.pointer := rfl
@[simp] theorem State.dispatchN_draw (s : State) : (s.draw).dispatchN = s.dispatchN := rfl
@[simp] theorem State.pushes_draw (s : State) : (s.draw).pushes = s.pushes := rfl
@[simp] theorem State.kitty_draw (s : State) : (s.draw).kitty = s.kitty := rfl
@[simp] theorem State.ops_draw (s : State) : (s.draw).ops = s.ops := rfl
@[simp] theorem State.l1tlb_draw (s : State) : (s.draw).l1tlb = s.l1tlb := rfl
@[simp] theorem State.l2tlb_draw (s : State) : (s.draw).l2tlb = s.l2tlb := rfl
@[simp] theorem State.walks_draw (s : State) : (s.draw).walks = s.walks := rfl
@[simp] theorem State.fb_draw (s : State) : (s.draw).fb = s.fb := rfl
@[simp] theorem State.dropped_draw (s : State) : (s.draw).dropped = s.dropped := rfl
@[simp] theorem State.migs_draw (s : State) : (s.draw).migs = s.migs := rfl
@[simp] theorem State.caches_draw (s : State) : (s.draw).caches = s.caches := rfl
@[simp] theorem State.copies_draw (s : State) : (s.draw).copies = s.copies := rfl
@[simp] theorem State.engines_draw (s : State) : (s.draw).engines = s.engines := rfl
@[simp] theorem State.slices_draw (s : State) : (s.draw).slices = s.slices := rfl
@[simp] theorem State.sent_draw (s : State) : (s.draw).sent = s.sent := rfl
@[simp] theorem State.tables_draw (s : State) : (s.draw).tables = s.tables := rfl
@[simp] theorem State.ranges_draw (s : State) : (s.draw).ranges = s.ranges := rfl
@[simp] theorem State.drains_draw (s : State) : (s.draw).drains = s.drains := rfl
@[simp] theorem State.records_draw (s : State) : (s.draw).records = s.records := rfl
@[simp] theorem State.detached_draw (s : State) : (s.draw).detached = s.detached := rfl
@[simp] theorem State.recwait_draw (s : State) : (s.draw).recwait = s.recwait := rfl
@[simp] theorem State.saved_draw (s : State) : (s.draw).saved = s.saved := rfl
@[simp] theorem State.saving_draw (s : State) : (s.draw).saving = s.saving := rfl
@[simp] theorem State.written_draw (s : State) : (s.draw).written = s.written := rfl
@[simp] theorem State.guests_draw (s : State) : (s.draw).guests = s.guests := rfl
@[simp] theorem State.barred_draw (s : State) : (s.draw).barred = s.barred := rfl
@[simp] theorem State.indigo_draw (s : State) : (s.draw).indigo = s.indigo := rfl
@[simp] theorem State.windows_draw (s : State) : (s.draw).windows = s.windows := rfl
@[simp] theorem State.mailbox_draw (s : State) : (s.draw).mailbox = s.mailbox := rfl
@[simp] theorem State.keys_draw (s : State) : (s.draw).keys = s.keys := rfl
@[simp] theorem State.revoked_draw (s : State) : (s.draw).revoked = s.revoked := rfl
@[simp] theorem State.kix_draw (s : State) : (s.draw).kix = s.kix := rfl
@[simp] theorem State.vcache_draw (s : State) : (s.draw).vcache = s.vcache := rfl
@[simp] theorem State.scans_draw (s : State) : (s.draw).scans = s.scans := rfl
@[simp] theorem State.flushing_draw (s : State) : (s.draw).flushing = s.flushing := rfl
@[simp] theorem State.latched_draw (s : State) : (s.draw).latched = s.latched := rfl
@[simp] theorem State.latchGT_draw (s : State) : (s.draw).latchGT = s.latchGT := rfl
@[simp] theorem State.cntuni_draw (s : State) : (s.draw).cntuni = s.cntuni := rfl
@[simp] theorem State.cntaff_draw (s : State) : (s.draw).cntaff = s.cntaff := rfl
@[simp] theorem State.ewct_draw (s : State) : (s.draw).ewct = s.ewct := rfl
@[simp] theorem State.encs_draw (s : State) : (s.draw).encs = s.encs := rfl
@[simp] theorem State.tagDiff_draw (s : State) : (s.draw).tagDiff = s.tagDiff := rfl
@[simp] theorem State.keyDraw_draw (s : State) : (s.draw).keyDraw = s.keyDraw := rfl
@[simp] theorem State.vacating_draw (s : State) : (s.draw).vacating = s.vacating := rfl
@[simp] theorem State.ports_draw (s : State) : (s.draw).ports = s.ports := rfl
@[simp] theorem State.link_draw (s : State) : (s.draw).link = s.link := rfl
@[simp] theorem State.cntsbm_draw (s : State) : (s.draw).cntsbm = s.cntsbm := rfl

/-! ## bump -/

@[simp] theorem State.mode_bump (s : State) : (s.bump).mode = s.mode := rfl
@[simp] theorem State.power_bump (s : State) : (s.bump).power = s.power := rfl
@[simp] theorem State.failed_bump (s : State) : (s.bump).failed = s.failed := rfl
@[simp] theorem State.throttle_bump (s : State) : (s.bump).throttle = s.throttle := rfl
@[simp] theorem State.hot_bump (s : State) : (s.bump).hot = s.hot := rfl
@[simp] theorem State.gt_bump (s : State) : (s.bump).gt = s.gt := rfl
@[simp] theorem State.ticks_bump (s : State) : (s.bump).ticks = s.ticks := rfl
@[simp] theorem State.fresh_bump (s : State) : (s.bump).fresh = s.fresh := rfl
@[simp] theorem State.nextId_bump (s : State) : (s.bump).nextId = s.nextId + 1 := rfl
@[simp] theorem State.cur_bump (s : State) : (s.bump).cur = s.cur := rfl
@[simp] theorem State.slotTurn_bump (s : State) : (s.bump).slotTurn = s.slotTurn := rfl
@[simp] theorem State.slotPtr_bump (s : State) : (s.bump).slotPtr = s.slotPtr := rfl
@[simp] theorem State.turns_bump (s : State) : (s.bump).turns = s.turns := rfl
@[simp] theorem State.agenda_bump (s : State) : (s.bump).agenda = s.agenda := rfl
@[simp] theorem State.mem_bump (s : State) : (s.bump).mem = s.mem := rfl
@[simp] theorem State.poison_bump (s : State) : (s.bump).poison = s.poison := rfl
@[simp] theorem State.pkg_bump (s : State) : (s.bump).pkg = s.pkg := rfl
@[simp] theorem State.csr_bump (s : State) : (s.bump).csr = s.csr := rfl
@[simp] theorem State.cores_bump (s : State) : (s.bump).cores = s.cores := rfl
@[simp] theorem State.waves_bump (s : State) : (s.bump).waves = s.waves := rfl
@[simp] theorem State.wgs_bump (s : State) : (s.bump).wgs = s.wgs := rfl
@[simp] theorem State.tasks_bump (s : State) : (s.bump).tasks = s.tasks := rfl
@[simp] theorem State.queues_bump (s : State) : (s.bump).queues = s.queues := rfl
@[simp] theorem State.pool_bump (s : State) : (s.bump).pool = s.pool := rfl
@[simp] theorem State.kwaits_bump (s : State) : (s.bump).kwaits = s.kwaits := rfl
@[simp] theorem State.dealer_bump (s : State) : (s.bump).dealer = s.dealer := rfl
@[simp] theorem State.pointer_bump (s : State) : (s.bump).pointer = s.pointer := rfl
@[simp] theorem State.dispatchN_bump (s : State) : (s.bump).dispatchN = s.dispatchN := rfl
@[simp] theorem State.pushes_bump (s : State) : (s.bump).pushes = s.pushes := rfl
@[simp] theorem State.kitty_bump (s : State) : (s.bump).kitty = s.kitty := rfl
@[simp] theorem State.ops_bump (s : State) : (s.bump).ops = s.ops := rfl
@[simp] theorem State.l1tlb_bump (s : State) : (s.bump).l1tlb = s.l1tlb := rfl
@[simp] theorem State.l2tlb_bump (s : State) : (s.bump).l2tlb = s.l2tlb := rfl
@[simp] theorem State.walks_bump (s : State) : (s.bump).walks = s.walks := rfl
@[simp] theorem State.fb_bump (s : State) : (s.bump).fb = s.fb := rfl
@[simp] theorem State.dropped_bump (s : State) : (s.bump).dropped = s.dropped := rfl
@[simp] theorem State.migs_bump (s : State) : (s.bump).migs = s.migs := rfl
@[simp] theorem State.caches_bump (s : State) : (s.bump).caches = s.caches := rfl
@[simp] theorem State.copies_bump (s : State) : (s.bump).copies = s.copies := rfl
@[simp] theorem State.engines_bump (s : State) : (s.bump).engines = s.engines := rfl
@[simp] theorem State.slices_bump (s : State) : (s.bump).slices = s.slices := rfl
@[simp] theorem State.sent_bump (s : State) : (s.bump).sent = s.sent := rfl
@[simp] theorem State.tables_bump (s : State) : (s.bump).tables = s.tables := rfl
@[simp] theorem State.ranges_bump (s : State) : (s.bump).ranges = s.ranges := rfl
@[simp] theorem State.drains_bump (s : State) : (s.bump).drains = s.drains := rfl
@[simp] theorem State.records_bump (s : State) : (s.bump).records = s.records := rfl
@[simp] theorem State.detached_bump (s : State) : (s.bump).detached = s.detached := rfl
@[simp] theorem State.recwait_bump (s : State) : (s.bump).recwait = s.recwait := rfl
@[simp] theorem State.saved_bump (s : State) : (s.bump).saved = s.saved := rfl
@[simp] theorem State.saving_bump (s : State) : (s.bump).saving = s.saving := rfl
@[simp] theorem State.written_bump (s : State) : (s.bump).written = s.written := rfl
@[simp] theorem State.guests_bump (s : State) : (s.bump).guests = s.guests := rfl
@[simp] theorem State.barred_bump (s : State) : (s.bump).barred = s.barred := rfl
@[simp] theorem State.indigo_bump (s : State) : (s.bump).indigo = s.indigo := rfl
@[simp] theorem State.windows_bump (s : State) : (s.bump).windows = s.windows := rfl
@[simp] theorem State.mailbox_bump (s : State) : (s.bump).mailbox = s.mailbox := rfl
@[simp] theorem State.keys_bump (s : State) : (s.bump).keys = s.keys := rfl
@[simp] theorem State.revoked_bump (s : State) : (s.bump).revoked = s.revoked := rfl
@[simp] theorem State.kix_bump (s : State) : (s.bump).kix = s.kix := rfl
@[simp] theorem State.vcache_bump (s : State) : (s.bump).vcache = s.vcache := rfl
@[simp] theorem State.scans_bump (s : State) : (s.bump).scans = s.scans := rfl
@[simp] theorem State.flushing_bump (s : State) : (s.bump).flushing = s.flushing := rfl
@[simp] theorem State.latched_bump (s : State) : (s.bump).latched = s.latched := rfl
@[simp] theorem State.latchGT_bump (s : State) : (s.bump).latchGT = s.latchGT := rfl
@[simp] theorem State.cntuni_bump (s : State) : (s.bump).cntuni = s.cntuni := rfl
@[simp] theorem State.cntaff_bump (s : State) : (s.bump).cntaff = s.cntaff := rfl
@[simp] theorem State.ewct_bump (s : State) : (s.bump).ewct = s.ewct := rfl
@[simp] theorem State.encs_bump (s : State) : (s.bump).encs = s.encs := rfl
@[simp] theorem State.tagDiff_bump (s : State) : (s.bump).tagDiff = s.tagDiff := rfl
@[simp] theorem State.keyDraw_bump (s : State) : (s.bump).keyDraw = s.keyDraw := rfl
@[simp] theorem State.vacating_bump (s : State) : (s.bump).vacating = s.vacating := rfl
@[simp] theorem State.ports_bump (s : State) : (s.bump).ports = s.ports := rfl
@[simp] theorem State.link_bump (s : State) : (s.bump).link = s.link := rfl
@[simp] theorem State.cntsbm_bump (s : State) : (s.bump).cntsbm = s.cntsbm := rfl

/-! ## setByte -/

@[simp] theorem State.mode_setByte (s : State) (a : Nat) (b : Byte) : (s.setByte a b).mode = s.mode := rfl
@[simp] theorem State.power_setByte (s : State) (a : Nat) (b : Byte) : (s.setByte a b).power = s.power := rfl
@[simp] theorem State.failed_setByte (s : State) (a : Nat) (b : Byte) : (s.setByte a b).failed = s.failed := rfl
@[simp] theorem State.throttle_setByte (s : State) (a : Nat) (b : Byte) : (s.setByte a b).throttle = s.throttle := rfl
@[simp] theorem State.hot_setByte (s : State) (a : Nat) (b : Byte) : (s.setByte a b).hot = s.hot := rfl
@[simp] theorem State.gt_setByte (s : State) (a : Nat) (b : Byte) : (s.setByte a b).gt = s.gt := rfl
@[simp] theorem State.ticks_setByte (s : State) (a : Nat) (b : Byte) : (s.setByte a b).ticks = s.ticks := rfl
@[simp] theorem State.fresh_setByte (s : State) (a : Nat) (b : Byte) : (s.setByte a b).fresh = s.fresh := rfl
@[simp] theorem State.nextId_setByte (s : State) (a : Nat) (b : Byte) : (s.setByte a b).nextId = s.nextId := rfl
@[simp] theorem State.cur_setByte (s : State) (a : Nat) (b : Byte) : (s.setByte a b).cur = s.cur := rfl
@[simp] theorem State.slotTurn_setByte (s : State) (a : Nat) (b : Byte) : (s.setByte a b).slotTurn = s.slotTurn := rfl
@[simp] theorem State.slotPtr_setByte (s : State) (a : Nat) (b : Byte) : (s.setByte a b).slotPtr = s.slotPtr := rfl
@[simp] theorem State.turns_setByte (s : State) (a : Nat) (b : Byte) : (s.setByte a b).turns = s.turns := rfl
@[simp] theorem State.agenda_setByte (s : State) (a : Nat) (b : Byte) : (s.setByte a b).agenda = s.agenda := rfl
@[simp] theorem State.mem_setByte (s : State) (a : Nat) (b : Byte) : (s.setByte a b).mem = Sparse.set 0 s.mem a b := rfl
@[simp] theorem State.poison_setByte (s : State) (a : Nat) (b : Byte) : (s.setByte a b).poison = s.poison := rfl
@[simp] theorem State.pkg_setByte (s : State) (a : Nat) (b : Byte) : (s.setByte a b).pkg = s.pkg := rfl
@[simp] theorem State.csr_setByte (s : State) (a : Nat) (b : Byte) : (s.setByte a b).csr = s.csr := rfl
@[simp] theorem State.cores_setByte (s : State) (a : Nat) (b : Byte) : (s.setByte a b).cores = s.cores := rfl
@[simp] theorem State.waves_setByte (s : State) (a : Nat) (b : Byte) : (s.setByte a b).waves = s.waves := rfl
@[simp] theorem State.wgs_setByte (s : State) (a : Nat) (b : Byte) : (s.setByte a b).wgs = s.wgs := rfl
@[simp] theorem State.tasks_setByte (s : State) (a : Nat) (b : Byte) : (s.setByte a b).tasks = s.tasks := rfl
@[simp] theorem State.queues_setByte (s : State) (a : Nat) (b : Byte) : (s.setByte a b).queues = s.queues := rfl
@[simp] theorem State.pool_setByte (s : State) (a : Nat) (b : Byte) : (s.setByte a b).pool = s.pool := rfl
@[simp] theorem State.kwaits_setByte (s : State) (a : Nat) (b : Byte) : (s.setByte a b).kwaits = s.kwaits := rfl
@[simp] theorem State.dealer_setByte (s : State) (a : Nat) (b : Byte) : (s.setByte a b).dealer = s.dealer := rfl
@[simp] theorem State.pointer_setByte (s : State) (a : Nat) (b : Byte) : (s.setByte a b).pointer = s.pointer := rfl
@[simp] theorem State.dispatchN_setByte (s : State) (a : Nat) (b : Byte) : (s.setByte a b).dispatchN = s.dispatchN := rfl
@[simp] theorem State.pushes_setByte (s : State) (a : Nat) (b : Byte) : (s.setByte a b).pushes = s.pushes := rfl
@[simp] theorem State.kitty_setByte (s : State) (a : Nat) (b : Byte) : (s.setByte a b).kitty = s.kitty := rfl
@[simp] theorem State.ops_setByte (s : State) (a : Nat) (b : Byte) : (s.setByte a b).ops = s.ops := rfl
@[simp] theorem State.l1tlb_setByte (s : State) (a : Nat) (b : Byte) : (s.setByte a b).l1tlb = s.l1tlb := rfl
@[simp] theorem State.l2tlb_setByte (s : State) (a : Nat) (b : Byte) : (s.setByte a b).l2tlb = s.l2tlb := rfl
@[simp] theorem State.walks_setByte (s : State) (a : Nat) (b : Byte) : (s.setByte a b).walks = s.walks := rfl
@[simp] theorem State.fb_setByte (s : State) (a : Nat) (b : Byte) : (s.setByte a b).fb = s.fb := rfl
@[simp] theorem State.dropped_setByte (s : State) (a : Nat) (b : Byte) : (s.setByte a b).dropped = s.dropped := rfl
@[simp] theorem State.migs_setByte (s : State) (a : Nat) (b : Byte) : (s.setByte a b).migs = s.migs := rfl
@[simp] theorem State.caches_setByte (s : State) (a : Nat) (b : Byte) : (s.setByte a b).caches = s.caches := rfl
@[simp] theorem State.copies_setByte (s : State) (a : Nat) (b : Byte) : (s.setByte a b).copies = s.copies := rfl
@[simp] theorem State.engines_setByte (s : State) (a : Nat) (b : Byte) : (s.setByte a b).engines = s.engines := rfl
@[simp] theorem State.slices_setByte (s : State) (a : Nat) (b : Byte) : (s.setByte a b).slices = s.slices := rfl
@[simp] theorem State.sent_setByte (s : State) (a : Nat) (b : Byte) : (s.setByte a b).sent = s.sent := rfl
@[simp] theorem State.tables_setByte (s : State) (a : Nat) (b : Byte) : (s.setByte a b).tables = s.tables := rfl
@[simp] theorem State.ranges_setByte (s : State) (a : Nat) (b : Byte) : (s.setByte a b).ranges = s.ranges := rfl
@[simp] theorem State.drains_setByte (s : State) (a : Nat) (b : Byte) : (s.setByte a b).drains = s.drains := rfl
@[simp] theorem State.records_setByte (s : State) (a : Nat) (b : Byte) : (s.setByte a b).records = s.records := rfl
@[simp] theorem State.detached_setByte (s : State) (a : Nat) (b : Byte) : (s.setByte a b).detached = s.detached := rfl
@[simp] theorem State.recwait_setByte (s : State) (a : Nat) (b : Byte) : (s.setByte a b).recwait = s.recwait := rfl
@[simp] theorem State.saved_setByte (s : State) (a : Nat) (b : Byte) : (s.setByte a b).saved = s.saved := rfl
@[simp] theorem State.saving_setByte (s : State) (a : Nat) (b : Byte) : (s.setByte a b).saving = s.saving := rfl
@[simp] theorem State.written_setByte (s : State) (a : Nat) (b : Byte) : (s.setByte a b).written = s.written := rfl
@[simp] theorem State.guests_setByte (s : State) (a : Nat) (b : Byte) : (s.setByte a b).guests = s.guests := rfl
@[simp] theorem State.barred_setByte (s : State) (a : Nat) (b : Byte) : (s.setByte a b).barred = s.barred := rfl
@[simp] theorem State.indigo_setByte (s : State) (a : Nat) (b : Byte) : (s.setByte a b).indigo = s.indigo := rfl
@[simp] theorem State.windows_setByte (s : State) (a : Nat) (b : Byte) : (s.setByte a b).windows = s.windows := rfl
@[simp] theorem State.mailbox_setByte (s : State) (a : Nat) (b : Byte) : (s.setByte a b).mailbox = s.mailbox := rfl
@[simp] theorem State.keys_setByte (s : State) (a : Nat) (b : Byte) : (s.setByte a b).keys = s.keys := rfl
@[simp] theorem State.revoked_setByte (s : State) (a : Nat) (b : Byte) : (s.setByte a b).revoked = s.revoked := rfl
@[simp] theorem State.kix_setByte (s : State) (a : Nat) (b : Byte) : (s.setByte a b).kix = s.kix := rfl
@[simp] theorem State.vcache_setByte (s : State) (a : Nat) (b : Byte) : (s.setByte a b).vcache = s.vcache := rfl
@[simp] theorem State.scans_setByte (s : State) (a : Nat) (b : Byte) : (s.setByte a b).scans = s.scans := rfl
@[simp] theorem State.flushing_setByte (s : State) (a : Nat) (b : Byte) : (s.setByte a b).flushing = s.flushing := rfl
@[simp] theorem State.latched_setByte (s : State) (a : Nat) (b : Byte) : (s.setByte a b).latched = s.latched := rfl
@[simp] theorem State.latchGT_setByte (s : State) (a : Nat) (b : Byte) : (s.setByte a b).latchGT = s.latchGT := rfl
@[simp] theorem State.cntuni_setByte (s : State) (a : Nat) (b : Byte) : (s.setByte a b).cntuni = s.cntuni := rfl
@[simp] theorem State.cntaff_setByte (s : State) (a : Nat) (b : Byte) : (s.setByte a b).cntaff = s.cntaff := rfl
@[simp] theorem State.ewct_setByte (s : State) (a : Nat) (b : Byte) : (s.setByte a b).ewct = s.ewct := rfl
@[simp] theorem State.encs_setByte (s : State) (a : Nat) (b : Byte) : (s.setByte a b).encs = s.encs := rfl
@[simp] theorem State.tagDiff_setByte (s : State) (a : Nat) (b : Byte) : (s.setByte a b).tagDiff = s.tagDiff := rfl
@[simp] theorem State.keyDraw_setByte (s : State) (a : Nat) (b : Byte) : (s.setByte a b).keyDraw = s.keyDraw := rfl
@[simp] theorem State.vacating_setByte (s : State) (a : Nat) (b : Byte) : (s.setByte a b).vacating = s.vacating := rfl
@[simp] theorem State.ports_setByte (s : State) (a : Nat) (b : Byte) : (s.setByte a b).ports = s.ports := rfl
@[simp] theorem State.link_setByte (s : State) (a : Nat) (b : Byte) : (s.setByte a b).link = s.link := rfl
@[simp] theorem State.cntsbm_setByte (s : State) (a : Nat) (b : Byte) : (s.setByte a b).cntsbm = s.cntsbm := rfl

/-! ## setMark -/

@[simp] theorem State.mode_setMark (s : State) (a : Nat) (m : Mark) : (s.setMark a m).mode = s.mode := rfl
@[simp] theorem State.power_setMark (s : State) (a : Nat) (m : Mark) : (s.setMark a m).power = s.power := rfl
@[simp] theorem State.failed_setMark (s : State) (a : Nat) (m : Mark) : (s.setMark a m).failed = s.failed := rfl
@[simp] theorem State.throttle_setMark (s : State) (a : Nat) (m : Mark) : (s.setMark a m).throttle = s.throttle := rfl
@[simp] theorem State.hot_setMark (s : State) (a : Nat) (m : Mark) : (s.setMark a m).hot = s.hot := rfl
@[simp] theorem State.gt_setMark (s : State) (a : Nat) (m : Mark) : (s.setMark a m).gt = s.gt := rfl
@[simp] theorem State.ticks_setMark (s : State) (a : Nat) (m : Mark) : (s.setMark a m).ticks = s.ticks := rfl
@[simp] theorem State.fresh_setMark (s : State) (a : Nat) (m : Mark) : (s.setMark a m).fresh = s.fresh := rfl
@[simp] theorem State.nextId_setMark (s : State) (a : Nat) (m : Mark) : (s.setMark a m).nextId = s.nextId := rfl
@[simp] theorem State.cur_setMark (s : State) (a : Nat) (m : Mark) : (s.setMark a m).cur = s.cur := rfl
@[simp] theorem State.slotTurn_setMark (s : State) (a : Nat) (m : Mark) : (s.setMark a m).slotTurn = s.slotTurn := rfl
@[simp] theorem State.slotPtr_setMark (s : State) (a : Nat) (m : Mark) : (s.setMark a m).slotPtr = s.slotPtr := rfl
@[simp] theorem State.turns_setMark (s : State) (a : Nat) (m : Mark) : (s.setMark a m).turns = s.turns := rfl
@[simp] theorem State.agenda_setMark (s : State) (a : Nat) (m : Mark) : (s.setMark a m).agenda = s.agenda := rfl
@[simp] theorem State.mem_setMark (s : State) (a : Nat) (m : Mark) : (s.setMark a m).mem = s.mem := rfl
@[simp] theorem State.poison_setMark (s : State) (a : Nat) (m : Mark) : (s.setMark a m).poison = Sparse.set Mark.none s.poison (granule a) m := rfl
@[simp] theorem State.pkg_setMark (s : State) (a : Nat) (m : Mark) : (s.setMark a m).pkg = s.pkg := rfl
@[simp] theorem State.csr_setMark (s : State) (a : Nat) (m : Mark) : (s.setMark a m).csr = s.csr := rfl
@[simp] theorem State.cores_setMark (s : State) (a : Nat) (m : Mark) : (s.setMark a m).cores = s.cores := rfl
@[simp] theorem State.waves_setMark (s : State) (a : Nat) (m : Mark) : (s.setMark a m).waves = s.waves := rfl
@[simp] theorem State.wgs_setMark (s : State) (a : Nat) (m : Mark) : (s.setMark a m).wgs = s.wgs := rfl
@[simp] theorem State.tasks_setMark (s : State) (a : Nat) (m : Mark) : (s.setMark a m).tasks = s.tasks := rfl
@[simp] theorem State.queues_setMark (s : State) (a : Nat) (m : Mark) : (s.setMark a m).queues = s.queues := rfl
@[simp] theorem State.pool_setMark (s : State) (a : Nat) (m : Mark) : (s.setMark a m).pool = s.pool := rfl
@[simp] theorem State.kwaits_setMark (s : State) (a : Nat) (m : Mark) : (s.setMark a m).kwaits = s.kwaits := rfl
@[simp] theorem State.dealer_setMark (s : State) (a : Nat) (m : Mark) : (s.setMark a m).dealer = s.dealer := rfl
@[simp] theorem State.pointer_setMark (s : State) (a : Nat) (m : Mark) : (s.setMark a m).pointer = s.pointer := rfl
@[simp] theorem State.dispatchN_setMark (s : State) (a : Nat) (m : Mark) : (s.setMark a m).dispatchN = s.dispatchN := rfl
@[simp] theorem State.pushes_setMark (s : State) (a : Nat) (m : Mark) : (s.setMark a m).pushes = s.pushes := rfl
@[simp] theorem State.kitty_setMark (s : State) (a : Nat) (m : Mark) : (s.setMark a m).kitty = s.kitty := rfl
@[simp] theorem State.ops_setMark (s : State) (a : Nat) (m : Mark) : (s.setMark a m).ops = s.ops := rfl
@[simp] theorem State.l1tlb_setMark (s : State) (a : Nat) (m : Mark) : (s.setMark a m).l1tlb = s.l1tlb := rfl
@[simp] theorem State.l2tlb_setMark (s : State) (a : Nat) (m : Mark) : (s.setMark a m).l2tlb = s.l2tlb := rfl
@[simp] theorem State.walks_setMark (s : State) (a : Nat) (m : Mark) : (s.setMark a m).walks = s.walks := rfl
@[simp] theorem State.fb_setMark (s : State) (a : Nat) (m : Mark) : (s.setMark a m).fb = s.fb := rfl
@[simp] theorem State.dropped_setMark (s : State) (a : Nat) (m : Mark) : (s.setMark a m).dropped = s.dropped := rfl
@[simp] theorem State.migs_setMark (s : State) (a : Nat) (m : Mark) : (s.setMark a m).migs = s.migs := rfl
@[simp] theorem State.caches_setMark (s : State) (a : Nat) (m : Mark) : (s.setMark a m).caches = s.caches := rfl
@[simp] theorem State.copies_setMark (s : State) (a : Nat) (m : Mark) : (s.setMark a m).copies = s.copies := rfl
@[simp] theorem State.engines_setMark (s : State) (a : Nat) (m : Mark) : (s.setMark a m).engines = s.engines := rfl
@[simp] theorem State.slices_setMark (s : State) (a : Nat) (m : Mark) : (s.setMark a m).slices = s.slices := rfl
@[simp] theorem State.sent_setMark (s : State) (a : Nat) (m : Mark) : (s.setMark a m).sent = s.sent := rfl
@[simp] theorem State.tables_setMark (s : State) (a : Nat) (m : Mark) : (s.setMark a m).tables = s.tables := rfl
@[simp] theorem State.ranges_setMark (s : State) (a : Nat) (m : Mark) : (s.setMark a m).ranges = s.ranges := rfl
@[simp] theorem State.drains_setMark (s : State) (a : Nat) (m : Mark) : (s.setMark a m).drains = s.drains := rfl
@[simp] theorem State.records_setMark (s : State) (a : Nat) (m : Mark) : (s.setMark a m).records = s.records := rfl
@[simp] theorem State.detached_setMark (s : State) (a : Nat) (m : Mark) : (s.setMark a m).detached = s.detached := rfl
@[simp] theorem State.recwait_setMark (s : State) (a : Nat) (m : Mark) : (s.setMark a m).recwait = s.recwait := rfl
@[simp] theorem State.saved_setMark (s : State) (a : Nat) (m : Mark) : (s.setMark a m).saved = s.saved := rfl
@[simp] theorem State.saving_setMark (s : State) (a : Nat) (m : Mark) : (s.setMark a m).saving = s.saving := rfl
@[simp] theorem State.written_setMark (s : State) (a : Nat) (m : Mark) : (s.setMark a m).written = s.written := rfl
@[simp] theorem State.guests_setMark (s : State) (a : Nat) (m : Mark) : (s.setMark a m).guests = s.guests := rfl
@[simp] theorem State.barred_setMark (s : State) (a : Nat) (m : Mark) : (s.setMark a m).barred = s.barred := rfl
@[simp] theorem State.indigo_setMark (s : State) (a : Nat) (m : Mark) : (s.setMark a m).indigo = s.indigo := rfl
@[simp] theorem State.windows_setMark (s : State) (a : Nat) (m : Mark) : (s.setMark a m).windows = s.windows := rfl
@[simp] theorem State.mailbox_setMark (s : State) (a : Nat) (m : Mark) : (s.setMark a m).mailbox = s.mailbox := rfl
@[simp] theorem State.keys_setMark (s : State) (a : Nat) (m : Mark) : (s.setMark a m).keys = s.keys := rfl
@[simp] theorem State.revoked_setMark (s : State) (a : Nat) (m : Mark) : (s.setMark a m).revoked = s.revoked := rfl
@[simp] theorem State.kix_setMark (s : State) (a : Nat) (m : Mark) : (s.setMark a m).kix = s.kix := rfl
@[simp] theorem State.vcache_setMark (s : State) (a : Nat) (m : Mark) : (s.setMark a m).vcache = s.vcache := rfl
@[simp] theorem State.scans_setMark (s : State) (a : Nat) (m : Mark) : (s.setMark a m).scans = s.scans := rfl
@[simp] theorem State.flushing_setMark (s : State) (a : Nat) (m : Mark) : (s.setMark a m).flushing = s.flushing := rfl
@[simp] theorem State.latched_setMark (s : State) (a : Nat) (m : Mark) : (s.setMark a m).latched = s.latched := rfl
@[simp] theorem State.latchGT_setMark (s : State) (a : Nat) (m : Mark) : (s.setMark a m).latchGT = s.latchGT := rfl
@[simp] theorem State.cntuni_setMark (s : State) (a : Nat) (m : Mark) : (s.setMark a m).cntuni = s.cntuni := rfl
@[simp] theorem State.cntaff_setMark (s : State) (a : Nat) (m : Mark) : (s.setMark a m).cntaff = s.cntaff := rfl
@[simp] theorem State.ewct_setMark (s : State) (a : Nat) (m : Mark) : (s.setMark a m).ewct = s.ewct := rfl
@[simp] theorem State.encs_setMark (s : State) (a : Nat) (m : Mark) : (s.setMark a m).encs = s.encs := rfl
@[simp] theorem State.tagDiff_setMark (s : State) (a : Nat) (m : Mark) : (s.setMark a m).tagDiff = s.tagDiff := rfl
@[simp] theorem State.keyDraw_setMark (s : State) (a : Nat) (m : Mark) : (s.setMark a m).keyDraw = s.keyDraw := rfl
@[simp] theorem State.vacating_setMark (s : State) (a : Nat) (m : Mark) : (s.setMark a m).vacating = s.vacating := rfl
@[simp] theorem State.ports_setMark (s : State) (a : Nat) (m : Mark) : (s.setMark a m).ports = s.ports := rfl
@[simp] theorem State.link_setMark (s : State) (a : Nat) (m : Mark) : (s.setMark a m).link = s.link := rfl
@[simp] theorem State.cntsbm_setMark (s : State) (a : Nat) (m : Mark) : (s.setMark a m).cntsbm = s.cntsbm := rfl

/-! ## csrPut -/

@[simp] theorem State.mode_csrPut (s : State) (num inst : Nat) (v : Dword) : (s.csrPut num inst v).mode = s.mode := rfl
@[simp] theorem State.power_csrPut (s : State) (num inst : Nat) (v : Dword) : (s.csrPut num inst v).power = s.power := rfl
@[simp] theorem State.failed_csrPut (s : State) (num inst : Nat) (v : Dword) : (s.csrPut num inst v).failed = s.failed := rfl
@[simp] theorem State.throttle_csrPut (s : State) (num inst : Nat) (v : Dword) : (s.csrPut num inst v).throttle = s.throttle := rfl
@[simp] theorem State.hot_csrPut (s : State) (num inst : Nat) (v : Dword) : (s.csrPut num inst v).hot = s.hot := rfl
@[simp] theorem State.gt_csrPut (s : State) (num inst : Nat) (v : Dword) : (s.csrPut num inst v).gt = s.gt := rfl
@[simp] theorem State.ticks_csrPut (s : State) (num inst : Nat) (v : Dword) : (s.csrPut num inst v).ticks = s.ticks := rfl
@[simp] theorem State.fresh_csrPut (s : State) (num inst : Nat) (v : Dword) : (s.csrPut num inst v).fresh = s.fresh := rfl
@[simp] theorem State.nextId_csrPut (s : State) (num inst : Nat) (v : Dword) : (s.csrPut num inst v).nextId = s.nextId := rfl
@[simp] theorem State.cur_csrPut (s : State) (num inst : Nat) (v : Dword) : (s.csrPut num inst v).cur = s.cur := rfl
@[simp] theorem State.slotTurn_csrPut (s : State) (num inst : Nat) (v : Dword) : (s.csrPut num inst v).slotTurn = s.slotTurn := rfl
@[simp] theorem State.slotPtr_csrPut (s : State) (num inst : Nat) (v : Dword) : (s.csrPut num inst v).slotPtr = s.slotPtr := rfl
@[simp] theorem State.turns_csrPut (s : State) (num inst : Nat) (v : Dword) : (s.csrPut num inst v).turns = s.turns := rfl
@[simp] theorem State.agenda_csrPut (s : State) (num inst : Nat) (v : Dword) : (s.csrPut num inst v).agenda = s.agenda := rfl
@[simp] theorem State.mem_csrPut (s : State) (num inst : Nat) (v : Dword) : (s.csrPut num inst v).mem = s.mem := rfl
@[simp] theorem State.poison_csrPut (s : State) (num inst : Nat) (v : Dword) : (s.csrPut num inst v).poison = s.poison := rfl
@[simp] theorem State.pkg_csrPut (s : State) (num inst : Nat) (v : Dword) : (s.csrPut num inst v).pkg = s.pkg := rfl
@[simp] theorem State.csr_csrPut (s : State) (num inst : Nat) (v : Dword) : (s.csrPut num inst v).csr = Sparse.put s.csr (num * 256 + inst) v := rfl
@[simp] theorem State.cores_csrPut (s : State) (num inst : Nat) (v : Dword) : (s.csrPut num inst v).cores = s.cores := rfl
@[simp] theorem State.waves_csrPut (s : State) (num inst : Nat) (v : Dword) : (s.csrPut num inst v).waves = s.waves := rfl
@[simp] theorem State.wgs_csrPut (s : State) (num inst : Nat) (v : Dword) : (s.csrPut num inst v).wgs = s.wgs := rfl
@[simp] theorem State.tasks_csrPut (s : State) (num inst : Nat) (v : Dword) : (s.csrPut num inst v).tasks = s.tasks := rfl
@[simp] theorem State.queues_csrPut (s : State) (num inst : Nat) (v : Dword) : (s.csrPut num inst v).queues = s.queues := rfl
@[simp] theorem State.pool_csrPut (s : State) (num inst : Nat) (v : Dword) : (s.csrPut num inst v).pool = s.pool := rfl
@[simp] theorem State.kwaits_csrPut (s : State) (num inst : Nat) (v : Dword) : (s.csrPut num inst v).kwaits = s.kwaits := rfl
@[simp] theorem State.dealer_csrPut (s : State) (num inst : Nat) (v : Dword) : (s.csrPut num inst v).dealer = s.dealer := rfl
@[simp] theorem State.pointer_csrPut (s : State) (num inst : Nat) (v : Dword) : (s.csrPut num inst v).pointer = s.pointer := rfl
@[simp] theorem State.dispatchN_csrPut (s : State) (num inst : Nat) (v : Dword) : (s.csrPut num inst v).dispatchN = s.dispatchN := rfl
@[simp] theorem State.pushes_csrPut (s : State) (num inst : Nat) (v : Dword) : (s.csrPut num inst v).pushes = s.pushes := rfl
@[simp] theorem State.kitty_csrPut (s : State) (num inst : Nat) (v : Dword) : (s.csrPut num inst v).kitty = s.kitty := rfl
@[simp] theorem State.ops_csrPut (s : State) (num inst : Nat) (v : Dword) : (s.csrPut num inst v).ops = s.ops := rfl
@[simp] theorem State.l1tlb_csrPut (s : State) (num inst : Nat) (v : Dword) : (s.csrPut num inst v).l1tlb = s.l1tlb := rfl
@[simp] theorem State.l2tlb_csrPut (s : State) (num inst : Nat) (v : Dword) : (s.csrPut num inst v).l2tlb = s.l2tlb := rfl
@[simp] theorem State.walks_csrPut (s : State) (num inst : Nat) (v : Dword) : (s.csrPut num inst v).walks = s.walks := rfl
@[simp] theorem State.fb_csrPut (s : State) (num inst : Nat) (v : Dword) : (s.csrPut num inst v).fb = s.fb := rfl
@[simp] theorem State.dropped_csrPut (s : State) (num inst : Nat) (v : Dword) : (s.csrPut num inst v).dropped = s.dropped := rfl
@[simp] theorem State.migs_csrPut (s : State) (num inst : Nat) (v : Dword) : (s.csrPut num inst v).migs = s.migs := rfl
@[simp] theorem State.caches_csrPut (s : State) (num inst : Nat) (v : Dword) : (s.csrPut num inst v).caches = s.caches := rfl
@[simp] theorem State.copies_csrPut (s : State) (num inst : Nat) (v : Dword) : (s.csrPut num inst v).copies = s.copies := rfl
@[simp] theorem State.engines_csrPut (s : State) (num inst : Nat) (v : Dword) : (s.csrPut num inst v).engines = s.engines := rfl
@[simp] theorem State.slices_csrPut (s : State) (num inst : Nat) (v : Dword) : (s.csrPut num inst v).slices = s.slices := rfl
@[simp] theorem State.sent_csrPut (s : State) (num inst : Nat) (v : Dword) : (s.csrPut num inst v).sent = s.sent := rfl
@[simp] theorem State.tables_csrPut (s : State) (num inst : Nat) (v : Dword) : (s.csrPut num inst v).tables = s.tables := rfl
@[simp] theorem State.ranges_csrPut (s : State) (num inst : Nat) (v : Dword) : (s.csrPut num inst v).ranges = s.ranges := rfl
@[simp] theorem State.drains_csrPut (s : State) (num inst : Nat) (v : Dword) : (s.csrPut num inst v).drains = s.drains := rfl
@[simp] theorem State.records_csrPut (s : State) (num inst : Nat) (v : Dword) : (s.csrPut num inst v).records = s.records := rfl
@[simp] theorem State.detached_csrPut (s : State) (num inst : Nat) (v : Dword) : (s.csrPut num inst v).detached = s.detached := rfl
@[simp] theorem State.recwait_csrPut (s : State) (num inst : Nat) (v : Dword) : (s.csrPut num inst v).recwait = s.recwait := rfl
@[simp] theorem State.saved_csrPut (s : State) (num inst : Nat) (v : Dword) : (s.csrPut num inst v).saved = s.saved := rfl
@[simp] theorem State.saving_csrPut (s : State) (num inst : Nat) (v : Dword) : (s.csrPut num inst v).saving = s.saving := rfl
@[simp] theorem State.written_csrPut (s : State) (num inst : Nat) (v : Dword) : (s.csrPut num inst v).written = s.written := rfl
@[simp] theorem State.guests_csrPut (s : State) (num inst : Nat) (v : Dword) : (s.csrPut num inst v).guests = s.guests := rfl
@[simp] theorem State.barred_csrPut (s : State) (num inst : Nat) (v : Dword) : (s.csrPut num inst v).barred = s.barred := rfl
@[simp] theorem State.indigo_csrPut (s : State) (num inst : Nat) (v : Dword) : (s.csrPut num inst v).indigo = s.indigo := rfl
@[simp] theorem State.windows_csrPut (s : State) (num inst : Nat) (v : Dword) : (s.csrPut num inst v).windows = s.windows := rfl
@[simp] theorem State.mailbox_csrPut (s : State) (num inst : Nat) (v : Dword) : (s.csrPut num inst v).mailbox = s.mailbox := rfl
@[simp] theorem State.keys_csrPut (s : State) (num inst : Nat) (v : Dword) : (s.csrPut num inst v).keys = s.keys := rfl
@[simp] theorem State.revoked_csrPut (s : State) (num inst : Nat) (v : Dword) : (s.csrPut num inst v).revoked = s.revoked := rfl
@[simp] theorem State.kix_csrPut (s : State) (num inst : Nat) (v : Dword) : (s.csrPut num inst v).kix = s.kix := rfl
@[simp] theorem State.vcache_csrPut (s : State) (num inst : Nat) (v : Dword) : (s.csrPut num inst v).vcache = s.vcache := rfl
@[simp] theorem State.scans_csrPut (s : State) (num inst : Nat) (v : Dword) : (s.csrPut num inst v).scans = s.scans := rfl
@[simp] theorem State.flushing_csrPut (s : State) (num inst : Nat) (v : Dword) : (s.csrPut num inst v).flushing = s.flushing := rfl
@[simp] theorem State.latched_csrPut (s : State) (num inst : Nat) (v : Dword) : (s.csrPut num inst v).latched = s.latched := rfl
@[simp] theorem State.latchGT_csrPut (s : State) (num inst : Nat) (v : Dword) : (s.csrPut num inst v).latchGT = s.latchGT := rfl
@[simp] theorem State.cntuni_csrPut (s : State) (num inst : Nat) (v : Dword) : (s.csrPut num inst v).cntuni = s.cntuni := rfl
@[simp] theorem State.cntaff_csrPut (s : State) (num inst : Nat) (v : Dword) : (s.csrPut num inst v).cntaff = s.cntaff := rfl
@[simp] theorem State.ewct_csrPut (s : State) (num inst : Nat) (v : Dword) : (s.csrPut num inst v).ewct = s.ewct := rfl
@[simp] theorem State.encs_csrPut (s : State) (num inst : Nat) (v : Dword) : (s.csrPut num inst v).encs = s.encs := rfl
@[simp] theorem State.tagDiff_csrPut (s : State) (num inst : Nat) (v : Dword) : (s.csrPut num inst v).tagDiff = s.tagDiff := rfl
@[simp] theorem State.keyDraw_csrPut (s : State) (num inst : Nat) (v : Dword) : (s.csrPut num inst v).keyDraw = s.keyDraw := rfl
@[simp] theorem State.vacating_csrPut (s : State) (num inst : Nat) (v : Dword) : (s.csrPut num inst v).vacating = s.vacating := rfl
@[simp] theorem State.ports_csrPut (s : State) (num inst : Nat) (v : Dword) : (s.csrPut num inst v).ports = s.ports := rfl
@[simp] theorem State.link_csrPut (s : State) (num inst : Nat) (v : Dword) : (s.csrPut num inst v).link = s.link := rfl
@[simp] theorem State.cntsbm_csrPut (s : State) (num inst : Nat) (v : Dword) : (s.csrPut num inst v).cntsbm = s.cntsbm := rfl

/-! ## setEngine -/

@[simp] theorem State.mode_setEngine (s : State) (c : Nat) (e : Engine) : (s.setEngine c e).mode = s.mode := rfl
@[simp] theorem State.power_setEngine (s : State) (c : Nat) (e : Engine) : (s.setEngine c e).power = s.power := rfl
@[simp] theorem State.failed_setEngine (s : State) (c : Nat) (e : Engine) : (s.setEngine c e).failed = s.failed := rfl
@[simp] theorem State.throttle_setEngine (s : State) (c : Nat) (e : Engine) : (s.setEngine c e).throttle = s.throttle := rfl
@[simp] theorem State.hot_setEngine (s : State) (c : Nat) (e : Engine) : (s.setEngine c e).hot = s.hot := rfl
@[simp] theorem State.gt_setEngine (s : State) (c : Nat) (e : Engine) : (s.setEngine c e).gt = s.gt := rfl
@[simp] theorem State.ticks_setEngine (s : State) (c : Nat) (e : Engine) : (s.setEngine c e).ticks = s.ticks := rfl
@[simp] theorem State.fresh_setEngine (s : State) (c : Nat) (e : Engine) : (s.setEngine c e).fresh = s.fresh := rfl
@[simp] theorem State.nextId_setEngine (s : State) (c : Nat) (e : Engine) : (s.setEngine c e).nextId = s.nextId := rfl
@[simp] theorem State.cur_setEngine (s : State) (c : Nat) (e : Engine) : (s.setEngine c e).cur = s.cur := rfl
@[simp] theorem State.slotTurn_setEngine (s : State) (c : Nat) (e : Engine) : (s.setEngine c e).slotTurn = s.slotTurn := rfl
@[simp] theorem State.slotPtr_setEngine (s : State) (c : Nat) (e : Engine) : (s.setEngine c e).slotPtr = s.slotPtr := rfl
@[simp] theorem State.turns_setEngine (s : State) (c : Nat) (e : Engine) : (s.setEngine c e).turns = s.turns := rfl
@[simp] theorem State.agenda_setEngine (s : State) (c : Nat) (e : Engine) : (s.setEngine c e).agenda = s.agenda := rfl
@[simp] theorem State.mem_setEngine (s : State) (c : Nat) (e : Engine) : (s.setEngine c e).mem = s.mem := rfl
@[simp] theorem State.poison_setEngine (s : State) (c : Nat) (e : Engine) : (s.setEngine c e).poison = s.poison := rfl
@[simp] theorem State.pkg_setEngine (s : State) (c : Nat) (e : Engine) : (s.setEngine c e).pkg = s.pkg := rfl
@[simp] theorem State.csr_setEngine (s : State) (c : Nat) (e : Engine) : (s.setEngine c e).csr = s.csr := rfl
@[simp] theorem State.cores_setEngine (s : State) (c : Nat) (e : Engine) : (s.setEngine c e).cores = s.cores := rfl
@[simp] theorem State.waves_setEngine (s : State) (c : Nat) (e : Engine) : (s.setEngine c e).waves = s.waves := rfl
@[simp] theorem State.wgs_setEngine (s : State) (c : Nat) (e : Engine) : (s.setEngine c e).wgs = s.wgs := rfl
@[simp] theorem State.tasks_setEngine (s : State) (c : Nat) (e : Engine) : (s.setEngine c e).tasks = s.tasks := rfl
@[simp] theorem State.queues_setEngine (s : State) (c : Nat) (e : Engine) : (s.setEngine c e).queues = s.queues := rfl
@[simp] theorem State.pool_setEngine (s : State) (c : Nat) (e : Engine) : (s.setEngine c e).pool = s.pool := rfl
@[simp] theorem State.kwaits_setEngine (s : State) (c : Nat) (e : Engine) : (s.setEngine c e).kwaits = s.kwaits := rfl
@[simp] theorem State.dealer_setEngine (s : State) (c : Nat) (e : Engine) : (s.setEngine c e).dealer = s.dealer := rfl
@[simp] theorem State.pointer_setEngine (s : State) (c : Nat) (e : Engine) : (s.setEngine c e).pointer = s.pointer := rfl
@[simp] theorem State.dispatchN_setEngine (s : State) (c : Nat) (e : Engine) : (s.setEngine c e).dispatchN = s.dispatchN := rfl
@[simp] theorem State.pushes_setEngine (s : State) (c : Nat) (e : Engine) : (s.setEngine c e).pushes = s.pushes := rfl
@[simp] theorem State.kitty_setEngine (s : State) (c : Nat) (e : Engine) : (s.setEngine c e).kitty = s.kitty := rfl
@[simp] theorem State.ops_setEngine (s : State) (c : Nat) (e : Engine) : (s.setEngine c e).ops = s.ops := rfl
@[simp] theorem State.l1tlb_setEngine (s : State) (c : Nat) (e : Engine) : (s.setEngine c e).l1tlb = s.l1tlb := rfl
@[simp] theorem State.l2tlb_setEngine (s : State) (c : Nat) (e : Engine) : (s.setEngine c e).l2tlb = s.l2tlb := rfl
@[simp] theorem State.walks_setEngine (s : State) (c : Nat) (e : Engine) : (s.setEngine c e).walks = s.walks := rfl
@[simp] theorem State.fb_setEngine (s : State) (c : Nat) (e : Engine) : (s.setEngine c e).fb = s.fb := rfl
@[simp] theorem State.dropped_setEngine (s : State) (c : Nat) (e : Engine) : (s.setEngine c e).dropped = s.dropped := rfl
@[simp] theorem State.migs_setEngine (s : State) (c : Nat) (e : Engine) : (s.setEngine c e).migs = s.migs := rfl
@[simp] theorem State.caches_setEngine (s : State) (c : Nat) (e : Engine) : (s.setEngine c e).caches = s.caches := rfl
@[simp] theorem State.copies_setEngine (s : State) (c : Nat) (e : Engine) : (s.setEngine c e).copies = s.copies := rfl
@[simp] theorem State.engines_setEngine (s : State) (c : Nat) (e : Engine) : (s.setEngine c e).engines = Sparse.put s.engines c e := rfl
@[simp] theorem State.slices_setEngine (s : State) (c : Nat) (e : Engine) : (s.setEngine c e).slices = s.slices := rfl
@[simp] theorem State.sent_setEngine (s : State) (c : Nat) (e : Engine) : (s.setEngine c e).sent = s.sent := rfl
@[simp] theorem State.tables_setEngine (s : State) (c : Nat) (e : Engine) : (s.setEngine c e).tables = s.tables := rfl
@[simp] theorem State.ranges_setEngine (s : State) (c : Nat) (e : Engine) : (s.setEngine c e).ranges = s.ranges := rfl
@[simp] theorem State.drains_setEngine (s : State) (c : Nat) (e : Engine) : (s.setEngine c e).drains = s.drains := rfl
@[simp] theorem State.records_setEngine (s : State) (c : Nat) (e : Engine) : (s.setEngine c e).records = s.records := rfl
@[simp] theorem State.detached_setEngine (s : State) (c : Nat) (e : Engine) : (s.setEngine c e).detached = s.detached := rfl
@[simp] theorem State.recwait_setEngine (s : State) (c : Nat) (e : Engine) : (s.setEngine c e).recwait = s.recwait := rfl
@[simp] theorem State.saved_setEngine (s : State) (c : Nat) (e : Engine) : (s.setEngine c e).saved = s.saved := rfl
@[simp] theorem State.saving_setEngine (s : State) (c : Nat) (e : Engine) : (s.setEngine c e).saving = s.saving := rfl
@[simp] theorem State.written_setEngine (s : State) (c : Nat) (e : Engine) : (s.setEngine c e).written = s.written := rfl
@[simp] theorem State.guests_setEngine (s : State) (c : Nat) (e : Engine) : (s.setEngine c e).guests = s.guests := rfl
@[simp] theorem State.barred_setEngine (s : State) (c : Nat) (e : Engine) : (s.setEngine c e).barred = s.barred := rfl
@[simp] theorem State.indigo_setEngine (s : State) (c : Nat) (e : Engine) : (s.setEngine c e).indigo = s.indigo := rfl
@[simp] theorem State.windows_setEngine (s : State) (c : Nat) (e : Engine) : (s.setEngine c e).windows = s.windows := rfl
@[simp] theorem State.mailbox_setEngine (s : State) (c : Nat) (e : Engine) : (s.setEngine c e).mailbox = s.mailbox := rfl
@[simp] theorem State.keys_setEngine (s : State) (c : Nat) (e : Engine) : (s.setEngine c e).keys = s.keys := rfl
@[simp] theorem State.revoked_setEngine (s : State) (c : Nat) (e : Engine) : (s.setEngine c e).revoked = s.revoked := rfl
@[simp] theorem State.kix_setEngine (s : State) (c : Nat) (e : Engine) : (s.setEngine c e).kix = s.kix := rfl
@[simp] theorem State.vcache_setEngine (s : State) (c : Nat) (e : Engine) : (s.setEngine c e).vcache = s.vcache := rfl
@[simp] theorem State.scans_setEngine (s : State) (c : Nat) (e : Engine) : (s.setEngine c e).scans = s.scans := rfl
@[simp] theorem State.flushing_setEngine (s : State) (c : Nat) (e : Engine) : (s.setEngine c e).flushing = s.flushing := rfl
@[simp] theorem State.latched_setEngine (s : State) (c : Nat) (e : Engine) : (s.setEngine c e).latched = s.latched := rfl
@[simp] theorem State.latchGT_setEngine (s : State) (c : Nat) (e : Engine) : (s.setEngine c e).latchGT = s.latchGT := rfl
@[simp] theorem State.cntuni_setEngine (s : State) (c : Nat) (e : Engine) : (s.setEngine c e).cntuni = s.cntuni := rfl
@[simp] theorem State.cntaff_setEngine (s : State) (c : Nat) (e : Engine) : (s.setEngine c e).cntaff = s.cntaff := rfl
@[simp] theorem State.ewct_setEngine (s : State) (c : Nat) (e : Engine) : (s.setEngine c e).ewct = s.ewct := rfl
@[simp] theorem State.encs_setEngine (s : State) (c : Nat) (e : Engine) : (s.setEngine c e).encs = s.encs := rfl
@[simp] theorem State.tagDiff_setEngine (s : State) (c : Nat) (e : Engine) : (s.setEngine c e).tagDiff = s.tagDiff := rfl
@[simp] theorem State.keyDraw_setEngine (s : State) (c : Nat) (e : Engine) : (s.setEngine c e).keyDraw = s.keyDraw := rfl
@[simp] theorem State.vacating_setEngine (s : State) (c : Nat) (e : Engine) : (s.setEngine c e).vacating = s.vacating := rfl
@[simp] theorem State.ports_setEngine (s : State) (c : Nat) (e : Engine) : (s.setEngine c e).ports = s.ports := rfl
@[simp] theorem State.link_setEngine (s : State) (c : Nat) (e : Engine) : (s.setEngine c e).link = s.link := rfl
@[simp] theorem State.cntsbm_setEngine (s : State) (c : Nat) (e : Engine) : (s.setEngine c e).cntsbm = s.cntsbm := rfl

/-! ## modWg -/

@[simp] theorem State.mode_modWg (s : State) (g : Nat) (f : Workgroup → Workgroup) : (s.modWg g f).mode = s.mode := rfl
@[simp] theorem State.power_modWg (s : State) (g : Nat) (f : Workgroup → Workgroup) : (s.modWg g f).power = s.power := rfl
@[simp] theorem State.failed_modWg (s : State) (g : Nat) (f : Workgroup → Workgroup) : (s.modWg g f).failed = s.failed := rfl
@[simp] theorem State.throttle_modWg (s : State) (g : Nat) (f : Workgroup → Workgroup) : (s.modWg g f).throttle = s.throttle := rfl
@[simp] theorem State.hot_modWg (s : State) (g : Nat) (f : Workgroup → Workgroup) : (s.modWg g f).hot = s.hot := rfl
@[simp] theorem State.gt_modWg (s : State) (g : Nat) (f : Workgroup → Workgroup) : (s.modWg g f).gt = s.gt := rfl
@[simp] theorem State.ticks_modWg (s : State) (g : Nat) (f : Workgroup → Workgroup) : (s.modWg g f).ticks = s.ticks := rfl
@[simp] theorem State.fresh_modWg (s : State) (g : Nat) (f : Workgroup → Workgroup) : (s.modWg g f).fresh = s.fresh := rfl
@[simp] theorem State.nextId_modWg (s : State) (g : Nat) (f : Workgroup → Workgroup) : (s.modWg g f).nextId = s.nextId := rfl
@[simp] theorem State.cur_modWg (s : State) (g : Nat) (f : Workgroup → Workgroup) : (s.modWg g f).cur = s.cur := rfl
@[simp] theorem State.slotTurn_modWg (s : State) (g : Nat) (f : Workgroup → Workgroup) : (s.modWg g f).slotTurn = s.slotTurn := rfl
@[simp] theorem State.slotPtr_modWg (s : State) (g : Nat) (f : Workgroup → Workgroup) : (s.modWg g f).slotPtr = s.slotPtr := rfl
@[simp] theorem State.turns_modWg (s : State) (g : Nat) (f : Workgroup → Workgroup) : (s.modWg g f).turns = s.turns := rfl
@[simp] theorem State.agenda_modWg (s : State) (g : Nat) (f : Workgroup → Workgroup) : (s.modWg g f).agenda = s.agenda := rfl
@[simp] theorem State.mem_modWg (s : State) (g : Nat) (f : Workgroup → Workgroup) : (s.modWg g f).mem = s.mem := rfl
@[simp] theorem State.poison_modWg (s : State) (g : Nat) (f : Workgroup → Workgroup) : (s.modWg g f).poison = s.poison := rfl
@[simp] theorem State.pkg_modWg (s : State) (g : Nat) (f : Workgroup → Workgroup) : (s.modWg g f).pkg = s.pkg := rfl
@[simp] theorem State.csr_modWg (s : State) (g : Nat) (f : Workgroup → Workgroup) : (s.modWg g f).csr = s.csr := rfl
@[simp] theorem State.cores_modWg (s : State) (g : Nat) (f : Workgroup → Workgroup) : (s.modWg g f).cores = s.cores := rfl
@[simp] theorem State.waves_modWg (s : State) (g : Nat) (f : Workgroup → Workgroup) : (s.modWg g f).waves = s.waves := rfl
@[simp] theorem State.wgs_modWg (s : State) (g : Nat) (f : Workgroup → Workgroup) : (s.modWg g f).wgs = Sparse.update s.wgs g f := rfl
@[simp] theorem State.tasks_modWg (s : State) (g : Nat) (f : Workgroup → Workgroup) : (s.modWg g f).tasks = s.tasks := rfl
@[simp] theorem State.queues_modWg (s : State) (g : Nat) (f : Workgroup → Workgroup) : (s.modWg g f).queues = s.queues := rfl
@[simp] theorem State.pool_modWg (s : State) (g : Nat) (f : Workgroup → Workgroup) : (s.modWg g f).pool = s.pool := rfl
@[simp] theorem State.kwaits_modWg (s : State) (g : Nat) (f : Workgroup → Workgroup) : (s.modWg g f).kwaits = s.kwaits := rfl
@[simp] theorem State.dealer_modWg (s : State) (g : Nat) (f : Workgroup → Workgroup) : (s.modWg g f).dealer = s.dealer := rfl
@[simp] theorem State.pointer_modWg (s : State) (g : Nat) (f : Workgroup → Workgroup) : (s.modWg g f).pointer = s.pointer := rfl
@[simp] theorem State.dispatchN_modWg (s : State) (g : Nat) (f : Workgroup → Workgroup) : (s.modWg g f).dispatchN = s.dispatchN := rfl
@[simp] theorem State.pushes_modWg (s : State) (g : Nat) (f : Workgroup → Workgroup) : (s.modWg g f).pushes = s.pushes := rfl
@[simp] theorem State.kitty_modWg (s : State) (g : Nat) (f : Workgroup → Workgroup) : (s.modWg g f).kitty = s.kitty := rfl
@[simp] theorem State.ops_modWg (s : State) (g : Nat) (f : Workgroup → Workgroup) : (s.modWg g f).ops = s.ops := rfl
@[simp] theorem State.l1tlb_modWg (s : State) (g : Nat) (f : Workgroup → Workgroup) : (s.modWg g f).l1tlb = s.l1tlb := rfl
@[simp] theorem State.l2tlb_modWg (s : State) (g : Nat) (f : Workgroup → Workgroup) : (s.modWg g f).l2tlb = s.l2tlb := rfl
@[simp] theorem State.walks_modWg (s : State) (g : Nat) (f : Workgroup → Workgroup) : (s.modWg g f).walks = s.walks := rfl
@[simp] theorem State.fb_modWg (s : State) (g : Nat) (f : Workgroup → Workgroup) : (s.modWg g f).fb = s.fb := rfl
@[simp] theorem State.dropped_modWg (s : State) (g : Nat) (f : Workgroup → Workgroup) : (s.modWg g f).dropped = s.dropped := rfl
@[simp] theorem State.migs_modWg (s : State) (g : Nat) (f : Workgroup → Workgroup) : (s.modWg g f).migs = s.migs := rfl
@[simp] theorem State.caches_modWg (s : State) (g : Nat) (f : Workgroup → Workgroup) : (s.modWg g f).caches = s.caches := rfl
@[simp] theorem State.copies_modWg (s : State) (g : Nat) (f : Workgroup → Workgroup) : (s.modWg g f).copies = s.copies := rfl
@[simp] theorem State.engines_modWg (s : State) (g : Nat) (f : Workgroup → Workgroup) : (s.modWg g f).engines = s.engines := rfl
@[simp] theorem State.slices_modWg (s : State) (g : Nat) (f : Workgroup → Workgroup) : (s.modWg g f).slices = s.slices := rfl
@[simp] theorem State.sent_modWg (s : State) (g : Nat) (f : Workgroup → Workgroup) : (s.modWg g f).sent = s.sent := rfl
@[simp] theorem State.tables_modWg (s : State) (g : Nat) (f : Workgroup → Workgroup) : (s.modWg g f).tables = s.tables := rfl
@[simp] theorem State.ranges_modWg (s : State) (g : Nat) (f : Workgroup → Workgroup) : (s.modWg g f).ranges = s.ranges := rfl
@[simp] theorem State.drains_modWg (s : State) (g : Nat) (f : Workgroup → Workgroup) : (s.modWg g f).drains = s.drains := rfl
@[simp] theorem State.records_modWg (s : State) (g : Nat) (f : Workgroup → Workgroup) : (s.modWg g f).records = s.records := rfl
@[simp] theorem State.detached_modWg (s : State) (g : Nat) (f : Workgroup → Workgroup) : (s.modWg g f).detached = s.detached := rfl
@[simp] theorem State.recwait_modWg (s : State) (g : Nat) (f : Workgroup → Workgroup) : (s.modWg g f).recwait = s.recwait := rfl
@[simp] theorem State.saved_modWg (s : State) (g : Nat) (f : Workgroup → Workgroup) : (s.modWg g f).saved = s.saved := rfl
@[simp] theorem State.saving_modWg (s : State) (g : Nat) (f : Workgroup → Workgroup) : (s.modWg g f).saving = s.saving := rfl
@[simp] theorem State.written_modWg (s : State) (g : Nat) (f : Workgroup → Workgroup) : (s.modWg g f).written = s.written := rfl
@[simp] theorem State.guests_modWg (s : State) (g : Nat) (f : Workgroup → Workgroup) : (s.modWg g f).guests = s.guests := rfl
@[simp] theorem State.barred_modWg (s : State) (g : Nat) (f : Workgroup → Workgroup) : (s.modWg g f).barred = s.barred := rfl
@[simp] theorem State.indigo_modWg (s : State) (g : Nat) (f : Workgroup → Workgroup) : (s.modWg g f).indigo = s.indigo := rfl
@[simp] theorem State.windows_modWg (s : State) (g : Nat) (f : Workgroup → Workgroup) : (s.modWg g f).windows = s.windows := rfl
@[simp] theorem State.mailbox_modWg (s : State) (g : Nat) (f : Workgroup → Workgroup) : (s.modWg g f).mailbox = s.mailbox := rfl
@[simp] theorem State.keys_modWg (s : State) (g : Nat) (f : Workgroup → Workgroup) : (s.modWg g f).keys = s.keys := rfl
@[simp] theorem State.revoked_modWg (s : State) (g : Nat) (f : Workgroup → Workgroup) : (s.modWg g f).revoked = s.revoked := rfl
@[simp] theorem State.kix_modWg (s : State) (g : Nat) (f : Workgroup → Workgroup) : (s.modWg g f).kix = s.kix := rfl
@[simp] theorem State.vcache_modWg (s : State) (g : Nat) (f : Workgroup → Workgroup) : (s.modWg g f).vcache = s.vcache := rfl
@[simp] theorem State.scans_modWg (s : State) (g : Nat) (f : Workgroup → Workgroup) : (s.modWg g f).scans = s.scans := rfl
@[simp] theorem State.flushing_modWg (s : State) (g : Nat) (f : Workgroup → Workgroup) : (s.modWg g f).flushing = s.flushing := rfl
@[simp] theorem State.latched_modWg (s : State) (g : Nat) (f : Workgroup → Workgroup) : (s.modWg g f).latched = s.latched := rfl
@[simp] theorem State.latchGT_modWg (s : State) (g : Nat) (f : Workgroup → Workgroup) : (s.modWg g f).latchGT = s.latchGT := rfl
@[simp] theorem State.cntuni_modWg (s : State) (g : Nat) (f : Workgroup → Workgroup) : (s.modWg g f).cntuni = s.cntuni := rfl
@[simp] theorem State.cntaff_modWg (s : State) (g : Nat) (f : Workgroup → Workgroup) : (s.modWg g f).cntaff = s.cntaff := rfl
@[simp] theorem State.ewct_modWg (s : State) (g : Nat) (f : Workgroup → Workgroup) : (s.modWg g f).ewct = s.ewct := rfl
@[simp] theorem State.encs_modWg (s : State) (g : Nat) (f : Workgroup → Workgroup) : (s.modWg g f).encs = s.encs := rfl
@[simp] theorem State.tagDiff_modWg (s : State) (g : Nat) (f : Workgroup → Workgroup) : (s.modWg g f).tagDiff = s.tagDiff := rfl
@[simp] theorem State.keyDraw_modWg (s : State) (g : Nat) (f : Workgroup → Workgroup) : (s.modWg g f).keyDraw = s.keyDraw := rfl
@[simp] theorem State.vacating_modWg (s : State) (g : Nat) (f : Workgroup → Workgroup) : (s.modWg g f).vacating = s.vacating := rfl
@[simp] theorem State.ports_modWg (s : State) (g : Nat) (f : Workgroup → Workgroup) : (s.modWg g f).ports = s.ports := rfl
@[simp] theorem State.link_modWg (s : State) (g : Nat) (f : Workgroup → Workgroup) : (s.modWg g f).link = s.link := rfl
@[simp] theorem State.cntsbm_modWg (s : State) (g : Nat) (f : Workgroup → Workgroup) : (s.modWg g f).cntsbm = s.cntsbm := rfl

/-! ## modTask -/

@[simp] theorem State.mode_modTask (s : State) (t : Nat) (f : Task → Task) : (s.modTask t f).mode = s.mode := rfl
@[simp] theorem State.power_modTask (s : State) (t : Nat) (f : Task → Task) : (s.modTask t f).power = s.power := rfl
@[simp] theorem State.failed_modTask (s : State) (t : Nat) (f : Task → Task) : (s.modTask t f).failed = s.failed := rfl
@[simp] theorem State.throttle_modTask (s : State) (t : Nat) (f : Task → Task) : (s.modTask t f).throttle = s.throttle := rfl
@[simp] theorem State.hot_modTask (s : State) (t : Nat) (f : Task → Task) : (s.modTask t f).hot = s.hot := rfl
@[simp] theorem State.gt_modTask (s : State) (t : Nat) (f : Task → Task) : (s.modTask t f).gt = s.gt := rfl
@[simp] theorem State.ticks_modTask (s : State) (t : Nat) (f : Task → Task) : (s.modTask t f).ticks = s.ticks := rfl
@[simp] theorem State.fresh_modTask (s : State) (t : Nat) (f : Task → Task) : (s.modTask t f).fresh = s.fresh := rfl
@[simp] theorem State.nextId_modTask (s : State) (t : Nat) (f : Task → Task) : (s.modTask t f).nextId = s.nextId := rfl
@[simp] theorem State.cur_modTask (s : State) (t : Nat) (f : Task → Task) : (s.modTask t f).cur = s.cur := rfl
@[simp] theorem State.slotTurn_modTask (s : State) (t : Nat) (f : Task → Task) : (s.modTask t f).slotTurn = s.slotTurn := rfl
@[simp] theorem State.slotPtr_modTask (s : State) (t : Nat) (f : Task → Task) : (s.modTask t f).slotPtr = s.slotPtr := rfl
@[simp] theorem State.turns_modTask (s : State) (t : Nat) (f : Task → Task) : (s.modTask t f).turns = s.turns := rfl
@[simp] theorem State.agenda_modTask (s : State) (t : Nat) (f : Task → Task) : (s.modTask t f).agenda = s.agenda := rfl
@[simp] theorem State.mem_modTask (s : State) (t : Nat) (f : Task → Task) : (s.modTask t f).mem = s.mem := rfl
@[simp] theorem State.poison_modTask (s : State) (t : Nat) (f : Task → Task) : (s.modTask t f).poison = s.poison := rfl
@[simp] theorem State.pkg_modTask (s : State) (t : Nat) (f : Task → Task) : (s.modTask t f).pkg = s.pkg := rfl
@[simp] theorem State.csr_modTask (s : State) (t : Nat) (f : Task → Task) : (s.modTask t f).csr = s.csr := rfl
@[simp] theorem State.cores_modTask (s : State) (t : Nat) (f : Task → Task) : (s.modTask t f).cores = s.cores := rfl
@[simp] theorem State.waves_modTask (s : State) (t : Nat) (f : Task → Task) : (s.modTask t f).waves = s.waves := rfl
@[simp] theorem State.wgs_modTask (s : State) (t : Nat) (f : Task → Task) : (s.modTask t f).wgs = s.wgs := rfl
@[simp] theorem State.tasks_modTask (s : State) (t : Nat) (f : Task → Task) : (s.modTask t f).tasks = Sparse.update s.tasks t f := rfl
@[simp] theorem State.queues_modTask (s : State) (t : Nat) (f : Task → Task) : (s.modTask t f).queues = s.queues := rfl
@[simp] theorem State.pool_modTask (s : State) (t : Nat) (f : Task → Task) : (s.modTask t f).pool = s.pool := rfl
@[simp] theorem State.kwaits_modTask (s : State) (t : Nat) (f : Task → Task) : (s.modTask t f).kwaits = s.kwaits := rfl
@[simp] theorem State.dealer_modTask (s : State) (t : Nat) (f : Task → Task) : (s.modTask t f).dealer = s.dealer := rfl
@[simp] theorem State.pointer_modTask (s : State) (t : Nat) (f : Task → Task) : (s.modTask t f).pointer = s.pointer := rfl
@[simp] theorem State.dispatchN_modTask (s : State) (t : Nat) (f : Task → Task) : (s.modTask t f).dispatchN = s.dispatchN := rfl
@[simp] theorem State.pushes_modTask (s : State) (t : Nat) (f : Task → Task) : (s.modTask t f).pushes = s.pushes := rfl
@[simp] theorem State.kitty_modTask (s : State) (t : Nat) (f : Task → Task) : (s.modTask t f).kitty = s.kitty := rfl
@[simp] theorem State.ops_modTask (s : State) (t : Nat) (f : Task → Task) : (s.modTask t f).ops = s.ops := rfl
@[simp] theorem State.l1tlb_modTask (s : State) (t : Nat) (f : Task → Task) : (s.modTask t f).l1tlb = s.l1tlb := rfl
@[simp] theorem State.l2tlb_modTask (s : State) (t : Nat) (f : Task → Task) : (s.modTask t f).l2tlb = s.l2tlb := rfl
@[simp] theorem State.walks_modTask (s : State) (t : Nat) (f : Task → Task) : (s.modTask t f).walks = s.walks := rfl
@[simp] theorem State.fb_modTask (s : State) (t : Nat) (f : Task → Task) : (s.modTask t f).fb = s.fb := rfl
@[simp] theorem State.dropped_modTask (s : State) (t : Nat) (f : Task → Task) : (s.modTask t f).dropped = s.dropped := rfl
@[simp] theorem State.migs_modTask (s : State) (t : Nat) (f : Task → Task) : (s.modTask t f).migs = s.migs := rfl
@[simp] theorem State.caches_modTask (s : State) (t : Nat) (f : Task → Task) : (s.modTask t f).caches = s.caches := rfl
@[simp] theorem State.copies_modTask (s : State) (t : Nat) (f : Task → Task) : (s.modTask t f).copies = s.copies := rfl
@[simp] theorem State.engines_modTask (s : State) (t : Nat) (f : Task → Task) : (s.modTask t f).engines = s.engines := rfl
@[simp] theorem State.slices_modTask (s : State) (t : Nat) (f : Task → Task) : (s.modTask t f).slices = s.slices := rfl
@[simp] theorem State.sent_modTask (s : State) (t : Nat) (f : Task → Task) : (s.modTask t f).sent = s.sent := rfl
@[simp] theorem State.tables_modTask (s : State) (t : Nat) (f : Task → Task) : (s.modTask t f).tables = s.tables := rfl
@[simp] theorem State.ranges_modTask (s : State) (t : Nat) (f : Task → Task) : (s.modTask t f).ranges = s.ranges := rfl
@[simp] theorem State.drains_modTask (s : State) (t : Nat) (f : Task → Task) : (s.modTask t f).drains = s.drains := rfl
@[simp] theorem State.records_modTask (s : State) (t : Nat) (f : Task → Task) : (s.modTask t f).records = s.records := rfl
@[simp] theorem State.detached_modTask (s : State) (t : Nat) (f : Task → Task) : (s.modTask t f).detached = s.detached := rfl
@[simp] theorem State.recwait_modTask (s : State) (t : Nat) (f : Task → Task) : (s.modTask t f).recwait = s.recwait := rfl
@[simp] theorem State.saved_modTask (s : State) (t : Nat) (f : Task → Task) : (s.modTask t f).saved = s.saved := rfl
@[simp] theorem State.saving_modTask (s : State) (t : Nat) (f : Task → Task) : (s.modTask t f).saving = s.saving := rfl
@[simp] theorem State.written_modTask (s : State) (t : Nat) (f : Task → Task) : (s.modTask t f).written = s.written := rfl
@[simp] theorem State.guests_modTask (s : State) (t : Nat) (f : Task → Task) : (s.modTask t f).guests = s.guests := rfl
@[simp] theorem State.barred_modTask (s : State) (t : Nat) (f : Task → Task) : (s.modTask t f).barred = s.barred := rfl
@[simp] theorem State.indigo_modTask (s : State) (t : Nat) (f : Task → Task) : (s.modTask t f).indigo = s.indigo := rfl
@[simp] theorem State.windows_modTask (s : State) (t : Nat) (f : Task → Task) : (s.modTask t f).windows = s.windows := rfl
@[simp] theorem State.mailbox_modTask (s : State) (t : Nat) (f : Task → Task) : (s.modTask t f).mailbox = s.mailbox := rfl
@[simp] theorem State.keys_modTask (s : State) (t : Nat) (f : Task → Task) : (s.modTask t f).keys = s.keys := rfl
@[simp] theorem State.revoked_modTask (s : State) (t : Nat) (f : Task → Task) : (s.modTask t f).revoked = s.revoked := rfl
@[simp] theorem State.kix_modTask (s : State) (t : Nat) (f : Task → Task) : (s.modTask t f).kix = s.kix := rfl
@[simp] theorem State.vcache_modTask (s : State) (t : Nat) (f : Task → Task) : (s.modTask t f).vcache = s.vcache := rfl
@[simp] theorem State.scans_modTask (s : State) (t : Nat) (f : Task → Task) : (s.modTask t f).scans = s.scans := rfl
@[simp] theorem State.flushing_modTask (s : State) (t : Nat) (f : Task → Task) : (s.modTask t f).flushing = s.flushing := rfl
@[simp] theorem State.latched_modTask (s : State) (t : Nat) (f : Task → Task) : (s.modTask t f).latched = s.latched := rfl
@[simp] theorem State.latchGT_modTask (s : State) (t : Nat) (f : Task → Task) : (s.modTask t f).latchGT = s.latchGT := rfl
@[simp] theorem State.cntuni_modTask (s : State) (t : Nat) (f : Task → Task) : (s.modTask t f).cntuni = s.cntuni := rfl
@[simp] theorem State.cntaff_modTask (s : State) (t : Nat) (f : Task → Task) : (s.modTask t f).cntaff = s.cntaff := rfl
@[simp] theorem State.ewct_modTask (s : State) (t : Nat) (f : Task → Task) : (s.modTask t f).ewct = s.ewct := rfl
@[simp] theorem State.encs_modTask (s : State) (t : Nat) (f : Task → Task) : (s.modTask t f).encs = s.encs := rfl
@[simp] theorem State.tagDiff_modTask (s : State) (t : Nat) (f : Task → Task) : (s.modTask t f).tagDiff = s.tagDiff := rfl
@[simp] theorem State.keyDraw_modTask (s : State) (t : Nat) (f : Task → Task) : (s.modTask t f).keyDraw = s.keyDraw := rfl
@[simp] theorem State.vacating_modTask (s : State) (t : Nat) (f : Task → Task) : (s.modTask t f).vacating = s.vacating := rfl
@[simp] theorem State.ports_modTask (s : State) (t : Nat) (f : Task → Task) : (s.modTask t f).ports = s.ports := rfl
@[simp] theorem State.link_modTask (s : State) (t : Nat) (f : Task → Task) : (s.modTask t f).link = s.link := rfl
@[simp] theorem State.cntsbm_modTask (s : State) (t : Nat) (f : Task → Task) : (s.modTask t f).cntsbm = s.cntsbm := rfl

/-! ## setFb -/

@[simp] theorem State.mode_setFb (s : State) (cl : Nat) (es : List FbEntry) : (s.setFb cl es).mode = s.mode := rfl
@[simp] theorem State.power_setFb (s : State) (cl : Nat) (es : List FbEntry) : (s.setFb cl es).power = s.power := rfl
@[simp] theorem State.failed_setFb (s : State) (cl : Nat) (es : List FbEntry) : (s.setFb cl es).failed = s.failed := rfl
@[simp] theorem State.throttle_setFb (s : State) (cl : Nat) (es : List FbEntry) : (s.setFb cl es).throttle = s.throttle := rfl
@[simp] theorem State.hot_setFb (s : State) (cl : Nat) (es : List FbEntry) : (s.setFb cl es).hot = s.hot := rfl
@[simp] theorem State.gt_setFb (s : State) (cl : Nat) (es : List FbEntry) : (s.setFb cl es).gt = s.gt := rfl
@[simp] theorem State.ticks_setFb (s : State) (cl : Nat) (es : List FbEntry) : (s.setFb cl es).ticks = s.ticks := rfl
@[simp] theorem State.fresh_setFb (s : State) (cl : Nat) (es : List FbEntry) : (s.setFb cl es).fresh = s.fresh := rfl
@[simp] theorem State.nextId_setFb (s : State) (cl : Nat) (es : List FbEntry) : (s.setFb cl es).nextId = s.nextId := rfl
@[simp] theorem State.cur_setFb (s : State) (cl : Nat) (es : List FbEntry) : (s.setFb cl es).cur = s.cur := rfl
@[simp] theorem State.slotTurn_setFb (s : State) (cl : Nat) (es : List FbEntry) : (s.setFb cl es).slotTurn = s.slotTurn := rfl
@[simp] theorem State.slotPtr_setFb (s : State) (cl : Nat) (es : List FbEntry) : (s.setFb cl es).slotPtr = s.slotPtr := rfl
@[simp] theorem State.turns_setFb (s : State) (cl : Nat) (es : List FbEntry) : (s.setFb cl es).turns = s.turns := rfl
@[simp] theorem State.agenda_setFb (s : State) (cl : Nat) (es : List FbEntry) : (s.setFb cl es).agenda = s.agenda := rfl
@[simp] theorem State.mem_setFb (s : State) (cl : Nat) (es : List FbEntry) : (s.setFb cl es).mem = s.mem := rfl
@[simp] theorem State.poison_setFb (s : State) (cl : Nat) (es : List FbEntry) : (s.setFb cl es).poison = s.poison := rfl
@[simp] theorem State.pkg_setFb (s : State) (cl : Nat) (es : List FbEntry) : (s.setFb cl es).pkg = s.pkg := rfl
@[simp] theorem State.csr_setFb (s : State) (cl : Nat) (es : List FbEntry) : (s.setFb cl es).csr = s.csr := rfl
@[simp] theorem State.cores_setFb (s : State) (cl : Nat) (es : List FbEntry) : (s.setFb cl es).cores = s.cores := rfl
@[simp] theorem State.waves_setFb (s : State) (cl : Nat) (es : List FbEntry) : (s.setFb cl es).waves = s.waves := rfl
@[simp] theorem State.wgs_setFb (s : State) (cl : Nat) (es : List FbEntry) : (s.setFb cl es).wgs = s.wgs := rfl
@[simp] theorem State.tasks_setFb (s : State) (cl : Nat) (es : List FbEntry) : (s.setFb cl es).tasks = s.tasks := rfl
@[simp] theorem State.queues_setFb (s : State) (cl : Nat) (es : List FbEntry) : (s.setFb cl es).queues = s.queues := rfl
@[simp] theorem State.pool_setFb (s : State) (cl : Nat) (es : List FbEntry) : (s.setFb cl es).pool = s.pool := rfl
@[simp] theorem State.kwaits_setFb (s : State) (cl : Nat) (es : List FbEntry) : (s.setFb cl es).kwaits = s.kwaits := rfl
@[simp] theorem State.dealer_setFb (s : State) (cl : Nat) (es : List FbEntry) : (s.setFb cl es).dealer = s.dealer := rfl
@[simp] theorem State.pointer_setFb (s : State) (cl : Nat) (es : List FbEntry) : (s.setFb cl es).pointer = s.pointer := rfl
@[simp] theorem State.dispatchN_setFb (s : State) (cl : Nat) (es : List FbEntry) : (s.setFb cl es).dispatchN = s.dispatchN := rfl
@[simp] theorem State.pushes_setFb (s : State) (cl : Nat) (es : List FbEntry) : (s.setFb cl es).pushes = s.pushes := rfl
@[simp] theorem State.kitty_setFb (s : State) (cl : Nat) (es : List FbEntry) : (s.setFb cl es).kitty = s.kitty := rfl
@[simp] theorem State.ops_setFb (s : State) (cl : Nat) (es : List FbEntry) : (s.setFb cl es).ops = s.ops := rfl
@[simp] theorem State.l1tlb_setFb (s : State) (cl : Nat) (es : List FbEntry) : (s.setFb cl es).l1tlb = s.l1tlb := rfl
@[simp] theorem State.l2tlb_setFb (s : State) (cl : Nat) (es : List FbEntry) : (s.setFb cl es).l2tlb = s.l2tlb := rfl
@[simp] theorem State.walks_setFb (s : State) (cl : Nat) (es : List FbEntry) : (s.setFb cl es).walks = s.walks := rfl
@[simp] theorem State.fb_setFb (s : State) (cl : Nat) (es : List FbEntry) : (s.setFb cl es).fb = Sparse.put s.fb cl es := rfl
@[simp] theorem State.dropped_setFb (s : State) (cl : Nat) (es : List FbEntry) : (s.setFb cl es).dropped = s.dropped := rfl
@[simp] theorem State.migs_setFb (s : State) (cl : Nat) (es : List FbEntry) : (s.setFb cl es).migs = s.migs := rfl
@[simp] theorem State.caches_setFb (s : State) (cl : Nat) (es : List FbEntry) : (s.setFb cl es).caches = s.caches := rfl
@[simp] theorem State.copies_setFb (s : State) (cl : Nat) (es : List FbEntry) : (s.setFb cl es).copies = s.copies := rfl
@[simp] theorem State.engines_setFb (s : State) (cl : Nat) (es : List FbEntry) : (s.setFb cl es).engines = s.engines := rfl
@[simp] theorem State.slices_setFb (s : State) (cl : Nat) (es : List FbEntry) : (s.setFb cl es).slices = s.slices := rfl
@[simp] theorem State.sent_setFb (s : State) (cl : Nat) (es : List FbEntry) : (s.setFb cl es).sent = s.sent := rfl
@[simp] theorem State.tables_setFb (s : State) (cl : Nat) (es : List FbEntry) : (s.setFb cl es).tables = s.tables := rfl
@[simp] theorem State.ranges_setFb (s : State) (cl : Nat) (es : List FbEntry) : (s.setFb cl es).ranges = s.ranges := rfl
@[simp] theorem State.drains_setFb (s : State) (cl : Nat) (es : List FbEntry) : (s.setFb cl es).drains = s.drains := rfl
@[simp] theorem State.records_setFb (s : State) (cl : Nat) (es : List FbEntry) : (s.setFb cl es).records = s.records := rfl
@[simp] theorem State.detached_setFb (s : State) (cl : Nat) (es : List FbEntry) : (s.setFb cl es).detached = s.detached := rfl
@[simp] theorem State.recwait_setFb (s : State) (cl : Nat) (es : List FbEntry) : (s.setFb cl es).recwait = s.recwait := rfl
@[simp] theorem State.saved_setFb (s : State) (cl : Nat) (es : List FbEntry) : (s.setFb cl es).saved = s.saved := rfl
@[simp] theorem State.saving_setFb (s : State) (cl : Nat) (es : List FbEntry) : (s.setFb cl es).saving = s.saving := rfl
@[simp] theorem State.written_setFb (s : State) (cl : Nat) (es : List FbEntry) : (s.setFb cl es).written = s.written := rfl
@[simp] theorem State.guests_setFb (s : State) (cl : Nat) (es : List FbEntry) : (s.setFb cl es).guests = s.guests := rfl
@[simp] theorem State.barred_setFb (s : State) (cl : Nat) (es : List FbEntry) : (s.setFb cl es).barred = s.barred := rfl
@[simp] theorem State.indigo_setFb (s : State) (cl : Nat) (es : List FbEntry) : (s.setFb cl es).indigo = s.indigo := rfl
@[simp] theorem State.windows_setFb (s : State) (cl : Nat) (es : List FbEntry) : (s.setFb cl es).windows = s.windows := rfl
@[simp] theorem State.mailbox_setFb (s : State) (cl : Nat) (es : List FbEntry) : (s.setFb cl es).mailbox = s.mailbox := rfl
@[simp] theorem State.keys_setFb (s : State) (cl : Nat) (es : List FbEntry) : (s.setFb cl es).keys = s.keys := rfl
@[simp] theorem State.revoked_setFb (s : State) (cl : Nat) (es : List FbEntry) : (s.setFb cl es).revoked = s.revoked := rfl
@[simp] theorem State.kix_setFb (s : State) (cl : Nat) (es : List FbEntry) : (s.setFb cl es).kix = s.kix := rfl
@[simp] theorem State.vcache_setFb (s : State) (cl : Nat) (es : List FbEntry) : (s.setFb cl es).vcache = s.vcache := rfl
@[simp] theorem State.scans_setFb (s : State) (cl : Nat) (es : List FbEntry) : (s.setFb cl es).scans = s.scans := rfl
@[simp] theorem State.flushing_setFb (s : State) (cl : Nat) (es : List FbEntry) : (s.setFb cl es).flushing = s.flushing := rfl
@[simp] theorem State.latched_setFb (s : State) (cl : Nat) (es : List FbEntry) : (s.setFb cl es).latched = s.latched := rfl
@[simp] theorem State.latchGT_setFb (s : State) (cl : Nat) (es : List FbEntry) : (s.setFb cl es).latchGT = s.latchGT := rfl
@[simp] theorem State.cntuni_setFb (s : State) (cl : Nat) (es : List FbEntry) : (s.setFb cl es).cntuni = s.cntuni := rfl
@[simp] theorem State.cntaff_setFb (s : State) (cl : Nat) (es : List FbEntry) : (s.setFb cl es).cntaff = s.cntaff := rfl
@[simp] theorem State.ewct_setFb (s : State) (cl : Nat) (es : List FbEntry) : (s.setFb cl es).ewct = s.ewct := rfl
@[simp] theorem State.encs_setFb (s : State) (cl : Nat) (es : List FbEntry) : (s.setFb cl es).encs = s.encs := rfl
@[simp] theorem State.tagDiff_setFb (s : State) (cl : Nat) (es : List FbEntry) : (s.setFb cl es).tagDiff = s.tagDiff := rfl
@[simp] theorem State.keyDraw_setFb (s : State) (cl : Nat) (es : List FbEntry) : (s.setFb cl es).keyDraw = s.keyDraw := rfl
@[simp] theorem State.vacating_setFb (s : State) (cl : Nat) (es : List FbEntry) : (s.setFb cl es).vacating = s.vacating := rfl
@[simp] theorem State.ports_setFb (s : State) (cl : Nat) (es : List FbEntry) : (s.setFb cl es).ports = s.ports := rfl
@[simp] theorem State.link_setFb (s : State) (cl : Nat) (es : List FbEntry) : (s.setFb cl es).link = s.link := rfl
@[simp] theorem State.cntsbm_setFb (s : State) (cl : Nat) (es : List FbEntry) : (s.setFb cl es).cntsbm = s.cntsbm := rfl

/-! ## setCache -/

@[simp] theorem State.mode_setCache (s : State) (c : Nat) (cs : List CacheCopy) : (s.setCache c cs).mode = s.mode := rfl
@[simp] theorem State.power_setCache (s : State) (c : Nat) (cs : List CacheCopy) : (s.setCache c cs).power = s.power := rfl
@[simp] theorem State.failed_setCache (s : State) (c : Nat) (cs : List CacheCopy) : (s.setCache c cs).failed = s.failed := rfl
@[simp] theorem State.throttle_setCache (s : State) (c : Nat) (cs : List CacheCopy) : (s.setCache c cs).throttle = s.throttle := rfl
@[simp] theorem State.hot_setCache (s : State) (c : Nat) (cs : List CacheCopy) : (s.setCache c cs).hot = s.hot := rfl
@[simp] theorem State.gt_setCache (s : State) (c : Nat) (cs : List CacheCopy) : (s.setCache c cs).gt = s.gt := rfl
@[simp] theorem State.ticks_setCache (s : State) (c : Nat) (cs : List CacheCopy) : (s.setCache c cs).ticks = s.ticks := rfl
@[simp] theorem State.fresh_setCache (s : State) (c : Nat) (cs : List CacheCopy) : (s.setCache c cs).fresh = s.fresh := rfl
@[simp] theorem State.nextId_setCache (s : State) (c : Nat) (cs : List CacheCopy) : (s.setCache c cs).nextId = s.nextId := rfl
@[simp] theorem State.cur_setCache (s : State) (c : Nat) (cs : List CacheCopy) : (s.setCache c cs).cur = s.cur := rfl
@[simp] theorem State.slotTurn_setCache (s : State) (c : Nat) (cs : List CacheCopy) : (s.setCache c cs).slotTurn = s.slotTurn := rfl
@[simp] theorem State.slotPtr_setCache (s : State) (c : Nat) (cs : List CacheCopy) : (s.setCache c cs).slotPtr = s.slotPtr := rfl
@[simp] theorem State.turns_setCache (s : State) (c : Nat) (cs : List CacheCopy) : (s.setCache c cs).turns = s.turns := rfl
@[simp] theorem State.agenda_setCache (s : State) (c : Nat) (cs : List CacheCopy) : (s.setCache c cs).agenda = s.agenda := rfl
@[simp] theorem State.mem_setCache (s : State) (c : Nat) (cs : List CacheCopy) : (s.setCache c cs).mem = s.mem := rfl
@[simp] theorem State.poison_setCache (s : State) (c : Nat) (cs : List CacheCopy) : (s.setCache c cs).poison = s.poison := rfl
@[simp] theorem State.pkg_setCache (s : State) (c : Nat) (cs : List CacheCopy) : (s.setCache c cs).pkg = s.pkg := rfl
@[simp] theorem State.csr_setCache (s : State) (c : Nat) (cs : List CacheCopy) : (s.setCache c cs).csr = s.csr := rfl
@[simp] theorem State.cores_setCache (s : State) (c : Nat) (cs : List CacheCopy) : (s.setCache c cs).cores = s.cores := rfl
@[simp] theorem State.waves_setCache (s : State) (c : Nat) (cs : List CacheCopy) : (s.setCache c cs).waves = s.waves := rfl
@[simp] theorem State.wgs_setCache (s : State) (c : Nat) (cs : List CacheCopy) : (s.setCache c cs).wgs = s.wgs := rfl
@[simp] theorem State.tasks_setCache (s : State) (c : Nat) (cs : List CacheCopy) : (s.setCache c cs).tasks = s.tasks := rfl
@[simp] theorem State.queues_setCache (s : State) (c : Nat) (cs : List CacheCopy) : (s.setCache c cs).queues = s.queues := rfl
@[simp] theorem State.pool_setCache (s : State) (c : Nat) (cs : List CacheCopy) : (s.setCache c cs).pool = s.pool := rfl
@[simp] theorem State.kwaits_setCache (s : State) (c : Nat) (cs : List CacheCopy) : (s.setCache c cs).kwaits = s.kwaits := rfl
@[simp] theorem State.dealer_setCache (s : State) (c : Nat) (cs : List CacheCopy) : (s.setCache c cs).dealer = s.dealer := rfl
@[simp] theorem State.pointer_setCache (s : State) (c : Nat) (cs : List CacheCopy) : (s.setCache c cs).pointer = s.pointer := rfl
@[simp] theorem State.dispatchN_setCache (s : State) (c : Nat) (cs : List CacheCopy) : (s.setCache c cs).dispatchN = s.dispatchN := rfl
@[simp] theorem State.pushes_setCache (s : State) (c : Nat) (cs : List CacheCopy) : (s.setCache c cs).pushes = s.pushes := rfl
@[simp] theorem State.kitty_setCache (s : State) (c : Nat) (cs : List CacheCopy) : (s.setCache c cs).kitty = s.kitty := rfl
@[simp] theorem State.ops_setCache (s : State) (c : Nat) (cs : List CacheCopy) : (s.setCache c cs).ops = s.ops := rfl
@[simp] theorem State.l1tlb_setCache (s : State) (c : Nat) (cs : List CacheCopy) : (s.setCache c cs).l1tlb = s.l1tlb := rfl
@[simp] theorem State.l2tlb_setCache (s : State) (c : Nat) (cs : List CacheCopy) : (s.setCache c cs).l2tlb = s.l2tlb := rfl
@[simp] theorem State.walks_setCache (s : State) (c : Nat) (cs : List CacheCopy) : (s.setCache c cs).walks = s.walks := rfl
@[simp] theorem State.fb_setCache (s : State) (c : Nat) (cs : List CacheCopy) : (s.setCache c cs).fb = s.fb := rfl
@[simp] theorem State.dropped_setCache (s : State) (c : Nat) (cs : List CacheCopy) : (s.setCache c cs).dropped = s.dropped := rfl
@[simp] theorem State.migs_setCache (s : State) (c : Nat) (cs : List CacheCopy) : (s.setCache c cs).migs = s.migs := rfl
@[simp] theorem State.caches_setCache (s : State) (c : Nat) (cs : List CacheCopy) : (s.setCache c cs).caches = Sparse.put s.caches c cs := rfl
@[simp] theorem State.copies_setCache (s : State) (c : Nat) (cs : List CacheCopy) : (s.setCache c cs).copies = s.copies := rfl
@[simp] theorem State.engines_setCache (s : State) (c : Nat) (cs : List CacheCopy) : (s.setCache c cs).engines = s.engines := rfl
@[simp] theorem State.slices_setCache (s : State) (c : Nat) (cs : List CacheCopy) : (s.setCache c cs).slices = s.slices := rfl
@[simp] theorem State.sent_setCache (s : State) (c : Nat) (cs : List CacheCopy) : (s.setCache c cs).sent = s.sent := rfl
@[simp] theorem State.tables_setCache (s : State) (c : Nat) (cs : List CacheCopy) : (s.setCache c cs).tables = s.tables := rfl
@[simp] theorem State.ranges_setCache (s : State) (c : Nat) (cs : List CacheCopy) : (s.setCache c cs).ranges = s.ranges := rfl
@[simp] theorem State.drains_setCache (s : State) (c : Nat) (cs : List CacheCopy) : (s.setCache c cs).drains = s.drains := rfl
@[simp] theorem State.records_setCache (s : State) (c : Nat) (cs : List CacheCopy) : (s.setCache c cs).records = s.records := rfl
@[simp] theorem State.detached_setCache (s : State) (c : Nat) (cs : List CacheCopy) : (s.setCache c cs).detached = s.detached := rfl
@[simp] theorem State.recwait_setCache (s : State) (c : Nat) (cs : List CacheCopy) : (s.setCache c cs).recwait = s.recwait := rfl
@[simp] theorem State.saved_setCache (s : State) (c : Nat) (cs : List CacheCopy) : (s.setCache c cs).saved = s.saved := rfl
@[simp] theorem State.saving_setCache (s : State) (c : Nat) (cs : List CacheCopy) : (s.setCache c cs).saving = s.saving := rfl
@[simp] theorem State.written_setCache (s : State) (c : Nat) (cs : List CacheCopy) : (s.setCache c cs).written = s.written := rfl
@[simp] theorem State.guests_setCache (s : State) (c : Nat) (cs : List CacheCopy) : (s.setCache c cs).guests = s.guests := rfl
@[simp] theorem State.barred_setCache (s : State) (c : Nat) (cs : List CacheCopy) : (s.setCache c cs).barred = s.barred := rfl
@[simp] theorem State.indigo_setCache (s : State) (c : Nat) (cs : List CacheCopy) : (s.setCache c cs).indigo = s.indigo := rfl
@[simp] theorem State.windows_setCache (s : State) (c : Nat) (cs : List CacheCopy) : (s.setCache c cs).windows = s.windows := rfl
@[simp] theorem State.mailbox_setCache (s : State) (c : Nat) (cs : List CacheCopy) : (s.setCache c cs).mailbox = s.mailbox := rfl
@[simp] theorem State.keys_setCache (s : State) (c : Nat) (cs : List CacheCopy) : (s.setCache c cs).keys = s.keys := rfl
@[simp] theorem State.revoked_setCache (s : State) (c : Nat) (cs : List CacheCopy) : (s.setCache c cs).revoked = s.revoked := rfl
@[simp] theorem State.kix_setCache (s : State) (c : Nat) (cs : List CacheCopy) : (s.setCache c cs).kix = s.kix := rfl
@[simp] theorem State.vcache_setCache (s : State) (c : Nat) (cs : List CacheCopy) : (s.setCache c cs).vcache = s.vcache := rfl
@[simp] theorem State.scans_setCache (s : State) (c : Nat) (cs : List CacheCopy) : (s.setCache c cs).scans = s.scans := rfl
@[simp] theorem State.flushing_setCache (s : State) (c : Nat) (cs : List CacheCopy) : (s.setCache c cs).flushing = s.flushing := rfl
@[simp] theorem State.latched_setCache (s : State) (c : Nat) (cs : List CacheCopy) : (s.setCache c cs).latched = s.latched := rfl
@[simp] theorem State.latchGT_setCache (s : State) (c : Nat) (cs : List CacheCopy) : (s.setCache c cs).latchGT = s.latchGT := rfl
@[simp] theorem State.cntuni_setCache (s : State) (c : Nat) (cs : List CacheCopy) : (s.setCache c cs).cntuni = s.cntuni := rfl
@[simp] theorem State.cntaff_setCache (s : State) (c : Nat) (cs : List CacheCopy) : (s.setCache c cs).cntaff = s.cntaff := rfl
@[simp] theorem State.ewct_setCache (s : State) (c : Nat) (cs : List CacheCopy) : (s.setCache c cs).ewct = s.ewct := rfl
@[simp] theorem State.encs_setCache (s : State) (c : Nat) (cs : List CacheCopy) : (s.setCache c cs).encs = s.encs := rfl
@[simp] theorem State.tagDiff_setCache (s : State) (c : Nat) (cs : List CacheCopy) : (s.setCache c cs).tagDiff = s.tagDiff := rfl
@[simp] theorem State.keyDraw_setCache (s : State) (c : Nat) (cs : List CacheCopy) : (s.setCache c cs).keyDraw = s.keyDraw := rfl
@[simp] theorem State.vacating_setCache (s : State) (c : Nat) (cs : List CacheCopy) : (s.setCache c cs).vacating = s.vacating := rfl
@[simp] theorem State.ports_setCache (s : State) (c : Nat) (cs : List CacheCopy) : (s.setCache c cs).ports = s.ports := rfl
@[simp] theorem State.link_setCache (s : State) (c : Nat) (cs : List CacheCopy) : (s.setCache c cs).link = s.link := rfl
@[simp] theorem State.cntsbm_setCache (s : State) (c : Nat) (cs : List CacheCopy) : (s.setCache c cs).cntsbm = s.cntsbm := rfl

/-! ## setRecWord -/

@[simp] theorem State.mode_setRecWord (s : State) (x off : Nat) (v : Dword) : (s.setRecWord x off v).mode = s.mode := rfl
@[simp] theorem State.power_setRecWord (s : State) (x off : Nat) (v : Dword) : (s.setRecWord x off v).power = s.power := rfl
@[simp] theorem State.failed_setRecWord (s : State) (x off : Nat) (v : Dword) : (s.setRecWord x off v).failed = s.failed := rfl
@[simp] theorem State.throttle_setRecWord (s : State) (x off : Nat) (v : Dword) : (s.setRecWord x off v).throttle = s.throttle := rfl
@[simp] theorem State.hot_setRecWord (s : State) (x off : Nat) (v : Dword) : (s.setRecWord x off v).hot = s.hot := rfl
@[simp] theorem State.gt_setRecWord (s : State) (x off : Nat) (v : Dword) : (s.setRecWord x off v).gt = s.gt := rfl
@[simp] theorem State.ticks_setRecWord (s : State) (x off : Nat) (v : Dword) : (s.setRecWord x off v).ticks = s.ticks := rfl
@[simp] theorem State.fresh_setRecWord (s : State) (x off : Nat) (v : Dword) : (s.setRecWord x off v).fresh = s.fresh := rfl
@[simp] theorem State.nextId_setRecWord (s : State) (x off : Nat) (v : Dword) : (s.setRecWord x off v).nextId = s.nextId := rfl
@[simp] theorem State.cur_setRecWord (s : State) (x off : Nat) (v : Dword) : (s.setRecWord x off v).cur = s.cur := rfl
@[simp] theorem State.slotTurn_setRecWord (s : State) (x off : Nat) (v : Dword) : (s.setRecWord x off v).slotTurn = s.slotTurn := rfl
@[simp] theorem State.slotPtr_setRecWord (s : State) (x off : Nat) (v : Dword) : (s.setRecWord x off v).slotPtr = s.slotPtr := rfl
@[simp] theorem State.turns_setRecWord (s : State) (x off : Nat) (v : Dword) : (s.setRecWord x off v).turns = s.turns := rfl
@[simp] theorem State.agenda_setRecWord (s : State) (x off : Nat) (v : Dword) : (s.setRecWord x off v).agenda = s.agenda := rfl
@[simp] theorem State.mem_setRecWord (s : State) (x off : Nat) (v : Dword) : (s.setRecWord x off v).mem = s.mem := rfl
@[simp] theorem State.poison_setRecWord (s : State) (x off : Nat) (v : Dword) : (s.setRecWord x off v).poison = s.poison := rfl
@[simp] theorem State.pkg_setRecWord (s : State) (x off : Nat) (v : Dword) : (s.setRecWord x off v).pkg = s.pkg := rfl
@[simp] theorem State.csr_setRecWord (s : State) (x off : Nat) (v : Dword) : (s.setRecWord x off v).csr = s.csr := rfl
@[simp] theorem State.cores_setRecWord (s : State) (x off : Nat) (v : Dword) : (s.setRecWord x off v).cores = s.cores := rfl
@[simp] theorem State.waves_setRecWord (s : State) (x off : Nat) (v : Dword) : (s.setRecWord x off v).waves = s.waves := rfl
@[simp] theorem State.wgs_setRecWord (s : State) (x off : Nat) (v : Dword) : (s.setRecWord x off v).wgs = s.wgs := rfl
@[simp] theorem State.tasks_setRecWord (s : State) (x off : Nat) (v : Dword) : (s.setRecWord x off v).tasks = s.tasks := rfl
@[simp] theorem State.queues_setRecWord (s : State) (x off : Nat) (v : Dword) : (s.setRecWord x off v).queues = s.queues := rfl
@[simp] theorem State.pool_setRecWord (s : State) (x off : Nat) (v : Dword) : (s.setRecWord x off v).pool = s.pool := rfl
@[simp] theorem State.kwaits_setRecWord (s : State) (x off : Nat) (v : Dword) : (s.setRecWord x off v).kwaits = s.kwaits := rfl
@[simp] theorem State.dealer_setRecWord (s : State) (x off : Nat) (v : Dword) : (s.setRecWord x off v).dealer = s.dealer := rfl
@[simp] theorem State.pointer_setRecWord (s : State) (x off : Nat) (v : Dword) : (s.setRecWord x off v).pointer = s.pointer := rfl
@[simp] theorem State.dispatchN_setRecWord (s : State) (x off : Nat) (v : Dword) : (s.setRecWord x off v).dispatchN = s.dispatchN := rfl
@[simp] theorem State.pushes_setRecWord (s : State) (x off : Nat) (v : Dword) : (s.setRecWord x off v).pushes = s.pushes := rfl
@[simp] theorem State.kitty_setRecWord (s : State) (x off : Nat) (v : Dword) : (s.setRecWord x off v).kitty = s.kitty := rfl
@[simp] theorem State.ops_setRecWord (s : State) (x off : Nat) (v : Dword) : (s.setRecWord x off v).ops = s.ops := rfl
@[simp] theorem State.l1tlb_setRecWord (s : State) (x off : Nat) (v : Dword) : (s.setRecWord x off v).l1tlb = s.l1tlb := rfl
@[simp] theorem State.l2tlb_setRecWord (s : State) (x off : Nat) (v : Dword) : (s.setRecWord x off v).l2tlb = s.l2tlb := rfl
@[simp] theorem State.walks_setRecWord (s : State) (x off : Nat) (v : Dword) : (s.setRecWord x off v).walks = s.walks := rfl
@[simp] theorem State.fb_setRecWord (s : State) (x off : Nat) (v : Dword) : (s.setRecWord x off v).fb = s.fb := rfl
@[simp] theorem State.dropped_setRecWord (s : State) (x off : Nat) (v : Dword) : (s.setRecWord x off v).dropped = s.dropped := rfl
@[simp] theorem State.migs_setRecWord (s : State) (x off : Nat) (v : Dword) : (s.setRecWord x off v).migs = s.migs := rfl
@[simp] theorem State.caches_setRecWord (s : State) (x off : Nat) (v : Dword) : (s.setRecWord x off v).caches = s.caches := rfl
@[simp] theorem State.copies_setRecWord (s : State) (x off : Nat) (v : Dword) : (s.setRecWord x off v).copies = s.copies := rfl
@[simp] theorem State.engines_setRecWord (s : State) (x off : Nat) (v : Dword) : (s.setRecWord x off v).engines = s.engines := rfl
@[simp] theorem State.slices_setRecWord (s : State) (x off : Nat) (v : Dword) : (s.setRecWord x off v).slices = s.slices := rfl
@[simp] theorem State.sent_setRecWord (s : State) (x off : Nat) (v : Dword) : (s.setRecWord x off v).sent = s.sent := rfl
@[simp] theorem State.tables_setRecWord (s : State) (x off : Nat) (v : Dword) : (s.setRecWord x off v).tables = s.tables := rfl
@[simp] theorem State.ranges_setRecWord (s : State) (x off : Nat) (v : Dword) : (s.setRecWord x off v).ranges = s.ranges := rfl
@[simp] theorem State.drains_setRecWord (s : State) (x off : Nat) (v : Dword) : (s.setRecWord x off v).drains = s.drains := rfl
@[simp] theorem State.records_setRecWord (s : State) (x off : Nat) (v : Dword) : (s.setRecWord x off v).records = Sparse.update s.records x (fun r => { r with words := Sparse.put r.words (off / 8) v }) := rfl
@[simp] theorem State.detached_setRecWord (s : State) (x off : Nat) (v : Dword) : (s.setRecWord x off v).detached = s.detached := rfl
@[simp] theorem State.recwait_setRecWord (s : State) (x off : Nat) (v : Dword) : (s.setRecWord x off v).recwait = s.recwait := rfl
@[simp] theorem State.saved_setRecWord (s : State) (x off : Nat) (v : Dword) : (s.setRecWord x off v).saved = s.saved := rfl
@[simp] theorem State.saving_setRecWord (s : State) (x off : Nat) (v : Dword) : (s.setRecWord x off v).saving = s.saving := rfl
@[simp] theorem State.written_setRecWord (s : State) (x off : Nat) (v : Dword) : (s.setRecWord x off v).written = s.written := rfl
@[simp] theorem State.guests_setRecWord (s : State) (x off : Nat) (v : Dword) : (s.setRecWord x off v).guests = s.guests := rfl
@[simp] theorem State.barred_setRecWord (s : State) (x off : Nat) (v : Dword) : (s.setRecWord x off v).barred = s.barred := rfl
@[simp] theorem State.indigo_setRecWord (s : State) (x off : Nat) (v : Dword) : (s.setRecWord x off v).indigo = s.indigo := rfl
@[simp] theorem State.windows_setRecWord (s : State) (x off : Nat) (v : Dword) : (s.setRecWord x off v).windows = s.windows := rfl
@[simp] theorem State.mailbox_setRecWord (s : State) (x off : Nat) (v : Dword) : (s.setRecWord x off v).mailbox = s.mailbox := rfl
@[simp] theorem State.keys_setRecWord (s : State) (x off : Nat) (v : Dword) : (s.setRecWord x off v).keys = s.keys := rfl
@[simp] theorem State.revoked_setRecWord (s : State) (x off : Nat) (v : Dword) : (s.setRecWord x off v).revoked = s.revoked := rfl
@[simp] theorem State.kix_setRecWord (s : State) (x off : Nat) (v : Dword) : (s.setRecWord x off v).kix = s.kix := rfl
@[simp] theorem State.vcache_setRecWord (s : State) (x off : Nat) (v : Dword) : (s.setRecWord x off v).vcache = s.vcache := rfl
@[simp] theorem State.scans_setRecWord (s : State) (x off : Nat) (v : Dword) : (s.setRecWord x off v).scans = s.scans := rfl
@[simp] theorem State.flushing_setRecWord (s : State) (x off : Nat) (v : Dword) : (s.setRecWord x off v).flushing = s.flushing := rfl
@[simp] theorem State.latched_setRecWord (s : State) (x off : Nat) (v : Dword) : (s.setRecWord x off v).latched = s.latched := rfl
@[simp] theorem State.latchGT_setRecWord (s : State) (x off : Nat) (v : Dword) : (s.setRecWord x off v).latchGT = s.latchGT := rfl
@[simp] theorem State.cntuni_setRecWord (s : State) (x off : Nat) (v : Dword) : (s.setRecWord x off v).cntuni = s.cntuni := rfl
@[simp] theorem State.cntaff_setRecWord (s : State) (x off : Nat) (v : Dword) : (s.setRecWord x off v).cntaff = s.cntaff := rfl
@[simp] theorem State.ewct_setRecWord (s : State) (x off : Nat) (v : Dword) : (s.setRecWord x off v).ewct = s.ewct := rfl
@[simp] theorem State.encs_setRecWord (s : State) (x off : Nat) (v : Dword) : (s.setRecWord x off v).encs = s.encs := rfl
@[simp] theorem State.tagDiff_setRecWord (s : State) (x off : Nat) (v : Dword) : (s.setRecWord x off v).tagDiff = s.tagDiff := rfl
@[simp] theorem State.keyDraw_setRecWord (s : State) (x off : Nat) (v : Dword) : (s.setRecWord x off v).keyDraw = s.keyDraw := rfl
@[simp] theorem State.vacating_setRecWord (s : State) (x off : Nat) (v : Dword) : (s.setRecWord x off v).vacating = s.vacating := rfl
@[simp] theorem State.ports_setRecWord (s : State) (x off : Nat) (v : Dword) : (s.setRecWord x off v).ports = s.ports := rfl
@[simp] theorem State.link_setRecWord (s : State) (x off : Nat) (v : Dword) : (s.setRecWord x off v).link = s.link := rfl
@[simp] theorem State.cntsbm_setRecWord (s : State) (x off : Nat) (v : Dword) : (s.setRecWord x off v).cntsbm = s.cntsbm := rfl

/-! ## Waves by number -/

@[simp] theorem State.wave_setWave_same (s : State) (id : Nat) (w : Wave) : (s.setWave id w).wave id = w :=
  Sparse.get_put_same ..

theorem State.wave_setWave_other (s : State) {id j : Nat} (w : Wave) (h : j ≠ id) : (s.setWave id w).wave j = s.wave j :=
  Sparse.get_put_other _ _ _ h

@[simp] theorem State.curWave_setCur (s : State) (w : Wave) : (s.setCur w).curWave = w := Sparse.get_put_same ..

theorem State.wave_setCur_other (s : State) {j : Nat} (w : Wave) (h : j ≠ s.cur) : (s.setCur w).wave j = s.wave j :=
  Sparse.get_put_other _ _ _ h

@[simp] theorem State.curWave_post (s : State) (i : Instr) : (s.post i).curWave = s.curWave := rfl

@[simp] theorem State.curWave_modTask (s : State) (t : Nat) (f : Task → Task) : (s.modTask t f).curWave = s.curWave := rfl

@[simp] theorem State.curWave_setEngine (s : State) (c : Nat) (e : Engine) : (s.setEngine c e).curWave = s.curWave := rfl

@[simp] theorem State.curWave_modWg (s : State) (g : Nat) (f : Workgroup → Workgroup) : (s.modWg g f).curWave = s.curWave := rfl

@[simp] theorem State.curWave_csrPut (s : State) (num inst : Nat) (v : Dword) : (s.csrPut num inst v).curWave = s.curWave := rfl

@[simp] theorem State.engine_setEngine_same (s : State) (c : Nat) (e : Engine) : (s.setEngine c e).engine c = e :=
  Sparse.get_put_same ..

theorem State.csrGet_csrPut_same (s : State) (num inst : Nat) (v : Dword) : (s.csrPut num inst v).csrGet num inst = v :=
  Sparse.get_put_same ..

theorem Sparse.put_put_same {α : Type} (m : Sparse α) (k : Nat) (v w : α) : Sparse.put (Sparse.put m k v) k w = Sparse.put m k w := by
  induction m with
  | nil => simp [Sparse.put]
  | cons e r ih =>
    obtain ⟨k', v'⟩ := e
    by_cases h1 : k' < k
    · simp [Sparse.put, h1, ih]
    · by_cases h2 : k' = k
      · simp [Sparse.put, h2]
      · simp [Sparse.put, h1, h2]

@[simp] theorem State.setWave_setWave (s : State) (id : Nat) (v w : Wave) : (s.setWave id v).setWave id w = s.setWave id w := by
  simp only [State.setWave, Sparse.put_put_same]

@[simp] theorem State.setCur_setCur (s : State) (v w : Wave) : (s.setCur v).setCur w = s.setCur w := by
  simp only [State.setCur, State.setWave, Sparse.put_put_same]

end Sys2Proof.Machine
end

