-- ==== Sys2Proof/Laws/Issue.lean ====
section
/-! SUPPORT. What issue does: an instruction that passes its checks answers its effect on the state in which it has
issued, and what issue itself changes. -/

namespace Sys2Proof.Machine

open Sys2Proof.Safety

/-! ## Issue -/

/-- An instruction without checks of its own that passes the common ones, and whose wait is over, answers its effect. -/
theorem issueWith_next {s u : State} {i : Instr} {prep : State → Move} {body : State → State}
    (h : IssuesAfter s prep i u) : s.issueWith i none prep body = .next (body (u.issuedBy i)) := by
  obtain ⟨hp, hs⟩ := h
  simp only [passes, Bool.and_eq_true, Bool.not_eq_true', Option.isNone_iff_eq_none, beq_iff_eq] at hp
  obtain ⟨⟨⟨⟨⟨h1, h2⟩, h3⟩, h4⟩, h5⟩, h6⟩ := hp
  unfold State.issueWith
  simp only [h1, h2, h3, h4, h5, h6, hs, Bool.false_or, bne_self_eq_false, ne_eq, not_true_eq_false, if_false,
    Bool.false_eq_true, decide_false, Bool.false_and]

/-- The same where the wait is for nothing but the span. -/
theorem issue_next {s u : State} {i : Instr} {body : State → State} (h : Issues s i u) :
    s.issue i body = .next (body (u.issuedBy i)) := issueWith_next h

/-! ## The state in which an instruction has issued -/

/-- The charge to the budget changes no wave. -/
theorem State.charge_waves (s : State) (id : Nat) : (s.charge id).waves = s.waves := by
  unfold State.charge
  dsimp only
  repeat' first
    | rfl
    | split

theorem State.charge_cur (s : State) (id : Nat) : (s.charge id).cur = s.cur := by
  unfold State.charge
  dsimp only
  repeat' first
    | rfl
    | split

/-- The counts of R164 are all that the tally of an instruction changes. -/
theorem State.tally_eq (s : State) (i : Instr) :
    s.tally i = { s with cntuni := (s.tally i).cntuni, cntaff := (s.tally i).cntaff } := rfl

theorem State.issuedBy_cur (s : State) (i : Instr) : (s.issuedBy i).cur = s.cur := State.charge_cur ..

/-- The wave that moves, once its instruction has issued. -/
theorem State.issuedBy_curWave (s : State) (i : Instr) :
    (s.issuedBy i).curWave = s.curWave.issued (i.opnds s.curWave) (encode i) s.nextId := by
  unfold State.curWave
  rw [State.issuedBy_cur]
  unfold State.issuedBy State.wave
  rw [State.charge_waves]
  exact State.wave_setWave_same ..

/-- No other wave changes. -/
theorem State.issuedBy_wave_other (s : State) (i : Instr) {j : Nat} (h : j ≠ s.cur) : (s.issuedBy i).wave j = s.wave j := by
  unfold State.issuedBy State.wave
  rw [State.charge_waves]
  exact State.wave_setCur_other s _ h

section Issued
variable (w : Wave) (o : Opnds) (x : Word) (op : Nat)

@[simp] theorem Wave.issued_pc : (w.issued o x op).pc = w.pc + 4 := rfl
@[simp] theorem Wave.issued_regs : (w.issued o x op).regs = w.regs := rfl
@[simp] theorem Wave.issued_rpoison : (w.issued o x op).rpoison = w.rpoison := rfl
@[simp] theorem Wave.issued_wb : (w.issued o x op).wb = w.wb := rfl
@[simp] theorem Wave.issued_k : (w.issued o x op).k = w.k := rfl
@[simp] theorem Wave.issued_gmode : (w.issued o x op).gmode = w.gmode := rfl
@[simp] theorem Wave.issued_exm : (w.issued o x op).exm = w.exm := rfl
@[simp] theorem Wave.issued_cct : (w.issued o x op).cct = w.cct := rfl
@[simp] theorem Wave.issued_width : (w.issued o x op).width = w.width := rfl
@[simp] theorem Wave.issued_active : (w.issued o x op).active = w.active := rfl
@[simp] theorem Wave.issued_lanes : (w.issued o x op).lanes = w.lanes := rfl
@[simp] theorem Wave.issued_uniform : (w.issued o x op).uniform = w.uniform := rfl
@[simp] theorem Wave.issued_lreg : (w.issued o x op).lreg = w.lreg := rfl
@[simp] theorem Wave.issued_v : (w.issued o x op).v = w.v := rfl
@[simp] theorem Wave.issued_v64 : (w.issued o x op).v64 = w.v64 := rfl
@[simp] theorem Wave.issued_val : (w.issued o x op).val = w.val := rfl
@[simp] theorem Wave.issued_valP : (w.issued o x op).valP = w.valP := rfl
@[simp] theorem Wave.issued_ty : (w.issued o x op).ty = w.ty := rfl
@[simp] theorem Wave.issued_vcount : (w.issued o x op).vcount = w.vcount := rfl
@[simp] theorem Wave.issued_env : (w.issued o x op).env = w.env := rfl
@[simp] theorem Wave.issued_te : (w.issued o x op).te = w.te := rfl
@[simp] theorem Wave.issued_kread : (w.issued o x op).kread = w.kread := rfl
@[simp] theorem Wave.issued_srcMark : (w.issued o x op).srcMark = w.srcMark := rfl
@[simp] theorem Wave.issued_holds : holds (w.issued o x op) = holds w := rfl

end Issued

/-! ## Writes to vector registers -/

/-- A write to a logical register, read back. -/
theorem Wave.lreg_lwrite (w : Wave) (j : Nat) (f : Nat → Option Word) (i l : Nat) (hl : l < w.width) :
    (w.lwrite j f).lreg i l = if i = j ∧ holds w j = true then (f l).getD (w.lreg j l) else w.lreg i l := by
  unfold Wave.lwrite
  by_cases hb : j < w.stkmax ∧ w.lo ≤ j ∧ j < w.hi
  · have hh : holds w j = true := by simp [holds, hb]
    rw [if_pos hb]
    by_cases hi : i = j
    · subst hi
      rw [if_pos ⟨rfl, hh⟩]
      unfold Wave.lreg
      simp only [hb.2, and_self, if_true]
      rw [Sparse.get_put_same]
      simp [List.getD, hl]
    · rw [if_neg (fun h => hi h.1)]
      unfold Wave.lreg
      simp only
      rw [Sparse.get_put_other _ _ _ hi]
  · have hh : ¬ holds w j = true := by
      simp only [holds, Bool.and_eq_true, decide_eq_true_eq]
      intro h
      exact hb ⟨h.1.1, h.1.2, h.2⟩
    rw [if_neg hb, if_neg (fun h => hh h.2)]

/-- A write to a register changes the registers of the wave and nothing else. -/
theorem Wave.lwrite_eq (w : Wave) (j : Nat) (f : Nat → Option Word) : w.lwrite j f = { w with regs := (w.lwrite j f).regs } := by
  unfold Wave.lwrite
  split <;> rfl

theorem Wave.vwrite_eq (w : Wave) (n : Nat) (f : Nat → Word) : w.vwrite n f = { w with regs := (w.vwrite n f).regs } :=
  Wave.lwrite_eq ..

theorem Wave.putVal_eq (w : Wave) (d n : Nat) (f : Nat → Nat) : w.putVal d n f = { w with regs := (w.putVal d n f).regs } := by
  unfold Wave.putVal
  split
  · unfold Wave.vwrite64
    rw [Wave.vwrite_eq (w.vwrite d _) (d + 1), Wave.vwrite_eq w d]
  · exact Wave.vwrite_eq ..

/-- What a written value reads as. -/
theorem Wave.lreg_putVal (w : Wave) (d n : Nat) (f : Nat → Nat) (hn : n = 1 ∨ n = 2) (j l : Nat) (hl : l < w.width) :
    (w.putVal d n f).lreg j l =
      if holds w j = true ∧ w.wb + d ≤ j ∧ j < w.wb + d + n ∧ w.active l = true then
        BitVec.ofNat 32 (f l / 2 ^ (32 * (j - (w.wb + d))))
      else w.lreg j l := by
  rcases hn with rfl | rfl
  · unfold Wave.putVal Wave.vwrite
    rw [if_neg (by decide), Wave.lreg_lwrite _ _ _ _ _ hl]
    by_cases hj : j = w.wb + d
    · subst hj
      by_cases hh : holds w (w.wb + d) = true
      · by_cases ha : w.active l = true
        · simp [hh, ha, wd]
        · simp [hh, ha]
      · simp [hh]
    · rw [if_neg (fun h => hj h.1), if_neg (fun h => hj (by omega))]
  · unfold Wave.putVal Wave.vwrite64
    rw [if_pos rfl]
    have e := Wave.vwrite_eq w d (fun l => wd (dw (f l)).toNat)
    have hl' : l < (w.vwrite d (fun l => wd (dw (f l)).toNat)).width := by rw [e]; exact hl
    have hw : (w.vwrite d (fun l => wd (dw (f l)).toNat)).wb = w.wb := by rw [e]
    have hh : holds (w.vwrite d (fun l => wd (dw (f l)).toNat)) = holds w := by rw [e]; rfl
    have ha : (w.vwrite d (fun l => wd (dw (f l)).toNat)).active = w.active := by rw [e]; rfl
    rw [Wave.vwrite, Wave.lreg_lwrite _ _ _ _ _ hl', hw, hh, ha, Wave.vwrite, Wave.lreg_lwrite _ _ _ _ _ hl,
      Wave.lreg_lwrite _ _ _ _ _ hl]
    by_cases h1 : j = w.wb + d
    · subst h1
      by_cases hh : holds w (w.wb + d) = true
      · by_cases ha : w.active l = true
        · simp [hh, ha, wd, dw]
          apply BitVec.eq_of_toNat_eq
          simp
        · simp [hh, ha]
      · simp [hh]
    · by_cases h2 : j = w.wb + (d + 1)
      · subst h2
        have e1 : w.wb + (d + 1) - (w.wb + d) = 1 := by omega
        have e2 : ¬ w.wb + (d + 1) = w.wb + d := by omega
        have e3 : w.wb + d ≤ w.wb + (d + 1) := by omega
        have e4 : w.wb + (d + 1) < w.wb + d + 2 := by omega
        by_cases hh : holds w (w.wb + (d + 1)) = true
        · by_cases ha : w.active l = true
          · simp only [hh, ha, e1, e2, e3, e4, wd, dw, and_self, if_true, Option.getD_some, false_and, if_false]
            apply BitVec.eq_of_toNat_eq
            simp
            omega
          · simp [hh, ha]
        · simp [hh]
      · have h3 : ¬ (w.wb + d ≤ j ∧ j < w.wb + d + 2) := by omega
        rw [if_neg (fun h => h2 h.1), if_neg (fun h => h1 h.1), if_neg (fun h => h3 ⟨h.2.1, h.2.2.1⟩)]

/-! ## Poison marks -/

theorem Wave.markLanes_eq (w : Wave) (n : Nat) (ls : List Nat) (f : Nat → Mark) :
    w.markLanes n ls f = { w with rpoison := (w.markLanes n ls f).rpoison } := by
  unfold Wave.markLanes
  induction ls generalizing w with
  | nil => rfl
  | cons l r ih =>
    simp only [List.foldl_cons]
    exact (ih (w.setLmark (w.wb + n) l (f l))).trans rfl

theorem Wave.markTo_eq (w : Wave) (d n : Nat) (f : Nat → Mark) : w.markTo d n f = { w with rpoison := (w.markTo d n f).rpoison } := by
  unfold Wave.markTo
  split
  · rfl
  · rename_i h
    clear h
    generalize w.lanes = ls
    induction List.range n generalizing w with
    | nil => rfl
    | cons i r ih =>
      simp only [List.foldl_cons]
      exact (ih (w.markLanes (d + i) ls f)).trans (by rw [Wave.markLanes_eq w])

theorem Wave.markTo_lreg (w : Wave) (d n : Nat) (f : Nat → Mark) : (w.markTo d n f).lreg = w.lreg := by
  rw [Wave.markTo_eq]
  rfl

end Sys2Proof.Machine
end

