-- ==== Sys2Proof/Laws/Span.lean ====
section
/-! SUPPORT. What making registers resident changes of the wave that moves: the span and the registers in it, and A bits
of its frames (07/R153, R156). -/

namespace Sys2Proof.Machine

open Sys2Proof.Safety

/-- A wave that differs from another at most in its span, the registers in it, their tags, and its frames. -/
def Wave.Spans (w v : Wave) : Prop :=
  v = { w with lo := v.lo, hi := v.hi, regs := v.regs, rpoison := v.rpoison, tags := v.tags, frames := v.frames }

theorem Wave.Spans.refl (w : Wave) : Wave.Spans w w := rfl

theorem Wave.Spans.trans {w v x : Wave} (h : Wave.Spans w v) (g : Wave.Spans v x) : Wave.Spans w x := by
  unfold Wave.Spans at *
  rw [g, h]

/-- A state in which the same wave moves, and every wave is as before but for its span. -/
def State.Spans (s t : State) : Prop := t.cur = s.cur ∧ ∀ j, Wave.Spans (s.wave j) (t.wave j)

theorem State.Spans.refl (s : State) : State.Spans s s := ⟨rfl, fun _ => rfl⟩

theorem State.Spans.trans {s t u : State} (h : State.Spans s t) (g : State.Spans t u) : State.Spans s u :=
  ⟨g.1.trans h.1, fun j => (h.2 j).trans (g.2 j)⟩

theorem State.Spans.of_waves {s t : State} (hc : t.cur = s.cur) (hw : t.waves = s.waves) : State.Spans s t :=
  ⟨hc, fun j => by
    unfold State.wave
    rw [hw]
    exact Wave.Spans.refl _⟩

theorem State.Spans.modWave (s : State) (id : Nat) (f : Wave → Wave) (h : ∀ w, Wave.Spans w (f w)) : State.Spans s (s.modWave id f) :=
  ⟨rfl, fun j => by
    by_cases e : j = id
    · subst e
      rw [State.modWave, State.wave_setWave_same]
      exact h _
    · rw [State.modWave, State.wave_setWave_other _ _ e]
      exact Wave.Spans.refl _⟩

/-! ## Memory operations change no wave -/

@[simp] theorem State.waves_write (s : State) (a : Nat) (bs : List Byte) : (s.write a bs).waves = s.waves := by
  induction bs generalizing a s with
  | nil => rfl
  | cons b r ih => exact (ih _ _).trans rfl

@[simp] theorem State.cur_write (s : State) (a : Nat) (bs : List Byte) : (s.write a bs).cur = s.cur := by
  induction bs generalizing a s with
  | nil => rfl
  | cons b r ih => exact (ih _ _).trans rfl

@[simp] theorem State.waves_cleanse (s : State) (a n : Nat) : (s.cleanse a n).waves = s.waves := by
  unfold State.cleanse
  split <;> rfl

@[simp] theorem State.cur_cleanse (s : State) (a n : Nat) : (s.cleanse a n).cur = s.cur := by
  unfold State.cleanse
  split <;> rfl

@[simp] theorem State.waves_writeAt (s : State) (bs : List (Nat × Byte)) : (s.writeAt bs).waves = s.waves := by
  induction bs generalizing s with
  | nil => rfl
  | cons b r ih => exact (ih _).trans rfl

@[simp] theorem State.cur_writeAt (s : State) (bs : List (Nat × Byte)) : (s.writeAt bs).cur = s.cur := by
  induction bs generalizing s with
  | nil => rfl
  | cons b r ih => exact (ih _).trans rfl

@[simp] theorem State.waves_devLine (s : State) (c a : Nat) (bs : List Byte) : (s.devLine c a bs).waves = s.waves := by
  simp [State.devLine]

@[simp] theorem State.cur_devLine (s : State) (c a : Nat) (bs : List Byte) : (s.devLine c a bs).cur = s.cur := by
  simp [State.devLine]

@[simp] theorem State.waves_devWrite (s : State) (c a : Nat) (bs : List Byte) : (s.devWrite c a bs).waves = s.waves := by
  unfold State.devWrite
  generalize lineChunks a bs = l
  induction l generalizing s with
  | nil => rfl
  | cons x r ih => simp only [List.foldl_cons, ih, State.waves_devLine]

@[simp] theorem State.cur_devWrite (s : State) (c a : Nat) (bs : List Byte) : (s.devWrite c a bs).cur = s.cur := by
  unfold State.devWrite
  generalize lineChunks a bs = l
  induction l generalizing s with
  | nil => rfl
  | cons x r ih => simp only [List.foldl_cons, ih, State.cur_devLine]

theorem State.Spans.foldl {α : Type} (f : State → α → State) (l : List α) (s : State) (h : ∀ s x, State.Spans s (f s x)) :
    State.Spans s (l.foldl f s) := by
  induction l generalizing s with
  | nil => exact State.Spans.refl s
  | cons x r ih => exact (h s x).trans (ih (f s x))

theorem Sparse.get_map {α : Type} (d : α) (m : Sparse α) (g : α → α) (k : Nat) (h : g d = d) :
    Sparse.get d (m.map (fun x => (x.1, g x.2))) k = g (Sparse.get d m k) := by
  induction m with
  | nil => exact h.symm
  | cons e r ih =>
    obtain ⟨k', v⟩ := e
    simp only [List.map_cons, Sparse.get]
    split
    · rfl
    · exact ih

/-- A wave with the A bits of the frames of a leaf set. -/
def Wave.touch (leafA : Nat) (w : Wave) : Wave :=
  { w with frames := w.frames.map (fun f => (f.1, if f.2.leaf = leafA then { f.2 with a := true } else f.2)) }

theorem State.wave_setAD (s : State) (c a : Nat) (d : Bool) (j : Nat) : (s.setAD c a d).wave j = Wave.touch a (s.wave j) :=
  Sparse.get_map Wave.empty s.waves (Wave.touch a) j rfl

/-- A and D bits set in a leaf. -/
theorem State.Spans.setAD (s : State) (c a : Nat) (d : Bool) : State.Spans s (s.setAD c a d) :=
  ⟨State.cur_devWrite .., fun j => by
    rw [State.wave_setAD]
    rfl⟩

/-! ## Moves -/

/-- Every state that a move answers spans the one that it began in. -/
def Move.Spans (s : State) (m : Move) : Prop :=
  match m with
  | .ok t => State.Spans s t
  | .wait t => State.Spans s t
  | .fault t _ _ _ => State.Spans s t

theorem Move.Spans.bind {s : State} {m : Move} {f : State → Move} (h : Move.Spans s m)
    (hf : ∀ t, State.Spans s t → Move.Spans s (f t)) : Move.Spans s (m.bind f) := by
  cases m with
  | ok t => exact hf t h
  | wait t => exact h
  | fault t c a i => exact h

/-- A backing-area access that was not reached changes nothing (R53, R158). -/
theorem Reach.stop_spans (r : Reach) {s0 s : State} (va : Dword) (h : State.Spans s0 s) : Move.Spans s0 (r.stop s va) := by
  cases r <;> exact h

theorem State.Spans.spillReg (s0 s : State) (id j : Nat) (h : State.Spans s0 s) : Move.Spans s0 (s.spillReg id j) := by
  unfold State.spillReg
  dsimp only
  split
  · rename_i p leaf e
    refine h.trans ?_
    refine State.Spans.trans ?_ (State.Spans.modWave _ _ _ (fun _ => rfl))
    have hw : ∀ bs, State.Spans s ((s.setAD (coreOfWave id) leaf true).devWrite (coreOfWave id) p bs) := fun bs =>
      (State.Spans.setAD s (coreOfWave id) leaf true).trans (State.Spans.of_waves (by simp) (by simp))
    split
    · exact hw _
    · refine (hw _).trans (State.Spans.foldl _ _ _ (fun t l => ?_))
      split
      · exact State.Spans.refl t
      · exact State.Spans.of_waves rfl rfl
  · exact Reach.stop_spans _ _ h

theorem Wave.Spans.setLmark (w : Wave) (j l : Nat) (m : Mark) : Wave.Spans w (w.setLmark j l m) := rfl

theorem Wave.Spans.foldl {α : Type} (f : Wave → α → Wave) (l : List α) (w : Wave) (h : ∀ w x, Wave.Spans w (f w x)) :
    Wave.Spans w (l.foldl f w) := by
  induction l generalizing w with
  | nil => exact Wave.Spans.refl w
  | cons x r ih => exact (h w x).trans (ih (f w x))

theorem State.Spans.fillReg (s0 s : State) (id j : Nat) (h : State.Spans s0 s) : Move.Spans s0 (s.fillReg id j) := by
  unfold State.fillReg
  dsimp only
  split
  · rename_i p leaf e
    refine h.trans ((State.Spans.setAD s _ leaf false).trans (State.Spans.modWave _ _ _ (fun w => ?_)))
    split
    · rfl
    · exact Wave.Spans.trans (v := { w with regs := _, tags := _ }) rfl (Wave.Spans.foldl _ _ _ (fun w l => Wave.Spans.setLmark ..))
  · exact Reach.stop_spans _ _ h

theorem State.Spans.spillRegs (js : List Nat) (id : Nat) (s0 s : State) (h : State.Spans s0 s) : Move.Spans s0 (spillRegs js id s) := by
  induction js generalizing s with
  | nil => exact h
  | cons j r ih => exact Move.Spans.bind (State.Spans.spillReg s0 s id j h) (fun t ht => ih t ht)

theorem State.Spans.fillRegs (js : List Nat) (id : Nat) (s0 s : State) (h : State.Spans s0 s) : Move.Spans s0 (fillRegs js id s) := by
  induction js generalizing s with
  | nil => exact h
  | cons j r ih => exact Move.Spans.bind (State.Spans.fillReg s0 s id j h) (fun t ht => ih t ht)

theorem State.Spans.spillGroups (n id : Nat) (s0 s : State) (h : State.Spans s0 s) : Move.Spans s0 (spillGroups n id s) := by
  induction n generalizing s with
  | zero => exact h
  | succ n ih =>
    unfold Machine.spillGroups
    split
    · exact h
    · exact Move.Spans.bind (State.Spans.spillRegs _ id s0 s h)
        (fun t ht => ih _ (ht.trans (State.Spans.modWave _ _ _ (fun _ => rfl))))

theorem State.Spans.enterReg (s : State) (id j : Nat) : State.Spans s (s.enterReg id j) :=
  State.Spans.trans (t := s.modWave id (fun x => { x with
      regs := Sparse.put x.regs j ((List.range x.width).map (fun l => Config.freeWord (64 * s.fresh + l))) }))
    (State.Spans.modWave s id _ (fun _ => rfl)) (State.Spans.of_waves rfl rfl)

/-- Making a range resident changes spans and nothing else of any wave. -/
theorem State.Spans.makeResident (s : State) (id base top : Nat) : Move.Spans s (s.makeResident id base top) := by
  unfold State.makeResident
  refine Move.Spans.bind (State.Spans.spillGroups _ id s s (State.Spans.refl s)) (fun t ht => ?_)
  refine Move.Spans.bind (State.Spans.fillRegs _ id s t ht) (fun u hu => ?_)
  exact hu.trans ((State.Spans.foldl _ _ _ (fun a i => State.Spans.enterReg a id _)).trans
    (State.Spans.modWave _ _ _ (fun _ => rfl)))

/-- The span of an instruction leaves everything else of the wave that moves as it was. -/
theorem State.span_spans {s u : State} {o : Opnds} (h : s.span o = .ok u) : State.Spans s u := by
  unfold State.span at h
  split at h
  · have g := State.Spans.makeResident s s.cur s.curWave.wb (Nat.min (o.top s.curWave) s.curWave.stkmax)
    rw [h] at g
    exact g
  · cases h
    exact State.Spans.refl s

theorem State.span_curWave {s u : State} {o : Opnds} (h : s.span o = .ok u) : Wave.Spans s.curWave u.curWave := by
  have g := State.span_spans h
  unfold State.curWave
  rw [g.1]
  exact g.2 s.cur

theorem issues_curWave {s u : State} {i : Instr} (h : Issues s i u) : Wave.Spans s.curWave u.curWave := State.span_curWave h.2

theorem Wave.Spans.vcount {w v : Wave} (h : Wave.Spans w v) : v.vcount = w.vcount := by
  rw [h]
  rfl

theorem Wave.Spans.ty {w v : Wave} (h : Wave.Spans w v) : v.ty = w.ty := by
  rw [h]
  rfl

theorem Wave.Spans.env {w v : Wave} (h : Wave.Spans w v) : v.env = w.env := by
  rw [h]
  rfl

theorem Wave.Spans.sigr {w v : Wave} (h : Wave.Spans w v) : v.sigr = w.sigr := by
  rw [h]

theorem Wave.Spans.pc {w v : Wave} (h : Wave.Spans w v) : v.pc = w.pc := by
  rw [h]

end Sys2Proof.Machine
end

