-- ==== Sys2Proof/Laws/Lane.lean ====
section
/-! SUPPORT. What a lane instruction does: it answers a state in which its registers hold its value in the active
lanes and only they have changed. -/

namespace Sys2Proof.Machine

open Sys2Proof.Safety

theorem foldl_or_zero {α : Type} (l : List α) (f : α → Nat) (h : ∀ x ∈ l, f x = 0) (a : Nat) :
    l.foldl (fun acc x => acc ||| f x) a = a := by
  induction l generalizing a with
  | nil => rfl
  | cons x r ih =>
    simp only [List.foldl_cons]
    rw [h x (List.mem_cons_self ..), Nat.or_zero]
    exact ih (fun y hy => h y (List.mem_cons_of_mem _ hy)) a

/-- No lane raises a condition: none is raised. -/
theorem Wave.conds_zero (w : Wave) (f : Nat → Res) (h : ∀ l, (f l).2 = 0) : w.conds f = 0 :=
  foldl_or_zero w.lanes _ (fun l _ => h l) 0

/-- Results that raise no enabled condition are written. -/
theorem State.laneWrite_next (u : State) (i j : Instr) (d n : Nat) (srcs : List Src) (f : Nat → Res) (hn : n = 1 ∨ n = 2)
    (hc : (u.issuedBy i).curWave.conds f &&& (u.issuedBy i).curWave.te = 0) :
    OnlyRegs u ((u.issuedBy i).laneWrite j d n srcs f) i ∧
      Gets u ((u.issuedBy i).laneWrite j d n srcs f) d n (fun l => (f l).1) := by
  have e : (u.issuedBy i).laneWrite j d n srcs f = (u.issuedBy i).setCur
      (((u.issuedBy i).curWave.putVal d n (fun l => (f l).1)).markTo d n ((u.issuedBy i).curWave.srcMark srcs)) := by
    unfold State.laneWrite
    simp only [hc, ne_eq, not_true_eq_false, if_false]
  rw [e]
  constructor
  · unfold OnlyRegs
    rw [State.curWave_setCur]
    congr 1
    rw [Wave.markTo_eq, Wave.putVal_eq]
  · intro j' l hl
    rw [State.curWave_setCur, Wave.markTo_lreg, State.issuedBy_curWave]
    exact Wave.lreg_putVal _ d n _ hn j' l hl

/-- A lane instruction that raises no enabled condition completes. -/
theorem State.laneOp_next {s u : State} {i : Instr} {d n : Nat} {srcs : List Src} {f : Wave → Nat → Res} (hn : n = 1 ∨ n = 2)
    (h : Issues s i u) (hc : (u.issuedBy i).curWave.conds (f (u.issuedBy i).curWave) &&& (u.issuedBy i).curWave.te = 0) :
    ∃ t, s.laneOp i d n srcs f = .next t ∧ OnlyRegs u t i ∧
      Gets u t d n (fun l => (f (u.issuedBy i).curWave l).1) :=
  ⟨_, issue_next h, State.laneWrite_next u i i d n srcs _ hn hc⟩

/-- One whose results never raise a condition. -/
theorem State.laneOp_plain {s u : State} {i : Instr} {d n : Nat} {srcs : List Src} {f : Wave → Nat → Res} (hn : n = 1 ∨ n = 2)
    (h : Issues s i u) (hc : ∀ w l, (f w l).2 = 0) :
    ∃ t, s.laneOp i d n srcs f = .next t ∧ OnlyRegs u t i ∧
      Gets u t d n (fun l => (f (u.issuedBy i).curWave l).1) :=
  State.laneOp_next hn h (by rw [Wave.conds_zero _ _ (hc _), Nat.zero_and])

theorem Wave.vcount_cases (w : Wave) : w.vcount = 1 ∨ w.vcount = 2 := by
  unfold Wave.vcount
  repeat' first
    | exact Or.inl rfl
    | exact Or.inr rfl
    | split

/-! ## Elements (08/R173) -/

/-- Values of e bits side by side: the lower n of them stay below 2^(e × n), and each is found at its place. -/
theorem digits_sum (e : Nat) (g : Nat → Nat) (n : Nat) :
    (List.range n).foldl (fun acc i => acc + g i % 2 ^ e * 2 ^ (e * i)) 0 < 2 ^ (e * n) ∧
      ∀ k, k < n → (List.range n).foldl (fun acc i => acc + g i % 2 ^ e * 2 ^ (e * i)) 0 / 2 ^ (e * k) % 2 ^ e = g k % 2 ^ e := by
  induction n with
  | zero => exact ⟨by simp, fun k hk => absurd hk (Nat.not_lt_zero k)⟩
  | succ n ih =>
    simp only [List.range_succ, List.foldl_append, List.foldl_cons, List.foldl_nil]
    generalize (List.range n).foldl (fun acc i => acc + g i % 2 ^ e * 2 ^ (e * i)) 0 = x at ih ⊢
    obtain ⟨hx, hk⟩ := ih
    have hp : 0 < 2 ^ (e * n) := Nat.two_pow_pos _
    have hg : g n % 2 ^ e < 2 ^ e := Nat.mod_lt _ (Nat.two_pow_pos _)
    have hs : 2 ^ (e * (n + 1)) = 2 ^ e * 2 ^ (e * n) := by rw [Nat.mul_add, Nat.pow_add, Nat.mul_one, Nat.mul_comm]
    refine ⟨?_, fun k hkn => ?_⟩
    · rw [hs]
      have := Nat.mul_le_mul_right (2 ^ (e * n)) (Nat.succ_le_of_lt hg)
      rw [Nat.succ_mul] at this
      omega
    · by_cases h : k = n
      · subst h
        rw [Nat.add_mul_div_right _ _ hp, Nat.div_eq_of_lt hx, Nat.zero_add, Nat.mod_mod]
      · have hlt : k < n := by omega
        have e1 : 2 ^ (e * n) = 2 ^ (e * (n - k - 1)) * 2 ^ e * 2 ^ (e * k) := by
          rw [← Nat.pow_add, ← Nat.pow_add]
          congr 1
          rw [show n = (n - k - 1) + 1 + k by omega]
          simp only [Nat.mul_add, Nat.mul_one]
          congr 3
          omega
        rw [e1, ← Nat.mul_assoc, Nat.add_mul_div_right _ _ (Nat.two_pow_pos _), ← Nat.mul_assoc, Nat.add_mul_mod_self_right]
        exact hk k hlt

/-- The conditions of a fold of elements. -/
theorem byElems_split (t : Ty) (f : Nat → Nat → Nat → Res) (a b c : Nat) (n : Nat) :
    (List.range n).foldl (fun (acc : Res) i =>
      (acc.1 + (f (bits a (t.elem * i) t.elem) (bits b (t.elem * i) t.elem) (bits c (t.elem * i) t.elem)).1 %
          2 ^ t.elem * 2 ^ (t.elem * i),
       acc.2 ||| (f (bits a (t.elem * i) t.elem) (bits b (t.elem * i) t.elem) (bits c (t.elem * i) t.elem)).2)) (0, 0) =
    ((List.range n).foldl (fun acc i => acc + (f (element t i a) (element t i b) (element t i c)).1 % 2 ^ t.elem * 2 ^ (t.elem * i)) 0,
     (List.range n).foldl (fun acc i => acc ||| (f (element t i a) (element t i b) (element t i c)).2) 0) := by
  induction n with
  | zero => rfl
  | succ n ih =>
    simp only [List.range_succ, List.foldl_append, List.foldl_cons, List.foldl_nil]
    rw [ih]
    rfl

/-- An element of a result is the function of the elements. -/
theorem byElems_element (t : Ty) (f : Nat → Nat → Nat → Res) (a b c k : Nat) (hk : k < t.elems) :
    element t k (byElems t f a b c).1 = (f (element t k a) (element t k b) (element t k c)).1 % 2 ^ t.elem := by
  unfold byElems
  rw [byElems_split]
  exact (digits_sum t.elem _ t.elems).2 k hk

theorem byElems_plain (t : Ty) (f : Nat → Nat → Nat → Res) (a b c : Nat) (h : ∀ x y z, (f x y z).2 = 0) :
    (byElems t f a b c).2 = 0 := by
  unfold byElems
  rw [byElems_split]
  exact foldl_or_zero _ _ (fun i _ => h _ _ _) 0

/-! ## Instructions of elements -/

/-- A and B by element, without conditions. -/
theorem State.elems3_plain {s u : State} {i : Instr} {d a b : Reg} {p q : Sel} {f : Ty → Nat → Nat → Res}
    (hf : ∀ t x y, (f t x y).2 = 0) (h : Issues s i u) :
    ∃ t, s.elems3 i d p a q b f = .next t ∧ OnlyRegs u t i ∧ ∃ g, Gets u t d u.curWave.vcount g ∧
      ∀ l k, u.curWave.active l = true → k < u.curWave.ty.elems →
        element u.curWave.ty k (g l) =
          (f u.curWave.ty (element u.curWave.ty k (u.curWave.valP p a l)) (element u.curWave.ty k (u.curWave.valP q b l))).1 %
            2 ^ u.curWave.ty.elem := by
  obtain ⟨t, ht, ho, hg⟩ := State.laneOp_plain (s := s) (i := i) (d := d) (n := s.curWave.vcount)
    (srcs := [(a, s.curWave.vcount, p), (b, s.curWave.vcount, q)])
    (f := fun w l => byElems w.ty (fun x y _ => f w.ty x y) (w.valP p a l) (w.valP q b l) 0)
    (Wave.vcount_cases _) h (fun w l => byElems_plain _ _ _ _ _ (fun _ _ _ => hf _ _ _))
  rw [(issues_curWave h).vcount]
  refine ⟨t, ht, ho, _, hg, fun l k _ hk => ?_⟩
  rw [State.issuedBy_curWave]
  exact byElems_element _ _ _ _ _ _ hk

/-- A by element, without conditions. -/
theorem State.elems2_plain {s u : State} {i : Instr} {d a : Reg} {p : Sel} {f : Ty → Nat → Res}
    (hf : ∀ t x, (f t x).2 = 0) (h : Issues s i u) :
    ∃ t, s.elems2 i d p a f = .next t ∧ OnlyRegs u t i ∧ ∃ g, Gets u t d u.curWave.vcount g ∧
      ∀ l k, u.curWave.active l = true → k < u.curWave.ty.elems →
        element u.curWave.ty k (g l) = (f u.curWave.ty (element u.curWave.ty k (u.curWave.valP p a l))).1 % 2 ^ u.curWave.ty.elem := by
  obtain ⟨t, ht, ho, hg⟩ := State.laneOp_plain (s := s) (i := i) (d := d) (n := s.curWave.vcount)
    (srcs := [(a, s.curWave.vcount, p)]) (f := fun w l => byElems w.ty (fun x _ _ => f w.ty x) (w.valP p a l) 0 0)
    (Wave.vcount_cases _) h (fun w l => byElems_plain _ _ _ _ _ (fun _ _ _ => hf _ _))
  rw [(issues_curWave h).vcount]
  refine ⟨t, ht, ho, _, hg, fun l k _ hk => ?_⟩
  rw [State.issuedBy_curWave]
  exact byElems_element _ _ _ _ _ _ hk

/-- A, B and C by element, without conditions. -/
theorem State.elems4_plain {s u : State} {i : Instr} {d a b c : Reg} {p : Sel} {f : Ty → Nat → Nat → Nat → Res}
    (hf : ∀ t x y z, (f t x y z).2 = 0) (h : Issues s i u) :
    ∃ t, s.elems4 i d a b c p f = .next t ∧ OnlyRegs u t i ∧ ∃ g, Gets u t d u.curWave.vcount g ∧
      ∀ l k, u.curWave.active l = true → k < u.curWave.ty.elems →
        element u.curWave.ty k (g l) =
          (f u.curWave.ty (element u.curWave.ty k (u.curWave.valP p a l)) (element u.curWave.ty k (u.curWave.val b l))
            (element u.curWave.ty k (u.curWave.val c l))).1 % 2 ^ u.curWave.ty.elem := by
  obtain ⟨t, ht, ho, hg⟩ := State.laneOp_plain (s := s) (i := i) (d := d) (n := s.curWave.vcount)
    (srcs := [(a, s.curWave.vcount, p), (b, s.curWave.vcount, selId), (c, s.curWave.vcount, selId)])
    (f := fun w l => byElems w.ty (f w.ty) (w.valP p a l) (w.val b l) (w.val c l))
    (Wave.vcount_cases _) h (fun w l => byElems_plain _ _ _ _ _ (fun _ _ _ => hf _ _ _ _))
  rw [(issues_curWave h).vcount]
  refine ⟨t, ht, ho, _, hg, fun l k _ hk => ?_⟩
  rw [State.issuedBy_curWave]
  exact byElems_element _ _ _ _ _ _ hk

end Sys2Proof.Machine
end

