-- ==== Sys2Proof/Laws/MemOps.lean ====
section
/-! SUPPORT. What each operation of Ops.lean does to memory: nothing, or it keeps the canonical form. -/

set_option linter.all false

namespace Sys2Proof.Machine

/-- Every state of an optional answer has canonical memory. -/
def OptWf (o : Option State) : Prop :=
  match o with
  | some t => Memory.wf t.mem = true
  | none => True

theorem OptWf.of {o : Option State} {t : State} (e : o = some t) (h : OptWf o) : Memory.wf t.mem = true := by
  subst e
  exact h

/-- Every state of an outcome has canonical memory. -/
def OutWf (o : Host.Outcome State Fault Refusal) : Prop :=
  match o with
  | .next t => Memory.wf t.mem = true
  | _ => True

theorem foldl_mem {α : Type} (f : State → α → State) (h : ∀ s x, (f s x).mem = s.mem) (l : List α) (s : State) :
    (l.foldl f s).mem = s.mem := by
  induction l generalizing s with
  | nil => rfl
  | cons x r ih => exact (ih (f s x)).trans (h s x)

theorem foldl_wf {α : Type} {f : State → α → State} {l : List α} {s : State}
    (h : ∀ s x, Memory.wf s.mem = true → Memory.wf (f s x).mem = true) (hs : Memory.wf s.mem = true) :
    Memory.wf (l.foldl f s).mem = true := by
  induction l generalizing s with
  | nil => exact hs
  | cons x r ih => exact ih (h s x hs)

theorem OptWf.some {t : State} (h : Memory.wf t.mem = true) : OptWf (some t) := h

theorem OptWf.none : OptWf none := trivial

theorem OptWf.findSome {α : Type} {f : α → Option State} {l : List α} (h : ∀ x, OptWf (f x)) : OptWf (l.findSome? f) := by
  induction l with
  | nil => exact OptWf.none
  | cons x r ih =>
    simp only [List.findSome?_cons]
    split
    · rename_i t e
      exact OptWf.of e (h x)
    · exact ih

theorem OptWf.map {α : Type} {f : α → State} {o : Option α} (h : ∀ x, o = Option.some x → Memory.wf (f x).mem = true) :
    OptWf (o.map f) := by
  cases o with
  | none => exact OptWf.none
  | some x => exact h x rfl

theorem OutWf.next {t : State} (h : Memory.wf t.mem = true) : OutWf (.next t) := h

theorem OutWf.fault {r : Fault} : OutWf (.fault r) := trivial

theorem OutWf.refused {r : Refusal} : OutWf (.refused r) := trivial

theorem foldl_mem1 {α β : Type} (f : State × β → α → State × β) (h : ∀ a x, (f a x).1.mem = a.1.mem) (l : List α)
    (a : State × β) : (l.foldl f a).1.mem = a.1.mem := by
  induction l generalizing a with
  | nil => rfl
  | cons x r ih => exact (ih (f a x)).trans (h a x)

theorem foldl_wf1 {α β : Type} {f : State × β → α → State × β} {l : List α} {a : State × β}
    (h : ∀ a x, Memory.wf a.1.mem = true → Memory.wf (f a x).1.mem = true) (ha : Memory.wf a.1.mem = true) :
    Memory.wf (l.foldl f a).1.mem = true := by
  induction l generalizing a with
  | nil => exact ha
  | cons x r ih => exact ih (h a x ha)

theorem foldr_mem {α : Type} (f : α → State → State) (h : ∀ x s, (f x s).mem = s.mem) (l : List α) (s : State) :
    (l.foldr f s).mem = s.mem := by
  induction l with
  | nil => rfl
  | cons x r ih => exact (h x _).trans ih

theorem getD_map_wf {α : Type} {f : α → State} {o : Option α} {s : State} (h : ∀ x, Memory.wf (f x).mem = true)
    (hs : Memory.wf s.mem = true) : Memory.wf ((o.map f).getD s).mem = true := by
  cases o with
  | none => exact hs
  | some x => exact h x

theorem getD_wf {o : Option State} {s : State} (h : OptWf o) (hs : Memory.wf s.mem = true) : Memory.wf (o.getD s).mem = true := by
  cases o with
  | none => exact hs
  | some x => exact h

theorem getD_map_mem {α : Type} {f : α → State} {o : Option α} {s : State} {m : List Host.Cell} (h : ∀ x, (f x).mem = m)
    (hs : s.mem = m) : ((o.map f).getD s).mem = m := by
  cases o with
  | none => exact hs
  | some x => exact h x

theorem elim_mem {α : Type} {f : α → State} {o : Option α} {s : State} {m : List Host.Cell} (h : ∀ x, (f x).mem = m)
    (hs : s.mem = m) : (o.elim s f).mem = m := by
  cases o with
  | none => exact hs
  | some x => exact h x

theorem elim_wf {α : Type} {f : α → State} {o : Option α} {s : State} (h : ∀ x, Memory.wf (f x).mem = true)
    (hs : Memory.wf s.mem = true) : Memory.wf (o.elim s f).mem = true := by
  cases o with
  | none => exact hs
  | some x => exact h x

theorem State.post_mem (s : State) (i : Instr) : (State.post s i).mem = s.mem := by
  unfold State.post
  repeat' first
    | (with_reducible rfl)
    | dsimp only
    | split
    | (refine foldl_mem _ ?_ _ _ |>.trans ?_ <;> [intro _ _; skip])
    | (with_reducible apply getD_map_mem <;> [intro _; skip])
    | (with_reducible apply elim_mem <;> [intro _; skip])
    | (refine foldl_mem1 _ ?_ _ _ |>.trans ?_ <;> [intro _ _; skip])

theorem State.postAll_mem (s : State) (is : List Instr) : (State.postAll s is).mem = s.mem := by
  unfold State.postAll
  repeat' first
    | (with_reducible rfl)
    | dsimp only
    | split
    | (refine foldl_mem _ ?_ _ _ |>.trans ?_ <;> [intro _ _; skip])
    | (with_reducible apply getD_map_mem <;> [intro _; skip])
    | (with_reducible apply elim_mem <;> [intro _; skip])
    | (refine foldl_mem1 _ ?_ _ _ |>.trans ?_ <;> [intro _ _; skip])

theorem State.bump_mem (s : State) : (State.bump s).mem = s.mem := by
  unfold State.bump
  repeat' first
    | (with_reducible rfl)
    | dsimp only
    | split
    | (refine foldl_mem _ ?_ _ _ |>.trans ?_ <;> [intro _ _; skip])
    | (with_reducible apply getD_map_mem <;> [intro _; skip])
    | (with_reducible apply elim_mem <;> [intro _; skip])
    | (refine foldl_mem1 _ ?_ _ _ |>.trans ?_ <;> [intro _ _; skip])

theorem State.draw_mem (s : State) : (State.draw s).mem = s.mem := by
  unfold State.draw
  repeat' first
    | (with_reducible rfl)
    | dsimp only
    | split
    | (refine foldl_mem _ ?_ _ _ |>.trans ?_ <;> [intro _ _; skip])
    | (with_reducible apply getD_map_mem <;> [intro _; skip])
    | (with_reducible apply elim_mem <;> [intro _; skip])
    | (refine foldl_mem1 _ ?_ _ _ |>.trans ?_ <;> [intro _ _; skip])

theorem State.csrPut_mem (s : State) (num : Nat) (inst : Nat) (v : Dword) : (State.csrPut s num inst v).mem = s.mem := by
  unfold State.csrPut
  repeat' first
    | (with_reducible rfl)
    | dsimp only
    | split
    | (refine foldl_mem _ ?_ _ _ |>.trans ?_ <;> [intro _ _; skip])
    | (with_reducible apply getD_map_mem <;> [intro _; skip])
    | (with_reducible apply elim_mem <;> [intro _; skip])
    | (refine foldl_mem1 _ ?_ _ _ |>.trans ?_ <;> [intro _ _; skip])

theorem State.setMark_mem (s : State) (a : Nat) (m : Mark) : (State.setMark s a m).mem = s.mem := by
  unfold State.setMark
  repeat' first
    | (with_reducible rfl)
    | dsimp only
    | split
    | (refine foldl_mem _ ?_ _ _ |>.trans ?_ <;> [intro _ _; skip])
    | (with_reducible apply getD_map_mem <;> [intro _; skip])
    | (with_reducible apply elim_mem <;> [intro _; skip])
    | (refine foldl_mem1 _ ?_ _ _ |>.trans ?_ <;> [intro _ _; skip])

theorem State.cleanse_mem (s : State) (a : Nat) (n : Nat) : (State.cleanse s a n).mem = s.mem := by
  unfold State.cleanse
  repeat' first
    | (with_reducible rfl)
    | dsimp only
    | split
    | (refine foldl_mem _ ?_ _ _ |>.trans ?_ <;> [intro _ _; skip])
    | (with_reducible apply getD_map_mem <;> [intro _; skip])
    | (with_reducible apply elim_mem <;> [intro _; skip])
    | (refine foldl_mem1 _ ?_ _ _ |>.trans ?_ <;> [intro _ _; skip])

theorem State.setSlice_mem (s : State) (h : Nat) (x : Slice) : (State.setSlice s h x).mem = s.mem := by
  unfold State.setSlice
  repeat' first
    | (with_reducible rfl)
    | dsimp only
    | split
    | (refine foldl_mem _ ?_ _ _ |>.trans ?_ <;> [intro _ _; skip])
    | (with_reducible apply getD_map_mem <;> [intro _; skip])
    | (with_reducible apply elim_mem <;> [intro _; skip])
    | (refine foldl_mem1 _ ?_ _ _ |>.trans ?_ <;> [intro _ _; skip])

theorem State.devLine_wf (s : State) (c : Nat) (pa : Nat) (bs : List Byte) (h : Memory.wf s.mem = true) : Memory.wf (State.devLine s c pa bs).mem = true := by
  unfold State.devLine
  repeat' first
    | (with_reducible assumption)
    | (with_reducible exact trivial)
    | rw [State.cleanse_mem]
    | (with_reducible apply State.writeAt_wf)
    | (with_reducible apply MoveWf.ok)
    | (with_reducible apply MoveWf.wait)
    | (with_reducible apply MoveWf.fault)
    | (with_reducible apply OptWf.some)
    | (with_reducible exact OptWf.none)
    | (with_reducible apply OutWf.next)
    | (with_reducible exact OutWf.fault)
    | (with_reducible exact OutWf.refused)
    | dsimp only
    | split
    | (with_reducible apply foldl_wf <;> [intro _ _ _; skip])
    | (with_reducible apply getD_map_wf <;> [intro _; skip])
    | (with_reducible apply elim_wf <;> [intro _; skip])
    | (with_reducible apply getD_wf)
    | (with_reducible apply foldl_wf1 <;> [intro _ _ _; skip])
    | (with_reducible apply OptWf.of; assumption)
    | (with_reducible apply AllocWf.placed; assumption)
    | (with_reducible apply AllocWf.waits; assumption)
    | (with_reducible apply State.allocate_wf)
    | (with_reducible apply State.actRow_wf)
    | (with_reducible apply MoveWf.of_ok; assumption)
    | (with_reducible apply MoveWf.of_wait; assumption)
    | (with_reducible apply MoveWf.of_fault; assumption)
    | (with_reducible apply MoveWf.bind <;> [skip; intro _ _])
    | (with_reducible apply OptWf.findSome; intro _)
    | (with_reducible apply OptWf.map; intro _ _)
    | (intro _ _)
    | (with_reducible apply Memory.wf_filter)
    | (with_reducible apply State.write_wf)
    | (with_reducible apply State.writeAt_wf)
    | (with_reducible apply State.writeNat_wf)

theorem State.devWrite_wf (s : State) (c : Nat) (pa : Nat) (bs : List Byte) (h : Memory.wf s.mem = true) : Memory.wf (State.devWrite s c pa bs).mem = true := by
  unfold State.devWrite
  repeat' first
    | (with_reducible assumption)
    | (with_reducible exact trivial)
    | (with_reducible apply State.devLine_wf)
    | (with_reducible apply MoveWf.ok)
    | (with_reducible apply MoveWf.wait)
    | (with_reducible apply MoveWf.fault)
    | (with_reducible apply OptWf.some)
    | (with_reducible exact OptWf.none)
    | (with_reducible apply OutWf.next)
    | (with_reducible exact OutWf.fault)
    | (with_reducible exact OutWf.refused)
    | dsimp only
    | split
    | (with_reducible apply foldl_wf <;> [intro _ _ _; skip])
    | (with_reducible apply getD_map_wf <;> [intro _; skip])
    | (with_reducible apply elim_wf <;> [intro _; skip])
    | (with_reducible apply getD_wf)
    | (with_reducible apply foldl_wf1 <;> [intro _ _ _; skip])
    | (with_reducible apply OptWf.of; assumption)
    | (with_reducible apply AllocWf.placed; assumption)
    | (with_reducible apply AllocWf.waits; assumption)
    | (with_reducible apply State.allocate_wf)
    | (with_reducible apply State.actRow_wf)
    | (with_reducible apply MoveWf.of_ok; assumption)
    | (with_reducible apply MoveWf.of_wait; assumption)
    | (with_reducible apply MoveWf.of_fault; assumption)
    | (with_reducible apply MoveWf.bind <;> [skip; intro _ _])
    | (with_reducible apply OptWf.findSome; intro _)
    | (with_reducible apply OptWf.map; intro _ _)
    | (intro _ _)
    | (with_reducible apply Memory.wf_filter)
    | (with_reducible apply State.write_wf)
    | (with_reducible apply State.writeAt_wf)
    | (with_reducible apply State.writeNat_wf)

theorem State.setWave_mem (s : State) (id : Nat) (w : Wave) : (State.setWave s id w).mem = s.mem := by
  unfold State.setWave
  repeat' first
    | (with_reducible rfl)
    | dsimp only
    | split
    | (refine foldl_mem _ ?_ _ _ |>.trans ?_ <;> [intro _ _; skip])
    | (with_reducible apply getD_map_mem <;> [intro _; skip])
    | (with_reducible apply elim_mem <;> [intro _; skip])
    | (refine foldl_mem1 _ ?_ _ _ |>.trans ?_ <;> [intro _ _; skip])

theorem State.setCur_mem (s : State) (w : Wave) : (State.setCur s w).mem = s.mem := by
  unfold State.setCur
  repeat' first
    | (with_reducible rfl)
    | rw [State.setWave_mem]
    | dsimp only
    | split
    | (refine foldl_mem _ ?_ _ _ |>.trans ?_ <;> [intro _ _; skip])
    | (with_reducible apply getD_map_mem <;> [intro _; skip])
    | (with_reducible apply elim_mem <;> [intro _; skip])
    | (refine foldl_mem1 _ ?_ _ _ |>.trans ?_ <;> [intro _ _; skip])

theorem State.modWave_mem (s : State) (id : Nat) (f : Wave → Wave) : (State.modWave s id f).mem = s.mem := by
  unfold State.modWave
  repeat' first
    | (with_reducible rfl)
    | rw [State.setWave_mem]
    | dsimp only
    | split
    | (refine foldl_mem _ ?_ _ _ |>.trans ?_ <;> [intro _ _; skip])
    | (with_reducible apply getD_map_mem <;> [intro _; skip])
    | (with_reducible apply elim_mem <;> [intro _; skip])
    | (refine foldl_mem1 _ ?_ _ _ |>.trans ?_ <;> [intro _ _; skip])

theorem State.emptyOp_mem (s : State) (c : Counter) : (State.emptyOp s c).mem = s.mem := by
  unfold State.emptyOp
  repeat' first
    | (with_reducible rfl)
    | rw [State.bump_mem]
    | rw [State.modWave_mem]
    | dsimp only
    | split
    | (refine foldl_mem _ ?_ _ _ |>.trans ?_ <;> [intro _ _; skip])
    | (with_reducible apply getD_map_mem <;> [intro _; skip])
    | (with_reducible apply elim_mem <;> [intro _; skip])
    | (refine foldl_mem1 _ ?_ _ _ |>.trans ?_ <;> [intro _ _; skip])

theorem State.setEngine_mem (s : State) (c : Nat) (e : Engine) : (State.setEngine s c e).mem = s.mem := by
  unfold State.setEngine
  repeat' first
    | (with_reducible rfl)
    | dsimp only
    | split
    | (refine foldl_mem _ ?_ _ _ |>.trans ?_ <;> [intro _ _; skip])
    | (with_reducible apply getD_map_mem <;> [intro _; skip])
    | (with_reducible apply elim_mem <;> [intro _; skip])
    | (refine foldl_mem1 _ ?_ _ _ |>.trans ?_ <;> [intro _ _; skip])

theorem State.modWg_mem (s : State) (g : Nat) (f : Workgroup → Workgroup) : (State.modWg s g f).mem = s.mem := by
  unfold State.modWg
  repeat' first
    | (with_reducible rfl)
    | dsimp only
    | split
    | (refine foldl_mem _ ?_ _ _ |>.trans ?_ <;> [intro _ _; skip])
    | (with_reducible apply getD_map_mem <;> [intro _; skip])
    | (with_reducible apply elim_mem <;> [intro _; skip])
    | (refine foldl_mem1 _ ?_ _ _ |>.trans ?_ <;> [intro _ _; skip])

theorem State.modTask_mem (s : State) (t : Nat) (f : Task → Task) : (State.modTask s t f).mem = s.mem := by
  unfold State.modTask
  repeat' first
    | (with_reducible rfl)
    | dsimp only
    | split
    | (refine foldl_mem _ ?_ _ _ |>.trans ?_ <;> [intro _ _; skip])
    | (with_reducible apply getD_map_mem <;> [intro _; skip])
    | (with_reducible apply elim_mem <;> [intro _; skip])
    | (refine foldl_mem1 _ ?_ _ _ |>.trans ?_ <;> [intro _ _; skip])

theorem State.setFb_mem (s : State) (cl : Nat) (es : List FbEntry) : (State.setFb s cl es).mem = s.mem := by
  unfold State.setFb
  repeat' first
    | (with_reducible rfl)
    | dsimp only
    | split
    | (refine foldl_mem _ ?_ _ _ |>.trans ?_ <;> [intro _ _; skip])
    | (with_reducible apply getD_map_mem <;> [intro _; skip])
    | (with_reducible apply elim_mem <;> [intro _; skip])
    | (refine foldl_mem1 _ ?_ _ _ |>.trans ?_ <;> [intro _ _; skip])

theorem State.setCache_mem (s : State) (c : Nat) (cs : List CacheCopy) : (State.setCache s c cs).mem = s.mem := by
  unfold State.setCache
  repeat' first
    | (with_reducible rfl)
    | dsimp only
    | split
    | (refine foldl_mem _ ?_ _ _ |>.trans ?_ <;> [intro _ _; skip])
    | (with_reducible apply getD_map_mem <;> [intro _; skip])
    | (with_reducible apply elim_mem <;> [intro _; skip])
    | (refine foldl_mem1 _ ?_ _ _ |>.trans ?_ <;> [intro _ _; skip])

theorem State.leaveWaits_mem (s : State) (u : Nat × Nat) : (State.leaveWaits s u).mem = s.mem := by
  unfold State.leaveWaits
  repeat' first
    | (with_reducible rfl)
    | dsimp only
    | split
    | (refine foldl_mem _ ?_ _ _ |>.trans ?_ <;> [intro _ _; skip])
    | (with_reducible apply getD_map_mem <;> [intro _; skip])
    | (with_reducible apply elim_mem <;> [intro _; skip])
    | (refine foldl_mem1 _ ?_ _ _ |>.trans ?_ <;> [intro _ _; skip])

theorem State.joinMig_mem (s : State) (die : Nat) (id : Nat) (u : Nat × Nat) : (State.joinMig s die id u).mem = s.mem := by
  unfold State.joinMig
  repeat' first
    | (with_reducible rfl)
    | dsimp only
    | split
    | (refine foldl_mem _ ?_ _ _ |>.trans ?_ <;> [intro _ _; skip])
    | (with_reducible apply getD_map_mem <;> [intro _; skip])
    | (with_reducible apply elim_mem <;> [intro _; skip])
    | (refine foldl_mem1 _ ?_ _ _ |>.trans ?_ <;> [intro _ _; skip])

theorem State.tlbFill_mem (s : State) (core : Nat) (e : TlbEntry) : (State.tlbFill s core e).mem = s.mem := by
  unfold State.tlbFill
  repeat' first
    | (with_reducible rfl)
    | dsimp only
    | split
    | (refine foldl_mem _ ?_ _ _ |>.trans ?_ <;> [intro _ _; skip])
    | (with_reducible apply getD_map_mem <;> [intro _; skip])
    | (with_reducible apply elim_mem <;> [intro _; skip])
    | (refine foldl_mem1 _ ?_ _ _ |>.trans ?_ <;> [intro _ _; skip])

theorem State.setAD_wf (s : State) (c : Nat) (leafA : Nat) (d : Bool) (h : Memory.wf s.mem = true) : Memory.wf (State.setAD s c leafA d).mem = true := by
  unfold State.setAD
  repeat' first
    | (with_reducible assumption)
    | (with_reducible exact trivial)
    | (with_reducible apply State.devWrite_wf)
    | (with_reducible apply MoveWf.ok)
    | (with_reducible apply MoveWf.wait)
    | (with_reducible apply MoveWf.fault)
    | (with_reducible apply OptWf.some)
    | (with_reducible exact OptWf.none)
    | (with_reducible apply OutWf.next)
    | (with_reducible exact OutWf.fault)
    | (with_reducible exact OutWf.refused)
    | dsimp only
    | split
    | (with_reducible apply foldl_wf <;> [intro _ _ _; skip])
    | (with_reducible apply getD_map_wf <;> [intro _; skip])
    | (with_reducible apply elim_wf <;> [intro _; skip])
    | (with_reducible apply getD_wf)
    | (with_reducible apply foldl_wf1 <;> [intro _ _ _; skip])
    | (with_reducible apply OptWf.of; assumption)
    | (with_reducible apply AllocWf.placed; assumption)
    | (with_reducible apply AllocWf.waits; assumption)
    | (with_reducible apply State.allocate_wf)
    | (with_reducible apply State.actRow_wf)
    | (with_reducible apply MoveWf.of_ok; assumption)
    | (with_reducible apply MoveWf.of_wait; assumption)
    | (with_reducible apply MoveWf.of_fault; assumption)
    | (with_reducible apply MoveWf.bind <;> [skip; intro _ _])
    | (with_reducible apply OptWf.findSome; intro _)
    | (with_reducible apply OptWf.map; intro _ _)
    | (intro _ _)
    | (with_reducible apply Memory.wf_filter)
    | (with_reducible apply State.write_wf)
    | (with_reducible apply State.writeAt_wf)
    | (with_reducible apply State.writeNat_wf)

theorem State.setRecWord_mem (s : State) (x : Nat) (off : Nat) (v : Dword) : (State.setRecWord s x off v).mem = s.mem := by
  unfold State.setRecWord
  repeat' first
    | (with_reducible rfl)
    | dsimp only
    | split
    | (refine foldl_mem _ ?_ _ _ |>.trans ?_ <;> [intro _ _; skip])
    | (with_reducible apply getD_map_mem <;> [intro _; skip])
    | (with_reducible apply elim_mem <;> [intro _; skip])
    | (refine foldl_mem1 _ ?_ _ _ |>.trans ?_ <;> [intro _ _; skip])

theorem State.parkWave_mem (s : State) (id : Nat) (p : ParkInfo) : (State.parkWave s id p).mem = s.mem := by
  unfold State.parkWave
  repeat' first
    | (with_reducible rfl)
    | rw [State.post_mem]
    | rw [State.setWave_mem]
    | dsimp only
    | split
    | (refine foldl_mem _ ?_ _ _ |>.trans ?_ <;> [intro _ _; skip])
    | (with_reducible apply getD_map_mem <;> [intro _; skip])
    | (with_reducible apply elim_mem <;> [intro _; skip])
    | (refine foldl_mem1 _ ?_ _ _ |>.trans ?_ <;> [intro _ _; skip])

theorem State.parkMoving_mem (s : State) (id : Nat) (iword : Word) (faddr : Dword) (die : Nat) (mig : Nat) (srcs : List (List (Nat × Word × Mark))) : (State.parkMoving s id iword faddr die mig srcs).mem = s.mem := by
  unfold State.parkMoving
  repeat' first
    | (with_reducible rfl)
    | rw [State.joinMig_mem]
    | rw [State.parkWave_mem]
    | dsimp only
    | split
    | (refine foldl_mem _ ?_ _ _ |>.trans ?_ <;> [intro _ _; skip])
    | (with_reducible apply getD_map_mem <;> [intro _; skip])
    | (with_reducible apply elim_mem <;> [intro _; skip])
    | (refine foldl_mem1 _ ?_ _ _ |>.trans ?_ <;> [intro _ _; skip])

theorem State.parkPre_mem (s : State) (id : Nat) (iword : Word) (cls : Nat) (faddr : Dword) (finfo : Dword) (srcs : List (List (Nat × Word × Mark))) : (State.parkPre s id iword cls faddr finfo srcs).mem = s.mem := by
  unfold State.parkPre
  repeat' first
    | (with_reducible rfl)
    | rw [State.parkWave_mem]
    | dsimp only
    | split
    | (refine foldl_mem _ ?_ _ _ |>.trans ?_ <;> [intro _ _; skip])
    | (with_reducible apply getD_map_mem <;> [intro _; skip])
    | (with_reducible apply elim_mem <;> [intro _; skip])
    | (refine foldl_mem1 _ ?_ _ _ |>.trans ?_ <;> [intro _ _; skip])

end Sys2Proof.Machine
end

