-- ==== Sys2Proof/Laws/MemIssue.lean ====
section
/-! SUPPORT. What each operation of Issue.lean does to memory: nothing, or it keeps the canonical form. -/

set_option linter.all false

namespace Sys2Proof.Machine

/-- Every state of a move has canonical memory. -/
def MoveWf (m : Move) : Prop :=
  match m with
  | .ok t => Memory.wf t.mem = true
  | .wait t => Memory.wf t.mem = true
  | .fault t _ _ _ => Memory.wf t.mem = true

theorem MoveWf.of_ok {m : Move} {t : State} (e : m = .ok t) (h : MoveWf m) : Memory.wf t.mem = true := by
  subst e
  exact h

theorem MoveWf.of_wait {m : Move} {t : State} (e : m = .wait t) (h : MoveWf m) : Memory.wf t.mem = true := by
  subst e
  exact h

theorem MoveWf.of_fault {m : Move} {t : State} {c : Nat} {a i : Dword} (e : m = .fault t c a i) (h : MoveWf m) :
    Memory.wf t.mem = true := by
  subst e
  exact h

theorem MoveWf.bind {m : Move} {f : State → Move} (h : MoveWf m) (hf : ∀ t, Memory.wf t.mem = true → MoveWf (f t)) :
    MoveWf (m.bind f) := by
  cases m with
  | ok t => exact hf t h
  | wait t => exact h
  | fault t c a i => exact h

theorem MoveWf.ok {t : State} (h : Memory.wf t.mem = true) : MoveWf (.ok t) := h

theorem MoveWf.wait {t : State} (h : Memory.wf t.mem = true) : MoveWf (.wait t) := h

theorem MoveWf.fault {t : State} {c : Nat} {a i : Dword} (h : Memory.wf t.mem = true) : MoveWf (.fault t c a i) := h

theorem State.logFault_wf (s : State) (die : Nat) (typ : Nat) (cls : Nat) (act : Nat) (origin : Nat) (handle : Nat) (addr : Dword) (unit : Dword) (h : Memory.wf s.mem = true) : Memory.wf (State.logFault s die typ cls act origin handle addr unit).mem = true := by
  unfold State.logFault
  repeat' first
    | (with_reducible assumption)
    | (with_reducible exact trivial)
    | rw [State.csrPut_mem]
    | (with_reducible apply State.devWrite_wf)
    | (with_reducible apply MoveWf.ok)
    | (with_reducible apply MoveWf.wait)
    | (with_reducible apply MoveWf.fault)
    | (with_reducible apply OptWf.some)
    | (with_reducible exact OptWf.none)
    | (with_reducible apply OutWf.next)
    | (with_reducible exact OutWf.fault)
    | (with_reducible exact OutWf.refused)
    | dsimp only
    | split
    | (with_reducible apply foldl_wf <;> [intro _ _ _; skip])
    | (with_reducible apply getD_map_wf <;> [intro _; skip])
    | (with_reducible apply elim_wf <;> [intro _; skip])
    | (with_reducible apply getD_wf)
    | (with_reducible apply foldl_wf1 <;> [intro _ _ _; skip])
    | (with_reducible apply OptWf.of; assumption)
    | (with_reducible apply AllocWf.placed; assumption)
    | (with_reducible apply AllocWf.waits; assumption)
    | (with_reducible apply State.allocate_wf)
    | (with_reducible apply State.actRow_wf)
    | (with_reducible apply MoveWf.of_ok; assumption)
    | (with_reducible apply MoveWf.of_wait; assumption)
    | (with_reducible apply MoveWf.of_fault; assumption)
    | (with_reducible apply MoveWf.bind <;> [skip; intro _ _])
    | (with_reducible apply OptWf.findSome; intro _)
    | (with_reducible apply OptWf.map; intro _ _)
    | (intro _ _)
    | (with_reducible apply Memory.wf_filter)
    | (with_reducible apply State.write_wf)
    | (with_reducible apply State.writeAt_wf)
    | (with_reducible apply State.writeNat_wf)

theorem Reach.stop_wf (r : Reach) (s : State) (va : Dword) (h : Memory.wf s.mem = true) : MoveWf (Reach.stop r s va) := by
  unfold Reach.stop
  repeat' first
    | (with_reducible assumption)
    | (with_reducible exact trivial)
    | (with_reducible apply MoveWf.ok)
    | (with_reducible apply MoveWf.wait)
    | (with_reducible apply MoveWf.fault)
    | (with_reducible apply OptWf.some)
    | (with_reducible exact OptWf.none)
    | (with_reducible apply OutWf.next)
    | (with_reducible exact OutWf.fault)
    | (with_reducible exact OutWf.refused)
    | dsimp only
    | split
    | (with_reducible apply foldl_wf <;> [intro _ _ _; skip])
    | (with_reducible apply getD_map_wf <;> [intro _; skip])
    | (with_reducible apply elim_wf <;> [intro _; skip])
    | (with_reducible apply getD_wf)
    | (with_reducible apply foldl_wf1 <;> [intro _ _ _; skip])
    | (with_reducible apply OptWf.of; assumption)
    | (with_reducible apply AllocWf.placed; assumption)
    | (with_reducible apply AllocWf.waits; assumption)
    | (with_reducible apply State.allocate_wf)
    | (with_reducible apply State.actRow_wf)
    | (with_reducible apply MoveWf.of_ok; assumption)
    | (with_reducible apply MoveWf.of_wait; assumption)
    | (with_reducible apply MoveWf.of_fault; assumption)
    | (with_reducible apply MoveWf.bind <;> [skip; intro _ _])
    | (with_reducible apply OptWf.findSome; intro _)
    | (with_reducible apply OptWf.map; intro _ _)
    | (intro _ _)
    | (with_reducible apply Memory.wf_filter)
    | (with_reducible apply State.write_wf)
    | (with_reducible apply State.writeAt_wf)
    | (with_reducible apply State.writeNat_wf)

theorem State.backWrite_wf (s : State) (id : Nat) (w : Wave) (va : Dword) (bs : List Byte) (h : Memory.wf s.mem = true) : MoveWf (State.backWrite s id w va bs) := by
  unfold State.backWrite
  repeat' first
    | (with_reducible assumption)
    | (with_reducible exact trivial)
    | (with_reducible apply Reach.stop_wf)
    | (with_reducible apply State.devWrite_wf)
    | (with_reducible apply State.setAD_wf)
    | (with_reducible apply MoveWf.ok)
    | (with_reducible apply MoveWf.wait)
    | (with_reducible apply MoveWf.fault)
    | (with_reducible apply OptWf.some)
    | (with_reducible exact OptWf.none)
    | (with_reducible apply OutWf.next)
    | (with_reducible exact OutWf.fault)
    | (with_reducible exact OutWf.refused)
    | dsimp only
    | split
    | (with_reducible apply foldl_wf <;> [intro _ _ _; skip])
    | (with_reducible apply getD_map_wf <;> [intro _; skip])
    | (with_reducible apply elim_wf <;> [intro _; skip])
    | (with_reducible apply getD_wf)
    | (with_reducible apply foldl_wf1 <;> [intro _ _ _; skip])
    | (with_reducible apply OptWf.of; assumption)
    | (with_reducible apply AllocWf.placed; assumption)
    | (with_reducible apply AllocWf.waits; assumption)
    | (with_reducible apply State.allocate_wf)
    | (with_reducible apply State.actRow_wf)
    | (with_reducible apply MoveWf.of_ok; assumption)
    | (with_reducible apply MoveWf.of_wait; assumption)
    | (with_reducible apply MoveWf.of_fault; assumption)
    | (with_reducible apply MoveWf.bind <;> [skip; intro _ _])
    | (with_reducible apply OptWf.findSome; intro _)
    | (with_reducible apply OptWf.map; intro _ _)
    | (intro _ _)
    | (with_reducible apply Memory.wf_filter)
    | (with_reducible apply State.write_wf)
    | (with_reducible apply State.writeAt_wf)
    | (with_reducible apply State.writeNat_wf)

theorem State.spillReg_wf (s : State) (id : Nat) (j : Nat) (h : Memory.wf s.mem = true) : MoveWf (State.spillReg s id j) := by
  unfold State.spillReg
  dsimp only
  split
  · rename_i p leaf e
    apply MoveWf.ok
    rw [State.modWave_mem]
    split
    · exact State.devWrite_wf _ _ _ _ (State.setAD_wf _ _ _ _ h)
    · rw [foldl_mem _ (fun t x => by split <;> first | rfl | rw [State.setMark_mem])]
      exact State.devWrite_wf _ _ _ _ (State.setAD_wf _ _ _ _ h)
  · exact Reach.stop_wf _ _ _ h

theorem State.fillReg_wf (s : State) (id : Nat) (j : Nat) (h : Memory.wf s.mem = true) : MoveWf (State.fillReg s id j) := by
  unfold State.fillReg
  repeat' first
    | (with_reducible assumption)
    | (with_reducible exact trivial)
    | rw [State.modWave_mem]
    | (with_reducible apply Reach.stop_wf)
    | (with_reducible apply State.load_wf)
    | (with_reducible apply State.setAD_wf)
    | (with_reducible apply MoveWf.ok)
    | (with_reducible apply MoveWf.wait)
    | (with_reducible apply MoveWf.fault)
    | (with_reducible apply OptWf.some)
    | (with_reducible exact OptWf.none)
    | (with_reducible apply OutWf.next)
    | (with_reducible exact OutWf.fault)
    | (with_reducible exact OutWf.refused)
    | dsimp only
    | split
    | (with_reducible apply foldl_wf <;> [intro _ _ _; skip])
    | (with_reducible apply getD_map_wf <;> [intro _; skip])
    | (with_reducible apply elim_wf <;> [intro _; skip])
    | (with_reducible apply getD_wf)
    | (with_reducible apply foldl_wf1 <;> [intro _ _ _; skip])
    | (with_reducible apply OptWf.of; assumption)
    | (with_reducible apply AllocWf.placed; assumption)
    | (with_reducible apply AllocWf.waits; assumption)
    | (with_reducible apply State.allocate_wf)
    | (with_reducible apply State.actRow_wf)
    | (with_reducible apply MoveWf.of_ok; assumption)
    | (with_reducible apply MoveWf.of_wait; assumption)
    | (with_reducible apply MoveWf.of_fault; assumption)
    | (with_reducible apply MoveWf.bind <;> [skip; intro _ _])
    | (with_reducible apply OptWf.findSome; intro _)
    | (with_reducible apply OptWf.map; intro _ _)
    | (intro _ _)
    | (with_reducible apply Memory.wf_filter)
    | (with_reducible apply State.write_wf)
    | (with_reducible apply State.writeAt_wf)
    | (with_reducible apply State.writeNat_wf)


theorem spillRegs_wf (js : List Nat) (id : Nat) (s : State) (h : Memory.wf s.mem = true) : MoveWf (spillRegs js id s) := by
  induction js generalizing s with
  | nil => exact MoveWf.ok h
  | cons j r ih => exact MoveWf.bind (State.spillReg_wf s id j h) (fun t ht => ih t ht)

theorem fillRegs_wf (js : List Nat) (id : Nat) (s : State) (h : Memory.wf s.mem = true) : MoveWf (fillRegs js id s) := by
  induction js generalizing s with
  | nil => exact MoveWf.ok h
  | cons j r ih => exact MoveWf.bind (State.fillReg_wf s id j h) (fun t ht => ih t ht)

theorem spillGroups_wf (n id : Nat) (s : State) (h : Memory.wf s.mem = true) : MoveWf (spillGroups n id s) := by
  induction n generalizing s with
  | zero => exact MoveWf.ok h
  | succ n ih =>
    unfold spillGroups
    split
    · exact MoveWf.wait h
    · refine MoveWf.bind (spillRegs_wf _ id s h) (fun t ht => ih _ ?_)
      rw [State.modWave_mem]
      exact ht

theorem State.enterReg_mem (s : State) (id : Nat) (j : Nat) : (State.enterReg s id j).mem = s.mem := by
  unfold State.enterReg
  repeat' first
    | (with_reducible rfl)
    | rw [State.draw_mem]
    | rw [State.modWave_mem]
    | dsimp only
    | split
    | (refine foldl_mem _ ?_ _ _ |>.trans ?_ <;> [intro _ _; skip])
    | (with_reducible apply getD_map_mem <;> [intro _; skip])
    | (with_reducible apply elim_mem <;> [intro _; skip])
    | (refine foldl_mem1 _ ?_ _ _ |>.trans ?_ <;> [intro _ _; skip])

theorem State.makeResident_wf (s : State) (id : Nat) (base : Nat) (top : Nat) (h : Memory.wf s.mem = true) : MoveWf (State.makeResident s id base top) := by
  unfold State.makeResident
  repeat' first
    | (with_reducible assumption)
    | (with_reducible exact trivial)
    | rw [State.enterReg_mem]
    | rw [State.modWave_mem]
    | (with_reducible apply Move.bind_wf)
    | (with_reducible apply fillRegs_wf)
    | (with_reducible apply spillGroups_wf)
    | (with_reducible apply MoveWf.ok)
    | (with_reducible apply MoveWf.wait)
    | (with_reducible apply MoveWf.fault)
    | (with_reducible apply OptWf.some)
    | (with_reducible exact OptWf.none)
    | (with_reducible apply OutWf.next)
    | (with_reducible exact OutWf.fault)
    | (with_reducible exact OutWf.refused)
    | dsimp only
    | split
    | (with_reducible apply foldl_wf <;> [intro _ _ _; skip])
    | (with_reducible apply getD_map_wf <;> [intro _; skip])
    | (with_reducible apply elim_wf <;> [intro _; skip])
    | (with_reducible apply getD_wf)
    | (with_reducible apply foldl_wf1 <;> [intro _ _ _; skip])
    | (with_reducible apply OptWf.of; assumption)
    | (with_reducible apply AllocWf.placed; assumption)
    | (with_reducible apply AllocWf.waits; assumption)
    | (with_reducible apply State.allocate_wf)
    | (with_reducible apply State.actRow_wf)
    | (with_reducible apply MoveWf.of_ok; assumption)
    | (with_reducible apply MoveWf.of_wait; assumption)
    | (with_reducible apply MoveWf.of_fault; assumption)
    | (with_reducible apply MoveWf.bind <;> [skip; intro _ _])
    | (with_reducible apply OptWf.findSome; intro _)
    | (with_reducible apply OptWf.map; intro _ _)
    | (intro _ _)
    | (with_reducible apply Memory.wf_filter)
    | (with_reducible apply State.write_wf)
    | (with_reducible apply State.writeAt_wf)
    | (with_reducible apply State.writeNat_wf)

theorem State.dropPoisoned_mem (s : State) (core : Nat) (ms : List (Nat × Mark)) : (State.dropPoisoned s core ms).mem = s.mem := by
  unfold State.dropPoisoned
  repeat' first
    | (with_reducible rfl)
    | rw [State.setCache_mem]
    | dsimp only
    | split
    | (refine foldl_mem _ ?_ _ _ |>.trans ?_ <;> [intro _ _; skip])
    | (with_reducible apply getD_map_mem <;> [intro _; skip])
    | (with_reducible apply elim_mem <;> [intro _; skip])
    | (refine foldl_mem1 _ ?_ _ _ |>.trans ?_ <;> [intro _ _; skip])

theorem State.parkBack_mem (s : State) (id : Nat) (i : Instr) (cls : Nat) (faddr : Dword) (finfo : Dword) : (State.parkBack s id i cls faddr finfo).mem = s.mem := by
  unfold State.parkBack
  repeat' first
    | (with_reducible rfl)
    | rw [State.parkMoving_mem]
    | rw [State.parkPre_mem]
    | dsimp only
    | split
    | (refine foldl_mem _ ?_ _ _ |>.trans ?_ <;> [intro _ _; skip])
    | (with_reducible apply getD_map_mem <;> [intro _; skip])
    | (with_reducible apply elim_mem <;> [intro _; skip])
    | (refine foldl_mem1 _ ?_ _ _ |>.trans ?_ <;> [intro _ _; skip])

theorem State.consume_wf (s : State) (id : Nat) (i : Instr) (ms : List (Nat × Mark)) (h : Memory.wf s.mem = true) : Memory.wf (State.consume s id i ms).mem = true := by
  unfold State.consume
  repeat' first
    | (with_reducible assumption)
    | (with_reducible exact trivial)
    | rw [State.dropPoisoned_mem]
    | rw [State.modWave_mem]
    | rw [State.parkBack_mem]
    | rw [State.parkPre_mem]
    | rw [State.parkWave_mem]
    | rw [State.setWave_mem]
    | (with_reducible apply State.logFault_wf)
    | (with_reducible apply State.makeResident_wf)
    | (with_reducible apply MoveWf.ok)
    | (with_reducible apply MoveWf.wait)
    | (with_reducible apply MoveWf.fault)
    | (with_reducible apply OptWf.some)
    | (with_reducible exact OptWf.none)
    | (with_reducible apply OutWf.next)
    | (with_reducible exact OutWf.fault)
    | (with_reducible exact OutWf.refused)
    | dsimp only
    | split
    | (with_reducible apply foldl_wf <;> [intro _ _ _; skip])
    | (with_reducible apply getD_map_wf <;> [intro _; skip])
    | (with_reducible apply elim_wf <;> [intro _; skip])
    | (with_reducible apply getD_wf)
    | (with_reducible apply foldl_wf1 <;> [intro _ _ _; skip])
    | (with_reducible apply OptWf.of; assumption)
    | (with_reducible apply AllocWf.placed; assumption)
    | (with_reducible apply AllocWf.waits; assumption)
    | (with_reducible apply State.allocate_wf)
    | (with_reducible apply State.actRow_wf)
    | (with_reducible apply MoveWf.of_ok; assumption)
    | (with_reducible apply MoveWf.of_wait; assumption)
    | (with_reducible apply MoveWf.of_fault; assumption)
    | (with_reducible apply MoveWf.bind <;> [skip; intro _ _])
    | (with_reducible apply OptWf.findSome; intro _)
    | (with_reducible apply OptWf.map; intro _ _)
    | (intro _ _)
    | (with_reducible apply Memory.wf_filter)
    | (with_reducible apply State.write_wf)
    | (with_reducible apply State.writeAt_wf)
    | (with_reducible apply State.writeNat_wf)

theorem State.stopPrep_wf (s : State) (id : Nat) (i : Instr) (cls : Nat) (faddr : Dword) (finfo : Dword) (h : Memory.wf s.mem = true) : Memory.wf (State.stopPrep s id i cls faddr finfo).mem = true := by
  unfold State.stopPrep
  repeat' first
    | (with_reducible assumption)
    | (with_reducible exact trivial)
    | rw [State.parkBack_mem]
    | (with_reducible apply State.consume_wf)
    | (with_reducible apply MoveWf.ok)
    | (with_reducible apply MoveWf.wait)
    | (with_reducible apply MoveWf.fault)
    | (with_reducible apply OptWf.some)
    | (with_reducible exact OptWf.none)
    | (with_reducible apply OutWf.next)
    | (with_reducible exact OutWf.fault)
    | (with_reducible exact OutWf.refused)
    | dsimp only
    | split
    | (with_reducible apply foldl_wf <;> [intro _ _ _; skip])
    | (with_reducible apply getD_map_wf <;> [intro _; skip])
    | (with_reducible apply elim_wf <;> [intro _; skip])
    | (with_reducible apply getD_wf)
    | (with_reducible apply foldl_wf1 <;> [intro _ _ _; skip])
    | (with_reducible apply OptWf.of; assumption)
    | (with_reducible apply AllocWf.placed; assumption)
    | (with_reducible apply AllocWf.waits; assumption)
    | (with_reducible apply State.allocate_wf)
    | (with_reducible apply State.actRow_wf)
    | (with_reducible apply MoveWf.of_ok; assumption)
    | (with_reducible apply MoveWf.of_wait; assumption)
    | (with_reducible apply MoveWf.of_fault; assumption)
    | (with_reducible apply MoveWf.bind <;> [skip; intro _ _])
    | (with_reducible apply OptWf.findSome; intro _)
    | (with_reducible apply OptWf.map; intro _ _)
    | (intro _ _)
    | (with_reducible apply Memory.wf_filter)
    | (with_reducible apply State.write_wf)
    | (with_reducible apply State.writeAt_wf)
    | (with_reducible apply State.writeNat_wf)

theorem State.parkUnimpl_mem (s : State) (id : Nat) (word : Word) (cls : Nat) (sub : Nat) : (State.parkUnimpl s id word cls sub).mem = s.mem := by
  unfold State.parkUnimpl
  repeat' first
    | (with_reducible rfl)
    | rw [State.parkPre_mem]
    | dsimp only
    | split
    | (refine foldl_mem _ ?_ _ _ |>.trans ?_ <;> [intro _ _; skip])
    | (with_reducible apply getD_map_mem <;> [intro _; skip])
    | (with_reducible apply elim_mem <;> [intro _; skip])
    | (refine foldl_mem1 _ ?_ _ _ |>.trans ?_ <;> [intro _ _; skip])

theorem State.charge_mem (s : State) (id : Nat) : (State.charge s id).mem = s.mem := by
  unfold State.charge
  repeat' first
    | (with_reducible rfl)
    | rw [State.modTask_mem]
    | rw [State.post_mem]
    | dsimp only
    | split
    | (refine foldl_mem _ ?_ _ _ |>.trans ?_ <;> [intro _ _; skip])
    | (with_reducible apply getD_map_mem <;> [intro _; skip])
    | (with_reducible apply elim_mem <;> [intro _; skip])
    | (refine foldl_mem1 _ ?_ _ _ |>.trans ?_ <;> [intro _ _; skip])

theorem State.tally_mem (s : State) (i : Instr) : (State.tally s i).mem = s.mem := by
  unfold State.tally
  repeat' first
    | (with_reducible rfl)
    | dsimp only
    | split
    | (refine foldl_mem _ ?_ _ _ |>.trans ?_ <;> [intro _ _; skip])
    | (with_reducible apply getD_map_mem <;> [intro _; skip])
    | (with_reducible apply elim_mem <;> [intro _; skip])
    | (refine foldl_mem1 _ ?_ _ _ |>.trans ?_ <;> [intro _ _; skip])

theorem State.hold_mem (s : State) : (State.hold s).mem = s.mem := by
  unfold State.hold
  repeat' first
    | (with_reducible rfl)
    | rw [State.setCur_mem]
    | dsimp only
    | split
    | (refine foldl_mem _ ?_ _ _ |>.trans ?_ <;> [intro _ _; skip])
    | (with_reducible apply getD_map_mem <;> [intro _; skip])
    | (with_reducible apply elim_mem <;> [intro _; skip])
    | (refine foldl_mem1 _ ?_ _ _ |>.trans ?_ <;> [intro _ _; skip])

theorem State.refusal_wf (s : State) (i : Instr) (h : Memory.wf s.mem = true) : OptWf (State.refusal s i) := by
  unfold State.refusal
  repeat' first
    | (with_reducible assumption)
    | (with_reducible exact trivial)
    | rw [State.parkPre_mem]
    | rw [State.parkUnimpl_mem]
    | (with_reducible apply MoveWf.ok)
    | (with_reducible apply MoveWf.wait)
    | (with_reducible apply MoveWf.fault)
    | (with_reducible apply OptWf.some)
    | (with_reducible exact OptWf.none)
    | (with_reducible apply OutWf.next)
    | (with_reducible exact OutWf.fault)
    | (with_reducible exact OutWf.refused)
    | dsimp only
    | split
    | (with_reducible apply foldl_wf <;> [intro _ _ _; skip])
    | (with_reducible apply getD_map_wf <;> [intro _; skip])
    | (with_reducible apply elim_wf <;> [intro _; skip])
    | (with_reducible apply getD_wf)
    | (with_reducible apply foldl_wf1 <;> [intro _ _ _; skip])
    | (with_reducible apply OptWf.of; assumption)
    | (with_reducible apply AllocWf.placed; assumption)
    | (with_reducible apply AllocWf.waits; assumption)
    | (with_reducible apply State.allocate_wf)
    | (with_reducible apply State.actRow_wf)
    | (with_reducible apply MoveWf.of_ok; assumption)
    | (with_reducible apply MoveWf.of_wait; assumption)
    | (with_reducible apply MoveWf.of_fault; assumption)
    | (with_reducible apply MoveWf.bind <;> [skip; intro _ _])
    | (with_reducible apply OptWf.findSome; intro _)
    | (with_reducible apply OptWf.map; intro _ _)
    | (intro _ _)
    | (with_reducible apply Memory.wf_filter)
    | (with_reducible apply State.write_wf)
    | (with_reducible apply State.writeAt_wf)
    | (with_reducible apply State.writeNat_wf)

theorem State.span_wf (s : State) (o : Opnds) (h : Memory.wf s.mem = true) : MoveWf (State.span s o) := by
  unfold State.span
  repeat' first
    | (with_reducible assumption)
    | (with_reducible exact trivial)
    | (with_reducible apply State.makeResident_wf)
    | (with_reducible apply MoveWf.ok)
    | (with_reducible apply MoveWf.wait)
    | (with_reducible apply MoveWf.fault)
    | (with_reducible apply OptWf.some)
    | (with_reducible exact OptWf.none)
    | (with_reducible apply OutWf.next)
    | (with_reducible exact OutWf.fault)
    | (with_reducible exact OutWf.refused)
    | dsimp only
    | split
    | (with_reducible apply foldl_wf <;> [intro _ _ _; skip])
    | (with_reducible apply getD_map_wf <;> [intro _; skip])
    | (with_reducible apply elim_wf <;> [intro _; skip])
    | (with_reducible apply getD_wf)
    | (with_reducible apply foldl_wf1 <;> [intro _ _ _; skip])
    | (with_reducible apply OptWf.of; assumption)
    | (with_reducible apply AllocWf.placed; assumption)
    | (with_reducible apply AllocWf.waits; assumption)
    | (with_reducible apply State.allocate_wf)
    | (with_reducible apply State.actRow_wf)
    | (with_reducible apply MoveWf.of_ok; assumption)
    | (with_reducible apply MoveWf.of_wait; assumption)
    | (with_reducible apply MoveWf.of_fault; assumption)
    | (with_reducible apply MoveWf.bind <;> [skip; intro _ _])
    | (with_reducible apply OptWf.findSome; intro _)
    | (with_reducible apply OptWf.map; intro _ _)
    | (intro _ _)
    | (with_reducible apply Memory.wf_filter)
    | (with_reducible apply State.write_wf)
    | (with_reducible apply State.writeAt_wf)
    | (with_reducible apply State.writeNat_wf)

theorem State.issuedBy_mem (s : State) (i : Instr) : (State.issuedBy s i).mem = s.mem := by
  unfold State.issuedBy
  repeat' first
    | (with_reducible rfl)
    | rw [State.charge_mem]
    | rw [State.setCur_mem]
    | rw [State.tally_mem]
    | dsimp only
    | split
    | (refine foldl_mem _ ?_ _ _ |>.trans ?_ <;> [intro _ _; skip])
    | (with_reducible apply getD_map_mem <;> [intro _; skip])
    | (with_reducible apply elim_mem <;> [intro _; skip])
    | (refine foldl_mem1 _ ?_ _ _ |>.trans ?_ <;> [intro _ _; skip])

/-- Issue keeps the canonical form where what it prepares and what the instruction does keep it. -/
theorem State.issueWith_wf (s : State) (i : Instr) (own : Option (Nat × Dword × Dword)) (prep : State → Move)
    (body : State → State) (h : Memory.wf s.mem = true) (hp : ∀ t, Memory.wf t.mem = true → MoveWf (prep t))
    (hb : ∀ t, Memory.wf t.mem = true → Memory.wf (body t).mem = true) : OutWf (State.issueWith s i own prep body) := by
  unfold State.issueWith
  dsimp only
  split
  · exact OutWf.next (by rw [State.hold_mem]; exact h)
  · split
    · rename_i t e
      exact OutWf.next (OptWf.of e (State.refusal_wf s i h))
    · split
      · exact OutWf.next (by rw [State.hold_mem]; exact h)
      · split
        · exact OutWf.next (by rw [State.parkPre_mem]; exact h)
        · split
          · exact OutWf.next (State.consume_wf _ _ _ _ h)
          · split
            · exact OutWf.next (by rw [State.hold_mem]; exact h)
            · have hm : MoveWf ((prep s).bind (fun t => t.span (i.opnds s.curWave))) :=
                MoveWf.bind (hp s h) (fun t ht => State.span_wf t _ ht)
              split
              · rename_i t e
                exact OutWf.next (by rw [State.hold_mem]; exact MoveWf.of_wait e hm)
              · rename_i t c a f e
                exact OutWf.next (State.stopPrep_wf _ _ _ _ _ _ (MoveWf.of_fault e hm))
              · rename_i u e
                exact OutWf.next (hb _ (by rw [State.issuedBy_mem]; exact MoveWf.of_ok e hm))

/-- Issue of an instruction without preparation keeps the canonical form where the instruction does. -/
theorem State.issue_wf (s : State) (i : Instr) (body : State → State) (h : Memory.wf s.mem = true)
    (hb : ∀ t, Memory.wf t.mem = true → Memory.wf (body t).mem = true) : OutWf (State.issue s i body) :=
  State.issueWith_wf s i none .ok body h (fun _ ht => MoveWf.ok ht) hb

end Sys2Proof.Machine
end

