-- ==== Sys2Proof/Laws/MemFlags.lean ====
section
/-! SUPPORT. What each operation of Flags.lean does to memory: nothing, or it keeps the canonical form. -/

set_option linter.all false

namespace Sys2Proof.Machine

end Sys2Proof.Machine
end

