-- ==== Sys2Proof/Laws/MemLane.lean ====
section
/-! SUPPORT. What each operation of Lane.lean does to memory: nothing, or it keeps the canonical form. -/

set_option linter.all false

namespace Sys2Proof.Machine

theorem State.parkArith_mem (s : State) (i : Instr) (int : Bool) (f : Nat → Res) : (State.parkArith s i int f).mem = s.mem := by
  unfold State.parkArith
  repeat' first
    | (with_reducible rfl)
    | rw [State.parkWave_mem]
    | dsimp only
    | split
    | (refine foldl_mem _ ?_ _ _ |>.trans ?_ <;> [intro _ _; skip])
    | (with_reducible apply getD_map_mem <;> [intro _; skip])
    | (with_reducible apply elim_mem <;> [intro _; skip])
    | (refine foldl_mem1 _ ?_ _ _ |>.trans ?_ <;> [intro _ _; skip])

theorem State.laneWrite_mem (s : State) (i : Instr) (d : Nat) (n : Nat) (srcs : List Src) (f : Nat → Res) : (State.laneWrite s i d n srcs f).mem = s.mem := by
  unfold State.laneWrite
  repeat' first
    | (with_reducible rfl)
    | rw [State.parkArith_mem]
    | rw [State.setCur_mem]
    | dsimp only
    | split
    | (refine foldl_mem _ ?_ _ _ |>.trans ?_ <;> [intro _ _; skip])
    | (with_reducible apply getD_map_mem <;> [intro _; skip])
    | (with_reducible apply elim_mem <;> [intro _; skip])
    | (refine foldl_mem1 _ ?_ _ _ |>.trans ?_ <;> [intro _ _; skip])

theorem State.laneOp_wf (s : State) (i : Instr) (d : Nat) (n : Nat) (srcs : List Src) (f : Wave → Nat → Res) (h : Memory.wf s.mem = true) : OutWf (State.laneOp s i d n srcs f) := by
  unfold State.laneOp
  repeat' first
    | (with_reducible assumption)
    | (with_reducible exact trivial)
    | rw [State.laneWrite_mem]
    | (with_reducible apply State.issue_wf)
    | (with_reducible apply MoveWf.ok)
    | (with_reducible apply MoveWf.wait)
    | (with_reducible apply MoveWf.fault)
    | (with_reducible apply OptWf.some)
    | (with_reducible exact OptWf.none)
    | (with_reducible apply OutWf.next)
    | (with_reducible exact OutWf.fault)
    | (with_reducible exact OutWf.refused)
    | dsimp only
    | split
    | (with_reducible apply foldl_wf <;> [intro _ _ _; skip])
    | (with_reducible apply getD_map_wf <;> [intro _; skip])
    | (with_reducible apply elim_wf <;> [intro _; skip])
    | (with_reducible apply getD_wf)
    | (with_reducible apply foldl_wf1 <;> [intro _ _ _; skip])
    | (with_reducible apply OptWf.of; assumption)
    | (with_reducible apply AllocWf.placed; assumption)
    | (with_reducible apply AllocWf.waits; assumption)
    | (with_reducible apply State.allocate_wf)
    | (with_reducible apply State.actRow_wf)
    | (with_reducible apply MoveWf.of_ok; assumption)
    | (with_reducible apply MoveWf.of_wait; assumption)
    | (with_reducible apply MoveWf.of_fault; assumption)
    | (with_reducible apply MoveWf.bind <;> [skip; intro _ _])
    | (with_reducible apply OptWf.findSome; intro _)
    | (with_reducible apply OptWf.map; intro _ _)
    | (intro _ _)
    | (with_reducible apply Memory.wf_filter)
    | (with_reducible apply State.write_wf)
    | (with_reducible apply State.writeAt_wf)
    | (with_reducible apply State.writeNat_wf)

theorem State.elems3_wf (s : State) (i : Instr) (d : Reg) (p : Sel) (a : Reg) (q : Sel) (b : Reg) (f : Ty → Nat → Nat → Res) (h : Memory.wf s.mem = true) : OutWf (State.elems3 s i d p a q b f) := by
  unfold State.elems3
  repeat' first
    | (with_reducible assumption)
    | (with_reducible exact trivial)
    | (with_reducible apply State.laneOp_wf)
    | (with_reducible apply MoveWf.ok)
    | (with_reducible apply MoveWf.wait)
    | (with_reducible apply MoveWf.fault)
    | (with_reducible apply OptWf.some)
    | (with_reducible exact OptWf.none)
    | (with_reducible apply OutWf.next)
    | (with_reducible exact OutWf.fault)
    | (with_reducible exact OutWf.refused)
    | dsimp only
    | split
    | (with_reducible apply foldl_wf <;> [intro _ _ _; skip])
    | (with_reducible apply getD_map_wf <;> [intro _; skip])
    | (with_reducible apply elim_wf <;> [intro _; skip])
    | (with_reducible apply getD_wf)
    | (with_reducible apply foldl_wf1 <;> [intro _ _ _; skip])
    | (with_reducible apply OptWf.of; assumption)
    | (with_reducible apply AllocWf.placed; assumption)
    | (with_reducible apply AllocWf.waits; assumption)
    | (with_reducible apply State.allocate_wf)
    | (with_reducible apply State.actRow_wf)
    | (with_reducible apply MoveWf.of_ok; assumption)
    | (with_reducible apply MoveWf.of_wait; assumption)
    | (with_reducible apply MoveWf.of_fault; assumption)
    | (with_reducible apply MoveWf.bind <;> [skip; intro _ _])
    | (with_reducible apply OptWf.findSome; intro _)
    | (with_reducible apply OptWf.map; intro _ _)
    | (intro _ _)
    | (with_reducible apply Memory.wf_filter)
    | (with_reducible apply State.write_wf)
    | (with_reducible apply State.writeAt_wf)
    | (with_reducible apply State.writeNat_wf)

theorem State.elems2_wf (s : State) (i : Instr) (d : Reg) (p : Sel) (a : Reg) (f : Ty → Nat → Res) (h : Memory.wf s.mem = true) : OutWf (State.elems2 s i d p a f) := by
  unfold State.elems2
  repeat' first
    | (with_reducible assumption)
    | (with_reducible exact trivial)
    | (with_reducible apply State.laneOp_wf)
    | (with_reducible apply MoveWf.ok)
    | (with_reducible apply MoveWf.wait)
    | (with_reducible apply MoveWf.fault)
    | (with_reducible apply OptWf.some)
    | (with_reducible exact OptWf.none)
    | (with_reducible apply OutWf.next)
    | (with_reducible exact OutWf.fault)
    | (with_reducible exact OutWf.refused)
    | dsimp only
    | split
    | (with_reducible apply foldl_wf <;> [intro _ _ _; skip])
    | (with_reducible apply getD_map_wf <;> [intro _; skip])
    | (with_reducible apply elim_wf <;> [intro _; skip])
    | (with_reducible apply getD_wf)
    | (with_reducible apply foldl_wf1 <;> [intro _ _ _; skip])
    | (with_reducible apply OptWf.of; assumption)
    | (with_reducible apply AllocWf.placed; assumption)
    | (with_reducible apply AllocWf.waits; assumption)
    | (with_reducible apply State.allocate_wf)
    | (with_reducible apply State.actRow_wf)
    | (with_reducible apply MoveWf.of_ok; assumption)
    | (with_reducible apply MoveWf.of_wait; assumption)
    | (with_reducible apply MoveWf.of_fault; assumption)
    | (with_reducible apply MoveWf.bind <;> [skip; intro _ _])
    | (with_reducible apply OptWf.findSome; intro _)
    | (with_reducible apply OptWf.map; intro _ _)
    | (intro _ _)
    | (with_reducible apply Memory.wf_filter)
    | (with_reducible apply State.write_wf)
    | (with_reducible apply State.writeAt_wf)
    | (with_reducible apply State.writeNat_wf)

theorem State.elems4_wf (s : State) (i : Instr) (d : Reg) (a : Reg) (b : Reg) (c : Reg) (p : Sel) (f : Ty → Nat → Nat → Nat → Res) (h : Memory.wf s.mem = true) : OutWf (State.elems4 s i d a b c p f) := by
  unfold State.elems4
  repeat' first
    | (with_reducible assumption)
    | (with_reducible exact trivial)
    | (with_reducible apply State.laneOp_wf)
    | (with_reducible apply MoveWf.ok)
    | (with_reducible apply MoveWf.wait)
    | (with_reducible apply MoveWf.fault)
    | (with_reducible apply OptWf.some)
    | (with_reducible exact OptWf.none)
    | (with_reducible apply OutWf.next)
    | (with_reducible exact OutWf.fault)
    | (with_reducible exact OutWf.refused)
    | dsimp only
    | split
    | (with_reducible apply foldl_wf <;> [intro _ _ _; skip])
    | (with_reducible apply getD_map_wf <;> [intro _; skip])
    | (with_reducible apply elim_wf <;> [intro _; skip])
    | (with_reducible apply getD_wf)
    | (with_reducible apply foldl_wf1 <;> [intro _ _ _; skip])
    | (with_reducible apply OptWf.of; assumption)
    | (with_reducible apply AllocWf.placed; assumption)
    | (with_reducible apply AllocWf.waits; assumption)
    | (with_reducible apply State.allocate_wf)
    | (with_reducible apply State.actRow_wf)
    | (with_reducible apply MoveWf.of_ok; assumption)
    | (with_reducible apply MoveWf.of_wait; assumption)
    | (with_reducible apply MoveWf.of_fault; assumption)
    | (with_reducible apply MoveWf.bind <;> [skip; intro _ _])
    | (with_reducible apply OptWf.findSome; intro _)
    | (with_reducible apply OptWf.map; intro _ _)
    | (intro _ _)
    | (with_reducible apply Memory.wf_filter)
    | (with_reducible apply State.write_wf)
    | (with_reducible apply State.writeAt_wf)
    | (with_reducible apply State.writeNat_wf)

theorem State.whole3_wf (s : State) (i : Instr) (d : Reg) (p : Sel) (a : Reg) (q : Sel) (b : Reg) (f : Nat → Nat → Nat) (h : Memory.wf s.mem = true) : OutWf (State.whole3 s i d p a q b f) := by
  unfold State.whole3
  repeat' first
    | (with_reducible assumption)
    | (with_reducible exact trivial)
    | (with_reducible apply State.laneOp_wf)
    | (with_reducible apply MoveWf.ok)
    | (with_reducible apply MoveWf.wait)
    | (with_reducible apply MoveWf.fault)
    | (with_reducible apply OptWf.some)
    | (with_reducible exact OptWf.none)
    | (with_reducible apply OutWf.next)
    | (with_reducible exact OutWf.fault)
    | (with_reducible exact OutWf.refused)
    | dsimp only
    | split
    | (with_reducible apply foldl_wf <;> [intro _ _ _; skip])
    | (with_reducible apply getD_map_wf <;> [intro _; skip])
    | (with_reducible apply elim_wf <;> [intro _; skip])
    | (with_reducible apply getD_wf)
    | (with_reducible apply foldl_wf1 <;> [intro _ _ _; skip])
    | (with_reducible apply OptWf.of; assumption)
    | (with_reducible apply AllocWf.placed; assumption)
    | (with_reducible apply AllocWf.waits; assumption)
    | (with_reducible apply State.allocate_wf)
    | (with_reducible apply State.actRow_wf)
    | (with_reducible apply MoveWf.of_ok; assumption)
    | (with_reducible apply MoveWf.of_wait; assumption)
    | (with_reducible apply MoveWf.of_fault; assumption)
    | (with_reducible apply MoveWf.bind <;> [skip; intro _ _])
    | (with_reducible apply OptWf.findSome; intro _)
    | (with_reducible apply OptWf.map; intro _ _)
    | (intro _ _)
    | (with_reducible apply Memory.wf_filter)
    | (with_reducible apply State.write_wf)
    | (with_reducible apply State.writeAt_wf)
    | (with_reducible apply State.writeNat_wf)

end Sys2Proof.Machine
end

