-- ==== Sys2Proof/Laws/MemEnding.lean ====
section
/-! SUPPORT. What each operation of Ending.lean does to memory: nothing, or it keeps the canonical form. -/

set_option linter.all false

namespace Sys2Proof.Machine

theorem State.putThread_mem (s : State) (live : List Nat) (x : Thread × Thread) : (State.putThread s live x).mem = s.mem := by
  unfold State.putThread
  repeat' first
    | (with_reducible rfl)
    | rw [State.modWave_mem]
    | dsimp only
    | split
    | (refine foldl_mem _ ?_ _ _ |>.trans ?_ <;> [intro _ _; skip])
    | (with_reducible apply getD_map_mem <;> [intro _; skip])
    | (with_reducible apply elim_mem <;> [intro _; skip])
    | (refine foldl_mem1 _ ?_ _ _ |>.trans ?_ <;> [intro _ _; skip])


theorem reordResident_wf (as_ : List ReordArr) (top : Nat) (s : State) (h : Memory.wf s.mem = true) :
    MoveWf (reordResident as_ top s) := by
  induction as_ generalizing s with
  | nil => exact MoveWf.ok h
  | cons a r ih =>
    unfold reordResident
    refine MoveWf.bind ?_ (fun t ht => ih t ht)
    split
    · exact State.makeResident_wf _ _ _ _ h
    · exact MoveWf.ok h

theorem State.reordTry_wf (s : State) (g : Nat) (h : Memory.wf s.mem = true) : Memory.wf (State.reordTry s g).mem = true := by
  unfold State.reordTry
  repeat' first
    | (with_reducible assumption)
    | (with_reducible exact trivial)
    | rw [State.modWg_mem]
    | rw [State.putThread_mem]
    | (with_reducible apply reordResident_wf)
    | (with_reducible apply MoveWf.ok)
    | (with_reducible apply MoveWf.wait)
    | (with_reducible apply MoveWf.fault)
    | (with_reducible apply OptWf.some)
    | (with_reducible exact OptWf.none)
    | (with_reducible apply OutWf.next)
    | (with_reducible exact OutWf.fault)
    | (with_reducible exact OutWf.refused)
    | dsimp only
    | split
    | (with_reducible apply foldl_wf <;> [intro _ _ _; skip])
    | (with_reducible apply getD_map_wf <;> [intro _; skip])
    | (with_reducible apply elim_wf <;> [intro _; skip])
    | (with_reducible apply getD_wf)
    | (with_reducible apply foldl_wf1 <;> [intro _ _ _; skip])
    | (with_reducible apply OptWf.of; assumption)
    | (with_reducible apply AllocWf.placed; assumption)
    | (with_reducible apply AllocWf.waits; assumption)
    | (with_reducible apply State.allocate_wf)
    | (with_reducible apply State.actRow_wf)
    | (with_reducible apply MoveWf.of_ok; assumption)
    | (with_reducible apply MoveWf.of_wait; assumption)
    | (with_reducible apply MoveWf.of_fault; assumption)
    | (with_reducible apply MoveWf.bind <;> [skip; intro _ _])
    | (with_reducible apply OptWf.findSome; intro _)
    | (with_reducible apply OptWf.map; intro _ _)
    | (intro _ _)
    | (with_reducible apply Memory.wf_filter)
    | (with_reducible apply State.write_wf)
    | (with_reducible apply State.writeAt_wf)
    | (with_reducible apply State.writeNat_wf)

theorem State.depart_wf (s : State) (id : Nat) (h : Memory.wf s.mem = true) : Memory.wf (State.depart s id).mem = true := by
  unfold State.depart
  repeat' first
    | (with_reducible assumption)
    | (with_reducible exact trivial)
    | rw [State.modWg_mem]
    | rw [State.postAll_mem]
    | rw [State.setEngine_mem]
    | rw [State.settle_mem]
    | (with_reducible apply State.reordTry_wf)
    | (with_reducible apply MoveWf.ok)
    | (with_reducible apply MoveWf.wait)
    | (with_reducible apply MoveWf.fault)
    | (with_reducible apply OptWf.some)
    | (with_reducible exact OptWf.none)
    | (with_reducible apply OutWf.next)
    | (with_reducible exact OutWf.fault)
    | (with_reducible exact OutWf.refused)
    | dsimp only
    | split
    | (with_reducible apply foldl_wf <;> [intro _ _ _; skip])
    | (with_reducible apply getD_map_wf <;> [intro _; skip])
    | (with_reducible apply elim_wf <;> [intro _; skip])
    | (with_reducible apply getD_wf)
    | (with_reducible apply foldl_wf1 <;> [intro _ _ _; skip])
    | (with_reducible apply OptWf.of; assumption)
    | (with_reducible apply AllocWf.placed; assumption)
    | (with_reducible apply AllocWf.waits; assumption)
    | (with_reducible apply State.allocate_wf)
    | (with_reducible apply State.actRow_wf)
    | (with_reducible apply MoveWf.of_ok; assumption)
    | (with_reducible apply MoveWf.of_wait; assumption)
    | (with_reducible apply MoveWf.of_fault; assumption)
    | (with_reducible apply MoveWf.bind <;> [skip; intro _ _])
    | (with_reducible apply OptWf.findSome; intro _)
    | (with_reducible apply OptWf.map; intro _ _)
    | (intro _ _)
    | (with_reducible apply Memory.wf_filter)
    | (with_reducible apply State.write_wf)
    | (with_reducible apply State.writeAt_wf)
    | (with_reducible apply State.writeNat_wf)

theorem State.settle_mem (s : State) (id : Nat) : (State.settle s id).mem = s.mem := by
  unfold State.settle
  repeat' first
    | (with_reducible rfl)
    | rw [State.modTask_mem]
    | rw [State.postAll_mem]
    | dsimp only
    | split
    | (refine foldl_mem _ ?_ _ _ |>.trans ?_ <;> [intro _ _; skip])
    | (with_reducible apply getD_map_mem <;> [intro _; skip])
    | (with_reducible apply elim_mem <;> [intro _; skip])
    | (refine foldl_mem1 _ ?_ _ _ |>.trans ?_ <;> [intro _ _; skip])

theorem State.endWave_wf (s : State) (id : Nat) (killed : Bool) (h : Memory.wf s.mem = true) : Memory.wf (State.endWave s id killed).mem = true := by
  unfold State.endWave
  repeat' first
    | (with_reducible assumption)
    | (with_reducible exact trivial)
    | rw [State.modTask_mem]
    | rw [State.setWave_mem]
    | rw [State.settle_mem]
    | (with_reducible apply State.depart_wf)
    | (with_reducible apply MoveWf.ok)
    | (with_reducible apply MoveWf.wait)
    | (with_reducible apply MoveWf.fault)
    | (with_reducible apply OptWf.some)
    | (with_reducible exact OptWf.none)
    | (with_reducible apply OutWf.next)
    | (with_reducible exact OutWf.fault)
    | (with_reducible exact OutWf.refused)
    | dsimp only
    | split
    | (with_reducible apply foldl_wf <;> [intro _ _ _; skip])
    | (with_reducible apply getD_map_wf <;> [intro _; skip])
    | (with_reducible apply elim_wf <;> [intro _; skip])
    | (with_reducible apply getD_wf)
    | (with_reducible apply foldl_wf1 <;> [intro _ _ _; skip])
    | (with_reducible apply OptWf.of; assumption)
    | (with_reducible apply AllocWf.placed; assumption)
    | (with_reducible apply AllocWf.waits; assumption)
    | (with_reducible apply State.allocate_wf)
    | (with_reducible apply State.actRow_wf)
    | (with_reducible apply MoveWf.of_ok; assumption)
    | (with_reducible apply MoveWf.of_wait; assumption)
    | (with_reducible apply MoveWf.of_fault; assumption)
    | (with_reducible apply MoveWf.bind <;> [skip; intro _ _])
    | (with_reducible apply OptWf.findSome; intro _)
    | (with_reducible apply OptWf.map; intro _ _)
    | (intro _ _)
    | (with_reducible apply Memory.wf_filter)
    | (with_reducible apply State.write_wf)
    | (with_reducible apply State.writeAt_wf)
    | (with_reducible apply State.writeNat_wf)

end Sys2Proof.Machine
end

