-- ==== Sys2Proof/Laws/MemControl.lean ====
section
/-! SUPPORT. What each operation of Control.lean does to memory: nothing, or it keeps the canonical form. -/

set_option linter.all false

namespace Sys2Proof.Machine

theorem execBr_wf (m : Low) (c : BCond) (off : BitVec 20) (s : State) (h : Memory.wf s.mem = true) : OutWf (execBr m c off s) := by
  unfold execBr
  repeat' first
    | (with_reducible assumption)
    | (with_reducible exact trivial)
    | rw [State.setCur_mem]
    | (with_reducible apply State.issue_wf)
    | (with_reducible apply MoveWf.ok)
    | (with_reducible apply MoveWf.wait)
    | (with_reducible apply MoveWf.fault)
    | (with_reducible apply OptWf.some)
    | (with_reducible exact OptWf.none)
    | (with_reducible apply OutWf.next)
    | (with_reducible exact OutWf.fault)
    | (with_reducible exact OutWf.refused)
    | dsimp only
    | split
    | (with_reducible apply foldl_wf <;> [intro _ _ _; skip])
    | (with_reducible apply getD_map_wf <;> [intro _; skip])
    | (with_reducible apply elim_wf <;> [intro _; skip])
    | (with_reducible apply getD_wf)
    | (with_reducible apply foldl_wf1 <;> [intro _ _ _; skip])
    | (with_reducible apply OptWf.of; assumption)
    | (with_reducible apply AllocWf.placed; assumption)
    | (with_reducible apply AllocWf.waits; assumption)
    | (with_reducible apply State.allocate_wf)
    | (with_reducible apply State.actRow_wf)
    | (with_reducible apply MoveWf.of_ok; assumption)
    | (with_reducible apply MoveWf.of_wait; assumption)
    | (with_reducible apply MoveWf.of_fault; assumption)
    | (with_reducible apply MoveWf.bind <;> [skip; intro _ _])
    | (with_reducible apply OptWf.findSome; intro _)
    | (with_reducible apply OptWf.map; intro _ _)
    | (intro _ _)
    | (with_reducible apply Memory.wf_filter)
    | (with_reducible apply State.write_wf)
    | (with_reducible apply State.writeAt_wf)
    | (with_reducible apply State.writeNat_wf)

theorem execJmpr_wf (a : Reg) (s : State) (h : Memory.wf s.mem = true) : OutWf (execJmpr a s) := by
  unfold execJmpr
  repeat' first
    | (with_reducible assumption)
    | (with_reducible exact trivial)
    | rw [State.setCur_mem]
    | (with_reducible apply State.issueWith_wf)
    | (with_reducible apply MoveWf.ok)
    | (with_reducible apply MoveWf.wait)
    | (with_reducible apply MoveWf.fault)
    | (with_reducible apply OptWf.some)
    | (with_reducible exact OptWf.none)
    | (with_reducible apply OutWf.next)
    | (with_reducible exact OutWf.fault)
    | (with_reducible exact OutWf.refused)
    | dsimp only
    | split
    | (with_reducible apply foldl_wf <;> [intro _ _ _; skip])
    | (with_reducible apply getD_map_wf <;> [intro _; skip])
    | (with_reducible apply elim_wf <;> [intro _; skip])
    | (with_reducible apply getD_wf)
    | (with_reducible apply foldl_wf1 <;> [intro _ _ _; skip])
    | (with_reducible apply OptWf.of; assumption)
    | (with_reducible apply AllocWf.placed; assumption)
    | (with_reducible apply AllocWf.waits; assumption)
    | (with_reducible apply State.allocate_wf)
    | (with_reducible apply State.actRow_wf)
    | (with_reducible apply MoveWf.of_ok; assumption)
    | (with_reducible apply MoveWf.of_wait; assumption)
    | (with_reducible apply MoveWf.of_fault; assumption)
    | (with_reducible apply MoveWf.bind <;> [skip; intro _ _])
    | (with_reducible apply OptWf.findSome; intro _)
    | (with_reducible apply OptWf.map; intro _ _)
    | (intro _ _)
    | (with_reducible apply Memory.wf_filter)
    | (with_reducible apply State.write_wf)
    | (with_reducible apply State.writeAt_wf)
    | (with_reducible apply State.writeNat_wf)

theorem State.spillLink_wf (s : State) (h : Memory.wf s.mem = true) : MoveWf (State.spillLink s) := by
  unfold State.spillLink
  repeat' first
    | (with_reducible assumption)
    | (with_reducible exact trivial)
    | (with_reducible apply State.backWrite_wf)
    | (with_reducible apply MoveWf.ok)
    | (with_reducible apply MoveWf.wait)
    | (with_reducible apply MoveWf.fault)
    | (with_reducible apply OptWf.some)
    | (with_reducible exact OptWf.none)
    | (with_reducible apply OutWf.next)
    | (with_reducible exact OutWf.fault)
    | (with_reducible exact OutWf.refused)
    | dsimp only
    | split
    | (with_reducible apply foldl_wf <;> [intro _ _ _; skip])
    | (with_reducible apply getD_map_wf <;> [intro _; skip])
    | (with_reducible apply elim_wf <;> [intro _; skip])
    | (with_reducible apply getD_wf)
    | (with_reducible apply foldl_wf1 <;> [intro _ _ _; skip])
    | (with_reducible apply OptWf.of; assumption)
    | (with_reducible apply AllocWf.placed; assumption)
    | (with_reducible apply AllocWf.waits; assumption)
    | (with_reducible apply State.allocate_wf)
    | (with_reducible apply State.actRow_wf)
    | (with_reducible apply MoveWf.of_ok; assumption)
    | (with_reducible apply MoveWf.of_wait; assumption)
    | (with_reducible apply MoveWf.of_fault; assumption)
    | (with_reducible apply MoveWf.bind <;> [skip; intro _ _])
    | (with_reducible apply OptWf.findSome; intro _)
    | (with_reducible apply OptWf.map; intro _ _)
    | (intro _ _)
    | (with_reducible apply Memory.wf_filter)
    | (with_reducible apply State.write_wf)
    | (with_reducible apply State.writeAt_wf)
    | (with_reducible apply State.writeNat_wf)

theorem State.callOp_wf (s : State) (i : Instr) (bad : Option (Nat × Dword × Dword)) (target : Wave → Dword) (h : Memory.wf s.mem = true) : OutWf (State.callOp s i bad target) := by
  unfold State.callOp
  repeat' first
    | (with_reducible assumption)
    | (with_reducible exact trivial)
    | rw [State.setCur_mem]
    | (with_reducible apply State.issueWith_wf)
    | (with_reducible apply State.spillLink_wf)
    | (with_reducible apply MoveWf.ok)
    | (with_reducible apply MoveWf.wait)
    | (with_reducible apply MoveWf.fault)
    | (with_reducible apply OptWf.some)
    | (with_reducible exact OptWf.none)
    | (with_reducible apply OutWf.next)
    | (with_reducible exact OutWf.fault)
    | (with_reducible exact OutWf.refused)
    | dsimp only
    | split
    | (with_reducible apply foldl_wf <;> [intro _ _ _; skip])
    | (with_reducible apply getD_map_wf <;> [intro _; skip])
    | (with_reducible apply elim_wf <;> [intro _; skip])
    | (with_reducible apply getD_wf)
    | (with_reducible apply foldl_wf1 <;> [intro _ _ _; skip])
    | (with_reducible apply OptWf.of; assumption)
    | (with_reducible apply AllocWf.placed; assumption)
    | (with_reducible apply AllocWf.waits; assumption)
    | (with_reducible apply State.allocate_wf)
    | (with_reducible apply State.actRow_wf)
    | (with_reducible apply MoveWf.of_ok; assumption)
    | (with_reducible apply MoveWf.of_wait; assumption)
    | (with_reducible apply MoveWf.of_fault; assumption)
    | (with_reducible apply MoveWf.bind <;> [skip; intro _ _])
    | (with_reducible apply OptWf.findSome; intro _)
    | (with_reducible apply OptWf.map; intro _ _)
    | (intro _ _)
    | (with_reducible apply Memory.wf_filter)
    | (with_reducible apply State.write_wf)
    | (with_reducible apply State.writeAt_wf)
    | (with_reducible apply State.writeNat_wf)

theorem execCall_wf (off : BitVec 20) (s : State) (h : Memory.wf s.mem = true) : OutWf (execCall off s) := by
  unfold execCall
  repeat' first
    | (with_reducible assumption)
    | (with_reducible exact trivial)
    | (with_reducible apply State.callOp_wf)
    | (with_reducible apply MoveWf.ok)
    | (with_reducible apply MoveWf.wait)
    | (with_reducible apply MoveWf.fault)
    | (with_reducible apply OptWf.some)
    | (with_reducible exact OptWf.none)
    | (with_reducible apply OutWf.next)
    | (with_reducible exact OutWf.fault)
    | (with_reducible exact OutWf.refused)
    | dsimp only
    | split
    | (with_reducible apply foldl_wf <;> [intro _ _ _; skip])
    | (with_reducible apply getD_map_wf <;> [intro _; skip])
    | (with_reducible apply elim_wf <;> [intro _; skip])
    | (with_reducible apply getD_wf)
    | (with_reducible apply foldl_wf1 <;> [intro _ _ _; skip])
    | (with_reducible apply OptWf.of; assumption)
    | (with_reducible apply AllocWf.placed; assumption)
    | (with_reducible apply AllocWf.waits; assumption)
    | (with_reducible apply State.allocate_wf)
    | (with_reducible apply State.actRow_wf)
    | (with_reducible apply MoveWf.of_ok; assumption)
    | (with_reducible apply MoveWf.of_wait; assumption)
    | (with_reducible apply MoveWf.of_fault; assumption)
    | (with_reducible apply MoveWf.bind <;> [skip; intro _ _])
    | (with_reducible apply OptWf.findSome; intro _)
    | (with_reducible apply OptWf.map; intro _ _)
    | (intro _ _)
    | (with_reducible apply Memory.wf_filter)
    | (with_reducible apply State.write_wf)
    | (with_reducible apply State.writeAt_wf)
    | (with_reducible apply State.writeNat_wf)

theorem execCallr_wf (a : Reg) (s : State) (h : Memory.wf s.mem = true) : OutWf (execCallr a s) := by
  unfold execCallr
  repeat' first
    | (with_reducible assumption)
    | (with_reducible exact trivial)
    | (with_reducible apply State.callOp_wf)
    | (with_reducible apply MoveWf.ok)
    | (with_reducible apply MoveWf.wait)
    | (with_reducible apply MoveWf.fault)
    | (with_reducible apply OptWf.some)
    | (with_reducible exact OptWf.none)
    | (with_reducible apply OutWf.next)
    | (with_reducible exact OutWf.fault)
    | (with_reducible exact OutWf.refused)
    | dsimp only
    | split
    | (with_reducible apply foldl_wf <;> [intro _ _ _; skip])
    | (with_reducible apply getD_map_wf <;> [intro _; skip])
    | (with_reducible apply elim_wf <;> [intro _; skip])
    | (with_reducible apply getD_wf)
    | (with_reducible apply foldl_wf1 <;> [intro _ _ _; skip])
    | (with_reducible apply OptWf.of; assumption)
    | (with_reducible apply AllocWf.placed; assumption)
    | (with_reducible apply AllocWf.waits; assumption)
    | (with_reducible apply State.allocate_wf)
    | (with_reducible apply State.actRow_wf)
    | (with_reducible apply MoveWf.of_ok; assumption)
    | (with_reducible apply MoveWf.of_wait; assumption)
    | (with_reducible apply MoveWf.of_fault; assumption)
    | (with_reducible apply MoveWf.bind <;> [skip; intro _ _])
    | (with_reducible apply OptWf.findSome; intro _)
    | (with_reducible apply OptWf.map; intro _ _)
    | (intro _ _)
    | (with_reducible apply Memory.wf_filter)
    | (with_reducible apply State.write_wf)
    | (with_reducible apply State.writeAt_wf)
    | (with_reducible apply State.writeNat_wf)

theorem execCallg_wf (slot : BitVec 12) (s : State) (h : Memory.wf s.mem = true) : OutWf (execCallg slot s) := by
  unfold execCallg
  repeat' first
    | (with_reducible assumption)
    | (with_reducible exact trivial)
    | (with_reducible apply State.callOp_wf)
    | (with_reducible apply MoveWf.ok)
    | (with_reducible apply MoveWf.wait)
    | (with_reducible apply MoveWf.fault)
    | (with_reducible apply OptWf.some)
    | (with_reducible exact OptWf.none)
    | (with_reducible apply OutWf.next)
    | (with_reducible exact OutWf.fault)
    | (with_reducible exact OutWf.refused)
    | dsimp only
    | split
    | (with_reducible apply foldl_wf <;> [intro _ _ _; skip])
    | (with_reducible apply getD_map_wf <;> [intro _; skip])
    | (with_reducible apply elim_wf <;> [intro _; skip])
    | (with_reducible apply getD_wf)
    | (with_reducible apply foldl_wf1 <;> [intro _ _ _; skip])
    | (with_reducible apply OptWf.of; assumption)
    | (with_reducible apply AllocWf.placed; assumption)
    | (with_reducible apply AllocWf.waits; assumption)
    | (with_reducible apply State.allocate_wf)
    | (with_reducible apply State.actRow_wf)
    | (with_reducible apply MoveWf.of_ok; assumption)
    | (with_reducible apply MoveWf.of_wait; assumption)
    | (with_reducible apply MoveWf.of_fault; assumption)
    | (with_reducible apply MoveWf.bind <;> [skip; intro _ _])
    | (with_reducible apply OptWf.findSome; intro _)
    | (with_reducible apply OptWf.map; intro _ _)
    | (intro _ _)
    | (with_reducible apply Memory.wf_filter)
    | (with_reducible apply State.write_wf)
    | (with_reducible apply State.writeAt_wf)
    | (with_reducible apply State.writeNat_wf)

theorem execEnter_wf (n : BitVec 12) (s : State) (h : Memory.wf s.mem = true) : OutWf (execEnter n s) := by
  unfold execEnter
  repeat' first
    | (with_reducible assumption)
    | (with_reducible exact trivial)
    | rw [State.setCur_mem]
    | (with_reducible apply State.issueWith_wf)
    | (with_reducible apply State.makeResident_wf)
    | (with_reducible apply MoveWf.ok)
    | (with_reducible apply MoveWf.wait)
    | (with_reducible apply MoveWf.fault)
    | (with_reducible apply OptWf.some)
    | (with_reducible exact OptWf.none)
    | (with_reducible apply OutWf.next)
    | (with_reducible exact OutWf.fault)
    | (with_reducible exact OutWf.refused)
    | dsimp only
    | split
    | (with_reducible apply foldl_wf <;> [intro _ _ _; skip])
    | (with_reducible apply getD_map_wf <;> [intro _; skip])
    | (with_reducible apply elim_wf <;> [intro _; skip])
    | (with_reducible apply getD_wf)
    | (with_reducible apply foldl_wf1 <;> [intro _ _ _; skip])
    | (with_reducible apply OptWf.of; assumption)
    | (with_reducible apply AllocWf.placed; assumption)
    | (with_reducible apply AllocWf.waits; assumption)
    | (with_reducible apply State.allocate_wf)
    | (with_reducible apply State.actRow_wf)
    | (with_reducible apply MoveWf.of_ok; assumption)
    | (with_reducible apply MoveWf.of_wait; assumption)
    | (with_reducible apply MoveWf.of_fault; assumption)
    | (with_reducible apply MoveWf.bind <;> [skip; intro _ _])
    | (with_reducible apply OptWf.findSome; intro _)
    | (with_reducible apply OptWf.map; intro _ _)
    | (intro _ _)
    | (with_reducible apply Memory.wf_filter)
    | (with_reducible apply State.write_wf)
    | (with_reducible apply State.writeAt_wf)
    | (with_reducible apply State.writeNat_wf)

theorem State.fillCaller_wf (s : State) (link : Dword) (h : Memory.wf s.mem = true) : MoveWf (State.fillCaller s link) := by
  unfold State.fillCaller
  repeat' first
    | (with_reducible assumption)
    | (with_reducible exact trivial)
    | rw [State.setCur_mem]
    | (with_reducible apply State.makeResident_wf)
    | (with_reducible apply MoveWf.ok)
    | (with_reducible apply MoveWf.wait)
    | (with_reducible apply MoveWf.fault)
    | (with_reducible apply OptWf.some)
    | (with_reducible exact OptWf.none)
    | (with_reducible apply OutWf.next)
    | (with_reducible exact OutWf.fault)
    | (with_reducible exact OutWf.refused)
    | dsimp only
    | split
    | (with_reducible apply foldl_wf <;> [intro _ _ _; skip])
    | (with_reducible apply getD_map_wf <;> [intro _; skip])
    | (with_reducible apply elim_wf <;> [intro _; skip])
    | (with_reducible apply getD_wf)
    | (with_reducible apply foldl_wf1 <;> [intro _ _ _; skip])
    | (with_reducible apply OptWf.of; assumption)
    | (with_reducible apply AllocWf.placed; assumption)
    | (with_reducible apply AllocWf.waits; assumption)
    | (with_reducible apply State.allocate_wf)
    | (with_reducible apply State.actRow_wf)
    | (with_reducible apply MoveWf.of_ok; assumption)
    | (with_reducible apply MoveWf.of_wait; assumption)
    | (with_reducible apply MoveWf.of_fault; assumption)
    | (with_reducible apply MoveWf.bind <;> [skip; intro _ _])
    | (with_reducible apply OptWf.findSome; intro _)
    | (with_reducible apply OptWf.map; intro _ _)
    | (intro _ _)
    | (with_reducible apply Memory.wf_filter)
    | (with_reducible apply State.write_wf)
    | (with_reducible apply State.writeAt_wf)
    | (with_reducible apply State.writeNat_wf)

theorem execRet_wf (s : State) (h : Memory.wf s.mem = true) : OutWf (execRet s) := by
  unfold execRet
  repeat' first
    | (with_reducible assumption)
    | (with_reducible exact trivial)
    | rw [State.setCur_mem]
    | (with_reducible apply Reach.stop_wf)
    | (with_reducible apply State.endWave_wf)
    | (with_reducible apply State.fillCaller_wf)
    | (with_reducible apply State.issue_wf)
    | (with_reducible apply State.issueWith_wf)
    | (with_reducible apply State.setAD_wf)
    | (with_reducible apply MoveWf.ok)
    | (with_reducible apply MoveWf.wait)
    | (with_reducible apply MoveWf.fault)
    | (with_reducible apply OptWf.some)
    | (with_reducible exact OptWf.none)
    | (with_reducible apply OutWf.next)
    | (with_reducible exact OutWf.fault)
    | (with_reducible exact OutWf.refused)
    | dsimp only
    | split
    | (with_reducible apply foldl_wf <;> [intro _ _ _; skip])
    | (with_reducible apply getD_map_wf <;> [intro _; skip])
    | (with_reducible apply elim_wf <;> [intro _; skip])
    | (with_reducible apply getD_wf)
    | (with_reducible apply foldl_wf1 <;> [intro _ _ _; skip])
    | (with_reducible apply OptWf.of; assumption)
    | (with_reducible apply AllocWf.placed; assumption)
    | (with_reducible apply AllocWf.waits; assumption)
    | (with_reducible apply State.allocate_wf)
    | (with_reducible apply State.actRow_wf)
    | (with_reducible apply MoveWf.of_ok; assumption)
    | (with_reducible apply MoveWf.of_wait; assumption)
    | (with_reducible apply MoveWf.of_fault; assumption)
    | (with_reducible apply MoveWf.bind <;> [skip; intro _ _])
    | (with_reducible apply OptWf.findSome; intro _)
    | (with_reducible apply OptWf.map; intro _ _)
    | (intro _ _)
    | (with_reducible apply Memory.wf_filter)
    | (with_reducible apply State.write_wf)
    | (with_reducible apply State.writeAt_wf)
    | (with_reducible apply State.writeNat_wf)

theorem execExit_wf (s : State) (h : Memory.wf s.mem = true) : OutWf (execExit s) := by
  unfold execExit
  repeat' first
    | (with_reducible assumption)
    | (with_reducible exact trivial)
    | (with_reducible apply State.endWave_wf)
    | (with_reducible apply State.issue_wf)
    | (with_reducible apply MoveWf.ok)
    | (with_reducible apply MoveWf.wait)
    | (with_reducible apply MoveWf.fault)
    | (with_reducible apply OptWf.some)
    | (with_reducible exact OptWf.none)
    | (with_reducible apply OutWf.next)
    | (with_reducible exact OutWf.fault)
    | (with_reducible exact OutWf.refused)
    | dsimp only
    | split
    | (with_reducible apply foldl_wf <;> [intro _ _ _; skip])
    | (with_reducible apply getD_map_wf <;> [intro _; skip])
    | (with_reducible apply elim_wf <;> [intro _; skip])
    | (with_reducible apply getD_wf)
    | (with_reducible apply foldl_wf1 <;> [intro _ _ _; skip])
    | (with_reducible apply OptWf.of; assumption)
    | (with_reducible apply AllocWf.placed; assumption)
    | (with_reducible apply AllocWf.waits; assumption)
    | (with_reducible apply State.allocate_wf)
    | (with_reducible apply State.actRow_wf)
    | (with_reducible apply MoveWf.of_ok; assumption)
    | (with_reducible apply MoveWf.of_wait; assumption)
    | (with_reducible apply MoveWf.of_fault; assumption)
    | (with_reducible apply MoveWf.bind <;> [skip; intro _ _])
    | (with_reducible apply OptWf.findSome; intro _)
    | (with_reducible apply OptWf.map; intro _ _)
    | (intro _ _)
    | (with_reducible apply Memory.wf_filter)
    | (with_reducible apply State.write_wf)
    | (with_reducible apply State.writeAt_wf)
    | (with_reducible apply State.writeNat_wf)

theorem State.spillMask_wf (s : State) (h : Memory.wf s.mem = true) : MoveWf (State.spillMask s) := by
  unfold State.spillMask
  repeat' first
    | (with_reducible assumption)
    | (with_reducible exact trivial)
    | rw [State.setCur_mem]
    | (with_reducible apply Move.bind_wf)
    | (with_reducible apply State.backWrite_wf)
    | (with_reducible apply MoveWf.ok)
    | (with_reducible apply MoveWf.wait)
    | (with_reducible apply MoveWf.fault)
    | (with_reducible apply OptWf.some)
    | (with_reducible exact OptWf.none)
    | (with_reducible apply OutWf.next)
    | (with_reducible exact OutWf.fault)
    | (with_reducible exact OutWf.refused)
    | dsimp only
    | split
    | (with_reducible apply foldl_wf <;> [intro _ _ _; skip])
    | (with_reducible apply getD_map_wf <;> [intro _; skip])
    | (with_reducible apply elim_wf <;> [intro _; skip])
    | (with_reducible apply getD_wf)
    | (with_reducible apply foldl_wf1 <;> [intro _ _ _; skip])
    | (with_reducible apply OptWf.of; assumption)
    | (with_reducible apply AllocWf.placed; assumption)
    | (with_reducible apply AllocWf.waits; assumption)
    | (with_reducible apply State.allocate_wf)
    | (with_reducible apply State.actRow_wf)
    | (with_reducible apply MoveWf.of_ok; assumption)
    | (with_reducible apply MoveWf.of_wait; assumption)
    | (with_reducible apply MoveWf.of_fault; assumption)
    | (with_reducible apply MoveWf.bind <;> [skip; intro _ _])
    | (with_reducible apply OptWf.findSome; intro _)
    | (with_reducible apply OptWf.map; intro _ _)
    | (intro _ _)
    | (with_reducible apply Memory.wf_filter)
    | (with_reducible apply State.write_wf)
    | (with_reducible apply State.writeAt_wf)
    | (with_reducible apply State.writeNat_wf)

theorem State.fillMask_wf (s : State) (h : Memory.wf s.mem = true) : MoveWf (State.fillMask s) := by
  unfold State.fillMask
  repeat' first
    | (with_reducible assumption)
    | (with_reducible exact trivial)
    | rw [State.setCur_mem]
    | (with_reducible apply Reach.stop_wf)
    | (with_reducible apply State.load_wf)
    | (with_reducible apply State.setAD_wf)
    | (with_reducible apply MoveWf.ok)
    | (with_reducible apply MoveWf.wait)
    | (with_reducible apply MoveWf.fault)
    | (with_reducible apply OptWf.some)
    | (with_reducible exact OptWf.none)
    | (with_reducible apply OutWf.next)
    | (with_reducible exact OutWf.fault)
    | (with_reducible exact OutWf.refused)
    | dsimp only
    | split
    | (with_reducible apply foldl_wf <;> [intro _ _ _; skip])
    | (with_reducible apply getD_map_wf <;> [intro _; skip])
    | (with_reducible apply elim_wf <;> [intro _; skip])
    | (with_reducible apply getD_wf)
    | (with_reducible apply foldl_wf1 <;> [intro _ _ _; skip])
    | (with_reducible apply OptWf.of; assumption)
    | (with_reducible apply AllocWf.placed; assumption)
    | (with_reducible apply AllocWf.waits; assumption)
    | (with_reducible apply State.allocate_wf)
    | (with_reducible apply State.actRow_wf)
    | (with_reducible apply MoveWf.of_ok; assumption)
    | (with_reducible apply MoveWf.of_wait; assumption)
    | (with_reducible apply MoveWf.of_fault; assumption)
    | (with_reducible apply MoveWf.bind <;> [skip; intro _ _])
    | (with_reducible apply OptWf.findSome; intro _)
    | (with_reducible apply OptWf.map; intro _ _)
    | (intro _ _)
    | (with_reducible apply Memory.wf_filter)
    | (with_reducible apply State.write_wf)
    | (with_reducible apply State.writeAt_wf)
    | (with_reducible apply State.writeNat_wf)

theorem execMpush_wf (k : Low) (s : State) (h : Memory.wf s.mem = true) : OutWf (execMpush k s) := by
  unfold execMpush
  repeat' first
    | (with_reducible assumption)
    | (with_reducible exact trivial)
    | rw [State.setCur_mem]
    | (with_reducible apply State.issueWith_wf)
    | (with_reducible apply State.spillMask_wf)
    | (with_reducible apply MoveWf.ok)
    | (with_reducible apply MoveWf.wait)
    | (with_reducible apply MoveWf.fault)
    | (with_reducible apply OptWf.some)
    | (with_reducible exact OptWf.none)
    | (with_reducible apply OutWf.next)
    | (with_reducible exact OutWf.fault)
    | (with_reducible exact OutWf.refused)
    | dsimp only
    | split
    | (with_reducible apply foldl_wf <;> [intro _ _ _; skip])
    | (with_reducible apply getD_map_wf <;> [intro _; skip])
    | (with_reducible apply elim_wf <;> [intro _; skip])
    | (with_reducible apply getD_wf)
    | (with_reducible apply foldl_wf1 <;> [intro _ _ _; skip])
    | (with_reducible apply OptWf.of; assumption)
    | (with_reducible apply AllocWf.placed; assumption)
    | (with_reducible apply AllocWf.waits; assumption)
    | (with_reducible apply State.allocate_wf)
    | (with_reducible apply State.actRow_wf)
    | (with_reducible apply MoveWf.of_ok; assumption)
    | (with_reducible apply MoveWf.of_wait; assumption)
    | (with_reducible apply MoveWf.of_fault; assumption)
    | (with_reducible apply MoveWf.bind <;> [skip; intro _ _])
    | (with_reducible apply OptWf.findSome; intro _)
    | (with_reducible apply OptWf.map; intro _ _)
    | (intro _ _)
    | (with_reducible apply Memory.wf_filter)
    | (with_reducible apply State.write_wf)
    | (with_reducible apply State.writeAt_wf)
    | (with_reducible apply State.writeNat_wf)

theorem execMelse_wf (s : State) (h : Memory.wf s.mem = true) : OutWf (execMelse s) := by
  unfold execMelse
  repeat' first
    | (with_reducible assumption)
    | (with_reducible exact trivial)
    | rw [State.setCur_mem]
    | (with_reducible apply State.fillMask_wf)
    | (with_reducible apply State.issueWith_wf)
    | (with_reducible apply MoveWf.ok)
    | (with_reducible apply MoveWf.wait)
    | (with_reducible apply MoveWf.fault)
    | (with_reducible apply OptWf.some)
    | (with_reducible exact OptWf.none)
    | (with_reducible apply OutWf.next)
    | (with_reducible exact OutWf.fault)
    | (with_reducible exact OutWf.refused)
    | dsimp only
    | split
    | (with_reducible apply foldl_wf <;> [intro _ _ _; skip])
    | (with_reducible apply getD_map_wf <;> [intro _; skip])
    | (with_reducible apply elim_wf <;> [intro _; skip])
    | (with_reducible apply getD_wf)
    | (with_reducible apply foldl_wf1 <;> [intro _ _ _; skip])
    | (with_reducible apply OptWf.of; assumption)
    | (with_reducible apply AllocWf.placed; assumption)
    | (with_reducible apply AllocWf.waits; assumption)
    | (with_reducible apply State.allocate_wf)
    | (with_reducible apply State.actRow_wf)
    | (with_reducible apply MoveWf.of_ok; assumption)
    | (with_reducible apply MoveWf.of_wait; assumption)
    | (with_reducible apply MoveWf.of_fault; assumption)
    | (with_reducible apply MoveWf.bind <;> [skip; intro _ _])
    | (with_reducible apply OptWf.findSome; intro _)
    | (with_reducible apply OptWf.map; intro _ _)
    | (intro _ _)
    | (with_reducible apply Memory.wf_filter)
    | (with_reducible apply State.write_wf)
    | (with_reducible apply State.writeAt_wf)
    | (with_reducible apply State.writeNat_wf)

theorem execMpop_wf (s : State) (h : Memory.wf s.mem = true) : OutWf (execMpop s) := by
  unfold execMpop
  repeat' first
    | (with_reducible assumption)
    | (with_reducible exact trivial)
    | rw [State.setCur_mem]
    | (with_reducible apply State.fillMask_wf)
    | (with_reducible apply State.issueWith_wf)
    | (with_reducible apply MoveWf.ok)
    | (with_reducible apply MoveWf.wait)
    | (with_reducible apply MoveWf.fault)
    | (with_reducible apply OptWf.some)
    | (with_reducible exact OptWf.none)
    | (with_reducible apply OutWf.next)
    | (with_reducible exact OutWf.fault)
    | (with_reducible exact OutWf.refused)
    | dsimp only
    | split
    | (with_reducible apply foldl_wf <;> [intro _ _ _; skip])
    | (with_reducible apply getD_map_wf <;> [intro _; skip])
    | (with_reducible apply elim_wf <;> [intro _; skip])
    | (with_reducible apply getD_wf)
    | (with_reducible apply foldl_wf1 <;> [intro _ _ _; skip])
    | (with_reducible apply OptWf.of; assumption)
    | (with_reducible apply AllocWf.placed; assumption)
    | (with_reducible apply AllocWf.waits; assumption)
    | (with_reducible apply State.allocate_wf)
    | (with_reducible apply State.actRow_wf)
    | (with_reducible apply MoveWf.of_ok; assumption)
    | (with_reducible apply MoveWf.of_wait; assumption)
    | (with_reducible apply MoveWf.of_fault; assumption)
    | (with_reducible apply MoveWf.bind <;> [skip; intro _ _])
    | (with_reducible apply OptWf.findSome; intro _)
    | (with_reducible apply OptWf.map; intro _ _)
    | (intro _ _)
    | (with_reducible apply Memory.wf_filter)
    | (with_reducible apply State.write_wf)
    | (with_reducible apply State.writeAt_wf)
    | (with_reducible apply State.writeNat_wf)

theorem execSetm_wf (a : Reg) (s : State) (h : Memory.wf s.mem = true) : OutWf (execSetm a s) := by
  unfold execSetm
  repeat' first
    | (with_reducible assumption)
    | (with_reducible exact trivial)
    | rw [State.setCur_mem]
    | (with_reducible apply State.issue_wf)
    | (with_reducible apply MoveWf.ok)
    | (with_reducible apply MoveWf.wait)
    | (with_reducible apply MoveWf.fault)
    | (with_reducible apply OptWf.some)
    | (with_reducible exact OptWf.none)
    | (with_reducible apply OutWf.next)
    | (with_reducible exact OutWf.fault)
    | (with_reducible exact OutWf.refused)
    | dsimp only
    | split
    | (with_reducible apply foldl_wf <;> [intro _ _ _; skip])
    | (with_reducible apply getD_map_wf <;> [intro _; skip])
    | (with_reducible apply elim_wf <;> [intro _; skip])
    | (with_reducible apply getD_wf)
    | (with_reducible apply foldl_wf1 <;> [intro _ _ _; skip])
    | (with_reducible apply OptWf.of; assumption)
    | (with_reducible apply AllocWf.placed; assumption)
    | (with_reducible apply AllocWf.waits; assumption)
    | (with_reducible apply State.allocate_wf)
    | (with_reducible apply State.actRow_wf)
    | (with_reducible apply MoveWf.of_ok; assumption)
    | (with_reducible apply MoveWf.of_wait; assumption)
    | (with_reducible apply MoveWf.of_fault; assumption)
    | (with_reducible apply MoveWf.bind <;> [skip; intro _ _])
    | (with_reducible apply OptWf.findSome; intro _)
    | (with_reducible apply OptWf.map; intro _ _)
    | (intro _ _)
    | (with_reducible apply Memory.wf_filter)
    | (with_reducible apply State.write_wf)
    | (with_reducible apply State.writeAt_wf)
    | (with_reducible apply State.writeNat_wf)

theorem execSetmf_wf (f : Fin 16) (v : BitVec 8) (s : State) (h : Memory.wf s.mem = true) : OutWf (execSetmf f v s) := by
  unfold execSetmf
  repeat' first
    | (with_reducible assumption)
    | (with_reducible exact trivial)
    | rw [State.setCur_mem]
    | (with_reducible apply State.issue_wf)
    | (with_reducible apply MoveWf.ok)
    | (with_reducible apply MoveWf.wait)
    | (with_reducible apply MoveWf.fault)
    | (with_reducible apply OptWf.some)
    | (with_reducible exact OptWf.none)
    | (with_reducible apply OutWf.next)
    | (with_reducible exact OutWf.fault)
    | (with_reducible exact OutWf.refused)
    | dsimp only
    | split
    | (with_reducible apply foldl_wf <;> [intro _ _ _; skip])
    | (with_reducible apply getD_map_wf <;> [intro _; skip])
    | (with_reducible apply elim_wf <;> [intro _; skip])
    | (with_reducible apply getD_wf)
    | (with_reducible apply foldl_wf1 <;> [intro _ _ _; skip])
    | (with_reducible apply OptWf.of; assumption)
    | (with_reducible apply AllocWf.placed; assumption)
    | (with_reducible apply AllocWf.waits; assumption)
    | (with_reducible apply State.allocate_wf)
    | (with_reducible apply State.actRow_wf)
    | (with_reducible apply MoveWf.of_ok; assumption)
    | (with_reducible apply MoveWf.of_wait; assumption)
    | (with_reducible apply MoveWf.of_fault; assumption)
    | (with_reducible apply MoveWf.bind <;> [skip; intro _ _])
    | (with_reducible apply OptWf.findSome; intro _)
    | (with_reducible apply OptWf.map; intro _ _)
    | (intro _ _)
    | (with_reducible apply Memory.wf_filter)
    | (with_reducible apply State.write_wf)
    | (with_reducible apply State.writeAt_wf)
    | (with_reducible apply State.writeNat_wf)

theorem execGetm_wf (d : Reg) (s : State) (h : Memory.wf s.mem = true) : OutWf (execGetm d s) := by
  unfold execGetm
  repeat' first
    | (with_reducible assumption)
    | (with_reducible exact trivial)
    | (with_reducible apply State.laneOp_wf)
    | (with_reducible apply MoveWf.ok)
    | (with_reducible apply MoveWf.wait)
    | (with_reducible apply MoveWf.fault)
    | (with_reducible apply OptWf.some)
    | (with_reducible exact OptWf.none)
    | (with_reducible apply OutWf.next)
    | (with_reducible exact OutWf.fault)
    | (with_reducible exact OutWf.refused)
    | dsimp only
    | split
    | (with_reducible apply foldl_wf <;> [intro _ _ _; skip])
    | (with_reducible apply getD_map_wf <;> [intro _; skip])
    | (with_reducible apply elim_wf <;> [intro _; skip])
    | (with_reducible apply getD_wf)
    | (with_reducible apply foldl_wf1 <;> [intro _ _ _; skip])
    | (with_reducible apply OptWf.of; assumption)
    | (with_reducible apply AllocWf.placed; assumption)
    | (with_reducible apply AllocWf.waits; assumption)
    | (with_reducible apply State.allocate_wf)
    | (with_reducible apply State.actRow_wf)
    | (with_reducible apply MoveWf.of_ok; assumption)
    | (with_reducible apply MoveWf.of_wait; assumption)
    | (with_reducible apply MoveWf.of_fault; assumption)
    | (with_reducible apply MoveWf.bind <;> [skip; intro _ _])
    | (with_reducible apply OptWf.findSome; intro _)
    | (with_reducible apply OptWf.map; intro _ _)
    | (intro _ _)
    | (with_reducible apply Memory.wf_filter)
    | (with_reducible apply State.write_wf)
    | (with_reducible apply State.writeAt_wf)
    | (with_reducible apply State.writeNat_wf)

theorem execRegn_wf (s : State) (h : Memory.wf s.mem = true) : OutWf (execRegn s) := by
  unfold execRegn
  repeat' first
    | (with_reducible assumption)
    | (with_reducible exact trivial)
    | rw [State.setCur_mem]
    | (with_reducible apply State.issue_wf)
    | (with_reducible apply MoveWf.ok)
    | (with_reducible apply MoveWf.wait)
    | (with_reducible apply MoveWf.fault)
    | (with_reducible apply OptWf.some)
    | (with_reducible exact OptWf.none)
    | (with_reducible apply OutWf.next)
    | (with_reducible exact OutWf.fault)
    | (with_reducible exact OutWf.refused)
    | dsimp only
    | split
    | (with_reducible apply foldl_wf <;> [intro _ _ _; skip])
    | (with_reducible apply getD_map_wf <;> [intro _; skip])
    | (with_reducible apply elim_wf <;> [intro _; skip])
    | (with_reducible apply getD_wf)
    | (with_reducible apply foldl_wf1 <;> [intro _ _ _; skip])
    | (with_reducible apply OptWf.of; assumption)
    | (with_reducible apply AllocWf.placed; assumption)
    | (with_reducible apply AllocWf.waits; assumption)
    | (with_reducible apply State.allocate_wf)
    | (with_reducible apply State.actRow_wf)
    | (with_reducible apply MoveWf.of_ok; assumption)
    | (with_reducible apply MoveWf.of_wait; assumption)
    | (with_reducible apply MoveWf.of_fault; assumption)
    | (with_reducible apply MoveWf.bind <;> [skip; intro _ _])
    | (with_reducible apply OptWf.findSome; intro _)
    | (with_reducible apply OptWf.map; intro _ _)
    | (intro _ _)
    | (with_reducible apply Memory.wf_filter)
    | (with_reducible apply State.write_wf)
    | (with_reducible apply State.writeAt_wf)
    | (with_reducible apply State.writeNat_wf)

theorem execNop_wf (s : State) (h : Memory.wf s.mem = true) : OutWf (execNop s) := by
  unfold execNop
  repeat' first
    | (with_reducible assumption)
    | (with_reducible exact trivial)
    | (with_reducible apply State.issue_wf)
    | (with_reducible apply MoveWf.ok)
    | (with_reducible apply MoveWf.wait)
    | (with_reducible apply MoveWf.fault)
    | (with_reducible apply OptWf.some)
    | (with_reducible exact OptWf.none)
    | (with_reducible apply OutWf.next)
    | (with_reducible exact OutWf.fault)
    | (with_reducible exact OutWf.refused)
    | dsimp only
    | split
    | (with_reducible apply foldl_wf <;> [intro _ _ _; skip])
    | (with_reducible apply getD_map_wf <;> [intro _; skip])
    | (with_reducible apply elim_wf <;> [intro _; skip])
    | (with_reducible apply getD_wf)
    | (with_reducible apply foldl_wf1 <;> [intro _ _ _; skip])
    | (with_reducible apply OptWf.of; assumption)
    | (with_reducible apply AllocWf.placed; assumption)
    | (with_reducible apply AllocWf.waits; assumption)
    | (with_reducible apply State.allocate_wf)
    | (with_reducible apply State.actRow_wf)
    | (with_reducible apply MoveWf.of_ok; assumption)
    | (with_reducible apply MoveWf.of_wait; assumption)
    | (with_reducible apply MoveWf.of_fault; assumption)
    | (with_reducible apply MoveWf.bind <;> [skip; intro _ _])
    | (with_reducible apply OptWf.findSome; intro _)
    | (with_reducible apply OptWf.map; intro _ _)
    | (intro _ _)
    | (with_reducible apply Memory.wf_filter)
    | (with_reducible apply State.write_wf)
    | (with_reducible apply State.writeAt_wf)
    | (with_reducible apply State.writeNat_wf)

theorem execSigchk_wf (x : BitVec 20) (s : State) (h : Memory.wf s.mem = true) : OutWf (execSigchk x s) := by
  unfold execSigchk
  repeat' first
    | (with_reducible assumption)
    | (with_reducible exact trivial)
    | rw [State.setCur_mem]
    | (with_reducible apply State.issueWith_wf)
    | (with_reducible apply MoveWf.ok)
    | (with_reducible apply MoveWf.wait)
    | (with_reducible apply MoveWf.fault)
    | (with_reducible apply OptWf.some)
    | (with_reducible exact OptWf.none)
    | (with_reducible apply OutWf.next)
    | (with_reducible exact OutWf.fault)
    | (with_reducible exact OutWf.refused)
    | dsimp only
    | split
    | (with_reducible apply foldl_wf <;> [intro _ _ _; skip])
    | (with_reducible apply getD_map_wf <;> [intro _; skip])
    | (with_reducible apply elim_wf <;> [intro _; skip])
    | (with_reducible apply getD_wf)
    | (with_reducible apply foldl_wf1 <;> [intro _ _ _; skip])
    | (with_reducible apply OptWf.of; assumption)
    | (with_reducible apply AllocWf.placed; assumption)
    | (with_reducible apply AllocWf.waits; assumption)
    | (with_reducible apply State.allocate_wf)
    | (with_reducible apply State.actRow_wf)
    | (with_reducible apply MoveWf.of_ok; assumption)
    | (with_reducible apply MoveWf.of_wait; assumption)
    | (with_reducible apply MoveWf.of_fault; assumption)
    | (with_reducible apply MoveWf.bind <;> [skip; intro _ _])
    | (with_reducible apply OptWf.findSome; intro _)
    | (with_reducible apply OptWf.map; intro _ _)
    | (intro _ _)
    | (with_reducible apply Memory.wf_filter)
    | (with_reducible apply State.write_wf)
    | (with_reducible apply State.writeAt_wf)
    | (with_reducible apply State.writeNat_wf)

theorem execSread_wf (d : Reg) (n : Fin 64) (s : State) (h : Memory.wf s.mem = true) : OutWf (execSread d n s) := by
  unfold execSread
  repeat' first
    | (with_reducible assumption)
    | (with_reducible exact trivial)
    | rw [State.laneWrite_mem]
    | rw [State.setCur_mem]
    | (with_reducible apply State.issue_wf)
    | (with_reducible apply MoveWf.ok)
    | (with_reducible apply MoveWf.wait)
    | (with_reducible apply MoveWf.fault)
    | (with_reducible apply OptWf.some)
    | (with_reducible exact OptWf.none)
    | (with_reducible apply OutWf.next)
    | (with_reducible exact OutWf.fault)
    | (with_reducible exact OutWf.refused)
    | dsimp only
    | split
    | (with_reducible apply foldl_wf <;> [intro _ _ _; skip])
    | (with_reducible apply getD_map_wf <;> [intro _; skip])
    | (with_reducible apply elim_wf <;> [intro _; skip])
    | (with_reducible apply getD_wf)
    | (with_reducible apply foldl_wf1 <;> [intro _ _ _; skip])
    | (with_reducible apply OptWf.of; assumption)
    | (with_reducible apply AllocWf.placed; assumption)
    | (with_reducible apply AllocWf.waits; assumption)
    | (with_reducible apply State.allocate_wf)
    | (with_reducible apply State.actRow_wf)
    | (with_reducible apply MoveWf.of_ok; assumption)
    | (with_reducible apply MoveWf.of_wait; assumption)
    | (with_reducible apply MoveWf.of_fault; assumption)
    | (with_reducible apply MoveWf.bind <;> [skip; intro _ _])
    | (with_reducible apply OptWf.findSome; intro _)
    | (with_reducible apply OptWf.map; intro _ _)
    | (intro _ _)
    | (with_reducible apply Memory.wf_filter)
    | (with_reducible apply State.write_wf)
    | (with_reducible apply State.writeAt_wf)
    | (with_reducible apply State.writeNat_wf)

theorem execLdc_wf (d : Reg) (a : Reg) (imm : BitVec 12) (s : State) (h : Memory.wf s.mem = true) : OutWf (execLdc d a imm s) := by
  unfold execLdc
  repeat' first
    | (with_reducible assumption)
    | (with_reducible exact trivial)
    | rw [State.parkWave_mem]
    | rw [State.setCur_mem]
    | (with_reducible apply State.issue_wf)
    | (with_reducible apply MoveWf.ok)
    | (with_reducible apply MoveWf.wait)
    | (with_reducible apply MoveWf.fault)
    | (with_reducible apply OptWf.some)
    | (with_reducible exact OptWf.none)
    | (with_reducible apply OutWf.next)
    | (with_reducible exact OutWf.fault)
    | (with_reducible exact OutWf.refused)
    | dsimp only
    | split
    | (with_reducible apply foldl_wf <;> [intro _ _ _; skip])
    | (with_reducible apply getD_map_wf <;> [intro _; skip])
    | (with_reducible apply elim_wf <;> [intro _; skip])
    | (with_reducible apply getD_wf)
    | (with_reducible apply foldl_wf1 <;> [intro _ _ _; skip])
    | (with_reducible apply OptWf.of; assumption)
    | (with_reducible apply AllocWf.placed; assumption)
    | (with_reducible apply AllocWf.waits; assumption)
    | (with_reducible apply State.allocate_wf)
    | (with_reducible apply State.actRow_wf)
    | (with_reducible apply MoveWf.of_ok; assumption)
    | (with_reducible apply MoveWf.of_wait; assumption)
    | (with_reducible apply MoveWf.of_fault; assumption)
    | (with_reducible apply MoveWf.bind <;> [skip; intro _ _])
    | (with_reducible apply OptWf.findSome; intro _)
    | (with_reducible apply OptWf.map; intro _ _)
    | (intro _ _)
    | (with_reducible apply Memory.wf_filter)
    | (with_reducible apply State.write_wf)
    | (with_reducible apply State.writeAt_wf)
    | (with_reducible apply State.writeNat_wf)

theorem execTrap_wf (c : BitVec 12) (s : State) (h : Memory.wf s.mem = true) : OutWf (execTrap c s) := by
  unfold execTrap
  repeat' first
    | (with_reducible assumption)
    | (with_reducible exact trivial)
    | rw [State.parkWave_mem]
    | (with_reducible apply State.issue_wf)
    | (with_reducible apply MoveWf.ok)
    | (with_reducible apply MoveWf.wait)
    | (with_reducible apply MoveWf.fault)
    | (with_reducible apply OptWf.some)
    | (with_reducible exact OptWf.none)
    | (with_reducible apply OutWf.next)
    | (with_reducible exact OutWf.fault)
    | (with_reducible exact OutWf.refused)
    | dsimp only
    | split
    | (with_reducible apply foldl_wf <;> [intro _ _ _; skip])
    | (with_reducible apply getD_map_wf <;> [intro _; skip])
    | (with_reducible apply elim_wf <;> [intro _; skip])
    | (with_reducible apply getD_wf)
    | (with_reducible apply foldl_wf1 <;> [intro _ _ _; skip])
    | (with_reducible apply OptWf.of; assumption)
    | (with_reducible apply AllocWf.placed; assumption)
    | (with_reducible apply AllocWf.waits; assumption)
    | (with_reducible apply State.allocate_wf)
    | (with_reducible apply State.actRow_wf)
    | (with_reducible apply MoveWf.of_ok; assumption)
    | (with_reducible apply MoveWf.of_wait; assumption)
    | (with_reducible apply MoveWf.of_fault; assumption)
    | (with_reducible apply MoveWf.bind <;> [skip; intro _ _])
    | (with_reducible apply OptWf.findSome; intro _)
    | (with_reducible apply OptWf.map; intro _ _)
    | (intro _ _)
    | (with_reducible apply Memory.wf_filter)
    | (with_reducible apply State.write_wf)
    | (with_reducible apply State.writeAt_wf)
    | (with_reducible apply State.writeNat_wf)

theorem execBkpt_wf (c : BitVec 12) (s : State) (h : Memory.wf s.mem = true) : OutWf (execBkpt c s) := by
  unfold execBkpt
  repeat' first
    | (with_reducible assumption)
    | (with_reducible exact trivial)
    | (with_reducible apply State.issueWith_wf)
    | (with_reducible apply MoveWf.ok)
    | (with_reducible apply MoveWf.wait)
    | (with_reducible apply MoveWf.fault)
    | (with_reducible apply OptWf.some)
    | (with_reducible exact OptWf.none)
    | (with_reducible apply OutWf.next)
    | (with_reducible exact OutWf.fault)
    | (with_reducible exact OutWf.refused)
    | dsimp only
    | split
    | (with_reducible apply foldl_wf <;> [intro _ _ _; skip])
    | (with_reducible apply getD_map_wf <;> [intro _; skip])
    | (with_reducible apply elim_wf <;> [intro _; skip])
    | (with_reducible apply getD_wf)
    | (with_reducible apply foldl_wf1 <;> [intro _ _ _; skip])
    | (with_reducible apply OptWf.of; assumption)
    | (with_reducible apply AllocWf.placed; assumption)
    | (with_reducible apply AllocWf.waits; assumption)
    | (with_reducible apply State.allocate_wf)
    | (with_reducible apply State.actRow_wf)
    | (with_reducible apply MoveWf.of_ok; assumption)
    | (with_reducible apply MoveWf.of_wait; assumption)
    | (with_reducible apply MoveWf.of_fault; assumption)
    | (with_reducible apply MoveWf.bind <;> [skip; intro _ _])
    | (with_reducible apply OptWf.findSome; intro _)
    | (with_reducible apply OptWf.map; intro _ _)
    | (intro _ _)
    | (with_reducible apply Memory.wf_filter)
    | (with_reducible apply State.write_wf)
    | (with_reducible apply State.writeAt_wf)
    | (with_reducible apply State.writeNat_wf)

theorem execEsc_wf (x : Fin 64) (y : Fin 64) (z : BitVec 12) (s : State) (h : Memory.wf s.mem = true) : OutWf (execEsc x y z s) := by
  unfold execEsc
  repeat' first
    | (with_reducible assumption)
    | (with_reducible exact trivial)
    | rw [State.parkUnimpl_mem]
    | (with_reducible apply MoveWf.ok)
    | (with_reducible apply MoveWf.wait)
    | (with_reducible apply MoveWf.fault)
    | (with_reducible apply OptWf.some)
    | (with_reducible exact OptWf.none)
    | (with_reducible apply OutWf.next)
    | (with_reducible exact OutWf.fault)
    | (with_reducible exact OutWf.refused)
    | dsimp only
    | split
    | (with_reducible apply foldl_wf <;> [intro _ _ _; skip])
    | (with_reducible apply getD_map_wf <;> [intro _; skip])
    | (with_reducible apply elim_wf <;> [intro _; skip])
    | (with_reducible apply getD_wf)
    | (with_reducible apply foldl_wf1 <;> [intro _ _ _; skip])
    | (with_reducible apply OptWf.of; assumption)
    | (with_reducible apply AllocWf.placed; assumption)
    | (with_reducible apply AllocWf.waits; assumption)
    | (with_reducible apply State.allocate_wf)
    | (with_reducible apply State.actRow_wf)
    | (with_reducible apply MoveWf.of_ok; assumption)
    | (with_reducible apply MoveWf.of_wait; assumption)
    | (with_reducible apply MoveWf.of_fault; assumption)
    | (with_reducible apply MoveWf.bind <;> [skip; intro _ _])
    | (with_reducible apply OptWf.findSome; intro _)
    | (with_reducible apply OptWf.map; intro _ _)
    | (intro _ _)
    | (with_reducible apply Memory.wf_filter)
    | (with_reducible apply State.write_wf)
    | (with_reducible apply State.writeAt_wf)
    | (with_reducible apply State.writeNat_wf)

theorem execUnassignedWord_wf (w : BitVec 32) (s : State) (h : Memory.wf s.mem = true) : OutWf (execUnassignedWord w s) := by
  unfold execUnassignedWord
  repeat' first
    | (with_reducible assumption)
    | (with_reducible exact trivial)
    | rw [State.parkUnimpl_mem]
    | (with_reducible apply MoveWf.ok)
    | (with_reducible apply MoveWf.wait)
    | (with_reducible apply MoveWf.fault)
    | (with_reducible apply OptWf.some)
    | (with_reducible exact OptWf.none)
    | (with_reducible apply OutWf.next)
    | (with_reducible exact OutWf.fault)
    | (with_reducible exact OutWf.refused)
    | dsimp only
    | split
    | (with_reducible apply foldl_wf <;> [intro _ _ _; skip])
    | (with_reducible apply getD_map_wf <;> [intro _; skip])
    | (with_reducible apply elim_wf <;> [intro _; skip])
    | (with_reducible apply getD_wf)
    | (with_reducible apply foldl_wf1 <;> [intro _ _ _; skip])
    | (with_reducible apply OptWf.of; assumption)
    | (with_reducible apply AllocWf.placed; assumption)
    | (with_reducible apply AllocWf.waits; assumption)
    | (with_reducible apply State.allocate_wf)
    | (with_reducible apply State.actRow_wf)
    | (with_reducible apply MoveWf.of_ok; assumption)
    | (with_reducible apply MoveWf.of_wait; assumption)
    | (with_reducible apply MoveWf.of_fault; assumption)
    | (with_reducible apply MoveWf.bind <;> [skip; intro _ _])
    | (with_reducible apply OptWf.findSome; intro _)
    | (with_reducible apply OptWf.map; intro _ _)
    | (intro _ _)
    | (with_reducible apply Memory.wf_filter)
    | (with_reducible apply State.write_wf)
    | (with_reducible apply State.writeAt_wf)
    | (with_reducible apply State.writeNat_wf)

end Sys2Proof.Machine
end

