-- ==== Sys2Proof/Laws/MemAccess.lean ====
section
/-! SUPPORT. What each operation of Access.lean does to memory: nothing, or it keeps the canonical form. -/

set_option linter.all false

namespace Sys2Proof.Machine

theorem State.touchLeaf_wf (s : State) (core : Nat) (k : Access) (at_ : Attr) (h : Memory.wf s.mem = true) : Memory.wf (State.touchLeaf s core k at_).mem = true := by
  unfold State.touchLeaf
  repeat' first
    | (with_reducible assumption)
    | (with_reducible exact trivial)
    | (with_reducible apply State.setAD_wf)
    | (with_reducible apply MoveWf.ok)
    | (with_reducible apply MoveWf.wait)
    | (with_reducible apply MoveWf.fault)
    | (with_reducible apply OptWf.some)
    | (with_reducible exact OptWf.none)
    | (with_reducible apply OutWf.next)
    | (with_reducible exact OutWf.fault)
    | (with_reducible exact OutWf.refused)
    | dsimp only
    | split
    | (with_reducible apply foldl_wf <;> [intro _ _ _; skip])
    | (with_reducible apply getD_map_wf <;> [intro _; skip])
    | (with_reducible apply elim_wf <;> [intro _; skip])
    | (with_reducible apply getD_wf)
    | (with_reducible apply foldl_wf1 <;> [intro _ _ _; skip])
    | (with_reducible apply OptWf.of; assumption)
    | (with_reducible apply AllocWf.placed; assumption)
    | (with_reducible apply AllocWf.waits; assumption)
    | (with_reducible apply State.allocate_wf)
    | (with_reducible apply State.actRow_wf)
    | (with_reducible apply MoveWf.of_ok; assumption)
    | (with_reducible apply MoveWf.of_wait; assumption)
    | (with_reducible apply MoveWf.of_fault; assumption)
    | (with_reducible apply MoveWf.bind <;> [skip; intro _ _])
    | (with_reducible apply OptWf.findSome; intro _)
    | (with_reducible apply OptWf.map; intro _ _)
    | (intro _ _)
    | (with_reducible apply Memory.wf_filter)
    | (with_reducible apply State.write_wf)
    | (with_reducible apply State.writeAt_wf)
    | (with_reducible apply State.writeNat_wf)

theorem State.askWalk_mem (s : State) (cluster : Nat) (ctx : Nat) (page : Nat) : (State.askWalk s cluster ctx page).mem = s.mem := by
  unfold State.askWalk
  repeat' first
    | (with_reducible rfl)
    | rw [State.post_mem]
    | dsimp only
    | split
    | (refine foldl_mem _ ?_ _ _ |>.trans ?_ <;> [intro _ _; skip])
    | (with_reducible apply getD_map_mem <;> [intro _; skip])
    | (with_reducible apply elim_mem <;> [intro _; skip])
    | (refine foldl_mem1 _ ?_ _ _ |>.trans ?_ <;> [intro _ _; skip])

theorem State.enterBuffer_mem (s : State) (cl : Nat) (u : Nat × Nat) (asid : Nat) (ctx : Nat) (page : Nat) (level : Nat) (reason : Nat) : (State.enterBuffer s cl u asid ctx page level reason).1.mem = s.mem := by
  unfold State.enterBuffer
  repeat' first
    | (with_reducible rfl)
    | rw [State.setFb_mem]
    | dsimp only
    | split
    | (refine foldl_mem _ ?_ _ _ |>.trans ?_ <;> [intro _ _; skip])
    | (with_reducible apply getD_map_mem <;> [intro _; skip])
    | (with_reducible apply elim_mem <;> [intro _; skip])
    | (refine foldl_mem1 _ ?_ _ _ |>.trans ?_ <;> [intro _ _; skip])

theorem State.modLive_mem (s : State) (id : Nat) (f : Wave → Wave) : (State.modLive s id f).mem = s.mem := by
  unfold State.modLive
  repeat' first
    | (with_reducible rfl)
    | dsimp only
    | split
    | (refine foldl_mem _ ?_ _ _ |>.trans ?_ <;> [intro _ _; skip])
    | (with_reducible apply getD_map_mem <;> [intro _; skip])
    | (with_reducible apply elim_mem <;> [intro _; skip])
    | (refine foldl_mem1 _ ?_ _ _ |>.trans ?_ <;> [intro _ _; skip])

theorem State.modOp_mem (s : State) (id : Nat) (f : MemOp → MemOp) : (State.modOp s id f).mem = s.mem := by
  unfold State.modOp
  repeat' first
    | (with_reducible rfl)
    | dsimp only
    | split
    | (refine foldl_mem _ ?_ _ _ |>.trans ?_ <;> [intro _ _; skip])
    | (with_reducible apply getD_map_mem <;> [intro _; skip])
    | (with_reducible apply elim_mem <;> [intro _; skip])
    | (refine foldl_mem1 _ ?_ _ _ |>.trans ?_ <;> [intro _ _; skip])

theorem State.landWhole_mem (s : State) (id : Nat) (lane : Nat) (bs : List Byte) (ms : List Mark) : (State.landWhole s id lane bs ms).mem = s.mem := by
  unfold State.landWhole
  repeat' first
    | (with_reducible rfl)
    | rw [State.modOp_mem]
    | dsimp only
    | split
    | (refine foldl_mem _ ?_ _ _ |>.trans ?_ <;> [intro _ _; skip])
    | (with_reducible apply getD_map_mem <;> [intro _; skip])
    | (with_reducible apply elim_mem <;> [intro _; skip])
    | (refine foldl_mem1 _ ?_ _ _ |>.trans ?_ <;> [intro _ _; skip])

theorem State.landLane_mem (s : State) (id : Nat) (lane : Nat) (bs : List Byte) (ms : List Mark) : (State.landLane s id lane bs ms).mem = s.mem := by
  unfold State.landLane
  repeat' first
    | (with_reducible rfl)
    | rw [State.landWhole_mem]
    | rw [State.modLive_mem]
    | rw [State.modOp_mem]
    | dsimp only
    | split
    | (refine foldl_mem _ ?_ _ _ |>.trans ?_ <;> [intro _ _; skip])
    | (with_reducible apply getD_map_mem <;> [intro _; skip])
    | (with_reducible apply elim_mem <;> [intro _; skip])
    | (refine foldl_mem1 _ ?_ _ _ |>.trans ?_ <;> [intro _ _; skip])

theorem State.landFrom_mem (s : State) (id : Nat) (lane : Nat) (pa : Nat) (bs : List Byte) (ms : List Mark) : (State.landFrom s id lane pa bs ms).mem = s.mem := by
  unfold State.landFrom
  repeat' first
    | (with_reducible rfl)
    | rw [State.draw_mem]
    | rw [State.landLane_mem]
    | dsimp only
    | split
    | (refine foldl_mem _ ?_ _ _ |>.trans ?_ <;> [intro _ _; skip])
    | (with_reducible apply getD_map_mem <;> [intro _; skip])
    | (with_reducible apply elim_mem <;> [intro _; skip])
    | (refine foldl_mem1 _ ?_ _ _ |>.trans ?_ <;> [intro _ _; skip])

theorem State.doneLanes_mem (s : State) (id : Nat) (lanes : List Nat) : (State.doneLanes s id lanes).mem = s.mem := by
  unfold State.doneLanes
  repeat' first
    | (with_reducible rfl)
    | rw [State.modOp_mem]
    | dsimp only
    | split
    | (refine foldl_mem _ ?_ _ _ |>.trans ?_ <;> [intro _ _; skip])
    | (with_reducible apply getD_map_mem <;> [intro _; skip])
    | (with_reducible apply elim_mem <;> [intro _; skip])
    | (refine foldl_mem1 _ ?_ _ _ |>.trans ?_ <;> [intro _ _; skip])

theorem State.parkOp_wf (s : State) (id : Nat) (o : MemOp) (h : Memory.wf s.mem = true) : Memory.wf (State.parkOp s id o).mem = true := by
  unfold State.parkOp
  repeat' first
    | (with_reducible assumption)
    | (with_reducible exact trivial)
    | rw [State.modLive_mem]
    | rw [State.modOp_mem]
    | rw [State.parkWave_mem]
    | (with_reducible apply State.atomic_wf)
    | (with_reducible apply MoveWf.ok)
    | (with_reducible apply MoveWf.wait)
    | (with_reducible apply MoveWf.fault)
    | (with_reducible apply OptWf.some)
    | (with_reducible exact OptWf.none)
    | (with_reducible apply OutWf.next)
    | (with_reducible exact OutWf.fault)
    | (with_reducible exact OutWf.refused)
    | dsimp only
    | split
    | (with_reducible apply foldl_wf <;> [intro _ _ _; skip])
    | (with_reducible apply getD_map_wf <;> [intro _; skip])
    | (with_reducible apply elim_wf <;> [intro _; skip])
    | (with_reducible apply getD_wf)
    | (with_reducible apply foldl_wf1 <;> [intro _ _ _; skip])
    | (with_reducible apply OptWf.of; assumption)
    | (with_reducible apply AllocWf.placed; assumption)
    | (with_reducible apply AllocWf.waits; assumption)
    | (with_reducible apply State.allocate_wf)
    | (with_reducible apply State.actRow_wf)
    | (with_reducible apply MoveWf.of_ok; assumption)
    | (with_reducible apply MoveWf.of_wait; assumption)
    | (with_reducible apply MoveWf.of_fault; assumption)
    | (with_reducible apply MoveWf.bind <;> [skip; intro _ _])
    | (with_reducible apply OptWf.findSome; intro _)
    | (with_reducible apply OptWf.map; intro _ _)
    | (intro _ _)
    | (with_reducible apply Memory.wf_filter)
    | (with_reducible apply State.write_wf)
    | (with_reducible apply State.writeAt_wf)
    | (with_reducible apply State.writeNat_wf)

theorem State.dropOp_mem (s : State) (id : Nat) (wave : Nat) : (State.dropOp s id wave).mem = s.mem := by
  unfold State.dropOp
  repeat' first
    | (with_reducible rfl)
    | rw [State.modLive_mem]
    | rw [State.settle_mem]
    | dsimp only
    | split
    | (refine foldl_mem _ ?_ _ _ |>.trans ?_ <;> [intro _ _; skip])
    | (with_reducible apply getD_map_mem <;> [intro _; skip])
    | (with_reducible apply elim_mem <;> [intro _; skip])
    | (refine foldl_mem1 _ ?_ _ _ |>.trans ?_ <;> [intro _ _; skip])

theorem State.rewindOp_wf (s : State) (id : Nat) (o : MemOp) (pa : Nat) (finfo : Dword) (h : Memory.wf s.mem = true) : Memory.wf (State.rewindOp s id o pa finfo).mem = true := by
  unfold State.rewindOp
  repeat' first
    | (with_reducible assumption)
    | (with_reducible exact trivial)
    | rw [State.dropOp_mem]
    | rw [State.modLive_mem]
    | (with_reducible apply State.consume_wf)
    | (with_reducible apply MoveWf.ok)
    | (with_reducible apply MoveWf.wait)
    | (with_reducible apply MoveWf.fault)
    | (with_reducible apply OptWf.some)
    | (with_reducible exact OptWf.none)
    | (with_reducible apply OutWf.next)
    | (with_reducible exact OutWf.fault)
    | (with_reducible exact OutWf.refused)
    | dsimp only
    | split
    | (with_reducible apply foldl_wf <;> [intro _ _ _; skip])
    | (with_reducible apply getD_map_wf <;> [intro _; skip])
    | (with_reducible apply elim_wf <;> [intro _; skip])
    | (with_reducible apply getD_wf)
    | (with_reducible apply foldl_wf1 <;> [intro _ _ _; skip])
    | (with_reducible apply OptWf.of; assumption)
    | (with_reducible apply AllocWf.placed; assumption)
    | (with_reducible apply AllocWf.waits; assumption)
    | (with_reducible apply State.allocate_wf)
    | (with_reducible apply State.actRow_wf)
    | (with_reducible apply MoveWf.of_ok; assumption)
    | (with_reducible apply MoveWf.of_wait; assumption)
    | (with_reducible apply MoveWf.of_fault; assumption)
    | (with_reducible apply MoveWf.bind <;> [skip; intro _ _])
    | (with_reducible apply OptWf.findSome; intro _)
    | (with_reducible apply OptWf.map; intro _ _)
    | (intro _ _)
    | (with_reducible apply Memory.wf_filter)
    | (with_reducible apply State.write_wf)
    | (with_reducible apply State.writeAt_wf)
    | (with_reducible apply State.writeNat_wf)

theorem State.parkSpoiled_wf (s : State) (id : Nat) (o : MemOp) (h : Memory.wf s.mem = true) : Memory.wf (State.parkSpoiled s id o).mem = true := by
  unfold State.parkSpoiled
  repeat' first
    | (with_reducible assumption)
    | (with_reducible exact trivial)
    | rw [State.dropOp_mem]
    | rw [State.modLive_mem]
    | rw [State.parkPre_mem]
    | (with_reducible apply Move.bind_wf)
    | (with_reducible apply State.atomic_wf)
    | (with_reducible apply MoveWf.ok)
    | (with_reducible apply MoveWf.wait)
    | (with_reducible apply MoveWf.fault)
    | (with_reducible apply OptWf.some)
    | (with_reducible exact OptWf.none)
    | (with_reducible apply OutWf.next)
    | (with_reducible exact OutWf.fault)
    | (with_reducible exact OutWf.refused)
    | dsimp only
    | split
    | (with_reducible apply foldl_wf <;> [intro _ _ _; skip])
    | (with_reducible apply getD_map_wf <;> [intro _; skip])
    | (with_reducible apply elim_wf <;> [intro _; skip])
    | (with_reducible apply getD_wf)
    | (with_reducible apply foldl_wf1 <;> [intro _ _ _; skip])
    | (with_reducible apply OptWf.of; assumption)
    | (with_reducible apply AllocWf.placed; assumption)
    | (with_reducible apply AllocWf.waits; assumption)
    | (with_reducible apply State.allocate_wf)
    | (with_reducible apply State.actRow_wf)
    | (with_reducible apply MoveWf.of_ok; assumption)
    | (with_reducible apply MoveWf.of_wait; assumption)
    | (with_reducible apply MoveWf.of_fault; assumption)
    | (with_reducible apply MoveWf.bind <;> [skip; intro _ _])
    | (with_reducible apply OptWf.findSome; intro _)
    | (with_reducible apply OptWf.map; intro _ _)
    | (intro _ _)
    | (with_reducible apply Memory.wf_filter)
    | (with_reducible apply State.write_wf)
    | (with_reducible apply State.writeAt_wf)
    | (with_reducible apply State.writeNat_wf)

theorem State.lateDrop_wf (s : State) (id : Nat) (o : MemOp) (h : Memory.wf s.mem = true) : Memory.wf (State.lateDrop s id o).mem = true := by
  unfold State.lateDrop
  repeat' first
    | (with_reducible assumption)
    | (with_reducible exact trivial)
    | rw [State.dropOp_mem]
    | (with_reducible apply State.logFault_wf)
    | (with_reducible apply MoveWf.ok)
    | (with_reducible apply MoveWf.wait)
    | (with_reducible apply MoveWf.fault)
    | (with_reducible apply OptWf.some)
    | (with_reducible exact OptWf.none)
    | (with_reducible apply OutWf.next)
    | (with_reducible exact OutWf.fault)
    | (with_reducible exact OutWf.refused)
    | dsimp only
    | split
    | (with_reducible apply foldl_wf <;> [intro _ _ _; skip])
    | (with_reducible apply getD_map_wf <;> [intro _; skip])
    | (with_reducible apply elim_wf <;> [intro _; skip])
    | (with_reducible apply getD_wf)
    | (with_reducible apply foldl_wf1 <;> [intro _ _ _; skip])
    | (with_reducible apply OptWf.of; assumption)
    | (with_reducible apply AllocWf.placed; assumption)
    | (with_reducible apply AllocWf.waits; assumption)
    | (with_reducible apply State.allocate_wf)
    | (with_reducible apply State.actRow_wf)
    | (with_reducible apply MoveWf.of_ok; assumption)
    | (with_reducible apply MoveWf.of_wait; assumption)
    | (with_reducible apply MoveWf.of_fault; assumption)
    | (with_reducible apply MoveWf.bind <;> [skip; intro _ _])
    | (with_reducible apply OptWf.findSome; intro _)
    | (with_reducible apply OptWf.map; intro _ _)
    | (intro _ _)
    | (with_reducible apply Memory.wf_filter)
    | (with_reducible apply State.write_wf)
    | (with_reducible apply State.writeAt_wf)
    | (with_reducible apply State.writeNat_wf)

theorem State.finishOp_wf (s : State) (id : Nat) (h : Memory.wf s.mem = true) : Memory.wf (State.finishOp s id).mem = true := by
  unfold State.finishOp
  repeat' first
    | (with_reducible assumption)
    | (with_reducible exact trivial)
    | rw [State.dropOp_mem]
    | rw [State.modLive_mem]
    | rw [State.modOp_mem]
    | rw [State.post_mem]
    | (with_reducible apply State.lateDrop_wf)
    | (with_reducible apply State.parkOp_wf)
    | (with_reducible apply State.parkSpoiled_wf)
    | (with_reducible apply State.rewindOp_wf)
    | (with_reducible apply MoveWf.ok)
    | (with_reducible apply MoveWf.wait)
    | (with_reducible apply MoveWf.fault)
    | (with_reducible apply OptWf.some)
    | (with_reducible exact OptWf.none)
    | (with_reducible apply OutWf.next)
    | (with_reducible exact OutWf.fault)
    | (with_reducible exact OutWf.refused)
    | dsimp only
    | split
    | (with_reducible apply foldl_wf <;> [intro _ _ _; skip])
    | (with_reducible apply getD_map_wf <;> [intro _; skip])
    | (with_reducible apply elim_wf <;> [intro _; skip])
    | (with_reducible apply getD_wf)
    | (with_reducible apply foldl_wf1 <;> [intro _ _ _; skip])
    | (with_reducible apply OptWf.of; assumption)
    | (with_reducible apply AllocWf.placed; assumption)
    | (with_reducible apply AllocWf.waits; assumption)
    | (with_reducible apply State.allocate_wf)
    | (with_reducible apply State.actRow_wf)
    | (with_reducible apply MoveWf.of_ok; assumption)
    | (with_reducible apply MoveWf.of_wait; assumption)
    | (with_reducible apply MoveWf.of_fault; assumption)
    | (with_reducible apply MoveWf.bind <;> [skip; intro _ _])
    | (with_reducible apply OptWf.findSome; intro _)
    | (with_reducible apply OptWf.map; intro _ _)
    | (intro _ _)
    | (with_reducible apply Memory.wf_filter)
    | (with_reducible apply State.write_wf)
    | (with_reducible apply State.writeAt_wf)
    | (with_reducible apply State.writeNat_wf)

theorem State.failLanes_wf (s : State) (id : Nat) (lanes : List Nat) (cls : Nat) (finfo : Dword) (h : Memory.wf s.mem = true) : Memory.wf (State.failLanes s id lanes cls finfo).mem = true := by
  unfold State.failLanes
  repeat' first
    | (with_reducible assumption)
    | (with_reducible exact trivial)
    | rw [State.modOp_mem]
    | (with_reducible apply State.finishOp_wf)
    | (with_reducible apply MoveWf.ok)
    | (with_reducible apply MoveWf.wait)
    | (with_reducible apply MoveWf.fault)
    | (with_reducible apply OptWf.some)
    | (with_reducible exact OptWf.none)
    | (with_reducible apply OutWf.next)
    | (with_reducible exact OutWf.fault)
    | (with_reducible exact OutWf.refused)
    | dsimp only
    | split
    | (with_reducible apply foldl_wf <;> [intro _ _ _; skip])
    | (with_reducible apply getD_map_wf <;> [intro _; skip])
    | (with_reducible apply elim_wf <;> [intro _; skip])
    | (with_reducible apply getD_wf)
    | (with_reducible apply foldl_wf1 <;> [intro _ _ _; skip])
    | (with_reducible apply OptWf.of; assumption)
    | (with_reducible apply AllocWf.placed; assumption)
    | (with_reducible apply AllocWf.waits; assumption)
    | (with_reducible apply State.allocate_wf)
    | (with_reducible apply State.actRow_wf)
    | (with_reducible apply MoveWf.of_ok; assumption)
    | (with_reducible apply MoveWf.of_wait; assumption)
    | (with_reducible apply MoveWf.of_fault; assumption)
    | (with_reducible apply MoveWf.bind <;> [skip; intro _ _])
    | (with_reducible apply OptWf.findSome; intro _)
    | (with_reducible apply OptWf.map; intro _ _)
    | (intro _ _)
    | (with_reducible apply Memory.wf_filter)
    | (with_reducible apply State.write_wf)
    | (with_reducible apply State.writeAt_wf)
    | (with_reducible apply State.writeNat_wf)

theorem State.modCopy_mem (s : State) (core : Nat) (line : Nat) (f : CacheCopy → CacheCopy) : (State.modCopy s core line f).mem = s.mem := by
  unfold State.modCopy
  repeat' first
    | (with_reducible rfl)
    | rw [State.setCache_mem]
    | dsimp only
    | split
    | (refine foldl_mem _ ?_ _ _ |>.trans ?_ <;> [intro _ _; skip])
    | (with_reducible apply getD_map_mem <;> [intro _; skip])
    | (with_reducible apply elim_mem <;> [intro _; skip])
    | (refine foldl_mem1 _ ?_ _ _ |>.trans ?_ <;> [intro _ _; skip])

theorem State.checkIn_mem (s : State) (core : Nat) (c : CacheCopy) (extra : List Nat) : (State.checkIn s core c extra).mem = s.mem := by
  unfold State.checkIn
  repeat' first
    | (with_reducible rfl)
    | rw [State.post_mem]
    | rw [State.setCache_mem]
    | dsimp only
    | split
    | (refine foldl_mem _ ?_ _ _ |>.trans ?_ <;> [intro _ _; skip])
    | (with_reducible apply getD_map_mem <;> [intro _; skip])
    | (with_reducible apply elim_mem <;> [intro _; skip])
    | (refine foldl_mem1 _ ?_ _ _ |>.trans ?_ <;> [intro _ _; skip])

theorem State.checkInAll_mem (s : State) (core : Nat) (extra : List Nat) : (State.checkInAll s core extra).mem = s.mem := by
  unfold State.checkInAll
  repeat' first
    | (with_reducible rfl)
    | rw [State.checkIn_mem]
    | dsimp only
    | split
    | (refine foldl_mem _ ?_ _ _ |>.trans ?_ <;> [intro _ _; skip])
    | (with_reducible apply getD_map_mem <;> [intro _; skip])
    | (with_reducible apply elim_mem <;> [intro _; skip])
    | (refine foldl_mem1 _ ?_ _ _ |>.trans ?_ <;> [intro _ _; skip])

theorem State.giveBack_mem (s : State) (core : Nat) (c : CacheCopy) : (State.giveBack s core c).mem = s.mem := by
  unfold State.giveBack
  repeat' first
    | (with_reducible rfl)
    | rw [State.checkIn_mem]
    | rw [State.post_mem]
    | rw [State.setCache_mem]
    | dsimp only
    | split
    | (refine foldl_mem _ ?_ _ _ |>.trans ?_ <;> [intro _ _; skip])
    | (with_reducible apply getD_map_mem <;> [intro _; skip])
    | (with_reducible apply elim_mem <;> [intro _; skip])
    | (refine foldl_mem1 _ ?_ _ _ |>.trans ?_ <;> [intro _ _; skip])

theorem State.sendWindow_mem (s : State) (id : Nat) (o : MemOp) (x : Placed) (atom : Option Atom) : (State.sendWindow s id o x atom).mem = s.mem := by
  unfold State.sendWindow
  repeat' first
    | (with_reducible rfl)
    | rw [State.modOp_mem]
    | rw [State.post_mem]
    | dsimp only
    | split
    | (refine foldl_mem _ ?_ _ _ |>.trans ?_ <;> [intro _ _; skip])
    | (with_reducible apply getD_map_mem <;> [intro _; skip])
    | (with_reducible apply elim_mem <;> [intro _; skip])
    | (refine foldl_mem1 _ ?_ _ _ |>.trans ?_ <;> [intro _ _; skip])

theorem State.giveUp_mem (s : State) (core : Nat) (line : Nat) : (State.giveUp s core line).mem = s.mem := by
  unfold State.giveUp
  repeat' first
    | (with_reducible rfl)
    | rw [State.giveBack_mem]
    | dsimp only
    | split
    | (refine foldl_mem _ ?_ _ _ |>.trans ?_ <;> [intro _ _; skip])
    | (with_reducible apply getD_map_mem <;> [intro _; skip])
    | (with_reducible apply elim_mem <;> [intro _; skip])
    | (refine foldl_mem1 _ ?_ _ _ |>.trans ?_ <;> [intro _ _; skip])

theorem State.sendLoads_mem (s : State) (id : Nat) (o : MemOp) (xs : List Placed) : (State.sendLoads s id o xs).mem = s.mem := by
  unfold State.sendLoads
  repeat' first
    | (with_reducible rfl)
    | rw [State.giveUp_mem]
    | rw [State.landFrom_mem]
    | rw [State.modOp_mem]
    | rw [State.postAll_mem]
    | rw [State.sendWindow_mem]
    | dsimp only
    | split
    | (refine foldl_mem _ ?_ _ _ |>.trans ?_ <;> [intro _ _; skip])
    | (with_reducible apply getD_map_mem <;> [intro _; skip])
    | (with_reducible apply elim_mem <;> [intro _; skip])
    | (refine foldl_mem1 _ ?_ _ _ |>.trans ?_ <;> [intro _ _; skip])

theorem State.sendStore_mem (s : State) (id : Nat) (o : MemOp) (q : HomeReq) : (State.sendStore s id o q).mem = s.mem := by
  unfold State.sendStore
  repeat' first
    | (with_reducible rfl)
    | rw [State.doneLanes_mem]
    | rw [State.giveBack_mem]
    | rw [State.modCopy_mem]
    | rw [State.modLive_mem]
    | rw [State.modOp_mem]
    | rw [State.post_mem]
    | rw [State.send_mem]
    | dsimp only
    | split
    | (refine foldl_mem _ ?_ _ _ |>.trans ?_ <;> [intro _ _; skip])
    | (with_reducible apply getD_map_mem <;> [intro _; skip])
    | (with_reducible apply elim_mem <;> [intro _; skip])
    | (refine foldl_mem1 _ ?_ _ _ |>.trans ?_ <;> [intro _ _; skip])

theorem State.sendStores_mem (s : State) (id : Nat) (o : MemOp) (xs : List Placed) : (State.sendStores s id o xs).mem = s.mem := by
  unfold State.sendStores
  repeat' first
    | (with_reducible rfl)
    | rw [State.sendStore_mem]
    | rw [State.sendWindow_mem]
    | dsimp only
    | split
    | (refine foldl_mem _ ?_ _ _ |>.trans ?_ <;> [intro _ _; skip])
    | (with_reducible apply getD_map_mem <;> [intro _; skip])
    | (with_reducible apply elim_mem <;> [intro _; skip])
    | (refine foldl_mem1 _ ?_ _ _ |>.trans ?_ <;> [intro _ _; skip])

theorem State.sendAtomic_wf (s : State) (id : Nat) (o : MemOp) (x : Placed) (h : Memory.wf s.mem = true) : Memory.wf (State.sendAtomic s id o x).mem = true := by
  unfold State.sendAtomic
  repeat' first
    | (with_reducible assumption)
    | (with_reducible exact trivial)
    | rw [State.giveUp_mem]
    | rw [State.modOp_mem]
    | rw [State.post_mem]
    | rw [State.sendWindow_mem]
    | (with_reducible apply State.atomic_wf)
    | (with_reducible apply MoveWf.ok)
    | (with_reducible apply MoveWf.wait)
    | (with_reducible apply MoveWf.fault)
    | (with_reducible apply OptWf.some)
    | (with_reducible exact OptWf.none)
    | (with_reducible apply OutWf.next)
    | (with_reducible exact OutWf.fault)
    | (with_reducible exact OutWf.refused)
    | dsimp only
    | split
    | (with_reducible apply foldl_wf <;> [intro _ _ _; skip])
    | (with_reducible apply getD_map_wf <;> [intro _; skip])
    | (with_reducible apply elim_wf <;> [intro _; skip])
    | (with_reducible apply getD_wf)
    | (with_reducible apply foldl_wf1 <;> [intro _ _ _; skip])
    | (with_reducible apply OptWf.of; assumption)
    | (with_reducible apply AllocWf.placed; assumption)
    | (with_reducible apply AllocWf.waits; assumption)
    | (with_reducible apply State.allocate_wf)
    | (with_reducible apply State.actRow_wf)
    | (with_reducible apply MoveWf.of_ok; assumption)
    | (with_reducible apply MoveWf.of_wait; assumption)
    | (with_reducible apply MoveWf.of_fault; assumption)
    | (with_reducible apply MoveWf.bind <;> [skip; intro _ _])
    | (with_reducible apply OptWf.findSome; intro _)
    | (with_reducible apply OptWf.map; intro _ _)
    | (intro _ _)
    | (with_reducible apply Memory.wf_filter)
    | (with_reducible apply State.write_wf)
    | (with_reducible apply State.writeAt_wf)
    | (with_reducible apply State.writeNat_wf)

theorem State.sendAtomics_wf (s : State) (id : Nat) (o : MemOp) (xs : List Placed) (h : Memory.wf s.mem = true) : Memory.wf (State.sendAtomics s id o xs).mem = true := by
  unfold State.sendAtomics
  repeat' first
    | (with_reducible assumption)
    | (with_reducible exact trivial)
    | (with_reducible apply State.sendAtomic_wf)
    | (with_reducible apply MoveWf.ok)
    | (with_reducible apply MoveWf.wait)
    | (with_reducible apply MoveWf.fault)
    | (with_reducible apply OptWf.some)
    | (with_reducible exact OptWf.none)
    | (with_reducible apply OutWf.next)
    | (with_reducible exact OutWf.fault)
    | (with_reducible exact OutWf.refused)
    | dsimp only
    | split
    | (with_reducible apply foldl_wf <;> [intro _ _ _; skip])
    | (with_reducible apply getD_map_wf <;> [intro _; skip])
    | (with_reducible apply elim_wf <;> [intro _; skip])
    | (with_reducible apply getD_wf)
    | (with_reducible apply foldl_wf1 <;> [intro _ _ _; skip])
    | (with_reducible apply OptWf.of; assumption)
    | (with_reducible apply AllocWf.placed; assumption)
    | (with_reducible apply AllocWf.waits; assumption)
    | (with_reducible apply State.allocate_wf)
    | (with_reducible apply State.actRow_wf)
    | (with_reducible apply MoveWf.of_ok; assumption)
    | (with_reducible apply MoveWf.of_wait; assumption)
    | (with_reducible apply MoveWf.of_fault; assumption)
    | (with_reducible apply MoveWf.bind <;> [skip; intro _ _])
    | (with_reducible apply OptWf.findSome; intro _)
    | (with_reducible apply OptWf.map; intro _ _)
    | (intro _ _)
    | (with_reducible apply Memory.wf_filter)
    | (with_reducible apply State.write_wf)
    | (with_reducible apply State.writeAt_wf)
    | (with_reducible apply State.writeNat_wf)

theorem State.sendPrefetch_mem (s : State) (id : Nat) (o : MemOp) (x : Placed) : (State.sendPrefetch s id o x).mem = s.mem := by
  unfold State.sendPrefetch
  repeat' first
    | (with_reducible rfl)
    | rw [State.doneLanes_mem]
    | rw [State.post_mem]
    | dsimp only
    | split
    | (refine foldl_mem _ ?_ _ _ |>.trans ?_ <;> [intro _ _; skip])
    | (with_reducible apply getD_map_mem <;> [intro _; skip])
    | (with_reducible apply elim_mem <;> [intro _; skip])
    | (refine foldl_mem1 _ ?_ _ _ |>.trans ?_ <;> [intro _ _; skip])

theorem State.sendLanes_wf (s : State) (id : Nat) (o : MemOp) (xs : List Placed) (h : Memory.wf s.mem = true) : Memory.wf (State.sendLanes s id o xs).mem = true := by
  unfold State.sendLanes
  repeat' first
    | (with_reducible assumption)
    | (with_reducible exact trivial)
    | rw [State.modLive_mem]
    | rw [State.sendLoads_mem]
    | rw [State.sendPrefetch_mem]
    | rw [State.sendStores_mem]
    | (with_reducible apply State.atomic_wf)
    | (with_reducible apply State.sendAtomics_wf)
    | (with_reducible apply State.touchLeaf_wf)
    | (with_reducible apply MoveWf.ok)
    | (with_reducible apply MoveWf.wait)
    | (with_reducible apply MoveWf.fault)
    | (with_reducible apply OptWf.some)
    | (with_reducible exact OptWf.none)
    | (with_reducible apply OutWf.next)
    | (with_reducible exact OutWf.fault)
    | (with_reducible exact OutWf.refused)
    | dsimp only
    | split
    | (with_reducible apply foldl_wf <;> [intro _ _ _; skip])
    | (with_reducible apply getD_map_wf <;> [intro _; skip])
    | (with_reducible apply elim_wf <;> [intro _; skip])
    | (with_reducible apply getD_wf)
    | (with_reducible apply foldl_wf1 <;> [intro _ _ _; skip])
    | (with_reducible apply OptWf.of; assumption)
    | (with_reducible apply AllocWf.placed; assumption)
    | (with_reducible apply AllocWf.waits; assumption)
    | (with_reducible apply State.allocate_wf)
    | (with_reducible apply State.actRow_wf)
    | (with_reducible apply MoveWf.of_ok; assumption)
    | (with_reducible apply MoveWf.of_wait; assumption)
    | (with_reducible apply MoveWf.of_fault; assumption)
    | (with_reducible apply MoveWf.bind <;> [skip; intro _ _])
    | (with_reducible apply OptWf.findSome; intro _)
    | (with_reducible apply OptWf.map; intro _ _)
    | (intro _ _)
    | (with_reducible apply Memory.wf_filter)
    | (with_reducible apply State.write_wf)
    | (with_reducible apply State.writeAt_wf)
    | (with_reducible apply State.writeNat_wf)

theorem State.fillFrame_wf (s : State) (id : Nat) (o : MemOp) (f : Nat) (h : Memory.wf s.mem = true) : Memory.wf (State.fillFrame s id o f).mem = true := by
  unfold State.fillFrame
  repeat' first
    | (with_reducible assumption)
    | (with_reducible exact trivial)
    | rw [State.askWalk_mem]
    | rw [State.doneLanes_mem]
    | rw [State.modLive_mem]
    | (with_reducible apply State.finishOp_wf)
    | (with_reducible apply MoveWf.ok)
    | (with_reducible apply MoveWf.wait)
    | (with_reducible apply MoveWf.fault)
    | (with_reducible apply OptWf.some)
    | (with_reducible exact OptWf.none)
    | (with_reducible apply OutWf.next)
    | (with_reducible exact OutWf.fault)
    | (with_reducible exact OutWf.refused)
    | dsimp only
    | split
    | (with_reducible apply foldl_wf <;> [intro _ _ _; skip])
    | (with_reducible apply getD_map_wf <;> [intro _; skip])
    | (with_reducible apply elim_wf <;> [intro _; skip])
    | (with_reducible apply getD_wf)
    | (with_reducible apply foldl_wf1 <;> [intro _ _ _; skip])
    | (with_reducible apply OptWf.of; assumption)
    | (with_reducible apply AllocWf.placed; assumption)
    | (with_reducible apply AllocWf.waits; assumption)
    | (with_reducible apply State.allocate_wf)
    | (with_reducible apply State.actRow_wf)
    | (with_reducible apply MoveWf.of_ok; assumption)
    | (with_reducible apply MoveWf.of_wait; assumption)
    | (with_reducible apply MoveWf.of_fault; assumption)
    | (with_reducible apply MoveWf.bind <;> [skip; intro _ _])
    | (with_reducible apply OptWf.findSome; intro _)
    | (with_reducible apply OptWf.map; intro _ _)
    | (intro _ _)
    | (with_reducible apply Memory.wf_filter)
    | (with_reducible apply State.write_wf)
    | (with_reducible apply State.writeAt_wf)
    | (with_reducible apply State.writeNat_wf)

theorem State.resendCopy_mem (s : State) (id : Nat) (o : MemOp) (x : LaneOp) : (State.resendCopy s id o x).mem = s.mem := by
  unfold State.resendCopy
  repeat' first
    | (with_reducible rfl)
    | rw [State.modOp_mem]
    | rw [State.post_mem]
    | dsimp only
    | split
    | (refine foldl_mem _ ?_ _ _ |>.trans ?_ <;> [intro _ _; skip])
    | (with_reducible apply getD_map_mem <;> [intro _; skip])
    | (with_reducible apply elim_mem <;> [intro _; skip])
    | (refine foldl_mem1 _ ?_ _ _ |>.trans ?_ <;> [intro _ _; skip])

theorem State.tryOp_wf (s : State) (id : Nat) (h : Memory.wf s.mem = true) : Memory.wf (State.tryOp s id).mem = true := by
  unfold State.tryOp
  repeat' first
    | (with_reducible assumption)
    | (with_reducible exact trivial)
    | rw [State.askWalk_mem]
    | rw [State.doneLanes_mem]
    | rw [State.modOp_mem]
    | rw [State.resendCopy_mem]
    | (with_reducible apply State.fillFrame_wf)
    | (with_reducible apply State.finishOp_wf)
    | (with_reducible apply State.sendLanes_wf)
    | (with_reducible apply MoveWf.ok)
    | (with_reducible apply MoveWf.wait)
    | (with_reducible apply MoveWf.fault)
    | (with_reducible apply OptWf.some)
    | (with_reducible exact OptWf.none)
    | (with_reducible apply OutWf.next)
    | (with_reducible exact OutWf.fault)
    | (with_reducible exact OutWf.refused)
    | dsimp only
    | split
    | (with_reducible apply foldl_wf <;> [intro _ _ _; skip])
    | (with_reducible apply getD_map_wf <;> [intro _; skip])
    | (with_reducible apply elim_wf <;> [intro _; skip])
    | (with_reducible apply getD_wf)
    | (with_reducible apply foldl_wf1 <;> [intro _ _ _; skip])
    | (with_reducible apply OptWf.of; assumption)
    | (with_reducible apply AllocWf.placed; assumption)
    | (with_reducible apply AllocWf.waits; assumption)
    | (with_reducible apply State.allocate_wf)
    | (with_reducible apply State.actRow_wf)
    | (with_reducible apply MoveWf.of_ok; assumption)
    | (with_reducible apply MoveWf.of_wait; assumption)
    | (with_reducible apply MoveWf.of_fault; assumption)
    | (with_reducible apply MoveWf.bind <;> [skip; intro _ _])
    | (with_reducible apply OptWf.findSome; intro _)
    | (with_reducible apply OptWf.map; intro _ _)
    | (intro _ _)
    | (with_reducible apply Memory.wf_filter)
    | (with_reducible apply State.write_wf)
    | (with_reducible apply State.writeAt_wf)
    | (with_reducible apply State.writeNat_wf)

theorem State.startOp_wf (s : State) (o' : MemOp) (h : Memory.wf s.mem = true) : Memory.wf (State.startOp s o').mem = true := by
  unfold State.startOp
  repeat' first
    | (with_reducible assumption)
    | (with_reducible exact trivial)
    | rw [State.modLive_mem]
    | (with_reducible apply State.tryOp_wf)
    | (with_reducible apply MoveWf.ok)
    | (with_reducible apply MoveWf.wait)
    | (with_reducible apply MoveWf.fault)
    | (with_reducible apply OptWf.some)
    | (with_reducible exact OptWf.none)
    | (with_reducible apply OutWf.next)
    | (with_reducible exact OutWf.fault)
    | (with_reducible exact OutWf.refused)
    | dsimp only
    | split
    | (with_reducible apply foldl_wf <;> [intro _ _ _; skip])
    | (with_reducible apply getD_map_wf <;> [intro _; skip])
    | (with_reducible apply elim_wf <;> [intro _; skip])
    | (with_reducible apply getD_wf)
    | (with_reducible apply foldl_wf1 <;> [intro _ _ _; skip])
    | (with_reducible apply OptWf.of; assumption)
    | (with_reducible apply AllocWf.placed; assumption)
    | (with_reducible apply AllocWf.waits; assumption)
    | (with_reducible apply State.allocate_wf)
    | (with_reducible apply State.actRow_wf)
    | (with_reducible apply MoveWf.of_ok; assumption)
    | (with_reducible apply MoveWf.of_wait; assumption)
    | (with_reducible apply MoveWf.of_fault; assumption)
    | (with_reducible apply MoveWf.bind <;> [skip; intro _ _])
    | (with_reducible apply OptWf.findSome; intro _)
    | (with_reducible apply OptWf.map; intro _ _)
    | (intro _ _)
    | (with_reducible apply Memory.wf_filter)
    | (with_reducible apply State.write_wf)
    | (with_reducible apply State.writeAt_wf)
    | (with_reducible apply State.writeNat_wf)

theorem State.dropWalk_mem (s : State) (id : Nat) (o : MemOp) (lanes : List Nat) : (State.dropWalk s id o lanes).mem = s.mem := by
  unfold State.dropWalk
  repeat' first
    | (with_reducible rfl)
    | rw [State.doneLanes_mem]
    | rw [State.modLive_mem]
    | dsimp only
    | split
    | (refine foldl_mem _ ?_ _ _ |>.trans ?_ <;> [intro _ _; skip])
    | (with_reducible apply getD_map_mem <;> [intro _; skip])
    | (with_reducible apply elim_mem <;> [intro _; skip])
    | (refine foldl_mem1 _ ?_ _ _ |>.trans ?_ <;> [intro _ _; skip])

theorem State.walkFails_mem (s : State) (id : Nat) (k : WalkKey) (e : WalkEnd) : (State.walkFails s id k e).mem = s.mem := by
  unfold State.walkFails
  repeat' first
    | (with_reducible rfl)
    | rw [State.dropWalk_mem]
    | rw [State.enterBuffer_mem]
    | rw [State.joinMig_mem]
    | rw [State.modOp_mem]
    | dsimp only
    | split
    | (refine foldl_mem _ ?_ _ _ |>.trans ?_ <;> [intro _ _; skip])
    | (with_reducible apply getD_map_mem <;> [intro _; skip])
    | (with_reducible apply elim_mem <;> [intro _; skip])
    | (refine foldl_mem1 _ ?_ _ _ |>.trans ?_ <;> [intro _ _; skip])

end Sys2Proof.Machine
end

