-- ==== Sys2Proof/Laws/MemRegisters.lean ====
section
/-! SUPPORT. What each operation of Registers.lean does to memory: nothing, or it keeps the canonical form. -/

set_option linter.all false

namespace Sys2Proof.Machine

theorem State.csrStore_mem (s : State) (num : Nat) (inst : Nat) (v : Dword) : (State.csrStore s num inst v).mem = s.mem := by
  unfold State.csrStore
  repeat' first
    | (with_reducible rfl)
    | rw [State.csrPut_mem]
    | dsimp only
    | split
    | (refine foldl_mem _ ?_ _ _ |>.trans ?_ <;> [intro _ _; skip])
    | (with_reducible apply getD_map_mem <;> [intro _; skip])
    | (with_reducible apply elim_mem <;> [intro _; skip])
    | (refine foldl_mem1 _ ?_ _ _ |>.trans ?_ <;> [intro _ _; skip])

theorem State.latch_mem (s : State) (src : Nat) : (State.latch s src).mem = s.mem := by
  unfold State.latch
  repeat' first
    | (with_reducible rfl)
    | rw [State.csrPut_mem]
    | dsimp only
    | split
    | (refine foldl_mem _ ?_ _ _ |>.trans ?_ <;> [intro _ _; skip])
    | (with_reducible apply getD_map_mem <;> [intro _; skip])
    | (with_reducible apply elim_mem <;> [intro _; skip])
    | (refine foldl_mem1 _ ?_ _ _ |>.trans ?_ <;> [intro _ _; skip])

theorem State.snapTrigger_mem (s : State) (src : Nat) (bit : Nat) : (State.snapTrigger s src bit).mem = s.mem := by
  unfold State.snapTrigger
  repeat' first
    | (with_reducible rfl)
    | rw [State.latch_mem]
    | dsimp only
    | split
    | (refine foldl_mem _ ?_ _ _ |>.trans ?_ <;> [intro _ _; skip])
    | (with_reducible apply getD_map_mem <;> [intro _; skip])
    | (with_reducible apply elim_mem <;> [intro _; skip])
    | (refine foldl_mem1 _ ?_ _ _ |>.trans ?_ <;> [intro _ _; skip])

theorem State.snapNext_mem (s : State) : (State.snapNext s).mem = s.mem := by
  unfold State.snapNext
  repeat' first
    | (with_reducible rfl)
    | rw [State.csrPut_mem]
    | dsimp only
    | split
    | (refine foldl_mem _ ?_ _ _ |>.trans ?_ <;> [intro _ _; skip])
    | (with_reducible apply getD_map_mem <;> [intro _; skip])
    | (with_reducible apply elim_mem <;> [intro _; skip])
    | (refine foldl_mem1 _ ?_ _ _ |>.trans ?_ <;> [intro _ _; skip])

end Sys2Proof.Machine
end

