-- ==== Sys2Proof/Laws/MemDispatch.lean ====
section
/-! SUPPORT. What each operation of Dispatch.lean does to memory: nothing, or it keeps the canonical form. -/

set_option linter.all false

namespace Sys2Proof.Machine

/-- Every instruction and every event keeps the canonical form of memory. -/
theorem exec_wf (i : Instr) (s : State) (h : Memory.wf s.mem = true) : OutWf (exec i s) :=
  match i with
  | .add d p a q b => execAdd_wf d p a q b s h
  | .sub d p a q b => execSub_wf d p a q b s h
  | .addc d p a q b => execAddc_wf d p a q b s h
  | .subb d p a q b => execSubb_wf d p a q b s h
  | .mul d p a q b => execMul_wf d p a q b s h
  | .mulh d p a q b => execMulh_wf d p a q b s h
  | .absd d p a q b => execAbsd_wf d p a q b s h
  | .avg d p a q b => execAvg_wf d p a q b s h
  | .min d p a q b => execMin_wf d p a q b s h
  | .max d p a q b => execMax_wf d p a q b s h
  | .satadd d p a q b => execSatadd_wf d p a q b s h
  | .satsub d p a q b => execSatsub_wf d p a q b s h
  | .and d p a q b => execAnd_wf d p a q b s h
  | .or d p a q b => execOr_wf d p a q b s h
  | .xor d p a q b => execXor_wf d p a q b s h
  | .andn d p a q b => execAndn_wf d p a q b s h
  | .orn d p a q b => execOrn_wf d p a q b s h
  | .rol d p a q b => execRol_wf d p a q b s h
  | .fshr d p a q b => execFshr_wf d p a q b s h
  | .shl d p a q b => execShl_wf d p a q b s h
  | .shr d p a q b => execShr_wf d p a q b s h
  | .sar d p a q b => execSar_wf d p a q b s h
  | .popc d p a => execPopc_wf d p a s h
  | .clz d p a => execClz_wf d p a s h
  | .ctz d p a => execCtz_wf d p a s h
  | .brev d p a => execBrev_wf d p a s h
  | .bfx d p a q b => execBfx_wf d p a q b s h
  | .bmsk d p a q b => execBmsk_wf d p a q b s h
  | .cmp c kd p a q b => execCmp_wf c kd p a q b s h
  | .scmp c p a q b => execScmp_wf c p a q b s h
  | .selK03 d p a q b m => execSelK03_wf d p a q b m s h
  | .selK47 d p a q b m => execSelK47_wf d p a q b m s h
  | .fadd d p a q b => execFadd_wf d p a q b s h
  | .fsub d p a q b => execFsub_wf d p a q b s h
  | .fmul d p a q b => execFmul_wf d p a q b s h
  | .fmin d p a q b => execFmin_wf d p a q b s h
  | .fmax d p a q b => execFmax_wf d p a q b s h
  | .fscale d p a q b => execFscale_wf d p a q b s h
  | .fneg d p a => execFneg_wf d p a s h
  | .fabs d p a => execFabs_wf d p a s h
  | .ffract d p a => execFfract_wf d p a s h
  | .fclass d p a => execFclass_wf d p a s h
  | .frnd d p a r => execFrnd_wf d p a r s h
  | .fcmp c kd p a q b => execFcmp_wf c kd p a q b s h
  | .cvt d p a t rz => execCvt_wf d p a t rz s h
  | .pack d p a q b => execPack_wf d p a q b s h
  | .unpk d p a q b => execUnpk_wf d p a q b s h
  | .sat d p a => execSat_wf d p a s h
  | .shfl d p a q b m => execShfl_wf d p a q b m s h
  | .qxh d p a => execQxh_wf d p a s h
  | .qxv d p a => execQxv_wf d p a s h
  | .qxd d p a => execQxd_wf d p a s h
  | .qbc d p a n => execQbc_wf d p a n s h
  | .qswz d p a hi6 lo2 => execQswz_wf d p a hi6 lo2 s h
  | .wred d p a op => execWred_wf d p a op s h
  | .wscan d p a op excl => execWscan_wf d p a op excl s h
  | .kand kd ka kb => execKand_wf kd ka kb s h
  | .kor kd ka kb => execKor_wf kd ka kb s h
  | .kxor kd ka kb => execKxor_wf kd ka kb s h
  | .kandn kd ka kb => execKandn_wf kd ka kb s h
  | .knot kd ka => execKnot_wf kd ka s h
  | .kmov kd ka => execKmov_wf kd ka s h
  | .kpopc d ka => execKpopc_wf d ka s h
  | .kffs d ka => execKffs_wf d ka s h
  | .exmrd kd => execExmrd_wf kd s h
  | .exmwr ka => execExmwr_wf ka s h
  | .mov d p a => execMov_wf d p a s h
  | .sread d n => execSread_wf d n s h
  | .hlprd d p a => execHlprd_wf d p a s h
  | .fma d a b c p => execFma_wf d a b c p s h
  | .fms d a b c p => execFms_wf d a b c p s h
  | .fnma d a b c p => execFnma_wf d a b c p s h
  | .mad d a b c p => execMad_wf d a b c p s h
  | .madh d a b c p => execMadh_wf d a b c p s h
  | .bfi d a b c p => execBfi_wf d a b c p s h
  | .dot4 d a b c p => execDot4_wf d a b c p s h
  | .fdot2 d a b c p => execFdot2_wf d a b c p s h
  | .lerp d a b c p => execLerp_wf d a b c p s h
  | .clamp d a b c p => execClamp_wf d a b c p s h
  | .ld d a f sz ch la => execLd_wf d a f sz ch la s h
  | .st d a f sz ch la => execSt_wf d a f sz ch la s h
  | .ldl d a sz la => execLdl_wf d a sz la s h
  | .stl d a sz la => execStl_wf d a sz la s h
  | .prf flt a f sz ch la => execPrf_wf flt a f sz ch la s h
  | .ldAcq d a f sz sc la => execLdAcq_wf d a f sz sc la s h
  | .stRel d a f sz sc la => execStRel_wf d a f sz sc la s h
  | .aadd d a f sc o la => execAadd_wf d a f sc o la s h
  | .amin d a f sc o la => execAmin_wf d a f sc o la s h
  | .amax d a f sc o la => execAmax_wf d a f sc o la s h
  | .aand d a f sc o la => execAand_wf d a f sc o la s h
  | .aor d a f sc o la => execAor_wf d a f sc o la s h
  | .axor d a f sc o la => execAxor_wf d a f sc o la s h
  | .axchg d a f sc o la => execAxchg_wf d a f sc o la s h
  | .acas d a f sc o la => execAcas_wf d a f sc o la s h
  | .afadd d a f sc o la => execAfadd_wf d a f sc o la s h
  | .ainc d a f sc o la => execAinc_wf d a f sc o la s h
  | .fence sc la => execFence_wf sc la s h
  | .fencex dir la => execFencex_wf dir la s h
  | .wait n c la => execWait_wf n c la s h
  | .xlb a f la => execXlb_wf a f la s h
  | .xinv a sc la => execXinv_wf a sc la s h
  | .fdiv d a b la => execFdiv_wf d a b la s h
  | .fsqrt d a la => execFsqrt_wf d a la s h
  | .frcp d a la => execFrcp_wf d a la s h
  | .frsq d a la => execFrsq_wf d a la s h
  | .fexp2 d a la => execFexp2_wf d a la s h
  | .flog2 d a la => execFlog2_wf d a la s h
  | .fsin d a la => execFsin_wf d a la s h
  | .fcos d a la => execFcos_wf d a la s h
  | .idiv d a b la => execIdiv_wf d a b la s h
  | .irem d a b la => execIrem_wf d a b la s h
  | .cpy d a f ch la => execCpy_wf d a f ch la s h
  | .cpymc d a f mask la => execCpymc_wf d a f mask la s h
  | .cpyst g a f ch la => execCpyst_wf g a f ch la s h
  | .cpyg d a f ch la => execCpyg_wf d a f ch la s h
  | .cpys d a la => execCpys_wf d a la s h
  | .cpyp d a f g ch la => execCpyp_wf d a f g ch la s h
  | .cpyq d a f g ch la => execCpyq_wf d a f g ch la s h
  | .mma d a z c la => execMma_wf d a z c la s h
  | .mmas d a z c la => execMmas_wf d a z c la s h
  | .mmab d a z c la => execMmab_wf d a z c la s h
  | .comp a c la => execComp_wf a c la s h
  | .plnw a sel c la => execPlnw_wf a sel c la s h
  | .plnr a sel c la => execPlnr_wf a sel c la s h
  | .accz d n la => execAccz_wf d n la s h
  | .accld d a la => execAccld_wf d a la s h
  | .accst d a la => execAccst_wf d a la s h
  | .accrd d a r la => execAccrd_wf d a r la s h
  | .accwr d a r la => execAccwr_wf d a r la s h
  | .mxtokAcq la => execMxtokAcq_wf la s h
  | .mxtokRel la => execMxtokRel_wf la s h
  | .mxtokPass w la => execMxtokPass_wf w la s h
  | .bar b la => execBar_wf b la s h
  | .sstep la => execSstep_wf la s h
  | .rnga d g la => execRnga_wf d g la s h
  | .rngc a g la => execRngc_wf a g la s h
  | .rngw d g la => execRngw_wf d g la s h
  | .rngf a g la => execRngf_wf a g la s h
  | .yieldc n off la => execYieldc_wf n off la s h
  | .enq a la => execEnq_wf a la s h
  | .enqd a la => execEnqd_wf a la s h
  | .movh d imm => execMovh_wf d imm s h
  | .br m c off => execBr_wf m c off s h
  | .call off => execCall_wf off s h
  | .sigchk x => execSigchk_wf x s h
  | .addi d a imm => execAddi_wf d a imm s h
  | .andi d a imm => execAndi_wf d a imm s h
  | .ori d a imm => execOri_wf d a imm s h
  | .xori d a imm => execXori_wf d a imm s h
  | .shli d a c => execShli_wf d a c s h
  | .shri d a c => execShri_wf d a c s h
  | .sari d a c => execSari_wf d a c s h
  | .cmpi c kd a imm => execCmpi_wf c kd a imm s h
  | .movi d imm => execMovi_wf d imm s h
  | .ldc d a imm => execLdc_wf d a imm s h
  | .callr a => execCallr_wf a s h
  | .callg slot => execCallg_wf slot s h
  | .ret => execRet_wf  s h
  | .enter n => execEnter_wf n s h
  | .exit => execExit_wf  s h
  | .jmpr a => execJmpr_wf a s h
  | .mpush k => execMpush_wf k s h
  | .melse => execMelse_wf  s h
  | .mpop => execMpop_wf  s h
  | .setm a => execSetm_wf a s h
  | .setmf f v => execSetmf_wf f v s h
  | .getm d => execGetm_wf d s h
  | .regn => execRegn_wf  s h
  | .nop => execNop_wf  s h
  | .bkpt c => execBkpt_wf c s h
  | .trap c => execTrap_wf c s h
  | .esc x y z => execEsc_wf x y z s h
  | .prld d a => execPrld_wf d a s h
  | .prst d a => execPrst_wf d a s h
  | .prreg d a => execPrreg_wf d a s h
  | .pwreg d a => execPwreg_wf d a s h
  | .presume a => execPresume_wf a s h
  | .pretry a => execPretry_wf a s h
  | .predir d a => execPredir_wf d a s h
  | .pkill a => execPkill_wf a s h
  | .prplay a => execPrplay_wf a s h
  | .snap x => execSnap_wf x s h
  | .reord d a => execReord_wf d a s h
  | .ptld d a n => execPtld_wf d a n s h
  | .rgset d a e => execRgset_wf d a e s h
  | .krepl d a => execKrepl_wf d a s h
  | .csrr d a => execCsrr_wf d a s h
  | .csrw d a => execCsrw_wf d a s h
  | .unassignedWord w => execUnassignedWord_wf w s h
  | .contextSaveComplete die => execContextSaveComplete_wf die s h
  | .walkComplete k => execWalkComplete_wf k s h
  | .recordWritten p => execRecordWritten_wf p s h
  | .lateFault op lanes cls finfo => execLateFault_wf op lanes cls finfo s h
  | .migrationTake die => execMigrationTake_wf die s h
  | .migrationDrained die id => execMigrationDrained_wf die id s h
  | .migrationCopyDone die id how => execMigrationCopyDone_wf die id how s h
  | .rds r => execRds_wf r s h
  | .rdnc r => execRdnc_wf r s h
  | .wr r => execWr_wf r s h
  | .wrnc r => execWrnc_wf r s h
  | .atom r => execAtom_wf r s h
  | .ckout r => execCkout_wf r s h
  | .ckin r => execCkin_wf r s h
  | .drop r => execDrop_wf r s h
  | .wback r => execWback_wf r s h
  | .iack core line home => execIack_wf core line home s h
  | .rcld core line data poison => execRcld_wf core line data poison s h
  | .birsp line data poisoned => execBirsp_wf line data poisoned s h
  | .lhpass line => execLhpass_wf line s h
  | .inv core line home => execInv_wf core line home s h
  | .upd core line home bytes => execUpd_wf core line home bytes s h
  | .recall core line => execRecall_wf core line s h
  | .dataS r => execDataS_wf r s h
  | .dataX r => execDataX_wf r s h
  | .dataC r => execDataC_wf r s h
  | .ack r => execAck_wf r s h
  | .ackData r => execAckData_wf r s h
  | .cCopyExpiry core line => execCCopyExpiry_wf core line s h
  | .fenceGtPass wave => execFenceGtPass_wf wave s h
  | .onchipWindowAccess a => execOnchipWindowAccess_wf a s h
  | .taskPush p => execTaskPush_wf p s h
  | .successorSignal g => execSuccessorSignal_wf g s h
  | .taskDispatch die => execTaskDispatch_wf die s h
  | .objectLoad die task => execObjectLoad_wf die task s h
  | .workgroupPlace die => execWorkgroupPlace_wf die s h
  | .workgroupRetire wg => execWorkgroupRetire_wf wg s h
  | .budgetExhausted task => execBudgetExhausted_wf task s h
  | .taskDeadline task => execTaskDeadline_wf task s h
  | .parkedDeadline die index => execParkedDeadline_wf die index s h
  | .indigoEntry wave => execIndigoEntry_wf wave s h
  | .indigoExit wave => execIndigoExit_wf wave s h
  | .fillComplete wave => execFillComplete_wf wave s h
  | .segmentIssue core => execSegmentIssue_wf core s h
  | .segmentRetire core copy seg => execSegmentRetire_wf core copy seg s h
  | .segmentPark core copy seg => execSegmentPark_wf core copy seg s h
  | .matrixPass core => execMatrixPass_wf core s h
  | .sstepSwap gang => execSstepSwap_wf gang s h
  | .lCopyExpiry core line => execLCopyExpiry_wf core line s h
  | .longLatencyResult op => execLongLatencyResult_wf op s h
  | .xinvComplete op => execXinvComplete_wf op s h
  | .snpinv tag pa => execSnpinv_wf tag pa s h
  | .snpdata tag pa => execSnpdata_wf tag pa s h
  | .registerWrite num inst v => execRegisterWrite_wf num inst v s h
  | .l2modeWrite v by_ => execL2modeWrite_wf v by_ s h
  | .twlogClear die v => execTwlogClear_wf die v s h
  | .prbaseWrite die v => execPrbaseWrite_wf die v s h
  | .siglostClear die => execSiglostClear_wf die s h
  | .mrbaseWrite die v => execMrbaseWrite_wf die v s h
  | .prectlSave die ctx => execPrectlSave_wf die ctx s h
  | .prectlRestore die ctx => execPrectlRestore_wf die ctx s h
  | .ctxbaseWrite die v => execCtxbaseWrite_wf die v s h
  | .tqbaseWrite die v => execTqbaseWrite_wf die v s h
  | .kcfgWrite die v => execKcfgWrite_wf die v s h
  | .snapdataRead => execSnapdataRead_wf  s h
  | .snaphost => execSnaphost_wf  s h
  | .snapGtTrigger => execSnapGtTrigger_wf  s h
  | .snapPeerTrigger => execSnapPeerTrigger_wf  s h
  | .door die slot => execDoor_wf die slot s h
  | .enqSlotFieldWrite die slot off v => execEnqSlotFieldWrite_wf die slot off v s h
  | .quote => execQuote_wf  s h
  | .advsvn => execAdvsvn_wf  s h
  | .revoke => execRevoke_wf  s h
  | .setkey => execSetkey_wf  s h
  | .idkey => execIdkey_wf  s h
  | .scanTestStart die v => execScanTestStart_wf die v s h
  | .scanPatternStart die => execScanPatternStart_wf die s h
  | .scanTestComplete die pass => execScanTestComplete_wf die pass s h
  | .scrubSector die found => execScrubSector_wf die found s h
  | .hostrd tag pa => execHostrd_wf tag pa s h
  | .hostwr tag pa bytes => execHostwr_wf tag pa bytes s h
  | .biconflict line => execBiconflict_wf line s h
  | .biTimeout line => execBiTimeout_wf line s h
  | .snpcur tag pa => execSnpcur_wf tag pa s h
  | .cxlCacheResponse line data poisoned => execCxlCacheResponse_wf line data poisoned s h
  | .hostportTimeout line => execHostportTimeout_wf line s h
  | .tosorFlit port crcOk => execTosorFlit_wf port crcOk s h
  | .tosorTimeout w => execTosorTimeout_wf w s h
  | .gtLockAcquired => execGtLockAcquired_wf  s h
  | .gtLockLost => execGtLockLost_wf  s h
  | .scoreboardSquash core slot => execScoreboardSquash_wf core slot s h
  | .reset trip => execReset_wf trip s h
  | .ochreEntry => execOchreEntry_wf  s h
  | .fullEntry => execFullEntry_wf  s h
  | .degradedEntry failed => execDegradedEntry_wf failed s h
  | .powerOverLimit watts => execPowerOverLimit_wf watts s h
  | .thermalThrottle => execThermalThrottle_wf  s h
  | .thermalTrip => execThermalTrip_wf  s h
  | .d3hotEntry => execD3hotEntry_wf  s h
  | .d3coldEntry => execD3coldEntry_wf  s h
  | .d0Return => execD0Return_wf  s h
  | .powerBelowLimit watts => execPowerBelowLimit_wf watts s h
  | .thermalThrottleEnd => execThermalThrottleEnd_wf  s h
  | .l2FlushComplete => execL2FlushComplete_wf  s h
  | .rgsetDrainComplete => execRgsetDrainComplete_wf  s h

end Sys2Proof.Machine
end

