-- ==== Sys2Proof/Laws/MemAhead.lean ====
section
/-! SUPPORT. What each operation of Ahead.lean does to memory: nothing, or it keeps the canonical form. -/

set_option linter.all false

namespace Sys2Proof.Machine

theorem State.runMiss_mem (s : State) (id : Nat) (va : Dword) : (State.runMiss s id va).mem = s.mem := by
  unfold State.runMiss
  extract_lets core cl w s1
  have h1 : s1.mem = s.mem := State.askWalk_mem ..
  split
  · exact h1
  · split
    · extract_lets e
      rw [State.post_mem, State.setFb_mem]
      exact h1
    · exact h1


theorem fst_mem {m : List Host.Cell} (s : State) (q : Indigo) (h : s.mem = m) : (s, q).1.mem = m := h

theorem State.runAsk_wf (s : State) (id : Nat) (r : Indigo) (f : Frame) (size : Nat) (va : Dword) (h : Memory.wf s.mem = true) : Memory.wf (State.runAsk s id r f size va).mem = true := by
  unfold State.runAsk
  repeat' first
    | (with_reducible assumption)
    | (with_reducible exact trivial)
    | (with_reducible apply State.tryOp_wf)
    | (with_reducible apply MoveWf.ok)
    | (with_reducible apply MoveWf.wait)
    | (with_reducible apply MoveWf.fault)
    | (with_reducible apply OptWf.some)
    | (with_reducible exact OptWf.none)
    | (with_reducible apply OutWf.next)
    | (with_reducible exact OutWf.fault)
    | (with_reducible exact OutWf.refused)
    | dsimp only
    | split
    | (with_reducible apply foldl_wf <;> [intro _ _ _; skip])
    | (with_reducible apply getD_map_wf <;> [intro _; skip])
    | (with_reducible apply elim_wf <;> [intro _; skip])
    | (with_reducible apply getD_wf)
    | (with_reducible apply foldl_wf1 <;> [intro _ _ _; skip])
    | (with_reducible apply OptWf.of; assumption)
    | (with_reducible apply AllocWf.placed; assumption)
    | (with_reducible apply AllocWf.waits; assumption)
    | (with_reducible apply State.allocate_wf)
    | (with_reducible apply State.actRow_wf)
    | (with_reducible apply MoveWf.of_ok; assumption)
    | (with_reducible apply MoveWf.of_wait; assumption)
    | (with_reducible apply MoveWf.of_fault; assumption)
    | (with_reducible apply MoveWf.bind <;> [skip; intro _ _])
    | (with_reducible apply OptWf.findSome; intro _)
    | (with_reducible apply OptWf.map; intro _ _)
    | (intro _ _)
    | (with_reducible apply Memory.wf_filter)
    | (with_reducible apply State.write_wf)
    | (with_reducible apply State.writeAt_wf)
    | (with_reducible apply State.writeNat_wf)

theorem State.runLane_wf (s : State) (id : Nat) (r : Indigo) (f : Frame) (size : Nat) (va : Dword) (h : Memory.wf s.mem = true) : Memory.wf (State.runLane s id r f size va).1.mem = true := by
  unfold State.runLane
  repeat' first
    | (with_reducible assumption)
    | (with_reducible exact trivial)
    | rw [State.runMiss_mem]
    | (with_reducible apply State.runAsk_wf)
    | (with_reducible apply MoveWf.ok)
    | (with_reducible apply MoveWf.wait)
    | (with_reducible apply MoveWf.fault)
    | (with_reducible apply OptWf.some)
    | (with_reducible exact OptWf.none)
    | (with_reducible apply OutWf.next)
    | (with_reducible exact OutWf.fault)
    | (with_reducible exact OutWf.refused)
    | dsimp only
    | split
    | (with_reducible apply foldl_wf <;> [intro _ _ _; skip])
    | (with_reducible apply getD_map_wf <;> [intro _; skip])
    | (with_reducible apply elim_wf <;> [intro _; skip])
    | (with_reducible apply getD_wf)
    | (with_reducible apply foldl_wf1 <;> [intro _ _ _; skip])
    | (with_reducible apply OptWf.of; assumption)
    | (with_reducible apply AllocWf.placed; assumption)
    | (with_reducible apply AllocWf.waits; assumption)
    | (with_reducible apply State.allocate_wf)
    | (with_reducible apply State.actRow_wf)
    | (with_reducible apply MoveWf.of_ok; assumption)
    | (with_reducible apply MoveWf.of_wait; assumption)
    | (with_reducible apply MoveWf.of_fault; assumption)
    | (with_reducible apply MoveWf.bind <;> [skip; intro _ _])
    | (with_reducible apply OptWf.findSome; intro _)
    | (with_reducible apply OptWf.map; intro _ _)
    | (intro _ _)
    | (with_reducible apply Memory.wf_filter)
    | (with_reducible apply State.write_wf)
    | (with_reducible apply State.writeAt_wf)
    | (with_reducible apply State.writeNat_wf)

theorem State.runMem_wf (s : State) (id : Nat) (r : Indigo) (a : Nat) (f : Nat) (size : Nat) (signed : Bool) (dst : Option (Nat × Nat)) (h : Memory.wf s.mem = true) : Memory.wf (State.runMem s id r a f size signed dst).1.mem = true := by
  unfold State.runMem
  repeat' first
    | (with_reducible assumption)
    | (with_reducible exact trivial)
    | (with_reducible apply State.runLane_wf)
    | (with_reducible apply MoveWf.ok)
    | (with_reducible apply MoveWf.wait)
    | (with_reducible apply MoveWf.fault)
    | (with_reducible apply OptWf.some)
    | (with_reducible exact OptWf.none)
    | (with_reducible apply OutWf.next)
    | (with_reducible exact OutWf.fault)
    | (with_reducible exact OutWf.refused)
    | dsimp only
    | split
    | (with_reducible apply foldl_wf <;> [intro _ _ _; skip])
    | (with_reducible apply getD_map_wf <;> [intro _; skip])
    | (with_reducible apply elim_wf <;> [intro _; skip])
    | (with_reducible apply getD_wf)
    | (with_reducible apply foldl_wf1 <;> [intro _ _ _; skip])
    | (with_reducible apply OptWf.of; assumption)
    | (with_reducible apply AllocWf.placed; assumption)
    | (with_reducible apply AllocWf.waits; assumption)
    | (with_reducible apply State.allocate_wf)
    | (with_reducible apply State.actRow_wf)
    | (with_reducible apply MoveWf.of_ok; assumption)
    | (with_reducible apply MoveWf.of_wait; assumption)
    | (with_reducible apply MoveWf.of_fault; assumption)
    | (with_reducible apply MoveWf.bind <;> [skip; intro _ _])
    | (with_reducible apply OptWf.findSome; intro _)
    | (with_reducible apply OptWf.map; intro _ _)
    | (intro _ _)
    | (with_reducible apply Memory.wf_filter)
    | (with_reducible apply State.write_wf)
    | (with_reducible apply State.writeAt_wf)
    | (with_reducible apply State.writeNat_wf)

theorem State.runWalk_mem (s : State) (id : Nat) (r : Indigo) (va : Dword) (lost : Indigo) (x : WalkEnd) : (State.runWalk s id r va lost x).1.mem = s.mem := by
  unfold State.runWalk
  split
  · exact fst_mem _ _ (State.runMiss_mem ..)
  · exact fst_mem _ _ (State.runMiss_mem ..)

theorem State.runLookup_mem (s : State) (id : Nat) (r : Indigo) (va : Dword) (hit : Frame → Indigo) (lost : Indigo) : (State.runLookup s id r va hit lost).1.mem = s.mem := by
  unfold State.runLookup
  split
  · exact fst_mem _ _ rfl
  · exact State.runWalk_mem ..

theorem State.runXlb_mem (s : State) (id : Nat) (r : Indigo) (a : Nat) (f : Nat) : (State.runXlb s id r a f).1.mem = s.mem := by
  generalize e : State.runXlb s id r a f = p
  unfold State.runXlb at e
  dsimp only at e
  split at e
  · cases e
    exact fst_mem _ _ rfl
  · split at e
    · cases e
      exact fst_mem _ _ rfl
    · split at e
      · cases e
        exact fst_mem _ _ rfl
      · cases e
        exact State.runLookup_mem ..

/-- An instruction of a run keeps the canonical form of memory. -/
theorem State.runInstr_wf (s : State) (id : Nat) (r : Indigo) (i : Instr) (p : State × Indigo) (h : Memory.wf s.mem = true)
    (e : State.runInstr s id r i = some p) : Memory.wf p.1.mem = true := by
  unfold State.runInstr at e
  dsimp only at e
  split at e
  · simp only [Option.map_eq_some_iff] at e
    obtain ⟨_, _, rfl⟩ := e
    exact h
  · split at e
    all_goals first
      | (cases e; exact State.runMem_wf _ _ _ _ _ _ _ _ h)
      | (cases e; exact (State.runXlb_mem ..).symm ▸ h)
      | (cases e; exact h)
      | (simp only [Option.map_eq_some_iff] at e; obtain ⟨_, _, rfl⟩ := e; exact h)
      | cases e
      | (split at e
         · cases e
         · cases e; exact h)

theorem State.runStep_wf (s : State) (id : Nat) (r : Indigo) (h : Memory.wf s.mem = true) : Memory.wf (State.runStep s id r).mem = true := by
  unfold State.runStep
  have hx : Memory.wf (s.exitRun id).mem = true := (State.exitRun_mem ..).symm ▸ h
  split
  · exact hx
  · split
    · rw [State.runMiss_mem]
      exact h
    · split
      · exact hx
      · extract_lets o
        split
        · exact hx
        · split
          · exact hx
          · rename_i e
            exact State.runInstr_wf _ _ _ _ _ h e

end Sys2Proof.Machine
end

