-- ==== Sys2Proof/Tests/Slice0.lean ====
section
/-! SUPPORT. Tests of the model, their expected results taken from the manual or worked out by hand from it: ill-formed
terms, the decoding of every instruction's word, single steps, and a state that meets the hypotheses of each statement. -/

set_option Elab.async false

namespace Sys2Proof.Tests

open Sys2Proof.Machine

open Sys2Proof.Safety

/-! ## Well-formedness -/

/-- 09/R171, R205, R206, R260: fields beyond their limits. -/
theorem test_fields_refused : ∀ i ∈ ([.br 3 .always 0, .br 1 .t 0, .br 1 .f 0, .enter 12, .enter 0, .enter 72, .setmf 12 0, .setmf 4 2,
    .setmf 6 32, .sread 4 0x1D, .accz 60 4 0] : List Instr), i.wf = false := by decide

/-- 09/R194: registers that break a pair or a group. -/
theorem test_pairs_refused : ∀ i ∈ ([.ld 5 6 2 .b64 .dflt 0, .st 6 6 2 .b128 .dflt 0, .ldl 5 6 .b64 0, .stl 5 6 .b64 0, .ldAcq 5 6 2 .b64 .sys 0,
    .stRel 6 6 2 .b128 .sys 0, .xlb 5 2 0, .xinv 5 .die 0, .callr 5, .jmpr 5, .setm 5, .getm 5, .cpy 4 6 2 .ef 0, .cpymc 4 6 2 1 0, .cpyst 5 6 2 .ef 0,
    .cpyg 4 6 2 .ef 0, .cpys 4 6 0, .cpyp 4 6 2 3 .ef 0, .cpyq 6 8 2 3 .ef 0, .enq 6 0, .enqd 6 0, .mma 4 5 true 2 0, .mmas 4 5 true 2 0,
    .mmab 4 6 true 2 0, .comp 5 2 0, .plnw 5 true 2 0, .plnr 5 true 2 0, .prld 5 6, .prst 4 5, .prreg 5 6, .pwreg 4 5, .predir 5 6, .reord 4 5,
    .ptld 4 5 1, .rgset 4 6 1, .krepl 5 8, .csrr 5 6, .csrw 5 6] : List Instr), i.wf = false := by decide

/-- An instruction with every field in its limits. -/
theorem test_wf : (Instr.ld 4 6 2 .b128 .nl 0).wf = true ∧ (Instr.accz 60 3 0).wf = true ∧ (Instr.nop).isEvent = false := by decide

/-! ## Decoding: words written out from the formats of 09/R193 -/

def a3 (op d pa a pb b sub : Nat) : Nat := op * 2 ^ 24 + d * 2 ^ 18 + pa * 2 ^ 16 + a * 2 ^ 10 + pb * 2 ^ 8 + b * 2 ^ 2 + sub
def a4 (op d a b c pa : Nat) : Nat := 2 ^ 30 + op * 2 ^ 26 + d * 2 ^ 20 + a * 2 ^ 14 + b * 2 ^ 8 + c * 2 ^ 2 + pa
def m (op d a f x la : Nat) : Nat := 2 ^ 31 + op * 2 ^ 24 + d * 2 ^ 18 + a * 2 ^ 12 + f * 2 ^ 9 + x * 2 ^ 4 + la
def j (op d imm : Nat) : Nat := 7 * 2 ^ 29 + op * 2 ^ 26 + d * 2 ^ 20 + imm
def im (op d a imm : Nat) : Nat := 6 * 2 ^ 29 + op * 2 ^ 24 + d * 2 ^ 18 + a * 2 ^ 12 + imm

/-- 09/R200: two vector sources, each with its selector. -/
theorem test_decode_binary : ∀ p ∈ ([
    (a3 1 9 2 5 3 60 0, .add 9 2 5 3 60),
    (a3 1 9 2 5 3 60 1, .sub 9 2 5 3 60),
    (a3 1 9 2 5 3 60 2, .addc 9 2 5 3 60),
    (a3 1 9 2 5 3 60 3, .subb 9 2 5 3 60),
    (a3 2 9 2 5 3 60 0, .mul 9 2 5 3 60),
    (a3 2 9 2 5 3 60 1, .mulh 9 2 5 3 60),
    (a3 2 9 2 5 3 60 2, .absd 9 2 5 3 60),
    (a3 2 9 2 5 3 60 3, .avg 9 2 5 3 60),
    (a3 3 9 2 5 3 60 0, .min 9 2 5 3 60),
    (a3 3 9 2 5 3 60 1, .max 9 2 5 3 60),
    (a3 3 9 2 5 3 60 2, .satadd 9 2 5 3 60),
    (a3 3 9 2 5 3 60 3, .satsub 9 2 5 3 60),
    (a3 4 9 2 5 3 60 0, .and 9 2 5 3 60),
    (a3 4 9 2 5 3 60 1, .or 9 2 5 3 60),
    (a3 4 9 2 5 3 60 2, .xor 9 2 5 3 60),
    (a3 4 9 2 5 3 60 3, .andn 9 2 5 3 60),
    (a3 5 9 2 5 3 60 0, .orn 9 2 5 3 60),
    (a3 5 9 2 5 3 60 1, .rol 9 2 5 3 60),
    (a3 5 9 2 5 3 60 2, .fshr 9 2 5 3 60),
    (a3 6 9 2 5 3 60 0, .shl 9 2 5 3 60),
    (a3 6 9 2 5 3 60 1, .shr 9 2 5 3 60),
    (a3 6 9 2 5 3 60 2, .sar 9 2 5 3 60),
    (a3 8 9 2 5 3 60 0, .bfx 9 2 5 3 60),
    (a3 8 9 2 5 3 60 1, .bmsk 9 2 5 3 60),
    (a3 13 9 2 5 3 60 0, .fadd 9 2 5 3 60),
    (a3 13 9 2 5 3 60 1, .fsub 9 2 5 3 60),
    (a3 13 9 2 5 3 60 2, .fmul 9 2 5 3 60),
    (a3 14 9 2 5 3 60 0, .fmin 9 2 5 3 60),
    (a3 14 9 2 5 3 60 1, .fmax 9 2 5 3 60),
    (a3 14 9 2 5 3 60 2, .fscale 9 2 5 3 60),
    (a3 19 9 2 5 3 60 0, .pack 9 2 5 3 60),
    (a3 19 9 2 5 3 60 1, .unpk 9 2 5 3 60)] : List (Nat × Instr)),
    decodeTableWord 32 p.1 = some p.2 := by decide +kernel

/-- 09/R200: one vector source, and the forms with a sub-field in B. -/
theorem test_decode_unary : ∀ p ∈ ([
    (a3 7 33 1 7 0 0 0, .popc 33 1 7),
    (a3 7 33 1 7 0 0 1, .clz 33 1 7),
    (a3 7 33 1 7 0 0 2, .ctz 33 1 7),
    (a3 7 33 1 7 0 0 3, .brev 33 1 7),
    (a3 15 33 1 7 0 0 0, .fneg 33 1 7),
    (a3 15 33 1 7 0 0 1, .fabs 33 1 7),
    (a3 15 33 1 7 0 0 2, .ffract 33 1 7),
    (a3 15 33 1 7 0 0 3, .fclass 33 1 7),
    (a3 0x13 33 1 7 0 0 2, .sat 33 1 7),
    (a3 0x15 33 1 7 0 0 0, .qxh 33 1 7),
    (a3 0x15 33 1 7 0 0 1, .qxv 33 1 7),
    (a3 0x15 33 1 7 0 0 2, .qxd 33 1 7),
    (a3 0x15 33 1 7 0 2 3, .qbc 33 1 7 2),
    (a3 0x1C 33 1 7 0 0 0, .mov 33 1 7),
    (a3 0x1C 33 1 7 0 0 2, .hlprd 33 1 7),
    (a3 0x1C 6 0 1 0 0 1, .sread 6 1),
    (a3 0x10 33 1 7 0 0 0, .frnd 33 1 7 .gmode),
    (a3 0x10 33 1 7 0 0 3, .frnd 33 1 7 .down),
    (a3 0x12 33 1 7 0 8 1, .cvt 33 1 7 .bf16x2 true),
    (a3 0x16 33 1 7 0 9 2, .qswz 33 1 7 9 2),
    (a3 0x17 33 1 7 0 2 0, .wred 33 1 7 .max),
    (a3 0x18 33 1 7 0 5 1, .wscan 33 1 7 .xor true),
    (a3 0x14 33 1 7 2 4 2, .shfl 33 1 7 2 4 .dn)] : List (Nat × Instr)),
    decodeTableWord 32 p.1 = some p.2 := by decide +kernel

/-- 09/R200, R201: compares, selects and masks. -/
theorem test_decode_masks : ∀ p ∈ ([
    (a3 9 (8*5+3) 1 7 2 4 0, .cmp .ge 3 1 7 2 4),
    (a3 0x0A (8*6) 1 7 2 4 0, .scmp .bs 1 7 2 4),
    (a3 0x11 (8*7+3) 1 7 2 4 0, .fcmp .or 3 1 7 2 4),
    (a3 0x0B 9 1 7 2 4 3, .selK03 9 1 7 2 4 3),
    (a3 0x0C 9 1 7 2 4 1, .selK47 9 1 7 2 4 1),
    (a3 0x19 3 0 5 0 6 0, .kand 3 5 6),
    (a3 0x19 3 0 5 0 6 1, .kor 3 5 6),
    (a3 0x19 3 0 5 0 6 2, .kxor 3 5 6),
    (a3 0x19 3 0 5 0 6 3, .kandn 3 5 6),
    (a3 0x1A 3 0 5 0 0 0, .knot 3 5),
    (a3 0x1A 3 0 5 0 0 1, .kmov 3 5),
    (a3 0x1A 40 0 5 0 0 2, .kpopc 40 5),
    (a3 0x1A 40 0 5 0 0 3, .kffs 40 5),
    (a3 0x1B 3 0 0 0 0 0, .exmrd 3),
    (a3 0x1B 0 0 5 0 0 1, .exmwr 5)] : List (Nat × Instr)),
    decodeTableWord 32 p.1 = some p.2 := by decide +kernel

/-- 09/R202: four operands. -/
theorem test_decode_four : ∀ p ∈ ([
    (a4 0 9 5 60 33 2, .fma 9 5 60 33 2),
    (a4 1 9 5 60 33 2, .fms 9 5 60 33 2),
    (a4 2 9 5 60 33 2, .fnma 9 5 60 33 2),
    (a4 3 9 5 60 33 2, .mad 9 5 60 33 2),
    (a4 4 9 5 60 33 2, .madh 9 5 60 33 2),
    (a4 5 9 5 60 33 2, .bfi 9 5 60 33 2),
    (a4 6 9 5 60 33 2, .dot4 9 5 60 33 2),
    (a4 7 9 5 60 33 2, .fdot2 9 5 60 33 2),
    (a4 8 9 5 60 33 2, .lerp 9 5 60 33 2),
    (a4 9 9 5 60 33 2, .clamp 9 5 60 33 2)] : List (Nat × Instr)),
    decodeTableWord 32 p.1 = some p.2 := by decide +kernel

/-- 09/R203, R204: accesses, atomics, fences, waits and translation. -/
theorem test_decode_memory : ∀ p ∈ ([
    (m 0 8 5 2 (4*5+1) 7, .ld 8 5 2 .b64 .ef 7),
    (m 1 8 5 2 (4*6+2) 7, .st 8 5 2 .b128 .nl 7),
    (m 2 9 5 0 (4*2) 7, .ldl 9 5 .i16 7),
    (m 3 9 5 0 (4*3) 7, .stl 9 5 .n16 7),
    (m 4 1 5 2 (4*4) 7, .prf true 5 2 .b32 .dflt 7),
    (m 5 8 5 2 (8*1+3) 7, .ldAcq 8 5 2 .b64 .die 7),
    (m 6 8 5 2 (8*2+3) 7, .stRel 8 5 2 .b128 .die 7),
    (m 8 8 5 2 (4*3+2) 7, .aadd 8 5 2 .die .rel 7),
    (m 9 8 5 2 (4*3+2) 7, .amin 8 5 2 .die .rel 7),
    (m 10 8 5 2 (4*3+2) 7, .amax 8 5 2 .die .rel 7),
    (m 11 8 5 2 (4*3+2) 7, .aand 8 5 2 .die .rel 7),
    (m 12 8 5 2 (4*3+2) 7, .aor 8 5 2 .die .rel 7),
    (m 13 8 5 2 (4*3+2) 7, .axor 8 5 2 .die .rel 7),
    (m 14 8 5 2 (4*3+2) 7, .axchg 8 5 2 .die .rel 7),
    (m 15 8 5 2 (4*3+2) 7, .acas 8 5 2 .die .rel 7),
    (m 16 8 5 2 (4*3+2) 7, .afadd 8 5 2 .die .rel 7),
    (m 17 8 5 2 (4*3+2) 7, .ainc 8 5 2 .die .rel 7),
    (m 0x12 0 0 0 3 0, .fence .die 0),
    (m 0x12 0 0 0 3 7, .fence .die 7),
    (m 0x13 0 0 0 1 7, .fencex .e2o 7),
    (m 0x14 0 21 2 0 7, .wait 21 .x 7),
    (m 0x15 0 6 5 0 7, .xlb 6 5 7),
    (m 0x16 0 6 0 3 7, .xinv 6 .die 7)] : List (Nat × Instr)),
    decodeTableWord 32 p.1 = some p.2 := by decide +kernel

/-- 09/R203, R204: long-latency arithmetic; source B is bits [11:6]. -/
theorem test_decode_long : ∀ p ∈ ([
    (m 0x18 9 5 7 0x1C 7, .fdiv 9 5 63 7),
    (m 0x20 9 5 0 4 7, .idiv 9 5 1 7),
    (m 0x21 9 5 4 0 7, .irem 9 5 32 7),
    (m 25 9 5 0 0 7, .fsqrt 9 5 7),
    (m 26 9 5 0 0 7, .frcp 9 5 7),
    (m 27 9 5 0 0 7, .frsq 9 5 7),
    (m 28 9 5 0 0 7, .fexp2 9 5 7),
    (m 29 9 5 0 0 7, .flog2 9 5 7),
    (m 30 9 5 0 0 7, .fsin 9 5 7),
    (m 31 9 5 0 0 7, .fcos 9 5 7)] : List (Nat × Instr)),
    decodeTableWord 32 p.1 = some p.2 := by decide +kernel

/-- 12/R306: the copy instructions. -/
theorem test_decode_copies : ∀ p ∈ ([
    (m 0x22 9 8 2 1 7, .cpy 9 8 2 .ef 7),
    (m 0x23 9 8 2 11 7, .cpymc 9 8 2 11 7),
    (m 0x24 5 8 2 2 7, .cpyst 5 8 2 .nl 7),
    (m 0x25 9 8 2 1 7, .cpyg 9 8 2 .ef 7),
    (m 0x26 9 8 0 0 7, .cpys 9 8 7),
    (m 0x27 9 8 2 (4*6+1) 7, .cpyp 9 8 2 6 .ef 7),
    (m 0x28 12 8 2 (4*6) 7, .cpyq 12 8 2 6 .dflt 7)] : List (Nat × Instr)),
    decodeTableWord 32 p.1 = some p.2 := by decide +kernel

/-- 11/R260: the matrix instructions. -/
theorem test_decode_matrix : ∀ p ∈ ([
    (m 41 9 8 0 (16+5) 7, .mma 9 8 true 5 7),
    (m 42 9 8 0 (16+5) 7, .mmas 9 8 true 5 7),
    (m 43 9 8 0 (16+5) 7, .mmab 9 8 true 5 7),
    (m 0x2C 0 8 0 5 7, .comp 8 5 7),
    (m 0x2D 0 8 1 5 7, .plnw 8 true 5 7),
    (m 0x2E 0 8 0 5 7, .plnr 8 false 5 7),
    (m 0x2F 9 0 0 21 7, .accz 9 21 7),
    (m 0x30 9 8 0 0 7, .accld 9 8 7),
    (m 0x31 9 8 0 0 7, .accst 9 8 7),
    (m 0x32 9 8 0 21 7, .accrd 9 8 21 7),
    (m 0x33 9 8 0 21 7, .accwr 9 8 21 7),
    (m 0x34 0 0 0 0 7, .mxtokAcq 7),
    (m 0x34 0 0 0 8 7, .mxtokRel 7),
    (m 0x34 0 11 0 16 7, .mxtokPass 11 7)] : List (Nat × Instr)),
    decodeTableWord 32 p.1 = some p.2 := by decide +kernel

/-- 12/R309, R310, R314, R319, 05/R122: synchronisation, yields and tasks. -/
theorem test_decode_sync : ∀ p ∈ ([
    (m 0x35 0 0 0 5 7, .bar 5 7),
    (m 0x36 0 0 0 0 7, .sstep 7),
    (m 0x37 9 0 5 0 7, .rnga 9 5 7),
    (m 0x38 0 8 5 0 7, .rngc 8 5 7),
    (m 0x39 9 0 5 0 7, .rngw 9 5 7),
    (m 0x3A 0 8 5 0 7, .rngf 8 5 7),
    (m 0x3B 33 0x2A 5 3 7, .yieldc 33 (0x2A*256+5*32+3) 7),
    (m 0x3C 0 8 0 0 7, .enq 8 7),
    (m 0x3D 0 8 0 0 7, .enqd 8 7)] : List (Nat × Instr)),
    decodeTableWord 32 p.1 = some p.2 := by decide +kernel

/-- 09/R205, R206: the J and I formats. -/
theorem test_decode_immediate : ∀ p ∈ ([
    (j 0 9 0xABCDE, .movh 9 0xABCDE),
    (j 1 (8*3+4) 0xFFFFF, .br 3 .nz 0xFFFFF),
    (j 1 2 5, .br 0 .f 5),
    (j 2 0 7, .call 7),
    (j 3 0 0x12345, .sigchk 0x12345),
    (im 0 9 5 0xABC, .addi 9 5 0xABC),
    (im 1 9 5 0xABC, .andi 9 5 0xABC),
    (im 2 9 5 0xABC, .ori 9 5 0xABC),
    (im 3 9 5 0xABC, .xori 9 5 0xABC),
    (im 4 9 5 63, .shli 9 5 63),
    (im 5 9 5 63, .shri 9 5 63),
    (im 6 9 5 63, .sari 9 5 63),
    (im 7 (8*2+5) 5 0xABC, .cmpi .lt 5 5 0xABC),
    (im 8 9 0 0xABC, .movi 9 0xABC),
    (im 9 9 5 0xABC, .ldc 9 5 0xABC),
    (im 0xA 0 6 0, .callr 6),
    (im 0xB 0 0 0xABC, .callg 0xABC),
    (im 0xC 0 0 0, .ret),
    (im 0xD 0 0 24, .enter 24),
    (im 0xE 0 0 0, .exit),
    (im 0xF 0 6 0, .jmpr 6),
    (im 0x10 0 6 0, .mpush 6),
    (im 0x11 0 0 0, .melse),
    (im 0x12 0 0 0, .mpop),
    (im 0x13 0 6 0, .setm 6),
    (im 0x14 0 0 (256*9+0x5A), .setmf 9 0x5A),
    (im 0x15 6 0 0, .getm 6),
    (im 0x16 0 0 0, .regn),
    (0xD7000000, .nop),
    (im 0x18 0 0 0xABC, .bkpt 0xABC),
    (im 0x19 0 0 0xABC, .trap 0xABC),
    (im 0x1E 33 60 0xABC, .esc 33 60 0xABC)] : List (Nat × Instr)),
    decodeTableWord 32 p.1 = some p.2 := by decide +kernel

/-- 09/R207: the SYS sub-format. -/
theorem test_decode_system : ∀ p ∈ ([
    (im 0x1F 8 6 (64*1+0), .prld 8 6),
    (im 0x1F 8 6 (64*2+0), .prst 8 6),
    (im 0x1F 8 6 (64*3+0), .prreg 8 6),
    (im 0x1F 8 6 (64*4+0), .pwreg 8 6),
    (im 0x1F 0 6 (64*5+0), .presume 6),
    (im 0x1F 0 6 (64*6+0), .pretry 6),
    (im 0x1F 8 6 (64*7+0), .predir 8 6),
    (im 0x1F 0 6 (64*8+0), .pkill 6),
    (im 0x1F 0 6 (64*9+0), .prplay 6),
    (im 0x1F 0 0 (64*10+1), .snap true),
    (im 0x1F 9 6 (64*11+0), .reord 9 6),
    (im 0x1F 9 6 (64*12+5), .ptld 9 6 5),
    (im 0x1F 9 8 (64*13+33), .rgset 9 8 33),
    (im 0x1F 6 8 (64*14+0), .krepl 6 8),
    (im 0x1F 6 9 (64*15+0), .csrr 6 9),
    (im 0x1F 6 9 (64*16+0), .csrw 6 9)] : List (Nat × Instr)),
    decodeTableWord 32 p.1 = some p.2 := by decide +kernel

/-- Words of the programs of 17 to 20. -/
theorem test_decode_programs : ∀ p ∈ ([(0x0D150824, .fadd 5 1 2 0 9), (0x80106502, .ld 4 6 2 .b32 .dflt 2), (0x4080420C, .fma 8 1 2 3 0),
    (0xDF0803C0, .csrr 2 0), (0xDF402100, .pwreg 16 2), (0xDF002140, .presume 2), (0x95006200, .xlb 6 1 0), (0xB73C0000, .rnga 15 0 0),
    (0xA400C200, .cpyst 0 12 1 .dflt 0), (0xB9040000, .rngw 1 0 0), (0x82144100, .ldl 5 4 .b32 0), (0x92000040, .fence .dev 0),
    (0x1C180001, .sread 6 0), (0xC41C6002, .shli 7 6 2), (0xC118703F, .andi 6 7 63), (0xC8000092, .movi 0 0x92), (0x1C201800, .mov 8 0 6)] :
    List (Nat × Instr)), decodeTableWord 32 p.1 = some p.2 := by decide +kernel

/-- Words that no map has, or whose zero fields are not zero. -/
theorem test_decode_refused : ∀ w ∈ ([0, 0xD7000001, 0x1D000000, 0xDA000000, 0x97000000, 0xB5000080] : List Nat),
    decodeTableWord 32 w = none := by decide +kernel

/-! ## States that meet the statements' hypotheses

`here g i` is the package with the word of i placed where the next step fetches (log 6) and g in GMODE. -/

def here (g : Nat) (i : Instr) : State :=
  let s := State.reset.withFetchWord 32 (encode i).toNat
  { s with waves := s.waves.map (fun e => (e.1, { e.2 with gmode := dw g })) }

def issuesAfter (s : State) (prep : State → Move) (i : Instr) : Bool :=
  passes s i && (match (prep s).bind (fun t => t.span (i.opnds s.curWave)) with
    | .ok _ => true
    | _ => false)

def issuesNow (s : State) (i : Instr) : Bool := passes s i && (match s.span (i.opnds s.curWave) with
    | .ok u => decide (u = s)
    | _ => false)

theorem issues_after {s : State} {prep : State → Move} {i : Instr} (h : issuesAfter s prep i = true) :
    ∃ u, IssuesAfter s prep i u := by
  unfold issuesAfter at h
  rw [Bool.and_eq_true] at h
  obtain ⟨h1, h2⟩ := h
  split at h2
  · exact ⟨_, h1, by assumption⟩
  · cases h2

theorem issues_integer : ∀ i ∈ ([.add 4 0 6 0 8, .sub 4 0 6 0 8, .mul 4 0 6 0 8, .mulh 4 0 6 0 8, .absd 4 0 6 0 8, .avg 4 0 6 0 8,
    .min 4 0 6 0 8, .max 4 0 6 0 8, .satadd 4 0 6 0 8, .satsub 4 0 6 0 8, .mad 4 6 8 9 0, .madh 4 6 8 9 0, .clamp 4 6 8 9 0,
    .addc 4 0 6 0 8, .subb 4 0 6 0 8, .and 4 0 6 0 8, .or 4 0 6 0 8, .xor 4 0 6 0 8, .andn 4 0 6 0 8, .orn 4 0 6 0 8,
    .selK03 4 0 6 0 8 1, .selK47 4 0 6 0 8 1, .mov 4 0 6, .shl 4 0 6 0 8, .shr 4 0 6 0 8, .sar 4 0 6 0 8, .rol 4 0 6 0 8,
    .fshr 4 0 6 0 8, .popc 4 0 6, .clz 4 0 6, .ctz 4 0 6, .brev 4 0 6, .bfx 4 0 6 0 8, .bmsk 4 0 6 0 8, .bfi 4 6 8 9 0] : List Instr),
    issuesNow (here 0 i) i = true := by decide +kernel

theorem issues_rest : ∀ i ∈ ([.cmp .lt 3 0 6 0 8, .cmpi .lt 3 6 5, .scmp .lt 0 6 0 8, .addi 4 6 5, .andi 4 6 5, .ori 4 6 5, .xori 4 6 5,
    .shli 4 6 5, .shri 4 6 5, .sari 4 6 5, .movi 4 5, .movh 4 5, .shfl 4 0 6 0 8 .idx, .qxh 4 0 6, .qxv 4 0 6, .qxd 4 0 6, .qbc 4 0 6 1,
    .qswz 4 0 6 1 1, .hlprd 4 0 6, .wred 4 0 6 .add, .wscan 4 0 6 .add true, .kand 3 4 5, .kor 3 4 5, .kxor 3 4 5, .kandn 3 4 5, .knot 3 4,
    .kmov 3 4, .exmrd 3, .exmwr 3, .kpopc 4 3, .kffs 4 3, .sread 4 0x1C, .setm 4, .setmf 1 6, .getm 4, .regn, .nop, .sigchk 0,
    .ldc 4 6 0, .br 0 .always 8, .br 3 .z 8, .jmpr 4, .yieldc 0 8 0, .trap 5, .bkpt 5, .call 8, .callr 4, .enter 64, .exit, .ret,
    .mpush 3] : List Instr),
    issuesNow (here 0 i) i = true := by decide +kernel

theorem issues_dot : issuesNow (here 32 (.dot4 4 6 8 9 0)) (.dot4 4 6 8 9 0) = true := by decide +kernel

theorem issues_float : ∀ i ∈ ([.fadd 4 0 6 0 8, .fsub 4 0 6 0 8, .fmul 4 0 6 0 8, .fmin 4 0 6 0 8, .fmax 4 0 6 0 8, .fscale 4 0 6 0 8,
    .ffract 4 0 6, .frnd 4 0 6 .up, .fma 4 6 8 9 0, .fms 4 6 8 9 0, .fnma 4 6 8 9 0, .lerp 4 6 8 9 0, .clamp 4 6 8 9 0, .sat 4 0 6,
    .fneg 4 0 6, .fabs 4 0 6, .fclass 4 0 6, .cvt 4 0 6 .i32 true, .fcmp .lt 3 0 6 0 8, .fdiv 4 6 8 0, .fsqrt 4 6 0, .frcp 4 6 0,
    .frsq 4 6 0, .fexp2 4 6 0, .flog2 4 6 0, .fsin 4 6 0, .fcos 4 6 0] : List Instr),
    issuesNow (here 48 i) i = true := by decide +kernel

theorem issues_half : ∀ i ∈ ([.pack 4 0 6 0 8, .unpk 4 0 6 0 8, .fdot2 4 6 8 9 0] : List Instr),
    issuesNow (here 56 i) i = true := by decide +kernel

theorem issues_memory : ∀ i ∈ ([.ld 4 6 2 .b128 .nl 0, .st 4 6 2 .b64 .ef 15, .prf true 6 2 .i8 .dflt 0, .ldAcq 4 6 2 .b64 .sys 0, .stl 4 6 .b32 0,
    .ldl 4 6 .i8 0, .idiv 4 6 8 0, .irem 4 6 8 0, .xlb 4 2 0, .xinv 4 .die 0, .fence .sys 0, .fencex .o2e 0, .fencex .e2o 0, .wait 0 .m 0, .bar 7 0, .sstep 0,
    .reord 5 4, .enq 4 0, .enqd 4 0] : List Instr),
    issuesNow (here 0 i) i = true := by decide +kernel

def fenced (i : Instr) : State :=
  let s := { here (if decide ((encode i).toNat / 2 ^ 24 % 64 = 16) then 48 else 0) i with gt := 5 }
  s.setCur { s.curWave with stage := 1 }

theorem issues_atomic : ∀ i ∈ ([.aadd 4 6 2 .sys .rel 0, .amin 4 6 2 .sys .ar 0, .amax 4 6 2 .sys .plain 0, .aand 4 6 2 .sys .acq 0, .aor 4 6 2 .sys .rel 0,
    .axor 4 6 2 .sys .rel 0, .axchg 4 6 2 .sys .rel 0, .acas 4 6 2 .sys .rel 0, .ainc 4 6 2 .sys .rel 0, .afadd 4 6 2 .sys .rel 0, .stRel 4 6 2 .b64 .sys 0] : List Instr),
    issuesAfter (fenced i) (fun t => t.fencePrep 2) i = true := by decide +kernel

theorem issues_copy : ∀ i ∈ ([.cpy 4 8 2 .ef 0, .cpymc 4 8 2 3 0, .cpyst 5 8 2 .ef 0, .cpyg 4 8 2 .ef 0, .cpys 4 8 0, .cpyp 4 8 2 3 .ef 0,
    .cpyq 4 8 2 3 .ef 0] : List Instr), issuesNow (here 0 i) i = true := by decide +kernel

theorem issues_system : ∀ i ∈ ([.prld 4 6, .prst 4 6, .prreg 4 6, .pwreg 4 6, .presume 6, .pretry 6, .predir 4 6, .pkill 6, .prplay 6, .snap true,
    .ptld 4 6 1, .rgset 4 8 63, .krepl 4 8, .csrr 4 6, .csrw 4 6] : List Instr), issuesNow (here 0 i) i = true := by decide +kernel

def holder (i : Instr) : State :=
  let s := here 0 i
  s.setEngine 0 { s.engine 0 with token := some 0 }

theorem issues_matrix : ∀ i ∈ ([.mma 4 8 true 2 0, .mmas 4 8 true 2 0, .mmab 4 8 true 2 0, .comp 8 2 0, .plnw 8 true 2 0, .plnr 8 true 2 0, .accz 4 2 0,
    .accld 4 8 0, .accst 4 8 0, .accrd 4 8 31 0, .accwr 4 8 31 0, .mxtokAcq 0, .mxtokRel 0, .mxtokPass 0 0] : List Instr),
    issuesAfter (holder i) State.matRoom i = true := by decide +kernel

def at_ (g : Nat) (i : Instr) (f : Wave → Wave) : State := (here g i).setCur (f (here g i).curWave)

def mapped (s : State) : State := (s.write 0 (toBytes 8 0x1001)).write 0x1000 (toBytes 8 0x20DF)

/-- A condition that an active lane raises is enabled. -/
def raises (s : State) (r : Nat → Res) : Bool :=
  (s.curWave.lanes.foldl (fun acc l => acc ||| (r l).2) 0) &&& s.curWave.te != 0

/-- ArithTrap: +Inf with -Inf and a division by zero under all of TE; v6 and v8 hold x and y, v9 holds z. -/
def traps (i : Instr) (x y z : Nat) : State := at_ (48 + 31 * 2 ^ 16) i (fun w => { w with
  regs := Sparse.put (Sparse.put (Sparse.put w.regs 6 (List.replicate 32 (wd x))) 8 (List.replicate 32 (wd y))) 9 (List.replicate 32 (wd z)) })

theorem meets_arithTrap :
    (∀ x ∈ [((.fadd 4 0 6 0 8 : Instr), fun (v : Env) => fAdd f32 v 0x7F800000 0xFF800000), (.fmul 4 0 6 0 8, fun v => fMul f32 v 0x7F800000 0)],
      let s := traps x.1 0x7F800000 (if x.1 = .fmul 4 0 6 0 8 then 0 else 0xFF800000) 0
      issuesNow s x.1 = true ∧ raises s (fun _ => x.2 s.curWave.env) = true) ∧
    (let i : Instr := .fma 4 6 8 9 0
     let s := traps i 0x7F800000 0 0
     issuesNow s i = true ∧ raises s (fun l => fMadd f32 s.curWave.env false false (s.curWave.val 6 l) (s.curWave.val 8 l) (s.curWave.val 9 l)) = true) ∧
    (let i : Instr := .cvt 4 0 6 .i32 false
     let s := traps i 0x7FC00000 0 0
     issuesNow s i = true ∧ raises s (fun l => cvtVal s.curWave.ty .i32 s.curWave.env (s.curWave.valP 0 6 l)) = true) ∧
    (let i : Instr := .fcmp .lt 3 0 6 0 8
     let s := traps i 0x7FA00000 0 0
     issuesNow s i = true ∧ raises s (fun l => (0, (fCompare f32 s.curWave.env .lt (s.curWave.valP 0 6 l) (s.curWave.valP 0 8 l)).2)) = true) ∧
    (let i : Instr := .fdiv 4 6 8 0
     let s := traps i 0x3F800000 0 0
     issuesNow s i = true ∧ raises s (fun l => fDiv f32 s.curWave.env (s.curWave.val 6 l) (s.curWave.val 8 l)) = true) ∧
    (let i : Instr := .wred 4 0 6 .add
     let s := traps i 0x7F7FFFFF 0 0
     issuesNow s i = true ∧ raises s (fun _ => redElem s.curWave.ty s.curWave.env .add 0x7F7FFFFF 0x7F7FFFFF) = true) ∧
    (let i : Instr := .idiv 4 6 8 0
     let s := at_ (31 * 2 ^ 16) i id
     issuesNow s i = true ∧ raises s (fun _ => intDiv s.curWave.ty false 5 0) = true) := by decide +kernel

/-- FloatRounding: a format, modes and values on each side of its bounds, at the scale 2 ^ -30 of F16. -/
theorem meets_floatRounding :
    f16.emin - f16.m = -24 ∧
    (let at_ := fun c => match f16.value c with
       | .fin _ k y => k * 2 ^ (y + 30).toNat
       | _ => 0
     2 * at_ 0x7BFF + (at_ 0x7BFF - at_ 0x7BFE) ≤ 2 * (1 * 2 ^ 46) ∧ 1 + at_ 1 / 4 < at_ 0x400 ∧
     ¬ (3 * 2 ^ 30 + at_ 1 / 4 < at_ 0x400) ∧ at_ 0x4200 = 3 * 2 ^ 30) ∧
    ({ rm := 0, dn := 2, nanp := 0, lgy := 0 } : Env).flushOut = true ∧ ({ rm := 0, dn := 1, nanp := 0, lgy := 0 } : Env).flushIn = true ∧
    (let v : Env := { rm := 0, dn := 0, nanp := 0, lgy := 0 }
     f16.arith v 0x3C00 = .fin false 1024 (-10) ∧ (f16.arith v 0x7E00).isNan = true ∧ (f16.arith v 0x7C00) = .inf false ∧
     (f16.arith v 0xFC00) = .inf true ∧ (f16.arith v 0).isZero = true ∧ f16.isSub 1 = true) := by decide +kernel

theorem meets_checksPark :
    passes (here 0 (.sigchk 1)) (.sigchk 1) = true ∧ (here 0 (.sigchk 1)).curWave.sigr.toNat % 2 ^ 20 ≠ 1 ∧
    (let s := at_ 0 (.jmpr 4) (fun w => { w with regs := Sparse.put w.regs 4 (List.replicate 32 2) })
     passes s (.jmpr 4) = true ∧ (s.curWave.v64 4 s.curWave.uniform).toNat % 4 ≠ 0) ∧
    (let s := at_ 0 (.call 8) (fun w => { w with cdepth := 4096 })
     passes s (.call 8) = true ∧ s.curWave.cdepth = 4096) ∧
    (let s := at_ 0 (.callr 4) (fun w => { w with cdepth := 4096 })
     passes s (.callr 4) = true ∧ s.curWave.cdepth = 4096 ∧ (s.curWave.v64 4 s.curWave.uniform).toNat % 4 = 0) := by decide +kernel

theorem meets_branches :
    (∀ b ∈ [true, false], let s := at_ 0 (.br 0 .t 8) (fun w => { w with cct := b })
      issuesNow s (.br 0 .t 8) = true ∧ s.curWave.cct = b) := by decide +kernel

def kernel0 : Kernel :=
  { entry := 0x10000, wsz := 64, nwave := 1, w64 := false, precise := false, prefault := false, indigo := false,
    roles := [.vector], l := 0x10000, s := 0, rings := [], constPA := 0x30000, constSz := 4, gotPA := 0x40000, gotSlots := 1 }

def withKernel (s : State) : State := s.modTask 0 (fun t => { t with kernel := some kernel0 })

theorem meets_constants :
    let s := withKernel (here 0 (.ldc 4 6 0))
    issuesNow s (.ldc 4 6 0) = true ∧ (s.kernelOf s.curWave).map (·.constSz) = some 4 := by decide +kernel

/-- ChecksPark: CALLG at the depth limit, with a target that is no multiple of 4, and beyond the GOT. -/
theorem meets_checksPark_got :
    (let s := withKernel (at_ 0 (.callg 0) (fun w => { w with cdepth := 4096 }))
     passes s (.callg 0) = true ∧ s.gotSlot s.curWave 0 = some 0 ∧ s.curWave.cdepth = 4096) ∧
    (let s := (withKernel (here 0 (.callg 0))).write 0x40000 [2]
     passes s (.callg 0) = true ∧ s.gotSlot s.curWave 0 = some 2) ∧
    (let s := withKernel (here 0 (.callg 1))
     passes s (.callg 1) = true ∧ (s.kernelOf s.curWave).map (·.gotSlots) = some 1) := by decide +kernel

theorem meets_calls :
    (let s := here 0 (.call 8)
     s.curWave.cdepth ≠ 4096 ∧ s.curWave.wb + s.curWave.sz ≤ s.curWave.stkmax ∧ issuesAfter s State.spillLink (.call 8) = true) ∧
    (let s := here 0 (.callr 4)
     (s.curWave.v64 4 s.curWave.uniform).toNat % 4 = 0 ∧ issuesAfter s State.spillLink (.callr 4) = true) ∧
    (let s := withKernel (here 0 (.callg 0))
     s.gotSlot s.curWave 0 = some 0 ∧ issuesAfter s State.spillLink (.callg 0) = true) ∧
    (let s := mapped (at_ 0 (.call 8) (fun w => { w with cdepth := 16, bb := 0x20000 }))
     issuesAfter s State.spillLink (.call 8) = true) := by decide +kernel

theorem meets_windowsAndEnds :
    (let i : Instr := .enter 64
     let s := here 0 i
     s.curWave.wb + 64 ≤ s.curWave.stkmax ∧ issuesAfter s (fun t => t.makeResident t.cur t.curWave.wb (t.curWave.wb + 64)) i = true) ∧
    (let s := at_ 0 .ret (fun w => { w with cdepth := 1, wb := 56, sz := 8, links := [(0, dw (7 * 2 ^ 55 + 0x4001))] })
     s.topLink = (.ok 0 0, dw (7 * 2 ^ 55 + 0x4001)) ∧ s.curWave.cdepth ≠ 0 ∧
     issuesAfter s (fun t => t.fillCaller (dw (7 * 2 ^ 55 + 0x4001))) .ret = true) ∧
    (here 0 .ret).curWave.cdepth = 0 := by decide +kernel

theorem meets_maskStack :
    let one := fun (w : Wave) => { w with msd := 1, mstack := [(0, { exm := 5, t := 1, gmode := 0, els := false })] }
    issuesAfter (here 0 (.mpush 3)) State.spillMask (.mpush 3) = true ∧
    (∀ i ∈ [Instr.melse, .mpop], let s := at_ 0 i one
      s.curWave.msd ≠ 0 ∧ issuesAfter s State.fillMask i = true ∧ (Sparse.find s.curWave.mstack 0).isSome = true ∧
      passes (here 0 i) i = true ∧ (here 0 i).curWave.msd = 0) ∧
    (let s := at_ 0 (.mpush 3) (fun w => { w with msd := 256 })
     passes s (.mpush 3) = true ∧ s.curWave.msd = 256) := by decide +kernel

theorem meets_unimplemented : decode 0 = .error .opcode ∧ decode 0xD7000001 = .error .field := by decide +kernel

theorem meets_privilegeAndRole :
    let low := fun (w : Wave) => { w with sys := false, role := .vector }
    (let i : Instr := .prld 4 6
     let s := at_ 0 i low
     i.unimpl s.curWave = none ∧ s.pendingRegs s.cur = [] ∧ s.pendingFrames s.cur = [] ∧ (i.opnds s.curWave).priv = true ∧ s.curWave.sys = false) ∧
    (let i : Instr := .cpy 4 8 2 .ef 0
     let s := at_ 0 i low
     i.unimpl s.curWave = none ∧ (i.opnds s.curWave).role = some .copy ∧ s.curWave.role ≠ .copy) ∧
    (let i : Instr := .mxtokAcq 0
     let s := at_ 0 i low
     i.unimpl s.curWave = none ∧ (i.opnds s.curWave).role = some .matrix ∧ s.curWave.role ≠ .matrix) ∧
    (let i : Instr := .mma 4 8 true 2 0
     let s := here 0 i
     i.unimpl s.curWave = none ∧ (i.opnds s.curWave).role = some .matrix ∧ s.curWave.role = .matrix ∧ (i.opnds s.curWave).token = true ∧
     (s.engine 0).token ≠ some s.cur) := by decide +kernel

theorem meets_issueEffect :
    let s := (here 0 .nop).modTask 0 (fun t => { t with hasBudget := true, budget := 9 })
    (s.task s.curWave.task).any (fun k => k.hasBudget) = true := by decide +kernel

theorem meets_spanEffect :
    let s := mapped (at_ 0 .nop (fun w => { w with bb := 0x20000 }))
    s.reach 0 0 true .store 7 ((s.wave 0).backAt 63) = .ok 0x21F80 0x1000 ∧ 0x21F80 % 65536 + 4 * (s.wave 0).width ≤ 65536 ∧
    s.privateMode = false ∧
    (match s.spillReg 0 63 with
     | .ok _ => true
     | _ => false) = true := by decide +kernel

theorem meets_accessesBegin :
    let s := here 0 (.ld 4 6 2 .b128 .nl 0)
    (s.wave 0).status ≠ .draining ∧ s.curWave.lanes ≠ [] ∧ s.curWave.aliased 6 = false ∧ (s.wg s.curWave.wg).isSome = true ∧
    (s.engine 0).ops = [] ∧
    ∀ l ∈ s.curWave.lanes, (s.curWave.v 6 l).toNat + 16 ≤ ((s.wg 0).map (·.l)).getD 0 := by decide +kernel

def op0 (k : OpKind) (lanes : List LaneOp) : MemOp :=
  { wave := 0, kind := k, pc := 0x10000, iword := 0, frame := none, dst := [4], size := 4, hint := .dflt, order := .plain,
    scope := none, count := none, seq := 0, gmode := 0, replay := false, resume := false, npc := 0, cdepth := 0, lanes := lanes }

def lane0 (p : LPhase) : LaneOp := { lane := 0, va := 0x20000, phase := p, data := [], cmp := [], key := none }

/-- LongLatency, AccessesBegin: no lane is active. -/
theorem meets_noLane : ∀ i ∈ ([.fdiv 4 6 8 0, .aadd 4 6 2 .sys .ar 0, .stRel 4 6 2 .b64 .sys 0, .xinv 4 .die 0, .cpy 4 8 2 .ef 0, .enq 4 0] : List Instr),
    let s := at_ (if i = .fdiv 4 6 8 0 then 48 else 0) i (fun w => { w with exm := 0 })
    issuesNow s i = true ∧ s.curWave.lanes = [] := by decide +kernel

/-- A copy of line 0x20000 in a core's cache, with a store of wave 0 in it. -/
def copyOf (k : CKind) : CacheCopy :=
  { line := 0x20000, kind := k, data := List.replicate 128 3, expiry := 0, lh := 0, dirty := [1], writers := [0], marks := [], cls := 0, old := [] }

theorem meets_lateResults :
    let s := { here 0 .nop with ops := [(7, op0 (.long [(0, [5])]) []), (8, op0 (.xinv [(0x20000, 65536)]) []), (9, op0 (.xinv []) [])] }
    Sparse.find s.ops 7 = some (op0 (.long [(0, [5])]) []) ∧ (s.wave 0).status = .ready ∧ (Sparse.find s.waves 0).isSome = true ∧
    [4].Nodup ∧ Sparse.find s.ops 8 = some (op0 (.xinv [(0x20000, 65536)]) []) ∧ Sparse.find s.ops 9 = some (op0 (.xinv []) []) ∧
    holds (s.wave 0) 4 = true ∧ s.xinvDone [] = true ∧ s.xinvDone [(0x20000, 65536)] = true ∧
    { s with caches := [(0, [copyOf .c])] }.xinvDone [(0x20000, 65536)] = false := by decide +kernel

theorem meets_fencesAndWaits :
    (let s := here 0 (.fence .wg 0)
     passes s (.fence .wg 0) = true ∧ s.accessing s.cur = false) ∧
    (let s := fenced (.fence .sys 0)
     passes s (.fence .sys 0) = true ∧ s.accessing s.cur = false ∧ s.curWave.stage ≠ 0 ∧ s.curWave.lwct < s.gt) ∧
    (let s := { here 0 (.fence .sys 0) with ops := [(7, { op0 .store [lane0 .sent] with dst := [] })] }
     passes s (.fence .sys 0) = true ∧ s.accessing s.cur = true) ∧
    (let s := fenced (.fencex .o2e 0)
     passes s (.fencex .o2e 0) = true ∧ s.accessing s.cur = false ∧ s.holdsStores s.cur = false ∧ s.curWave.stage ≠ 0 ∧
     { s with caches := [(0, [copyOf .c])] }.holdsStores s.cur = true) ∧
    (let s := at_ 0 (.fencex .e2o 0) (fun w => { w with stage := 1, arg := 9 })
     passes s (.fencex .e2o 0) = true ∧ s.gt ≤ 9 ∧ s.ewct = 0) ∧
    (let s := at_ 0 (.wait 0 .m 0) (fun w => { w with mq := [{ op := 7, done := false }] })
     passes s (.wait 0 .m 0) = true ∧ 0 < s.curWave.countVal .m) ∧
    (let s := at_ 0 .nop (fun w => { w with status := .waiting, stage := 1 })
     let t := { s with gt := 5 }
     (Sparse.find t.waves 0).any (fun v => decide (v.status = .waiting ∧ v.stage ≠ 0 ∧ v.lwct < t.gt)) = true) := by decide +kernel

theorem meets_translation :
    (let s := at_ 0 (.xlb 4 2 0) (fun w => { w with exm := 0 })
     issuesNow s (.xlb 4 2 0) = true ∧ s.curWave.lanes = []) ∧
    (let s := mapped (here 0 (.xinv 4 .die 0))
     canonical (s.curWave.v64 4 s.curWave.uniform) = true ∧ s.curWave.lanes ≠ []) ∧
    (let k : WalkKey := { cluster := 0, asid := 0, ctx := 0, page := 2 }
     let s := { mapped (here 0 .nop) with walks := [k] }
     k ∈ s.walks ∧ s.walk 0 0 (sext57 (2 * 65536)) = .leaf 0x20DF 0x1000 2 ∧
     (here 0 .nop).walk 0 0 (sext57 (2 * 65536)) = .bad 1 3 ∧ s.stalled 0 = [] ∧ s.stalledSegs 0 = [] ∧
     { s.csrPut 0x10 0 (dw (2 ^ 34 + 65536 * 0)) with mode := .ochre }.walk 0 0 (sext57 (2 * 65536)) = .held) := by decide +kernel

theorem meets_barriers :
    (let s := here 0 (.bar 7 0)
     passes s (.bar 7 0) = true ∧ (s.wg s.curWave.wg).any (fun g => decide ((((g.bar 7).arrived ||| 2 ^ s.curWave.wid ||| g.departed) &&&
       (2 ^ g.waves.length - 1)) = 2 ^ g.waves.length - 1)) = true) ∧
    (let s := (at_ 0 (.bar 7 0) (fun w => { w with stage := 1, arg := 1 })).modWg 0 (fun g => { g with waves := [0, 1] })
     passes s (.bar 7 0) = true ∧ (s.wg 0).any (fun g => !(g.bar 7).phase) = true) ∧
    (let s := here 0 (.sstep 0)
     let t := (s.modWg 0 (fun k => { k with ssarr := 1 })).setCur { s.curWave with stage := 1, arg := 0 }
     passes s (.sstep 0) = true ∧ t.swapReady 0 = true ∧ s.swapReady 0 = false) ∧
    (let s := at_ 0 (.sstep 0) (fun w => { w with stage := 1, arg := 1 })
     passes s (.sstep 0) = true ∧ s.swapReady 0 = false ∧ (s.wg 0).any (fun g => !g.cur) = true) ∧
    (let s := here 0 (.reord 5 4)
     passes s (.reord 5 4) = true ∧ (s.wg 0).any (fun g => decide (g.reord = [] ∧ g.waves = [0])) = true ∧ s.curWave.stage = 0) := by
  decide +kernel

def ring0 (p : RSlot) (h : Option Nat) : Ring :=
  { ns := 2, sb := 256, off := 0, pp := 0, cp := 0, slots := [{ state := p, fail := false, holder := h, cpyst := false }, .free],
    waitA := [], waitW := [] }

def ringed (i : Instr) (p : RSlot) (h : Option Nat) : State := (here 0 i).modWg 0 (fun g => { g with rings := [(5, ring0 p h)] })

theorem meets_rings :
    (∀ x ∈ [((.rnga 9 5 0 : Instr), RSlot.empty, none), (.rngw 9 5 0, .full, none), (.rngf 8 5 0, .taken, some 0)],
      let s := ringed x.1 x.2.1 x.2.2
      issuesNow s x.1 = true ∧ s.ring 5 = some (ring0 x.2.1 x.2.2) ∧ s.loading 0 = false) ∧
    (let s := ringed (.rngc 8 5 0) .held (some 0)
     issuesAfter s (fun t => t.fencexPrep .o2e) (.rngc 8 5 0) = true ∨
     issuesAfter (s.setCur { s.curWave with stage := 1 }) (fun t => t.fencexPrep .o2e) (.rngc 8 5 0) = true) ∧
    (let s := ringed (.rngc 8 5 0) .full none
     passes s (.rngc 8 5 0) = true ∧ s.ring 5 = some (ring0 .full none)) ∧
    (let s := (ringed (.rnga 9 5 0) .held none).modRing 5 (fun r => { r with waitA := [0] })
     passes s (.rnga 9 5 0) = true ∧ (s.ring 5).any (fun r => r.waitA.contains 0) = true) ∧
    (∀ x ∈ [((.rnga 9 5 0 : Instr), RSlot.held, none), (.rngw 9 5 0, .empty, none), (.rngc 8 5 0, .empty, none), (.rngf 8 5 0, .full, none)],
      passes (ringed x.1 x.2.1 x.2.2) x.1 = true ∧ (ringed x.1 x.2.1 x.2.2).ring 5 = some (ring0 x.2.1 x.2.2) ∧ passes (here 0 x.1) x.1 = true ∧
      (here 0 x.1).ring 5 = none) ∧
    (let i : Instr := .rngc 8 5 0
     let s := (at_ 0 i (fun w => { w with regs := Sparse.put w.regs 8 (List.replicate 32 7) })).modWg 0 (fun g => { g with rings := [(5, ring0 .held (some 0))] })
     passes s i = true ∧ (s.curWave.v 8 s.curWave.uniform).toNat % 8 = 7) ∧
    (let i : Instr := .rngc 8 5 0
     let s := (here 0 i).modWg 0 (fun g => { g with rings := [(5, { ring0 .held (some 0) with slots := [{ state := .held, fail := false, holder := some 0, cpyst := true }, .free] })] })
     passes s i = true ∧ (s.ring 5).any (fun r => r.slots.any (fun x => x.cpyst)) = true) ∧
    (let i : Instr := .rngf 8 5 0
     let s := { ringed i .taken (some 0) with ops := [(7, op0 (.load false) [lane0 .sent])] }
     passes s i = true ∧ s.loading 0 = true) := by decide +kernel

def mat0 (k : MatKind) (oct : Nat) : MatOp :=
  { id := 5, kind := k, inst := 5, wave := 0, wg := 0, opId := 5, pc := 0x10000, iword := 0, oct := oct, rows := 3, nextc := 0,
    xf := 0, ff := 0, mxa := 0, mxb := 0, tile := 0, boff := 0, bsoff := 0, aoff := [0, 0, 0, 0, 0, 0, 0, 0], asoff := [],
    base := 0, vals := [(0, 7), (1, 8)], marks := [], dst := 4, fold := 0, parked := false, again := false, seen := [] }

/-- LocalAccesses: a lane out of range, a granule that the engine has still to read, a lane of the alias, with results
outstanding and without. -/
theorem meets_localAccesses :
    let to_ := fun (i : Instr) (off e : Nat) => at_ 0 i (fun w => { w with exm := dw e, regs := Sparse.put w.regs 4 (List.replicate 32 (wd off)) })
    (∀ i ∈ [(Instr.ldl 5 4 .b32 0), .stl 5 4 .b32 0], let s := to_ i 0x20000 6
      s.curWave.aliased 4 = false ∧ issuesNow s i = true ∧ (s.engine 0).ops = [] ∧ (s.engine 0).held = [] ∧
      s.stoodStill s.curWave = false ∧ s.ops = [] ∧
      s.curWave.lanes.find? (fun l => decide (0x10000 < (s.curWave.v 4 l).toNat + 4)) = some 1) ∧
    (let i : Instr := .stl 5 4 .b32 0
     let s := (to_ i 0 1).setEngine 0 { Engine.empty with ops := [mat0 .accld 15] }
     s.curWave.aliased 4 = false ∧ issuesNow s i = true ∧ s.curWave.lanes = [0] ∧
     (s.wg 0).any (fun g => (List.range 4).all (fun j => decide (g.at false j < 0x200000)) && s.registered g.core (g.at false 0) 1) = true) ∧
    ∀ i ∈ [(Instr.ldl 5 4 .b32 0), .stl 5 4 .b32 0], let s := to_ i (0x100000 + 4 * 32 * 6 + 4 * 3) 1
      s.curWave.aliased 4 = true ∧ issuesNow s i = true ∧ s.pendingRegs s.cur = [] ∧ s.pendingFrames s.cur = [] ∧
      s.curWave.lo ≤ 6 ∧ holds s.curWave 6 = true ∧ (s.wg 0).isSome = true ∧
      (let t := { s with ops := [(7, { op0 (.load false) [lane0 .sent] with dst := [9] })] }
       passes t i = true ∧ t.pendingRegs t.cur ≠ []) := by decide +kernel

theorem meets_matrix :
    (∀ i ∈ [(Instr.mma 4 8 true 2 0), .accld 4 8 0], let s := holder i
      s.curWave.lanes ≠ [] ∧ (s.wg s.curWave.wg).any (fun g => (mat0 .mma 0).badRange g.l == none) = true) ∧
    (∀ x ∈ [(MatKind.mma, 0), (.accz, 15), (.accld, 15), (.accst, 15), (.accrd, 15), (.accwr, 15)],
      let m := mat0 x.1 x.2
      let s := (here 0 .nop).setEngine 0 { Engine.empty with ops := [m] }
      (s.engine 0).stop = false ∧ (s.engine 0).group = [m] ∧ (s.engine 0).held = [] ∧ s.poison = [] ∧ (s.wg m.wg).isSome = true ∧
      m.nextc < m.total ∧ (m.vals.map (·.1)).Nodup ∧ (s.wave 0).status = .ready ∧ holds (s.wave 0) 4 = true) := by decide +kernel

theorem meets_matrixToken :
    (let s := here 0 (.mxtokAcq 0)
     (s.engine 0).token = none ∧ issuesNow s (.mxtokAcq 0) = true) ∧
    (let s := (here 0 (.mxtokAcq 0)).setEngine 0 { Engine.empty with token := some 1 }
     passes s (.mxtokAcq 0) = true ∧ (s.engine 0).token = some 1) ∧
    (let s := holder (.mxtokPass 0 0)
     s.passTarget 0 = some 0 ∧ issuesNow s (.mxtokPass 0 0) = true) ∧
    (let s := here 0 (.mxtokPass 0 0)
     passes s (.mxtokPass 0 0) = true ∧ (s.engine 0).token = none) ∧
    (let s := here 0 (.mxtokRel 0)
     (s.engine 0).token ≠ some s.cur ∧ issuesNow s (.mxtokRel 0) = true) ∧
    (let s := holder (.mxtokRel 0)
     (s.engine 0).token = some s.cur ∧ issuesNow s (.mxtokRel 0) = true) ∧
    (let s := holder (.mxtokPass 3 0)
     passes s (.mxtokPass 3 0) = true ∧ (s.engine 0).token = some s.cur ∧ s.passTarget 3 = none) := by decide +kernel

def copy0 (g : Seg) : Copy :=
  { op := .cpy, id := 5, wave := 0, opId := 5, wg := 0, gang := 0, ctx := 0, sys := true, pc := 0x10000, iword := 0, fsrc := .empty,
    fdst := .empty, src := 0x20000, dst := 0, shape := dw (2 ^ 52 + 2 * 2 ^ 40), n := 32, bar := 64, ring := 0, slotIx := 0, mask := 0,
    queue := 0, dep := 0, recVA := 0, hint := .dflt, next := 1, segs := [(0, g)], killed := 0, stopped := false, tail := 0 }

def seg0 (p : SPhase) : Seg :=
  { sectors := [(0, p)], parked := false, prk := false, landB := 0, src := 0x20000, dst := 0, shape := dw (2 ^ 52 + 2 * 2 ^ 40),
    push := 0, again := [], wct := 0 }

theorem meets_copies :
    (let i : Instr := .cpy 4 8 2 .ef 0
     let s := at_ 0 i (fun w => { w with regs := Sparse.put w.regs 9 (List.replicate 32 0x100200) })
     let c := s.newCopy i .cpy 4 8 2 0 0 0 .ef
     issuesNow s i = true ∧ s.storing s.cur = false ∧ s.copyCheck c = none ∧ s.freeSlot 0 = some 0 ∧ c.n = 32 ∧ s.curWave.lanes ≠ []) ∧
    (let i : Instr := .cpy 4 8 2 .ef 0
     let s := at_ 0 i (fun w => { w with regs := Sparse.put w.regs 10 (List.replicate 32 1) })
     passes s i = true ∧ s.copyCheck (s.newCopy i .cpy 4 8 2 0 0 0 .ef) = some (7, 1, copyInfo 1)) ∧
    (∀ p ∈ [SPhase.landed, .fail 5 0 0 none],
      let s := { here 0 .nop with copies := [(0, copy0 (seg0 p))] }
      s.copyOf 0 = some (copy0 (seg0 p)) ∧ s.segOf 0 0 = some (seg0 p) ∧ s.segSettled (seg0 p) = true ∧ (s.engine 0).ops = []) ∧
    (let s := { here 0 .nop with copies := [(0, { copy0 (seg0 .landed) with next := 0, segs := [] })] }
     s.nextSeg 0 = some 0 ∧ (here 0 .nop).nextSeg 0 = none) := by decide +kernel

/-- Copies: every slot of the core's engine is taken. -/
theorem meets_copies_full :
    let i : Instr := .cpy 4 8 2 .ef 0
    let s := { at_ 0 i (fun w => { w with regs := Sparse.put w.regs 9 (List.replicate 32 0x100200) }) with
      copies := (List.range 128).map (fun k => (k, copy0 (seg0 .landed))) }
    passes s i = true ∧ s.copyCheck (s.newCopy i .cpy 4 8 2 0 0 0 .ef) = none ∧ s.curWave.lanes ≠ [] ∧ s.freeSlot 0 = none ∧
    ∀ k, k < 128 → (s.copyOf (Copy.key 0 k)).isSome = true := by decide +kernel

def pooled (s : State) : State := (s.csrPut 0x80 0 (dw (2 ^ 23 + 1))).csrPut 0x202 0 (dw (2 ^ 24 + 1))

def push0 (n : Nat) : Push :=
  { by_ := .device, words := [dw (2 ^ 60 + 2 ^ 59), 0, 0, 0, 0, dw (2 ^ 52 + 2 ^ 24 + 1), 0, 0], qw := 0x300000, count := n,
    failed := false, src := 0x50000, priv := true, die := 0 }

theorem meets_tasksMove :
    (let i : Instr := .enq 8 0
     let s := { at_ 0 i (fun w => { w with stage := 1, regs := Sparse.put w.regs 10 (List.replicate 32 0x300000) }) with gt := 5 }
     s.qwOk (s.curWave.v 10 0) = true ∧ (s.curWave.v64 8 0).toNat % 64 = 0 ∧ s.qwPkg (s.curWave.v 10 0) = s.pkg ∧
     issuesAfter s (fun t => t.fencePrep 4) i = true) ∧
    (let i : Instr := .enq 8 0
     let s := at_ 0 i (fun w => { w with regs := Sparse.put w.regs 10 (List.replicate 32 0x40) })
     passes s i = true ∧ s.qwOk (s.curWave.v 10 0) = false) ∧
    (∀ n ∈ [0, 1], ∀ b ∈ [Pusher.device, .wave 0, .copy 0 0, .window 0 1, .router 0 0 false],
      (pooled (here 0 .nop)).judge { push0 n with by_ := b } = .accept 0) ∧
    { pooled (here 0 .nop) with mode := .reset }.judge (push0 0) = .wait ∧
    { pooled (here 0 .nop) with mode := .ochre }.judge { push0 0 with qw := 0x200010 } = .wait ∧
    { pooled (here 0 .nop) with pushes := [{ push0 0 with by_ := .window 0 2 }] }.judge { push0 0 with by_ := .window 0 1 } = .wait ∧
    (here 0 .nop).judge (push0 0) = .refuse 4 ∧ (here 0 .nop).judge { push0 0 with qw := 0x40 } = .refuse 1 ∧
    ((here 0 .nop).csrPut 0x1001 0 (dw (2 ^ 63 + 1))).judge { push0 0 with qw := 0x80 } = .carry ∧
    (((here 0 .nop).csrPut 0x1001 0 (dw (2 ^ 63 + 1))).csrPut 0x400 0 256).judge { push0 0 with qw := 0x80 } = .lost ∧
    (∀ n ∈ [1, 2], let k : Task := { (here 0 .nop).task 0 |>.getD firstTask with phase := .waiting, count := n, src := 0x50000 }
      let s := { (here 0 .nop).csrPut 0x400 0 256 with tasks := [(0, firstTask), (7, k)], pool := [(0, [7])] }
      s.gtLocked = true ∧ s.task 7 = some k ∧ (Sparse.get [] s.pool 0).find? (fun t => ((s.task t).map (fun k => k.src == 0x50000)).getD false) = some 7) ∧
    (let s := { here 0 .nop with queues := [(5, [0])] }
     s.dieServes 0 = true ∧ s.flushing = none ∧ Sparse.get [] s.queues 5 = [0] ∧ s.dealerLoad 0 < 16) ∧
    (let s := { here 0 .nop with tasks := [(7, { firstTask with phase := .loading })] }
     (s.task 7).any (fun k => decide (k.phase = .loading ∧ k.die = 0)) = true ∧
     (match (s.load 0).2 with
      | .error _ => true
      | .ok _ => false) = true) := by decide +kernel

theorem meets_workgroupsAndLimits :
    (let s := { withKernel (here 0 .nop) with
       tasks := [(0, firstTask), (7, { firstTask with phase := .placing, nextWg := 0, live := 0, kernel := some kernel0 })],
       dealer := [(0, [7])] }
     s.dieServes 0 = true ∧ s.restoring 0 = [] ∧ Sparse.get [] s.dealer 0 = [7] ∧
     (s.tryLaunch 7).any (fun r => decide (r.2 = [])) = true) ∧
    (let s := { here 0 .nop with waves := [] }
     (s.wg 0).any (fun g => s.quiet 0 g) = true ∧ (s.task 0).any (fun t => t.kind == 1 && decide (t.live = 1 ∧ t.phase = .running ∧
       t.nwg ≤ t.nextWg ∧ t.stop = false ∧ t.nSucc = 0 ∧ t.record = none)) = true) ∧
    (let s := (here 0 .nop).modTask 0 (fun k => { k with hasBudget := true, deadline := 1 })
     (s.task 0).any (fun k => decide (k.phase = .running ∧ k.stop = false ∧ k.hasBudget = true ∧ k.budget = 0 ∧ k.deadline ≤ s.gt + 1)) = true) := by
  decide +kernel

def record0 (st : Nat) : Record :=
  { words := [(0, dw (2 ^ 60 + st * 2 ^ 32)), (13, 1)], kind := 1, unit := 1, tasks := 0, hold := false, marks := [], policy := [] }

/-- A handler's wave beside the record of wave 1, which is parked. -/
def handling (i : Instr) (st : Nat) : State :=
  let s := { here 0 i with records := [(0, record0 st)], gt := 5 }
  let t := { s with waves := s.waves ++ [(1, { s.curWave with status := .parked })] }
  t.setCur { t.curWave with exm := 1, stage := 1 }

/-- TasksMove: what each pusher waits with, and a load whose record lies in HBM that OCHRE does not serve. -/
theorem meets_tasksMove_pushers :
    (let s := { here 0 .nop with ops := [(7, { op0 (.record 0 0) [] with dst := [] })] }
     s.pushOp 0 = some (7, { op0 (.record 0 0) [] with dst := [] }) ∧ (s.wave 0).retired = false ∧
     (s.setCur { s.curWave with retired := true }).curWave.retired = true) ∧
    (let s := { here 0 .nop with copies := [(0, copy0 (seg0 .landed))] }
     s.copyOf (Copy.key 0 0) = some (copy0 (seg0 .landed)) ∧ s.segOf (Copy.key 0 0) ((copy0 (seg0 .landed)).nsegs - 1) = some (seg0 .landed)) ∧
    (let s := handling .nop 1
     s.recLive 0 = true ∧ s.recStatus 0 ≤ 3) ∧
    (let s := { (here 0 .nop) with mode := .ochre }
     s.loadHeld (2 ^ 35) = true ∧ s.loadHeld 0 = false) := by decide +kernel

theorem meets_recordInstructions :
    (let s := handling (.prld 4 6) 1
     s.isOwn (s.handle 6) = true ∧ s.recCheck (s.handle 6) false false [0] = none ∧ issuesNow s (.prld 4 6) = true) ∧
    (let s := handling (.prst 4 6) 1
     s.recCheck (s.handle 6) true false [0] = none ∧ issuesNow s (.prst 4 6) = true) ∧
    (let s := handling (.prreg 4 6) 1
     s.recCheck (s.handle 6) false true [] = none ∧ s.recStatus 0 ≤ 3 ∧ Sparse.find s.records 0 = some (record0 1) ∧
     issuesAfter s (fun t => t.selPrep (.prreg 4 6) 0 6 .load false) (.prreg 4 6) = true) ∧
    (let s := handling (.pwreg 4 6) 1
     s.curWave.lanes = [0] ∧ (Sparse.find s.waves 1).isSome = true ∧ selKind (s.laneArg 6 0) = 0 ∧ selPair (s.laneArg 6 0) = false ∧
     issuesAfter s (fun t => t.selPrep (.pwreg 4 6) 0 6 .store true) (.pwreg 4 6) = true ∧ s.recCheck (s.handle 6) true true [] = none) ∧
    (∀ sel ∈ [2 ^ 14 + 64 * 3, 2 ^ 12 + 64 * 2, 2 ^ 13 + 64 * 2],
      let s := handling (.pwreg 4 6) 1
      let t := s.setCur { s.curWave with regs := Sparse.put s.curWave.regs 7 (List.replicate 32 (wd sel)) }
      issuesAfter t (fun t => t.selPrep (.pwreg 4 6) 0 6 .store true) (.pwreg 4 6) = true ∧ t.laneArg 6 0 = sel ∧
      (t.wave 1).lo = 0 ∧ (Sparse.find t.records 0).any (fun r => decide (r.unit ≠ t.cur)) = true) ∧
    (let s := here 0 (.prld 4 6)
     passes s (.prld 4 6) = true ∧ s.recCheck 0 false false [0] = recFault 0 2) ∧
    (let s := handling (.prst 4 6) 4
     passes s (.prst 4 6) = true ∧ s.recCheck 0 true false [0] = recFault 0 3) := by decide +kernel

theorem meets_endingsAndTriggers :
    (∀ x ∈ [((.presume 6 : Instr), Ending.resume), (.pretry 6, .retry), (.pkill 6, .kill), (.predir 4 6, .redirect 0)],
      let s := handling x.1 1
      s.recCheck (s.handle 6) true false [] = none ∧ s.isOwn (s.handle 6) = true ∧
      issuesAfter s (fun t => ((t.fencePrep 4).bind (fun v => v.linkPrep x.1 0)).bind (fun v => v.againPrep 0 x.2)) x.1 = true) ∧
    (let s := handling (.prplay 6) 1
     s.isOwn (s.handle 6) = true ∧ s.reachable (bits (s.handle 6).toNat 19 13) = true ∧ issuesNow s (.prplay 6) = true) ∧
    ((handling .nop 1).wave 1).status = .parked ∧
    (let s := (here 0 .nop).csrPut 0x3C0 0 (dw (2 ^ 63 + 1))
     fld (s.csrGet 0x3C0 0) 63 1 = 1 ∧ fld (s.csrGet 0x3C0 0) 0 1 = 1) := by decide +kernel

def csrAt (i : Instr) (n : Word) : State := at_ 0 i (fun w => { w with stage := 1, regs := Sparse.put w.regs 6 (List.replicate 32 n) })

theorem meets_csr : issuesNow (csrAt (.csrw 4 6) 0x401) (.csrw 4 6) = true ∧ csrCheck ((csrAt (.csrw 4 6) 0x401).handle 6) = none := by
  decide +kernel

theorem meets_l2mode : issuesNow (csrAt (.csrw 4 6) 0x50) (.csrw 4 6) = true ∧ csrNum ((csrAt (.csrw 4 6) 0x50).handle 6) = 0x50 := by
  decide +kernel

theorem meets_badCsr : passes (csrAt (.csrr 4 6) 0x40070) (.csrr 4 6) = true ∧
    (csrCheck ((csrAt (.csrr 4 6) 0x40070).handle 6)).isSome = true := by decide +kernel

theorem meets_tables :
    (here 0 (.ptld 4 6 1)).loadingTable = false ∧
    (let s := at_ 0 (.rgset 4 8 63) (fun w => { w with regs := Sparse.put w.regs 8 (List.replicate 32 7) })
     s.loadingTable = false ∧ s.rangeBad (s.curWave.v64 8 0) (s.curWave.v64 10 0) = some 2 ∧ issuesNow s (.rgset 4 8 63) = true) ∧
    (let s := { at_ 0 (.rgset 4 8 63) (fun w => { w with stage := 1 }) with
       drains := [{ entry := 63, w0 := 0, w1 := 0, wave := 0, lost := true, done := true, lines := [] }] }
     issuesNow s (.rgset 4 8 63) = true) := by decide +kernel

def image0 : ParkImage :=
  { die := 0, cluster := 0, kind := 1, cls := 21, wave := 1, unit := 1, words := [], marks := [], status := 0, entries := [] }

def mig0 (d : Bool) : Migration :=
  { id := 3, req := 0x60000, leafPA := 0x1000, oldv := 0x20DF, dest := 0x40000000, size := 0, drained := d, waiters := [] }

theorem meets_systemEvents :
    (let s := { handling .nop 1 with records := [] }
     Sparse.get [] s.detached image0.die = [] ∧ s.standing image0 = true ∧ (s.csrPut 0x80 0 1).freeIndex 0 = some 0 ∧ s.freeIndex 0 = none ∧ (here 0 .nop).standing image0 = false) ∧
    (let s := handling .nop 1
     s.recLive 0 = true ∧ s.recStatus 0 ≤ 3 ∧ s.recWord 0 0x68 ≠ 0 ∧ (s.recWord 0 0x68).toNat ≤ s.gt) ∧
    (let s := { (here 0 .nop).beginSave 0 9 with agenda := [] }
     (s.finishSave 0).isSome = true ∧ s.saving = [(0, 9)] ∧ s.unchecked (s.groupsOf 0 9) = false ∧ s.groupsOf 0 9 = []) ∧
    (let s := ((here 0 .nop).csrPut 0x70 0 1).csrPut 0x71 0 (dw 256)
     s.failed / 2 ^ 0 % 2 = 0 ∧ fld (s.csrGet 0x70 0) 0 1 = 1 ∧ fld (s.csrGet 0x71 0) 0 8 ≠ fld (s.csrGet 0x71 0) 8 8 ∧ s.mayTake 0 = true) ∧
    (∀ d ∈ [true, false], let s := { here 0 .nop with migs := [(0, [mig0 d])] }
      s.migration 0 3 = some (mig0 d) ∧ s.hasDrained (mig0 d) = true ∧ s.badSource (mig0 d) = false ∧
      s.unservedPage (mig0 d).source (mig0 d).bytes = false ∧ s.unservedPage (mig0 d).dest (mig0 d).bytes = false) ∧
    ({ here 0 .nop with poison := [((mig0 true).source, { origin := 5, addr := 0 })] }).badSource (mig0 true) = true := by decide +kernel

/-- A save of a workgroup whose image needs two granules, while one has room. -/
def cramped : State :=
  let s := here 0 .nop
  { s with
    waves := [], saving := [(0, 0)], turns := [], cores := (List.range 126).map (· + 2),
    wgs := [(0, { firstGroup with waves := [], l := 4096, tiles := false, segs := [], areas := [] }),
      (1, { firstGroup with core := 1, waves := [], task := 1, spb := 33 * 4096, l := 2 ^ 24, segs := [], areas := [] })] }

/-- The same save with the image's granules all written. -/
def packed : State := { cramped with written := [(0, [(some 1, 131072), (some 1, 135168)])] }

theorem meets_systemEvents_save :
    (packed.saving = [(0, 0)] ∧ packed.unchecked (packed.groupsOf 0 0) = false ∧ (packed.groupsOf 0 0).map (·.1) = [0] ∧
     (packed.saveParts 0 0).partsWhole 0 = true ∧ (packed.finishSave 0).isSome = true) ∧
    cramped.saving = [(0, 0)] ∧ cramped.unchecked (cramped.groupsOf 0 0) = false ∧ (cramped.groupsOf 0 0).map (·.1) = [0] ∧
    (cramped.saveParts 0 0).partsWhole 0 = false ∧ (cramped.finishSave 0).isSome = true := by decide +kernel

def req0 (who : Requester) (cc cp : Nat) : HomeReq :=
  { who := who, core := 0, line := 0x20000, lanes := [0], bytes := [(4, 9)], need := [0], atom := some { op := .add, ty := .i32, data := 1, cmp := 0 },
    scope := none, cc := cc, cp := cp, wp := 0, poison := [] }

def line0 (h : Option Held) (st : Nat) : L2Line :=
  { line := 0x20000, state := st, table := 0, lc := 0, lh := 0, sharers := [], ovf := false, owner := .nobody, record := none, twin := some [],
    changed := [], cf := false, count := 2, held := h, queue := [], valid := 15, enc := 0, way := 3, wp := 0, cp := 0, data := none,
    dirty := false, expiry := 0, hostOwn := false }

def held0 (host : Bool) (tries : Nat) : Held :=
  { ev := 0, hreq := req0 (.op 7) 0 0, row := 0, prior := 0, acks := 1, rcl := true, host := host, rdata := none, hdata := none, soiled := [],
    tries := tries, flush := false, old := 0 }

def sliced (l : L2Line) : State :=
  let s := here 0 .nop
  { s with slices := [(s.homeOf 0 l.line, { lines := [l], ehz := 0, wait := [], claims := [] })] }

theorem meets_lineProtocol :
    (let s := here 0 .nop
     targetOf 0x20000 = .hbm ∧ (∀ w ∈ [Requester.op 7, .cache 0], ∀ ev, ev < 16 → s.holdsReq (s.homeOf 0 0x20000) ev (req0 w 0 3) = false) ∧
     s.inPool 0x20000 = false ∧ (s.slice (s.homeOf 0 0x20000)).lines = [] ∧ (s.slice (s.homeOf 0 0x20000)).wait = [] ∧ s.lineAt (s.homeOf 0 0x20000) 0x20000 = none ∧ s.rangeOf 0x20000 = none ∧ [(4 : Nat)].Nodup ∧ 4 + atomBytes { op := .add, ty := .i32, data := 1, cmp := 0 } ≤ 128) ∧
    (∀ l ∈ [line0 none 1, line0 (some (held0 false 0)) 3], let s := sliced l
      s.lineAt (s.homeOf 0 0x20000) 0x20000 = some l ∧ l.table ≠ noTable ∧ (s.slice (s.homeOf 0 0x20000)).wait = [] ∧ l.way ≠ 99 ∧
      s.holdsReq (s.homeOf 0 0x20000) 8 (req0 (.cache 0) 1 0) = false) ∧
    (sliced (line0 none 1)).isTransient (line0 none 1) = false ∧ (sliced (line0 none 3)).isTransient (line0 none 3) = true ∧
    (let row : Dword := (here 0 .nop).tableRow 0 0 0
     acts row 1 = true ∧ acts row 8 = false ∧ acts row 9 = false ∧ acts row 11 = false ∧ acts row 12 = false) := by decide +kernel

/-- CheckoutGranted: a line that a TWIN table governs, with and without a twin. -/
theorem meets_checkoutGranted :
    let row := mkRow 2 3 0x403
    let table : Table := { header := 0, rows := List.replicate 128 row }
    rowMsg row = 3 ∧ (∀ k ∈ [0, 1, 10], acts row k = true) ∧ (∀ k ∈ [4, 5, 6, 7, 8, 9, 11, 15], acts row k = false) ∧
    ∀ tw ∈ [none, some (List.replicate 128 (7 : Byte))],
      let ln := { line0 none 1 with table := 1, lc := 2, twin := tw, enc := State.reset.encFor 0 15 (List.replicate 128 0) }
      let r := { req0 (.op 7) 1 0 with atom := none, bytes := [] }
      let s := { sliced ln with tables := [(1, table)], ranges := [(0, (dw (2 ^ 63 + 2 * 2 ^ 16 + 0x120), dw (2 * 2 ^ 16)))] }
      let h := s.homeOf r.core r.line
      targetOf r.line = .hbm ∧ s.holdsReq h 5 r = false ∧ s.inPool r.line = false ∧ (s.slice h).wait = [] ∧
      s.lineAt h r.line = some ln ∧ s.isTransient ln = false ∧ s.tableFor r = (1, 2) ∧ s.tableRow 1 ln.state 5 = row ∧
      (∀ l ∈ (s.slice h).lines, l.way ≠ 99) ∧ ((s.slice h).lines.filter (fun l => l.twin.isSome)).length < 32 := by decide +kernel

def reply0 (w : Requester) (b : Bool) : Reply :=
  { who := w, core := 0, line := 0x20000, lanes := [0], data := List.replicate 128 3, old := 0, expiry := 9, lh := 9, wct := 4, leased := true,
    keep := true, bare := b }

def cached (k : CKind) : State := { here 0 .nop with caches := [(0, [copyOf k])] }

theorem meets_answersAndProbes :
    (let s := { at_ 0 .nop (fun w => { w with bb := 0x100000 }) with
       ops := [(7, op0 (.load false) [lane0 .sent]), (8, { op0 .store [lane0 .sent] with dst := [] })] }
     Sparse.find s.ops 7 = some (op0 (.load false) [lane0 .sent]) ∧ (s.wave 0).status = .ready ∧ holds (s.wave 0) 4 = true ∧
     (Sparse.find s.ops 8).isSome = true ∧ (lane0 .sent).away = true ∧ (lane0 (.writing 0x20000 true)).away = true ∧ s.inPool 0x20000 = false ∧
     (lane0 .sent).writes = none ∧ (lane0 (.writing 0x20000 true)).writes = some (0x20000, true) ∧ s.inBacking 0 (lane0 .sent).va = false) ∧
    (let w : HomeReq := { req0 (.cache 0) 1 0 with bytes := [(4, 9)] }
     let s := { here 0 .nop with agenda := [.wback w] }
     (s.cacheOf 0).find? (fun c => c.line == 0x20000 && decide (c.kind = .x)) = none ∧ (s.takeGiven 0 0x20000).2 = some w ∧ w.bytes ≠ [] ∧
     ((here 0 .nop).takeGiven 0 0x20000).2 = none) ∧
    ((sliced (line0 (some { held0 false 0 with acks := 0, rcl := false }) 3)).splitOf ((here 0 .nop).homeOf 0 0x20000) 0x20000
      (fun x => decide (x.acks = 0) && !x.rcl && !x.host)).isSome = true ∧
    ((cached .x).copyAt 0 0x20000).any (fun x => decide (x.kind = .x ∨ x.kind = .c)) = true ∧
    ((cached .l).copyAt 0 0x20000).any (fun x => decide (x.kind = .x ∨ x.kind = .c)) = false ∧
    (∀ k ∈ [CKind.l, .c], (cached k).cacheOf 0 ≠ [] ∧ ((cached k).cacheOf 0).all (fun c => decide (c.expiry ≤ (cached k).gt)) = true) ∧
    (∀ f ∈ [(fun (x : Held) => decide (x.acks > 0)), (fun x => x.rcl)], let s := sliced (line0 (some (held0 true 0)) 3)
      (s.splitOf (s.homeOf 0 0x20000) 0x20000 f).isSome = true) ∧
    ((sliced (line0 (some (held0 true 0)) 3)).hostSplit 0x20000).isSome = true ∧
    (line0 none 1).lh ≤ (sliced (line0 none 1)).gt ∧ (line0 none 1).way < 98 ∧
    (let a : WindowAccess := { who := .device, raw := true, pa := 0x10000000000, lanes := [], size := 4, bytes := [(0, 1)], atom := none }
     targetOf a.pa = .onchip ∧ a.pa % 0x200000 < 0x1C0000 ∧ (here 0 .nop).windowWaits a = false ∧
     ((here 0 .nop).setEngine 0 { Engine.empty with ops := [{ mat0 .accst 15 with tile := 0 }] }).windowWaits { a with pa := 0x10000180000 } = true) := by
  decide +kernel

theorem meets_hostPort :
    (∀ n ∈ [0, 3], ((sliced (line0 (some (held0 true n)) 3)).hostSplit 0x20000).isSome = true) ∧
    targetOf 0x20000 = .hbm ∧ targetOf 0x4000000000000 = .host ∧
    (let s := here 0 .nop
     s.mode ≠ .reset ∧ s.power ≠ .d3cold ∧ s.unserved 0x20000 = false ∧ { s with mode := .ochre }.unserved (2 ^ 35) = true ∧ targetOf (2 ^ 35) = .hbm ∧
     s.snooped 0x4000000000000 = []) ∧
    (∀ lh ∈ [0, 9], let l := { line0 none 0 with line := 0x4000000000000, lh := lh }
      (sliced l).snooped 0x4000000000000 = [((here 0 .nop).homeOf 0 l.line, l)] ∧ (sliced l).snoopWaits l = decide (lh = 9)) ∧
    (∀ v ∈ [0, 15], let l := { line0 (some (held0 true 100)) 3 with enc := State.reset.encFor 0 15 (List.replicate 128 3), valid := v }
      let s := sliced l
      ((s.hostWait 0x20000).isSome = true ∧ l.way ≠ 98 ∧ s.poison = [] ∧ (s.otherHalf 0x20000 (req0 (.op 7) 0 0)).isNone = true ∧
       writesHalf (req0 (.op 7) 0 0) = false ∧ l.enc = s.encFor l.wp 15 (List.replicate 128 3))) := by decide +kernel

theorem meets_hostCommands :
    let s := { here 0 .nop with mailbox := { Mailbox.empty with inlen := 1316, input := [(0, 1)] }, keys := [(0, [])] }
    s.power ≠ .d3cold ∧ s.mode ≠ .reset ∧ s.gtLocked = false ∧ (s.csrPut 0x400 0 256).gtLocked = true ∧ s.mailbox.inlen = 1316 ∧ ofBytes (s.mailIn 0 4) = 1 ∧ s.revoked.contains 1 = false ∧
    (Sparse.get EnqSlot.empty s.windows 0).state ≠ 1 ∧ (s.csrGet 0x3C1 0).toNat ≤ s.gt := by decide +kernel

theorem meets_platformEvents :
    State.reset.mode = .reset ∧ State.reset.power = .d0 ∧
    (let s := { State.reset with mode := .ochre }
     s.slices = [] ∧ s.pushes = []) ∧
    (let s := State.reset.csrPut 0x400 0 1
     fld (s.csrGet 0x400 0) 0 1 = 1) ∧
    (let l : Link := { work := .push { push0 0 with qw := 0x80 }, die := 0, pkg := 1, since := 0 }
     let s := { State.reset with link := [l], gt := 2000000 }
     l.awaited (.push { push0 0 with qw := 0x80 }) = true ∧ s.overdue l = true ∧ { s with gt := 5 }.overdue l = false ∧
     s.cargo 0 = [] ∧ s.gtLocked = false) ∧
    (let s := { State.reset with scans := [(0, { core := 5, alevel := 0, begun := false })] }
     State.reset.coreIn 5 = true ∧ s.residents 5 = [] ∧ s.wgs = [] ∧ s.guests = []) ∧
    (let s := State.reset.csrPut 0x3A0 0 (dw (2 ^ 63))
     fld (s.csrGet 0x3A0 0) 63 1 = 1 ∧ s.failed = 0 ∧ s.badGranule (s.scrubAt 0) = none ∧ (s.mark (s.scrubAt 0)).origin = 0) ∧
    { State.reset with encs := [(0, 65536)], tagDiff := [(0, 1)] }.badGranule 65504 = some 0 ∧ fld (State.reset.csrGet 0x390 0) 0 1 = 0 ∧
    (let s := { State.reset with flushing := some (1, false, none), drains := [{ entry := 0, w0 := 0, w1 := 0, wave := 0, lost := false, done := false, lines := [] }] }
     s.flushStep.isSome = true ∧ s.drainStep.isSome = true) := by decide +kernel

theorem meets_stepRunsDecoded :
    let s := here 0 .nop
    let t := s.tick
    let u := { t with turns := [] }
    t.turns = [.wave 0] ∧ u.canMove 0 = true ∧ (u.wave 0).hasSeg = true ∧ u.lateOp 0 = none ∧ u.liveRun 0 = none ∧ u.mayRun 0 = none ∧
    (u.wave 0).fword = some ((u.wave 0).pc, encode .nop) ∧ decode (encode .nop) = .ok .nop ∧ u.caches = [] ∧ u.slices = [] ∧
    (u.setWave 0 { u.wave 0 with fword := none }).curWave.fetched = none ∧
    (let o := op0 .fetch [lane0 .sent]
     o.kind = .fetch ∧ o.resume = false ∧ o.size = 4 ∧ (s.wave o.wave).status = .ready ∧ (at_ 0 .nop (fun w => { w with bb := 0x100000 })).inBacking 0 0x20000 = false) := by decide +kernel

theorem meets_takeSegment :
    ((mapped (at_ 0 .nop (fun w => { w with bb := 0x20000, lo := 60 }))).takeSegment 0).isSome = true := by decide +kernel

theorem meets_indigo :
    let i : Instr := .add 5 0 4 0 4
    let s := { withKernel (at_ 0 i (fun w => { w with status := .waiting })) with ops := [(7, op0 (.load false) [lane0 .xlate])] }
    let t := s.modTask 0 (fun k => { k with kernel := some { kernel0 with indigo := true } })
    t.mayRun 0 = some 7 ∧
    (let r : Indigo := { live := true, seq := 0, copy := t.curWave, marks := [], kmarks := [], fmarks := [], run := 512, op := 7 }
     t.runOver 0 r = true) := by decide +kernel

/-! ## One step each -/

/-- Vector register d in lane 3 after instruction i, with every lane of v6 and v8 at the values given. -/
def after (g : Nat) (i : Instr) (x y d : Nat) : Option Word :=
  let s := at_ g i (fun w => { w with regs := Sparse.put (Sparse.put w.regs 6 (List.replicate 32 (wd x))) 8 (List.replicate 32 (wd y)) })
  match exec i s with
  | .next t => some (t.curWave.v d 3)
  | _ => none

/-- 10/R225: a sum is taken modulo the width of an element, each element by itself. -/
theorem test_add_wraps : after 0 (.add 4 0 6 0 8) 0xFFFFFFFF 2 4 = some 1 ∧
    after 16 (.add 4 0 6 0 8) 0xFFFF0001 0x00020003 4 = some 0x00010004 := by decide +kernel

/-- 10/R225: MULH keeps the high half, under the sign of the type. -/
theorem test_mulh : after 0 (.mulh 4 0 6 0 8) 0x80000000 2 4 = some 0xFFFFFFFF ∧
    after 8 (.mulh 4 0 6 0 8) 0x80000000 2 4 = some 1 := by decide +kernel

/-- 10/R227: a count of the width gives zeros, or the sign. -/
theorem test_shift_width : after 0 (.shl 4 0 6 0 8) 0x80000001 32 4 = some 0 ∧
    after 0 (.sar 4 0 6 0 8) 0x80000001 32 4 = some 0xFFFFFFFF := by decide +kernel

/-- 08/R175: 1.5 + 2.25 = 3.75 and 1 / 3 rounds to nearest even at 0x3EAAAAAB. -/
theorem test_float : after 48 (.fadd 4 0 6 0 8) 0x3FC00000 0x40100000 4 = some 0x40700000 ∧
    (fDiv f32 (here 48 .nop).curWave.env 0x3F800000 0x40400000).1 = 0x3EAAAAAB := by decide +kernel

/-- 10/R236: conversion toward zero of −2.75. -/
theorem test_cvt : after 48 (.cvt 4 0 6 .i32 true) 0xC0300000 0 4 = some 0xFFFFFFFE := by decide +kernel

/-- 10/R242: lane 3 receives lane 2 of a horizontal exchange; SREAD LID is the lane. -/
theorem test_lanes :
    (let s := at_ 0 (.qxh 4 0 6) (fun w => { w with regs := Sparse.put w.regs 6 ((List.range 32).map wd) })
     match exec (.qxh 4 0 6) s with
     | .next t => some (t.curWave.v 4 3)
     | _ => none) = some 2 ∧ after 0 (.sread 4 0) 0 0 4 = some 3 := by decide +kernel

/-- 10/R252: a branch back by one word from 0x10000; the next word where it is not taken. -/
theorem test_branch : ((match exec (.br 0 .t 0xFFFFF) (at_ 0 .nop (fun w => { w with cct := true })) with
    | .next t => some t.curWave.pc
    | _ => none) = some 0xFFFC) ∧ ((match exec (.br 0 .t 0xFFFFF) (here 0 .nop) with
    | .next t => some t.curWave.pc
    | _ => none) = some 0x10004) := by decide +kernel

/-- 10/R244, 07/R168: k0 reads as every lane and is never written. -/
theorem test_k0 : (match exec (.kandn 0 1 1) (here 0 .nop) with
    | .next t => some (t.curWave.kread 0)
    | _ => none) = some ((here 0 .nop).curWave.kread 0) ∧ (here 0 .nop).curWave.kread 0 = 0xFFFFFFFF := by decide +kernel

/-- 12/R294: what STL stores, LDL reads, and the byte order is little-endian. -/
theorem test_local : (match exec (.stl 6 8 .b32 0) (at_ 0 .nop (fun w =>
      { w with exm := 8, regs := Sparse.put (Sparse.put w.regs 6 (List.replicate 32 0x11223344)) 8 (List.replicate 32 0x40) })) with
    | .next t => (match exec (.ldl 4 8 .n8 0) (t.setCur { t.curWave with status := .ready }) with
      | .next u => some (u.curWave.v 4 3)
      | _ => none)
    | _ => none) = some 0x44 := by decide +kernel

/-- 13/R345, 09/R208: a trap's record goes to be written and the wave is parked; so it is for a word that is no
instruction, at its own PC. -/
theorem test_traps : (match exec (.trap 5) (here 0 .nop) with
    | .next t => some (t.curWave.status, t.curWave.pc)
    | _ => none) = some (.parked, 0x10004) ∧ (match exec (.unassignedWord 0) (here 0 .nop) with
    | .next t => some (t.curWave.status, t.curWave.pc)
    | _ => none) = some (.parked, 0x10000) := by decide +kernel

/-- A step from a placed word runs it. -/
theorem test_step : (match step (State.reset.withFetchWord 32 0xE0441201) with
    | .next t => some (t.curWave.v 4 7, t.curWave.pc)
    | _ => none) = some (0x41201000, 0x10004) := by decide +kernel

end Sys2Proof.Tests
end

/-! PROOFS. The canonical form of memory along a step: time runs on without touching memory, and every move that
`State.move` can make is already known to keep the form (`State.move_wf`). -/

namespace Sys2Proof.Proofs

open Sys2Proof.Machine

open Sys2Proof.Safety

/-- Time that runs on stores no byte, so the form is that of before. -/
theorem memWf_tick {s : State} (h : memWf s = true) : memWf s.tick = true := by
  unfold memWf
  rw [State.tick_mem]
  exact h

theorem memWf_of_move {s t : State} (h : memWf s = true) (e : s.move = .next t) : memWf t = true :=
  OutWf.of e (State.move_wf s h)

/-- Settles O60: a step is the move made from the state at the next tick, and each of the two keeps the form (that what
is not listed reads as 0 is log 4). -/
theorem stepKeepsMemoryForm : Obligations.StepKeepsMemoryForm := by
  unfold Obligations.StepKeepsMemoryForm
  intro s t hs hstep
  have hmove : s.tick.move = .next t := hstep
  exact memWf_of_move (memWf_tick hs) hmove

end Sys2Proof.Proofs

/-! PROOFS. Translation: what XLB and XINV begin, what XINV leaves in no frame and no TLB of its core, how a walk ends,
and that a TLB entry just filled is the one found. -/

namespace Sys2Proof.Proofs

open Sys2Proof.Machine

open Sys2Proof.Safety

/-! ## What issue leaves -/

/-- The charge to the budget changes tasks and what is to come, no more. -/
theorem charge_eq (s : State) (id : Nat) :
    s.charge id = { s with tasks := (s.charge id).tasks, agenda := (s.charge id).agenda } := by
  unfold State.charge
  dsimp only
  split
  · split
    · generalize (if (s.wave id).w64 = true then 2 else 1) = n
      split <;> rfl
    · rfl
  · rfl

theorem issuedBy_nextId (s : State) (i : Instr) : (s.issuedBy i).nextId = s.nextId := by
  unfold State.issuedBy
  rw [charge_eq]
  rfl

theorem issuedBy_asid (s : State) (i : Instr) (ctx : Nat) : (s.issuedBy i).asid ctx = s.asid ctx := by
  unfold State.issuedBy
  rw [charge_eq]
  rfl

section Issued
variable (s : State) (i : Instr)

theorem issuedBy_lanes : (s.issuedBy i).curWave.lanes = s.curWave.lanes := by
  rw [State.issuedBy_curWave, Wave.issued_lanes]

/-- Issue changes no register, so a uniform address reads as before. -/
theorem issuedBy_uniform64 (a : Nat) :
    (s.issuedBy i).curWave.v64 a (s.issuedBy i).curWave.uniform = s.curWave.v64 a s.curWave.uniform := by
  rw [State.issuedBy_curWave, Wave.issued_v64, Wave.issued_uniform]

theorem issuedBy_ctx : (s.issuedBy i).curWave.ctx = s.curWave.ctx := by
  rw [State.issuedBy_curWave]
  rfl

theorem issuedBy_frame : (s.issuedBy i).curWave.frame = s.curWave.frame := by
  rw [State.issuedBy_curWave]
  rfl

end Issued

/-! ## XLB (R301) -/

theorem exec_xlb (a : Reg) (f : Low) (la : Ahead) (s : State) : exec (.xlb a f la) s = execXlb a f la s := rfl

theorem exec_xlb_noLane {s u : State} {a : Reg} {f : Low} {la : Ahead} (h : Issues s (.xlb a f la) u)
    (hl : u.curWave.lanes = []) :
    exec (.xlb a f la) s = .next (((u.issuedBy (.xlb a f la)).setCur
      ((u.issuedBy (.xlb a f la)).curWave.setFrame f { u.curWave.frame f with v := false })).emptyOp .m) := by
  rw [exec_xlb, execXlb, issue_next h]
  simp only [issuedBy_lanes, issuedBy_frame, hl, if_true]

theorem exec_xlb_asks {s u : State} {a : Reg} {f : Low} {la : Ahead} (h : Issues s (.xlb a f la) u)
    (hl : u.curWave.lanes ≠ []) :
    exec (.xlb a f la) s = .next ((u.issuedBy (.xlb a f la)).startOp
      ((u.issuedBy (.xlb a f la)).uniformOp (.xlb a f la) (.xlb f.val) (u.curWave.v64 a u.curWave.uniform) 0 [])) := by
  rw [exec_xlb, execXlb, issue_next h]
  simp only [issuedBy_lanes, issuedBy_uniform64, hl, if_false]

/-! ## Tables mapped entry by entry -/

theorem get_mapWithKey {α : Type} (d : α) (m : Sparse α) (g : Nat → α → α) (k : Nat) (h : g k d = d) :
    Sparse.get d (m.map (fun x => (x.1, g x.1 x.2))) k = g k (Sparse.get d m k) := by
  induction m with
  | nil => exact h.symm
  | cons e r ih =>
    obtain ⟨k', v⟩ := e
    simp only [List.map_cons, Sparse.get]
    split
    · next e => rw [e]
    · exact ih

theorem find_map {α : Type} (m : Sparse α) (g : α → α) (k : Nat) :
    Sparse.find (m.map (fun x => (x.1, g x.2))) k = (Sparse.find m k).map g := by
  induction m with
  | nil => rfl
  | cons e r ih =>
    obtain ⟨k', v⟩ := e
    simp only [List.map_cons, Sparse.find]
    split
    · rfl
    · exact ih

/-! ## Frames cleared (R302) -/

/-- A frame, its V bit cleared where `b` holds. -/
def clearIf (b : Bool) (f : Frame) : Frame := if b then { f with v := false } else f

theorem clearIf_empty (b : Bool) : clearIf b Frame.empty = Frame.empty := by
  cases b <;> rfl

/-- A wave with the frames cleared of which `bad` holds. -/
def clearWave (bad : Frame → Bool) (w : Wave) : Wave :=
  { w with frames := w.frames.map (fun f => (f.1, clearIf (bad f.2) f.2)) }

theorem frame_clearWave (bad : Frame → Bool) (w : Wave) (n : Nat) :
    (clearWave bad w).frame n = clearIf (bad (w.frame n)) (w.frame n) :=
  Sparse.get_map Frame.empty w.frames (fun f => clearIf (bad f) f) n (clearIf_empty _)

theorem wave_clearFrames (s : State) (bad : Nat → Nat → Frame → Bool) (id : Nat) :
    (s.clearFrames bad).wave id = clearWave (bad id (s.wave id).ctx) (s.wave id) :=
  get_mapWithKey Wave.empty s.waves (fun id w => clearWave (bad id w.ctx) w) id rfl

theorem find_ops_clearFrames {s : State} {id : Nat} {o : MemOp} (bad : Nat → Nat → Frame → Bool)
    (h : Sparse.find s.ops id = some o) :
    Sparse.find (s.clearFrames bad).ops id =
      some { o with frame := o.frame.map (fun f => clearIf (bad o.wave (s.wave o.wave).ctx f) f) } := by
  have hm := find_map s.ops (fun o : MemOp =>
    { o with frame := o.frame.map (fun f => clearIf (bad o.wave (s.wave o.wave).ctx f) f) }) id
  rw [h] at hm
  exact hm

/-- The frames that XINV of a wave clears: those of the page, of its context or global, in the waves that its scope
reaches. -/
def xinvBad (sc : Scope) (own ctx page w c : Nat) (f : Frame) : Bool :=
  f.maps page && (decide (c = ctx) || f.g) &&
    (if sc = .wave then w == own else inReach sc (coreOfWave own) (coreOfWave w))

theorem inReach_self (sc : Scope) (c : Nat) : inReach sc c c = true := by
  cases sc <;> simp [inReach]

/-- A wave's own frames of the page are among them at every scope. -/
theorem xinvBad_own (sc : Scope) (own ctx page : Nat) (f : Frame) : xinvBad sc own ctx page own ctx f = f.maps page := by
  simp [xinvBad, inReach_self]

theorem maps_clearIf (f : Frame) (page : Nat) : (clearIf (f.maps page) f).maps page = false := by
  cases h : f.maps page
  · exact h
  · rfl

/-! ## What XINV invalidates (R302) -/

/-- Besides clearing frames, XINV changes TLBs alone. -/
theorem invalidate_eq (s : State) (sc : Scope) (id ctx page : Nat) :
    s.invalidate sc id ctx page = { s.clearFrames (xinvBad sc id ctx page) with
      l1tlb := (s.invalidate sc id ctx page).l1tlb, l2tlb := (s.invalidate sc id ctx page).l2tlb } := by
  cases sc <;> rfl

theorem wave_invalidate (s : State) (sc : Scope) (id ctx page j : Nat) :
    (s.invalidate sc id ctx page).wave j = clearWave (xinvBad sc id ctx page j (s.wave j).ctx) (s.wave j) := by
  rw [invalidate_eq]
  exact wave_clearFrames s (xinvBad sc id ctx page) j

theorem invalidate_cur (s : State) (sc : Scope) (id ctx page : Nat) : (s.invalidate sc id ctx page).cur = s.cur := by
  rw [invalidate_eq]
  rfl

theorem invalidate_agenda (s : State) (sc : Scope) (id ctx page : Nat) :
    (s.invalidate sc id ctx page).agenda = s.agenda := by
  rw [invalidate_eq]
  rfl

/-- An operation under way stays, but for its frame. -/
theorem find_ops_invalidate {s : State} {n : Nat} {o : MemOp} (sc : Scope) (id ctx page : Nat)
    (h : Sparse.find s.ops n = some o) :
    ∃ fr, Sparse.find (s.invalidate sc id ctx page).ops n = some { o with frame := fr } := by
  rw [invalidate_eq]
  exact ⟨_, find_ops_clearFrames _ h⟩

theorem maps_frame_invalidate (s : State) (sc : Scope) (id page n : Nat) :
    (((s.invalidate sc id (s.wave id).ctx page).wave id).frame n).maps page = false := by
  rw [wave_invalidate, frame_clearWave, xinvBad_own]
  exact maps_clearIf _ page

theorem l1tlb_invalidate (s : State) {sc : Scope} (id ctx page : Nat) (hsc : sc ≠ .wave) :
    (s.invalidate sc id ctx page).l1tlb = s.l1tlb.map (fun x => (x.1,
      if inReach sc (coreOfWave id) x.1 then x.2.filter (fun e => !e.hits (s.asid ctx) page) else x.2)) := by
  unfold State.invalidate
  dsimp only
  rw [if_neg hsc]
  rfl

/-- No entry of the page stays in the TLB of the wave's core. -/
theorem hits_l1tlb_invalidate {s : State} {sc : Scope} {id ctx page : Nat} {es : List TlbEntry} {e : TlbEntry}
    (hsc : sc ≠ .wave) (hes : (coreOfWave id, es) ∈ (s.invalidate sc id ctx page).l1tlb) (he : e ∈ es) :
    e.hits (s.asid ctx) page = false := by
  rw [l1tlb_invalidate s id ctx page hsc] at hes
  obtain ⟨⟨c, es'⟩, -, hx⟩ := List.mem_map.1 hes
  obtain ⟨rfl, rfl⟩ := Prod.mk.inj hx
  rw [inReach_self, if_pos rfl, List.mem_filter] at he
  simpa using he.2

/-! ## XINV (R302) -/

/-- An operation of the wave that moves begun on counter M, for its event to end. -/
def beginM (t : State) (o : MemOp) : State :=
  { t with ops := Sparse.put t.ops t.nextId o, nextId := t.nextId + 1 }.setCur (t.curWave.countUp .m t.nextId)

/-- XINV's invalidation, which an address that is not canonical has none of. -/
def invalidateAt (t : State) (sc : Scope) (ctx : Nat) (va : Dword) : State :=
  if canonical va then t.invalidate sc t.cur ctx (pageOf va) else t

/-- The operation that XINV begins. -/
def xinvOp (t : State) (i : Instr) (sc : Scope) (va : Dword) : MemOp :=
  { t.uniformOp i (.xinv (if canonical va then (t.cleared sc t.cur t.curWave.ctx (pageOf va)).eraseDups else []))
      va 0 [] with lanes := [] }

theorem curWave_beginM (t : State) (o : MemOp) : (beginM t o).curWave = t.curWave.countUp .m t.nextId :=
  State.curWave_setCur ..

theorem find_ops_beginM (t : State) (o : MemOp) : Sparse.find (beginM t o).ops t.nextId = some o :=
  Sparse.find_put_same ..

/-- What the invalidation leaves as it was. -/
theorem invalidateAt_frame (t : State) (sc : Scope) (ctx : Nat) (va : Dword) :
    (invalidateAt t sc ctx va).mem = t.mem ∧ (invalidateAt t sc ctx va).agenda = t.agenda ∧
      (invalidateAt t sc ctx va).curWave = { t.curWave with frames := (invalidateAt t sc ctx va).curWave.frames } := by
  unfold invalidateAt
  split
  · refine ⟨State.invalidate_mem .., invalidate_agenda .., ?_⟩
    unfold State.curWave
    rw [invalidate_cur, wave_invalidate]
    rfl
  · exact ⟨rfl, rfl, rfl⟩

theorem find_ops_invalidateAt {t : State} {n : Nat} {o : MemOp} (sc : Scope) (ctx : Nat) (va : Dword)
    (h : Sparse.find t.ops n = some o) :
    ∃ fr, Sparse.find (invalidateAt t sc ctx va).ops n = some { o with frame := fr } := by
  unfold invalidateAt
  split
  · exact find_ops_invalidate sc t.cur ctx (pageOf va) h
  · exact ⟨o.frame, h⟩

theorem maps_frame_invalidateAt (t : State) (sc : Scope) {va : Dword} (hva : canonical va = true) (n : Nat) :
    ((invalidateAt t sc t.curWave.ctx va).curWave.frame n).maps (pageOf va) = false := by
  unfold invalidateAt State.curWave
  rw [if_pos hva, invalidate_cur]
  exact maps_frame_invalidate t sc t.cur (pageOf va) n

theorem hits_l1tlb_invalidateAt {t : State} {sc : Scope} {ctx : Nat} {va : Dword} {es : List TlbEntry} {e : TlbEntry}
    (hva : canonical va = true) (hsc : sc ≠ .wave) (hes : (coreOfWave t.cur, es) ∈ (invalidateAt t sc ctx va).l1tlb)
    (he : e ∈ es) : e.hits (t.asid ctx) (pageOf va) = false := by
  rw [invalidateAt, if_pos hva] at hes
  exact hits_l1tlb_invalidate hsc hes he

/-- The state that XINV answers where a lane is active, from the state in which it has issued. -/
def xinvState (t : State) (i : Instr) (sc : Scope) (va : Dword) : State :=
  (invalidateAt (beginM t (xinvOp t i sc va)) sc t.curWave.ctx va).post (.xinvComplete t.nextId)

theorem exec_xinv (a : Reg) (sc : Scope) (la : Ahead) (s : State) : exec (.xinv a sc la) s = execXinv a sc la s := rfl

theorem exec_xinv_noLane {s u : State} {a : Reg} {sc : Scope} {la : Ahead} (h : Issues s (.xinv a sc la) u)
    (hl : u.curWave.lanes = []) : exec (.xinv a sc la) s = .next ((u.issuedBy (.xinv a sc la)).emptyOp .m) := by
  rw [exec_xinv, execXinv, issue_next h]
  simp only [issuedBy_lanes, hl, if_true]

theorem exec_xinv_invalidates {s u : State} {a : Reg} {sc : Scope} {la : Ahead} (h : Issues s (.xinv a sc la) u)
    (hl : u.curWave.lanes ≠ []) :
    exec (.xinv a sc la) s = .next (xinvState (u.issuedBy (.xinv a sc la)) (.xinv a sc la) sc
      (u.curWave.v64 a u.curWave.uniform)) := by
  rw [exec_xinv, execXinv, issue_next h]
  simp only [issuedBy_lanes, issuedBy_uniform64, hl, if_false]
  rfl

section Answer
variable (t : State) (i : Instr) (sc : Scope) {va : Dword}

/-- Memory stays, the end of the operation is to come, and of the wave only counter M and frames change. -/
theorem xinvState_frame (va : Dword) :
    (xinvState t i sc va).mem = t.mem ∧ (xinvState t i sc va).agenda = t.agenda ++ [.xinvComplete t.nextId] ∧
      (xinvState t i sc va).curWave =
        { t.curWave with mq := t.curWave.mq ++ [{ op := t.nextId, done := false }],
                         frames := (xinvState t i sc va).curWave.frames } := by
  obtain ⟨hmem, hagenda, hwave⟩ := invalidateAt_frame (beginM t (xinvOp t i sc va)) sc t.curWave.ctx va
  rw [curWave_beginM] at hwave
  exact ⟨hmem, congrArg (· ++ [Instr.xinvComplete t.nextId]) hagenda, hwave⟩

theorem find_ops_xinvState (va : Dword) :
    ∃ o, Sparse.find (xinvState t i sc va).ops t.nextId = some o ∧ o.wave = t.cur ∧ o.kind = .xinv
      (if canonical va then (t.cleared sc t.cur t.curWave.ctx (pageOf va)).eraseDups else []) := by
  obtain ⟨fr, hfind⟩ :=
    find_ops_invalidateAt sc t.curWave.ctx va (find_ops_beginM t (xinvOp t i sc va))
  exact ⟨_, hfind, rfl, rfl⟩

theorem maps_frame_xinvState (hva : canonical va = true) (n : Nat) :
    ((xinvState t i sc va).curWave.frame n).maps (pageOf va) = false := by
  have hctx : (beginM t (xinvOp t i sc va)).curWave.ctx = t.curWave.ctx := by rw [curWave_beginM]; rfl
  unfold xinvState
  rw [State.curWave_post, ← hctx]
  exact maps_frame_invalidateAt _ sc hva n

theorem hits_l1tlb_xinvState (hva : canonical va = true) (hsc : sc ≠ .wave) {es : List TlbEntry} {e : TlbEntry}
    (hes : (coreOfWave t.cur, es) ∈ (xinvState t i sc va).l1tlb) (he : e ∈ es) :
    e.hits (t.asid t.curWave.ctx) (pageOf va) = false :=
  hits_l1tlb_invalidateAt (t := beginM t (xinvOp t i sc va)) hva hsc hes he

end Answer

/-! ## The end of a walk (R41, R431) -/

theorem exec_walkComplete (k : WalkKey) (s : State) : exec (.walkComplete k) s = execWalkComplete k s := rfl

section WalkEnds
variable {s s1 : State} {k : WalkKey}

theorem exec_walkComplete_leaf {e : Dword} {at_ lvl : Nat} (hk : k ∈ s.walks)
    (hs : s1 = { s with walks := s.walks.filter (· != k) })
    (hw : s1.walk (4 * k.cluster) k.ctx (sext57 (k.page * 65536)) = .leaf e at_ lvl) :
    exec (.walkComplete k) s = .next (((s1.walkCores k).foldl
      (fun acc c => acc.tlbFill c (tlbOf k.asid k.page e at_ lvl)) s1).retryAll k.cluster true) := by
  rw [exec_walkComplete, execWalkComplete, if_neg (by simpa using hk), ← hs]
  simp only [hw]

/-- Tables in HBM that nothing serves (R431) or of a failed die (log 101): the walk stays outstanding. -/
theorem exec_walkComplete_held (hk : k ∈ s.walks) (hs : s1 = { s with walks := s.walks.filter (· != k) })
    (hw : s1.walk (4 * k.cluster) k.ctx (sext57 (k.page * 65536)) = .held) :
    exec (.walkComplete k) s = .next s := by
  rw [exec_walkComplete, execWalkComplete, if_neg (by simpa using hk), ← hs]
  simp only [hw]

/-- Where nothing stalls, nothing tries again. -/
theorem retryAll_of_none {cl : Nat} {found : Bool} (ho : s.stalled cl = []) (hg : s.stalledSegs cl = []) :
    s.retryAll cl found = s := by
  unfold State.retryAll
  rw [ho, hg]
  rfl

/-- The end of a walk without a leaf: what waited for it fails, and what may still park tries again. -/
def walkFailed (s : State) (k : WalkKey) (w : WalkEnd) : State :=
  let s2 := (s.stalled k.cluster).foldl (fun acc id => (acc.walkFails id k w).finishOp id) s
  ((s2.stalledSegs k.cluster).foldl (fun acc x => acc.segWalkFails x.1 x.2 k w) s2).retryAll k.cluster false

theorem walkFailed_of_none (w : WalkEnd) (ho : s.stalled k.cluster = []) (hg : s.stalledSegs k.cluster = []) :
    walkFailed s k w = s := by
  simp only [walkFailed, ho, hg, List.foldl_nil]
  exact retryAll_of_none ho hg

/-- A walk without a leaf ends. -/
theorem exec_walkComplete_fails (hk : k ∈ s.walks) (hs : s1 = { s with walks := s.walks.filter (· != k) })
    (hleaf : ∀ e at_ lvl, s1.walk (4 * k.cluster) k.ctx (sext57 (k.page * 65536)) ≠ .leaf e at_ lvl)
    (hheld : s1.walk (4 * k.cluster) k.ctx (sext57 (k.page * 65536)) ≠ .held) :
    exec (.walkComplete k) s = .next (walkFailed s1 k (s1.walk (4 * k.cluster) k.ctx (sext57 (k.page * 65536)))) := by
  rw [exec_walkComplete, execWalkComplete, if_neg (by simpa using hk), ← hs]
  cases hw : s1.walk (4 * k.cluster) k.ctx (sext57 (k.page * 65536)) with
  | leaf e at_ lvl => exact absurd hw (hleaf e at_ lvl)
  | held => exact absurd hw hheld
  | bad reason level => simp only [hw, walkFailed]
  | migrating die id => simp only [hw, walkFailed]
  | poisoned m => simp only [hw, walkFailed]

end WalkEnds

/-! ## A TLB filled (R39) -/

theorem hits_tlbOf (asid page at_ lvl : Nat) (e : Dword) : (tlbOf asid page e at_ lvl).hits asid page = true := by
  simp [TlbEntry.hits, tlbOf]

/-- The entry of a fill stands first in the core's TLB, so a lookup that it serves finds it. -/
theorem tlbLookup_tlbFill {asid page : Nat} (s : State) (c : Nat) {x : TlbEntry} (h : x.hits asid page = true) :
    (s.tlbFill c x).tlbLookup c asid page = some x := by
  have hget : Sparse.get [] (s.tlbFill c x).l1tlb c = (x :: (Sparse.get [] s.l1tlb c).filter
      (fun y => !(y.asid == x.asid && y.page == x.page && y.size == x.size))).take 256 := Sparse.get_put_same ..
  unfold State.tlbLookup
  simp only [hget, List.take_succ_cons, List.find?_cons, h]

/-! ## The obligation -/

/-- What XINV with an active lane leaves, in the words of the state from which it issues. -/
theorem xinvState_issuedBy (u : State) (i : Instr) (sc : Scope) (va : Dword) :
    let w := u.curWave
    let t := xinvState (u.issuedBy i) i sc va
    t.mem = (u.issuedBy i).mem ∧ t.curWave.regs = w.regs ∧ t.curWave.mq.length = w.mq.length + 1 ∧
      t.agenda = (u.issuedBy i).agenda ++ [.xinvComplete u.nextId] ∧
      (∃ o, Sparse.find t.ops u.nextId = some o ∧ o.wave = u.cur ∧ o.kind = .xinv
        (if canonical va then ((u.issuedBy i).cleared sc u.cur w.ctx (pageOf va)).eraseDups else [])) ∧
      (canonical va = true → (∀ f, (t.curWave.frame f).maps (pageOf va) = false) ∧
        (sc ≠ .wave → ∀ es, (coreOfWave u.cur, es) ∈ t.l1tlb → ∀ e ∈ es,
          e.hits (u.asid w.ctx) (pageOf va) = false)) := by
  intro w t
  obtain ⟨hmem, hagenda, hwave⟩ := xinvState_frame (u.issuedBy i) i sc va
  have hop := find_ops_xinvState (u.issuedBy i) i sc va
  have htlb := @hits_l1tlb_xinvState (u.issuedBy i) i sc va
  rw [State.issuedBy_curWave] at hwave
  rw [issuedBy_nextId] at hagenda
  rw [issuedBy_nextId, State.issuedBy_cur, issuedBy_ctx] at hop
  rw [State.issuedBy_cur, issuedBy_asid, issuedBy_ctx] at htlb
  refine ⟨hmem, ?_, ?_, hagenda, hop, fun hva => ⟨maps_frame_xinvState _ i sc hva, ?_⟩⟩
  · rw [hwave]
    rfl
  · rw [hwave]
    exact List.length_append
  · exact fun hsc es hes e he => htlb hva hsc hes he

/-- Settles O36: each clause is the lemma of its operation; that a walk waits for tables of a failed die, too, is log
101. -/
theorem translation : Obligations.Translation := by
  unfold Obligations.Translation
  refine ⟨fun s u a f la h => ⟨exec_xlb_noLane h, fun hl => ?_⟩, fun s u a sc la h => ⟨exec_xinv_noLane h, fun hl => ?_⟩,
    fun s k hk => ⟨fun e at_ lvl hw => ?_, ?_, ?_⟩, fun s c asid page at_ lvl e => ?_⟩
  · exact ⟨_, State.issuedBy_cur .., rfl, rfl, rfl, rfl, exec_xlb_asks h hl⟩
  · exact ⟨_, exec_xinv_invalidates h hl, xinvState_issuedBy ..⟩
  · exact exec_walkComplete_leaf hk rfl hw
  · exact exec_walkComplete_held hk rfl
  · intro hleaf hheld ho hg
    rw [exec_walkComplete_fails hk rfl hleaf hheld, walkFailed_of_none _ ho hg]
  · exact tlbLookup_tlbFill s c (hits_tlbOf ..)

end Sys2Proof.Proofs

/-! PROOFS. Bytes and lines: what a store leaves in memory, what a slice holds of a line after the plain operations on it, and what
bytes merged into a line change (03/R54, R60, R79). -/

namespace Sys2Proof.Proofs

open Sys2Proof.Machine

open Sys2Proof.Safety

/-! ## Numbers and bytes -/

theorem length_toBytes (n v : Nat) : (toBytes n v).length = n := by
  induction n generalizing v with
  | zero => rfl
  | succ n ih => exact congrArg (· + 1) (ih (v / 256))

theorem ofBytes_toBytes (n v : Nat) : ofBytes (toBytes n v) = v % 2 ^ (8 * n) := by
  induction n generalizing v with
  | zero => exact (Nat.mod_one v).symm
  | succ n ih =>
    have hp : 2 ^ (8 * (n + 1)) = 256 * 2 ^ (8 * n) := by rw [Nat.mul_add, Nat.pow_add, Nat.mul_comm]
    rw [toBytes, ofBytes, ih, hp, Nat.mod_mul, BitVec.toNat_ofNat]

/-! ## Bytes stored -/

theorem byte_of_mem {s t : State} (h : t.mem = s.mem) (a : Nat) : t.byte a = s.byte a := by
  unfold State.byte
  rw [h]

theorem writeAt_eq (s : State) (bs : List (Nat × Byte)) : s.writeAt bs = { s with mem := (s.writeAt bs).mem } := by
  induction bs generalizing s with
  | nil => rfl
  | cons e r ih =>
    rw [State.writeAt, ih]
    rfl

theorem write_eq (s : State) (a : Nat) (bs : List Byte) : s.write a bs = { s with mem := (s.write a bs).mem } := by
  induction bs generalizing s a with
  | nil => rfl
  | cons b r ih =>
    rw [State.write, ih]
    rfl

theorem writeAt_mem_of_mem {s t : State} (h : t.mem = s.mem) (bs : List (Nat × Byte)) :
    (t.writeAt bs).mem = (s.writeAt bs).mem := by
  induction bs generalizing s t with
  | nil => exact h
  | cons e r ih => exact ih (congrArg (fun m => Sparse.set 0 m e.1 e.2) h)

/-- Bytes stored at addresses that are all different stand there afterwards. -/
theorem byte_writeAt_inside (s : State) {bs : List (Nat × Byte)} (hn : (bs.map (·.1)).Nodup) {e : Nat × Byte} (he : e ∈ bs) :
    (s.writeAt bs).byte e.1 = e.2 := by
  induction bs generalizing s with
  | nil => cases he
  | cons x r ih =>
    rw [List.map_cons, List.nodup_cons] at hn
    obtain ⟨hx, hr⟩ := hn
    rcases List.mem_cons.1 he with rfl | he
    · refine (State.byte_writeAt_outside _ r _ fun y hy hxy => hx ?_).trans (State.byte_setByte_same ..)
      exact hxy ▸ List.mem_map_of_mem hy
    · exact ih _ hr he

/-- The bytes of a line with their addresses, `p` the line's place. -/
def placedAt (p : Nat) (bs : List (Nat × Byte)) : List (Nat × Byte) := bs.map (fun e => (p + e.1, e.2))

theorem byte_writeAt_placedAt (s : State) (p : Nat) {bs : List (Nat × Byte)} (hn : (bs.map (·.1)).Nodup) :
    (∀ e ∈ bs, (s.writeAt (placedAt p bs)).byte (p + e.1) = e.2) ∧
      ∀ a, (∀ e ∈ bs, a ≠ p + e.1) → (s.writeAt (placedAt p bs)).byte a = s.byte a := by
  have hp : ((placedAt p bs).map (·.1)).Nodup := by
    have hm : (placedAt p bs).map (·.1) = (bs.map (·.1)).map (p + ·) := by simp [placedAt]
    exact hm ▸ hn.map fun _ _ => Nat.add_left_cancel
  refine ⟨fun e he => byte_writeAt_inside s hp (List.mem_map_of_mem he), fun a ha => ?_⟩
  refine State.byte_writeAt_outside s _ a fun x hx => ?_
  obtain ⟨e, he, rfl⟩ := List.mem_map.1 hx
  exact ha e he

/-- Bytes from an offset of a line up are stored from that offset's address up. -/
theorem writeAt_placedAt_offBytes (s : State) (p off : Nat) (bs : List Byte) :
    s.writeAt (placedAt p (offBytes off bs)) = s.write (p + off) bs := by
  induction bs generalizing s off with
  | nil => rfl
  | cons b r ih => exact ih (s.setByte (p + off) b) (off + 1)

theorem read_write_same (s : State) (a : Nat) (bs : List Byte) : (s.write a bs).read a bs.length = bs := by
  refine List.ext_getElem (by simp [State.read]) fun i h1 h2 => ?_
  simpa [State.read, h2] using State.byte_write_inside s a bs i h2

theorem readNat_write_toBytes (s : State) (a n v : Nat) : (s.write a (toBytes n v)).readNat a n = v % 2 ^ (8 * n) := by
  have h := read_write_same s a (toBytes n v)
  rw [length_toBytes] at h
  rw [State.readNat, h, ofBytes_toBytes]

theorem readNat_of_mem {s t : State} (h : t.mem = s.mem) (a n : Nat) : t.readNat a n = s.readNat a n := by
  unfold State.readNat State.read State.byte
  rw [h]

/-- A part of what was read is what is read there. -/
theorem take_drop_read (s : State) (a m : Nat) {off n : Nat} (h : off + n ≤ m) :
    ((s.read a m).drop off).take n = s.read (a + off) n := by
  refine List.ext_getElem (by simp only [State.read, List.length_take, List.length_drop, List.length_map, List.length_range]; omega)
    fun i h1 h2 => ?_
  simp [State.read, Nat.add_assoc]

/-! ## A line and its slice -/

theorem slice_setSlice_same (s : State) (h : Nat) (x : Slice) : (s.setSlice h x).slice h = x := Sparse.get_put_same ..

theorem line_of_lineAt {s : State} {h line : Nat} {ln : L2Line} (hl : s.lineAt h line = some ln) : ln.line = line := by
  simpa using List.find?_some hl

/-- Replacing the record of a line leaves the others as they stand. -/
theorem find_replaceLine {ls : List L2Line} {line : Nat} {l ln : L2Line} (hl : ls.find? (fun x => x.line == line) = some l)
    (hn : ln.line = line) :
    (ls.map (fun x => if x.line = ln.line then ln else x)).find? (fun x => x.line == line) = some ln := by
  subst hn
  induction ls with
  | nil => cases hl
  | cons x r ih =>
    by_cases hx : x.line = ln.line
    · simp [hx]
    · rw [List.find?_cons_of_neg (by simpa using hx)] at hl
      simpa [hx] using ih hl

theorem lineAt_putLine {s : State} {h line : Nat} {l ln : L2Line} (hl : s.lineAt h line = some l) (hn : ln.line = line) :
    (s.putLine h ln).lineAt h line = some ln := by
  unfold State.lineAt State.putLine
  rw [slice_setSlice_same]
  exact find_replaceLine hl hn

/-- Whatever record of the line is found after a put is the one put. -/
theorem eq_of_lineAt_putLine {s : State} {h line : Nat} {l ln : L2Line} (hl : (s.putLine h ln).lineAt h line = some l)
    (hn : ln.line = line) : l = ln := by
  unfold State.lineAt State.putLine at hl
  rw [slice_setSlice_same] at hl
  have hline : l.line = line := by simpa using List.find?_some hl
  obtain ⟨x, -, hx⟩ := List.mem_map.1 (List.mem_of_find?_eq_some hl)
  by_cases hc : x.line = ln.line
  · rw [if_pos hc] at hx
    exact hx.symm
  · rw [if_neg hc] at hx
    exact absurd (hx ▸ hline.trans hn.symm) hc

theorem touchLine_eq (s : State) (h line : Nat) :
    s.touchLine h line = { s with slices := (s.touchLine h line).slices } := by
  unfold State.touchLine
  dsimp only
  split
  · split <;> rfl
  · rfl

/-- A line found stays so when its neighbours move before it. -/
theorem find_moveLast {ls : List L2Line} {line : Nat} {l : L2Line} (hl : ls.find? (fun x => x.line == line) = some l) :
    (ls.filter (fun x => x.line != line) ++ [l]).find? (fun x => x.line == line) = some l := by
  have hn : (ls.filter (fun x => x.line != line)).find? (fun x => x.line == line) = none := by simp
  have hx : l.line = line := by simpa using List.find?_some hl
  rw [List.find?_append, hn, Option.none_or, List.find?_cons_of_pos (by simpa using hx)]

theorem lineAt_touchLine {s : State} {h line : Nat} {l : L2Line} (hl : s.lineAt h line = some l) :
    (s.touchLine h line).lineAt h line = some l := by
  have hf : (s.slice h).lines.find? (fun x => x.line == line) = some l := hl
  unfold State.touchLine
  simp only [hf]
  split
  · exact hl
  · unfold State.lineAt
    rw [slice_setSlice_same]
    exact find_moveLast hf

/-- A slice of which no line stands beside its set has none to look at again (R98). -/
theorem rehouse_of_housed {s : State} {h : Nat} (si : Nat) (hb : ∀ l ∈ (s.slice h).lines, l.way ≠ 99) :
    s.rehouse h si = s := by
  have hn : ((s.slice h).set si).filter (fun l => l.way == 99) = [] := by
    rw [List.filter_eq_nil_iff]
    exact fun l hl => by simpa using hb l (List.mem_of_mem_filter hl)
  rw [State.rehouse, hn]
  rfl

/-- A line that holds what it held keeps its encoding (R100). -/
theorem recoded_of_same {s : State} {h line : Nat} {l : L2Line} {old : Nat × List Byte} (hl : s.lineAt h line = some l)
    (ho : (l.valid, s.lineData l) = old) : s.recoded h line old = s := by
  unfold State.recoded
  simp [hl, ho]

/-- A line that stands in the encoding of what it holds keeps it (R97). -/
theorem recoded_of_encoded {s : State} {h line : Nat} (old : Nat × List Byte)
    (he : ∀ l, s.lineAt h line = some l → l.enc = s.encFor l.wp l.valid (s.lineData l)) : s.recoded h line old = s := by
  unfold State.recoded
  split
  · next l hl => rw [if_neg fun hc => hc.2.2 (he l hl)]
  · rfl

theorem lineData_of_uncopied {ln : L2Line} (s : State) (hd : ln.data = none) : s.lineData ln = s.read (s.place ln.line) 128 := by
  refine List.map_congr_left fun i _ => ?_
  rw [State.lineByte, hd]

/-! ## Bytes merged into a line (R60, R79) -/

theorem cleanse_eq (s : State) (a n : Nat) : s.cleanse a n = { s with poison := (s.cleanse a n).poison } := by
  unfold State.cleanse
  split <;> rfl

theorem harden_eq (s : State) (line : Nat) : s.harden line = { s with poison := (s.harden line).poison } := by
  unfold State.harden
  split <;> rfl

/-- What changes the poison of memory at every step of a list changes nothing else. -/
theorem foldl_poison_eq {α : Type} {f : State → α → State} (hf : ∀ s x, f s x = { s with poison := (f s x).poison })
    (l : List α) (s : State) : l.foldl f s = { s with poison := (l.foldl f s).poison } := by
  induction l generalizing s with
  | nil => rfl
  | cons x r ih =>
    rw [List.foldl_cons, ih, hf s x]

theorem soil_eq (s : State) (ln : L2Line) (sectors : List Nat) :
    s.soil ln sectors = { s with poison := (s.soil ln sectors).poison } :=
  foldl_poison_eq (fun _ _ => rfl) sectors s

theorem disturb_of_unpooled {s : State} {line : Nat} (hp : s.inPool line = false) (offs : List Nat) :
    s.disturb line offs = s := by
  unfold State.disturb
  simp [hp]

/-- The sectors that a write covers whole cleansed of their poison. -/
def cleanSectors (p : Nat) (bs : List (Nat × Byte)) (t : State) : State :=
  if t.poison = [] then t else
    (List.range 4).foldl (fun acc i =>
      if (List.range 32).all (fun b => bs.any (fun e => e.1 == 32 * i + b)) then acc.cleanse (p + 32 * i) 32 else acc) t

theorem cleanSectors_eq (p : Nat) (bs : List (Nat × Byte)) (t : State) :
    cleanSectors p bs t = { t with poison := (cleanSectors p bs t).poison } := by
  unfold cleanSectors
  split
  · rfl
  · refine foldl_poison_eq (fun s i => ?_) _ t
    split
    · exact cleanse_eq ..
    · rfl

theorem mergeBytes_uncopied {ln : L2Line} (s : State) (hd : ln.data = none) (bs : List (Nat × Byte)) :
    (s.mergeBytes ln bs).1 = (cleanSectors (s.place ln.line) bs
      ((s.disturb ln.line (bs.map (·.1))).writeAt (placedAt (s.place ln.line) bs))).harden ln.line := by
  unfold State.mergeBytes
  simp only [hd]
  rfl

/-- A line without bytes of its own is written in memory. -/
theorem mergeBytes_mem {ln : L2Line} (s : State) (hd : ln.data = none) (bs : List (Nat × Byte)) :
    (s.mergeBytes ln bs).1.mem = (s.writeAt (placedAt (s.place ln.line) bs)).mem := by
  rw [mergeBytes_uncopied s hd, harden_eq, cleanSectors_eq]
  exact writeAt_mem_of_mem (State.disturb_mem ..) _

/-- Outside the pools, memory and its poison are all that it changes. -/
theorem mergeBytes_eq {s : State} {ln : L2Line} (hd : ln.data = none) (hp : s.inPool ln.line = false) (bs : List (Nat × Byte)) :
    (s.mergeBytes ln bs).1 = { s with mem := (s.mergeBytes ln bs).1.mem, poison := (s.mergeBytes ln bs).1.poison } := by
  rw [mergeBytes_uncopied s hd, disturb_of_unpooled hp, harden_eq, cleanSectors_eq, writeAt_eq]

end Sys2Proof.Proofs

/-! PROOFS. How a home applies a row to a line (03/R68, R70), in parts that each change little, and what a request of a core
meets at its home. -/

namespace Sys2Proof.Proofs

open Sys2Proof.Machine

open Sys2Proof.Safety

/-! ## A row's actions, one after another (R60, R68, R79) -/

/-- ATOMIC performed, where the row has it and nothing performed it before. -/
def atomPart (s : State) (ln : L2Line) (row : Dword) (r : HomeReq) (done : Option Dword) :
    State × L2Line × Dword × List (Nat × Byte) :=
  if acts row 9 && done.isNone then s.homeAtomic ln r else (s, ln, done.getD 0, [])

/-- WRITE performed. -/
def writePart (s : State) (ln : L2Line) (row : Dword) (r : HomeReq) (bs : List (Nat × Byte)) : State × L2Line :=
  if acts row 8 then ((s.mergeBytes ln bs).1.soil ln r.poison, (s.mergeBytes ln bs).2) else (s, ln)

/-- MERGE performed. -/
def mergePart (x : State × L2Line) (h : Nat) (row : Dword) (ev : Nat) (r : HomeReq) : State × L2Line :=
  if acts row 11 then
    ((x.1.merge h x.2 (if ev = 6 then r.bytes else [])).1.soil x.2 r.poison, (x.1.merge h x.2 (if ev = 6 then r.bytes else [])).2)
  else x

/-- TWIN: the twin saved and the check-out counted. -/
def twinned (s : State) (row : Dword) (ln : L2Line) : L2Line :=
  if acts row 10 then { ln with twin := some (ln.twin.getD (s.lineData ln)), count := ln.count + 1 } else ln

/-- LEASE: LH raised to a lease's end, but for a line sent with its twin. -/
def leased (row : Dword) (ev : Nat) (r : HomeReq) (e : Nat) (ln : L2Line) : L2Line :=
  if acts row 1 && !(ev == 5 && rowMsg row == 3) then { ln with lh := Nat.max ln.lh (e + guardOf r) } else ln

/-- OWN: the requester made the owner. -/
def owned (row : Dword) (r : HomeReq) (ln : L2Line) : L2Line :=
  if acts row 2 then
    { ln with owner := (match r.who with
      | .host _ => Owner.host
      | _ => Owner.core r.core) }
  else ln

/-- ADDS: the requester's cluster among the sharers. -/
def addSharer (row : Dword) (cl : Nat) (ln : L2Line) : L2Line :=
  if acts row 3 && !ln.sharers.contains cl then
    (if ln.sharers.length < 4 then { ln with sharers := ln.sharers ++ [cl] } else { ln with ovf := true })
  else ln

/-- The cluster of a DROP taken off the sharers (R56). -/
def dropSharer (ev cl : Nat) (ln : L2Line) : L2Line :=
  if ev = 7 ∧ !ln.ovf then { ln with sharers := ln.sharers.filter (· ≠ cl) } else ln

/-- CLRO: no owner any more. -/
def disown (row : Dword) (ln : L2Line) : L2Line := if acts row 12 then { ln with owner := .nobody } else ln

/-- What the actions after the writes give, from the state and the line that those leave. -/
def answerPart (s : State) (ln : L2Line) (row : Dword) (ev : Nat) (r : HomeReq) (pooled : Bool) (old : Dword) : Acted :=
  let e := if acts row 1 then s.gt + s.leaseOf (twinned s row ln) row r else 0
  { s := if pooled then s.draw.draw else s,
    ln := disown row (dropSharer ev (r.core / 4) (addSharer row (r.core / 4) (owned row r
      (leased row ev r e (twinned s row ln))))),
    data := if acts row 0 then (if ev = 5 ∧ ln.twin.isSome then ln.twin.getD [] else s.shownData (twinned s row ln)) else [],
    old := old, expiry := e }

theorem actRow_eq (s : State) (h : Nat) (ln : L2Line) (row : Dword) (ev : Nat) (r : HomeReq) (bs : List (Nat × Byte))
    (done : Option Dword) :
    s.actRow h ln row ev r bs done =
      let a := atomPart s ln row r done
      let c := mergePart (writePart a.1 a.2.1 row r bs) h row ev r
      answerPart c.1 c.2 row ev r (c.1.inPool ln.line) a.2.2.1 := rfl

theorem twinned_eq (s : State) (row : Dword) (ln : L2Line) :
    twinned s row ln = { ln with twin := (twinned s row ln).twin, count := (twinned s row ln).count } := by
  unfold twinned
  split <;> rfl

theorem leased_eq (row : Dword) (ev : Nat) (r : HomeReq) (e : Nat) (ln : L2Line) :
    leased row ev r e ln = { ln with lh := (leased row ev r e ln).lh } := by
  unfold leased
  split <;> rfl

/-- What a row does to owner and sharers. -/
def holdersPart (row : Dword) (ev : Nat) (r : HomeReq) (ln : L2Line) : L2Line :=
  disown row (dropSharer ev (r.core / 4) (addSharer row (r.core / 4) (owned row r ln)))

theorem dropSharer_eq (ev cl : Nat) (ln : L2Line) :
    dropSharer ev cl ln = { ln with sharers := (dropSharer ev cl ln).sharers } := by
  unfold dropSharer
  split <;> rfl

theorem addSharer_eq (row : Dword) (cl : Nat) (ln : L2Line) :
    addSharer row cl ln = { ln with sharers := (addSharer row cl ln).sharers, ovf := (addSharer row cl ln).ovf } := by
  unfold addSharer
  split
  · split <;> rfl
  · rfl

theorem owned_eq (row : Dword) (r : HomeReq) (ln : L2Line) : owned row r ln = { ln with owner := (owned row r ln).owner } := by
  unfold owned
  split <;> rfl

theorem disown_eq (row : Dword) (ln : L2Line) : disown row ln = { ln with owner := (disown row ln).owner } := by
  unfold disown
  split <;> rfl

theorem holdersPart_eq (row : Dword) (ev : Nat) (r : HomeReq) (ln : L2Line) :
    holdersPart row ev r ln = { ln with owner := (holdersPart row ev r ln).owner, sharers := (holdersPart row ev r ln).sharers,
                                        ovf := (holdersPart row ev r ln).ovf } := by
  unfold holdersPart
  rw [disown_eq, dropSharer_eq, addSharer_eq, owned_eq]

/-! ## Rows that only read a line -/

section Reading
variable {row : Dword} (h8 : acts row 8 = false) (h9 : acts row 9 = false) (h11 : acts row 11 = false)
variable (s : State) (h : Nat) (ln : L2Line) (ev : Nat) (r : HomeReq) (bs : List (Nat × Byte))
include h8 h9 h11

theorem actRow_of_reading : s.actRow h ln row ev r bs none = answerPart s ln row ev r (s.inPool ln.line) 0 := by
  rw [actRow_eq]
  simp only [atomPart, writePart, mergePart, h8, h9, h11, Bool.false_and, Bool.false_eq_true, if_false, Option.getD_none]

end Reading

section Answer
variable (s : State) (ln : L2Line) (row : Dword) (ev : Nat) (r : HomeReq) (old : Dword)

theorem answerPart_ln (pooled : Bool) : (answerPart s ln row ev r pooled old).ln =
    holdersPart row ev r (leased row ev r (answerPart s ln row ev r pooled old).expiry (twinned s row ln)) := rfl

theorem answerPart_state : (answerPart s ln row ev r false old).s = s := rfl

variable {row}

/-- A lease runs from GT for the length that its class has (R55, R59). -/
theorem answerPart_expiry (pooled : Bool) (h1 : acts row 1 = true) :
    (answerPart s ln row ev r pooled old).expiry = s.gt + s.leaseOf ln row r := by
  rw [answerPart]
  dsimp only
  rw [if_pos h1, twinned_eq]
  rfl

theorem answerPart_lh (pooled : Bool) (h1 : acts row 1 = true) : (answerPart s ln row ev r pooled old).ln.lh =
    if ev = 5 ∧ rowMsg row = 3 then ln.lh else max ln.lh ((answerPart s ln row ev r pooled old).expiry + guardOf r) := by
  rw [answerPart_ln, holdersPart_eq, leased, twinned_eq]
  by_cases hc : ev = 5 ∧ rowMsg row = 3
  · simp [h1, hc]
  · have hb : (ev == 5 && rowMsg row == 3) = false := by simpa using hc
    simp only [h1, hb, hc, Bool.not_false, Bool.and_self, if_true, if_false]

theorem answerPart_owner (pooled : Bool) (h2 : acts row 2 = true) (h12 : acts row 12 = false) {c : Nat} (hw : r.who = .op c) :
    (answerPart s ln row ev r pooled old).ln.owner = .core r.core := by
  rw [answerPart_ln, holdersPart, disown, if_neg (by simp [h12]), dropSharer_eq, addSharer_eq, owned, if_pos h2, hw]

/-- Bytes, sectors and place of a line are none of the things that these actions change. -/
theorem answerPart_ln_eq (pooled : Bool) : (answerPart s ln row ev r pooled old).ln =
    { ln with twin := (twinned s row ln).twin, count := (twinned s row ln).count,
              lh := (answerPart s ln row ev r pooled old).ln.lh, owner := (answerPart s ln row ev r pooled old).ln.owner,
              sharers := (answerPart s ln row ev r pooled old).ln.sharers,
              ovf := (answerPart s ln row ev r pooled old).ln.ovf } := by
  rw [answerPart_ln, holdersPart_eq, leased_eq, twinned_eq]

/-- DATA sends the twin of a line that has one to a check-out, and the line to any other request. -/
theorem answerPart_data (pooled : Bool) (h0 : acts row 0 = true) (hp : s.inPool ln.line = false) :
    (answerPart s ln row ev r pooled old).data = if ev = 5 then ln.twin.getD (s.lineData ln) else s.lineData ln := by
  have hs : s.shownData (twinned s row ln) = s.lineData ln := by
    rw [twinned_eq]
    unfold State.shownData
    rw [if_neg (by simp [hp])]
    rfl
  rw [answerPart]
  dsimp only
  rw [if_pos h0, hs]
  by_cases h5 : ev = 5
  · cases ht : ln.twin <;> simp [h5]
  · simp [h5]

end Answer

/-! ## Rows that write, and the row of an atomic -/

theorem actRow_of_writing {row : Dword} (h8 : acts row 8 = true) (h9 : acts row 9 = false) (h11 : acts row 11 = false)
    (s : State) (h : Nat) (ln : L2Line) (ev : Nat) (r : HomeReq) (bs : List (Nat × Byte)) :
    s.actRow h ln row ev r bs none = answerPart ((s.mergeBytes ln bs).1.soil ln r.poison) (s.mergeBytes ln bs).2 row ev r
      (((s.mergeBytes ln bs).1.soil ln r.poison).inPool ln.line) 0 := by
  rw [actRow_eq]
  simp only [atomPart, writePart, mergePart, h8, h9, h11, Bool.false_and, Bool.false_eq_true, if_false, if_true, Option.getD_none]

theorem actRow_of_atomic {row : Dword} (h8 : acts row 8 = false) (h9 : acts row 9 = true) (h11 : acts row 11 = false)
    (s : State) (h : Nat) (ln : L2Line) (ev : Nat) (r : HomeReq) (bs : List (Nat × Byte)) :
    s.actRow h ln row ev r bs none = answerPart (s.homeAtomic ln r).1 (s.homeAtomic ln r).2.1 row ev r
      ((s.homeAtomic ln r).1.inPool ln.line) (s.homeAtomic ln r).2.2.1 := by
  rw [actRow_eq]
  simp only [atomPart, writePart, mergePart, h8, h9, h11, Option.isNone_none, Bool.and_self, Bool.false_eq_true, if_false, if_true]

/-- An atomic gives the old value back and stores what its operator makes of it. -/
theorem homeAtomic_uncopied {s : State} {ln : L2Line} {r : HomeReq} {a : Atom} {off : Nat} {b : Byte} (ha : r.atom = some a)
    (hb : r.bytes = [(off, b)]) (hd : ln.data = none) (hp : s.inPool ln.line = false) (ho : off + atomBytes a ≤ 128) :
    let q := s.place ln.line + off
    let old := s.readNat q (atomBytes a)
    (s.homeAtomic ln r).1 = { s with mem := (s.write q (toBytes (atomBytes a) (atomEval a old))).mem,
                                     poison := (s.homeAtomic ln r).1.poison } ∧
      (s.homeAtomic ln r).2.2.1 = dw old := by
  intro q old
  have hold : ofBytes (((s.lineData ln).drop off).take (atomBytes a)) = old := by
    rw [lineData_of_uncopied s hd, take_drop_read _ _ _ ho]
    rfl
  have hm : (s.homeAtomic ln r).1 = (s.mergeBytes ln (offBytes off (toBytes (atomBytes a) (atomEval a old)))).1 ∧
      (s.homeAtomic ln r).2.2.1 = dw old := by
    unfold State.homeAtomic
    simp only [ha, hb, List.head?_cons, Option.map_some, Option.getD_some, hold, and_self]
  refine ⟨?_, hm.2⟩
  rw [hm.1, mergeBytes_eq hd hp, mergeBytes_mem s hd, writeAt_placedAt_offBytes]

/-! ## Answers (R69) -/

/-- A request of a core, by an operation or by its cache. -/
def FromCore (r : HomeReq) : Prop := (∃ id, r.who = .op id) ∨ ∃ c, r.who = .cache c

/-- No guard is due to a requester of this package (R60). -/
theorem guardOf_fromCore {r : HomeReq} (hr : FromCore r) : guardOf r = 0 := by
  rcases hr with ⟨id, hw⟩ | ⟨c, hw⟩ <;> simp [guardOf, hw]

/-- The answer that carries a message. -/
def replyTo (r : HomeReq) (msg : Nat) (data : List Byte) (old : Dword) (expiry lh wct : Nat) (leased bare : Bool) : Reply :=
  { who := r.who, core := r.core, line := r.line, lanes := r.lanes, data := data, old := old, expiry := expiry,
    lh := lh, wct := wct, leased := leased, keep := decide (msg = 1 ∨ msg = 2 ∨ msg = 3), bare := bare }

/-- The event by which a core gets a message. -/
def messageEvent (msg : Nat) (y : Reply) : Option Instr :=
  match msg with
  | 1 => some (.dataS y)
  | 2 => some (.dataX y)
  | 3 => some (.dataC y)
  | 4 => some (.ack y)
  | 5 => some (.ackData y)
  | _ => none

theorem answer_fromCore {r : HomeReq} (hr : FromCore r) (s : State) (msg : Nat) (data : List Byte) (old : Dword)
    (expiry lh wct : Nat) (leased bare : Bool) {i : Instr}
    (hi : messageEvent msg (replyTo r msg data old expiry lh wct leased bare) = some i) :
    s.answer r msg data old expiry lh wct leased bare = s.post i := by
  unfold messageEvent at hi
  unfold State.answer
  rcases hr with ⟨id, hw⟩ | ⟨c, hw⟩ <;> simp only [hw] <;> split at hi <;> cases hi <;> simp [replyTo, hw]

/-- The answer of a row, where the line is left as `x`. -/
def rowReply (s : State) (x : L2Line) (row : Dword) (r : HomeReq) (a : Acted) : Reply :=
  replyTo r (rowMsg row) a.data a.old a.expiry x.lh (s.wctOf x row r) (acts row 1) false

theorem send_fromCore {r : HomeReq} (hr : FromCore r) (s : State) (x : L2Line) (row : Dword) (a : Acted) {i : Instr}
    (hi : messageEvent (rowMsg row) (rowReply s x row r a) = some i) : s.send x row r a = s.post i := by
  rw [← answer_fromCore hr s _ _ _ _ _ _ _ _ hi]
  rcases hr with ⟨id, hw⟩ | ⟨c, hw⟩ <;> simp [State.send, hw]

/-- Without WAITLH a write is complete now (R60). -/
theorem wctOf_fromCore {r : HomeReq} (hr : FromCore r) (s : State) (x : L2Line) {row : Dword} (h13 : acts row 13 = false) :
    s.wctOf x row r = s.gt := by
  simp [State.wctOf, h13, guardOf_fromCore hr]

/-! ## A request applied to a line (R55, R70) -/

/-- The row of a request: of an NC line the fixed one. A line that is served without being held sends no copy to keep. -/
def servingRow (s : State) (ln : L2Line) (ev : Nat) (r : HomeReq) : Dword :=
  let e := if ln.way = 98 ∧ ev = 0 then 1 else ev
  if r.cc = 0 then ncRow e else s.tableRow ln.table ln.state e

theorem servingRow_of_ne_zero (s : State) (ln : L2Line) {ev : Nat} (r : HomeReq) (hev : ev ≠ 0) :
    servingRow s ln ev r = if r.cc = 0 then ncRow ev else s.tableRow ln.table ln.state ev := by
  simp [servingRow, hev]

/-- The line as a row leaves it. -/
def settled (r : HomeReq) (row : Dword) (a : Acted) : L2Line :=
  let l := if r.cc = 0 then a.ln else a.ln.record_ r
  if r.cc = 0 ∨ (acts row 11 ∧ l.count > 0) then l else { l with state := rowNext row }

/-- Where nothing refuses a request, no twin slot is wanting, and its row forwards nothing, the row is applied at once. -/
theorem serve_row {s : State} {h ev : Nat} {ln : L2Line} {r : HomeReq} {row : Dword} {a : Acted}
    (hrow : servingRow s ln ev r = row) (ha : s.actRow h ln row ev r r.bytes none = a) (hout : ¬ (ev = 5 ∧ ln.way = 98))
    (h15 : acts row 15 = false) (hscope : r.cc = 0 ∨ r.scope = none)
    (htwin : ¬ (ev = 5 ∧ acts row 10 ∧ ln.twin.isNone ∧ ((s.slice h).lines.filter (fun l => l.twin.isSome)).length ≥ 32))
    (hf : forwards row = false) :
    s.serve h ln ev r =
      (if ln.way = 98 then a.s else a.s.putLine h (settled r row a)).send (settled r row a) row r a := by
  have hs : (if r.cc = 0 then none else r.scope.bind (scopeRefusal ln.record)) = none := by
    rcases hscope with hc | hc <;> simp [hc]
  unfold servingRow at hrow
  unfold State.serve
  dsimp only at hrow ⊢
  rw [hrow, if_neg hout, if_neg (by simp [h15]), hs]
  dsimp only
  rw [if_neg htwin, if_neg (by simp [hf]), ha]
  by_cases hl : ln.way = 98
  · rw [if_pos hl, if_pos hl]
    rfl
  · rw [if_neg hl, if_neg hl]
    rfl

/-! ## How a request of a core comes to its line (R54, R55) -/

theorem noteMiss_of_cache {r : HomeReq} {c : Nat} (hw : r.who = .cache c) (s : State) (h ev : Nat) : s.noteMiss h ev r = s := by
  unfold State.noteMiss
  simp only [hw]

/-- A check-in, DROP or write-back is served by the table of its copy (log 104). -/
theorem governed_of_copy {ln : L2Line} {ev : Nat} (s : State) (r : HomeReq) (hev : ev = 6 ∨ ev = 7 ∨ ev = 8)
    (ht : ln.table ≠ noTable) : s.governed ln ev r = ln := by
  have hacc : ¬ (ev < 6 ∨ ev = 12 ∨ ev = 13) := by omega
  unfold State.governed
  simp only [ht, hacc, if_false, ite_self]

/-- An access of the page class that the line was last accessed with finds it as it is. -/
theorem governed_of_tableFor {s : State} {ln : L2Line} {r : HomeReq} (ev : Nat) (ht : ln.table ≠ noTable)
    (hf : s.tableFor r = (ln.table, ln.lc)) : s.governed ln ev r = ln := by
  unfold State.governed
  simp only [ht, hf, if_false, ite_self]

theorem homeReq_fromCore {s : State} {ev : Nat} {i : Instr} {r : HomeReq} (hr : FromCore r) (ht : targetOf r.line = .hbm)
    (hh : (s.noteMiss (s.homeOf r.core r.line) ev r).holdsReq (s.homeOf r.core r.line) ev r = false) :
    s.homeReq ev i r = (s.noteMiss (s.homeOf r.core r.line) ev r).lineReq (s.homeOf r.core r.line) ev i r := by
  unfold State.homeReq
  dsimp only
  rw [if_neg (by simp [hh])]
  rcases hr with ⟨id, hw⟩ | ⟨c, hw⟩ <;> simp only [hw, ht]

/-- A line with the sectors that a request wants, its slice's most recently used (R93, R101). -/
def fetchedFor (s : State) (h : Nat) (ln : L2Line) (ev : Nat) (r : HomeReq) : State :=
  ((s.putLine h (s.fetchSectors ln (ln.valid ||| validFor ev r))).touchLine h r.line).recoded h r.line
    (ln.valid, s.lineData ln)

/-- A request applied to its line, where the slice holds it. -/
def serveFound (u : State) (h ev : Nat) (i : Instr) (r : HomeReq) : State :=
  match u.lineAt h r.line with
  | some l => u.serveFit h l ev i r
  | none => u

section Quiet
variable {s : State} {h : Nat} (hq : (s.slice h).wait = []) (hb : ∀ l ∈ (s.slice h).lines, l.way ≠ 99)
include hq hb

/-- Where nothing waits in the slice, a request for an absent line that is not to be allocated is served without it. -/
theorem lineReq_absent {ev : Nat} {r : HomeReq} (i : Instr) (hl : s.lineAt h r.line = none)
    (hp : r.cp = 3 ∨ ev = 6 ∨ ev = 7 ∨ ev = 8) :
    s.lineReq h ev i r = s.serve h (s.newLine h r.line (s.tableFor r).1 (s.tableFor r).2) ev r := by
  unfold State.lineReq
  rw [rehouse_of_housed _ hb]
  simp only [hq, hl, List.any_nil, Bool.and_false, Bool.false_eq_true, if_false, hp, if_true]

/-- A request for a line that is transient waits for it (R54). -/
theorem lineReq_waits {ev : Nat} {r : HomeReq} {ln : L2Line} (i : Instr) (hr : FromCore r) (hev : ev ≠ 12 ∧ ev ≠ 13)
    (hl : s.lineAt h r.line = some ln) (hg : s.governed ln ev r = ln) (ht : ln.held.isSome = true ∨ s.isTransient ln = true) :
    s.lineReq h ev i r = s.putLine h { ln with queue := ln.queue ++ [i] } := by
  have hd : ¬ (r.who = .device ∧ ev = 1) := by rcases hr with ⟨id, hw⟩ | ⟨c, hw⟩ <;> simp [hw]
  unfold State.lineReq
  rw [rehouse_of_housed _ hb]
  simp only [hq, hl, hg, hev.1, hev.2, ht, List.any_nil, Bool.and_false, Bool.false_eq_true, if_false, or_self, decide_false,
    Bool.not_false, and_self, if_true, hd]

/-- A request for any other is applied to it, with the sectors that it wants fetched. -/
theorem lineReq_serves {ev : Nat} {r : HomeReq} {ln : L2Line} (i : Instr) (hr : FromCore r)
    (hl : s.lineAt h r.line = some ln) (hg : s.governed ln ev r = ln) (hh : ln.held = none) (ht : s.isTransient ln = false) :
    s.lineReq h ev i r = serveFound (fetchedFor s h ln ev r) h ev i r := by
  have hd : ¬ (r.who = .device ∧ ev = 1) := by rcases hr with ⟨id, hw⟩ | ⟨c, hw⟩ <;> simp [hw]
  unfold State.lineReq
  rw [rehouse_of_housed _ hb]
  simp only [hq, hl, hg, hh, ht, List.any_nil, Bool.and_false, Bool.false_eq_true, if_false, Option.isSome_none, or_self, false_and,
    hd]
  rfl

end Quiet

end Sys2Proof.Proofs

/-! PROOFS. The homes' line protocol: uncached accesses served without a line, check-ins and write-backs, leases. -/

namespace Sys2Proof.Proofs

open Sys2Proof.Machine

open Sys2Proof.Safety

/-! ## Lines served without being held -/

/-- The row that stores a request's bytes and acknowledges them, of NC lines and of the LEASE image's WBACK (R55, R77). -/
def storeRow : Dword := mkRow 0 4 0x100

theorem storeRow_acts : acts storeRow 8 = true ∧
    ∀ k ∈ [1, 2, 3, 4, 5, 6, 7, 9, 10, 11, 12, 13, 14, 15], acts storeRow k = false := by decide

theorem answerPart_s_mem (s : State) (ln : L2Line) (row : Dword) (ev : Nat) (r : HomeReq) (pooled : Bool) (old : Dword) :
    (answerPart s ln row ev r pooled old).s.mem = s.mem := by
  unfold answerPart
  dsimp only
  split <;> rfl

/-- What a store leaves: the request's bytes at the line's place, and no other change of memory. -/
theorem serve_stores {s : State} {h ev : Nat} {ln : L2Line} {r : HomeReq} (hr : FromCore r) (hl : ln.way = 98)
    (hd : ln.data = none) (hev : ev ≠ 5) (hrow : servingRow s ln ev r = storeRow) (hscope : r.cc = 0 ∨ r.scope = none) :
    ∃ (t : State) (y : Reply), s.serve h ln ev r = t.post (.ack y) ∧ t.mem = (s.writeAt (placedAt (s.place ln.line) r.bytes)).mem ∧
      y.who = r.who ∧ y.lanes = r.lanes ∧ y.bare = false ∧
      (s.inPool ln.line = false → t.agenda = s.agenda ∧ y.wct = s.gt) := by
  obtain ⟨h8, hn⟩ := storeRow_acts
  have ha := actRow_of_writing h8 (hn 9 (by decide)) (hn 11 (by decide)) s h ln ev r r.bytes
  generalize hpool : ((s.mergeBytes ln r.bytes).1.soil ln r.poison).inPool ln.line = pooled at ha
  have hserve := serve_row (h := h) hrow ha (fun hc => hev hc.1) (hn 15 (by decide)) hscope (fun hc => hev hc.1) (by decide)
  rw [if_pos hl, send_fromCore hr _ _ _ _ rfl] at hserve
  refine ⟨_, _, hserve, ?_, rfl, rfl, rfl, fun hp => ?_⟩
  · rw [answerPart_s_mem, soil_eq]
    exact mergeBytes_mem s hd r.bytes
  · have hs : (s.mergeBytes ln r.bytes).1.soil ln r.poison = { s with
        mem := (s.mergeBytes ln r.bytes).1.mem, poison := ((s.mergeBytes ln r.bytes).1.soil ln r.poison).poison } := by
      rw [soil_eq, mergeBytes_eq hd hp]
    have hpf : pooled = false := by
      rw [← hpool, hs]
      exact hp
    subst hpf
    rw [answerPart_state, hs]
    exact ⟨rfl, wctOf_fromCore hr _ _ (hn 13 (by decide))⟩

/-- The row that sends an NC line and keeps nothing of it (R55). -/
def sendRow : Dword := mkRow 0 5 1

/-- What a load is sent: the line's bytes, not to be kept. -/
theorem serve_reads {s : State} {h ev : Nat} {ln : L2Line} {r : HomeReq} (hr : FromCore r) (hl : ln.way = 98)
    (hd : ln.data = none) (hev : ev ≠ 5) (hrow : servingRow s ln ev r = sendRow) (hscope : r.cc = 0 ∨ r.scope = none)
    (hp : s.inPool ln.line = false) :
    ∃ y, s.serve h ln ev r = s.post (.ackData y) ∧ y.who = r.who ∧ y.lanes = r.lanes ∧ y.line = r.line ∧
      y.data = s.read (s.place ln.line) 128 ∧ y.keep = false := by
  have ha := actRow_of_reading (row := sendRow) (by decide) (by decide) (by decide) s h ln ev r r.bytes
  rw [hp] at ha
  have hdata := answerPart_data (row := sendRow) s ln ev r 0 false (by decide) hp
  rw [if_neg hev] at hdata
  rw [serve_row hrow ha (fun hc => hev hc.1) (by decide) hscope (fun hc => hev hc.1) (by decide), if_pos hl,
    send_fromCore hr _ _ _ _ rfl]
  exact ⟨_, rfl, rfl, rfl, rfl, hdata.trans (lineData_of_uncopied s hd), rfl⟩

/-- What an atomic leaves: its operator's value in memory; it sends the old one. -/
theorem serve_atomic {s : State} {h : Nat} {ln : L2Line} {r : HomeReq} {a : Atom} {off : Nat} {b : Byte} (hr : FromCore r)
    (hl : ln.way = 98) (hd : ln.data = none) (hcc : r.cc = 0) (hp : s.inPool ln.line = false) (hat : r.atom = some a)
    (hbs : r.bytes = [(off, b)]) (hoff : off + atomBytes a ≤ 128) :
    let q := s.place ln.line + off
    let n := atomBytes a
    ∃ (t : State) (y : Reply), s.serve h ln 4 r = t.post (.ackData y) ∧ t.agenda = s.agenda ∧ y.who = r.who ∧ y.lanes = r.lanes ∧
      y.old = dw (s.readNat q n) ∧ y.wct = s.gt ∧ t.mem = (s.write q (toBytes n (atomEval a (s.readNat q n)))).mem := by
  have hrow : servingRow s ln 4 r = mkRow 0 5 0x200 :=
    (servingRow_of_ne_zero s ln r (by decide)).trans (if_pos hcc)
  obtain ⟨hs, hold⟩ := homeAtomic_uncopied hat hbs hd hp hoff
  have ha := actRow_of_atomic (row := mkRow 0 5 0x200) (by decide) (by decide) (by decide) s h ln 4 r r.bytes
  have hpu : (s.homeAtomic ln r).1.inPool ln.line = false := by
    rw [hs]
    exact hp
  rw [hpu, hold] at ha
  rw [serve_row hrow ha (by simp) (by decide) (.inl hcc) (by simp) (by decide), if_pos hl, send_fromCore hr _ _ _ _ rfl]
  rw [answerPart_state, hs]
  exact ⟨_, _, rfl, rfl, rfl, rfl, rfl, wctOf_fromCore hr _ _ (by decide), rfl⟩

/-! ## Uncached accesses (R55 to R57, R60, 12/R297) -/

section Uncached
variable {s : State} {r : HomeReq} {id : Nat} (hw : r.who = .op id) (hcc : r.cc = 0) (hcp : r.cp = 3)
  (ht : targetOf r.line = .hbm) (hh : ∀ ev, s.holdsReq (s.homeOf r.core r.line) ev r = false)
  (hq : (s.slice (s.homeOf r.core r.line)).wait = []) (hb : ∀ l ∈ (s.slice (s.homeOf r.core r.line)).lines, l.way ≠ 99)
  (hp : s.inPool r.line = false) (hl : s.lineAt (s.homeOf r.core r.line) r.line = none)

/-- The state in which a request that has missed is served. -/
def missedBy (s : State) (id : Nat) : State := s.modOp id (fun o => { o with missed := true })

/-- The record that an uncached line is served as. -/
def uncachedLine (s : State) (r : HomeReq) : L2Line := s.newLine (s.homeOf r.core r.line) r.line noTable 0

include hw hcc hcp ht hh hq hb hl

theorem homeReq_uncached (ev : Nat) (i : Instr) :
    s.homeReq ev i r = (missedBy s id).serve (s.homeOf r.core r.line) (uncachedLine s r) ev r := by
  have hm : s.noteMiss (s.homeOf r.core r.line) ev r = missedBy s id := by
    unfold State.noteMiss
    simp only [hw, hl, Option.any_none, Bool.false_eq_true, if_false, missedBy]
  have htab : (missedBy s id).tableFor r = (noTable, 0) := if_pos hcc
  rw [homeReq_fromCore (.inl ⟨id, hw⟩) ht (by rw [hm]; exact hh ev), hm,
    lineReq_absent (s := missedBy s id) hq hb i hl (.inl hcp), htab]
  rfl

omit hw hcp ht hh hq hb hl in
theorem servingRow_uncached {ev : Nat} : servingRow (missedBy s id) (uncachedLine s r) ev r = ncRow (if ev = 0 then 1 else ev) := by
  unfold servingRow
  rw [if_pos hcc]
  simp [uncachedLine, State.newLine]

include hp in
/-- A load of an absent NC line sends its bytes. -/
theorem exec_uncachedLoad (i : Instr) (hi : i = .rds r ∨ i = .rdnc r) :
    ∃ y, exec i s = .next ((missedBy s id).post (.ackData y)) ∧ y.who = r.who ∧ y.lanes = r.lanes ∧ y.line = r.line ∧
      y.data = s.read (s.place r.line) 128 ∧ y.keep = false := by
  obtain ⟨ev, hev, hex⟩ : ∃ ev, (ev = 0 ∨ ev = 1) ∧ exec i s = .next (s.homeReq ev i r) := by
    rcases hi with rfl | rfl
    · exact ⟨0, .inl rfl, rfl⟩
    · exact ⟨1, .inr rfl, rfl⟩
  have hrow : servingRow (missedBy s id) (uncachedLine s r) ev r = sendRow := by
    rw [servingRow_uncached hcc]
    rcases hev with rfl | rfl <;> rfl
  obtain ⟨y, hserve, hy⟩ := serve_reads (h := s.homeOf r.core r.line) (.inl ⟨id, hw⟩) rfl rfl (by omega) hrow (.inl hcc) hp
  refine ⟨y, ?_, hy⟩
  rw [hex, homeReq_uncached hw hcc hcp ht hh hq hb hl, hserve]

include hp in
/-- A store to an absent NC line writes its bytes and is complete at once. -/
theorem exec_uncachedStore (i : Instr) (hi : i = .wr r ∨ i = .wrnc r) (hn : (r.bytes.map (·.1)).Nodup) :
    ∃ t y, exec i s = .next t ∧ t.agenda = s.agenda ++ [.ack y] ∧ y.who = r.who ∧ y.lanes = r.lanes ∧ y.wct = s.gt ∧
      y.bare = false ∧ (∀ e ∈ r.bytes, t.byte (s.place r.line + e.1) = e.2) ∧
      ∀ a, (∀ e ∈ r.bytes, a ≠ s.place r.line + e.1) → t.byte a = s.byte a := by
  obtain ⟨ev, hev, hex⟩ : ∃ ev, (ev = 2 ∨ ev = 3) ∧ exec i s = .next (s.homeReq ev i r) := by
    rcases hi with rfl | rfl
    · exact ⟨2, .inl rfl, rfl⟩
    · exact ⟨3, .inr rfl, rfl⟩
  have hrow : servingRow (missedBy s id) (uncachedLine s r) ev r = storeRow := by
    rw [servingRow_uncached hcc]
    rcases hev with rfl | rfl <;> rfl
  obtain ⟨t, y, hserve, hmem, hwho, hlanes, hbare, hrest⟩ := serve_stores (h := s.homeOf r.core r.line) (.inl ⟨id, hw⟩) rfl rfl
    (by omega) hrow (.inl hcc)
  obtain ⟨hagenda, hwct⟩ := hrest hp
  obtain ⟨hin, hout⟩ := byte_writeAt_placedAt (missedBy s id) (s.place r.line) hn
  refine ⟨t.post (.ack y), y, ?_, congrArg (· ++ [Instr.ack y]) hagenda, hwho, hlanes, hwct, hbare, fun e he => ?_, fun a hne => ?_⟩
  · rw [hex, homeReq_uncached hw hcc hcp ht hh hq hb hl, hserve]
  · exact (byte_of_mem hmem _).trans (hin e he)
  · exact (byte_of_mem hmem _).trans (hout a hne)

include hp in
/-- An atomic on an absent NC line gives the old value back and stores what its operator gives. -/
theorem exec_uncachedAtomic {a : Atom} {off : Nat} {b : Byte} (hat : r.atom = some a) (hbs : r.bytes = [(off, b)])
    (hoff : off + atomBytes a ≤ 128) :
    let q := s.place r.line + off
    let n := atomBytes a
    ∃ t y, exec (.atom r) s = .next t ∧ t.agenda = s.agenda ++ [.ackData y] ∧ y.who = r.who ∧ y.lanes = r.lanes ∧
      y.old = dw (s.readNat q n) ∧ y.wct = s.gt ∧ t.readNat q n = atomEval a (s.readNat q n) % 2 ^ (8 * n) ∧
      ∀ x, (x < q ∨ q + n ≤ x) → t.byte x = s.byte x := by
  intro q n
  obtain ⟨t, y, hserve, hagenda, hwho, hlanes, hold, hwct, hmem⟩ := serve_atomic (s := missedBy s id)
    (h := s.homeOf r.core r.line) (ln := uncachedLine s r) (.inl ⟨id, hw⟩) rfl rfl hcc hp hat hbs hoff
  have hex : exec (.atom r) s = .next (s.homeReq 4 (.atom r) r) := rfl
  refine ⟨t.post (.ackData y), y, ?_, congrArg (· ++ [Instr.ackData y]) hagenda, hwho, hlanes, hold, hwct, ?_, fun x hx => ?_⟩
  · rw [hex, homeReq_uncached hw hcc hcp ht hh hq hb hl, hserve]
  · exact (readNat_of_mem hmem q n).trans (readNat_write_toBytes ..)
  · refine (byte_of_mem hmem x).trans (State.byte_write_outside _ _ _ _ ?_)
    rwa [length_toBytes]

/-- An NC line is not checked out. -/
theorem exec_uncachedCkout : ∃ y, exec (.ckout r) s = .next ((missedBy s id).post (.ack y)) ∧ y.bare = true ∧ y.who = r.who ∧
    y.lanes = r.lanes := by
  have hex : exec (.ckout r) s = .next (s.homeReq 5 (.ckout r) r) := rfl
  have hserve : (missedBy s id).serve (s.homeOf r.core r.line) (uncachedLine s r) 5 r =
      (missedBy s id).answer r 4 [] 0 0 0 0 false true := by
    unfold State.serve
    exact if_pos ⟨rfl, rfl⟩
  rw [hex, homeReq_uncached hw hcc hcp ht hh hq hb hl, hserve, answer_fromCore (.inl ⟨id, hw⟩) _ _ _ _ _ _ _ _ _ rfl]
  exact ⟨_, rfl, rfl, rfl, rfl⟩

end Uncached

/-! ## Check-ins, drops and write-backs (R70, R79, R80) -/

section Copies
variable {s : State} {r : HomeReq} (hw : ∃ c, r.who = .cache c) (ht : targetOf r.line = .hbm)
  (hq : (s.slice (s.homeOf r.core r.line)).wait = []) (hb : ∀ l ∈ (s.slice (s.homeOf r.core r.line)).lines, l.way ≠ 99)

/-- What follows a copy's request: the end of a check-in's epoch lets what waits for a way go on (R98). -/
def afterCopy (ev h : Nat) (t : State) : State := if ev = 8 then t else t.wakeSlice h

theorem exec_copyRequest {i : Instr} {ev : Nat} (s : State) {r : HomeReq}
    (hi : (i, ev) ∈ [(Instr.ckin r, 6), (.drop r, 7), (.wback r, 8)]) :
    (ev = 6 ∨ ev = 7 ∨ ev = 8) ∧ exec i s = .next (afterCopy ev (s.homeOf r.core r.line) (s.homeReq ev i r)) := by
  simp only [List.mem_cons, Prod.mk.injEq, List.not_mem_nil, or_false] at hi
  rcases hi with ⟨rfl, rfl⟩ | ⟨rfl, rfl⟩ | ⟨rfl, rfl⟩
  · exact ⟨.inl rfl, rfl⟩
  · exact ⟨.inr (.inl rfl), rfl⟩
  · exact ⟨.inr (.inr rfl), rfl⟩

include hw ht

theorem homeReq_copy {ev : Nat} (i : Instr) (hh : s.holdsReq (s.homeOf r.core r.line) ev r = false) :
    s.homeReq ev i r = s.lineReq (s.homeOf r.core r.line) ev i r := by
  obtain ⟨c, hw⟩ := hw
  have hm := noteMiss_of_cache hw s (s.homeOf r.core r.line) ev
  rw [homeReq_fromCore (.inr ⟨c, hw⟩) ht (by rw [hm]; exact hh), hm]

include hq hb

section Present
variable {ln : L2Line} {i : Instr} {ev : Nat} (hi : (i, ev) ∈ [(Instr.ckin r, 6), (.drop r, 7), (.wback r, 8)])
  (hh : s.holdsReq (s.homeOf r.core r.line) ev r = false) (hl : s.lineAt (s.homeOf r.core r.line) r.line = some ln)
  (htab : ln.table ≠ noTable)
include hi hh hl htab

theorem exec_copy_waits (hx : ln.held.isSome = true ∨ s.isTransient ln = true) :
    exec i s = .next (afterCopy ev (s.homeOf r.core r.line)
      (s.putLine (s.homeOf r.core r.line) { ln with queue := ln.queue ++ [i] })) := by
  obtain ⟨hev, hex⟩ := exec_copyRequest s hi
  rw [hex, homeReq_copy hw ht i hh,
    lineReq_waits hq hb i (.inr hw) (by omega) hl (governed_of_copy s r hev htab) hx]

theorem exec_copy_served (hn : ln.held = none) (hx : s.isTransient ln = false) :
    exec i s = .next (afterCopy ev (s.homeOf r.core r.line)
      (serveFound (fetchedFor s (s.homeOf r.core r.line) ln ev r) (s.homeOf r.core r.line) ev i r)) := by
  obtain ⟨hev, hex⟩ := exec_copyRequest s hi
  rw [hex, homeReq_copy hw ht i hh, lineReq_serves hq hb i (.inr hw) hl (governed_of_copy s r hev htab) hn hx]

end Present

/-- A write-back of a line that has left its home writes its bytes there, under the LEASE image (R77). -/
theorem exec_wback_absent (hh : s.holdsReq (s.homeOf r.core r.line) 8 r = false) (hcc : r.cc = 1)
    (hrange : s.rangeOf r.line = none) (hl : s.lineAt (s.homeOf r.core r.line) r.line = none) (hscope : r.scope = none)
    (hn : (r.bytes.map (·.1)).Nodup) :
    ∃ t, exec (.wback r) s = .next t ∧ (∀ e ∈ r.bytes, t.byte (s.place r.line + e.1) = e.2) ∧
      ∀ a, (∀ e ∈ r.bytes, a ≠ s.place r.line + e.1) → t.byte a = s.byte a := by
  have htab : s.tableFor r = (0, 0) := by
    unfold State.tableFor
    simp [hcc, ht, hrange]
  have hrow : servingRow s (s.newLine (s.homeOf r.core r.line) r.line 0 0) 8 r = storeRow :=
    (servingRow_of_ne_zero s _ r (by decide)).trans (if_neg (by omega))
  have hex : exec (.wback r) s = .next (s.homeReq 8 (.wback r) r) := rfl
  obtain ⟨t, y, hserve, hmem, -⟩ := serve_stores (h := s.homeOf r.core r.line) (.inr hw) rfl rfl (by decide) hrow (.inr hscope)
  obtain ⟨hin, hout⟩ := byte_writeAt_placedAt s (s.place r.line) hn
  refine ⟨t.post (.ack y), ?_, fun e he => (byte_of_mem hmem _).trans (hin e he), fun a ha => (byte_of_mem hmem a).trans (hout a ha)⟩
  rw [hex, homeReq_copy hw ht _ hh, lineReq_absent hq hb _ hl (.inr (.inr (.inr rfl))), htab, hserve]

end Copies

/-! ## A check-in merged (R79) -/

/-- The bytes of a check-in that differ from the line's twin. -/
def differing (ln : L2Line) (bs : List (Nat × Byte)) : List (Nat × Byte) :=
  bs.filter (fun e => decide ((ln.twin.getD []).getD e.1 0 ≠ e.2))

/-- While other check-outs stand, a check-in writes the bytes that differ from the twin and counts itself off. -/
theorem merge_of_more {ln : L2Line} (s : State) (h : Nat) (bs : List (Nat × Byte)) (hc : 2 ≤ ln.count) :
    s.merge h ln bs = ((s.mergeBytes ln (differing ln bs)).1,
      { (s.mergeBytes ln (differing ln bs)).2 with
          count := ln.count - 1, cf := ln.cf || (differing ln bs).any (fun e => ln.changed.contains e.1) }) := by
  unfold State.merge
  dsimp only
  rw [if_neg (by omega)]
  rfl

theorem merge_writes_differing {ln : L2Line} (s : State) (h : Nat) {bs : List (Nat × Byte)} (hd : ln.data = none)
    (hn : (bs.map (·.1)).Nodup) (hc : 2 ≤ ln.count) :
    (∀ e ∈ bs, (ln.twin.getD []).getD e.1 0 ≠ e.2 → (s.merge h ln bs).1.byte (s.place ln.line + e.1) = e.2) ∧
      ∀ a, (∀ e ∈ bs, (ln.twin.getD []).getD e.1 0 ≠ e.2 → a ≠ s.place ln.line + e.1) →
        (s.merge h ln bs).1.byte a = s.byte a := by
  have hsub : ((differing ln bs).map (·.1)).Nodup := hn.sublist (List.filter_sublist.map _)
  obtain ⟨hin, hout⟩ := byte_writeAt_placedAt s (s.place ln.line) hsub
  have hmem := mergeBytes_mem s hd (differing ln bs)
  have hdiff : ∀ e, e ∈ differing ln bs ↔ e ∈ bs ∧ (ln.twin.getD []).getD e.1 0 ≠ e.2 := fun e => by simp [differing]
  rw [merge_of_more s h bs hc]
  exact ⟨fun e he hne => (byte_of_mem hmem _).trans (hin e ((hdiff e).2 ⟨he, hne⟩)),
    fun a ha => (byte_of_mem hmem a).trans (hout a fun e he => ha e ((hdiff e).1 he).1 ((hdiff e).1 he).2)⟩

/-! ## Leases (R59, R60) -/

section Lease
variable {s : State} {h : Nat} {ln : L2Line} {row : Dword} {r : HomeReq} (h1 : acts row 1 = true) (h8 : acts row 8 = false)
  (h9 : acts row 9 = false) (h11 : acts row 11 = false) (h12 : acts row 12 = false)
include h1 h8 h9 h11 h12

/-- A lease granted on RDS runs from GT for its class's length, raises LH by it and by the requester's guard, and makes an
owner where the row says so. -/
theorem actRow_leases :
    let a := s.actRow h ln row 0 r [] none
    a.expiry = s.gt + s.leaseOf ln row r ∧ a.ln.lh = max ln.lh (a.expiry + guardOf r) ∧
      (s.inPool ln.line = false → a.s = s) ∧ (∀ c, r.who = .op c → acts row 2 = true → a.ln.owner = .core r.core) := by
  dsimp only
  rw [actRow_of_reading h8 h9 h11]
  refine ⟨answerPart_expiry _ _ _ _ _ _ h1, answerPart_lh _ _ _ _ _ _ h1, fun hp => ?_, fun c hw h2 =>
    answerPart_owner _ _ _ _ _ _ h2 h12 hw⟩
  rw [hp, answerPart_state]

end Lease

/-- Settles O49: uncached accesses are rows applied to a line that is not held, a copy's requests are the lemmas of
`lineReq`, and a check-in and a lease are what MERGE and LEASE do. -/
theorem lineProtocol : Obligations.LineProtocol := by
  unfold Obligations.LineProtocol
  refine ⟨?_, ?_, ?_, ?_, ?_⟩
  · intro s r id hw hcc hcp ht h hh hq hb hp hl p u
    exact ⟨exec_uncachedLoad hw hcc hcp ht hh hq hb hp hl, exec_uncachedStore hw hcc hcp ht hh hq hb hp hl,
      fun a off b => exec_uncachedAtomic hw hcc hcp ht hh hq hb hp hl, exec_uncachedCkout hw hcc hcp ht hh hq hb hl⟩
  · intro s r ln i ev hi hw ht h hh hq hb hl htab out
    exact ⟨exec_copy_waits hw ht hq hb hi hh hl htab, exec_copy_served hw ht hq hb hi hh hl htab⟩
  · intro s r hw ht h hh hq hb hcc hrange hl hscope hn
    exact exec_wback_absent hw ht hq hb hh hcc hrange hl hscope hn
  · intro s h ln bs hd hn hc t l twin
    have hl : l.count = ln.count - 1 ∧ l.cf = (ln.cf || (differing ln bs).any (fun e => ln.changed.contains e.1)) := by
      simp only [l, merge_of_more s h bs hc, and_self]
    refine ⟨hl.1, ?_, merge_writes_differing s h hd hn hc⟩
    rw [hl.2, differing, List.any_filter]
  · intro s h ln row r h1 h8 h9 h11 h12
    exact actRow_leases h1 h8 h9 h11 h12

end Sys2Proof.Proofs

/-! PROOFS. Check-outs granted (03/R70, R78, R79): a present line that needs nothing fetched is only moved within its slice,
and a row that changes no byte of it leaves it in its way. -/

namespace Sys2Proof.Proofs

open Sys2Proof.Machine

open Sys2Proof.Safety

/-! ## A line found as it is -/

/-- The lines of a slice that have a twin. -/
def twins (s : State) (h : Nat) : List L2Line := (s.slice h).lines.filter (fun l => l.twin.isSome)

theorem twins_putLine_le (s : State) (h : Nat) {ln : L2Line} (hn : ln.twin = none) :
    (twins (s.putLine h ln) h).length ≤ (twins s h).length := by
  unfold twins State.putLine
  rw [slice_setSlice_same, ← List.countP_eq_length_filter, ← List.countP_eq_length_filter, List.countP_map]
  refine List.countP_mono_left fun x _ hx => ?_
  by_cases hl : x.line = ln.line
  · simp [hl, hn] at hx
  · simpa [hl] using hx

theorem twins_touchLine_le {s : State} {h line : Nat} {ln : L2Line} (hl : s.lineAt h line = some ln) (hn : ln.twin = none) :
    (twins (s.touchLine h line) h).length ≤ (twins s h).length := by
  have hf : (s.slice h).lines.find? (fun x => x.line == line) = some ln := hl
  unfold twins State.touchLine
  simp only [hf]
  split
  · exact Nat.le_refl _
  · rw [slice_setSlice_same]
    simp only [List.filter_append, List.filter_cons, hn, Option.isSome_none, Bool.false_eq_true, if_false, List.filter_nil,
      List.append_nil]
    exact (List.filter_sublist.filter _).length_le

section Found
variable {s : State} {h ev : Nat} {ln : L2Line} {r : HomeReq} (hl : s.lineAt h r.line = some ln)
  (hv : ln.valid ||| validFor ev r = ln.valid)
include hl hv

/-- A line that has the sectors that a request wants is moved within its slice, no more. -/
theorem fetchedFor_of_valid : fetchedFor s h ln ev r = (s.putLine h ln).touchLine h r.line := by
  have hp := lineAt_touchLine (lineAt_putLine hl (line_of_lineAt hl))
  have hd : ((s.putLine h ln).touchLine h r.line).lineData ln = s.lineData ln := by
    rw [touchLine_eq]
    rfl
  unfold fetchedFor State.fetchSectors
  rw [if_pos hv, recoded_of_same hp (by rw [hd])]

theorem lineAt_fetchedFor : (fetchedFor s h ln ev r).lineAt h r.line = some ln := by
  rw [fetchedFor_of_valid hl hv]
  exact lineAt_touchLine (lineAt_putLine hl (line_of_lineAt hl))

theorem fetchedFor_eq : fetchedFor s h ln ev r = { s with slices := (fetchedFor s h ln ev r).slices } := by
  rw [fetchedFor_of_valid hl hv, touchLine_eq]
  rfl

theorem twins_fetchedFor_le (hn : ln.twin = none) : (twins (fetchedFor s h ln ev r) h).length ≤ (twins s h).length := by
  rw [fetchedFor_of_valid hl hv]
  exact (twins_touchLine_le (lineAt_putLine hl (line_of_lineAt hl)) hn).trans (twins_putLine_le s h hn)

/-- A wave's request for it has not missed (R360). -/
theorem noteMiss_of_valid : s.noteMiss h ev r = s := by
  unfold State.noteMiss
  split
  · rw [if_pos]
    simp [hl, hv]
  · rfl

end Found

/-- A request that leaves a line its bytes and its way is served as the row says. -/
theorem serveFit_of_kept {s t : State} {h ev : Nat} {ln l : L2Line} {i : Instr} {r : HomeReq} (hs : s.serve h ln ev r = t)
    (hl : t.lineAt h ln.line = some l) (hkept : (l.valid, t.lineData l) = (ln.valid, s.lineData ln)) (hway : l.way = ln.way) :
    s.serveFit h ln ev i r = t := by
  unfold State.serveFit
  dsimp only
  rw [hs, recoded_of_same hl hkept, hl]
  dsimp only
  rw [if_neg (by rw [hway]; exact fun hc => hc.2 hc.1)]

/-! ## The check-out (R78, R79) -/

section Checkout
variable {s : State} {h : Nat} {r : HomeReq} {ln : L2Line} {row : Dword} (hr : FromCore r) (hcc : r.cc = 1)
  (hscope : r.scope = none) (hp : s.inPool ln.line = false) (hway : ln.way ≠ 98)
  (hrow : s.tableRow ln.table ln.state 5 = row) (hmsg : rowMsg row = 3) (h0 : acts row 0 = true) (h1 : acts row 1 = true)
  (h10 : acts row 10 = true) (hno : ∀ k ∈ [4, 5, 6, 7, 8, 9, 11, 15], acts row k = false)
  (hroom : ln.twin.isSome = true ∨ (twins s h).length < 32)
include hr hcc hscope hp hway hrow hmsg h0 h1 h10 hno hroom

/-- What the row of a check-out leaves and sends. -/
theorem serve_ckout : ∃ (y : Reply) (l : L2Line), s.serve h ln 5 r = (s.putLine h l).post (.dataC y) ∧ y.who = r.who ∧
    y.lanes = r.lanes ∧ y.line = r.line ∧ y.data = ln.twin.getD (s.lineData ln) ∧ y.expiry = s.gt + s.leaseOf ln row r ∧
    l.line = ln.line ∧ l.twin = some (ln.twin.getD (s.lineData ln)) ∧ l.count = ln.count + 1 ∧ l.state = rowNext row ∧
    l.lh = ln.lh ∧ (l.valid, s.lineData l) = (ln.valid, s.lineData ln) ∧ l.way = ln.way := by
  have hservingRow : servingRow s ln 5 r = row := by
    rw [servingRow_of_ne_zero s ln r (by decide), if_neg (by omega), hrow]
  have hforwards : forwards row = false := by
    simp [forwards, hno 4 (by decide), hno 5 (by decide), hno 6 (by decide), hno 7 (by decide)]
  have hslot : ¬ (5 = 5 ∧ acts row 10 ∧ ln.twin.isNone ∧ ((s.slice h).lines.filter (fun l => l.twin.isSome)).length ≥ 32) := by
    rintro ⟨-, -, hn, hfull⟩
    rcases hroom with ht | hlt
    · rw [Option.isNone_iff_eq_none] at hn
      simp [hn] at ht
    · exact absurd hlt (Nat.not_lt.2 hfull)
  have ha := actRow_of_reading (hno 8 (by decide)) (hno 9 (by decide)) (hno 11 (by decide)) s h ln 5 r r.bytes
  rw [hp] at ha
  have hserve := serve_row (h := h) hservingRow ha (fun hc => hway hc.2) (hno 15 (by decide)) (.inr hscope) hslot hforwards
  set a := answerPart s ln row 5 r false 0 with hadef
  have hln : a.ln = { ln with twin := (twinned s row ln).twin, count := (twinned s row ln).count, lh := a.ln.lh,
                              owner := a.ln.owner, sharers := a.ln.sharers, ovf := a.ln.ovf } := answerPart_ln_eq s ln 5 r 0 false
  have hlh : a.ln.lh = ln.lh := (answerPart_lh s ln 5 r 0 false h1).trans (if_pos ⟨rfl, hmsg⟩)
  have hdata : a.data = ln.twin.getD (s.lineData ln) := answerPart_data s ln 5 r 0 false h0 hp
  have hset : settled r row a = { a.ln with state := rowNext row } := by
    unfold settled
    simp [hcc, hno 11 (by decide), L2Line.record_, hscope]
  have htw : twinned s row ln = { ln with twin := some (ln.twin.getD (s.lineData ln)), count := ln.count + 1 } := if_pos h10
  rw [if_neg hway, send_fromCore hr _ _ _ _ (i := .dataC (rowReply (a.s.putLine h (settled r row a)) (settled r row a) row r a))
    (by rw [hmsg]; rfl)] at hserve
  refine ⟨_, settled r row a, hserve, rfl, rfl, rfl, hdata, answerPart_expiry s ln 5 r 0 false h1, ?_⟩
  rw [hset, hln, htw]
  exact ⟨rfl, rfl, rfl, rfl, hlh, rfl, rfl⟩

/-- So is the check-out itself. -/
theorem serveFound_ckout (hl : s.lineAt h r.line = some ln) : ∃ (y : Reply) (l : L2Line),
    serveFound s h 5 (.ckout r) r = (s.putLine h l).post (.dataC y) ∧ (s.putLine h l).lineAt h r.line = some l ∧ y.who = r.who ∧
    y.lanes = r.lanes ∧ y.line = r.line ∧ y.data = ln.twin.getD (s.lineData ln) ∧ y.expiry = s.gt + s.leaseOf ln row r ∧
    l.twin = some (ln.twin.getD (s.lineData ln)) ∧ l.count = ln.count + 1 ∧ l.state = rowNext row ∧ l.lh = ln.lh := by
  have hline := line_of_lineAt hl
  obtain ⟨y, l, hserve, hwho, hlanes, hyl, hdata, hexp, hll, htwin, hcount, hstate, hlh, hkept, hlway⟩ :=
    serve_ckout hr hcc hscope hp hway hrow hmsg h0 h1 h10 hno hroom
  have hput : (s.putLine h l).lineAt h r.line = some l := lineAt_putLine hl (hll.trans hline)
  have hfit := serveFit_of_kept (i := .ckout r) hserve (hline ▸ hput) hkept hlway
  refine ⟨y, l, ?_, hput, hwho, hlanes, hyl, hdata, hexp, htwin, hcount, hstate, hlh⟩
  rw [serveFound, hl]
  exact hfit

end Checkout

/-- Settles O50: the line is found whole, so the slice alone has moved when its row is applied (`serveFound_ckout`). -/
theorem checkoutGranted : Obligations.CheckoutGranted := by
  unfold Obligations.CheckoutGranted
  intro s r ln id h row twin cls hw hcc hscope ht hh hp hq hb hl hn hx hway htab hfor hv hmsg h0 h1 h10 hno hroom
  have hr : FromCore r := .inl ⟨id, hw⟩
  have hwhole : ln.valid ||| validFor 5 r = ln.valid := by rw [hv, validFor, if_pos (.inr (.inr rfl))]; rfl
  have hreq : exec (.ckout r) s = .next (serveFound (fetchedFor s h ln 5 r) h 5 (.ckout r) r) := by
    have hmiss := noteMiss_of_valid hl hwhole
    have hex : exec (.ckout r) s = .next (s.homeReq 5 (.ckout r) r) := rfl
    rw [hex, homeReq_fromCore hr ht (by rw [hmiss]; exact hh), hmiss,
      lineReq_serves hq hb _ hr hl (governed_of_tableFor 5 htab hfor) hn hx]
  have hul := lineAt_fetchedFor hl hwhole
  have hroom' : ln.twin.isSome = true ∨ (twins (fetchedFor s h ln 5 r) h).length < 32 := by
    cases htw : ln.twin with
    | some d => exact .inl rfl
    | none =>
      rw [htw] at hroom
      exact .inr ((twins_fetchedFor_le hl hwhole htw).trans_lt (hroom.resolve_left (by simp)))
  rw [fetchedFor_eq hl hwhole] at hreq hul hroom'
  generalize (fetchedFor s h ln 5 r).slices = x at hreq hul hroom'
  obtain ⟨y, l, hserve, hput, hwho, hlanes, hyl, hdata, hexp, htwin, hcount, hstate, hlh⟩ :=
    serveFound_ckout (s := { s with slices := x }) (row := row) hr hcc hscope (line_of_lineAt hl ▸ hp) hway rfl hmsg h0 h1 h10 hno
      hroom' hul
  have hlen : s.leaseOf ln row r = 16 * fld (s.csrGet (0x30 + cls) 0) 0 16 := if_neg (by omega)
  rw [hserve] at hreq
  exact ⟨_, y, l, hreq, rfl, rfl, hwho, hlanes, hyl, hdata, hexp.trans (congrArg (s.gt + ·) hlen), hput, htwin, hcount, hstate, hlh⟩

end Sys2Proof.Proofs

/-! PROOFS. Answers that reach the lanes of a wave's operations (03/R56, 06/R132 to R134, R139, R140): what an answer serves,
how an operation retires once its lanes are done, and that copies kept or given back touch neither waves nor operations. -/

namespace Sys2Proof.Proofs

open Sys2Proof.Machine

open Sys2Proof.Safety

/-! ## Entries changed -/

theorem find_update_same {α : Type} {m : Sparse α} {k : Nat} {v : α} (h : Sparse.find m k = some v) (f : α → α) :
    Sparse.find (Sparse.update m k f) k = some (f v) := by
  unfold Sparse.update
  rw [h]
  exact Sparse.find_put_same ..

theorem find_erase_same {α : Type} (m : Sparse α) (k : Nat) : Sparse.find (Sparse.erase m k) k = none := by
  induction m with
  | nil => rfl
  | cons e r ih =>
    by_cases h : e.1 = k <;> simp [Sparse.erase, Sparse.find, h, ih]

theorem wave_of_find {s : State} {id : Nat} {w : Wave} (h : Sparse.find s.waves id = some w) : s.wave id = w := by
  rw [State.wave, Sparse.get_eq_find, h, Option.getD_some]

/-! ## An operation retires -/

/-- A wave that does not drain keeps its place. -/
theorem settle_of_ready {s : State} {id : Nat} (h : (s.wave id).status = .ready) : s.settle id = s := by
  unfold State.settle
  simp [h]

/-- An operation gone, its counter fallen. -/
def retired (s : State) (id wave : Nat) : State :=
  { s with ops := Sparse.erase s.ops id }.modLive wave (fun w => w.retireOp id)

theorem wave_retired {s : State} {wave : Nat} {w : Wave} (id : Nat) (h : Sparse.find s.waves wave = some w) :
    (retired s id wave).wave wave = w.retireOp id := wave_of_find (find_update_same h _)

theorem dropOp_of_ready {s : State} {wave : Nat} {w : Wave} (id : Nat) (h : Sparse.find s.waves wave = some w)
    (hs : w.status = .ready) : s.dropOp id wave = retired s id wave := by
  refine settle_of_ready (s := retired s id wave) ?_
  rw [wave_retired id h]
  exact hs

/-- A load or store of which every lane is done retires. -/
theorem finishOp_of_done {s : State} {id : Nat} {o : MemOp} {w : Wave} (ho : Sparse.find s.ops id = some o)
    (hk : o.kind = .store ∨ ∃ sg, o.kind = .load sg) (hd : ∀ x ∈ o.lanes, x.phase = .fin) (hr : o.resume = false)
    (hw : Sparse.find s.waves o.wave = some w) (hs : w.status = .ready) : s.finishOp id = retired s id o.wave := by
  have hopen : o.lanes.any LaneOp.open = false := by
    rw [List.any_eq_false]
    exact fun x hx => by simp [LaneOp.open, LaneOp.away, LaneOp.writes, hd x hx]
  have hbad : o.lanes.any LaneOp.bad = false := by
    rw [List.any_eq_false]
    exact fun x hx => by simp [LaneOp.bad, hd x hx]
  unfold State.finishOp
  simp only [ho, hopen, hbad, hr, Bool.false_eq_true, if_false]
  rw [dropOp_of_ready id hw hs]
  rcases hk with hk | ⟨sg, hk⟩ <;> rw [hk]

/-! ## Copies kept and given back (R56) -/

/-- An L, T or X copy given back changes caches and what is to come, no more. -/
theorem giveBack_eq (s : State) (core : Nat) {c : CacheCopy} (hk : c.kind ≠ .c) :
    s.giveBack core c = { s with caches := (s.giveBack core c).caches, agenda := (s.giveBack core c).agenda } := by
  unfold State.giveBack
  cases h : c.kind with
  | l => rfl
  | c => exact absurd h hk
  | x => dsimp only; split <;> rfl
  | t => dsimp only; split <;> rfl

theorem keepCopy_eq (s : State) (y : Reply) {kind : CKind} (hk : kind ≠ .c) :
    s.keepCopy y kind = { s with caches := (s.keepCopy y kind).caches, agenda := (s.keepCopy y kind).agenda } := by
  unfold State.keepCopy
  dsimp only
  split
  · rfl
  · split
    · rfl
    · split
      · exact giveBack_eq s _ hk
      · rfl

theorem giveUpOld_eq (s : State) (y : Reply) (always : Bool) : s.giveUpOld y always =
    { s with caches := (s.giveUpOld y always).caches, agenda := (s.giveUpOld y always).agenda } := by
  unfold State.giveUpOld
  split
  · split
    · next c hc hif =>
      refine giveBack_eq s _ fun hk => ?_
      rcases hif.1 with h | h <;> rw [hk] at h <;> cases h
    · rfl
  · rfl

/-! ## Loads of one lane (R132, R288) -/

/-- A wave with a word landed in a lane of a register, and its poison. -/
def landed (w : Wave) (j lane : Nat) (v : Word) (m : Mark) : Wave :=
  (w.lwrite j (fun l => if l = lane then some v else none)).setLmark j lane m

theorem lreg_landed {w : Wave} {j lane : Nat} (v : Word) (m : Mark) (hj : holds w j = true) {n l : Nat} (hl : l < w.width) :
    (landed w j lane v m).lreg n l = if n = j ∧ l = lane then v else w.lreg n l := by
  have hm : (landed w j lane v m).lreg = (w.lwrite j (fun l => if l = lane then some v else none)).lreg := rfl
  rw [hm, Wave.lreg_lwrite _ _ _ _ _ hl]
  by_cases hn : n = j
  · subst hn
    by_cases hx : l = lane <;> simp [hj, hx]
  · simp [hn]

/-- The word that a load of 4 bytes makes of them. -/
theorem words_of_load4 {o : MemOp} {sg : Bool} (hk : o.kind = .load sg) (hs : o.size = 4) (bs : List Byte) :
    o.words bs = [wd (ofBytes bs)] := by
  unfold MemOp.words
  cases sg
  · simp [hk, hs, wd, BitVec.ofNat, Fin.ofNat]
  · simp [hk, hs]

section Load
variable {s : State} {y : Reply} {id j : Nat} {o : MemOp} {x : LaneOp} {w : Wave} {sg : Bool}
  (ho : Sparse.find s.ops id = some o) (hk : o.kind = .load sg) (hls : o.lanes = [x]) (hph : x.phase = .sent)
  (hy : x.lane ∈ y.lanes) (hd : o.dst = [j]) (hsz : o.size = 4) (hw : Sparse.find s.waves o.wave = some w)
  (hp : s.inPool y.line = false) (hback : s.inBacking w.ctx x.va = false)

include ho hk hd hsz in
theorem landLane_load4 (lane : Nat) (bs : List Byte) (ms : List Mark) : s.landLane id lane bs ms =
    (s.modLive o.wave (fun w => landed w j lane (wd (ofBytes bs)) (ms.getD 0 Mark.none))).modOp id
      (fun p => p.setPhase [lane] .fin) := by
  unfold State.landLane
  simp only [ho, hk, hd, words_of_load4 hk hsz, List.zip_cons_cons, List.zip_nil_right, List.zipIdx_cons, List.zipIdx_nil,
    List.foldl_cons, List.foldl_nil, Nat.zero_add]
  rfl

include ho hls hw hp hback in
/-- What lies in no pool and no backing area comes as memory has it. -/
theorem landFrom_plain (bs : List Byte) (ms : List Mark) : s.landFrom id x.lane y.line bs ms = s.landLane id x.lane bs ms := by
  have hr : s.readsBacking id x.lane = false := by
    simp [State.readsBacking, ho, hls, wave_of_find hw, hback]
  unfold State.landFrom
  rw [if_neg (by simp [hp, hr])]

include ho hk hls hph hy hd hsz hw hp hback

/-- Data for a load of one lane writes the lane of its register, and the load retires. -/
theorem serveOp_load4 (hres : o.resume = false) (hst : w.status = .ready) (hj : holds w j = true) :
    (s.serveOp id y).mem = s.mem ∧ Sparse.find (s.serveOp id y).ops id = none ∧
      ∀ n l, l < w.width → ((s.serveOp id y).wave o.wave).lreg n l =
        if n = j ∧ l = x.lane then wd (ofBytes ((y.data.drop (x.va.toNat % 128)).take 4)) else w.lreg n l := by
  have hxs : o.waiting y.lanes = [x] := by
    simp [MemOp.waiting, hls, LaneOp.away, hph, hy]
  generalize hms : s.marksAt (s.place (y.line + x.off)) (Nat.min o.size (128 - x.off)) = ms
  generalize hv : wd (ofBytes ((y.data.drop x.off).take 4)) = v
  have hserve : s.serveOp id y = (((s.modLive o.wave (fun w => landed w j x.lane v (ms.getD 0 Mark.none))).modOp id
      (fun p => p.setPhase [x.lane] .fin)).giveUpOld y false).finishOp id := by
    unfold State.serveOp
    simp only [ho, hk, hxs, List.foldl_cons, List.foldl_nil]
    rw [landFrom_plain ho hls hw hp hback, landLane_load4 ho hk hd hsz, hms, hsz, hv]
  set t := (s.modLive o.wave (fun w => landed w j x.lane v (ms.getD 0 Mark.none))).modOp id
    (fun p => p.setPhase [x.lane] .fin) with ht
  have hu := giveUpOld_eq t y false
  have htw : Sparse.find (t.giveUpOld y false).waves o.wave = some (landed w j x.lane v (ms.getD 0 Mark.none)) := by
    rw [hu]
    exact find_update_same hw _
  have hto : Sparse.find (t.giveUpOld y false).ops id = some (o.setPhase [x.lane] .fin) := by
    rw [hu]
    exact find_update_same ho _
  have hstat : (landed w j x.lane v (ms.getD 0 Mark.none)).status = .ready := by
    unfold landed
    rw [Wave.lwrite_eq]
    exact hst
  have hfin := finishOp_of_done hto (.inr ⟨sg, hk⟩) (by simp [MemOp.setPhase, hls]) hres htw hstat
  rw [hserve, hfin]
  refine ⟨?_, find_erase_same .., fun n l hl => ?_⟩
  · rw [retired, hu]
    rfl
  · refine (congrArg (fun w => Wave.lreg w n l) (wave_retired id htw)).trans ?_
    exact (lreg_landed v (ms.getD 0 Mark.none) hj hl).trans (by rw [← hv, LaneOp.off])

end Load

/-! ## Stores (R134, R140) -/

/-- The acknowledgement of all of a store's lanes ends it, and raises LWCT. -/
theorem serveOp_store {s : State} {y : Reply} {id : Nat} {o : MemOp} {w : Wave} (ho : Sparse.find s.ops id = some o)
    (hk : o.kind = .store) (hl : ∀ x ∈ o.lanes, x.away = true ∧ x.lane ∈ y.lanes) (hres : o.resume = false)
    (hw : Sparse.find s.waves o.wave = some w) (hst : w.status = .ready) :
    (s.serveOp id y).mem = s.mem ∧ Sparse.find (s.serveOp id y).ops id = none ∧
      (s.serveOp id y).wave o.wave = (w.foldWct y.wct).retireOp id := by
  have hxs : o.waiting y.lanes = o.lanes := List.filter_eq_self.2 fun x hx => by simp [hl x hx]
  have hserve : s.serveOp id y =
      ((s.doneLanes id (o.lanes.map (·.lane))).modLive o.wave (fun w => w.foldWct y.wct)).finishOp id := by
    unfold State.serveOp
    simp only [ho, hk, hxs]
  have htw : Sparse.find ((s.doneLanes id (o.lanes.map (·.lane))).modLive o.wave (fun w => w.foldWct y.wct)).waves o.wave =
      some (w.foldWct y.wct) := find_update_same hw _
  have hto : Sparse.find ((s.doneLanes id (o.lanes.map (·.lane))).modLive o.wave (fun w => w.foldWct y.wct)).ops id =
      some (o.setPhase (o.lanes.map (·.lane)) .fin) := find_update_same ho _
  have hdone : ∀ x ∈ (o.setPhase (o.lanes.map (·.lane)) .fin).lanes, x.phase = .fin := by
    intro x hx
    obtain ⟨z, hz, rfl⟩ := List.mem_map.1 hx
    rw [if_pos (by simpa using ⟨z, hz, rfl⟩)]
  rw [hserve, finishOp_of_done hto (.inl hk) hdone hres htw hst]
  exact ⟨rfl, find_erase_same .., wave_retired id htw⟩

/-! ## Answers to who waits (R57, R132) -/

section Answered
variable {s : State} {y : Reply} {id : Nat} {o : MemOp} (hwho : y.who = .op id) (ho : Sparse.find s.ops id = some o)
include hwho ho

theorem answered_of_op (data : Bool) (hn : ∀ x ∈ o.lanes, x.lane ∈ y.lanes → x.writes ≠ some (y.line, true)) :
    s.answered y data = s.serveOp id y := by
  have ha : s.answersOut y = false := by
    simpa [State.answersOut, hwho, ho] using hn
  unfold State.answered State.deliver
  simp only [hwho, ha, Bool.false_eq_true, if_false]

theorem answered_of_checkout (data : Bool) (hn : ∃ x ∈ o.lanes, x.lane ∈ y.lanes ∧ x.writes = some (y.line, true)) :
    s.answered y data = s.uncheckedOut id y := by
  have ha : s.answersOut y = true := by
    simpa [State.answersOut, hwho, ho] using hn
  unfold State.answered
  simp only [hwho, ha, if_true]

end Answered

/-- The state in which an answer with data is delivered: a copy that comes with it is kept. -/
def kept (i : Instr) (s : State) : State :=
  match i with
  | .dataS y => if y.keep then s.keepCopy y (if y.leased then .l else .t) else s
  | .dataX y => s.keepCopy y .x
  | _ => s

theorem exec_answer {i : Instr} {y : Reply} (hi : i = .dataS y ∨ i = .dataX y ∨ i = .ackData y) (s : State) :
    exec i s = .next ((kept i s).answered y true) := by
  rcases hi with rfl | rfl | rfl <;> rfl

theorem kept_eq (i : Instr) (s : State) : kept i s = { s with caches := (kept i s).caches, agenda := (kept i s).agenda } := by
  unfold kept
  split
  · split
    · refine keepCopy_eq s _ ?_
      split <;> exact CKind.noConfusion
    · rfl
  · exact keepCopy_eq s _ CKind.noConfusion
  · rfl

/-- Data for a load of one lane from outside the pools writes the lane of its register and no other. -/
theorem exec_answer_load4 {s : State} {y : Reply} {id j : Nat} {o : MemOp} {x : LaneOp} {w : Wave} {sg : Bool} {i : Instr}
    (hi : i = .dataS y ∨ i = .dataX y ∨ i = .ackData y) (hwho : y.who = .op id) (ho : Sparse.find s.ops id = some o)
    (hk : o.kind = .load sg) (hls : o.lanes = [x]) (hph : x.phase = .sent) (hy : x.lane ∈ y.lanes) (hd : o.dst = [j])
    (hsz : o.size = 4) (hres : o.resume = false) (hw : Sparse.find s.waves o.wave = some w) (hst : w.status = .ready)
    (hj : holds w j = true) (hp : s.inPool y.line = false) (hback : s.inBacking w.ctx x.va = false) :
    ∃ t, exec i s = .next t ∧ t.mem = s.mem ∧ Sparse.find t.ops id = none ∧ ∀ n l, l < w.width → (t.wave o.wave).lreg n l =
      if n = j ∧ l = x.lane then wd (ofBytes ((y.data.drop (x.va.toNat % 128)).take 4)) else w.lreg n l := by
  have hu := kept_eq i s
  generalize (kept i s).caches = c, (kept i s).agenda = a at hu
  have hn : ∀ z ∈ o.lanes, z.lane ∈ y.lanes → z.writes ≠ some (y.line, true) := by simp [hls, LaneOp.writes, hph]
  refine ⟨_, exec_answer hi s, ?_⟩
  rw [hu, answered_of_op (s := { s with caches := c, agenda := a }) hwho ho true hn]
  exact serveOp_load4 (s := { s with caches := c, agenda := a }) ho hk hls hph hy hd hsz hw hp hback hres hst hj

/-- An acknowledged store ends and raises LWCT. -/
theorem exec_ack_store {s : State} {y : Reply} {id : Nat} {o : MemOp} {w : Wave} (hwho : y.who = .op id)
    (ho : Sparse.find s.ops id = some o) (hk : o.kind = .store)
    (hl : ∀ x ∈ o.lanes, x.away = true ∧ x.lane ∈ y.lanes ∧ x.writes ≠ some (y.line, true)) (hres : o.resume = false)
    (hw : Sparse.find s.waves o.wave = some w) (hst : w.status = .ready) :
    ∃ t, exec (.ack y) s = .next t ∧ t.mem = s.mem ∧ Sparse.find t.ops id = none ∧ (t.wave o.wave).regs = w.regs ∧
      (t.wave o.wave).lwct = max w.lwct y.wct := by
  have hex : exec (.ack y) s = .next (s.answered y false) := rfl
  obtain ⟨hmem, hops, hwave⟩ := serveOp_store ho hk (fun x hx => ⟨(hl x hx).1, (hl x hx).2.1⟩) hres hw hst
  rw [answered_of_op hwho ho false (fun x hx _ => (hl x hx).2.2)] at hex
  refine ⟨_, hex, hmem, hops, ?_, ?_⟩ <;> rw [hwave] <;> rfl

/-- A check-out that is not answered with a C copy: the stores go on without one (log 114). -/
theorem exec_answer_checkout {s : State} {y : Reply} {id : Nat} {o : MemOp} (hwho : y.who = .op id)
    (ho : Sparse.find s.ops id = some o) (hn : ∃ x ∈ o.lanes, x.lane ∈ y.lanes ∧ x.writes = some (y.line, true)) :
    exec (.ack y) s = .next (s.uncheckedOut id y) ∧ exec (.ackData y) s = .next (s.uncheckedOut id y) :=
  ⟨congrArg _ (answered_of_checkout hwho ho false hn), congrArg _ (answered_of_checkout hwho ho true hn)⟩

end Sys2Proof.Proofs

/-! PROOFS. C copies that come, probes that take copies away (03/R58), answers that a split row waits for (03/R70, R72), LHPASS
(03/R67) and the on-chip window (04/R104). -/

namespace Sys2Proof.Proofs

open Sys2Proof.Machine

open Sys2Proof.Safety

/-! ## Copies of a core -/

theorem cacheOf_setCache_same (s : State) (core : Nat) (cs : List CacheCopy) : (s.setCache core cs).cacheOf core = cs :=
  Sparse.get_put_same ..

section Kept
variable {s : State} {y : Reply} {c : Nat} (hw : y.who = .cache c)
include hw

theorem exec_dataC_cache : exec (.dataC y) s = .next (s.keepCopy y .c) := by
  change execDataC y s = _
  unfold execDataC
  simp only [hw]

/-- A second grant leaves the X or C copy that stands (R56). -/
theorem exec_dataC_stands (h : (s.copyAt y.core y.line).any (fun x => decide (x.kind = .x ∨ x.kind = .c)) = true) :
    exec (.dataC y) s = .next s := by
  rw [exec_dataC_cache hw]
  unfold State.keepCopy
  dsimp only
  rw [if_pos h]

theorem exec_dataC_kept (h : (s.copyAt y.core y.line).any (fun x => decide (x.kind = .x ∨ x.kind = .c)) = false) :
    ∃ t k, exec (.dataC y) s = .next t ∧ t.cacheOf y.core = k :: (s.cacheOf y.core).filter (fun x => x.line != y.line) ∧
      k.line = y.line ∧ k.kind = .c ∧ k.data = y.data ∧ k.expiry = y.expiry := by
  rw [exec_dataC_cache hw]
  unfold State.keepCopy
  dsimp only
  rw [if_neg (by rw [h]; decide), if_neg (fun hc => CKind.noConfusion hc.1), if_neg (fun hc => hc.1 rfl)]
  exact ⟨_, _, rfl, cacheOf_setCache_same .., rfl, rfl, rfl, rfl⟩

end Kept

/-! ## Probes (R58) -/

section Probes
variable (s : State) (core line : Nat)

theorem exec_inv (home : Nat) : ∃ t, exec (.inv core line home) s = .next t ∧ t.agenda = s.agenda ++ [.iack core line home] ∧
    t.mem = s.mem ∧ t.cacheOf core = (if s.homeOf core line = home then
      (s.cacheOf core).filter (fun c => !(c.line == line && decide (c.kind = .l ∨ c.kind = .t))) else s.cacheOf core) := by
  refine ⟨_, rfl, ?_⟩
  by_cases h : s.homeOf core line = home
  · rw [if_pos h, if_pos h]
    exact ⟨rfl, rfl, cacheOf_setCache_same ..⟩
  · rw [if_neg h, if_neg h]
    exact ⟨rfl, rfl, rfl⟩

theorem exec_upd (home : Nat) (bytes : List (Nat × Byte)) : ∃ t, exec (.upd core line home bytes) s = .next t ∧
    t.agenda = s.agenda ++ [.iack core line home] ∧ t.mem = s.mem ∧
    t.cacheOf core = (if s.homeOf core line = home then (s.cacheOf core).map (fun c => if c.line = line then
      c.store (bytes.filter (fun b => !(s.ownBytes core line true).contains b.1)) false 0 else c) else s.cacheOf core) := by
  refine ⟨_, rfl, ?_⟩
  by_cases h : s.homeOf core line = home
  · rw [if_pos h, if_pos h]
    exact ⟨rfl, rfl, cacheOf_setCache_same ..⟩
  · rw [if_neg h, if_neg h]
    exact ⟨rfl, rfl, rfl⟩

end Probes

section Recall
variable {s : State} {core line : Nat}

/-- A recalled owner gives its X copy up, with the line if it was written. -/
theorem exec_recall_held {c : CacheCopy}
    (h : (s.cacheOf core).find? (fun c => c.line == line && decide (c.kind = .x)) = some c) :
    ∃ t ps, exec (.recall core line) s = .next t ∧ t.mem = s.mem ∧
      t.agenda = s.agenda ++ [.rcld core line (if c.dirty = [] then none else some c.data) ps] ∧
      t.cacheOf core = (s.cacheOf core).filter (fun c => !(c.line == line && decide (c.kind = .x))) := by
  have hex : exec (.recall core line) s = execRecall core line s := rfl
  rw [hex]
  unfold execRecall
  rw [h]
  exact ⟨_, _, rfl, rfl, rfl, cacheOf_setCache_same ..⟩

section Given
variable (h : (s.cacheOf core).find? (fun c => c.line == line && decide (c.kind = .x)) = none)
include h

theorem exec_recall_clean (hr : ∀ r, (s.takeGiven core line).2 = some r → r.bytes = []) :
    exec (.recall core line) s = .next ((s.takeGiven core line).1.post (.rcld core line none [])) := by
  have hf : (s.takeGiven core line).2.filter (fun r => r.bytes != []) = none := by
    rw [Option.filter_eq_none_iff]
    exact fun r he => by simp [hr r he]
  change execRecall core line s = _
  unfold execRecall
  rw [h]
  dsimp only
  rw [hf]

/-- What the owner has given back goes into the answer (log 115). -/
theorem exec_recall_given {r : HomeReq} (hr : (s.takeGiven core line).2 = some r) (hb : r.bytes ≠ []) :
    let g := s.takeGiven core line
    exec (.recall core line) s = .next (g.1.post (.rcld core line
      (some (patch (((g.1.lineAt (g.1.homeOf core line) line).map g.1.lineData).getD []) r.bytes)) r.poison)) := by
  have hf : (s.takeGiven core line).2.filter (fun r => r.bytes != []) = some r := by
    rw [hr]
    simp [hb]
  change execRecall core line s = _
  unfold execRecall
  rw [h]
  dsimp only
  rw [hf]

end Given

end Recall

section Expiry
variable {s : State} {core line : Nat}

theorem exec_lCopyExpiry_due (h : ∃ c ∈ s.cacheOf core, c.line = line ∧ c.kind = .l ∧ c.expiry ≤ s.gt) :
    ∃ t, exec (.lCopyExpiry core line) s = .next t ∧ t.mem = s.mem ∧ t.agenda = s.agenda ∧
      t.cacheOf core = (s.cacheOf core).filter (fun c => !(c.line == line && decide (c.kind = .l))) := by
  have ha : (s.cacheOf core).any (fun c => c.line == line && decide (c.kind = .l) && decide (c.expiry ≤ s.gt)) = true := by
    obtain ⟨c, hc, hl, hk, he⟩ := h
    exact List.any_eq_true.2 ⟨c, hc, by simp [hl, hk, he]⟩
  have hex : exec (.lCopyExpiry core line) s = execLCopyExpiry core line s := rfl
  rw [hex, execLCopyExpiry, if_pos ha]
  exact ⟨_, rfl, rfl, rfl, cacheOf_setCache_same ..⟩

theorem exec_lCopyExpiry_early (h : ∀ c ∈ s.cacheOf core, c.line = line → c.kind ≠ .l ∨ s.gt < c.expiry) :
    exec (.lCopyExpiry core line) s = .refused (.notEnabled "L_COPY_EXPIRY") := by
  have ha : (s.cacheOf core).any (fun c => c.line == line && decide (c.kind = .l) && decide (c.expiry ≤ s.gt)) = false := by
    rw [List.any_eq_false]
    intro c hc hx
    simp only [Bool.and_eq_true, beq_iff_eq, decide_eq_true_eq] at hx
    obtain ⟨⟨hl, hk⟩, he⟩ := hx
    rcases h c hc hl with hn | hn
    · exact hn hk
    · omega
  change execLCopyExpiry core line s = _
  rw [execLCopyExpiry, if_neg (by simp [ha])]

theorem exec_cCopyExpiry_due {c : CacheCopy} (h : (s.cacheOf core).find? (fun c =>
      c.line == line && decide (c.kind = .c) && decide (c.expiry ≤ s.gt)) = some c) :
    exec (.cCopyExpiry core line) s = .next (s.checkIn core c []) := by
  change execCCopyExpiry core line s = _
  unfold execCCopyExpiry
  rw [h]

end Expiry

/-! ## What a split row waits for (R70, R72) -/

section Split
variable {s : State} {core line h : Nat} {ln : L2Line} {hd : Held}

/-- An answer of a core is counted off. -/
theorem exec_iack_counts (hs : s.splitOf h line (fun x => decide (x.acks > 0)) = some (ln, hd)) :
    exec (.iack core line h) s = .next (s.complete h ln { hd with acks := hd.acks - 1 }) := by
  change execIack core line h s = _
  unfold execIack
  dsimp only
  rw [hs]

/-- The answer to none at all completes the row. -/
theorem exec_iack_completes (hn : s.splitOf h line (fun x => decide (x.acks > 0)) = none)
    (hs : s.splitOf h line (fun x => decide (x.acks = 0) && !x.rcl && !x.host) = some (ln, hd)) :
    exec (.iack core line h) s = .next (s.complete h ln hd) := by
  change execIack core line h s = _
  unfold execIack
  dsimp only
  rw [hn]
  dsimp only
  rw [hs]

theorem exec_rcld_completes (d : Option (List Byte)) (ps : List Nat) (hh : h = s.homeOf core line)
    (hs : s.splitOf h line (fun x => x.rcl) = some (ln, hd)) :
    exec (.rcld core line d ps) s = .next (s.complete h ln { hd with rcl := false, rdata := d, soiled := ps }) := by
  subst hh
  change execRcld core line d ps s = _
  unfold execRcld
  dsimp only
  rw [hs]

theorem exec_birsp_completes (d : Option (List Byte)) (pz : Bool) (hs : s.hostSplit line = some (h, ln, hd)) :
    exec (.birsp line d pz) s = .next (s.complete h ln
      { hd with host := false, hdata := d, soiled := if pz then [0, 1, 2, 3] else [] }) := by
  change execBirsp line d pz s = _
  unfold execBirsp
  rw [hs]

/-- A line stays held until the last answer is in. -/
theorem complete_of_awaited (hw : hd.acks ≠ 0 ∨ hd.rcl = true ∨ hd.host = true) :
    s.complete h ln hd = s.putLine h { ln with held := some hd } := if_pos hw

end Split

/-! ## LHPASS (R67) -/

theorem wakeSlice_of_idle {s : State} {h : Nat} (hw : (s.slice h).wait = []) : s.wakeSlice h = s := if_pos hw

section Lhpass
variable {s : State} {line h : Nat} {ln : L2Line}
  (hs : s.slices = [(h, { lines := [ln], ehz := 0, wait := [], claims := [] })]) (hl : ln.line = line)
include hs hl

theorem findLine_of_single {f : L2Line → Bool} : s.findLine line f = if f ln then some (h, ln) else none := by
  unfold State.findLine
  rw [hs]
  cases hf : f ln <;> simp [hl, hf]

/-- The only line of a slice put anew. -/
theorem slice_putLine_of_single {l : L2Line} (hn : l.line = line) :
    (s.putLine h l).slice h = { lines := [l], ehz := 0, wait := [], claims := [] } := by
  have hsl : s.slice h = { lines := [ln], ehz := 0, wait := [], claims := [] } := by
    unfold State.slice
    rw [hs]
    exact if_pos rfl
  unfold State.putLine
  rw [slice_setSlice_same, hsl]
  simp [hl, hn]

/-- Once GT has reached LH a line takes its LHPASS row where its base is SHARED, and what waited for it goes on. -/
theorem exec_lhpass_passed (hh : ln.held = none) (ht : s.isTransient ln = false) (hg : ln.lh ≤ s.gt) (hw : ln.way < 98) :
    ∃ t l, exec (.lhpass line) s = .next t ∧ t.lineAt h line = some l ∧ t.agenda = ln.queue ++ s.agenda ∧ t.mem = s.mem ∧
      l.state = (if s.baseOf ln = 1 then rowNext (s.tableRow ln.table ln.state 15) else ln.state) := by
  have hfind : (s.findLine line s.lhDue).orElse (fun _ =>
      s.findLine line (fun l => l.held.isNone && !s.isTransient l && decide (l.lh ≤ s.gt))) = some (h, ln) := by
    rw [findLine_of_single hs hl, findLine_of_single hs hl]
    cases s.lhDue ln <;> simp [hh, ht, hg]
  generalize hst : (if s.baseOf ln = 1 then rowNext (s.tableRow ln.table ln.state 15) else ln.state) = st
  set l : L2Line := { ln with state := st, queue := [] } with hldef
  have hslice : ((s.putLine h l).postFront ln.queue).slice h = { lines := [l], ehz := 0, wait := [], claims := [] } :=
    slice_putLine_of_single hs hl (l := l) hl
  have hhoused : ∀ x ∈ (((s.putLine h l).postFront ln.queue).slice h).lines, x.way ≠ 99 := by
    rw [hslice]
    intro x hx
    rw [List.mem_singleton.1 hx]
    exact (show ln.way ≠ 99 by omega)
  have hex : exec (.lhpass line) s = .next ((s.putLine h l).postFront ln.queue) := by
    change execLhpass line s = _
    unfold execLhpass
    rw [hfind]
    dsimp only
    rw [hst, rehouse_of_housed _ hhoused, wakeSlice_of_idle (by rw [hslice])]
  refine ⟨_, l, hex, ?_, rfl, rfl, rfl⟩
  unfold State.lineAt
  rw [hslice]
  simp [hldef, hl]

end Lhpass

/-! ## The on-chip window (R104) -/

theorem windowPut_raw (s : State) (core off k : Nat) (vs : List Byte) :
    s.windowPut core off true (offBytes k vs) = s.write (winBase core + off + k) vs := by
  induction vs generalizing s k with
  | nil => rfl
  | cons v r ih => exact ih (s.setByte (winBase core + off + k) v) (k + 1)

/-- The device's own write through a window stores its bytes as they stand. -/
theorem windowPerform_raw_mem (s : State) {a : WindowAccess} {vs : List Byte} (hw : a.who = .device) (hr : a.raw = true)
    (ha : a.atom = none) (hv : vs ≠ []) (hb : a.bytes = offBytes 0 vs) :
    (s.windowPerform a).mem = (s.write (winBase ((a.pa - 0x10000000000) / 0x200000) + a.pa % 0x200000) vs).mem := by
  have hne : a.bytes ≠ [] := by
    cases vs with
    | nil => exact absurd rfl hv
    | cons v r => simp [hb, offBytes]
  have hdone : ∀ t : State, t.windowDone a [] [] = t := fun t => by
    unfold State.windowDone
    simp only [hw]
  unfold State.windowPerform
  simp only [ha, hne, if_false, hdone]
  unfold State.windowWrite
  simp only [hr, if_true]
  rw [State.wipeWords_mem, hb, windowPut_raw]
  rfl

section Window
variable (s : State) (a : WindowAccess)

theorem exec_window_beyond (h : 2 ^ 52 ≤ a.pa) : exec (.onchipWindowAccess a) s = .fault (.beyondMap a.pa) := by
  change execOnchipWindowAccess a s = _
  rw [execOnchipWindowAccess]
  exact if_pos h

theorem exec_window_within (h : a.pa < 2 ^ 52) (ht : targetOf a.pa = .onchip) (ho : a.pa % 0x200000 < 0x1C0000) :
    exec (.onchipWindowAccess a) s =
      let core := (a.pa - 0x10000000000) / 0x200000
      if s.windowWaits a then .next (s.setEngine core { s.engine core with held := (s.engine core).held ++ [a] })
      else .next (s.windowPerform a) := by
  change execOnchipWindowAccess a s = _
  rw [execOnchipWindowAccess]
  dsimp only
  rw [if_neg (by omega), if_neg (by simp [ht, ho])]

end Window

/-- Settles O51: each clause is the lemma of its answer or probe; that a store goes on without a copy is log 114, what a RECALL
meets that is given back already log 115. -/
theorem answersAndProbes : Obligations.AnswersAndProbes := by
  unfold Obligations.AnswersAndProbes
  refine ⟨?loads, ?stores, ?checkouts, ?copies, ?probes, ?splits, ?awaited, ?lhpass, ?window⟩
  case loads =>
    intro s y id j o x w sg i hi hwho ho hk hls hph hy hd hsz hres hw hst hj hlane hp hback
    exact exec_answer_load4 hi hwho ho hk hls hph hy hd hsz hres hw hst hj hp hback
  case stores =>
    intro s y id o w hwho ho hk hl hres hw hst
    exact exec_ack_store hwho ho hk hl hres hw hst
  case checkouts =>
    intro s y id o hwho ho hn
    exact exec_answer_checkout hwho ho hn
  case copies =>
    intro s y c hw
    exact ⟨exec_dataC_stands hw, exec_dataC_kept hw⟩
  case probes =>
    intro s core line
    exact ⟨exec_inv s core line, exec_upd s core line, fun c => exec_recall_held,
      fun h => ⟨exec_recall_clean h, fun r => exec_recall_given h⟩, exec_lCopyExpiry_due, exec_lCopyExpiry_early,
      fun c => exec_cCopyExpiry_due⟩
  case splits =>
    intro s core line h ln hd d ps pz
    exact ⟨exec_iack_counts, exec_iack_completes, exec_rcld_completes d ps, exec_birsp_completes d pz⟩
  case awaited =>
    intro s h ln hd hw
    exact complete_of_awaited hw
  case lhpass =>
    intro s line h ln hs hl hh ht hg hw
    exact exec_lhpass_passed hs hl hh ht hg hw
  case window =>
    intro s a core
    refine ⟨exec_window_beyond s a, fun h ht ho => ?_, fun hw hr ha vs hv hb => ?_⟩
    · rw [exec_window_within s a h ht ho]
      exact ⟨fun hn => if_neg (by simp [hn]), fun hn => if_pos hn⟩
    · intro q
      have hmem := windowPerform_raw_mem s hw hr ha hv hb
      exact ⟨fun n hn => (byte_of_mem hmem _).trans (State.byte_write_inside s q vs n hn),
        fun x hx => (byte_of_mem hmem x).trans (State.byte_write_outside s q vs x hx)⟩

end Sys2Proof.Proofs

/-! PROOFS. The host's ports (03/R88 to R91, 21/R425): what the host reads and writes reaches its home, a back-invalidation that
conflicts is tried again, snoops wait for LH, and answers of the host fill the line that waits for them. -/

namespace Sys2Proof.Proofs

open Sys2Proof.Machine

open Sys2Proof.Safety

/-! ## Reads and writes of the host (R88, R89, R95) -/

section Access
variable {s : State} {tag pa : Nat} (ht : targetOf pa = .hbm)

theorem hostEvent_of_reset (hp : s.power ≠ .d3cold) (hm : s.mode = .reset) (name : String) (t : State) :
    s.hostEvent name t = .next s := by
  unfold State.hostEvent State.powered
  rw [if_neg (by simp [hp]), if_pos hm]

theorem hostEvent_of_running (hp : s.power ≠ .d3cold) (hm : s.mode ≠ .reset) (name : String) (t : State) :
    s.hostEvent name t = .next t := by
  unfold State.hostEvent State.powered
  rw [if_neg (by simp [hp]), if_neg hm]

/-- Of what holds a request back, only HBM that nothing serves does so for the host (log 101). -/
theorem holdsReq_host (h ev : Nat) (bytes : List (Nat × Byte)) :
    s.holdsReq h ev (hostReqOf tag pa bytes) = s.unserved (lineOf pa) := by
  have hx : s.holdsReq h ev (hostReqOf tag pa bytes) =
      (false || s.unserved (lineOf pa) || (!true && s.failed / 2 ^ (h / 384) % 2 == 1)) := rfl
  rw [hx, Bool.false_or, Bool.not_true, Bool.false_and, Bool.or_false]

/-- A request of the host is given to every partition's home. -/
theorem homeReq_host_served (hu : s.unserved (lineOf pa) = false) (ev : Nat) (i : Instr) (bytes : List (Nat × Byte)) :
    s.homeReq ev i (hostReqOf tag pa bytes) = s.hostHome (if ev = 0 then 12 else 13) (hostReqOf tag pa bytes) :=
  if_neg (by rw [holdsReq_host]; exact Bool.eq_false_iff.1 hu)

theorem homeReq_host_waits (hu : s.unserved (lineOf pa) = true) (ev : Nat) (i : Instr) (bytes : List (Nat × Byte)) :
    let h := s.homeOf 0 (lineOf pa)
    s.homeReq ev i (hostReqOf tag pa bytes) = s.setSlice h { s.slice h with wait := (s.slice h).wait ++ [i] } :=
  if_pos (by rw [holdsReq_host]; exact hu)

include ht

theorem exec_hostrd : exec (.hostrd tag pa) s =
    s.hostEvent "HOSTRD" (s.homeReq 0 (.rds (hostReqOf tag pa [])) (hostReqOf tag pa [])) := if_pos ht

theorem exec_hostwr {bytes : List (Nat × Byte)} (hb : ∀ e ∈ bytes, e.1 < 128) : exec (.hostwr tag pa bytes) s =
    s.hostEvent "HOSTWR" (s.homeReq 2 (.wr (hostReqOf tag pa bytes)) (hostReqOf tag pa bytes)) := by
  have hf : bytes.filter (fun e => decide (e.1 < 128)) = bytes := List.filter_eq_self.2 fun e he => by simpa using hb e he
  change execHostwr tag pa bytes s = _
  rw [execHostwr, hf]
  exact if_pos ht

end Access

/-! ## Back-invalidations (R90) -/

section Backinv
variable {s : State} {line h : Nat} {ln : L2Line} {hd : Held} (hs : s.hostSplit line = some (h, ln, hd))
include hs

theorem exec_biconflict : exec (.biconflict line) s = if hd.tries = 3 then .next (s.abortSplit h ln hd)
    else .next (s.putLine h { ln with held := some { hd with tries := hd.tries + 1 } }) := by
  change execBiconflict line s = _
  unfold execBiconflict
  rw [hs]

theorem exec_biTimeout : exec (.biTimeout line) s = .next (s.abortSplit h ln hd) := by
  change execBiTimeout line s = _
  unfold execBiTimeout
  rw [hs]

end Backinv

/-! ## Snoops (R91) -/

/-- The answer to a snoop. -/
def snoopAnswer (s : State) (tag pa : Nat) (data : List Byte) : Sent :=
  { who := .host tag, kind := .snoop, line := lineOf pa, data := data, old := 0, expiry := 0, wct := 0, due := s.gt, left := 0 }

section Snoop
variable {s : State} {tag pa : Nat} (ht : targetOf pa = .host) (name : String) (shows : L2Line → Bool)
  (f : State → Nat → L2Line → State)
include ht

/-- A snoop that does not wait is answered, and every home that holds the line does its part. -/
theorem snoop_answers (wait : Option Instr)
    (hn : wait = none ∨ (s.snooped (lineOf pa)).find? (fun x => s.snoopWaits x.2) = none) :
    s.snoop tag pa name wait shows f = .next ((s.snooped (lineOf pa)).foldl (fun acc x => f acc x.1 x.2)
      { s with sent := s.sent ++ [snoopAnswer s tag pa
        ((((s.snooped (lineOf pa)).find? (fun x => shows x.2)).map (fun x => s.lineData x.2)).getD [])] }) := by
  unfold State.snoop
  dsimp only
  rw [if_neg (by simp [ht])]
  rcases hn with rfl | hn
  · rfl
  · rw [hn]
    cases wait <;> rfl

/-- A snoop waits for the line that has not passed its LH or is not free. -/
theorem snoop_waits {e : Instr} {h : Nat} {ln : L2Line}
    (hl : (s.snooped (lineOf pa)).find? (fun x => s.snoopWaits x.2) = some (h, ln)) :
    s.snoop tag pa name (some e) shows f = .next (s.putLine h { ln with queue := ln.queue ++ [e] }) := by
  unfold State.snoop
  dsimp only
  rw [if_neg (by simp [ht]), hl]

/-- A line that one home holds, free and past its LH. -/
theorem snoop_single (wait : Option Instr) {h : Nat} {ln : L2Line} (hl : s.snooped (lineOf pa) = [(h, ln)])
    (hw : s.snoopWaits ln = false) : s.snoop tag pa name wait shows f = .next (f
      { s with sent := s.sent ++ [snoopAnswer s tag pa (if shows ln then s.lineData ln else [])] } h ln) := by
  rw [snoop_answers ht name shows f wait (.inr (by simp [hl, hw])), hl]
  cases hsh : shows ln <;> simp [hsh]

/-- A line that no home holds is answered without data. -/
theorem snoop_none (wait : Option Instr) (hl : s.snooped (lineOf pa) = []) :
    s.snoop tag pa name wait shows f = .next { s with sent := s.sent ++ [snoopAnswer s tag pa []] } := by
  rw [snoop_answers ht name shows f wait (.inr (by simp [hl])), hl]
  rfl

end Snoop

/-- What SnpInv does at a home that holds the line. -/
def givenUp (t : State) (h : Nat) (ln : L2Line) : State :=
  if ln.held.isSome then
    (if ln.dirty then t.writeAt (t.heldBytes ln) else t).putLine h { ln with valid := 0, hostOwn := false, dirty := false }
  else t.leaveLine h ln

/-- What SnpData does there. -/
def sharedWithHost (t : State) (h : Nat) (ln : L2Line) : State :=
  (if ln.dirty then t.writeAt (t.heldBytes ln) else t).putLine h { ln with hostOwn := false, dirty := false }

theorem exec_snpinv (s : State) (tag pa : Nat) : exec (.snpinv tag pa) s =
    s.snoop tag pa "SNPINV" (some (.snpinv tag pa)) L2Line.dirty givenUp := rfl

theorem exec_snpdata (s : State) (tag pa : Nat) : exec (.snpdata tag pa) s =
    s.snoop tag pa "SNPDATA" (some (.snpdata tag pa)) L2Line.dirty sharedWithHost := rfl

theorem exec_snpcur (s : State) (tag pa : Nat) : exec (.snpcur tag pa) s =
    s.snoop tag pa "SNPCUR" none (fun ln => ln.valid != 0) (fun t _ _ => t) := rfl

/-! ## Answers of the host (R91, R385) -/

section Fill
variable {s : State} {line h : Nat} {ln : L2Line} {hd : Held} (hs : s.hostWait line = some (h, ln, hd))
include hs

theorem line_of_hostWait : ln.line = line := by
  obtain ⟨e, -, he⟩ := List.exists_of_findSome?_eq_some hs
  obtain ⟨l, -, hl⟩ := List.exists_of_findSome?_eq_some he
  split at hl
  · next hline =>
    obtain ⟨x, -, hx⟩ := Option.bind_eq_some_iff.1 hl
    split at hx
    · cases hx
      exact hline
    · cases hx
  · cases hl

omit hs in
/-- A line whose sectors are all valid and hold 128 bytes has those for its data. -/
theorem lineData_of_filled {t : State} {l : L2Line} {d : List Byte} (hv : l.valid = 15) (hd : d.length = 128)
    (hl : l.data = none ∨ l.data = some d) (hm : t.read (t.place l.line) 128 = d) : t.lineData l = d := by
  rcases hl with hn | hsome
  · rw [lineData_of_uncopied t hn, hm]
  · have hbit : ∀ k < 4, 15 / 2 ^ k % 2 = 1 := by decide
    refine List.ext_getElem (by simp [State.lineData, hd]) fun i h1 h2 => ?_
    have hi : i / 32 < 4 := by omega
    simp [State.lineData, State.lineByte, hsome, hv, hbit _ hi, h2]

/-- The line as the host's data fills it. -/
def filledLine (ln : L2Line) (hd : Held) (d : List Byte) : L2Line :=
  { ln with held := none, queue := [], hostOwn := ln.hostOwn || (hd.ev == 2 || hd.ev == 3 || hd.ev == 4), valid := 15,
            data := ln.data.map (fun _ => d) }

/-- The state with the host's data at the line's place. -/
def filledState (s : State) (line h : Nat) (ln : L2Line) (hd : Held) (d : List Byte) : State :=
  ((s.write (s.place line) (d.take 128)).cleanse (s.place line) (d.take 128).length).putLine h (filledLine ln hd d)

omit hs in
theorem filledState_mem (s : State) (line h : Nat) (ln : L2Line) (hd : Held) {d : List Byte} (hlen : d.length = 128) :
    (filledState s line h ln hd d).mem = (s.write (s.place line) d).mem := by
  have ht : d.take 128 = d := List.take_of_length_le (by omega)
  unfold filledState
  rw [ht, cleanse_eq]
  rfl

/-- A line that the host's data fills in the encoding that it has. -/
theorem recoded_filledState {d : List Byte} (hlen : d.length = 128) (henc : ln.enc = s.encFor ln.wp 15 d)
    (old : Nat × List Byte) : (filledState s line h ln hd d).recoded h line old = filledState s line h ln hd d := by
  have hline := line_of_hostWait hs
  have hplace : (filledState s line h ln hd d).place line = s.place line := by
    unfold filledState
    rw [cleanse_eq, write_eq]
    rfl
  refine recoded_of_encoded old fun l hl => ?_
  obtain rfl := eq_of_lineAt_putLine hl hline
  have hread : (filledState s line h ln hd d).read ((filledState s line h ln hd d).place ln.line) 128 = d := by
    rw [hline, hplace, ← hlen]
    unfold State.read State.byte
    rw [filledState_mem s line h ln hd hlen]
    exact read_write_same s _ d
  have hdata : (filledState s line h ln hd d).lineData (filledLine ln hd d) = d :=
    lineData_of_filled rfl hlen (by cases hdd : ln.data <;> simp [filledLine, hdd]) hread
  rw [hdata]
  refine henc.trans ?_
  unfold filledState
  rw [cleanse_eq, write_eq]
  rfl

/-- The host's answer fills the line that waits for it, and what waited for the line goes on. -/
theorem exec_cxlCacheResponse_fills {d : List Byte} (hway : ln.way ≠ 98) (ho : s.otherHalf line hd.hreq = none)
    (hlen : d.length = 128) (henc : ln.enc = s.encFor ln.wp 15 d) :
    exec (.cxlCacheResponse line (some d) false) s =
      .next ((filledState s line h ln hd d).postFront (eventOf hd.ev hd.hreq :: ln.queue)) := by
  have hex : exec (.cxlCacheResponse line (some d) false) s = .next
      (((filledState s line h ln hd d).recoded h line (ln.valid, s.lineData ln)).postFront (eventOf hd.ev hd.hreq :: ln.queue)) := by
    change execCxlCacheResponse line (some d) false s = _
    unfold execCxlCacheResponse
    rw [hs]
    dsimp only
    rw [ho]
    dsimp only
    rw [if_neg hway, if_neg Bool.false_ne_true]
    rfl
  rw [hex, recoded_filledState hs hlen henc]

/-- A request of the window without an answer ends its line's wait, and is refused with LINKTO. -/
theorem exec_hostportTimeout (hw : writesHalf hd.hreq = false) : exec (.hostportTimeout line) s =
    .next ((s.endWait h ln ln.queue).refuse hd.hreq 12 (fun _ => linkInfo 3 s.pkg 1)) := by
  change execHostportTimeout line s = _
  unfold execHostportTimeout
  rw [hs]
  simp only [hw, Bool.false_eq_true, if_false, Option.any_none, Bool.not_false, List.filter_true]

end Fill

/-- Settles O52: what the host sends comes to `homeReq` or `snoop`, and what it answers to the line that `hostWait` finds. -/
theorem hostPort : Obligations.HostPort := by
  unfold Obligations.HostPort
  refine ⟨?access, ?backinv, ?snoops, ?answers⟩
  case access =>
    intro s tag pa bytes ht hb hp r w h sl
    rw [exec_hostrd ht, exec_hostwr ht hb]
    refine ⟨fun hm => ⟨hostEvent_of_reset hp hm _ _, hostEvent_of_reset hp hm _ _⟩, fun hm hu => ?_, fun hm hu => ?_⟩
    · rw [hostEvent_of_running hp hm, hostEvent_of_running hp hm, homeReq_host_served hu, homeReq_host_served hu]
      exact ⟨rfl, rfl⟩
    · rw [hostEvent_of_running hp hm, hostEvent_of_running hp hm, homeReq_host_waits hu, homeReq_host_waits hu]
      exact ⟨rfl, rfl⟩
  case backinv =>
    intro s line h ln hd hs
    rw [exec_biconflict hs]
    exact ⟨fun hn => if_neg hn, fun hn => if_pos hn, exec_biTimeout hs⟩
  case snoops =>
    intro s tag pa ht ls said
    rw [exec_snpcur, exec_snpinv, exec_snpdata]
    refine ⟨⟨_, (snoop_answers ht _ _ _ none (.inl rfl)).trans (by rw [List.foldl_fixed]), rfl, rfl, rfl, rfl⟩,
      fun h ln hl => ⟨snoop_waits ht _ _ _ hl, snoop_waits ht _ _ _ hl⟩,
      fun hl => ⟨snoopAnswer s tag pa [], ⟨rfl, rfl, rfl, rfl⟩, snoop_none ht _ _ _ _ hl, snoop_none ht _ _ _ _ hl⟩,
      fun h ln hl hw => ⟨snoopAnswer s tag pa (if ln.dirty = true then s.lineData ln else []), ⟨rfl, rfl, rfl, rfl⟩, ?_⟩⟩
    rw [snoop_single ht _ _ _ _ hl hw, snoop_single ht _ _ _ _ hl hw]
    exact ⟨fun hn => congrArg _ (if_neg (by simp [hn])), fun hn => congrArg _ (if_pos hn), rfl⟩
  case answers =>
    intro s line h ln hd hs
    refine ⟨fun d hway ho henc _ hlen => ⟨_, exec_cxlCacheResponse_fills hs hway ho hlen henc, ?_, ?_, ?_⟩, fun hw => ?_⟩
    · exact fun n hn => (byte_of_mem (filledState_mem s line h ln hd hlen) _).trans
        (State.byte_write_inside s _ d n (hlen ▸ hn))
    · exact fun a ha => (byte_of_mem (filledState_mem s line h ln hd hlen) a).trans
        (State.byte_write_outside s _ d a (hlen ▸ ha))
    · show (_ :: ln.queue) ++ (filledState s line h ln hd d).agenda = _
      unfold filledState
      rw [cleanse_eq, write_eq]
      rfl
    · rw [exec_hostportTimeout hs hw]
      unfold State.endWait
      refine ⟨fun hc => by rw [if_pos hc], fun h1 h2 => by rw [if_neg (by simp [h1, h2])]⟩


end Sys2Proof.Proofs

/-! PROOFS. Copies (05/R108 to R123, 12/R286, R306, R307): the seven instructions are one issue of the copy engine, a copy taken
into a slot changes little else, and what the engine adds to a barrier leaves segments and what is to come alone. -/

namespace Sys2Proof.Proofs

open Sys2Proof.Machine

open Sys2Proof.Safety

/-! ## Issue with checks and waits of its own (R211) -/

/-- A check of its own that fails parks an instruction that passes the common ones. -/
theorem issueWith_parks {s : State} {i : Instr} {cls : Nat} {fa fi : Dword} {prep : State → Move} {body : State → State}
    (h : passes s i = true) :
    s.issueWith i (some (cls, fa, fi)) prep body = .next (s.parkPre s.cur (encode i) cls fa fi []) := by
  simp only [passes, Bool.and_eq_true, Bool.not_eq_true', Option.isNone_iff_eq_none, beq_iff_eq] at h
  obtain ⟨⟨⟨⟨⟨hserial, href⟩, hwait⟩, hgate⟩, -⟩, -⟩ := h
  unfold State.issueWith
  simp [hserial, href, hwait, hgate]

/-- A preparation that waits, having changed nothing, holds it. -/
theorem issueWith_holds {s : State} {i : Instr} {prep : State → Move} {body : State → State} (h : passes s i = true)
    (hp : prep s = .wait s) : s.issueWith i none prep body = .next s.hold := by
  simp only [passes, Bool.and_eq_true, Bool.not_eq_true', Option.isNone_iff_eq_none, beq_iff_eq] at h
  obtain ⟨⟨⟨⟨⟨hserial, href⟩, hwait⟩, hgate⟩, heat⟩, hfull⟩ := h
  unfold State.issueWith
  simp [hserial, href, hwait, hgate, heat, hfull, hp, Move.bind]

/-- A park before issue, without captured sources. -/
theorem parkPre_parksBefore (s : State) (iword : Word) (cls : Nat) (fa fi : Dword) :
    ParksBefore s (s.parkPre s.cur iword cls fa fi []) cls fa fi :=
  ⟨State.wave_setWave_same .., rfl, _, rfl, rfl, rfl, rfl, rfl, rfl, rfl⟩

theorem span_of_noWrites (s : State) {o : Opnds} (h : o.wr = []) : s.span o = .ok s := by
  have htop : o.top s.curWave = 0 := by rw [Opnds.top, h, List.foldl_nil]
  rw [State.span, if_neg (by omega)]

/-! ## What a copy reads (R111, R112, R306) -/

section Operands
variable {s : State} {i : Instr} {op : CopyOp} {d a f g mask ring : Nat} {ch : Hint}

theorem newCopy_src : (s.newCopy i op d a f g mask ring ch).src =
    if op = .cpyg ∨ op = .cpys then dw (s.curWave.v (a + 2) s.curWave.uniform).toNat
    else sext57 (s.curWave.frame f).vbase + (s.curWave.v (a + 2) s.curWave.uniform).signExtend 64 := by
  cases op <;> rfl

theorem newCopy_dst : (s.newCopy i op d a f g mask ring ch).dst =
    if op = .cpyg then sext57 (s.curWave.frame f).vbase + (s.curWave.v (a + 3) s.curWave.uniform).signExtend 64
    else if op = .cpyp ∨ op = .cpyq then
      sext57 (s.curWave.frame g).vbase + (s.curWave.v (a + 3) s.curWave.uniform).signExtend 64
    else dw (s.curWave.v (a + 3) s.curWave.uniform).toNat := by
  cases op <;> rfl

theorem newCopy_n (h : op ≠ .cpymc) : (s.newCopy i op d a f g mask ring ch).n =
    fld (s.newCopy i op d a f g mask ring ch).shape 52 12 * (16 * fld (s.newCopy i op d a f g mask ring ch).shape 40 12) :=
  if_neg fun hc => h hc.1

theorem newCopy_bar (h : op ≠ .cpyst ∧ op ≠ .cpyq) :
    (s.newCopy i op d a f g mask ring ch).bar = (s.curWave.v d s.curWave.uniform).toNat :=
  if_pos (by simp [CopyOp.barred, h])

theorem newCopy_record (h : op = .cpyq) :
    (s.newCopy i op d a f g mask ring ch).recVA = s.curWave.v64 d s.curWave.uniform ∧
      (s.newCopy i op d a f g mask ring ch).queue = s.curWave.v (d + 2) s.curWave.uniform :=
  ⟨if_pos h, if_pos h⟩

/-! ## A copy issues (R110, R113, R286) -/

theorem copyInstr_noLane {u : State} (hl : s.curWave.lanes = []) (h : Issues s i u) :
    s.copyInstr i op d a f g mask ring ch = .next (u.issuedBy i) := by
  rw [State.copyInstr, if_pos hl, issue_next h]

theorem copyInstr_parks {cls : Nat} {fa fi : Dword} (hl : s.curWave.lanes ≠ []) (h : passes s i = true)
    (hc : s.copyCheck (s.newCopy i op d a f g mask ring ch) = some (cls, fa, fi)) :
    s.copyInstr i op d a f g mask ring ch = .next (s.parkPre s.cur (encode i) cls fa fi []) := by
  rw [State.copyInstr, if_neg hl, hc, issueWith_parks h]

theorem copyInstr_holds (hl : s.curWave.lanes ≠ []) (h : passes s i = true)
    (hc : s.copyCheck (s.newCopy i op d a f g mask ring ch) = none) (hfree : s.freeSlot (coreOfWave s.cur) = none) :
    s.copyInstr i op d a f g mask ring ch = .next s.hold := by
  rw [State.copyInstr, if_neg hl, hc]
  exact issueWith_holds h (if_pos (by rw [hfree]; rfl))

theorem freeSlot_issuedBy (s : State) (i : Instr) (core : Nat) : (s.issuedBy i).freeSlot core = s.freeSlot core := by
  unfold State.issuedBy
  rw [charge_eq]
  rfl

theorem copyInstr_takes {slot : Nat} (hl : s.curWave.lanes ≠ []) (h : passes s i = true)
    (hspan : s.span (i.opnds s.curWave) = .ok s) (hst : s.storing s.cur = false)
    (hc : s.copyCheck (s.newCopy i op d a f g mask ring ch) = none) (hfree : s.freeSlot (coreOfWave s.cur) = some slot) :
    s.copyInstr i op d a f g mask ring ch = .next ((s.issuedBy i).takeCopy (coreOfWave s.cur) slot
      (s.newCopy i op d a f g mask ring ch)) := by
  have hprep : (if (s.freeSlot (coreOfWave s.cur)).isNone || s.storing s.cur then Move.wait s else .ok s) = .ok s := by
    rw [hfree, hst]
    rfl
  have hissues : IssuesAfter s (fun t => if (t.freeSlot (coreOfWave s.cur)).isNone || t.storing t.cur then .wait t else .ok t)
      i s := ⟨h, (congrArg (fun m => m.bind fun t => t.span (i.opnds s.curWave)) hprep).trans hspan⟩
  rw [State.copyInstr, if_neg hl, hc, issueWith_next hissues]
  simp only [freeSlot_issuedBy, issuedBy_nextId, hfree, Option.getD_some]
  rfl

end Operands

theorem freeSlot_eq_none {s : State} {core : Nat} (h : ∀ k, k < 128 → (s.copyOf (Copy.key core k)).isSome = true) :
    s.freeSlot core = none := by
  rw [State.freeSlot, List.find?_eq_none]
  intro k hk
  have := h k (List.mem_range.1 hk)
  simpa [Option.isSome_iff_ne_none] using this

/-! ## The seven instructions (R111, R306) -/

/-- The copies with what each gives the engine: its operation, vD, its frames, its mask, its ring and its hint. -/
def copyForms (d a : Reg) (f g : Low) (ch : Hint) (mask : BitVec 4) (la : Ahead) :
    List (Instr × CopyOp × Nat × Nat × Nat × Nat × Nat × Hint) :=
  [(.cpy d a f ch la, .cpy, d.val, f.val, 0, 0, 0, ch), (.cpymc d a f mask la, .cpymc, d.val, f.val, 0, mask.toNat, 0, .dflt),
   (.cpyst g a f ch la, .cpyst, 0, f.val, 0, 0, g.val, ch), (.cpyg d a f ch la, .cpyg, d.val, f.val, 0, 0, 0, ch),
   (.cpys d a la, .cpys, d.val, 0, 0, 0, 0, .dflt), (.cpyp d a f g ch la, .cpyp, d.val, f.val, g.val, 0, 0, ch),
   (.cpyq d a f g ch la, .cpyq, d.val, f.val, g.val, 0, 0, ch)]

/-- Each is the engine's one issue with those, and writes no register. -/
theorem exec_copyForm (s : State) {d a : Reg} {f g : Low} {ch h : Hint} {mask : BitVec 4} {la : Ahead} {i : Instr} {op : CopyOp}
    {bar fr to_ mk ring : Nat} (hrow : (i, op, bar, fr, to_, mk, ring, h) ∈ copyForms d a f g ch mask la) :
    exec i s = s.copyInstr i op bar a fr to_ mk ring h ∧ (i.opnds s.curWave).wr = [] := by
  simp only [copyForms, List.mem_cons, List.not_mem_nil, or_false, Prod.mk.injEq] at hrow
  rcases hrow with hrow | hrow | hrow | hrow | hrow | hrow | hrow <;>
  · obtain ⟨rfl, rfl, rfl, rfl, rfl, rfl, rfl, rfl⟩ := hrow
    exact ⟨rfl, rfl⟩

/-! ## A copy in its slot (R108, R110) -/

section Taken
variable {s : State} {core slot : Nat} {c : Copy}

/-- A copy with bytes to move: its slot, the counter of its wave, the mark in its ring, and a segment to issue. -/
theorem takeCopy_eq (hn : c.n ≠ 0) : s.takeCopy core slot c =
    { s with copies := Sparse.put s.copies (Copy.key core slot) c, nextId := s.nextId + 1,
             waves := Sparse.update s.waves c.wave (fun w => w.countUp .c c.opId), wgs := (s.takeCopy core slot c).wgs,
             agenda := s.agenda ++ [.segmentIssue core] } := by
  unfold State.takeCopy
  dsimp only
  rw [if_neg hn]
  split <;> rfl

theorem curWave_takeCopy {w : Wave} (hn : c.n ≠ 0) (hw : Sparse.find s.waves s.cur = some w) (hc : c.wave = s.cur) :
    (s.takeCopy core slot c).curWave = w.countUp .c c.opId := by
  rw [takeCopy_eq hn, hc]
  exact wave_of_find (find_update_same hw _)

end Taken

/-- The wave that moves has its place once its instruction has issued. -/
theorem find_waves_issuedBy (s : State) (i : Instr) :
    Sparse.find (s.issuedBy i).waves s.cur = some (s.curWave.issued (i.opnds s.curWave) (encode i) s.nextId) := by
  unfold State.issuedBy
  rw [State.charge_waves]
  exact Sparse.find_put_same ..

/-- What taking a copy with bytes to move leaves, from the state in which its instruction has issued. -/
theorem takeCopy_issuedBy (s : State) (i : Instr) (core slot : Nat) {c : Copy} (hn : c.n ≠ 0) (hc : c.wave = s.cur) :
    let t := (s.issuedBy i).takeCopy core slot c
    Sparse.find t.copies (Copy.key core slot) = some c ∧ t.curWave.cq.length = s.curWave.cq.length + 1 ∧
      t.mem = (s.issuedBy i).mem ∧ t.agenda = (s.issuedBy i).agenda ++ [.segmentIssue core] := by
  intro t
  have hcur : (s.issuedBy i).cur = s.cur := State.issuedBy_cur ..
  have hw : t.curWave = _ := curWave_takeCopy hn (hcur ▸ find_waves_issuedBy s i) (hc.trans hcur.symm)
  have ht : t = _ := takeCopy_eq hn
  refine ⟨?_, ?_, ?_, ?_⟩
  · rw [ht]
    exact Sparse.find_put_same ..
  · rw [hw]
    exact List.length_append
  · rw [ht]
  · rw [ht]

/-! ## The barrier (R116, R117) -/

/-- A state that differs from another in memory and in the matrix engines alone. -/
def MemAndEnginesOnly (s t : State) : Prop := ∃ m e, t = { s with mem := m, engines := e }

theorem MemAndEnginesOnly.refl (s : State) : MemAndEnginesOnly s s := ⟨s.mem, s.engines, rfl⟩

theorem MemAndEnginesOnly.trans {s t v : State} (h : MemAndEnginesOnly s t) (h' : MemAndEnginesOnly t v) :
    MemAndEnginesOnly s v := by
  obtain ⟨m, e, rfl⟩ := h
  obtain ⟨m', e', rfl⟩ := h'
  exact ⟨m', e', rfl⟩

theorem MemAndEnginesOnly.foldl {α : Type} {f : State → α → State} (hf : ∀ s x, MemAndEnginesOnly s (f s x)) (l : List α)
    (s : State) : MemAndEnginesOnly s (l.foldl f s) := by
  induction l generalizing s with
  | nil => exact .refl s
  | cons x r ih => exact (hf s x).trans (ih (f s x))

/-- An add of the engine is made in memory, or held by the core's matrix engine (R278). -/
theorem rawAdd_memAndEnginesOnly (s : State) (g o v : Nat) : MemAndEnginesOnly s (s.rawAdd g o v) := by
  unfold State.rawAdd
  split
  · exact .refl s
  · split
    · exact .refl s
    · split
      · exact ⟨s.mem, _, rfl⟩
      · exact ⟨_, s.engines, write_eq ..⟩

theorem barrierAdd_memAndEnginesOnly (s : State) (c : Copy) (arr kil prk ncpy : Nat) :
    MemAndEnginesOnly s (s.barrierAdd c arr kil prk ncpy) := by
  unfold State.barrierAdd
  split
  · exact .foldl (fun t g => (((rawAdd_memAndEnginesOnly t ..).trans (rawAdd_memAndEnginesOnly ..)).trans
      (rawAdd_memAndEnginesOnly ..)).trans (rawAdd_memAndEnginesOnly ..)) _ s
  · exact .refl s

theorem segOf_barrierAdd (s : State) (c : Copy) (arr kil prk ncpy key k : Nat) :
    (s.barrierAdd c arr kil prk ncpy).segOf key k = s.segOf key k := by
  obtain ⟨m, e, h⟩ := barrierAdd_memAndEnginesOnly s c arr kil prk ncpy
  rw [h]
  rfl

theorem agenda_barrierAdd (s : State) (c : Copy) (arr kil prk ncpy : Nat) :
    (s.barrierAdd c arr kil prk ncpy).agenda = s.agenda := by
  obtain ⟨m, e, h⟩ := barrierAdd_memAndEnginesOnly s c arr kil prk ncpy
  rw [h]

theorem rawAdd_zero (s : State) (g o : Nat) : s.rawAdd g o 0 = s := by
  unfold State.rawAdd
  split
  · rfl
  · exact if_pos rfl

/-- A copy that reports to one workgroup, with nothing killed, parked or complete, adds to ARR alone. -/
theorem barrierAdd_arr (s : State) {c : Copy} (n : Nat) (hb : c.op.barred = true) (hm : c.op ≠ .cpymc) :
    s.barrierAdd c n 0 0 0 = s.rawAdd c.wg c.bar n := by
  rw [State.barrierAdd, if_pos hb, State.targets, if_neg hm]
  simp only [List.foldl_cons, List.foldl_nil, rawAdd_zero]

/-- Where the matrix engine holds nothing, the word takes the sum. -/
theorem readNat_rawAdd {s : State} {g : Nat} {w : Workgroup} (o n : Nat) (hw : s.wg g = some w)
    (ho : (s.engine w.core).ops = []) (hh : (s.engine w.core).held = []) :
    (s.rawAdd g o n).readNat (w.pa false o) 4 % 2 ^ 32 = (s.readNat (w.pa false o) 4 + n) % 2 ^ 32 := by
  by_cases hn : n = 0
  · rw [hn, rawAdd_zero, Nat.add_zero]
  · have hfree : s.blocked w.core ((List.range 4).map (w.at false o + ·)) = false := if_pos ⟨ho, hh⟩
    have hadd : s.rawAdd g o n = s.write (w.pa false o) (toBytes 4 ((s.readNat (w.pa false o) 4 + n) % 2 ^ 32)) := by
      unfold State.rawAdd
      simp only [hw, hn, hfree, if_false, Bool.false_eq_true]
      rfl
    rw [hadd, readNat_write_toBytes, Nat.mod_mod, Nat.mod_mod]

/-! ## Segments (R109, R117, R123) -/

theorem segOf_modSeg {s : State} {key k : Nat} {x : Seg} (f : Seg → Seg) (h : s.segOf key k = some x) :
    (s.modSeg key k f).segOf key k = some (f x) := by
  obtain ⟨c, hc, hx⟩ := Option.bind_eq_some_iff.1 h
  have hc' : (s.modSeg key k f).copyOf key = some { c with segs := Sparse.update c.segs k f } := find_update_same hc _
  rw [State.segOf, hc']
  exact find_update_same hx f

theorem modCopyOf_congr {s : State} {key : Nat} {c : Copy} {f g : Copy → Copy} (hc : s.copyOf key = some c) (h : f c = g c) :
    s.modCopyOf key f = s.modCopyOf key g := by
  have hf : Sparse.find s.copies key = some c := hc
  unfold State.modCopyOf Sparse.update
  simp only [hf, h]

/-- A segment set to `g` parks: it is marked, its record goes to be written, and the engine looks for a segment to issue. -/
theorem parkSeg_modSeg {s : State} {key k : Nat} {x : Seg} (core : Nat) (c : Copy) (g : Seg) (h : s.segOf key k = some x) :
    let t := ((s.modSeg key k (fun _ => g)).parkSeg key k c g).post (.segmentIssue core)
    t.segOf key k = some { g with parked := true } ∧
      ∃ r, t.agenda = s.agenda ++ [.recordWritten r, .segmentIssue core] ∧ r.kind = 3 ∧ r.unit = segUnit key k :=
  ⟨segOf_modSeg (fun y => { y with parked := true }) (segOf_modSeg (fun _ => g) h), _, List.append_assoc .., rfl, rfl⟩

theorem exec_segmentIssue (core : Nat) (s : State) : exec (.segmentIssue core) s = execSegmentIssue core s := rfl

theorem exec_segmentRetire (core copy k : Nat) (s : State) :
    exec (.segmentRetire core copy k) s = execSegmentRetire core copy k s := rfl

theorem exec_segmentPark (core copy k : Nat) (s : State) :
    exec (.segmentPark core copy k) s = execSegmentPark core copy k s := rfl

section Ends
variable {s : State} {core copy k : Nat} {c : Copy} {x : Seg} (hc : s.copyOf (Copy.key core copy) = some c)
  (hx : s.segOf (Copy.key core copy) k = some x) (hs : s.segSettled x = true)
include hc hx hs

/-- A segment all of whose sectors have landed leaves its copy, and its bytes arrive at the barrier. -/
theorem exec_segmentRetire_landed (hl : ∀ e ∈ x.sectors, e.2 = .landed) :
    exec (.segmentRetire core copy k) s = .next
      ((((s.modCopyOf (Copy.key core copy) (fun y => { y with
            segs := Sparse.erase y.segs k,
            tail := if k + 1 = c.nsegs then x.landB + c.bytesOf k (x.sectors.map (·.1)) else y.tail })).barrierAdd c
          (c.bytesOf k (x.sectors.map (·.1))) 0
          (if x.prk then 2 ^ 32 - c.bytesOf k (x.sectors.map (·.1)) % 2 ^ 32 else 0) 0).copyDone
        (Copy.key core copy)).post (.segmentIssue core)) := by
  have hall : x.sectors.all (fun e => decide (e.2 = .landed)) = true := by simpa using hl
  rw [exec_segmentRetire]
  unfold execSegmentRetire
  simp only [hc, hx, hs, hall, Bool.and_self, if_true]
  exact congrArg (fun t => Host.Outcome.next (((State.barrierAdd t c _ 0 _ 0).copyDone _).post _)) (modCopyOf_congr hc rfl)

/-- A segment with sectors that did not land keeps those, counted in PRK, and parks. -/
theorem exec_segmentPark_bad (hb : x.sectors.filter (fun e => decide (e.2 ≠ .landed)) ≠ []) :
    ∃ t, exec (.segmentPark core copy k) s = .next t ∧
      t.segOf (Copy.key core copy) k = some { x with
        sectors := x.sectors.filter (fun e => decide (e.2 ≠ .landed)), prk := true, parked := true,
        landB := x.landB + c.bytesOf k ((x.sectors.filter (fun e => decide (e.2 = .landed))).map (·.1)) } ∧
      ∃ r, t.agenda = s.agenda ++ [.recordWritten r, .segmentIssue core] ∧ r.kind = 3 ∧
        r.unit = segUnit (Copy.key core copy) k := by
  have hany : x.sectors.any (fun e => decide (e.2 ≠ .landed)) = true := by
    obtain ⟨e, he⟩ := List.exists_mem_of_ne_nil _ hb
    exact List.any_eq_true.2 ⟨e, List.mem_filter.1 he⟩
  rw [exec_segmentPark]
  unfold execSegmentPark
  simp only [hc, hx, hs, hany, Bool.and_self, if_true]
  obtain ⟨hseg, r, hr, hkind, hunit⟩ := parkSeg_modSeg core c _ ((segOf_barrierAdd s c ..).trans hx)
  rw [agenda_barrierAdd] at hr
  exact ⟨_, rfl, hseg, r, hr, hkind, hunit⟩

end Ends

/-! ## The obligation -/

/-- Settles O42: the seven instructions are one issue of the copy engine with operands of their own (the slot taken is the
lowest by log 124, bases are sign-extended by log 53), and each clause on segments and the barrier is the lemma of its step. -/
theorem copies : Obligations.Copies := by
  unfold Obligations.Copies
  refine ⟨fun s u d a f g ch mask la i op bar fr to_ mk ring h hrow => ?_, fun s core copy k c x => ⟨?_, ?_, ?_, ?_, ?_⟩⟩
  · obtain ⟨hexec, hwr⟩ := exec_copyForm s (d := d) (a := a) (f := f) (g := g) (ch := ch) (mask := mask) (la := la) hrow
    have hspan := span_of_noWrites s hwr
    rw [hexec]
    refine ⟨copyInstr_noLane, fun cls fa fi hl hp hc => ⟨_, copyInstr_parks hl hp hc, parkPre_parksBefore ..⟩,
      fun hl hp hc hfull => copyInstr_holds hl hp hc (freeSlot_eq_none hfull), fun slot hl hi hst hc hfree => ?_⟩
    obtain ⟨hp, hu⟩ := hi
    obtain rfl : s = u := Move.ok.inj (hspan.symm.trans hu)
    exact ⟨_, copyInstr_takes hl hp hspan hst hc hfree, rfl, rfl, rfl, rfl, rfl, rfl, newCopy_src, newCopy_dst, newCopy_n,
      newCopy_bar, newCopy_record, fun hn _ => takeCopy_issuedBy s i _ slot hn rfl⟩
  · intro n hn
    rw [exec_segmentIssue, execSegmentIssue, hn]
  · intro hn
    rw [exec_segmentIssue, execSegmentIssue, hn]
  · exact exec_segmentRetire_landed
  · intro hc hx hs good bad hb
    obtain ⟨t, ht, hseg, hrec⟩ := exec_segmentPark_bad hc hx hs hb
    exact ⟨t, ht, _, hseg, rfl, rfl, rfl, rfl, hrec⟩
  · intro w n hb hm hw ho hh
    rw [barrierAdd_arr s n hb hm]
    exact readNat_rawAdd c.bar n hw ho hh

end Sys2Proof.Proofs

/-! PROOFS. Fences and waits (06/R139, R141, R144): what each of them waits for before it issues, that an instruction which
writes no register then issues as it stands, and the events that make the wave ready. -/

namespace Sys2Proof.Proofs

open Sys2Proof.Machine

open Sys2Proof.Safety

/-! ## Issue with a wait of its own (R211) -/

section Prepared
variable {s t u : State} {i : Instr} {prep : State → Move} {body : State → State}

/-- A preparation that waits holds the wave in the state that it has left. -/
theorem issueWith_holds_of_wait (h : passes s i = true) (hp : prep s = .wait t) :
    s.issueWith i none prep body = .next t.hold := by
  simp only [passes, Bool.and_eq_true, Bool.not_eq_true', Option.isNone_iff_eq_none, beq_iff_eq] at h
  obtain ⟨⟨⟨⟨⟨hserial, href⟩, hwait⟩, hgate⟩, heat⟩, hfull⟩ := h
  unfold State.issueWith
  simp [hserial, href, hwait, hgate, heat, hfull, hp, Move.bind]

/-- An instruction that writes no register needs no span, so it issues once its preparation is done. -/
theorem issueWith_issues_of_ok (h : passes s i = true) (hw : (i.opnds s.curWave).wr = []) (hp : prep s = .ok u) :
    s.issueWith i none prep body = .next (body (u.issuedBy i)) :=
  issueWith_next ⟨h, by rw [hp]; exact span_of_noWrites u hw⟩

end Prepared

/-! ## Issue after the first look -/

section Stage
variable {s : State} {i : Instr} {n a : Nat}

/-- The counts of an issue do not see the wave's stage. -/
theorem tally_setStage (ho : i.opnds { s.curWave with stage := n, arg := a } = i.opnds s.curWave) :
    (s.setCur { s.curWave with stage := n, arg := a }).tally i =
      (s.tally i).setCur { s.curWave with stage := n, arg := a } := by
  unfold State.tally
  simp only [State.curWave_setCur, ho]
  rfl

/-- An issue resets the stage, so it is the same from every stage. -/
theorem issuedBy_setStage (ho : i.opnds { s.curWave with stage := n, arg := a } = i.opnds s.curWave) :
    (s.setCur { s.curWave with stage := n, arg := a }).issuedBy i = s.issuedBy i := by
  unfold State.issuedBy
  rw [tally_setStage ho, State.setCur_setCur, State.curWave_setCur, ho]
  rfl

end Stage

/-! ## FENCE (R141) -/

section Fence
variable {s : State} {sc : Nat}

theorem fencePrep_ok (ha : s.accessing s.cur = false)
    (h : sc < 2 ∨ (s.curWave.stage ≠ 0 ∧ s.curWave.lwct < s.gt)) : s.fencePrep sc = .ok s := by
  simp only [State.fencePrep, ha, Bool.false_eq_true, if_false]
  obtain hsc | ⟨hst, hgt⟩ := h
  · rw [if_pos hsc]
  · rw [if_neg hst, if_neg (show ¬ s.gt ≤ s.curWave.lwct by omega), ite_self]

theorem fencePrep_wait
    (h : s.accessing s.cur = true ∨ (2 ≤ sc ∧ s.curWave.stage ≠ 0 ∧ s.gt ≤ s.curWave.lwct)) : s.fencePrep sc = .wait s := by
  by_cases ha : s.accessing s.cur = true
  · exact if_pos ha
  · obtain ⟨hsc, hst, hgt⟩ := h.resolve_left ha
    simp only [State.fencePrep]
    rw [if_neg ha, if_neg (by omega), if_neg hst, if_pos hgt]

end Fence

theorem exec_fence (sc : Scope) (la : Ahead) (s : State) :
    exec (.fence sc la) s = s.issueWith (.fence sc la) none (fun t => t.fencePrep sc.toNat) (fun t => t) := rfl

/-! ## FENCEX (R144) -/

section Fencex
variable {s : State}

/-- After its first check-in, O2E looks at the accesses and then at the C copies of its core. -/
theorem fencexPrep_o2e_again (hst : s.curWave.stage ≠ 0) :
    s.fencexPrep .o2e = if s.accessing s.cur then .wait s
      else if s.holdsStores s.cur then .wait (s.checkInAll (coreOfWave s.cur) [s.cur]) else .ok s := by
  simp only [State.fencexPrep, if_neg hst]

/-- E2O takes its target, the package's EWCT (log 64), at its first look. -/
theorem fencexPrep_e2o_first (hst : s.curWave.stage = 0) (h : s.ewct = 0 ∨ s.ewct < s.gt) :
    s.fencexPrep .e2o = .ok (s.setCur { s.curWave with stage := 1, arg := s.ewct }) := by
  simp only [State.fencexPrep, if_pos hst, State.curWave_setCur]
  exact if_pos h

theorem fencexPrep_e2o_again (hst : s.curWave.stage ≠ 0) :
    s.fencexPrep .e2o = if s.curWave.arg = 0 ∨ s.gt > s.curWave.arg then .ok s else .wait s := by
  simp only [State.fencexPrep, if_neg hst]

end Fencex

theorem exec_fencex (dir : FenceDir) (la : Ahead) (s : State) :
    exec (.fencex dir la) s = s.issueWith (.fencex dir la) none (fun t => t.fencexPrep dir) (fun t => t) := rfl

theorem exec_fencex_issues {s u : State} {dir : FenceDir} {la : Ahead} (h : passes s (.fencex dir la) = true)
    (hp : s.fencexPrep dir = .ok u) : exec (.fencex dir la) s = .next (u.issuedBy (.fencex dir la)) :=
  (exec_fencex ..).trans (issueWith_issues_of_ok h rfl hp)

theorem exec_fencex_holds {s t : State} {dir : FenceDir} {la : Ahead} (h : passes s (.fencex dir la) = true)
    (hp : s.fencexPrep dir = .wait t) : exec (.fencex dir la) s = .next t.hold :=
  (exec_fencex ..).trans (issueWith_holds_of_wait h hp)

/-- The first look of E2O changes nothing but the stage, which its issue resets. -/
theorem exec_fencex_e2o_first {s : State} {la : Ahead} (h : passes s (.fencex .e2o la) = true) (hst : s.curWave.stage = 0)
    (hgt : s.ewct = 0 ∨ s.ewct < s.gt) : exec (.fencex .e2o la) s = .next (s.issuedBy (.fencex .e2o la)) :=
  (exec_fencex_issues h (fencexPrep_e2o_first hst hgt)).trans (congrArg Host.Outcome.next (issuedBy_setStage rfl))

/-! ## WAIT (R139) -/

theorem exec_wait (n : Fin 64) (cnt : Counter) (la : Ahead) (s : State) :
    exec (.wait n cnt la) s = s.issueWith (.wait n cnt la) none
      (fun t => if t.curWave.countVal cnt > n.val then .wait t else .ok t) (fun t => t) := rfl

/-! ## The events that end a wait (R141, R156) -/

theorem exec_fenceGtPass_readies {s : State} {wave : Nat} {v : Wave} (hv : Sparse.find s.waves wave = some v)
    (h : v.status = .waiting ∧ v.stage ≠ 0 ∧ v.lwct < s.gt) :
    exec (.fenceGtPass wave) s = .next (s.setWave wave { v with status := .ready }) := by
  have hexec : exec (.fenceGtPass wave) s = execFenceGtPass wave s := rfl
  rw [hexec, execFenceGtPass, hv]
  exact if_pos h

theorem exec_fillComplete_readies {s : State} {wave : Nat} {v : Wave} (hv : Sparse.find s.waves wave = some v)
    (h : v.status = .waiting) : exec (.fillComplete wave) s = .next (s.setWave wave { v with status := .ready }) := by
  have hexec : exec (.fillComplete wave) s = execFillComplete wave s := rfl
  rw [hexec, execFillComplete, hv]
  exact if_pos h

/-! ## The obligation -/

/-- Settles O35: FENCE, FENCEX and WAIT write no register, so each issues as soon as its own preparation is done and holds in
the state that the preparation leaves; the events are the lemmas of their steps (E2O's target is log 64, the fill's log 43). -/
theorem fencesAndWaits : Obligations.FencesAndWaits := by
  unfold Obligations.FencesAndWaits
  refine fun s sc n cnt wave la => ⟨fun h => ⟨fun ha hg => ?_, fun hw => ?_⟩,
    fun h hst => ⟨fun ha hn => ?_, fun ha => ?_, fun ha hn => ?_⟩,
    fun h => ⟨exec_fencex_e2o_first h, fun hst hg => ?_, fun hst h0 hg => ?_⟩,
    fun h => ⟨fun hc => ?_, fun hc => ?_⟩,
    fun v hv => ⟨exec_fenceGtPass_readies hv, exec_fillComplete_readies hv⟩, fun core slot => rfl⟩
  · rw [exec_fence]
    exact issueWith_issues_of_ok h rfl (fencePrep_ok ha hg)
  · rw [exec_fence]
    exact issueWith_holds h (fencePrep_wait hw)
  · exact exec_fencex_issues h (by simp [fencexPrep_o2e_again hst, ha, hn])
  · exact exec_fencex_holds h (by simp [fencexPrep_o2e_again hst, ha])
  · exact exec_fencex_holds h (by simp [fencexPrep_o2e_again hst, ha, hn])
  · exact exec_fencex_issues h ((fencexPrep_e2o_again hst).trans (if_pos hg))
  · exact exec_fencex_holds h ((fencexPrep_e2o_again hst).trans (if_neg (by omega)))
  · rw [exec_wait]
    exact issueWith_issues_of_ok h rfl (if_neg (by omega))
  · rw [exec_wait]
    exact issueWith_holds h (if_pos hc)

end Sys2Proof.Proofs

/-! PROOFS. Special registers (07/R171): issue leaves what `State.special` reads of the wave, its workgroup and its task,
so that SREAD writes what the register held before. -/

namespace Sys2Proof.Proofs

open Sys2Proof.Machine

open Sys2Proof.Safety

/-! ## What issue leaves of the package -/

section Issued
variable (s : State) (i : Instr)

theorem issuedBy_gt : (s.issuedBy i).gt = s.gt := by
  unfold State.issuedBy
  rw [charge_eq]
  rfl

theorem issuedBy_pkg : (s.issuedBy i).pkg = s.pkg := by
  unfold State.issuedBy
  rw [charge_eq]
  rfl

theorem issuedBy_wg (n : Nat) : (s.issuedBy i).wg n = s.wg n := by
  unfold State.issuedBy
  rw [charge_eq]
  rfl

/-- A charge changes no task, or the budget of the wave's own (14/R358). -/
theorem charge_tasks (id : Nat) : (s.charge id).tasks = s.tasks ∨ ∃ k b, s.task (s.wave id).task = some k ∧
    (s.charge id).tasks = Sparse.put s.tasks (s.wave id).task { k with budget := b } := by
  unfold State.charge
  dsimp only
  split
  · next k hk =>
    have hmod : ∀ b, Sparse.update s.tasks (s.wave id).task (fun k => { k with budget := b }) =
        Sparse.put s.tasks (s.wave id).task { k with budget := b } := fun b => by
      have hfind : Sparse.find s.tasks (s.wave id).task = some k := hk
      rw [Sparse.update, hfind]
    split
    · generalize k.budget - (if (s.wave id).w64 = true then 2 else 1) = b
      refine .inr ⟨k, b, hk, ?_⟩
      split
      · exact hmod b
      · exact hmod b
    · exact .inl rfl
  · exact .inl rfl

theorem charge_task_map {α : Type} (id n : Nat) {f : Task → α} (hf : ∀ k b, f { k with budget := b } = f k) :
    ((s.charge id).task n).map f = (s.task n).map f := by
  unfold State.task
  rcases charge_tasks s id with h | ⟨k, b, hk, h⟩
  · rw [h]
  · rw [h]
    by_cases hn : n = (s.wave id).task
    · rw [hn, Sparse.find_put_same]
      exact ((congrArg (Option.map f) hk).trans (congrArg some (hf k b).symm)).symm
    · rw [Sparse.find_put_other _ _ hn]

theorem issuedBy_task_map {α : Type} (n : Nat) {f : Task → α} (hf : ∀ k b, f { k with budget := b } = f k) :
    ((s.issuedBy i).task n).map f = (s.task n).map f :=
  charge_task_map _ _ n hf

end Issued

/-! ## Special registers (R171) -/

/-- What a special register gives of the wave that has issued its read is what it gave before. -/
theorem special_issuedBy (u : State) (d : Reg) (n : Fin 64) (sigr : Word) (m l : Nat) :
    (u.issuedBy (.sread d n)).special (u.issuedBy (.sread d n)).curWave sigr m l = u.special u.curWave sigr m l := by
  have hgsz : ∀ j, ((u.issuedBy (.sread d n)).task j).map (·.gsz) = (u.task j).map (·.gsz) :=
    fun j => issuedBy_task_map u _ j fun _ _ => rfl
  have hnwg : ∀ j, ((u.issuedBy (.sread d n)).task j).map (·.nwg) = (u.task j).map (·.nwg) :=
    fun j => issuedBy_task_map u _ j fun _ _ => rfl
  unfold State.special
  simp only [hgsz, hnwg, issuedBy_wg, issuedBy_gt, issuedBy_pkg, State.issuedBy_cur]
  rw [State.issuedBy_curWave]
  rfl

/-- What a read of register n of GT or LWCT keeps of the value's high half in the wave. -/
def keepHigh (u : State) (n : Nat) (w : Wave) : Wave :=
  { w with
    gthi := if n = 0x18 then wd (u.gt / 2 ^ 32) else w.gthi
    lwcthi := if n = 0x1A then wd (u.curWave.lwct / 2 ^ 32) else w.lwcthi }

theorem keepHigh_lreg (u : State) (n : Nat) (w : Wave) : (keepHigh u n w).lreg = w.lreg := rfl

theorem exec_sread {s u : State} {d : Reg} {n : Fin 64} (h : Issues s (.sread d n) u) :
    ∃ t, exec (.sread d n) s = .next (t.setCur (keepHigh u n.val t.curWave)) ∧ OnlyRegs u t (.sread d n) ∧
      Gets u t d 1 (u.special u.curWave u.curWave.sigr n.val) := by
  have hexec : exec (.sread d n) s = execSread d n s := rfl
  have hconds : ∀ f : Nat → Nat, (u.issuedBy (.sread d n)).curWave.conds (fun l => plain (f l)) = 0 :=
    fun f => Wave.conds_zero _ _ fun _ => rfl
  have hlwct : (u.issuedBy (.sread d n)).curWave.lwct = u.curWave.lwct := by
    rw [State.issuedBy_curWave]
    rfl
  obtain ⟨honly, hgets⟩ := State.laneWrite_next u (.sread d n) (.sread d n) d 1 []
    (fun l => plain ((u.issuedBy (.sread d n)).special (u.issuedBy (.sread d n)).curWave s.curWave.sigr n.val l)) (.inl rfl)
    (by rw [hconds, Nat.zero_and])
  refine ⟨_, ?_, honly, fun j l hl => (hgets j l hl).trans ?_⟩
  · rw [hexec, execSread, issue_next h, issuedBy_gt, hlwct]
    by_cases hgt : n.val = 0x18
    · simp [keepHigh, hgt]
    · by_cases hw : n.val = 0x1A
      · simp [keepHigh, hw]
      · simp [keepHigh, hgt, hw]
  · simp only [plain, special_issuedBy, (issues_curWave h).sigr]

/-- With the high half kept, the wave is as issue leaves it but for registers and that half. -/
theorem onlyRegs_keepHigh {u t : State} {d : Reg} {n : Fin 64} (h : OnlyRegs u t (.sread d n)) :
    t.setCur (keepHigh u n.val t.curWave) = (u.issuedBy (.sread d n)).setCur { (u.issuedBy (.sread d n)).curWave with
      regs := t.curWave.regs, rpoison := t.curWave.rpoison,
      gthi := if n.val = 0x18 then wd (u.gt / 2 ^ 32) else u.curWave.gthi,
      lwcthi := if n.val = 0x1A then wd (u.curWave.lwct / 2 ^ 32) else u.curWave.lwcthi } := by
  have hwave := congrArg State.curWave h
  rw [State.curWave_setCur] at hwave
  have hkept : (u.issuedBy (.sread d n)).curWave.gthi = u.curWave.gthi ∧
      (u.issuedBy (.sread d n)).curWave.lwcthi = u.curWave.lwcthi := by
    rw [State.issuedBy_curWave]
    exact ⟨rfl, rfl⟩
  obtain ⟨hgthi, hlwcthi⟩ := hkept
  have hset : t.setCur (keepHigh u n.val t.curWave) =
      (u.issuedBy (.sread d n)).setCur (keepHigh u n.val t.curWave) := by
    conv_lhs => enter [1]; rw [h]
    exact State.setCur_setCur ..
  rw [hset, hwave, keepHigh]
  dsimp only
  rw [hgthi, hlwcthi]

/-- Settles O17: the value is `State.special` of the state that issue leaves, which is that of the state before, and each
number of R171 picks its clause of it. -/
theorem specialReads : Obligations.SpecialReads := by
  unfold Obligations.SpecialReads
  intro s u d n h
  obtain ⟨t, ht, honly, hgets⟩ := exec_sread h
  refine ⟨_, u.special u.curWave u.curWave.sigr n.val, ht, fun j l hl => ?_, ?_, ?_⟩
  · rw [State.curWave_setCur, keepHigh_lreg]
    exact hgets j l hl
  · rw [State.curWave_setCur]
    exact onlyRegs_keepHigh honly
  · generalize n.val = m
    refine ⟨?_, ?_, ?_, ?_, ?_, ?_, ?_, ?_, ?_, ?_, ?_, ?_, ?_, ?_, ?_, ?_, ?_, ?_, ?_, fun g hg => ?_, fun g k hg hk => ?_⟩
    iterate 19 exact fun hm l => hm ▸ rfl
    · refine ⟨?_, ?_, ?_, ?_, ?_, ?_, ?_, ?_⟩
      iterate 8 exact fun hm l => by rw [hm, State.special, hg]; rfl
    · refine ⟨fun hm h0 l => ?_, fun hm l => ?_⟩
      · have hmax : Nat.max 1 k.gsz = k.gsz := Nat.max_eq_right (Nat.one_le_iff_ne_zero.2 h0)
        simp [hm, State.special, hg, hk, hmax]
      · simp [hm, State.special, hg, hk]

end Sys2Proof.Proofs

/-! PROOFS. Calls, windows and the mask stack (07/R155, R170): what each instruction waits for gives the state that it
issues from, and its effect is the model's own change of the wave, made once it has issued. -/

namespace Sys2Proof.Proofs

open Sys2Proof.Machine

open Sys2Proof.Safety

/-! ## Preparations -/

section Prep
variable {s u : State} {i : Instr} {prep : State → Move}

theorem bind_eq_ok {m : Move} {f : State → Move} (h : m.bind f = .ok u) : ∃ t, m = .ok t ∧ f t = .ok u := by
  cases m with
  | ok t => exact ⟨t, rfl, h⟩
  | wait t => cases h
  | fault t c a x => cases h

/-- An instruction that writes no register issues from the state that its preparation leaves. -/
theorem prep_ok_of_noWrites (h : IssuesAfter s prep i u) (hw : (i.opnds s.curWave).wr = []) : prep s = .ok u := by
  obtain ⟨t, ht, hu⟩ := bind_eq_ok h.2
  rw [span_of_noWrites t hw] at hu
  rw [ht, hu]

/-- Of a preparation only what it makes of the state at hand counts. -/
theorem issuesAfter_of_prep_eq {prep' : State → Move} (h : IssuesAfter s prep i u) (hp : prep' s = prep s) :
    IssuesAfter s prep' i u := by
  obtain ⟨hpasses, hspan⟩ := h
  exact ⟨hpasses, hp ▸ hspan⟩

/-- A failed check of its own parks an instruction before it issues. -/
theorem issueWith_parksBefore {cls : Nat} {fa fi : Dword} {body : State → State} (h : passes s i = true) :
    ∃ t, s.issueWith i (some (cls, fa, fi)) prep body = .next t ∧ ParksBefore s t cls fa fi :=
  ⟨_, issueWith_parks h, parkPre_parksBefore ..⟩

end Prep

/-! ## Calls (R155) -/

/-- A preparation goes on only from an address that was reached. -/
theorem reach_ok_of_stop {r : Reach} {s u : State} {va : Dword} (h : r.stop s va = .ok u) : ∃ pa leaf, r = .ok pa leaf := by
  cases r with
  | ok pa leaf => exact ⟨pa, leaf, rfl⟩
  | moving d id => cases h
  | held => cases h
  | fail c fa fi => cases h

/-- A write to the backing area changes of a wave at most A bits of its frames. -/
theorem backWrite_wave {s u : State} {id : Nat} {w : Wave} {va : Dword} {bs : List Byte}
    (h : s.backWrite id w va bs = .ok u) : u.cur = s.cur ∧ ∃ leaf, ∀ j, u.wave j = Wave.touch leaf (s.wave j) := by
  unfold State.backWrite at h
  dsimp only at h
  split at h
  · next pa leaf _ =>
    cases h
    refine ⟨(State.cur_devWrite ..).trans (State.cur_devWrite ..), leaf, fun j => ?_⟩
    rw [← State.wave_setAD s (coreOfWave id) leaf true j]
    unfold State.wave
    rw [State.waves_devWrite]
  · next hr =>
    obtain ⟨pa, leaf, hreach⟩ := reach_ok_of_stop h
    exact (hr pa leaf hreach).elim

/-- Keeping the link word changes of the wave that moves at most its frames. -/
theorem spillLink_curWave {s u : State} (h : s.spillLink = .ok u) :
    u.curWave = { s.curWave with frames := u.curWave.frames } := by
  unfold State.spillLink at h
  dsimp only at h
  split at h
  · cases h
    rfl
  · obtain ⟨hcur, leaf, hwave⟩ := backWrite_wave h
    unfold State.curWave
    rw [hcur, hwave s.cur]
    rfl

/-- A call whose target passes, within its limits, opens the callee's window. -/
theorem callOp_next {s u : State} {i : Instr} {target : Wave → Dword} (hd : s.curWave.cdepth ≠ 4096)
    (hw : s.curWave.wb + s.curWave.sz ≤ s.curWave.stkmax) (h : IssuesAfter s State.spillLink i u) :
    s.callOp i none target = .next ((u.issuedBy i).setCur
      ((u.issuedBy i).curWave.enterCall (target (u.issuedBy i).curWave))) := by
  have hcheck : s.curWave.callCheck = none := if_neg (by omega)
  have hown : (none : Option (Nat × Dword × Dword)).orElse (fun _ => s.curWave.callCheck) = none := hcheck
  rw [State.callOp, hown, issueWith_next h]

/-- The callee's window, in terms of the wave before the call issued. -/
theorem enterCall_issuedBy (u : State) (i : Instr) (target : Dword) :
    (u.issuedBy i).curWave.enterCall target = { (u.issuedBy i).curWave with
      links := if u.curWave.cdepth < 16 then Sparse.put u.curWave.links u.curWave.cdepth
          (dw ((u.curWave.sz / 8 - 1) * 2 ^ 55 + (u.curWave.pc + 4).toNat / 4 % 2 ^ 55))
        else u.curWave.links,
      cdepth := u.curWave.cdepth + 1, wb := u.curWave.wb + u.curWave.sz - 8, sz := 8, pc := target } := by
  have hpc : u.curWave.pc + 4 - 4 = u.curWave.pc := BitVec.add_sub_cancel ..
  have hlink : (u.issuedBy i).curWave.linkWord ((u.issuedBy i).curWave.pc - 4) =
      dw ((u.curWave.sz / 8 - 1) * 2 ^ 55 + (u.curWave.pc + 4).toNat / 4 % 2 ^ 55) := by
    rw [State.issuedBy_curWave, Wave.issued_pc, hpc]
    rfl
  rw [Wave.enterCall, hlink, State.issuedBy_curWave]
  rfl

theorem targetCheck_of_aligned {t : Dword} (h : t.toNat % 4 = 0) : targetCheck t = none := if_neg (by omega)

theorem relTarget_issuedBy (u : State) (i : Instr) (off : BitVec 20) :
    (u.issuedBy i).curWave.relTarget off = u.curWave.pc + 4 * off.signExtend 64 := by
  rw [State.issuedBy_curWave, Wave.relTarget, Wave.issued_pc, BitVec.add_sub_cancel]

/-- Settles O22: each form of call hands its target to the one call operation, whose preparation changes nothing that the
target depends on. -/
theorem calls : Obligations.Calls := by
  unfold Obligations.Calls
  intro s u i target hform hd hw h
  rcases hform with ⟨off, rfl, rfl⟩ | ⟨a, rfl, rfl, ha⟩ | ⟨g, rfl, hg, ha⟩
  · have hwave := spillLink_curWave (prep_ok_of_noWrites h rfl)
    have hexec : exec (.call off) s = s.callOp (.call off) none (fun w => w.relTarget off) := rfl
    rw [hexec, callOp_next hd hw h, enterCall_issuedBy, relTarget_issuedBy, hwave]
  · have hwave := spillLink_curWave (prep_ok_of_noWrites h rfl)
    have hexec : exec (.callr a) s = s.callOp (.callr a) (targetCheck (s.curWave.v64 a s.curWave.uniform))
      (fun w => w.v64 a w.uniform) := rfl
    have htarget : (u.issuedBy (.callr a)).curWave.v64 a (u.issuedBy (.callr a)).curWave.uniform =
        s.curWave.v64 a s.curWave.uniform := by
      rw [issuedBy_uniform64, hwave]
      rfl
    rw [hexec, targetCheck_of_aligned ha, callOp_next hd hw h, enterCall_issuedBy, htarget]
  · have hexec : exec (.callg g) s = s.callOp (.callg g)
      (match s.gotSlot s.curWave g.toNat with
       | none => some (7, dw g.toNat, jumpInfo 0x31)
       | some t => targetCheck t) (fun _ => (s.gotSlot s.curWave g.toNat).getD 0) := rfl
    rw [hexec, hg]
    dsimp only
    rw [targetCheck_of_aligned ha, callOp_next hd hw h, enterCall_issuedBy, Option.getD_some]

/-! ## ENTER (R155, R158) -/

/-- A range made resident lies below the span's top. -/
theorem makeResident_hi {s u : State} {id base top : Nat} (h : s.makeResident id base top = .ok u) :
    top ≤ (u.wave id).hi := by
  unfold State.makeResident at h
  obtain ⟨t, -, h⟩ := bind_eq_ok h
  obtain ⟨v, -, h⟩ := bind_eq_ok h
  cases h
  rw [State.modWave, State.wave_setWave_same]
  exact Nat.le_max_right ..

theorem get_filter_key {α : Type} (d : α) (m : Sparse α) (p : Nat → Bool) (k : Nat) :
    Sparse.get d (m.filter (fun e => p e.1)) k = if p k then Sparse.get d m k else d := by
  induction m with
  | nil => exact (ite_self d).symm
  | cons e r ih =>
    obtain ⟨k', v⟩ := e
    by_cases hk : k' = k
    · subst hk
      by_cases hp : p k' = true
      · simp [Sparse.get, hp]
      · simp [hp, ih]
    · by_cases hp : p k' = true
      · simp [Sparse.get, hp, hk, ih]
      · simp [Sparse.get, hp, hk, ih]

/-- A span cut at a register that it reaches keeps the values below it (log 45). -/
theorem cutAt_lreg (w : Wave) {hi : Nat} (h : hi ≤ w.hi) (j l : Nat) :
    (w.cutAt hi).lreg j l = if j < hi then w.lreg j l else 0 := by
  unfold Wave.lreg Wave.cutAt
  dsimp only
  rw [get_filter_key [] w.regs (fun n => decide (n < hi)) j]
  by_cases hj : j < hi
  · have hj' : j < w.hi := by omega
    simp [hj, hj']
  · simp [hj]

section Enter
variable {s u : State} {n : BitVec 12}
  (h : IssuesAfter s (fun t => t.makeResident t.cur t.curWave.wb (t.curWave.wb + n.toNat)) (.enter n) u)
include h

theorem exec_enter (hn : s.curWave.wb + n.toNat ≤ s.curWave.stkmax) :
    exec (.enter n) s = .next ((u.issuedBy (.enter n)).setCur
      { (u.issuedBy (.enter n)).curWave.cutAt (u.curWave.wb + n.toNat) with sz := n.toNat }) := by
  have hexec : exec (.enter n) s = execEnter n s := rfl
  have hwb : (u.issuedBy (.enter n)).curWave.wb = u.curWave.wb := by
    rw [State.issuedBy_curWave]
    rfl
  rw [hexec, execEnter, if_neg (by omega), issueWith_next h, hwb]

/-- The window that ENTER made resident ends within the span. -/
theorem enter_le_hi : u.curWave.wb + n.toNat ≤ u.curWave.hi := by
  have hok : s.makeResident s.cur s.curWave.wb (s.curWave.wb + n.toNat) = .ok u := prep_ok_of_noWrites h rfl
  have hspans := State.Spans.makeResident s s.cur s.curWave.wb (s.curWave.wb + n.toNat)
  rw [hok] at hspans
  obtain ⟨hcur, hwave⟩ := hspans
  have hwb : u.curWave.wb = s.curWave.wb := by
    unfold State.curWave
    rw [hcur, hwave s.cur]
  have hhi := makeResident_hi hok
  rw [← hcur] at hhi
  rw [hwb]
  exact hhi

end Enter

/-! ## RET (R155, R252) -/

theorem exec_ret_caller {s u : State} {link : Dword} {place leaf : Nat} (hd : s.curWave.cdepth ≠ 0)
    (htop : s.topLink = (.ok place leaf, link))
    (h : IssuesAfter s (fun t => (if leaf = 0 then t else t.setAD (coreOfWave t.cur) leaf false).fillCaller link) .ret u) :
    exec .ret s = .next ((u.issuedBy .ret).setCur ((u.issuedBy .ret).curWave.returned link)) := by
  have hexec : exec .ret s = execRet s := rfl
  rw [hexec, execRet, if_neg hd]
  refine (issueWith_next (issuesAfter_of_prep_eq h ?_)).trans ?_
  · rw [htop]
  · rw [htop]

/-- Settles O23: ENTER cuts the span at the window that it made resident (log 45), RET's wave is that of `Wave.returned`,
with the link word of the stack's top (log 123 for deep ones), and the two endings are `State.endWave`. -/
theorem windowsAndEnds : Obligations.WindowsAndEnds := by
  unfold Obligations.WindowsAndEnds
  refine ⟨fun s u n hn h => ?_, fun s u link place leaf hd htop h => ?_, fun s u hd h => ?_, fun s u h => ?_⟩
  · refine ⟨_, exec_enter h hn, ?_⟩
    rw [State.curWave_setCur]
    refine ⟨rfl, rfl, rfl, fun j l => ?_⟩
    have hissued : (u.issuedBy (.enter n)).curWave.hi = u.curWave.hi ∧
        (u.issuedBy (.enter n)).curWave.lreg = u.curWave.lreg := by
      rw [State.issuedBy_curWave]
      exact ⟨rfl, rfl⟩
    obtain ⟨hhi, hlreg⟩ := hissued
    have hcut := cutAt_lreg (u.issuedBy (.enter n)).curWave (hhi ▸ enter_le_hi h) j l
    rw [hlreg] at hcut
    exact hcut
  · refine ⟨_, exec_ret_caller hd htop h, ?_⟩
    rw [State.curWave_setCur, State.issuedBy_curWave]
    exact ⟨rfl, rfl, rfl, rfl, rfl⟩
  · have hexec : exec .ret s = execRet s := rfl
    rw [hexec, execRet, if_pos hd, issue_next h, State.issuedBy_cur]
  · have hexec : exec .exit s = execExit s := rfl
    rw [hexec, execExit, issue_next h, State.issuedBy_cur]

/-! ## The mask stack (R170) -/

theorem exec_mpush (k : Low) (s : State) : exec (.mpush k) s = s.issueWith (.mpush k)
    (if s.curWave.msd = 256 then some (20, 0, spillInfo 0x21) else none) State.spillMask
    (fun t => t.setCur (t.curWave.mpush k)) := rfl

theorem exec_melse (s : State) : exec .melse s = s.issueWith .melse
    (if s.curWave.msd = 0 then some (20, 0, spillInfo 0x22) else none) State.fillMask
    (fun t => t.setCur t.curWave.melse) := rfl

theorem exec_mpop (s : State) : exec .mpop s = s.issueWith .mpop
    (if s.curWave.msd = 0 then some (20, 0, spillInfo 0x22) else none) State.fillMask
    (fun t => t.setCur t.curWave.mpop) := rfl

theorem topMask_of_find {w : Wave} {e : MaskEntry} (h : Sparse.find w.mstack (w.msd - 1) = some e) : w.topMask = e := by
  rw [Wave.topMask, Sparse.get_eq_find, h, Option.getD_some]

/-- Issue leaves the mask stack's top. -/
theorem topMask_issuedBy (u : State) (i : Instr) : (u.issuedBy i).curWave.topMask = u.curWave.topMask := by
  rw [State.issuedBy_curWave]
  rfl

/-- Settles O24: a push, an else and a pop are the wave's own `mpush`, `melse` and `mpop`, made once the entry that they
move between wave and backing area is there; the two limits are checks of their own. -/
theorem maskStack : Obligations.MaskStack := by
  unfold Obligations.MaskStack
  refine ⟨fun s u k hd h => ?_, fun s u e hd h he => ?_, fun s u e hd h he => ?_,
    fun s => ⟨fun k h hd => ?_, fun hd => ⟨fun h => ?_, fun h => ?_⟩⟩⟩
  · rw [exec_mpush, if_neg hd, issueWith_next h]
    refine ⟨_, rfl, rfl, ?_⟩
    rw [State.curWave_setCur, State.issuedBy_curWave]
    exact ⟨rfl, rfl, rfl, rfl, Sparse.find_put_same ..⟩
  · have htop := (topMask_issuedBy u .melse).trans (topMask_of_find he)
    rw [exec_melse, if_neg hd, issueWith_next h]
    refine ⟨_, rfl, rfl, ?_⟩
    rw [State.curWave_setCur, Wave.melse, htop, State.issuedBy_curWave]
    exact ⟨rfl, rfl, rfl, rfl⟩
  · have htop := (topMask_issuedBy u .mpop).trans (topMask_of_find he)
    rw [exec_mpop, if_neg hd, issueWith_next h]
    refine ⟨_, rfl, rfl, ?_⟩
    rw [State.curWave_setCur, Wave.mpop, htop, State.issuedBy_curWave]
    exact ⟨rfl, rfl, rfl, rfl⟩
  · rw [exec_mpush, if_pos hd]
    exact issueWith_parksBefore h
  · rw [exec_melse, if_pos hd]
    exact issueWith_parksBefore h
  · rw [exec_mpop, if_pos hd]
    exact issueWith_parksBefore h

end Sys2Proof.Proofs

/-! PROOFS. The span (07/R153, R156 to R158): what extending it leaves of the wave is `State.span_curWave`; where a spilled
register's lanes lie follows from how the device writes at the point of coherence, line by line, and from the places of a
page's addresses, which are all different. -/

namespace Sys2Proof.Proofs

open Sys2Proof.Machine

open Sys2Proof.Safety

/-! ## Places within a page (R18, R21) -/

section Page
variable {s : State} {p i j : Nat}

/-- The regions of the physical map begin and end with a page. -/
theorem targetOf_page (h : p % 65536 + i < 65536) : targetOf (p + i) = targetOf p := by
  have hhbm : p + i < 0x8000000000 ↔ p < 0x8000000000 := by omega
  have halias : p + i < 0x10000000000 ↔ p < 0x10000000000 := by omega
  have honchip : p + i < 0x10040000000 ↔ p < 0x10040000000 := by omega
  have hdevice : (0x10100000000 ≤ p + i ∧ p + i < 0x10200000000) ↔ (0x10100000000 ≤ p ∧ p < 0x10200000000) := by omega
  have hhost : (0x4000000000000 ≤ p + i ∧ p + i < 0x8000000000000) ↔ (0x4000000000000 ≤ p ∧ p < 0x8000000000000) := by omega
  have hpeer : (0x8000000000000 ≤ p + i ∧ p + i < 0x10000000000000) ↔ (0x8000000000000 ≤ p ∧ p < 0x10000000000000) := by
    omega
  unfold targetOf
  simp only [hhbm, halias, honchip, hdevice, hhost, hpeer]

theorem place_of_not_peer {pa : Nat} (h : targetOf pa ≠ .peer) : s.place pa = dieLocal pa := by
  unfold State.place
  split
  · next ht => exact absurd ht h
  · rfl

theorem place_of_peer {pa : Nat} (h : targetOf pa = .peer) :
    s.place pa = 2 ^ 60 + (s.peerPkg pa).getD 0 * 2 ^ 39 + pa % 2 ^ 39 := by
  unfold State.place
  rw [h]

theorem peerPkg_page (h : p % 65536 + i < 65536) : s.peerPkg (p + i) = s.peerPkg p := by
  have hbits : bits (p + i) 39 12 = bits p 39 12 := by
    unfold bits
    omega
  unfold State.peerPkg
  rw [hbits]

/-- The die-interleaved range holds each byte once (R21). -/
theorem alias_inj {x y : Nat} (hx : x < 0x8000000000) (hy : y < 0x8000000000)
    (h : x / 4096 % 4 * 137438953472 + x / 16384 % 33554432 * 4096 + x % 4096 =
      y / 4096 % 4 * 137438953472 + y / 16384 % 33554432 * 4096 + y % 4096) : x = y := by
  have hx4 : x / 16384 = x / 4096 / 4 := (Nat.div_div_eq_div_mul x 4096 4).symm
  have hy4 : y / 16384 = y / 4096 / 4 := (Nat.div_div_eq_div_mul y 4096 4).symm
  have hlow : x % 4096 = y % 4096 := by omega
  have hline : x / 16384 = y / 16384 := by omega
  omega

theorem dieLocal_page_inj (hi : p % 65536 + i < 65536) (hj : p % 65536 + j < 65536) (h : dieLocal (p + i) = dieLocal (p + j)) :
    i = j := by
  have hlow : (0x8000000000 ≤ p + i ∧ p + i < 0x10000000000) ↔ (0x8000000000 ≤ p + j ∧ p + j < 0x10000000000) := by omega
  unfold dieLocal bits at h
  by_cases ha : 0x8000000000 ≤ p + j ∧ p + j < 0x10000000000
  · rw [if_pos ha, if_pos (hlow.2 ha)] at h
    simp only [Nat.reducePow, Nat.div_one] at h
    have := alias_inj (by omega) (by omega) h
    omega
  · rw [if_neg ha, if_neg (fun x => ha (hlow.1 x))] at h
    omega

/-- Two bytes of one page lie at two places. -/
theorem place_page_inj (hi : p % 65536 + i < 65536) (hj : p % 65536 + j < 65536) (h : s.place (p + i) = s.place (p + j)) :
    i = j := by
  by_cases hp : targetOf p = .peer
  · rw [place_of_peer (hp ▸ targetOf_page hi), place_of_peer (hp ▸ targetOf_page hj), peerPkg_page hi, peerPkg_page hj] at h
    omega
  · rw [place_of_not_peer (targetOf_page hi ▸ hp), place_of_not_peer (targetOf_page hj ▸ hp)] at h
    exact dieLocal_page_inj hi hj h

end Page

/-! ## What places depend on -/

/-- Two states with the same system registers and package number. -/
def SameMap (s t : State) : Prop := t.csr = s.csr ∧ t.pkg = s.pkg

section SameMap
variable {s t u : State}

theorem SameMap.trans (h : SameMap s t) (g : SameMap t u) : SameMap s u := ⟨g.1.trans h.1, g.2.trans h.2⟩

theorem SameMap.place (h : SameMap s t) : t.place = s.place := by
  obtain ⟨hcsr, hpkg⟩ := h
  unfold State.place State.peerPkg State.csrGet
  rw [hcsr, hpkg]

theorem SameMap.privateMode (h : SameMap s t) : t.privateMode = s.privateMode := by
  obtain ⟨hcsr, -⟩ := h
  unfold State.privateMode State.csrGet
  rw [hcsr]

end SameMap

/-! ## Bytes written at the point of coherence (R157, R95) -/

/-- The bytes that memory itself takes of a stretch of one line, at their places: a line that the home of a
partitioned L2 holds takes them instead (R95). -/
def taken (s : State) (c pa : Nat) (bs : List Byte) : List (Nat × Byte) :=
  bs.zipIdx.filterMap (fun e => if s.privateMode && s.homeHolds c (pa + e.2) then none else some (s.place (pa + e.2), e.1))

section Line
variable {s : State} {c pa : Nat} {bs : List Byte}

theorem eq_of_mem_taken {e : Nat × Byte} (h : e ∈ taken s c pa bs) :
    ∃ i, i < bs.length ∧ e.1 = s.place (pa + i) ∧ e.2 = bs.getD i 0 := by
  obtain ⟨⟨b, i⟩, hb, he⟩ := List.mem_filterMap.1 h
  have hget := List.mem_zipIdx_iff_getElem?.1 hb
  obtain ⟨hi, -⟩ := List.getElem?_eq_some_iff.1 hget
  split at he
  · cases he
  · cases he
    exact ⟨i, hi, rfl, by rw [List.getD_eq_getElem?_getD, hget, Option.getD_some]⟩

theorem mem_taken (hp : s.privateMode = false) {i : Nat} (hi : i < bs.length) :
    (s.place (pa + i), bs.getD i 0) ∈ taken s c pa bs :=
  List.mem_filterMap.2 ⟨(bs[i], i), List.mem_zipIdx_iff_getElem?.2 (by simp [hi]), by simp [hp, hi]⟩

theorem mem_devLine : (s.devLine c pa bs).mem = (s.writeAt (taken s c pa bs)).mem := by
  unfold State.devLine
  dsimp only
  rw [State.cleanse_mem]
  rfl

theorem sameMap_devLine : SameMap s (s.devLine c pa bs) := by
  have hcleanse : ∀ (t : State) a n, (t.cleanse a n).csr = t.csr ∧ (t.cleanse a n).pkg = t.pkg := fun t a n => by
    unfold State.cleanse
    split
    · exact ⟨rfl, rfl⟩
    · exact ⟨rfl, rfl⟩
  have hwrite : (s.writeAt (taken s c pa bs)).csr = s.csr ∧ (s.writeAt (taken s c pa bs)).pkg = s.pkg := by
    rw [writeAt_eq]
    exact ⟨rfl, rfl⟩
  exact SameMap.trans hwrite (hcleanse _ (s.place pa) bs.length)

end Line

/-! ## Stretches cut into lines -/

/-- A stretch of bytes that is part of the stretch `bs` from `pa` up. -/
def IsPiece (pa : Nat) (bs : List Byte) (x : Nat × List Byte) : Prop :=
  ∀ i, i < x.2.length → pa ≤ x.1 ∧ x.1 + i < pa + bs.length ∧ x.2.getD i 0 = bs.getD (x.1 + i - pa) 0

/-- Whether a stretch holds byte k from `pa` up. -/
def Covers (pa k : Nat) (x : Nat × List Byte) : Prop := x.1 ≤ pa + k ∧ pa + k < x.1 + x.2.length

section Chunks
variable {pa : Nat} {bs : List Byte}

theorem lineChunks_isPiece {x : Nat × List Byte} (h : x ∈ lineChunks pa bs) : IsPiece pa bs x := by
  obtain ⟨k, -, rfl⟩ := List.mem_map.1 h
  have hle : pa ≤ if k = 0 then pa else pa / 128 * 128 + 128 * k := by
    split
    · exact Nat.le_refl pa
    · omega
  intro i hi
  dsimp only at hi ⊢
  generalize (if k = 0 then pa else pa / 128 * 128 + 128 * k) = a at hle hi ⊢
  rw [List.length_take, List.length_drop] at hi
  refine ⟨hle, by omega, ?_⟩
  rw [List.getD_eq_getElem?_getD, List.getElem?_take_of_lt (by omega), List.getElem?_drop, ← List.getD_eq_getElem?_getD]
  congr 1
  omega

theorem lineChunks_covers {k : Nat} (hk : k < bs.length) : ∃ x ∈ lineChunks pa bs, Covers pa k x := by
  refine ⟨_, List.mem_map.2 ⟨(pa % 128 + k) / 128, List.mem_range.2 (by omega), rfl⟩, ?_⟩
  unfold Covers
  dsimp only
  rw [List.length_take, List.length_drop]
  split
  · omega
  · omega

end Chunks

/-- The addresses of a stretch lie at places that are all different. -/
def PlacesDiffer (s : State) (pa n : Nat) : Prop :=
  ∀ i k, i < n → k < n → s.place (pa + i) = s.place (pa + k) → i = k

theorem placesDiffer_of_page {s : State} {pa n : Nat} (h : pa % 65536 + n ≤ 65536) : PlacesDiffer s pa n :=
  fun _ _ hi hk => place_page_inj (by omega) (by omega)

theorem SameMap.placesDiffer {s t : State} (h : SameMap s t) {pa n : Nat} (hd : PlacesDiffer s pa n) : PlacesDiffer t pa n := by
  unfold PlacesDiffer
  rw [h.place]
  exact hd

section DevWrite
variable {pa c : Nat} {bs : List Byte}

/-- Where every byte stored at an address is the same, the address holds it. -/
theorem byte_writeAt_of_agree {s : State} {es : List (Nat × Byte)} {a : Nat} {v : Byte} (h : ∀ e ∈ es, e.1 = a → e.2 = v)
    (hin : (∃ e ∈ es, e.1 = a) ∨ s.byte a = v) : (s.writeAt es).byte a = v := by
  induction es generalizing s with
  | nil =>
    obtain ⟨e, he, -⟩ | hv := hin
    · cases he
    · exact hv
  | cons x r ih =>
    refine ih (fun e he => h e (List.mem_cons_of_mem _ he)) ?_
    by_cases hx : x.1 = a
    · right
      rw [← hx, State.byte_setByte_same]
      exact h x (List.mem_cons_self ..) hx
    · rcases hin with ⟨e, he, hea⟩ | hv
      · rcases List.mem_cons.1 he with rfl | he
        · exact absurd hea hx
        · exact .inl ⟨e, he, hea⟩
      · right
        rw [State.byte_setByte_other _ _ (Ne.symm hx), hv]

theorem byte_devLine_outside {s : State} {x : Nat × List Byte} (hx : IsPiece pa bs x) {a : Nat}
    (ha : ∀ i, i < bs.length → a ≠ s.place (pa + i)) : (s.devLine c x.1 x.2).byte a = s.byte a := by
  rw [byte_of_mem mem_devLine]
  refine State.byte_writeAt_outside s _ a fun e he => ?_
  obtain ⟨i, hi, hplace, -⟩ := eq_of_mem_taken he
  obtain ⟨hle, hlt, -⟩ := hx i hi
  have hsum : x.1 + i = pa + (x.1 + i - pa) := by omega
  rw [hplace, hsum]
  exact ha _ (by omega)

theorem byte_devLine_inside {s : State} {x : Nat × List Byte} (hx : IsPiece pa bs x) (hp : s.privateMode = false)
    (hinj : PlacesDiffer s pa bs.length) {k : Nat} (hk : k < bs.length)
    (hin : Covers pa k x ∨ s.byte (s.place (pa + k)) = bs.getD k 0) :
    (s.devLine c x.1 x.2).byte (s.place (pa + k)) = bs.getD k 0 := by
  rw [byte_of_mem mem_devLine]
  refine byte_writeAt_of_agree (fun e he hea => ?_) (hin.imp_left fun hcov => ?_)
  · obtain ⟨i, hi, hplace, hval⟩ := eq_of_mem_taken he
    obtain ⟨hle, hlt, hget⟩ := hx i hi
    have hsum : x.1 + i = pa + (x.1 + i - pa) := by omega
    rw [hplace, hsum] at hea
    rw [hval, hget, hinj _ _ (by omega) hk hea]
  · obtain ⟨hle, hlt⟩ := hcov
    have hsum : x.1 + (pa + k - x.1) = pa + k := by omega
    exact ⟨_, mem_taken hp (i := pa + k - x.1) (by omega), by rw [hsum]⟩

theorem byte_devLines_outside {xs : List (Nat × List Byte)} {s : State} (hx : ∀ x ∈ xs, IsPiece pa bs x) {a : Nat}
    (ha : ∀ i, i < bs.length → a ≠ s.place (pa + i)) :
    (xs.foldl (fun acc x => acc.devLine c x.1 x.2) s).byte a = s.byte a := by
  induction xs generalizing s with
  | nil => rfl
  | cons x r ih =>
    obtain ⟨hhead, htail⟩ := List.forall_mem_cons.1 hx
    refine (ih htail ?_).trans (byte_devLine_outside hhead ha)
    rw [sameMap_devLine.place]
    exact ha

theorem byte_devLines_inside {xs : List (Nat × List Byte)} {s : State} (hx : ∀ x ∈ xs, IsPiece pa bs x)
    (hp : s.privateMode = false)
    (hinj : PlacesDiffer s pa bs.length) {k : Nat} (hk : k < bs.length)
    (hin : (∃ x ∈ xs, Covers pa k x) ∨ s.byte (s.place (pa + k)) = bs.getD k 0) :
    (xs.foldl (fun acc x => acc.devLine c x.1 x.2) s).byte (s.place (pa + k)) = bs.getD k 0 := by
  induction xs generalizing s with
  | nil =>
    obtain ⟨x, hmem, -⟩ | hv := hin
    · cases hmem
    · exact hv
  | cons x r ih =>
    obtain ⟨hhead, htail⟩ := List.forall_mem_cons.1 hx
    have hmap : SameMap s (s.devLine c x.1 x.2) := sameMap_devLine
    have hstep := ih (s := s.devLine c x.1 x.2) htail (hmap.privateMode.trans hp) (hmap.placesDiffer hinj)
    rw [hmap.place] at hstep
    refine hstep ?_
    rcases hin with ⟨y, hy, hcov⟩ | hv
    · rcases List.mem_cons.1 hy with rfl | hy
      · exact .inr (byte_devLine_inside hhead hp hinj hk (.inl hcov))
      · exact .inl ⟨y, hy, hcov⟩
    · exact .inr (byte_devLine_inside hhead hp hinj hk (.inr hv))

theorem sameMap_devWrite (s : State) : SameMap s (s.devWrite c pa bs) := by
  unfold State.devWrite
  generalize lineChunks pa bs = xs
  induction xs generalizing s with
  | nil => exact ⟨rfl, rfl⟩
  | cons x r ih => exact sameMap_devLine.trans (ih _)

/-- A write at the point of coherence leaves every byte outside its places. -/
theorem byte_devWrite_outside {s : State} {a : Nat} (ha : ∀ i, i < bs.length → a ≠ s.place (pa + i)) :
    (s.devWrite c pa bs).byte a = s.byte a :=
  byte_devLines_outside (fun _ => lineChunks_isPiece) ha

/-- Where L2 is not partitioned the bytes stand at their places. -/
theorem byte_devWrite_inside {s : State} (hp : s.privateMode = false)
    (hinj : PlacesDiffer s pa bs.length) {k : Nat} (hk : k < bs.length) :
    (s.devWrite c pa bs).byte (s.place (pa + k)) = bs.getD k 0 :=
  byte_devLines_inside (fun _ => lineChunks_isPiece) hp hinj hk (.inl (lineChunks_covers hk))

end DevWrite

/-! ## A and D bits set (R34) -/

section SetAD
variable {s : State} {c leaf : Nat} {d : Bool}

theorem sameMap_setAD : SameMap s (s.setAD c leaf d) :=
  sameMap_devWrite (c := dieCore (dieOfCore c)) (pa := leaf) (bs := _) s

theorem byte_setAD_outside {a : Nat} (ha : ∀ i, i < 8 → a ≠ s.place (leaf + i)) : (s.setAD c leaf d).byte a = s.byte a :=
  byte_devWrite_outside (c := dieCore (dieOfCore c)) fun i hi => ha i (by rwa [length_toBytes] at hi)

end SetAD

/-! ## Registers as bytes (R157, R174) -/

theorem getD_toBytes (n v : Nat) {b : Nat} (hb : b < n) : (toBytes n v).getD b 0 = BitVec.ofNat 8 (v / 256 ^ b) := by
  induction n generalizing v b with
  | zero => omega
  | succ n ih =>
    cases b with
    | zero => simp [toBytes]
    | succ b =>
      rw [toBytes, List.getD_cons_succ, ih _ (by omega), Nat.div_div_eq_div_mul, ← Nat.pow_succ']

theorem length_wordBytes (ws : List Word) : (wordBytes ws).length = 4 * ws.length := by
  induction ws with
  | nil => rfl
  | cons w r ih =>
    rw [wordBytes, List.length_append, ih, length_toBytes, List.length_cons]
    omega

theorem getD_wordBytes (ws : List Word) {l b : Nat} (hl : l < ws.length) (hb : b < 4) :
    (wordBytes ws).getD (4 * l + b) 0 = BitVec.ofNat 8 ((ws.getD l 0).toNat / 256 ^ b) := by
  induction ws generalizing l with
  | nil => exact absurd hl (Nat.not_lt_zero l)
  | cons w r ih =>
    rw [wordBytes]
    cases l with
    | zero =>
      rw [List.getD_append _ _ _ _ (by rw [length_toBytes]; omega), Nat.mul_zero, Nat.zero_add, getD_toBytes _ _ hb]
      rfl
    | succ l =>
      have hsub : 4 * (l + 1) + b - 4 = 4 * l + b := by omega
      rw [List.getD_append_right _ _ _ _ (by rw [length_toBytes]; omega), length_toBytes, hsub, List.getD_cons_succ]
      exact ih (by simpa using hl)

/-! ## A register spilled (R156, R157) -/

/-- The lanes of a register as the backing area takes them. -/
def rowBytes (w : Wave) (j : Nat) : List Byte :=
  wordBytes ((List.range w.width).map (fun l => (Sparse.get [] w.regs j).getD l 0))

theorem length_rowBytes (w : Wave) (j : Nat) : (rowBytes w j).length = 4 * w.width := by
  rw [rowBytes, length_wordBytes, List.length_map, List.length_range]

theorem getD_rowBytes (w : Wave) (j : Nat) {l b : Nat} (hl : l < w.width) (hb : b < 4) :
    (rowBytes w j).getD (4 * l + b) 0 = BitVec.ofNat 8 (((Sparse.get [] w.regs j).getD l 0).toNat / 256 ^ b) := by
  rw [rowBytes, getD_wordBytes _ (by simpa using hl) hb]
  simp [hl]

/-- A spill's memory: the leaf's A and D bits, then the register's lanes. -/
theorem mem_spillReg {s t : State} {id j pa leaf : Nat}
    (hr : s.reach (coreOfWave id) (s.wave id).ctx (s.wave id).sys .store 7 ((s.wave id).backAt j) = .ok pa leaf)
    (h : s.spillReg id j = .ok t) :
    t.mem = ((s.setAD (coreOfWave id) leaf true).devWrite (coreOfWave id) pa (rowBytes (s.wave id) j)).mem := by
  unfold State.spillReg at h
  dsimp only at h
  rw [hr] at h
  cases h
  rw [State.modWave_mem]
  split
  · rfl
  · refine (foldl_mem _ (fun acc l => ?_) _ _).trans rfl
    split
    · rfl
    · exact State.setMark_mem ..

/-- Settles O29: the span's frame is `State.span_curWave`, and a spill is a write of the register's row at the point of
coherence after that of the leaf's bits. -/
theorem spanEffect : Obligations.SpanEffect := by
  unfold Obligations.SpanEffect
  refine ⟨fun s u o h => ⟨(State.span_spans h).1, State.span_curWave h, fun htop => ?_⟩, fun s t id j pa leaf hr hpage h => ?_⟩
  · rw [State.span, if_neg (by omega)] at h
    cases h
    rfl
  have hmem := mem_spillReg hr h
  have hmap : SameMap s (s.setAD (coreOfWave id) leaf true) := sameMap_setAD
  have hlen := length_rowBytes (s.wave id) j
  refine ⟨fun hpriv l b hl hb => ?_, fun a hdata hleaf => ?_⟩
  · have hinside := byte_devWrite_inside (s := s.setAD (coreOfWave id) leaf true) (c := coreOfWave id) (pa := pa)
      (bs := rowBytes (s.wave id) j) (hmap.privateMode.trans hpriv)
      (placesDiffer_of_page (hlen ▸ hpage)) (k := 4 * l + b) (by omega)
    rw [hmap.place] at hinside
    rw [byte_of_mem hmem, hinside, getD_rowBytes _ _ hl hb]
  · rw [byte_of_mem hmem, byte_devWrite_outside, byte_setAD_outside hleaf]
    rw [hmap.place, hlen]
    exact hdata

end Sys2Proof.Proofs

/-! PROOFS. Local accesses (07/R161, R162): the statement's hypothesis that no lane has an aliased address speaks of the wave
before its span is extended, the addresses of its clauses are those of the wave after. A register of the window that the
span does not hold reads 0 before and the value that it came with after, so a load whose own destination extends the span
can find an aliased address where there was none: it then reads a register, as R161 has it, and parks with no MISALIGN.
The counterexample takes a register filled from the backing area, whose value is a matter of memory; one that enters at
the span's end would do as well, but its value is free (log 5, log 95). -/

namespace Sys2Proof.Proofs

open Sys2Proof.Machine

open Sys2Proof.Safety

/-- LDL of four bytes into v1, at the address in v0. -/
def aliasLoad : Instr := .ldl 1 0 .b32 0

/-- A W32 wave at that load whose window begins at register 0 and whose span is empty, at register 1: v1 extends it, and
v0 is filled from the backing area at 0x20000, which holds the aliased address 0x100000 in lane 0, the one active lane.
The page tables at 0 and 0x1000 map the first GiB onto itself. -/
def beforeFill : State :=
  { State.reset with
    mode := .full
    mem := [(0, 1), (1, 0x10), (0x1000, 0xDF), (0x1001, 0x20), (0x20002, 0x10)]
    waves := [(0, { firstWave (encode aliasLoad) with exm := 1, lo := 1, hi := 1, regs := [], bb := 0x20000 })]
    wgs := [(0, firstGroup)]
    tasks := [(0, firstTask)] }

/-- The same, once the span holds the registers that the load writes. -/
def afterFill : State :=
  match beforeFill.span (aliasLoad.opnds beforeFill.curWave) with
  | .ok u => u
  | _ => beforeFill

def statusAfter (o : Host.Outcome State Fault Refusal) : Option WStatus :=
  match o with
  | .next t => some t.curWave.status
  | _ => none

theorem aliasLoad_issues : Issues beforeFill aliasLoad afterFill := by
  have hok : (match beforeFill.span (aliasLoad.opnds beforeFill.curWave) with
      | .ok _ => true
      | _ => false) = true := by decide +kernel
  refine ⟨by decide +kernel, ?_⟩
  unfold afterFill
  split at hok
  · next u hu => rw [hu]
  · cases hok

/-- Before the span is extended v0 reads 0; then it holds the aliased address of its own lane 0. -/
theorem aliasLoad_address : beforeFill.curWave.aliased 0 = false ∧ afterFill.curWave.lanes = [0] ∧
    afterFill.curWave.v 0 0 = 0x100000 := by decide +kernel

/-- What the statement asks besides: the workgroup, no stop of the task, no operation outstanding. -/
theorem aliasLoad_quiet : afterFill.wg afterFill.curWave.wg = some firstGroup ∧
    afterFill.stoodStill afterFill.curWave = false ∧ afterFill.ops = [] := by decide +kernel

theorem aliasLoad_goesOn : statusAfter (exec aliasLoad beforeFill) = some .ready := by decide +kernel

/-- Refutes O32: its clause on a lane out of range takes every address from 0x100000 up for one, and `aliasLoad`, whose
lane was not aliased until the span was extended, completes. -/
theorem not_localAccesses : ¬ Obligations.LocalAccesses := by
  unfold Obligations.LocalAccesses
  intro h
  obtain ⟨-, -, hout, -, -⟩ := h
  obtain ⟨hbefore, hlanes, haddr⟩ := aliasLoad_address
  obtain ⟨hwg, hstop, hops⟩ := aliasLoad_quiet
  obtain ⟨t, r, ht, hparked, -⟩ := hout beforeFill afterFill 1 0 .b32 0 firstGroup aliasLoad (.inl rfl) hbefore
    aliasLoad_issues hwg hstop (by simp [hops]) 0 (by simp [hlanes, haddr])
  have hready := aliasLoad_goesOn
  rw [ht, statusAfter, hparked] at hready
  cases hready

end Sys2Proof.Proofs

/-! PROOFS. Float instructions by element (10/R233 to R235, R250): a lane instruction whose elements raise no enabled condition
writes them, and FNEG and FABS are sums and remainders of the bits that they turn. -/

namespace Sys2Proof.Proofs

open Sys2Proof.Machine

open Sys2Proof.Safety

/-! ## Conditions of several lanes and elements (R184) -/

theorem foldl_or_and_eq_zero {α : Type} {l : List α} {f : α → Nat} {te a : Nat} (ha : a &&& te = 0)
    (h : ∀ x ∈ l, f x &&& te = 0) : l.foldl (fun acc x => acc ||| f x) a &&& te = 0 := by
  induction l generalizing a with
  | nil => exact ha
  | cons x r ih =>
    refine ih ?_ fun y hy => h y (List.mem_cons_of_mem _ hy)
    rw [Nat.and_or_distrib_right, ha, h x List.mem_cons_self, Nat.or_zero]

theorem mem_lanes {w : Wave} {l : Nat} : l ∈ w.lanes ↔ w.active l = true := by
  have hwidth : w.active l = true → l < w.width := fun h => by
    simp only [Wave.active, Bool.and_eq_true, decide_eq_true_eq] at h
    exact h.1.1
  simp only [Wave.lanes, List.mem_filter, List.mem_range]
  exact ⟨And.right, fun h => ⟨hwidth h, h⟩⟩

theorem conds_and_eq_zero {w : Wave} {f : Nat → Res} {te : Nat} (h : ∀ l, w.active l = true → (f l).2 &&& te = 0) :
    w.conds f &&& te = 0 :=
  foldl_or_and_eq_zero (Nat.zero_and te) fun l hl => h l (mem_lanes.1 hl)

theorem byElems_and_eq_zero {t : Ty} {f : Nat → Nat → Nat → Res} {a b c te : Nat}
    (h : ∀ k, k < t.elems → (f (element t k a) (element t k b) (element t k c)).2 &&& te = 0) :
    (byElems t f a b c).2 &&& te = 0 := by
  unfold byElems
  rw [byElems_split]
  exact foldl_or_and_eq_zero (Nat.zero_and te) fun k hk => h k (List.mem_range.1 hk)

/-! ## Instructions that complete -/

section Completes
variable {s u : State} {i : Instr} {d a b c : Reg} {p q : Sel}

/-- A lane instruction whose value is made of elements, in the state in which it has issued. -/
theorem completesFloat_laneOp {n m : Nat} {srcs : List Src} {F : Wave → Nat → Res} {g : Nat → Nat → Nat → Res}
    {x y z : Nat → Nat} (he : exec i s = s.laneOp i d m srcs F) (hm : m = 1 ∨ m = 2) (hn : s.curWave.Spans u.curWave → m = n)
    (hF : s.curWave.Spans u.curWave → F (u.issuedBy i).curWave = fun l => byElems u.curWave.ty g (x l) (y l) (z l)) :
    CompletesFloat s u i d n
      (fun l k => g (element u.curWave.ty k (x l)) (element u.curWave.ty k (y l)) (element u.curWave.ty k (z l))) := by
  intro h hq
  have hspans := issues_curWave h
  have hte : (u.issuedBy i).curWave.te = u.curWave.te := by rw [State.issuedBy_curWave, Wave.issued_te]
  have hactive : (u.issuedBy i).curWave.active = u.curWave.active := by rw [State.issuedBy_curWave, Wave.issued_active]
  obtain ⟨t, ht, honly, hgets⟩ := State.laneOp_next (d := d) (srcs := srcs) (f := F) hm h (by
    rw [hte, hF hspans]
    exact conds_and_eq_zero fun l hl => byElems_and_eq_zero fun k hk => hq l k (hactive ▸ hl) hk)
  rw [hF hspans] at hgets
  exact ⟨t, he.trans ht, honly, _, hn hspans ▸ hgets, fun l k _ hk => byElems_element _ _ _ _ _ _ hk⟩

theorem completesFloat_elems3 (f : Ty → Env → Nat → Nat → Res)
    (he : exec i s = s.elems3 i d p a q b (fun t x y => f t s.curWave.env x y)) :
    CompletesFloat s u i d u.curWave.vcount (fun l k => f u.curWave.ty u.curWave.env (src u p a l k) (src u q b l k)) :=
  completesFloat_laneOp (g := fun x y _ => f u.curWave.ty u.curWave.env x y) (x := u.curWave.valP p a)
    (y := u.curWave.valP q b) (z := fun _ => 0) he (Wave.vcount_cases _) (fun h => h.vcount.symm) fun h => by
    rw [State.issuedBy_curWave, h.env]
    rfl

theorem completesFloat_elems2 (f : Ty → Env → Nat → Res)
    (he : exec i s = s.elems2 i d p a (fun t x => f t s.curWave.env x)) :
    CompletesFloat s u i d u.curWave.vcount (fun l k => f u.curWave.ty u.curWave.env (src u p a l k)) :=
  completesFloat_laneOp (g := fun x _ _ => f u.curWave.ty u.curWave.env x) (x := u.curWave.valP p a)
    (y := fun _ => 0) (z := fun _ => 0) he (Wave.vcount_cases _) (fun h => h.vcount.symm) fun h => by
    rw [State.issuedBy_curWave, h.env]
    rfl

theorem completesFloat_elems4 (f : Ty → Env → Nat → Nat → Nat → Res)
    (he : exec i s = s.elems4 i d a b c p (fun t x y z => f t s.curWave.env x y z)) :
    CompletesFloat s u i d u.curWave.vcount (fun l k => f u.curWave.ty u.curWave.env (src u p a l k)
      (element u.curWave.ty k (u.curWave.val b l)) (element u.curWave.ty k (u.curWave.val c l))) :=
  completesFloat_laneOp (g := f u.curWave.ty u.curWave.env) (x := u.curWave.valP p a)
    (y := u.curWave.val b) (z := u.curWave.val c) he (Wave.vcount_cases _) (fun h => h.vcount.symm) fun h => by
    rw [State.issuedBy_curWave, h.env]
    rfl

/-- Elements that never raise a condition are written whatever is enabled. -/
theorem completesElements_of_float {n : Nat} {g : Nat → Nat → Nat}
    (h : CompletesFloat s u i d n (fun l k => plain (g l k))) : CompletesElements s u i d n g :=
  fun hi => h hi fun _ _ _ _ => Nat.zero_and _

end Completes

/-! ## The sign bit (R233) -/

theorem elem_pos (t : Ty) : 0 < t.elem := by
  cases t <;> decide

theorem element_lt (t : Ty) (k x : Nat) : element t k x < 2 ^ t.elem := Nat.mod_lt _ (Nat.two_pow_pos _)

/-- To turn the uppermost bit is to add it. -/
theorem xor_two_pow_eq_add {x k : Nat} (hx : x < 2 ^ (k + 1)) : x ^^^ 2 ^ k = (x + 2 ^ k) % 2 ^ (k + 1) := by
  have hp : 0 < 2 ^ k := Nat.two_pow_pos k
  have hdiv : (x ^^^ 2 ^ k) / 2 ^ k = x / 2 ^ k ^^^ 1 := by rw [Nat.xor_div_two_pow, Nat.div_self hp]
  have hmod : (x ^^^ 2 ^ k) % 2 ^ k = x % 2 ^ k := by rw [Nat.xor_mod_two_pow, Nat.mod_self, Nat.xor_zero]
  rw [← Nat.div_add_mod (x ^^^ 2 ^ k) (2 ^ k), hdiv, hmod]
  have hsum := Nat.div_add_mod x (2 ^ k)
  have hr := Nat.mod_lt x hp
  rw [Nat.pow_succ] at hx ⊢
  generalize 2 ^ k = P at hx hp hsum hr ⊢
  obtain hq | hq := Nat.le_one_iff_eq_zero_or_eq_one.1 (Nat.le_of_lt_succ (Nat.div_lt_of_lt_mul hx))
  · rw [hq] at hsum ⊢
    rw [Nat.mod_eq_of_lt (b := P * 2) (by omega), Nat.zero_xor]
    omega
  · rw [hq] at hsum ⊢
    have hwrap : x + P = x % P + P * 2 := by omega
    rw [hwrap, Nat.add_mod_right, Nat.mod_eq_of_lt (b := P * 2) (by omega), Nat.xor_self]
    omega

/-- Settles O10: each instruction is one by element, whose operands read after issue as before; the operations on bits raise
nothing. -/
theorem floatArithmetic : Obligations.FloatArithmetic := by
  unfold Obligations.FloatArithmetic
  refine ⟨fun s u d a b c p q r => ?_, fun s u d a p => ?_⟩
  · intro w f v n A B B4 C
    exact ⟨completesFloat_elems3 (fun t => fAdd (fmtOf t)) rfl, completesFloat_elems3 (fun t => fSub (fmtOf t)) rfl,
      completesFloat_elems3 (fun t => fMul (fmtOf t)) rfl,
      completesFloat_elems3 (fun t v => fMinMax (fmtOf t) v false) rfl,
      completesFloat_elems3 (fun t v => fMinMax (fmtOf t) v true) rfl,
      completesFloat_elems3 (fun t v x y => fScale (fmtOf t) v x (toSigned (min t.elem 32) y)) rfl,
      completesFloat_elems2 (fun t => fFract (fmtOf t)) rfl,
      completesFloat_elems2 (fun t v => fRnd (fmtOf t) v (match r with
        | .gmode => v.rm
        | .rz => 1
        | .up => 2
        | .down => 3)) rfl,
      completesFloat_elems4 (fun t v => fMadd (fmtOf t) v false false) rfl,
      completesFloat_elems4 (fun t v => fMadd (fmtOf t) v false true) rfl,
      completesFloat_elems4 (fun t v => fMadd (fmtOf t) v true false) rfl,
      completesFloat_elems4 (fun t => fLerp (fmtOf t)) rfl, completesFloat_elems4 clampElem rfl,
      completesFloat_elems2 satElem rfl⟩
  · intro e n
    have hneg : ∀ l k, src u p a l k ^^^ 2 ^ (e - 1) = (src u p a l k + 2 ^ (e - 1)) % 2 ^ e := fun l k => by
      have he : e = e - 1 + 1 := (Nat.sub_add_cancel (elem_pos _)).symm
      rw [xor_two_pow_eq_add (he ▸ element_lt _ _ _), ← he]
    refine ⟨completesElements_of_float ?_, ?_, ?_⟩
    · simp only [← hneg]
      exact completesFloat_elems2 (fun t _ x => plain (x ^^^ 2 ^ (t.elem - 1))) rfl
    · exact completesElements_of_float (completesFloat_elems2 (fun t _ x => plain (x % 2 ^ (t.elem - 1))) rfl)
    · have hexec : exec (.fclass d p a) s = s.laneOp (.fclass d p a) d 1 [(a, s.curWave.vcount, p)]
          (fun w l => byElems w.ty (fun x _ _ => plain (fClass (fmtOf w.ty) x)) (w.valP p a l) 0 0) := rfl
      exact completesElements_of_float (completesFloat_laneOp (g := fun x _ _ => plain (fClass (fmtOf u.curWave.ty) x))
        (x := u.curWave.valP p a) (y := fun _ => 0) (z := fun _ => 0) hexec (.inl rfl) (fun _ => rfl) fun _ => by
        rw [State.issuedBy_curWave]
        rfl)

end Sys2Proof.Proofs

/-! PROOFS. The ARITH trap (08/R184): a record's captured sources lie beyond its header, so what parks an issued wave is read
back from the header; a reduction's conditions are those of its steps, lane by lane. -/

namespace Sys2Proof.Proofs

open Sys2Proof.Machine

open Sys2Proof.Safety

/-! ## Records (R325, R327) -/

theorem captureAt_ge (i l : Nat) : 0x100 ≤ captureAt i l := by
  unfold captureAt
  split
  · omega
  · split <;> omega

/-- Captured registers are put beyond the header's words. -/
theorem get_putSources {n : Nat} (hn : n < 32) (srcs : List (List (Nat × Word × Mark))) (ws : Sparse Dword) (i : Nat) :
    Sparse.get 0 (putSources ws i srcs) n = Sparse.get 0 ws n := by
  have hrow : ∀ (r : List (Nat × Word × Mark)) (ws : Sparse Dword) (i : Nat),
      Sparse.get 0 (r.foldl (fun acc x => putHalf acc (captureAt i x.1) x.2.1) ws) n = Sparse.get 0 ws n := by
    intro r ws i
    induction r generalizing ws with
    | nil => rfl
    | cons x r ih =>
      have hx := captureAt_ge i x.1
      exact (ih _).trans (Sparse.get_put_other 0 ws _ (by omega))
  induction srcs generalizing ws i with
  | nil => rfl
  | cons r rest ih => exact (ih _ _).trans (hrow r ws i)

/-! ## The wave parks (R42, R184) -/

/-- An issued instruction that traps parks its wave at itself. -/
theorem parkArith_parksIssued (u : State) (i : Instr) (int : Bool) (f : Nat → Res) :
    ParksIssued u ((u.issuedBy i).parkArith i int f) i 9
      (dw (maskOf u.curWave.width (fun l => u.curWave.active l && (f l).2 &&& u.curWave.te != 0)))
      (arithInfo int u.curWave.te (u.curWave.conds f)) := by
  have hpc : (u.issuedBy i).curWave.pc - 4 = u.curWave.pc := by
    rw [State.issuedBy_curWave, Wave.issued_pc]
    exact BitVec.add_sub_cancel ..
  refine ⟨State.wave_setWave_same .., rfl, _, rfl, rfl, State.issuedBy_cur .., rfl, ?_, ?_, ?_⟩
  · exact (get_putSources (by decide) _ _ _).trans hpc
  · refine (get_putSources (by decide) _ _ _).trans ?_
    rw [State.issuedBy_curWave]
    rfl
  · refine (get_putSources (by decide) _ _ _).trans ?_
    rw [State.issuedBy_curWave]
    rfl

theorem conds_congr {w : Wave} {f g : Nat → Res} (h : ∀ l, w.active l = true → (f l).2 = (g l).2) : w.conds f = w.conds g :=
  List.foldl_ext _ _ _ fun acc l hl => by rw [h l (mem_lanes.1 hl)]

section Parks
variable {s u : State} {i : Instr} {d a b c : Reg} {p q : Sel} {int : Bool} {r : Nat → Res}

/-- An instruction whose effect, where an enabled condition is raised, is the trap with the conditions that r gives. -/
theorem parksArith_of_issue {body : State → State} (f : Nat → Res) (he : exec i s = s.issue i body)
    (hf : s.curWave.Spans u.curWave → ∀ l, u.curWave.active l = true → (f l).2 = (r l).2)
    (hb : s.curWave.Spans u.curWave → u.curWave.conds f &&& u.curWave.te ≠ 0 →
      body (u.issuedBy i) = (u.issuedBy i).parkArith i int f) : ParksArith s u i int r := by
  intro h hon
  have hspans := issues_curWave h
  have hconds : u.curWave.conds f = u.curWave.conds r := conds_congr (hf hspans)
  have hmask : ∀ l, (u.curWave.active l && (r l).2 &&& u.curWave.te != 0) =
      (u.curWave.active l && (f l).2 &&& u.curWave.te != 0) := by
    intro l
    by_cases hl : u.curWave.active l = true
    · rw [hf hspans l hl]
    · simp [hl]
  refine ⟨_, (he.trans (issue_next h)).trans (congrArg _ (hb hspans (hconds ▸ hon))), ?_⟩
  have hparks := parkArith_parksIssued u i int f
  rw [hconds] at hparks
  simp only [hmask]
  exact hparks

/-- A lane instruction. -/
theorem parksArith_laneOp {n : Nat} {srcs : List Src} {F : Wave → Nat → Res} (he : exec i s = s.laneOp i d n srcs F)
    (hF : s.curWave.Spans u.curWave → F (u.issuedBy i).curWave = r) : ParksArith s u i false r := by
  refine parksArith_of_issue r he (fun _ _ _ => rfl) fun hspans hon => ?_
  have hissued : (u.issuedBy i).curWave.conds r &&& (u.issuedBy i).curWave.te ≠ 0 := by
    rw [State.issuedBy_curWave]
    exact hon
  simp only [State.laneWrite, hF hspans]
  exact if_pos hissued

theorem parksArith_elems3 (f : Ty → Env → Nat → Nat → Res)
    (he : exec i s = s.elems3 i d p a q b (fun t x y => f t s.curWave.env x y)) :
    ParksArith s u i false (fun l => byElems u.curWave.ty (fun x y _ => f u.curWave.ty u.curWave.env x y)
      (u.curWave.valP p a l) (u.curWave.valP q b l) 0) :=
  parksArith_laneOp he fun h => by
    rw [State.issuedBy_curWave, h.env]
    rfl

theorem parksArith_elems2 (f : Ty → Env → Nat → Res) (he : exec i s = s.elems2 i d p a (fun t x => f t s.curWave.env x)) :
    ParksArith s u i false (fun l => byElems u.curWave.ty (fun x _ _ => f u.curWave.ty u.curWave.env x)
      (u.curWave.valP p a l) 0 0) :=
  parksArith_laneOp he fun h => by
    rw [State.issuedBy_curWave, h.env]
    rfl

theorem parksArith_elems4 (f : Ty → Env → Nat → Nat → Nat → Res)
    (he : exec i s = s.elems4 i d a b c p (fun t x y z => f t s.curWave.env x y z)) :
    ParksArith s u i false (fun l => byElems u.curWave.ty (f u.curWave.ty u.curWave.env)
      (u.curWave.valP p a l) (u.curWave.val b l) (u.curWave.val c l)) :=
  parksArith_laneOp he fun h => by
    rw [State.issuedBy_curWave, h.env]
    rfl

/-- A lane instruction whose value reads nothing that issue changes. -/
theorem parksArith_ofWave {n : Nat} {srcs : List Src} (F : Wave → Nat → Res) (he : exec i s = s.laneOp i d n srcs F)
    (hF : ∀ o x op, F (u.curWave.issued o x op) = F u.curWave) : ParksArith s u i false (F u.curWave) :=
  parksArith_laneOp he fun _ => by rw [State.issuedBy_curWave, hF]

/-- A long-latency instruction traps when it issues (log 70). -/
theorem parksArith_longOp {srcs : List Reg} (F : Wave → Nat → Res) (he : exec i s = s.longOp i d srcs int F)
    (hF : ∀ o x op, F (u.curWave.issued o x op) = F u.curWave) : ParksArith s u i int (F u.curWave) := by
  refine parksArith_of_issue (F u.curWave) he (fun _ _ _ => rfl) fun _ hon => ?_
  have hwave : F (u.issuedBy i).curWave = F u.curWave := by rw [State.issuedBy_curWave, hF]
  have hissued : (u.issuedBy i).curWave.conds (F u.curWave) &&& (u.issuedBy i).curWave.te ≠ 0 := by
    rw [State.issuedBy_curWave]
    exact hon
  simp only [hwave]
  exact if_pos hissued

end Parks

/-! ## Reductions and scans (R243) -/

/-- What lane l's step of a reduction gives, ms being the lanes before it: the first lane takes its own value, without a
step. -/
def redAt (step : Nat → Nat → Res) (val : Nat → Nat) (ms : List Nat) (l : Nat) : Res :=
  match ms with
  | [] => (0, 0)
  | m :: rest => step (rest.foldl (fun x n => (step x n).1) (val m)) l

section Reduce
variable (t : Ty) (v : Env) (op : RedOp) (val : Nat → Nat)

/-- One lane's step. -/
def redStep (x l : Nat) : Res := byElems t (fun y z _ => redElem t v op y z) x (val l) 0

theorem redRun_find_some {l : Nat} {pre post : List Nat} (hl : l ∉ pre) (x ident : Nat) :
    ((redRun t v op val (pre ++ l :: post) (some x) ident).find? (fun e => e.1 == l)).map (fun e => e.2.2.2) =
      some (redStep t v op val (pre.foldl (fun x n => (redStep t v op val x n).1) x) l).2 := by
  induction pre generalizing x with
  | nil => simp [redRun, redStep]
  | cons m rest ih =>
    obtain ⟨hm, hrest⟩ := not_or.1 (mt List.mem_cons.2 hl)
    simp only [List.cons_append, redRun, List.find?_cons, beq_eq_false_iff_ne.2 (Ne.symm hm)]
    exact ih hrest _

/-- The condition that a run lists for a lane is that of the lane's step. -/
theorem redRun_find_none {l : Nat} {pre post : List Nat} (hl : l ∉ pre) (ident : Nat) :
    ((redRun t v op val (pre ++ l :: post) none ident).find? (fun e => e.1 == l)).map (fun e => e.2.2.2) =
      some (redAt (redStep t v op val) val pre l).2 := by
  cases pre with
  | nil => simp [redRun, redAt]
  | cons m rest =>
    obtain ⟨hm, hrest⟩ := not_or.1 (mt List.mem_cons.2 hl)
    simp only [List.cons_append, redRun, List.find?_cons, beq_eq_false_iff_ne.2 (Ne.symm hm)]
    exact redRun_find_some t v op val hrest _ _

end Reduce

/-- The active lanes before one of them are the lanes that the list has before it. -/
theorem lanes_split {w : Wave} {l : Nat} (hl : w.active l = true) :
    ∃ post, w.lanes = w.lanes.filter (fun m => m < l) ++ l :: post ∧ l ∉ w.lanes.filter (fun m => m < l) := by
  obtain ⟨pre, post, hsplit⟩ := List.append_of_mem (mem_lanes.2 hl)
  have hsorted : w.lanes.Pairwise (· < ·) := List.pairwise_lt_range.filter _
  rw [hsplit, List.pairwise_append] at hsorted
  obtain ⟨-, hpost, hpre⟩ := hsorted
  have hbefore : w.lanes.filter (fun m => m < l) = pre := by
    rw [hsplit, List.filter_append, List.filter_eq_self.2 fun m hm => decide_eq_true (hpre m hm l List.mem_cons_self),
      List.filter_eq_nil_iff.2, List.append_nil]
    intro m hm
    rcases List.mem_cons.1 hm with rfl | hm
    · simp
    · have := List.rel_of_pairwise_cons hpost hm
      simp only [decide_eq_true_eq]
      omega
  refine ⟨post, by rw [hbefore, hsplit], fun hmem => ?_⟩
  simpa using (List.mem_filter.1 hmem).2

/-- What a reduction of the wave's lanes lists for a lane: the value before it, the value after it, and its condition. -/
def redOf (w : Wave) (a : Reg) (p : Sel) (op : RedOp) (l : Nat) : Nat × Nat × Nat :=
  (((redRun w.ty w.env op (w.valP p a) w.lanes none (redStart w.ty op)).find? (fun x => x.1 == l)).map (fun x => x.2)).getD
    (0, 0, 0)

/-- The value after its last lane. -/
def redLast (w : Wave) (a : Reg) (p : Sel) (op : RedOp) : Nat :=
  ((redRun w.ty w.env op (w.valP p a) w.lanes none (redStart w.ty op)).getLast?.map (fun x => x.2.2.1)).getD 0

theorem redOf_cond {w : Wave} (a : Reg) (p : Sel) (op : RedOp) {l : Nat} (hl : w.active l = true) :
    (redOf w a p op l).2.2 =
      (redAt (redStep w.ty w.env op (w.valP p a)) (w.valP p a) (w.lanes.filter (fun m => m < l)) l).2 := by
  obtain ⟨post, hsplit, hnot⟩ := lanes_split hl
  have hfind := redRun_find_none w.ty w.env op (w.valP p a) (post := post) hnot (redStart w.ty op)
  rw [← hsplit] at hfind
  obtain ⟨e, hfound, hcond⟩ := Option.map_eq_some_iff.1 hfind
  rw [redOf, hfound]
  exact hcond

theorem parksArith_reduce {s u : State} {i : Instr} {d a : Reg} {p : Sel} {op : RedOp} {pick : Nat × Nat × Nat → Nat}
    {from_ : Nat → Nat → Bool} (he : exec i s = s.reduce i d p a op pick from_) :
    ParksArith s u i false (fun l => redAt (redStep u.curWave.ty u.curWave.env op (u.curWave.valP p a)) (u.curWave.valP p a)
      (u.curWave.lanes.filter (fun m => m < l)) l) := by
  refine parksArith_of_issue (fun l => (pick ((redOf u.curWave a p op l).1, (redOf u.curWave a p op l).2.1,
    redLast u.curWave a p op), (redOf u.curWave a p op l).2.2)) he (fun _ l hl => redOf_cond a p op hl) fun _ hon => ?_
  simp only [State.issuedBy_curWave]
  exact if_pos hon

/-- Settles O13: every instruction named is an issue whose effect tests the conditions that its active lanes raise before it
writes anything. -/
theorem arithTrap : Obligations.ArithTrap := by
  unfold Obligations.ArithTrap
  refine ⟨fun s u d a b c p q m => ?_, fun s u d a b c p q ty rz kd k => ?_, fun s u d a p op excl => ?_,
    fun s u d a b la => ?_⟩
  · intro w f v on A B B4 C nought
    exact ⟨parksArith_elems3 (fun t => fAdd (fmtOf t)) rfl, parksArith_elems3 (fun t => fSub (fmtOf t)) rfl,
      parksArith_elems3 (fun t => fMul (fmtOf t)) rfl,
      parksArith_elems3 (fun t v => fMinMax (fmtOf t) v false) rfl,
      parksArith_elems3 (fun t v => fMinMax (fmtOf t) v true) rfl,
      parksArith_elems3 (fun t v x y => fScale (fmtOf t) v x (toSigned (min t.elem 32) y)) rfl,
      parksArith_elems2 (fun t => fFract (fmtOf t)) rfl,
      parksArith_elems2 (fun t v => fRnd (fmtOf t) v (match m with
        | .gmode => v.rm
        | .rz => 1
        | .up => 2
        | .down => 3)) rfl,
      parksArith_elems2 satElem rfl,
      parksArith_elems4 (fun t v => fMadd (fmtOf t) v false false) rfl,
      parksArith_elems4 (fun t v => fMadd (fmtOf t) v false true) rfl,
      parksArith_elems4 (fun t v => fMadd (fmtOf t) v true false) rfl,
      parksArith_elems4 (fun t => fLerp (fmtOf t)) rfl, parksArith_elems4 clampElem rfl⟩
  · intro w A B
    refine ⟨parksArith_ofWave
        (fun w l => cvtVal w.ty ty (if rz then w.env.withRm 1 else w.env) (w.valP p a l)) rfl fun _ _ _ => rfl,
      parksArith_ofWave (fun w l => packVal w.ty w.env (w.valP p a l) (w.valP q b l)) rfl fun _ _ _ => rfl,
      parksArith_ofWave (fun w l => unpkVal w.ty w.env (w.valP p a l) (w.valP q b l)) rfl fun _ _ _ => rfl,
      parksArith_ofWave (fun w l => fDot2 (fmtOf w.ty) w.env (bits (w.valP p a l) 0 16) (bits (w.valP p a l) 16 16)
        (bits (w.val b l) 0 16) (bits (w.val b l) 16 16) (w.v c l).toNat) rfl fun _ _ _ => rfl,
      parksArith_of_issue _ (show _ = execFcmp k kd p a q b s from rfl) (fun _ _ _ => rfl) fun _ hon => ?_⟩
    simp only [State.issuedBy_curWave]
    exact if_pos hon
  · intro w A step before r
    have hr : r = fun l => redAt (redStep w.ty w.env op A) A (before l) l := by
      funext l
      simp only [r]
      cases before l <;> rfl
    rw [hr]
    exact ⟨parksArith_reduce (show _ = execWred d p a op s from rfl),
      parksArith_reduce (show _ = execWscan d p a op excl s from rfl)⟩
  · intro w f v n on one
    have hone : ∀ (f : Fmt → Env → Nat → Nat → Res) (i : Instr), exec i s = s.long1 i d a f → ParksArith s u i false
        (fun l => byElems w.ty (fun x _ _ => f (fmtOf w.ty) w.env w.ty.toNat x) (w.val a l) 0 0) :=
      fun f i he => parksArith_longOp
        (fun w l => byElems w.ty (fun x _ _ => f (fmtOf w.ty) w.env w.ty.toNat x) (w.val a l) 0 0) he fun _ _ _ => rfl
    exact ⟨parksArith_longOp
        (fun w l => byElems w.ty (fun x y _ => fDiv (fmtOf w.ty) w.env x y) (w.val a l) (w.val b l) 0) rfl fun _ _ _ => rfl,
      hone (fun f v _ x => fSqrt f v x) _ rfl, hone fRcp _ rfl, hone fRsq _ rfl, hone fExp2 _ rfl, hone fLog2 _ rfl,
      hone (fTrig false) _ rfl, hone (fTrig true) _ rfl,
      parksArith_longOp
        (fun w l => byElems w.ty (fun x y _ => intDiv w.ty false x y) (w.val a l) (w.val b l) 0) rfl fun _ _ _ => rfl,
      parksArith_longOp
        (fun w l => byElems w.ty (fun x y _ => intDiv w.ty true x y) (w.val a l) (w.val b l) 0) rfl fun _ _ _ => rfl⟩

end Sys2Proof.Proofs

/-! PROOFS. Rounding among multiples (08/R177): what roundOff and roundAt make of a number among the multiples of a unit, the
magnitudes of codes as multiples of the smallest subnormal, and why the rounded multiple is the best of them. -/

namespace Sys2Proof.Proofs

open Sys2Proof.Machine

/-! ## Directions (R177) -/

/-- Magnitudes round up. -/
abbrev RoundsUp (rm : Nat) (neg : Bool) : Prop := rm = 2 ∧ neg = false ∨ rm = 3 ∧ neg = true

/-- Magnitudes round down. -/
abbrev RoundsDown (rm : Nat) (neg : Bool) : Prop := rm = 1 ∨ rm = 2 ∧ neg = true ∨ rm = 3 ∧ neg = false

/-- r × u is the multiple of u that the mode asks for x. -/
structure Rounds (rm : Nat) (neg : Bool) (x u r : Nat) : Prop where
  up : RoundsUp rm neg → x ≤ r * u ∧ r * u < x + u
  down : RoundsDown rm neg → r * u ≤ x ∧ x < r * u + u
  near : rm = 0 ∨ rm = 4 → 2 * (r * u) ≤ 2 * x + u ∧ 2 * x ≤ 2 * (r * u) + u
  even : rm = 0 → 2 * (r * u) = 2 * x + u ∨ 2 * x = 2 * (r * u) + u → r % 2 = 0
  away : rm = 4 → 2 * x ≠ 2 * (r * u) + u

theorem mode_cases {rm : Nat} (neg : Bool) (h : rm ≤ 4) :
    RoundsUp rm neg ∨ RoundsDown rm neg ∨ (¬ RoundsUp rm neg ∧ ¬ RoundsDown rm neg ∧ (rm = 0 ∨ rm = 4)) := by
  interval_cases rm <;> cases neg <;> decide

theorem not_down_of_up {rm : Nat} {neg : Bool} (h : RoundsUp rm neg) : ¬ RoundsDown rm neg := by
  rcases h with ⟨rfl, rfl⟩ | ⟨rfl, rfl⟩ <;> simp

/-! ## The multiple of a unit -/

section Rounds
variable {rm : Nat} {neg : Bool} {x u r : Nat}

theorem Rounds.of_exact (hu : 0 < u) (h : r * u = x) : Rounds rm neg x u r where
  up _ := by omega
  down _ := by omega
  near _ := by omega
  even _ := by omega
  away _ := by omega

theorem Rounds.scale (h : Rounds rm neg x u r) {k : Nat} (hk : 0 < k) : Rounds rm neg (x * k) (u * k) r where
  up hm := by
    have := h.up hm
    constructor <;> nlinarith
  down hm := by
    have := h.down hm
    constructor <;> nlinarith
  near hm := by
    have := h.near hm
    constructor <;> nlinarith
  even hm ht := h.even hm (by
    refine ht.imp (fun e => ?_) fun e => ?_
    · exact Nat.eq_of_mul_eq_mul_right hk (by linarith)
    · exact Nat.eq_of_mul_eq_mul_right hk (by linarith))
  away hm ht := h.away hm (Nat.eq_of_mul_eq_mul_right hk (by linarith))

theorem Rounds.le_of_le (h : Rounds rm neg x u r) (hrm : rm ≤ 4) (hu : 0 < u) {k : Nat} (hk : x ≤ k * u) : r ≤ k := by
  by_contra hlt
  have hmul : k * u + u ≤ r * u := by
    rw [← Nat.add_one_mul]
    exact Nat.mul_le_mul_right u (by omega)
  rcases mode_cases neg hrm with hm | hm | ⟨-, -, hm⟩
  · have := h.up hm
    omega
  · have := h.down hm
    omega
  · have := h.near hm
    omega

theorem Rounds.ge_of_le (h : Rounds rm neg x u r) (hrm : rm ≤ 4) (hu : 0 < u) {k : Nat} (hk : k * u ≤ x) : k ≤ r := by
  by_contra hlt
  have hmul : r * u + u ≤ k * u := by
    rw [← Nat.add_one_mul]
    exact Nat.mul_le_mul_right u (by omega)
  rcases mode_cases neg hrm with hm | hm | ⟨-, -, hm⟩
  · have := h.up hm
    omega
  · have := h.down hm
    omega
  · have := h.near hm
    omega

end Rounds

section RoundOff
variable {rm : Nat} {neg : Bool} (m s : Nat)

theorem roundOff_up (h : RoundsUp rm neg) :
    (roundOff rm neg m s).1 = if m % 2 ^ s = 0 then m / 2 ^ s else m / 2 ^ s + 1 := by
  rcases h with ⟨rfl, rfl⟩ | ⟨rfl, rfl⟩ <;> simp [roundOff]

theorem roundOff_down (h : RoundsDown rm neg) : (roundOff rm neg m s).1 = m / 2 ^ s := by
  rcases h with rfl | ⟨rfl, rfl⟩ | ⟨rfl, rfl⟩ <;> simp [roundOff]

theorem roundOff_even : (roundOff 0 neg m s).1 =
    if 2 ^ s < 2 * (m % 2 ^ s) ∨ 2 * (m % 2 ^ s) = 2 ^ s ∧ m / 2 ^ s % 2 = 1 ∧ m % 2 ^ s ≠ 0 then m / 2 ^ s + 1
    else m / 2 ^ s := by
  simp [roundOff]

theorem roundOff_away : (roundOff 4 neg m s).1 =
    if 2 ^ s ≤ 2 * (m % 2 ^ s) ∧ m % 2 ^ s ≠ 0 then m / 2 ^ s + 1 else m / 2 ^ s := by
  simp [roundOff]

theorem roundOff_rounds : Rounds rm neg m (2 ^ s) (roundOff rm neg m s).1 := by
  have hu := Nat.two_pow_pos s
  have hsum := Nat.div_add_mod' m (2 ^ s)
  have hr := Nat.mod_lt m hu
  have hsucc := Nat.add_one_mul (m / 2 ^ s) (2 ^ s)
  constructor
  · intro h
    rw [roundOff_up m s h]
    split <;> omega
  · intro h
    rw [roundOff_down m s h]
    omega
  · rintro (rfl | rfl)
    · rw [roundOff_even]
      split <;> omega
    · rw [roundOff_away]
      split <;> omega
  · rintro rfl
    rw [roundOff_even]
    split <;> omega
  · rintro rfl
    rw [roundOff_away]
    split <;> omega

theorem roundOff_of_dvd (h : m % 2 ^ s = 0) : (roundOff rm neg m s).1 = m / 2 ^ s := by
  have hu := Nat.two_pow_pos s
  unfold roundOff
  simp only [h]
  split <;> simp

theorem roundOff_exact : (roundOff rm neg m s).2 = false ↔ (roundOff rm neg m s).1 * 2 ^ s = m := by
  have hchanged : (roundOff rm neg m s).2 = (m % 2 ^ s != 0) := rfl
  rw [hchanged, bne_eq_false_iff_eq]
  refine ⟨fun h => ?_, fun h => ?_⟩
  · rw [roundOff_of_dvd m s h, Nat.div_mul_cancel (Nat.dvd_of_mod_eq_zero h)]
  · rw [← h, Nat.mul_mod_left]

/-- A unit above twice the number rounds it as any other such unit does. -/
theorem roundOff_small {s' : Nat} (h : 2 * m < 2 ^ s) (h' : 2 * m < 2 ^ s') : roundOff rm neg m s = roundOff rm neg m s' := by
  have hdiv : ∀ k, 2 * m < 2 ^ k → m / 2 ^ k = 0 ∧ m % 2 ^ k = m := fun k hk =>
    ⟨Nat.div_eq_of_lt (by omega), Nat.mod_eq_of_lt (by omega)⟩
  unfold roundOff
  simp only [hdiv s h, hdiv s' h', show ¬ 2 * m > 2 ^ s by omega, show ¬ 2 * m > 2 ^ s' by omega,
    show ¬ 2 * m ≥ 2 ^ s by omega, show ¬ 2 * m ≥ 2 ^ s' by omega, show 2 * m ≠ 2 ^ s by omega, show 2 * m ≠ 2 ^ s' by omega,
    false_and, or_self]

end RoundOff

/-! ## Rounding at an exponent -/

section RoundAt
variable (rm : Nat) (neg : Bool) {m : Nat} {e q b : Int}

/-- A number m × 2^e in multiples of 2^b. -/
def scaled (m : Nat) (e b : Int) : Nat := m * 2 ^ (e - b).toNat

theorem roundAt_of_le (h : q ≤ e) : roundAt rm neg m e q = (m * 2 ^ (e - q).toNat, false) := if_pos h

theorem roundAt_of_lt (h : e < q) : roundAt rm neg m e q = roundOff rm neg m (q - e).toNat := by
  rw [roundAt, if_neg (by omega), show (q - e).toNat.min (m.log2 + 3) = min (q - e).toNat (m.log2 + 3) from rfl]
  by_cases hs : (q - e).toNat ≤ m.log2 + 3
  · rw [Nat.min_eq_left hs]
  · rw [Nat.min_eq_right (by omega)]
    have hm : m < 2 ^ (m.log2 + 1) := Nat.lt_log2_self
    have hsmall : 2 * m < 2 ^ (m.log2 + 3) := by
      rw [Nat.pow_succ, Nat.pow_succ]
      omega
    exact roundOff_small m _ hsmall (hsmall.trans (Nat.pow_lt_pow_right (by decide) (by omega)))

theorem two_pow_sub_split {x y z : Int} (h : x ≤ y) (h' : y ≤ z) :
    2 ^ (z - x).toNat = 2 ^ (z - y).toNat * 2 ^ (y - x).toNat := by
  rw [← Nat.pow_add]
  congr 1
  omega

theorem roundAt_rounds (he : b ≤ e) (hq : b ≤ q) :
    Rounds rm neg (scaled m e b) (2 ^ (q - b).toNat) (roundAt rm neg m e q).1 ∧
      ((roundAt rm neg m e q).2 = false ↔ (roundAt rm neg m e q).1 * 2 ^ (q - b).toNat = scaled m e b) := by
  unfold scaled
  by_cases h : q ≤ e
  · rw [roundAt_of_le rm neg h]
    have hx : m * 2 ^ (e - q).toNat * 2 ^ (q - b).toNat = m * 2 ^ (e - b).toNat := by
      rw [two_pow_sub_split hq h, Nat.mul_assoc]
    exact ⟨Rounds.of_exact (Nat.two_pow_pos _) hx, fun _ => hx, fun _ => rfl⟩
  · rw [roundAt_of_lt rm neg (by omega), two_pow_sub_split he (show e ≤ q by omega)]
    have hpos := Nat.two_pow_pos (e - b).toNat
    refine ⟨(roundOff_rounds m _).scale hpos, (roundOff_exact m _).trans ?_⟩
    rw [← Nat.mul_assoc, Nat.mul_left_inj hpos.ne']

end RoundAt

/-! ## Codes as magnitudes (R175) -/

/-- The magnitude of a finite code of M significand bits, as a multiple of the smallest subnormal. -/
def mag (M c : Nat) : Nat := if c / 2 ^ M = 0 then c else (2 ^ M + c % 2 ^ M) * 2 ^ (c / 2 ^ M - 1)

section Mag
variable {M : Nat}

theorem mag_subnormal {c : Nat} (h : c < 2 ^ M) : mag M c = c := if_pos (Nat.div_eq_of_lt h)

theorem mag_normal {r : Nat} (k : Nat) (h : r < 2 ^ M) : mag M ((k + 1) * 2 ^ M + r) = (2 ^ M + r) * 2 ^ k := by
  have hdiv : ((k + 1) * 2 ^ M + r) / 2 ^ M = k + 1 := by
    rw [Nat.mul_comm, Nat.mul_add_div (Nat.two_pow_pos M), Nat.div_eq_of_lt h, Nat.add_zero]
  rw [mag, hdiv, if_neg (by omega), Nat.mul_add_mod_self_right, Nat.mod_eq_of_lt h, Nat.add_sub_cancel]

theorem mag_two_pow : mag M (2 ^ M) = 2 ^ M := by
  have h := mag_normal (M := M) 0 (Nat.two_pow_pos M)
  simpa using h

/-- A code is a subnormal, or a normal of some exponent. -/
theorem code_cases (M c : Nat) : c < 2 ^ M ∨ ∃ k r, r < 2 ^ M ∧ c = (k + 1) * 2 ^ M + r := by
  rcases Nat.lt_or_ge c (2 ^ M) with h | h
  · exact .inl h
  · have hpos := Nat.two_pow_pos M
    have hdiv : 1 ≤ c / 2 ^ M := (Nat.one_le_div_iff hpos).2 h
    exact .inr ⟨c / 2 ^ M - 1, c % 2 ^ M, Nat.mod_lt _ hpos, by rw [Nat.sub_add_cancel hdiv, Nat.div_add_mod']⟩

theorem mag_lt_succ (c : Nat) : mag M c < mag M (c + 1) := by
  rcases code_cases M c with h | ⟨k, r, hr, rfl⟩
  · rw [mag_subnormal h]
    rcases Nat.lt_or_ge (c + 1) (2 ^ M) with h' | h'
    · rw [mag_subnormal h']
      exact Nat.lt_succ_self c
    · rw [show c + 1 = 2 ^ M by omega, mag_two_pow]
      exact h
  · have hpos := Nat.two_pow_pos k
    rw [mag_normal k hr]
    rcases Nat.lt_or_ge (r + 1) (2 ^ M) with h' | h'
    · rw [Nat.add_assoc, mag_normal k h']
      exact Nat.mul_lt_mul_of_pos_right (by omega) hpos
    · have hnext : (k + 1) * 2 ^ M + r + 1 = (k + 1 + 1) * 2 ^ M + 0 := by
        rw [Nat.add_one_mul (k + 1)]
        omega
      rw [hnext, mag_normal (k + 1) (Nat.two_pow_pos M), Nat.pow_succ, Nat.mul_comm (2 ^ k), ← Nat.mul_assoc]
      exact Nat.mul_lt_mul_of_pos_right (by omega) hpos

theorem mag_strictMono (M : Nat) : StrictMono (mag M) := strictMono_nat_of_lt_succ mag_lt_succ

/-- At a unit and an exponent, a code lies below the binade that has that unit, or is a multiple of the unit. -/
theorem mag_below_or_multiple (c w n : Nat) :
    mag M c * 2 ^ w < 2 ^ M * 2 ^ n ∨ ∃ k, mag M c * 2 ^ w = k * 2 ^ n := by
  have hform : ∃ k j, mag M c = k * 2 ^ j ∧ k < 2 * 2 ^ M := by
    rcases code_cases M c with h | ⟨k, r, hr, rfl⟩
    · exact ⟨c, 0, by rw [mag_subnormal h, Nat.pow_zero, Nat.mul_one], by omega⟩
    · exact ⟨2 ^ M + r, k, mag_normal k hr, by omega⟩
  obtain ⟨k, j, hk, hlt⟩ := hform
  rw [hk, Nat.mul_assoc, ← Nat.pow_add]
  rcases Nat.lt_or_ge (j + w) n with h | h
  · left
    calc k * 2 ^ (j + w) < 2 * 2 ^ M * 2 ^ (j + w) := Nat.mul_lt_mul_of_pos_right hlt (Nat.two_pow_pos _)
      _ = 2 ^ M * 2 ^ (j + w + 1) := by rw [Nat.pow_succ, Nat.mul_comm 2, Nat.mul_assoc, Nat.mul_comm 2]
      _ ≤ 2 ^ M * 2 ^ n := Nat.mul_le_mul_left _ (Nat.pow_le_pow_right (by decide) h)
  · right
    exact ⟨k * 2 ^ (j + w - n), by rw [Nat.mul_assoc, ← Nat.pow_add, Nat.sub_add_cancel h]⟩

end Mag

/-! ## The rounded value among the codes -/

section Best
variable {rm : Nat} {neg : Bool} {x u r l y : Nat}

/-- Distance of two numbers. -/
def far (y z : Nat) : Nat := (y - z) + (z - y)

theorem Rounds.best_up (h : Rounds rm neg x u r) (hm : RoundsUp rm neg) (hl : l * u ≤ x)
    (hy : y < l * u ∨ ∃ k, y = k * u) (hxy : x ≤ y) : r * u ≤ y := by
  have hr := (h.up hm).2
  rcases hy with hy | ⟨k, rfl⟩
  · omega
  · have hlt : r * u < (k + 1) * u := by
      rw [Nat.add_one_mul]
      omega
    exact Nat.mul_le_mul_right u (Nat.lt_succ_iff.1 (Nat.lt_of_mul_lt_mul_right hlt))

theorem Rounds.best_down (h : Rounds rm neg x u r) (hm : RoundsDown rm neg) (hl : l * u ≤ x)
    (hy : y < l * u ∨ ∃ k, y = k * u) (hxy : y ≤ x) : y ≤ r * u := by
  have hr := (h.down hm).2
  have hmul : ∀ k, k * u ≤ x → k * u ≤ r * u := fun k hk => by
    have hlt : k * u < (r + 1) * u := by
      rw [Nat.add_one_mul]
      omega
    exact Nat.mul_le_mul_right u (Nat.lt_succ_iff.1 (Nat.lt_of_mul_lt_mul_right hlt))
  rcases hy with hy | ⟨k, rfl⟩
  · exact hy.le.trans (hmul l hl)
  · exact hmul k hxy

theorem Rounds.best_near (h : Rounds rm neg x u r) (hm : rm = 0 ∨ rm = 4) (hl : l * u ≤ x)
    (hy : y < l * u ∨ ∃ k, y = k * u) (hne : y ≠ r * u) : far x (r * u) < far x y ∨
      (far x (r * u) = far x y ∧ if rm = 0 then r % 2 = 0 else y ≤ r * u) := by
  have hr := h.near hm
  have hmul : ∀ k, k ≠ r → k * u + u ≤ r * u ∨ r * u + u ≤ k * u := fun k hk => by
    rw [← Nat.add_one_mul, ← Nat.add_one_mul]
    exact (Nat.lt_or_gt_of_ne hk).imp (Nat.mul_le_mul_right u) (Nat.mul_le_mul_right u)
  have hlow : y < l * u → far x (r * u) < far x y := fun hy => by
    unfold far
    by_cases hlr : l = r
    · subst hlr
      omega
    · have := hmul l hlr
      omega
  rcases hy with hy | ⟨k, rfl⟩
  · exact .inl (hlow hy)
  · have hk := hmul k fun e => hne (e ▸ rfl)
    by_cases hlt : far x (r * u) < far x (k * u)
    · exact .inl hlt
    · refine .inr ?_
      unfold far at hlt ⊢
      refine ⟨by omega, ?_⟩
      split
      · next h0 => exact h.even h0 (by omega)
      · next h0 =>
        have := h.away (hm.resolve_left h0)
        omega

end Best

/-! ## Thresholds (R177) -/

/-- x rounds to t or more, t being the end of a binade whose unit is g. -/
def Reaches (rm : Nat) (neg : Bool) (t g x : Nat) : Prop :=
  if RoundsUp rm neg then t < x + g else if RoundsDown rm neg then t ≤ x else 2 * t ≤ 2 * x + g

section Reaches
variable {rm : Nat} {neg : Bool} {x u r P : Nat}

theorem reaches_of_le (hu : 0 < u) {t : Nat} (h : t ≤ x) : Reaches rm neg t u x := by
  unfold Reaches
  split
  · omega
  · split <;> omega

theorem reaches_of_lt {t : Nat} (h : t < x) : Reaches rm neg t u x := by
  unfold Reaches
  split
  · omega
  · split <;> omega

theorem not_reaches_of_le (hu : 0 < u) {t : Nat} (h : x + u ≤ t) : ¬ Reaches rm neg t u x := by
  unfold Reaches
  split
  · omega
  · split <;> omega

/-- Within a binade of 2 × P multiples, carrying out of it is to reach its end. -/
theorem Rounds.carry_iff (h : Rounds rm neg x u r) (hrm : rm ≤ 4) (hu : 0 < u) (hx : x < 2 * P * u) :
    r = 2 * P ↔ Reaches rm neg (2 * P * u) u x := by
  have hmode := mode_cases neg hrm
  unfold Reaches
  rcases Nat.lt_trichotomy r (2 * P) with hr | rfl | hr
  · have hless : r * u + u ≤ 2 * P * u := by
      rw [← Nat.add_one_mul]
      exact Nat.mul_le_mul_right u hr
    refine iff_of_false hr.ne ?_
    rcases hmode with hm | hm | ⟨hnu, hnd, hm⟩
    · rw [if_pos hm]
      have := h.up hm
      omega
    · rw [if_neg fun hu => not_down_of_up hu hm, if_pos hm]
      omega
    · rw [if_neg hnu, if_neg hnd]
      intro hreach
      have hnear := h.near hm
      have htie : 2 * x = 2 * (r * u) + u := by omega
      have hnext : (r + 1) * u = 2 * P * u := by
        rw [Nat.add_one_mul]
        omega
      have hodd := Nat.eq_of_mul_eq_mul_right hu hnext
      rcases hm with h0 | h4
      · have := h.even h0 (.inr htie)
        omega
      · exact h.away h4 htie
  · refine iff_of_true rfl ?_
    rcases hmode with hm | hm | ⟨hnu, hnd, hm⟩
    · rw [if_pos hm]
      exact (h.up hm).2
    · rw [if_neg fun hu => not_down_of_up hu hm, if_pos hm]
      exact (h.down hm).1
    · rw [if_neg hnu, if_neg hnd]
      exact (h.near hm).1
  · have hmore : 2 * P * u + u ≤ r * u := by
      rw [← Nat.add_one_mul]
      exact Nat.mul_le_mul_right u hr
    rcases hmode with hm | hm | ⟨hnu, hnd, hm⟩
    · have := h.up hm
      omega
    · have := h.down hm
      omega
    · have := h.near hm
      omega

end Reaches

end Sys2Proof.Proofs

/-! PROOFS. What rnd answers (08/R177, R180) in the formats that have infinities: the exponent after rounding says whether a
result overflows or is tiny, and in between the code is the one that the mode asks for. -/

namespace Sys2Proof.Proofs

open Sys2Proof.Machine

/-! ## Formats with infinities (R175) -/

/-- A format of R175 other than E4M3. -/
structure Ieee (f : Fmt) : Prop where
  plain : f.e4m3 = false
  exp : 2 ≤ f.e
  sig : 1 ≤ f.m

theorem ieee_of_mem {f : Fmt} (h : f ∈ [f16, bf16, f32, f64]) : Ieee f := by
  simp only [List.mem_cons, List.not_mem_nil, or_false] at h
  rcases h with rfl | rfl | rfl | rfl <;> constructor <;> decide

/-- The code of infinity, without its sign. -/
def infCode (f : Fmt) : Nat := (2 ^ f.e - 1) * 2 ^ f.m

/-- What a finite code stands for, as a multiple of 2^b. -/
def codeAt (f : Fmt) (b : Int) (c : Nat) : Nat :=
  match f.value c with
  | .fin _ k y => k * 2 ^ (y - b).toNat
  | _ => 0

section Codes
variable {f : Fmt} (hf : Ieee f)
include hf

theorem Ieee.two_pow_exp : 2 ^ f.e = 2 * 2 ^ (f.e - 1) ∧ 2 ≤ 2 ^ (f.e - 1) := by
  have h := hf.exp
  constructor
  · rw [← Nat.pow_succ', Nat.succ_eq_add_one, Nat.sub_add_cancel (by omega)]
  · exact Nat.pow_le_pow_right (n := 2) (i := 1) (by decide) (by omega)

theorem Ieee.one_lt_two_pow : 1 < 2 ^ f.m := Nat.one_lt_two_pow (Nat.one_le_iff_ne_zero.1 hf.sig)

theorem Ieee.two_pow_lt_infCode : 2 ^ f.m < infCode f := by
  have hexp := hf.two_pow_exp
  have hM := hf.one_lt_two_pow
  have := Nat.mul_le_mul_right (2 ^ f.m) (show 2 ≤ 2 ^ f.e - 1 by omega)
  unfold infCode
  omega

theorem Ieee.value_of_lt {c : Nat} (hc : c < infCode f) : f.value c =
    if c / 2 ^ f.m = 0 then .fin false c (f.emin - f.m)
    else .fin false (2 ^ f.m + c % 2 ^ f.m) ((c / 2 ^ f.m : Nat) - f.bias - f.m) := by
  have hM := Nat.two_pow_pos f.m
  have hq : c / 2 ^ f.m < 2 ^ f.e - 1 := Nat.div_lt_of_lt_mul (by rwa [Nat.mul_comm])
  have hlt : c < 2 ^ (f.e + f.m) := by
    rw [Nat.pow_add]
    exact hc.trans_le (Nat.mul_le_mul_right _ (Nat.sub_le _ _))
  have hsign : bits c (f.e + f.m) 1 = 0 := by rw [bits, Nat.div_eq_of_lt hlt, Nat.zero_mod]
  have hexp : bits c f.m f.e = c / 2 ^ f.m := Nat.mod_eq_of_lt (hq.trans_le (Nat.sub_le _ _))
  have hfrac : bits c 0 f.m = c % 2 ^ f.m := by rw [bits, Nat.pow_zero, Nat.div_one]
  simp only [Fmt.value, hsign, hexp, hfrac, hf.plain, Bool.false_eq_true, if_false, if_neg hq.ne, Nat.add_comm (2 ^ f.m)]
  split
  · next h0 =>
    rw [Nat.mod_eq_of_lt ((Nat.div_eq_zero_iff.1 h0).resolve_left hM.ne')]
    rfl
  · rfl

/-- Codes are multiples of the smallest subnormal. -/
theorem Ieee.codeAt_eq {b : Int} (hb : b ≤ f.emin - f.m) {c : Nat} (hc : c < infCode f) :
    codeAt f b c = mag f.m c * 2 ^ (f.emin - f.m - b).toNat := by
  unfold codeAt
  rw [hf.value_of_lt hc, mag]
  by_cases h0 : c / 2 ^ f.m = 0
  · rw [if_pos h0, if_pos h0]
  · rw [if_neg h0, if_neg h0]
    change _ * 2 ^ _ = _
    rw [Nat.mul_assoc, ← Nat.pow_add]
    congr 2
    generalize c / 2 ^ f.m = k at h0
    unfold Fmt.emin at hb ⊢
    omega

theorem Ieee.codeAt_strictMono {b : Int} (hb : b ≤ f.emin - f.m) {c d : Nat} (hd : d < infCode f) (h : c < d) :
    codeAt f b c < codeAt f b d := by
  rw [hf.codeAt_eq hb hd, hf.codeAt_eq hb (h.trans hd)]
  exact Nat.mul_lt_mul_of_pos_right (mag_strictMono _ h) (Nat.two_pow_pos _)

theorem Ieee.emin_le_emax : f.emin + 1 ≤ f.emax := by
  have h := hf.two_pow_exp
  simp only [Fmt.emin, Fmt.emax, hf.plain, Fmt.bias, Bool.false_eq_true, if_false]
  omega

/-- The smallest subnormal and the smallest normal (R175). -/
theorem Ieee.codeAt_least {b : Int} (hb : b ≤ f.emin - f.m) :
    codeAt f b 1 = 2 ^ (f.emin - f.m - b).toNat ∧ codeAt f b (2 ^ f.m) = 2 ^ f.m * 2 ^ (f.emin - f.m - b).toNat := by
  have hM := hf.one_lt_two_pow
  have hinf := hf.two_pow_lt_infCode
  constructor
  · rw [hf.codeAt_eq hb (hM.trans hinf), mag_subnormal hM, Nat.one_mul]
  · rw [hf.codeAt_eq hb hinf, mag_two_pow]

/-- The two largest finite codes lie a unit apart, and a unit above them the range ends. -/
theorem Ieee.codeAt_top {b : Int} (hb : b ≤ f.emin - f.m) :
    codeAt f b (infCode f - 1) + (codeAt f b (infCode f - 1) - codeAt f b (infCode f - 2)) =
        2 ^ (f.m + 1) * 2 ^ (f.emax - f.m - b).toNat ∧
      codeAt f b (infCode f - 1) - codeAt f b (infCode f - 2) = 2 ^ (f.emax - f.m - b).toNat := by
  obtain ⟨hexp, hhalf⟩ := hf.two_pow_exp
  have hM := hf.one_lt_two_pow
  have hinf : infCode f = (2 ^ f.e - 3 + 1) * 2 ^ f.m + 2 ^ f.m := by
    rw [infCode, ← Nat.add_one_mul]
    congr 1
    omega
  have hunit : 2 ^ (f.emax - f.m - b).toNat = 2 ^ (2 ^ f.e - 3) * 2 ^ (f.emin - f.m - b).toNat := by
    rw [← Nat.pow_add]
    congr 1
    simp only [Fmt.emin, Fmt.emax, hf.plain, Fmt.bias, Bool.false_eq_true, if_false] at hb ⊢
    omega
  have hcode : ∀ r, r < 2 ^ f.m → codeAt f b ((2 ^ f.e - 3 + 1) * 2 ^ f.m + r) =
      (2 ^ f.m + r) * 2 ^ (f.emax - f.m - b).toNat := fun r hr => by
    rw [hf.codeAt_eq hb (by omega), mag_normal _ hr, hunit, Nat.mul_assoc]
  have h1 := hcode (2 ^ f.m - 1) (by omega)
  have h2 := hcode (2 ^ f.m - 2) (by omega)
  rw [show (2 ^ f.e - 3 + 1) * 2 ^ f.m + (2 ^ f.m - 1) = infCode f - 1 by omega] at h1
  rw [show (2 ^ f.e - 3 + 1) * 2 ^ f.m + (2 ^ f.m - 2) = infCode f - 2 by omega] at h2
  have hgap : codeAt f b (infCode f - 1) = codeAt f b (infCode f - 2) + 2 ^ (f.emax - f.m - b).toNat := by
    rw [h1, h2, ← Nat.add_one_mul]
    congr 1
    omega
  have htop : codeAt f b (infCode f - 1) + 2 ^ (f.emax - f.m - b).toNat = 2 ^ (f.m + 1) * 2 ^ (f.emax - f.m - b).toNat := by
    rw [h1, ← Nat.add_one_mul, Nat.pow_succ]
    congr 1
    omega
  omega

end Codes

/-! ## The exponent after rounding (R177) -/

/-- Exponent of the last of the f.m + 1 places of m × 2^e. -/
def quantum (f : Fmt) (m : Nat) (e : Int) : Int := (m.log2 : Int) + e - f.m

/-- The number that rounding at unbounded exponent range gives, in units of the quantum, and whether it changed. -/
def rounded (f : Fmt) (rm : Nat) (neg : Bool) (m : Nat) (e : Int) : Nat × Bool := roundAt rm neg m e (quantum f m e)

/-- Its exponent. -/
def roundedExp (f : Fmt) (rm : Nat) (neg : Bool) (m : Nat) (e : Int) : Int :=
  if (rounded f rm neg m e).1 = 2 ^ (f.m + 1) then quantum f m e + f.m + 1 else quantum f m e + f.m

section Exponent
variable {f : Fmt} {rm : Nat} {neg : Bool} {m : Nat} {e b : Int}

theorem scaled_binade (hm : m ≠ 0) (he : b ≤ e) :
    2 ^ ((m.log2 : Int) + e - b).toNat ≤ scaled m e b ∧ scaled m e b < 2 ^ ((m.log2 : Int) + e - b + 1).toNat := by
  have hexp : ((m.log2 : Int) + e - b).toNat = m.log2 + (e - b).toNat := by omega
  have hexp' : ((m.log2 : Int) + e - b + 1).toNat = m.log2 + 1 + (e - b).toNat := by omega
  rw [hexp, hexp', Nat.pow_add, Nat.pow_add]
  exact ⟨Nat.mul_le_mul_right _ (Nat.log2_self_le hm), Nat.mul_lt_mul_of_pos_right Nat.lt_log2_self (Nat.two_pow_pos _)⟩

theorem scaled_bounds (hm : m ≠ 0) (he : b ≤ e) (hq : b ≤ quantum f m e) :
    2 ^ f.m * 2 ^ (quantum f m e - b).toNat ≤ scaled m e b ∧
      scaled m e b < 2 * 2 ^ f.m * 2 ^ (quantum f m e - b).toNat := by
  obtain ⟨hlo, hhi⟩ := scaled_binade hm he
  unfold quantum at hq ⊢
  have hexp : ((m.log2 : Int) + e - b).toNat = f.m + ((m.log2 : Int) + e - f.m - b).toNat := by omega
  have hexp' : ((m.log2 : Int) + e - b + 1).toNat = f.m + ((m.log2 : Int) + e - f.m - b).toNat + 1 := by omega
  rw [hexp, Nat.pow_add] at hlo
  rw [hexp', Nat.pow_succ, Nat.pow_add, Nat.mul_comm, ← Nat.mul_assoc] at hhi
  exact ⟨hlo, hhi⟩

/-- The exponent after rounding passes g + f.m just where the number reaches the end of that binade. -/
theorem roundedExp_iff (hm : m ≠ 0) (hrm : rm ≤ 4) (he : b ≤ e) {g : Int} (hg : b ≤ g) :
    g + f.m < roundedExp f rm neg m e ↔
      Reaches rm neg (2 ^ (f.m + 1) * 2 ^ (g - b).toNat) (2 ^ (g - b).toNat) (scaled m e b) := by
  obtain ⟨hlo, hhi⟩ := scaled_binade (b := b) hm he
  have hend : 2 ^ (f.m + 1) * 2 ^ (g - b).toNat = 2 ^ (g + f.m - b + 1).toNat := by
    rw [← Nat.pow_add]
    congr 1
    omega
  rcases lt_trichotomy (quantum f m e) g with hlt | heq | hgt
  · have hnot : ¬ Reaches rm neg (2 ^ (f.m + 1) * 2 ^ (g - b).toNat) (2 ^ (g - b).toNat) (scaled m e b) := by
      refine not_reaches_of_le (Nat.two_pow_pos _) ?_
      have hx : scaled m e b < 2 ^ (f.m + (g - b).toNat) := by
        refine hhi.trans_le (Nat.pow_le_pow_right (by decide) ?_)
        unfold quantum at hlt
        omega
      have hu : 2 ^ (g - b).toNat ≤ 2 ^ (f.m + (g - b).toNat) := Nat.pow_le_pow_right (by decide) (by omega)
      rw [← Nat.pow_add, show f.m + 1 + (g - b).toNat = f.m + (g - b).toNat + 1 by omega, Nat.pow_succ]
      omega
    refine iff_of_false ?_ hnot
    unfold roundedExp
    split <;> omega
  · have hq : b ≤ quantum f m e := by omega
    obtain ⟨hround, -⟩ := roundAt_rounds rm neg (m := m) he hq
    have hcarry := hround.carry_iff hrm (Nat.two_pow_pos _) (scaled_bounds hm he hq).2
    rw [← heq, Nat.pow_succ', ← hcarry, roundedExp, Nat.pow_succ']
    change _ ↔ (rounded f rm neg m e).1 = _
    split
    · next h => exact iff_of_true (by omega) h
    · next h => exact iff_of_false (by omega) h
  · refine iff_of_true ?_ (reaches_of_le (Nat.two_pow_pos _) ?_)
    · unfold roundedExp
      split <;> omega
    · rw [hend]
      refine (Nat.pow_le_pow_right (by decide) ?_).trans hlo
      unfold quantum at hgt
      omega

end Exponent

/-! ## What rnd answers (R177, R180) -/

section Rnd
variable {f : Fmt} {v : Env} {neg : Bool} {m : Nat} {e : Int}

theorem rnd_eq (hf : Ieee f) (hm : m ≠ 0) : rnd f v neg m e =
    if f.emax < roundedExp f v.rm neg m e then
      (if overflowsToInf v.rm neg then f.inf neg else f.big neg, cOverflow + cInexact)
    else if roundedExp f v.rm neg m e < f.emin then
      (if v.flushOut then (f.signBit neg, cUnderflow + cInexact)
       else (f.signBit neg + (roundAt v.rm neg m e (f.emin - f.m)).1,
         if (roundAt v.rm neg m e (f.emin - f.m)).2 then cUnderflow + cInexact else 0))
    else (f.signBit neg + (roundedExp f v.rm neg m e + f.bias).toNat * 2 ^ f.m +
      ((if (rounded f v.rm neg m e).1 = 2 ^ (f.m + 1) then 2 ^ f.m else (rounded f v.rm neg m e).1) - 2 ^ f.m),
      if (rounded f v.rm neg m e).2 then cInexact else 0) := by
  rw [rnd, if_neg hm]
  simp only [hf.plain, Bool.false_eq_true, false_and, or_false, Bool.false_or, gt_iff_lt]
  change (if f.emax < roundedExp f v.rm neg m e then _ else _) = _
  by_cases hi : overflowsToInf v.rm neg = true
  · simp only [hi, Bool.not_true, Bool.false_eq_true, if_false, if_true]
    rfl
  · simp only [Bool.not_eq_true] at hi
    simp only [hi, Bool.not_false, Bool.false_eq_true, if_false, if_true]
    rfl

theorem rnd_flushed (hf : Ieee f) (hm : m ≠ 0) (hlo : roundedExp f v.rm neg m e < f.emin) (hflush : v.flushOut = true) :
    rnd f v neg m e = (f.signBit neg, cUnderflow + cInexact) := by
  have := hf.emin_le_emax
  rw [rnd_eq hf hm, if_neg (by omega), if_pos hlo, hflush, if_pos rfl]

theorem rnd_beyond (hf : Ieee f) (hm : m ≠ 0) (hrm : v.rm ≤ 4)
    (hhi : f.emax < roundedExp f v.rm neg m e) : rnd f v neg m e =
    (f.signBit neg + (if RoundsDown v.rm neg then infCode f - 1 else infCode f), cOverflow + cInexact) := by
  have hdown : overflowsToInf v.rm neg = !decide (RoundsDown v.rm neg) := by
    generalize v.rm = rm at hrm
    interval_cases rm <;> cases neg <;> rfl
  rw [rnd_eq hf hm, if_pos hhi, hdown]
  by_cases h : RoundsDown v.rm neg
  · simp [h, Fmt.big, hf.plain, infCode]
  · simp [h, Fmt.inf, infCode]

/-- The exponent after rounding lies below the normal range just where the number does not reach the smallest normal. -/
theorem tiny_iff {b : Int} (hm : m ≠ 0) (hrm : v.rm ≤ 4) (he : b ≤ e) (hb : b + 1 ≤ f.emin - f.m) :
    roundedExp f v.rm neg m e < f.emin ↔ ¬ Reaches v.rm neg (2 ^ f.m * 2 ^ (f.emin - f.m - b).toNat)
      (2 ^ (f.emin - f.m - b).toNat / 2) (scaled m e b) := by
  have hhalf : 2 ^ (f.emin - f.m - b).toNat = 2 * 2 ^ (f.emin - 1 - f.m - b).toNat := by
    rw [← Nat.pow_succ']
    congr 1
    omega
  have hend : 2 ^ f.m * 2 ^ (f.emin - f.m - b).toNat = 2 ^ (f.m + 1) * 2 ^ (f.emin - 1 - f.m - b).toNat := by
    rw [hhalf, ← Nat.mul_assoc, Nat.pow_succ]
  rw [hend, hhalf, Nat.mul_div_cancel_left _ (by decide), ← roundedExp_iff hm hrm he (by omega)]
  omega

/-- The exponent after rounding passes the range just where the number reaches what follows the largest code. -/
theorem beyond_iff {b : Int} (hf : Ieee f) (hm : m ≠ 0) (hrm : v.rm ≤ 4) (he : b ≤ e) (hb : b ≤ f.emin - f.m) :
    f.emax < roundedExp f v.rm neg m e ↔ Reaches v.rm neg (2 ^ (f.m + 1) * 2 ^ (f.emax - f.m - b).toNat)
    (2 ^ (f.emax - f.m - b).toNat) (scaled m e b) := by
  have := hf.emin_le_emax
  rw [← roundedExp_iff hm hrm he (by omega), Int.sub_add_cancel]

end Rnd

/-- The code of f.m + 1 places at an exponent within the range. -/
theorem Ieee.normalCode {f : Fmt} (hf : Ieee f) {b x : Int} {n : Nat} (hb : b ≤ f.emin - f.m) (hx : f.emin ≤ x)
    (hx' : x ≤ f.emax) (hn : 2 ^ f.m ≤ n) (hn' : n < 2 ^ (f.m + 1)) :
    (x + f.bias).toNat * 2 ^ f.m + (n - 2 ^ f.m) < infCode f ∧
      codeAt f b ((x + f.bias).toNat * 2 ^ f.m + (n - 2 ^ f.m)) = n * 2 ^ (x - f.m - b).toNat ∧
      ((x + f.bias).toNat * 2 ^ f.m + (n - 2 ^ f.m)) % 2 = n % 2 := by
  obtain ⟨hexp, hhalf⟩ := hf.two_pow_exp
  have heven : 2 ^ f.m % 2 = 0 := by
    rw [← Nat.sub_add_cancel hf.sig, Nat.pow_succ, Nat.mul_mod_left]
  have hmax : f.emax = f.bias := by rw [Fmt.emax, hf.plain, if_neg Bool.false_ne_true]
  have hbias : f.bias = (2 ^ (f.e - 1) : Nat) - 1 := rfl
  have hmin : f.emin = 1 - f.bias := rfl
  obtain ⟨k, hk⟩ : ∃ k, (x + f.bias).toNat = k + 1 := ⟨(x + f.bias).toNat - 1, by omega⟩
  rw [Nat.pow_succ] at hn'
  have hlt : (k + 1) * 2 ^ f.m + (n - 2 ^ f.m) < infCode f := by
    have hle := Nat.mul_le_mul_right (2 ^ f.m) (show k + 1 + 1 ≤ 2 ^ f.e - 1 by omega)
    rw [Nat.add_one_mul] at hle
    unfold infCode
    omega
  rw [hk]
  refine ⟨hlt, ?_, ?_⟩
  · rw [hf.codeAt_eq hb hlt, mag_normal k (by omega), Nat.add_sub_cancel' hn, Nat.mul_assoc, ← Nat.pow_add]
    congr 2
    omega
  · rw [Nat.add_mod, Nat.mul_mod, heven, Nat.mul_zero, Nat.zero_mod, Nat.zero_add, Nat.mod_mod]
    omega

section Paths
variable {f : Fmt} {v : Env} {neg : Bool} {m : Nat} {e b : Int} (hf : Ieee f) (hm : m ≠ 0) (hrm : v.rm ≤ 4) (he : b ≤ e)
  (hb : b + 1 ≤ f.emin - f.m)
include hf hm hrm he hb

/-- A result in the normal range (R177). -/
theorem rnd_normal (hlo : f.emin ≤ roundedExp f v.rm neg m e) (hhi : roundedExp f v.rm neg m e ≤ f.emax) :
    b ≤ quantum f m e ∧ ∃ c, c < infCode f ∧
      rnd f v neg m e = (f.signBit neg + c, if (rounded f v.rm neg m e).2 then cInexact else 0) ∧
      codeAt f b c = (rounded f v.rm neg m e).1 * 2 ^ (quantum f m e - b).toNat ∧
      c % 2 = (rounded f v.rm neg m e).1 % 2 := by
  have hle : roundedExp f v.rm neg m e ≤ quantum f m e + f.m + 1 := by
    unfold roundedExp
    split <;> omega
  have hq : b ≤ quantum f m e := by omega
  have hround : Rounds v.rm neg (scaled m e b) (2 ^ (quantum f m e - b).toNat) (rounded f v.rm neg m e).1 :=
    (roundAt_rounds v.rm neg he hq).1
  obtain ⟨hxlo, hxhi⟩ := scaled_bounds (f := f) hm he hq
  have hmin := hround.ge_of_le hrm (Nat.two_pow_pos _) hxlo
  have hmax := hround.le_of_le hrm (Nat.two_pow_pos _) hxhi.le
  refine ⟨hq, ?_⟩
  rw [rnd_eq hf hm, if_neg (by omega), if_neg (by omega)]
  by_cases hc : (rounded f v.rm neg m e).1 = 2 ^ (f.m + 1)
  · have hexp : roundedExp f v.rm neg m e = quantum f m e + f.m + 1 := if_pos hc
    obtain ⟨hlt, hcode, hpar⟩ := hf.normalCode (b := b) (x := roundedExp f v.rm neg m e) (by omega) hlo hhi
      (Nat.le_refl _) (Nat.pow_lt_pow_right (by decide) (Nat.lt_succ_self _))
    refine ⟨_, hlt, ?_, ?_, ?_⟩
    · rw [if_pos hc, Nat.add_assoc]
    · rw [hcode, hc, hexp, ← Nat.pow_add, ← Nat.pow_add]
      congr 1
      omega
    · rw [hpar, hc, Nat.pow_succ, Nat.mul_mod_left, ← Nat.sub_add_cancel hf.sig, Nat.pow_succ, Nat.mul_mod_left]
  · have hexp : roundedExp f v.rm neg m e = quantum f m e + f.m := if_neg hc
    obtain ⟨hlt, hcode, hpar⟩ := hf.normalCode (b := b) (x := roundedExp f v.rm neg m e) (by omega) hlo hhi hmin
      (Nat.lt_of_le_of_ne (by rwa [Nat.pow_succ']) hc)
    refine ⟨_, hlt, ?_, ?_, hpar⟩
    · rw [if_neg hc, Nat.add_assoc]
    · rw [hcode, hexp]
      congr 3
      omega

/-- A tiny result that is kept (R180): the exact value rounded once among the multiples of the smallest subnormal. -/
theorem rnd_tiny (hlo : roundedExp f v.rm neg m e < f.emin) (hkeep : v.flushOut = false) :
    (roundAt v.rm neg m e (f.emin - f.m)).1 < infCode f ∧
      rnd f v neg m e = (f.signBit neg + (roundAt v.rm neg m e (f.emin - f.m)).1,
        if (roundAt v.rm neg m e (f.emin - f.m)).2 then cUnderflow + cInexact else 0) ∧
      codeAt f b (roundAt v.rm neg m e (f.emin - f.m)).1 =
        (roundAt v.rm neg m e (f.emin - f.m)).1 * 2 ^ (f.emin - f.m - b).toNat := by
  have hx : scaled m e b ≤ 2 ^ f.m * 2 ^ (f.emin - f.m - b).toNat := by
    have hnot := (tiny_iff hm hrm he hb).1 hlo
    by_contra hgt
    exact hnot (reaches_of_lt (by omega))
  have hle := (roundAt_rounds v.rm neg he (show b ≤ f.emin - f.m by omega)).1.le_of_le hrm (Nat.two_pow_pos _) hx
  have hinf : 2 ^ f.m < infCode f := hf.two_pow_lt_infCode
  have hmag : ∀ c, c ≤ 2 ^ f.m → mag f.m c = c := fun c hc => by
    rcases Nat.lt_or_eq_of_le hc with h | rfl
    · exact mag_subnormal h
    · exact mag_two_pow
  refine ⟨hle.trans_lt hinf, ?_, ?_⟩
  · have := hf.emin_le_emax
    rw [rnd_eq hf hm, if_neg (by omega), if_pos hlo, hkeep, if_neg Bool.false_ne_true]
  · rw [hf.codeAt_eq (by omega) (hle.trans_lt hinf), hmag _ hle]

end Paths

/-! ## The code that the mode asks for (R177) -/

/-- Of all finite codes c's value is the one that the mode asks for x. -/
structure Best (f : Fmt) (rm : Nat) (neg : Bool) (b : Int) (x c : Nat) : Prop where
  up : RoundsUp rm neg → x ≤ codeAt f b c ∧ ∀ d, d < infCode f → x ≤ codeAt f b d → codeAt f b c ≤ codeAt f b d
  down : RoundsDown rm neg → codeAt f b c ≤ x ∧ ∀ d, d < infCode f → codeAt f b d ≤ x → codeAt f b d ≤ codeAt f b c
  near : rm = 0 ∨ rm = 4 → ∀ d, d < infCode f → d ≠ c → far x (codeAt f b c) < far x (codeAt f b d) ∨
    (far x (codeAt f b c) = far x (codeAt f b d) ∧ if rm = 0 then c % 2 = 0 else codeAt f b d ≤ codeAt f b c)

/-- A multiple of a unit that the mode asks for is a best code where every code of the binade and above is a multiple. -/
theorem Rounds.best {f : Fmt} (hf : Ieee f) {rm : Nat} {neg : Bool} {b : Int} {x u r l c : Nat} (h : Rounds rm neg x u r)
    (hb : b ≤ f.emin - f.m) (hl : l * u ≤ x) (hy : ∀ d, d < infCode f → codeAt f b d < l * u ∨ ∃ k, codeAt f b d = k * u)
    (hc : c < infCode f) (hcode : codeAt f b c = r * u) (hpar : c % 2 = r % 2) : Best f rm neg b x c where
  up hm := by
    rw [hcode]
    exact ⟨(h.up hm).1, fun d hd => h.best_up hm hl (hy d hd)⟩
  down hm := by
    rw [hcode]
    exact ⟨(h.down hm).1, fun d hd => h.best_down hm hl (hy d hd)⟩
  near hm d hd hne := by
    have hdiff : codeAt f b d ≠ codeAt f b c := by
      rcases Nat.lt_or_gt_of_ne hne with hlt | hlt
      · exact (hf.codeAt_strictMono hb hc hlt).ne
      · exact (hf.codeAt_strictMono hb hd hlt).ne'
    rw [hcode] at hdiff ⊢
    rw [hpar]
    exact h.best_near hm hl (hy d hd) hdiff

section Kept
variable {f : Fmt} {v : Env} {neg : Bool} {m : Nat} {e b : Int} (hf : Ieee f) (hm : m ≠ 0) (hrm : v.rm ≤ 4) (he : b ≤ e)
  (hb : b + 1 ≤ f.emin - f.m)
include hf hm hrm he hb

/-- A result that neither overflows nor is flushed. -/
theorem rnd_kept (hhi : roundedExp f v.rm neg m e ≤ f.emax)
    (hkeep : ¬ (roundedExp f v.rm neg m e < f.emin ∧ v.flushOut = true)) :
    ∃ c, c < infCode f ∧ (rnd f v neg m e).1 = f.signBit neg + c ∧ Best f v.rm neg b (scaled m e b) c ∧
      (codeAt f b c = scaled m e b → (rnd f v neg m e).2 = 0) ∧
      (codeAt f b c ≠ scaled m e b → roundedExp f v.rm neg m e < f.emin → (rnd f v neg m e).2 = cUnderflow + cInexact) ∧
      (codeAt f b c ≠ scaled m e b → ¬ roundedExp f v.rm neg m e < f.emin → (rnd f v neg m e).2 = cInexact) := by
  by_cases hlo : roundedExp f v.rm neg m e < f.emin
  · have hflush : v.flushOut = false := by simpa [hlo] using hkeep
    obtain ⟨hc, hr, hcode⟩ := rnd_tiny hf hm hrm he hb hlo hflush
    obtain ⟨hround, hexact⟩ := roundAt_rounds v.rm neg (m := m) he (show b ≤ f.emin - f.m by omega)
    refine ⟨_, hc, by rw [hr], hround.best hf (by omega) (l := 0) (by omega) (fun d hd => .inr ⟨_, hf.codeAt_eq (by omega) hd⟩)
      hc hcode rfl, ?_⟩
    rw [hr, hcode]
    simp only [ne_eq, ← hexact]
    exact ⟨fun h => by simp [h], fun h _ => by simp [h], fun _ h => absurd hlo h⟩
  · obtain ⟨hq, c, hc, hr, hcode, hpar⟩ := rnd_normal hf hm hrm he hb (by omega) hhi
    obtain ⟨hround, hexact⟩ := roundAt_rounds v.rm neg (m := m) he hq
    refine ⟨c, hc, by rw [hr], hround.best hf (by omega) (scaled_bounds hm he hq).1 (fun d hd => ?_) hc hcode hpar, ?_⟩
    · rw [hf.codeAt_eq (by omega) hd]
      exact mag_below_or_multiple ..
    · change (rounded f v.rm neg m e).2 = false ↔ (rounded f v.rm neg m e).1 * _ = _ at hexact
      rw [hr, hcode]
      simp only [ne_eq, ← hexact]
      exact ⟨fun h => by simp [h], fun _ h => absurd h hlo, fun h _ => by simp [h]⟩

end Kept

end Sys2Proof.Proofs

/-! PROOFS. The operations (08/R176, R178, R181, R182): exact sums and products are rounded once, and what NaNs, infinities and zeros
give; with rnd's answers they settle the rules of rounding. -/

namespace Sys2Proof.Proofs

open Sys2Proof.Machine

/-! ## Thresholds in codes -/

section Thresholds
variable {rm : Nat} {neg : Bool} {x : Nat}

theorem reaches_top_iff {top gap : Nat} : Reaches rm neg (top + gap) gap x ↔
    if RoundsUp rm neg then top < x else if RoundsDown rm neg then top + gap ≤ x else 2 * top + gap ≤ 2 * x := by
  unfold Reaches
  split
  · omega
  · split <;> omega

theorem not_reaches_least_iff {least w : Nat} (hw : 4 ∣ w) : ¬ Reaches rm neg least (w / 2) x ↔
    if RoundsUp rm neg then x + w / 2 ≤ least else if RoundsDown rm neg then x < least else x + w / 4 < least := by
  unfold Reaches
  split
  · omega
  · split <;> omega

end Thresholds

/-! ## E4M3 (R176) -/

/-- From 480 on a magnitude rounds beyond 448. -/
theorem rnd_e4m3_beyond {v : Env} {neg : Bool} {m : Nat} {e : Int} (hm : m ≠ 0) (hrm : v.rm ≤ 4) (he : 0 ≤ e)
    (h : 480 ≤ scaled m e 0) : rnd e4m3 v neg m e = (if neg then 0xFE else 0x7E, cOverflow + cInexact) := by
  obtain ⟨hlo, hhi⟩ := scaled_binade (b := 0) hm he
  have hsize : 8 ≤ (m.log2 : Int) + e := by
    by_contra hlt
    have := Nat.pow_le_pow_right (n := 2) (by decide) (show ((m.log2 : Int) + e - 0 + 1).toNat ≤ 8 by omega)
    omega
  have hcase : 8 < roundedExp e4m3 v.rm neg m e ∨ roundedExp e4m3 v.rm neg m e = 8 ∧
      (if (rounded e4m3 v.rm neg m e).1 = 16 then 8 else (rounded e4m3 v.rm neg m e).1) = 15 := by
    have hq : quantum e4m3 m e = (m.log2 : Int) + e - 3 := rfl
    have hexp : roundedExp e4m3 v.rm neg m e =
        if (rounded e4m3 v.rm neg m e).1 = 16 then quantum e4m3 m e + 3 + 1 else quantum e4m3 m e + 3 := rfl
    rw [hexp]
    by_cases h8 : (m.log2 : Int) + e = 8
    · have hround : Rounds v.rm neg (scaled m e 0) (2 ^ (quantum e4m3 m e - 0).toNat) (rounded e4m3 v.rm neg m e).1 :=
        (roundAt_rounds v.rm neg he (by omega)).1
      rw [show (quantum e4m3 m e - 0).toNat = 5 by omega] at hround
      rw [show ((m.log2 : Int) + e - 0 + 1).toNat = 9 by omega] at hhi
      have hmin := hround.ge_of_le (k := 15) hrm (by decide) (by omega)
      have hmax := hround.le_of_le (k := 16) hrm (by decide) (by omega)
      split <;> omega
    · split <;> omega
  rw [rnd, if_neg hm]
  change (if roundedExp e4m3 v.rm neg m e > 8 ∨ (true = true ∧ roundedExp e4m3 v.rm neg m e = 8 ∧
      (if (rounded e4m3 v.rm neg m e).1 = 16 then 8 else (rounded e4m3 v.rm neg m e).1) = 15) then _ else _) = _
  rw [if_pos (hcase.imp_right fun hc => ⟨rfl, hc⟩)]
  cases neg <;> rfl

/-! ## Exact sums and products (R178) -/

/-- k × 2^j with sign t is the sum of two signed values, at a scale below both. -/
def IsSum (s s' t : Bool) (k k' i : Nat) (y y' j : Int) : Prop :=
  j ≤ y ∧ j ≤ y' ∧ (if t then -((i : Nat) : Int) else i) = (if s then -1 else 1) * ((k * 2 ^ (y - j).toNat : Nat) : Int) +
    (if s' then -1 else 1) * ((k' * 2 ^ (y' - j).toNat : Nat) : Int)

/-- The code of an exact zero. -/
def noughtCode (f : Fmt) (v : Env) : Nat := if v.rm = 3 then f.signBit true else f.signBit false

section Exact
variable (f : Fmt) (v : Env) {n n' n'' : Bool} {m m' m'' : Nat} {e e' e'' : Int}

theorem signBit_zeroSign : f.signBit (zeroSign v) = noughtCode f v := by
  unfold noughtCode zeroSign
  by_cases h : v.rm = 3
  · rw [h, if_pos rfl]
    rfl
  · rw [if_neg h, beq_eq_false_iff_ne.2 h]

theorem rnd_zero (neg : Bool) (e : Int) : rnd f v neg 0 e = (f.signBit neg, 0) := if_pos rfl

theorem rndVal_sum (hm : m ≠ 0) (hm' : m' ≠ 0) : ∃ s k y, IsSum n n' s m m' k e e' y ∧
    rndVal f v (exAdd v (.fin n m e) (.fin n' m' e')) = if k = 0 then (noughtCode f v, 0) else rnd f v s k y := by
  let q : Int := if e ≤ e' then e else e'
  let z : Int := (if n then -1 else 1) * ((m * 2 ^ (e - q).toNat : Nat) : Int) +
    (if n' then -1 else 1) * ((m' * 2 ^ (e' - q).toNat : Nat) : Int)
  have hq : q ≤ e ∧ q ≤ e' := by
    dsimp only [q]
    split <;> omega
  have hsum : exAdd v (.fin n m e) (.fin n' m' e') =
      if z = 0 then some (.fin (zeroSign v) 0 0) else some (.fin (decide (z < 0)) z.natAbs q) := by
    simp only [exAdd, hm, hm', false_and, if_false]
    rfl
  refine ⟨decide (z < 0), z.natAbs, q, ⟨hq.1, hq.2, ?_⟩, ?_⟩
  · change _ = z
    by_cases hz : z < 0
    · rw [decide_eq_true hz, if_pos rfl]
      omega
    · rw [decide_eq_false hz, if_neg Bool.false_ne_true]
      omega
  · rw [hsum]
    by_cases hz : z = 0
    · rw [if_pos hz, if_pos (Int.natAbs_eq_zero.2 hz), ← signBit_zeroSign]
      exact rnd_zero f v _ _
    · rw [if_neg hz, if_neg (mt Int.natAbs_eq_zero.1 hz)]
      rfl

variable {f v} {a b c : Nat} (ha : f.arith v a = .fin n m e) (hb : f.arith v b = .fin n' m' e')
include ha hb

theorem fAdd_fin : fAdd f v a b = rndVal f v (exAdd v (.fin n m e) (.fin n' m' e')) := by
  rw [fAdd, ha, hb]
  rfl

theorem fSub_fin : fSub f v a b = rndVal f v (exAdd v (.fin n m e) (.fin (!n') m' e')) := by
  rw [fSub, ha, hb]
  rfl

theorem fMul_fin : fMul f v a b = rnd f v (n != n') (m * m') (e + e') := by
  rw [fMul, ha, hb]
  rfl

theorem fMadd_fin (hc : f.arith v c = .fin n'' m'' e'') (hl : v.lgy / 2 % 2 = 0) : fMadd f v false false a b c =
    rndVal f v (exAdd v (.fin (n != n') (m * m') (e + e')) (.fin n'' m'' e'')) := by
  have hsplit : decide (v.lgy / 2 % 2 = 1) = false := decide_eq_false (by omega)
  simp only [fMadd, ha, hb, hc, hsplit]
  rfl

theorem fAdd_zeros (hm : m = 0) (hm' : m' = 0) : fAdd f v a b = (if n = n' then f.signBit n else noughtCode f v, 0) := by
  subst hm hm'
  rw [fAdd_fin ha hb, ← signBit_zeroSign, ← apply_ite f.signBit]
  exact rnd_zero f v _ 0

end Exact

/-! ## NaNs and infinities (R181, R182) -/

section Nan
variable {f : Fmt} {v : Env} {a b : Nat}

theorem bits_one (x k : Nat) : decide (bits x k 1 = 1) = x.testBit k := by
  rw [Nat.testBit_eq_decide_div_mod_eq]
  rfl

theorem arith_flushed (hin : v.flushIn = true) (hsub : f.isSub a = true) :
    f.arith v a = .fin (a.testBit (f.e + f.m)) 0 0 := by
  rw [Fmt.arith, hin, hsub, bits_one]
  rfl

/-- To set a bit is to put it between what lies above and below. -/
theorem or_two_pow (x k : Nat) : x ||| 2 ^ k = 2 ^ (k + 1) * (x / 2 ^ (k + 1)) + (2 ^ k + x % 2 ^ k) := by
  have hmod := Nat.mod_lt x (Nat.two_pow_pos k)
  have hlow := Nat.two_pow_add_eq_or_of_lt hmod 1
  rw [Nat.mul_one] at hlow
  have hlt : 2 ^ k + x % 2 ^ k < 2 ^ (k + 1) := by
    rw [Nat.pow_succ]
    omega
  rw [Nat.two_pow_add_eq_or_of_lt hlt, hlow]
  refine Nat.eq_of_testBit_eq fun i => ?_
  simp only [Nat.testBit_or, Nat.testBit_two_pow, Nat.testBit_two_pow_mul, Nat.testBit_div_two_pow, Nat.testBit_mod_two_pow]
  rcases Nat.lt_trichotomy i k with h | rfl | h
  · simp [h, show ¬ k + 1 ≤ i by omega, Bool.or_comm]
  · simp
  · simp [show ¬ i < k by omega, show k + 1 ≤ i by omega, show i - (k + 1) + (k + 1) = i by omega]

/-- The fields of a code that arithmetic reads as a NaN. -/
theorem nan_fields (hf : Ieee f) {n s : Bool} {fr wd : Nat} (h : f.arith v a = .nan n s fr wd) :
    n = a.testBit (f.e + f.m) ∧ bits a f.m f.e = 2 ^ f.e - 1 ∧ fr = bits a 0 f.m ∧ wd = f.m := by
  unfold Fmt.arith Fmt.value at h
  simp only [hf.plain, Bool.false_eq_true, if_false, bits_one] at h
  split at h
  · cases h
  · split at h
    · next hexp =>
      split at h
      · cases h
      · injection h with hn _ hfr hwd
        exact ⟨hn.symm, hexp, hfr.symm, hwd.symm⟩
    · split at h <;> cases h

/-- A NaN carried into its own format is its code with the quiet bit set. -/
theorem carry_eq_quiet (hf : Ieee f) (ha : a < 2 ^ (1 + f.e + f.m)) {n s : Bool} {fr wd : Nat}
    (h : f.arith v a = .nan n s fr wd) : f.carry n fr wd = a ||| 2 ^ (f.m - 1) := by
  obtain ⟨rfl, hexp, rfl, rfl⟩ := nan_fields hf h
  have hsig : f.m - 1 + 1 = f.m := Nat.sub_add_cancel hf.sig
  have hsign : f.signBit (a.testBit (f.e + f.m)) = a / 2 ^ (f.e + f.m) * 2 ^ (f.e + f.m) := by
    have hq : a / 2 ^ (f.e + f.m) < 2 := Nat.div_lt_of_lt_mul (by
      rwa [Nat.add_assoc, Nat.add_comm 1, Nat.pow_succ] at ha)
    rw [Nat.testBit_eq_decide_div_mod_eq, Nat.mod_eq_of_lt hq, Fmt.signBit]
    obtain h0 | h1 := Nat.le_one_iff_eq_zero_or_eq_one.1 (Nat.le_of_lt_succ hq)
    · simp [h0]
    · simp [h1]
  have hhigh : a / 2 ^ (f.e + f.m) * 2 ^ (f.e + f.m) + (2 ^ f.e - 1) * 2 ^ f.m = 2 ^ f.m * (a / 2 ^ f.m) := by
    have hdm := Nat.div_add_mod' (a / 2 ^ f.m) (2 ^ f.e)
    rw [Nat.div_div_eq_div_mul, ← Nat.pow_add, Nat.add_comm f.m] at hdm
    change a / 2 ^ f.m % 2 ^ f.e = 2 ^ f.e - 1 at hexp
    rw [hexp] at hdm
    rw [← hdm, Nat.mul_comm (2 ^ f.m), Nat.add_mul, Nat.mul_assoc, ← Nat.pow_add]
  have hlow : bits a 0 f.m % 2 ^ (f.m - 1) = a % 2 ^ (f.m - 1) := by
    rw [bits, Nat.pow_zero, Nat.div_one, Nat.mod_mod_of_dvd _ (Nat.pow_dvd_pow 2 (Nat.sub_le _ _))]
  rw [or_two_pow, hsig, ← hhigh, Fmt.carry, hf.plain, if_neg Bool.false_ne_true, hsign]
  simp only [ge_iff_le, le_refl, if_true, Nat.sub_self, Nat.pow_zero, Nat.mul_one, hlow]

/-- The NaN that an operation on two operands gives. -/
def nanCode (f : Fmt) (v : Env) (a b : Nat) : Nat :=
  if v.nanp = 0 then f.nan else if (f.arith v a).isNan = true then a ||| 2 ^ (f.m - 1) else b ||| 2 ^ (f.m - 1)

/-- Invalid where one of two operands signals. -/
def raisedBy (x y : FVal) : Nat := if x.isSnan = true ∨ y.isSnan = true then cInvalid else 0

theorem sigCond_pair (x y : FVal) : sigCond [x, y] = raisedBy x y := by
  simp [sigCond, raisedBy]

theorem exists_of_isNan {x : FVal} (h : x.isNan = true) : ∃ n s fr wd, x = .nan n s fr wd := by
  cases x with
  | nan n s fr wd => exact ⟨n, s, fr, wd, rfl⟩
  | fin => cases h
  | inf => cases h

theorem nanOf_pair (hf : Ieee f) (ha : a < 2 ^ (1 + f.e + f.m)) (hb : b < 2 ^ (1 + f.e + f.m))
    (h : (f.arith v a).isNan = true ∨ (f.arith v b).isNan = true) :
    f.nanOf v [f.arith v a, f.arith v b] = nanCode f v a b := by
  unfold Fmt.nanOf nanCode
  by_cases h0 : v.nanp = 0
  · rw [if_pos h0, if_pos h0]
  · rw [if_neg h0, if_neg h0]
    by_cases hx : (f.arith v a).isNan = true
    · obtain ⟨n, s, fr, wd, hnan⟩ := exists_of_isNan hx
      rw [List.find?_cons_of_pos hx, if_pos hx, hnan]
      exact carry_eq_quiet hf ha hnan
    · have hy := h.resolve_left hx
      obtain ⟨n, s, fr, wd, hnan⟩ := exists_of_isNan hy
      rw [List.find?_cons_of_neg hx, List.find?_cons_of_pos hy, if_neg hx, hnan]
      exact carry_eq_quiet hf hb hnan

theorem nanOr_nan (hf : Ieee f) (ha : a < 2 ^ (1 + f.e + f.m)) (hb : b < 2 ^ (1 + f.e + f.m))
    (h : (f.arith v a).isNan = true ∨ (f.arith v b).isNan = true) (r : Unit → Res) :
    nanOr f v [f.arith v a, f.arith v b] r = (nanCode f v a b, raisedBy (f.arith v a) (f.arith v b)) := by
  rw [nanOr, if_pos (by simpa using h), nanOf_pair hf ha hb h, sigCond_pair]

/-- FMIN and FMAX with LGY bit 13 set: a NaN is no ordinary compare, so B is the result (log 36). -/
theorem fMinMax_legacy (hl : v.lgy % 2 = 1) (h : (f.arith v a).isNan = true ∨ (f.arith v b).isNan = true) (mx : Bool) :
    fMinMax f v mx a b = (f.flushed v b, raisedBy (f.arith v a) (f.arith v b)) := by
  have hnan : (!(f.arith v a).isNan && !(f.arith v b).isNan) = false := by
    rcases h with h | h <;> simp [h]
  simp only [fMinMax, if_pos hl, hnan, Bool.false_and, Bool.false_eq_true, if_false, sigCond_pair]

theorem fMinMax_number_right (hl : v.lgy % 2 = 0) (hx : (f.arith v a).isNan = true) (hy : (f.arith v b).isNan = false)
    (mx : Bool) : (fMinMax f v mx a b).1 = f.flushed v b := by
  simp only [fMinMax, hl, hx, hy, zero_ne_one, if_false, Bool.and_false, Bool.false_eq_true, if_true]

theorem fMinMax_number_left (hl : v.lgy % 2 = 0) (hx : (f.arith v a).isNan = false) (hy : (f.arith v b).isNan = true)
    (mx : Bool) : (fMinMax f v mx a b).1 = f.flushed v a := by
  simp only [fMinMax, hl, hx, hy, zero_ne_one, if_false, Bool.false_and, Bool.false_eq_true, if_true]

end Nan

/-- A zero as arithmetic reads one. -/
theorem exists_of_isZero {x : FVal} (h : x.isZero = true) : ∃ n e, x = .fin n 0 e := by
  cases x with
  | fin n m e => exact ⟨n, e, by rw [eq_of_beq (show (m == 0) = true from h)]⟩
  | inf => cases h
  | nan => cases h

/-- Settles O12: within the range rnd's number is the multiple of its unit that the mode asks for, and every code from that
binade on is such a multiple; the thresholds are where rounding carries out of the largest and of the last tiny binade. That
FMIN and FMAX under LGY bit 13 give a NaN in B as it stands is log 36, the model's reading of R181 and R182. -/
theorem floatRounding : Obligations.FloatRounding := by
  unfold Obligations.FloatRounding
  refine ⟨?_, fun v neg m e hm hrm he h => ?_, ?_, ?_⟩
  · intro f v neg m e b hmem hm hrm he hb r sign x at_ inf top gap least up down beyond tiny far
    have hf := ieee_of_mem hmem
    obtain ⟨htop, hgap⟩ := hf.codeAt_top (b := b) (by omega)
    obtain ⟨hone, hleast⟩ := hf.codeAt_least (b := b) (by omega)
    have hbeyond : beyond ↔ f.emax < roundedExp f v.rm neg m e := by
      rw [beyond_iff hf hm hrm (b := b) (by omega) (by omega), ← htop, ← hgap]
      exact reaches_top_iff.symm
    have htiny : tiny ↔ roundedExp f v.rm neg m e < f.emin := by
      have hfour : 4 ∣ codeAt f b 1 := hone ▸ Nat.pow_dvd_pow 2 (show 2 ≤ (f.emin - f.m - b).toNat by omega)
      rw [tiny_iff hm hrm (b := b) (by omega) (by omega), ← hleast, ← hone]
      exact (not_reaches_least_iff hfour).symm
    refine ⟨fun h => rnd_beyond hf hm hrm (hbeyond.1 h), fun h hflush => rnd_flushed hf hm (htiny.1 h) hflush,
      fun hin hkeep => ?_⟩
    obtain ⟨c, hc, hr, hbest, hexact, hunder, hinexact⟩ := rnd_kept hf hm hrm (b := b) (by omega) (by omega)
      (Int.not_lt.1 (mt hbeyond.2 hin)) (mt (And.imp_left htiny.2) hkeep)
    exact ⟨c, hc, hr, hexact, fun hne h => hunder hne (htiny.1 h), fun hne h => hinexact hne (mt htiny.2 h), hbest.up,
      hbest.down, fun hu hd => hbest.near (((mode_cases neg hrm).resolve_left hu).resolve_left hd).2.2⟩
  · exact rnd_e4m3_beyond hm hrm he (by rwa [scaled, Int.sub_zero])
  · intro f v a b c n n' n'' m m' m'' e e' e'' ha hb hc hl sum nought
    refine ⟨fun hm hm' => ⟨?_, ?_, fMul_fin ha hb, fun hm'' => ?_⟩, fun hm hm' hn => ?_, fun hm hm' hn => ?_, fun hm => ?_⟩
    · rw [fAdd_fin ha hb]
      exact rndVal_sum f v hm hm'
    · rw [fSub_fin ha hb]
      exact rndVal_sum f v hm hm'
    · rw [fMadd_fin ha hb hc hl]
      exact rndVal_sum f v (Nat.mul_ne_zero hm hm') hm''
    · rw [fAdd_zeros ha hb hm hm', if_pos hn]
    · rw [fAdd_zeros ha hb hm hm', if_neg hn]
      rfl
    · rw [fMul_fin ha hb, Nat.mul_eq_zero.2 hm, rnd_zero]
  · intro f v a b hmem ha hb x y quiet raised
    have hf := ieee_of_mem hmem
    refine ⟨arith_flushed, fun h => ?_, fun ⟨hx, hy⟩ => ?_, fun ⟨hx, hy⟩ => ?_, fun n hx hy => ?_, fun hx hy => ?_,
      fMinMax_number_right, fMinMax_number_left, fMinMax_legacy⟩
    · refine ⟨nanOr_nan hf ha hb h _, nanOr_nan hf ha hb h _, nanOr_nan hf ha hb h _, ?_⟩
      unfold fDiv
      exact nanOr_nan hf ha hb h _
    · rw [fAdd, show f.arith v a = .inf true from hx, show f.arith v b = .inf false from hy]
      rfl
    · rw [fSub, fDiv, show f.arith v a = .inf true from hx, show f.arith v b = .inf true from hy]
      exact ⟨rfl, rfl⟩
    · obtain ⟨n', e, hy⟩ := exists_of_isZero hy
      rw [fMul, show f.arith v a = .inf n from hx, show f.arith v b = .fin n' 0 e from hy]
      rfl
    · obtain ⟨n, e, hx⟩ := exists_of_isZero hx
      obtain ⟨n', e', hy⟩ := exists_of_isZero hy
      rw [fDiv, show f.arith v a = .fin n 0 e from hx, show f.arith v b = .fin n' 0 e' from hy]
      rfl

end Sys2Proof.Proofs

/-! PROOFS. Words and their fields (09/R193 to R207): a field of bits that is cut in two and put together again, the codes
of operand fields both ways, and the five formats as the fields that a word of each reads. -/

namespace Sys2Proof.Proofs

open Sys2Proof.Machine

open Sys2Proof.Safety

/-! ## Fields of bits (R2) -/

theorem bits_lt (n lo w : Nat) : bits n lo w < 2 ^ w := Nat.mod_lt _ (Nat.two_pow_pos w)

theorem bits_split (n lo w v : Nat) : bits n lo (w + v) = bits n (lo + w) v * 2 ^ w + bits n lo w := by
  unfold bits
  rw [Nat.pow_add, Nat.mod_mul, Nat.div_div_eq_div_mul, ← Nat.pow_add, Nat.mul_comm, Nat.add_comm]

/-- Two fields side by side are one. -/
theorem bits_join {n lo w v x y : Nat} (hx : bits n lo w = x) (hy : bits n (lo + w) v = y) :
    bits n lo (w + v) = y * 2 ^ w + x := by
  rw [bits_split, hx, hy]

/-- A field whose value is put together of two is those two. -/
theorem bits_pair {n lo w v x y : Nat} (h : bits n lo (w + v) = y * 2 ^ w + x) (hx : x < 2 ^ w) :
    bits n lo w = x ∧ bits n (lo + w) v = y := by
  have hlt := bits_lt n lo w
  rw [bits_split, Nat.mul_comm, Nat.mul_comm y] at h
  constructor
  · have := congrArg (· % 2 ^ w) h
    simpa [Nat.mul_add_mod, Nat.mod_eq_of_lt, hlt, hx] using this
  · have := congrArg (· / 2 ^ w) h
    simpa [Nat.mul_add_div, Nat.div_eq_of_lt, hlt, hx, Nat.two_pow_pos] using this

theorem bits_zero_pair {n lo w v : Nat} (h : bits n lo (w + v) = 0) : bits n lo w = 0 ∧ bits n (lo + w) v = 0 :=
  bits_pair (y := 0) (h.trans (Nat.zero_mul _).symm) (Nat.two_pow_pos w)

theorem bits_narrow {n lo w v x : Nat} (h : bits n lo (w + v) = x) (hx : x < 2 ^ w) :
    bits n lo w = x ∧ bits n (lo + w) v = 0 :=
  bits_pair (h.trans (by rw [Nat.zero_mul, Nat.zero_add])) hx

theorem bits_zero_join {n lo w v : Nat} (hx : bits n lo w = 0) (hy : bits n (lo + w) v = 0) : bits n lo (w + v) = 0 :=
  (bits_join hx hy).trans (Nat.zero_mul _)

theorem bits_all {n : Nat} (h : n < 2 ^ 32) : bits n 0 32 = n := by
  unfold bits
  omega

theorem reg_eq {n lo : Nat} {r : Reg} (h : bits n lo 6 = r.val) : reg n lo = r := Fin.ext h
theorem sel_eq {n lo : Nat} {p : Sel} (h : bits n lo 2 = p.val) : sel n lo = p := Fin.ext h
theorem low_eq {n lo : Nat} {k : Low} (h : bits n lo 3 = k.val) : low n lo = k := Fin.ext h
theorem ahead_eq {n lo : Nat} {la : Ahead} (h : bits n lo 4 = la.val) : ahead n lo = la := Fin.ext h
theorem fin32_eq {n lo : Nat} {k : Fin 32} (h : bits n lo 5 = k.val) : fin32 n lo = k := Fin.ext h

theorem bit_beq_one_toNat (n lo : Nat) : (bits n lo 1 == 1).toNat = bits n lo 1 := by
  obtain h | h := Nat.le_one_iff_eq_zero_or_eq_one.1 (Nat.le_of_lt_succ (bits_lt n lo 1))
  · rw [h]
    rfl
  · rw [h]
    rfl

/-! ## Codes (R130, R165, R200 to R206) -/

@[simp] theorem ICond.ofBits_toNat (c : ICond) : ICond.ofBits c.toNat = c := by cases c <;> rfl
@[simp] theorem FCond.ofBits_toNat (c : FCond) : FCond.ofBits c.toNat = c := by cases c <;> rfl
@[simp] theorem FRndMode.ofBits_toNat (c : FRndMode) : FRndMode.ofBits c.toNat = c := by cases c <;> rfl
@[simp] theorem ShflMode.ofBits_toNat (c : ShflMode) : ShflMode.ofBits c.toNat = c := by cases c <;> rfl
@[simp] theorem Order.ofBits_toNat (c : Order) : Order.ofBits c.toNat = c := by cases c <;> rfl
@[simp] theorem Counter.ofBits_toNat (k : Counter) : Counter.ofBits k.toNat = k := by cases k <;> rfl
@[simp] theorem BCond.ofBits?_toNat (c : BCond) : BCond.ofBits? c.toNat = some c := by cases c <;> rfl
@[simp] theorem Size.ofBits?_toNat (c : Size) : Size.ofBits? c.toNat = some c := by cases c <;> rfl
@[simp] theorem OSize.ofBits?_toNat (c : OSize) : OSize.ofBits? c.toNat = some c := by cases c <;> rfl
@[simp] theorem Hint.ofBits?_toNat (c : Hint) : Hint.ofBits? c.toNat = some c := by cases c <;> rfl
@[simp] theorem Scope.ofBits?_toNat (c : Scope) : Scope.ofBits? c.toNat = some c := by cases c <;> rfl
@[simp] theorem RedOp.ofBits?_toNat (c : RedOp) : RedOp.ofBits? c.toNat = some c := by cases c <;> rfl
@[simp] theorem Ty.ofBits?_toNat (c : Ty) : Ty.ofBits? c.toNat = some c := by cases c <;> rfl

theorem ICond.toNat_ofBits {k : Nat} (h : k < 8) : (ICond.ofBits k).toNat = k := by interval_cases k <;> rfl
theorem FCond.toNat_ofBits {k : Nat} (h : k < 8) : (FCond.ofBits k).toNat = k := by interval_cases k <;> rfl
theorem FRndMode.toNat_ofBits {k : Nat} (h : k < 4) : (FRndMode.ofBits k).toNat = k := by interval_cases k <;> rfl
theorem ShflMode.toNat_ofBits {k : Nat} (h : k < 4) : (ShflMode.ofBits k).toNat = k := by interval_cases k <;> rfl
theorem Order.toNat_ofBits {k : Nat} (h : k < 4) : (Order.ofBits k).toNat = k := by interval_cases k <;> rfl
theorem Counter.toNat_ofBits {k : Nat} (h : k < 4) : (Counter.ofBits k).toNat = k := by interval_cases k <;> rfl

theorem BCond.toNat_of_ofBits? {k : Nat} {c : BCond} (h : BCond.ofBits? k = some c) : k = c.toNat := by
  unfold BCond.ofBits? at h
  split at h <;> cases h <;> rfl

theorem Size.toNat_of_ofBits? {k : Nat} {c : Size} (h : Size.ofBits? k = some c) : k = c.toNat := by
  unfold Size.ofBits? at h
  split at h <;> cases h <;> rfl

theorem OSize.toNat_of_ofBits? {k : Nat} {c : OSize} (h : OSize.ofBits? k = some c) : k = c.toNat := by
  unfold OSize.ofBits? at h
  split at h <;> cases h <;> rfl

theorem Hint.toNat_of_ofBits? {k : Nat} {c : Hint} (h : Hint.ofBits? k = some c) : k = c.toNat := by
  unfold Hint.ofBits? at h
  split at h <;> cases h <;> rfl

theorem Scope.toNat_of_ofBits? {k : Nat} {c : Scope} (h : Scope.ofBits? k = some c) : k = c.toNat := by
  unfold Scope.ofBits? at h
  split at h <;> cases h <;> rfl

theorem RedOp.toNat_of_ofBits? {k : Nat} {c : RedOp} (h : RedOp.ofBits? k = some c) : k = c.toNat := by
  unfold RedOp.ofBits? at h
  split at h <;> cases h <;> rfl

theorem Ty.toNat_of_ofBits? {k : Nat} {c : Ty} (h : Ty.ofBits? k = some c) : k = c.toNat := by
  unfold Ty.ofBits? at h
  split at h <;> cases h <;> rfl

/-! ## The formats (R193) -/

/-- A word of class 00 with its fields. -/
structure A3Word (n op d pa a pb b sub : Nat) : Prop where
  cls : bits n 30 2 = 0
  op : bits n 24 6 = op
  d : bits n 18 6 = d
  pa : bits n 16 2 = pa
  a : bits n 10 6 = a
  pb : bits n 8 2 = pb
  b : bits n 2 6 = b
  sub : bits n 0 2 = sub

theorem fmtA3_word {m d pa a pb b s n : Nat} (h : (BitVec.ofNat 32 (fmtA3 m d pa a pb b s)).toNat = n)
    (hm : m / 2 ^ 30 = 0 := by decide)
    (hs : m % 2 ^ 24 + s < 4 := by omega) (hd : d < 64 := by omega) (hpa : pa < 4 := by omega) (ha : a < 64 := by omega)
    (hpb : pb < 4 := by omega) (hb : b < 64 := by omega) :
    A3Word n (m / 2 ^ 24 % 64) d pa a pb b (m % 4 + s) := by
  rw [BitVec.toNat_ofNat, fmtA3] at h
  constructor <;> unfold bits <;> omega

theorem A3Word.fmtA3_eq {m d pa a pb b s n : Nat} (h : A3Word n (m / 2 ^ 24 % 64) d pa a pb b (m % 4 + s))
    (hn : n < 2 ^ 32) (hm : m / 2 ^ 30 = 0 ∧ m % 2 ^ 24 < 4) : fmtA3 m d pa a pb b s = n := by
  obtain ⟨hc, ho, hd, hpa, ha, hpb, hb, hs⟩ := h
  have hall := bits_join (bits_join (bits_join (bits_join (bits_join (bits_join (bits_join hs hb) hpb) ha) hpa) hd) ho) hc
  rw [← bits_all hn, fmtA3]
  refine Eq.trans ?_ hall.symm
  omega

/-- A word of class 01 with its fields. -/
structure A4Word (n op d a b c pa : Nat) : Prop where
  cls : bits n 30 2 = 1
  op : bits n 26 4 = op
  d : bits n 20 6 = d
  a : bits n 14 6 = a
  b : bits n 8 6 = b
  c : bits n 2 6 = c
  pa : bits n 0 2 = pa

theorem fmtA4_word {m d a b c pa n : Nat} (h : (BitVec.ofNat 32 (fmtA4 m d a b c pa)).toNat = n)
    (hm : m / 2 ^ 30 = 1 ∧ m % 2 ^ 26 = 0 := by decide)
    (hd : d < 64 := by omega) (ha : a < 64 := by omega) (hb : b < 64 := by omega) (hc : c < 64 := by omega)
    (hpa : pa < 4 := by omega) : A4Word n (m / 2 ^ 26 % 16) d a b c pa := by
  rw [BitVec.toNat_ofNat, fmtA4] at h
  constructor <;> unfold bits <;> omega

theorem A4Word.fmtA4_eq {m d a b c pa n : Nat} (h : A4Word n (m / 2 ^ 26 % 16) d a b c pa) (hn : n < 2 ^ 32)
    (hm : m / 2 ^ 30 = 1 ∧ m % 2 ^ 26 = 0) : fmtA4 m d a b c pa = n := by
  obtain ⟨hcls, ho, hd, ha, hb, hc, hpa⟩ := h
  have hall := bits_join (bits_join (bits_join (bits_join (bits_join (bits_join hpa hc) hb) ha) hd) ho) hcls
  rw [← bits_all hn, fmtA4]
  refine Eq.trans ?_ hall.symm
  omega

/-- A word of class 10 with its fields. -/
structure MWord (n op d a f x la : Nat) : Prop where
  cls : bits n 30 2 = 2
  op : bits n 24 6 = op
  d : bits n 18 6 = d
  a : bits n 12 6 = a
  f : bits n 9 3 = f
  x : bits n 4 5 = x
  la : bits n 0 4 = la

theorem fmtM_word {m d a f x la n : Nat} (h : (BitVec.ofNat 32 (fmtM m d a f x la)).toNat = n)
    (hm : m / 2 ^ 30 = 2 ∧ m % 2 ^ 24 = 0 := by decide)
    (hx : x < 32 := by omega) (hd : d < 64 := by omega) (ha : a < 64 := by omega) (hf : f < 8 := by omega)
    (hla : la < 16 := by omega) : MWord n (m / 2 ^ 24 % 64) d a f x la := by
  rw [BitVec.toNat_ofNat, fmtM] at h
  constructor <;> unfold bits <;> omega

theorem MWord.fmtM_eq {m d a f x la n : Nat} (h : MWord n (m / 2 ^ 24 % 64) d a f x la) (hn : n < 2 ^ 32)
    (hm : m / 2 ^ 30 = 2 ∧ m % 2 ^ 24 = 0) : fmtM m d a f x la = n := by
  obtain ⟨hc, ho, hd, ha, hf, hx, hla⟩ := h
  have hall := bits_join (bits_join (bits_join (bits_join (bits_join (bits_join hla hx) hf) ha) hd) ho) hc
  rw [← bits_all hn, fmtM]
  refine Eq.trans ?_ hall.symm
  omega

/-- Bits of X that are fixed beforehand are a part of it (MXTOK, R262). -/
theorem fmtM_fixed (m d a f x la k : Nat) : fmtM (m + k * 2 ^ 4) d a f x la = fmtM m d a f (k + x) la := by
  unfold fmtM
  omega

/-- A third operand lies across F and X (R203). -/
theorem fmtM_third (m d a b la : Nat) : fmtM m d a 0 (b * 4) la = fmtM m d a (b / 8) (b % 8 * 4) la := by
  unfold fmtM
  omega

/-- An offset lies across A, F and X (R203). -/
theorem fmtM_offset (m d off la : Nat) : fmtM m d 0 0 off la = fmtM m d (off / 256) (off / 32 % 8) (off % 32) la := by
  unfold fmtM
  omega

theorem fmtM_word_fixed {m d a f x la k n : Nat} (h : (BitVec.ofNat 32 (fmtM (m + k * 2 ^ 4) d a f x la)).toNat = n)
    (hm : m / 2 ^ 30 = 2 ∧ m % 2 ^ 24 = 0 := by decide) (hx : k + x < 32 := by omega) (hd : d < 64 := by omega)
    (ha : a < 64 := by omega) (hf : f < 8 := by omega) (hla : la < 16 := by omega) :
    MWord n (m / 2 ^ 24 % 64) d a f (k + x) la := by
  rw [fmtM_fixed] at h
  exact fmtM_word h hm

theorem fmtM_word_third {m d a b la n : Nat} (h : (BitVec.ofNat 32 (fmtM m d a 0 (b * 4) la)).toNat = n)
    (hm : m / 2 ^ 30 = 2 ∧ m % 2 ^ 24 = 0 := by decide) (hd : d < 64 := by omega) (ha : a < 64 := by omega)
    (hb : b < 64 := by omega) (hla : la < 16 := by omega) :
    MWord n (m / 2 ^ 24 % 64) d a (b / 8) (b % 8 * 4) la := by
  rw [fmtM_third] at h
  exact fmtM_word h hm

theorem fmtM_word_offset {m d off la n : Nat} (h : (BitVec.ofNat 32 (fmtM m d 0 0 off la)).toNat = n)
    (hm : m / 2 ^ 30 = 2 ∧ m % 2 ^ 24 = 0 := by decide) (hd : d < 64 := by omega) (ho : off < 2 ^ 14 := by omega)
    (hla : la < 16 := by omega) :
    MWord n (m / 2 ^ 24 % 64) d (off / 256) (off / 32 % 8) (off % 32) la := by
  rw [fmtM_offset] at h
  exact fmtM_word h hm

/-- A word of class 11 with bit 29 set, and its fields. -/
structure JWord (n op d imm : Nat) : Prop where
  cls : bits n 30 2 = 3
  bit : bits n 29 1 = 1
  op : bits n 26 3 = op
  d : bits n 20 6 = d
  imm : bits n 0 20 = imm

theorem fmtJ_word {m d imm n : Nat} (h : (BitVec.ofNat 32 (fmtJ m d imm)).toNat = n)
    (hm : m / 2 ^ 29 = 7 ∧ m % 2 ^ 26 = 0 := by decide)
    (hd : d < 64 := by omega) (hi : imm < 2 ^ 20 := by omega) : JWord n (m / 2 ^ 26 % 8) d imm := by
  rw [BitVec.toNat_ofNat, fmtJ] at h
  constructor <;> unfold bits <;> omega

theorem JWord.fmtJ_eq {m d imm n : Nat} (h : JWord n (m / 2 ^ 26 % 8) d imm) (hn : n < 2 ^ 32)
    (hm : m / 2 ^ 29 = 7 ∧ m % 2 ^ 26 = 0) : fmtJ m d imm = n := by
  obtain ⟨hc, hb, ho, hd, hi⟩ := h
  have hall := bits_join (bits_join (bits_join (bits_join hi hd) ho) hb) hc
  rw [← bits_all hn, fmtJ]
  refine Eq.trans ?_ hall.symm
  omega

/-- A word of class 11 with bit 29 clear, and its fields. -/
structure IWord (n op d a imm : Nat) : Prop where
  cls : bits n 30 2 = 3
  bit : bits n 29 1 = 0
  op : bits n 24 5 = op
  d : bits n 18 6 = d
  a : bits n 12 6 = a
  imm : bits n 0 12 = imm

theorem fmtI_word {m d a imm n : Nat} (h : (BitVec.ofNat 32 (fmtI m d a imm)).toNat = n)
    (hm : m / 2 ^ 29 = 6 ∧ m % 2 ^ 24 = 0 := by decide)
    (hi : imm < 2 ^ 12 := by omega) (hd : d < 64 := by omega) (ha : a < 64 := by omega) :
    IWord n (m / 2 ^ 24 % 32) d a imm := by
  rw [BitVec.toNat_ofNat, fmtI] at h
  constructor <;> unfold bits <;> omega

theorem IWord.fmtI_eq {m d a imm n : Nat} (h : IWord n (m / 2 ^ 24 % 32) d a imm) (hn : n < 2 ^ 32)
    (hm : m / 2 ^ 29 = 6 ∧ m % 2 ^ 24 = 0) : fmtI m d a imm = n := by
  obtain ⟨hc, hb, ho, hd, ha, hi⟩ := h
  have hall := bits_join (bits_join (bits_join (bits_join (bits_join hi ha) hd) ho) hb) hc
  rw [← bits_all hn, fmtI]
  refine Eq.trans ?_ hall.symm
  omega

/-- A word of SYS with its fields (R207). -/
structure SysWord (n d a sub e : Nat) : Prop where
  cls : bits n 30 2 = 3
  bit : bits n 29 1 = 0
  op : bits n 24 5 = 0x1F
  d : bits n 18 6 = d
  a : bits n 12 6 = a
  sub : bits n 6 6 = sub
  e : bits n 0 6 = e

theorem fmtI_sysWord {m d a e n : Nat} (h : (BitVec.ofNat 32 (fmtI m d a e)).toNat = n)
    (hm : m / 2 ^ 24 = 0xDF ∧ m % 2 ^ 24 < 2 ^ 12 ∧ m % 64 = 0 := by decide) (he : e < 64 := by omega)
    (hd : d < 64 := by omega) (ha : a < 64 := by omega) : SysWord n d a (m % 2 ^ 12 / 2 ^ 6) e := by
  rw [BitVec.toNat_ofNat, fmtI] at h
  constructor <;> unfold bits <;> omega

theorem SysWord.fmtI_eq {m d a e n : Nat} (h : SysWord n d a (m % 2 ^ 12 / 2 ^ 6) e) (hn : n < 2 ^ 32)
    (hm : m / 2 ^ 24 = 0xDF ∧ m % 2 ^ 24 < 2 ^ 12 ∧ m % 64 = 0) : fmtI m d a e = n := by
  obtain ⟨hc, hb, ho, hd, ha, hs, he⟩ := h
  have hall := bits_join (bits_join (bits_join (bits_join (bits_join (bits_join he hs) ha) hd) ho) hb) hc
  rw [← bits_all hn, fmtI]
  refine Eq.trans ?_ hall.symm
  omega

end Sys2Proof.Proofs

/-! PROOFS. The decoder reads the encoder's words (09/R193): the fields of an instruction's word pick its row of the decoder
and give back its operands. -/

namespace Sys2Proof.Proofs

open Sys2Proof.Machine

open Sys2Proof.Safety

@[simp] theorem zeroed_true (r : Except Reject Instr) : zeroed true r = r := rfl

@[simp] theorem ofCode_some {α : Type} (x : α) (f : α → Except Reject Instr) : ofCode (some x) f = f x := rfl

@[simp] theorem toNat_beq_one (b : Bool) : (b.toNat == 1) = b := by cases b <;> rfl

@[simp] theorem fencex_dir (dir : FenceDir) : (if dir.toNat = 0 then FenceDir.o2e else .e2o) = dir := by cases dir <;> rfl


/-- Every instruction that has a word of its own is what the fields of its word say. -/
theorem decodeFields_encode (i : Instr) (he : i.isEvent = false) (hu : ∀ w, i ≠ .unassignedWord w) :
    decodeFields (encode i).toNat = .ok i := by
  cases i
  -- class 00
  case add | sub | addc | subb | mul | mulh | absd | avg | min | max | satadd | satsub | and | or | xor | andn | orn | rol |
      fshr | shl | shr | sar | bfx | bmsk | fadd | fsub | fmul | fmin | fmax | fscale | pack | unpk =>
    generalize hn : BitVec.toNat _ = n
    obtain ⟨hc, ho, hd, hp, ha, hq, hb, hs⟩ := fmtA3_word hn
    simp [decodeFields, decodeA3, hc, ho, hs, reg_eq hd, reg_eq ha, reg_eq hb, sel_eq hp, sel_eq hq]
  case popc | clz | ctz | brev | fneg | fabs | ffract | fclass | sat | qxh | qxv | qxd | mov | hlprd =>
    generalize hn : BitVec.toNat _ = n
    obtain ⟨hc, ho, hd, hp, ha, hq, hb, hs⟩ := fmtA3_word hn
    simp [decodeFields, decodeA3, hc, ho, hs, reg_eq hd, reg_eq ha, sel_eq hp, bits_zero_join (w := 6) (v := 2) hb hq]
  case cmp c kd p a q b | fcmp c kd p a q b =>
    have hcode := c.code_lt
    generalize hn : BitVec.toNat _ = n
    obtain ⟨hc, ho, hd, hp, ha, hq, hb, hs⟩ := fmtA3_word hn
    obtain ⟨hk, hcnd⟩ := bits_pair (w := 3) (v := 3) hd kd.isLt
    simp [decodeFields, decodeA3, hc, ho, hs, low_eq hk, hcnd, reg_eq ha, reg_eq hb, sel_eq hp, sel_eq hq]
  case scmp c p a q b =>
    have hcode := c.code_lt
    generalize hn : BitVec.toNat _ = n
    obtain ⟨hc, ho, hd, hp, ha, hq, hb, hs⟩ := fmtA3_word hn
    obtain ⟨hz, hcnd⟩ := bits_pair (w := 3) (v := 3) (x := 0) hd (by decide)
    simp [decodeFields, decodeA3, hc, ho, hs, hz, hcnd, reg_eq ha, reg_eq hb, sel_eq hp, sel_eq hq]
  case selK03 d p a q b m | selK47 d p a q b m =>
    generalize hn : BitVec.toNat _ = n
    obtain ⟨hc, ho, hd, hp, ha, hq, hb, hs⟩ := fmtA3_word hn
    simp [decodeFields, decodeA3, hc, ho, reg_eq hd, reg_eq ha, reg_eq hb, sel_eq hp, sel_eq hq,
      sel_eq (hs.trans (Nat.zero_add _))]
  case shfl d p a q b m =>
    have hcode := m.code_lt
    generalize hn : BitVec.toNat _ = n
    obtain ⟨hc, ho, hd, hp, ha, hq, hb, hs⟩ := fmtA3_word hn
    simp [decodeFields, decodeA3, hc, ho, hs, reg_eq hd, reg_eq ha, reg_eq hb, sel_eq hp, sel_eq hq]
  case frnd d p a r =>
    have hcode := r.code_lt
    generalize hn : BitVec.toNat _ = n
    obtain ⟨hc, ho, hd, hp, ha, hq, hb, hs⟩ := fmtA3_word hn
    simp [decodeFields, decodeA3, hc, ho, hs, reg_eq hd, reg_eq ha, sel_eq hp, bits_zero_join (w := 6) (v := 2) hb hq]
  case cvt d p a t rz =>
    have hcode := t.code_lt
    have hbit := rz.toNat_lt
    generalize hn : BitVec.toNat _ = n
    obtain ⟨hc, ho, hd, hp, ha, hq, hb, hs⟩ := fmtA3_word hn
    obtain ⟨ht, hz⟩ := bits_narrow (w := 4) (v := 2) hb (by omega)
    obtain ⟨hrz, -⟩ := bits_narrow (w := 1) (v := 1) hs (by omega)
    cases rz <;> simp [decodeFields, decodeA3, hc, ho, hs, reg_eq hd, reg_eq ha, sel_eq hp, ht, hrz,
      bits_zero_join (w := 2) (v := 2) hz hq]
  case wred d p a op =>
    have hcode := op.code_lt
    generalize hn : BitVec.toNat _ = n
    obtain ⟨hc, ho, hd, hp, ha, hq, hb, hs⟩ := fmtA3_word hn
    obtain ⟨hop, hz⟩ := bits_narrow (w := 3) (v := 3) hb (by omega)
    simp [decodeFields, decodeA3, hc, ho, hs, reg_eq hd, reg_eq ha, sel_eq hp, hop, bits_zero_join (w := 3) (v := 2) hz hq]
  case wscan d p a op excl =>
    have hcode := op.code_lt
    have hbit := excl.toNat_lt
    generalize hn : BitVec.toNat _ = n
    obtain ⟨hc, ho, hd, hp, ha, hq, hb, hs⟩ := fmtA3_word hn
    obtain ⟨hop, hz⟩ := bits_narrow (w := 3) (v := 3) hb (by omega)
    obtain ⟨hexcl, -⟩ := bits_narrow (w := 1) (v := 1) hs (by omega)
    cases excl <;> simp [decodeFields, decodeA3, hc, ho, hs, reg_eq hd, reg_eq ha, sel_eq hp, hop, hexcl,
      bits_zero_join (w := 3) (v := 2) hz hq]
  case qbc d p a k =>
    generalize hn : BitVec.toNat _ = n
    obtain ⟨hc, ho, hd, hp, ha, hq, hb, hs⟩ := fmtA3_word hn
    obtain ⟨hk, hz⟩ := bits_narrow (w := 2) (v := 4) hb k.isLt
    simp [decodeFields, decodeA3, hc, ho, hs, reg_eq hd, reg_eq ha, sel_eq hp, sel_eq hk,
      bits_zero_join (w := 4) (v := 2) hz hq]
  case qswz d p a hi6 lo2 =>
    generalize hn : BitVec.toNat _ = n
    obtain ⟨hc, ho, hd, hp, ha, hq, hb, hs⟩ := fmtA3_word hn
    simp [decodeFields, decodeA3, hc, ho, reg_eq hd, reg_eq ha, reg_eq hb, sel_eq hp, hq, sel_eq (hs.trans (Nat.zero_add _))]
  case kand kd ka kb | kor kd ka kb | kxor kd ka kb | kandn kd ka kb =>
    generalize hn : BitVec.toNat _ = n
    obtain ⟨hc, ho, hd, hp, ha, hq, hb, hs⟩ := fmtA3_word hn
    obtain ⟨hkd, hzd⟩ := bits_narrow (w := 3) (v := 3) hd kd.isLt
    obtain ⟨hka, hza⟩ := bits_narrow (w := 3) (v := 3) ha ka.isLt
    obtain ⟨hkb, hzb⟩ := bits_narrow (w := 3) (v := 3) hb kb.isLt
    simp [decodeFields, decodeA3, hc, ho, hs, low_eq hkd, low_eq hka, low_eq hkb, hzd,
      bits_zero_join (w := 3) (v := 2) hza hp, bits_zero_join (w := 3) (v := 2) hzb hq]
  case knot kd ka | kmov kd ka =>
    generalize hn : BitVec.toNat _ = n
    obtain ⟨hc, ho, hd, hp, ha, hq, hb, hs⟩ := fmtA3_word hn
    obtain ⟨hkd, hzd⟩ := bits_narrow (w := 3) (v := 3) hd kd.isLt
    obtain ⟨hka, hza⟩ := bits_narrow (w := 3) (v := 3) ha ka.isLt
    simp [decodeFields, decodeA3, hc, ho, hs, low_eq hkd, low_eq hka, hzd,
      bits_zero_join (w := 3) (v := 2) hza hp, bits_zero_join (w := 6) (v := 2) hb hq]
  case kpopc d ka | kffs d ka =>
    generalize hn : BitVec.toNat _ = n
    obtain ⟨hc, ho, hd, hp, ha, hq, hb, hs⟩ := fmtA3_word hn
    obtain ⟨hka, hza⟩ := bits_narrow (w := 3) (v := 3) ha ka.isLt
    simp [decodeFields, decodeA3, hc, ho, hs, reg_eq hd, low_eq hka, bits_zero_join (w := 3) (v := 2) hza hp,
      bits_zero_join (w := 6) (v := 2) hb hq]
  case exmrd kd =>
    generalize hn : BitVec.toNat _ = n
    obtain ⟨hc, ho, hd, hp, ha, hq, hb, hs⟩ := fmtA3_word hn
    obtain ⟨hkd, hzd⟩ := bits_narrow (w := 3) (v := 3) hd kd.isLt
    have hz := bits_zero_join (bits_zero_join (bits_zero_join hb hq) ha) hp
    simp [decodeFields, decodeA3, hc, ho, hs, low_eq hkd, hzd, hz]
  case exmwr ka =>
    generalize hn : BitVec.toNat _ = n
    obtain ⟨hc, ho, hd, hp, ha, hq, hb, hs⟩ := fmtA3_word hn
    obtain ⟨hka, hza⟩ := bits_narrow (w := 3) (v := 3) ha ka.isLt
    have hz := bits_zero_join (bits_zero_join hza hp) hd
    simp [decodeFields, decodeA3, hc, ho, hs, low_eq hka, hz, bits_zero_join (w := 6) (v := 2) hb hq]
  case sread d k =>
    generalize hn : BitVec.toNat _ = n
    obtain ⟨hc, ho, hd, hp, ha, hq, hb, hs⟩ := fmtA3_word hn
    simp [decodeFields, decodeA3, hc, ho, hs, reg_eq hd, reg_eq ha, hp, bits_zero_join (w := 6) (v := 2) hb hq]
  -- class 01
  case fma | fms | fnma | mad | madh | bfi | dot4 | fdot2 | lerp | clamp =>
    generalize hn : BitVec.toNat _ = n
    obtain ⟨hcls, ho, hd, ha, hb, hc, hp⟩ := fmtA4_word hn
    simp [decodeFields, decodeA4, hcls, ho, reg_eq hd, reg_eq ha, reg_eq hb, reg_eq hc, sel_eq hp]
  -- class 10: accesses
  case ld d a f sz ch la | st d a f sz ch la =>
    have hsize := sz.code_lt
    have hhint := ch.code_lt
    generalize hn : BitVec.toNat _ = n
    obtain ⟨hc, ho, hd, ha, hf, hx, hla⟩ := fmtM_word hn
    obtain ⟨hch, hsz⟩ := bits_pair (w := 2) (v := 3) hx (by omega)
    simp [decodeFields, decodeM, decodeMem, hc, ho, reg_eq hd, reg_eq ha, low_eq hf, hch, hsz, ahead_eq hla]
  case ldl d a sz la | stl d a sz la =>
    have hsize := sz.code_lt
    generalize hn : BitVec.toNat _ = n
    obtain ⟨hc, ho, hd, ha, hf, hx, hla⟩ := fmtM_word hn
    obtain ⟨hz, hsz⟩ := bits_pair (w := 2) (v := 3) (x := 0) hx (by decide)
    simp [decodeFields, decodeM, decodeMem, hc, ho, reg_eq hd, reg_eq ha, hf, hz, hsz, ahead_eq hla]
  case prf flt a f sz ch la =>
    have hflt := flt.toNat_lt
    have hsize := sz.code_lt
    have hhint := ch.code_lt
    generalize hn : BitVec.toNat _ = n
    obtain ⟨hc, ho, hd, ha, hf, hx, hla⟩ := fmtM_word hn
    obtain ⟨hflt', hzd⟩ := bits_narrow (w := 1) (v := 5) hd (by omega)
    obtain ⟨hch, hsz⟩ := bits_pair (w := 2) (v := 3) hx (by omega)
    simp [decodeFields, decodeM, decodeMem, hc, ho, hflt', hzd, reg_eq ha, low_eq hf, hch, hsz, ahead_eq hla]
  case ldAcq d a f sz sc la | stRel d a f sz sc la =>
    have hsize := sz.code_lt
    have hscope := sc.code_lt
    generalize hn : BitVec.toNat _ = n
    obtain ⟨hc, ho, hd, ha, hf, hx, hla⟩ := fmtM_word hn
    obtain ⟨hsc, hsz⟩ := bits_pair (w := 3) (v := 2) hx (by omega)
    simp [decodeFields, decodeM, decodeMem, hc, ho, reg_eq hd, reg_eq ha, low_eq hf, hsc, hsz, ahead_eq hla]
  case aadd d a f sc o la | amin d a f sc o la | amax d a f sc o la | aand d a f sc o la | aor d a f sc o la |
      axor d a f sc o la | axchg d a f sc o la | acas d a f sc o la | afadd d a f sc o la | ainc d a f sc o la =>
    have hscope := sc.code_lt
    have horder := o.code_lt
    generalize hn : BitVec.toNat _ = n
    obtain ⟨hc, ho, hd, ha, hf, hx, hla⟩ := fmtM_word hn
    obtain ⟨hord, hsc⟩ := bits_pair (w := 2) (v := 3) hx (by omega)
    simp [decodeFields, decodeM, decodeMem, hc, ho, reg_eq hd, reg_eq ha, low_eq hf, hord, hsc, ahead_eq hla]
  -- class 10: orderings and translation
  case fence sc la =>
    have hscope := sc.code_lt
    generalize hn : BitVec.toNat _ = n
    obtain ⟨hc, ho, hd, ha, hf, hx, hla⟩ := fmtM_word hn
    obtain ⟨hsc, hz⟩ := bits_narrow (w := 3) (v := 2) hx (by omega)
    have hrest := bits_zero_join (bits_zero_join (bits_zero_join hz hf) ha) hd
    simp [decodeFields, decodeM, decodeMem, hc, ho, hsc, hrest, ahead_eq hla]
  case fencex dir la =>
    have hcode := dir.code_lt
    generalize hn : BitVec.toNat _ = n
    obtain ⟨hc, ho, hd, ha, hf, hx, hla⟩ := fmtM_word hn
    obtain ⟨hdir, hz⟩ := bits_narrow (w := 1) (v := 4) hx (by omega)
    have hrest := bits_zero_join (bits_zero_join (bits_zero_join hz hf) ha) hd
    simp [decodeFields, decodeM, decodeMem, hc, ho, hdir, hrest, ahead_eq hla]
  case wait k cnt la =>
    have hcode := cnt.code_lt
    generalize hn : BitVec.toNat _ = n
    obtain ⟨hc, ho, hd, ha, hf, hx, hla⟩ := fmtM_word hn
    obtain ⟨hcnt, hz⟩ := bits_narrow (w := 2) (v := 1) hf (by omega)
    simp [decodeFields, decodeM, decodeMem, hc, ho, hx, hd, hz, hcnt, reg_eq ha, ahead_eq hla]
  case xlb a f la =>
    generalize hn : BitVec.toNat _ = n
    obtain ⟨hc, ho, hd, ha, hf, hx, hla⟩ := fmtM_word hn
    simp [decodeFields, decodeM, decodeMem, hc, ho, hx, hd, reg_eq ha, low_eq hf, ahead_eq hla]
  case xinv a sc la =>
    have hscope := sc.code_lt
    generalize hn : BitVec.toNat _ = n
    obtain ⟨hc, ho, hd, ha, hf, hx, hla⟩ := fmtM_word hn
    obtain ⟨hsc, hz⟩ := bits_narrow (w := 3) (v := 2) hx (by omega)
    simp [decodeFields, decodeM, decodeMem, hc, ho, hsc, hd, reg_eq ha, bits_zero_join (w := 2) (v := 3) hz hf, ahead_eq hla]
  -- class 10: long-latency operations and copies
  case fdiv d a b la | idiv d a b la | irem d a b la =>
    generalize hn : BitVec.toNat _ = n
    obtain ⟨hc, ho, hd, ha, hf, hx, hla⟩ := fmtM_word_third hn
    obtain ⟨hz, hlow⟩ := bits_pair (w := 2) (v := 3) (x := 0) hx (by decide)
    have hb : bits n 6 6 = b.val := (bits_join hlow hf).trans (by omega)
    simp [decodeFields, decodeM, decodeLong, hc, ho, reg_eq hd, reg_eq ha, reg_eq hb, hz, ahead_eq hla]
  case fsqrt | frcp | frsq | fexp2 | flog2 | fsin | fcos | cpys =>
    generalize hn : BitVec.toNat _ = n
    obtain ⟨hc, ho, hd, ha, hf, hx, hla⟩ := fmtM_word hn
    simp [decodeFields, decodeM, decodeLong, hc, ho, reg_eq hd, reg_eq ha, bits_zero_join (w := 5) (v := 3) hx hf,
      ahead_eq hla]
  case cpy d a f ch la | cpyg d a f ch la =>
    have hcode := ch.code_lt
    generalize hn : BitVec.toNat _ = n
    obtain ⟨hc, ho, hd, ha, hf, hx, hla⟩ := fmtM_word hn
    obtain ⟨hch, hz⟩ := bits_narrow (w := 2) (v := 3) hx (by omega)
    simp [decodeFields, decodeM, decodeLong, hc, ho, reg_eq hd, reg_eq ha, low_eq hf, hch, hz, ahead_eq hla]
  case cpymc d a f mask la =>
    generalize hn : BitVec.toNat _ = n
    obtain ⟨hc, ho, hd, ha, hf, hx, hla⟩ := fmtM_word hn
    obtain ⟨hmask, hz⟩ := bits_narrow (w := 4) (v := 1) hx mask.isLt
    simp [decodeFields, decodeM, decodeLong, hc, ho, reg_eq hd, reg_eq ha, low_eq hf, hmask, hz, ahead_eq hla]
  case cpyst g a f ch la =>
    have hcode := ch.code_lt
    generalize hn : BitVec.toNat _ = n
    obtain ⟨hc, ho, hd, ha, hf, hx, hla⟩ := fmtM_word hn
    obtain ⟨hg, hzd⟩ := bits_narrow (w := 3) (v := 3) hd g.isLt
    obtain ⟨hch, hz⟩ := bits_narrow (w := 2) (v := 3) hx (by omega)
    simp [decodeFields, decodeM, decodeLong, hc, ho, low_eq hg, hzd, reg_eq ha, low_eq hf, hch, hz, ahead_eq hla]
  case cpyp d a f g ch la | cpyq d a f g ch la =>
    have hcode := ch.code_lt
    generalize hn : BitVec.toNat _ = n
    obtain ⟨hc, ho, hd, ha, hf, hx, hla⟩ := fmtM_word hn
    obtain ⟨hch, hg⟩ := bits_pair (w := 2) (v := 3) hx (by omega)
    simp [decodeFields, decodeM, decodeLong, hc, ho, reg_eq hd, reg_eq ha, low_eq hf, hch, low_eq hg, ahead_eq hla]
  -- class 10: matrix and accumulator operations
  case mma d a z c la | mmas d a z c la | mmab d a z c la =>
    have hbit := z.toNat_lt
    generalize hn : BitVec.toNat _ = n
    obtain ⟨hc, ho, hd, ha, hf, hx, hla⟩ := fmtM_word hn
    obtain ⟨hcc, hz⟩ := bits_pair (w := 4) (v := 1) hx c.isLt
    simp [decodeFields, decodeM, decodeEngine, hc, ho, reg_eq hd, reg_eq ha, hf, ahead_eq hcc, hz, ahead_eq hla]
  case comp a c la =>
    generalize hn : BitVec.toNat _ = n
    obtain ⟨hc, ho, hd, ha, hf, hx, hla⟩ := fmtM_word hn
    obtain ⟨hcc, hz⟩ := bits_narrow (w := 4) (v := 1) hx c.isLt
    simp [decodeFields, decodeM, decodeEngine, hc, ho, hd, reg_eq ha, bits_zero_join (w := 1) (v := 3) hz hf, ahead_eq hcc,
      ahead_eq hla]
  case plnw a s c la | plnr a s c la =>
    have hbit := s.toNat_lt
    generalize hn : BitVec.toNat _ = n
    obtain ⟨hc, ho, hd, ha, hf, hx, hla⟩ := fmtM_word hn
    obtain ⟨hcc, hz⟩ := bits_narrow (w := 4) (v := 1) hx c.isLt
    obtain ⟨hs, hzf⟩ := bits_narrow (w := 1) (v := 2) hf (by omega)
    simp [decodeFields, decodeM, decodeEngine, hc, ho, hd, reg_eq ha, hz, hs, hzf, ahead_eq hcc, ahead_eq hla]
  case accz d k la =>
    generalize hn : BitVec.toNat _ = n
    obtain ⟨hc, ho, hd, ha, hf, hx, hla⟩ := fmtM_word hn
    simp [decodeFields, decodeM, decodeEngine, hc, ho, reg_eq hd, fin32_eq hx, bits_zero_join (w := 3) (v := 6) hf ha,
      ahead_eq hla]
  case accld | accst =>
    generalize hn : BitVec.toNat _ = n
    obtain ⟨hc, ho, hd, ha, hf, hx, hla⟩ := fmtM_word hn
    simp [decodeFields, decodeM, decodeEngine, hc, ho, reg_eq hd, reg_eq ha, bits_zero_join (w := 5) (v := 3) hx hf,
      ahead_eq hla]
  case accrd | accwr =>
    generalize hn : BitVec.toNat _ = n
    obtain ⟨hc, ho, hd, ha, hf, hx, hla⟩ := fmtM_word hn
    simp [decodeFields, decodeM, decodeEngine, hc, ho, reg_eq hd, reg_eq ha, hf, fin32_eq hx, ahead_eq hla]
  case mxtokAcq la =>
    generalize hn : BitVec.toNat _ = n
    obtain ⟨hc, ho, hd, ha, hf, hx, hla⟩ := fmtM_word hn
    obtain ⟨hz, hsub⟩ := bits_zero_pair (w := 3) (v := 2) hx
    simp [decodeFields, decodeM, decodeEngine, hc, ho, hz, hsub, bits_zero_join (bits_zero_join hf ha) hd, ahead_eq hla]
  case mxtokRel la =>
    generalize hn : BitVec.toNat _ = n
    obtain ⟨hc, ho, hd, ha, hf, hx, hla⟩ := fmtM_word_fixed (m := 0xB4000000) (k := 8) hn
    obtain ⟨hz, hsub⟩ := bits_pair (w := 3) (v := 2) (y := 1) (x := 0) hx (by decide)
    simp [decodeFields, decodeM, decodeEngine, hc, ho, hz, hsub, bits_zero_join (bits_zero_join hf ha) hd, ahead_eq hla]
  case mxtokPass w la =>
    generalize hn : BitVec.toNat _ = n
    obtain ⟨hc, ho, hd, ha, hf, hx, hla⟩ := fmtM_word_fixed (m := 0xB4000000) (k := 16) hn
    obtain ⟨hz, hsub⟩ := bits_pair (w := 3) (v := 2) (y := 2) (x := 0) hx (by decide)
    obtain ⟨hw, hza⟩ := bits_narrow (w := 4) (v := 2) ha w.isLt
    simp [decodeFields, decodeM, decodeEngine, hc, ho, hz, hsub, hf, ahead_eq hw, bits_zero_join (w := 2) (v := 6) hza hd,
      ahead_eq hla]
  -- class 10: barriers, rings and tasks
  case bar b la =>
    generalize hn : BitVec.toNat _ = n
    obtain ⟨hc, ho, hd, ha, hf, hx, hla⟩ := fmtM_word hn
    obtain ⟨hb, hz⟩ := bits_narrow (w := 3) (v := 2) hx b.isLt
    have hrest := bits_zero_join (bits_zero_join (bits_zero_join hz hf) ha) hd
    simp [decodeFields, decodeM, decodeEngine, hc, ho, low_eq hb, hrest, ahead_eq hla]
  case sstep la =>
    generalize hn : BitVec.toNat _ = n
    obtain ⟨hc, ho, hd, ha, hf, hx, hla⟩ := fmtM_word hn
    have hrest := bits_zero_join (bits_zero_join (bits_zero_join hx hf) ha) hd
    simp [decodeFields, decodeM, decodeEngine, hc, ho, hrest, ahead_eq hla]
  case rnga | rngw =>
    generalize hn : BitVec.toNat _ = n
    obtain ⟨hc, ho, hd, ha, hf, hx, hla⟩ := fmtM_word hn
    simp [decodeFields, decodeM, decodeEngine, hc, ho, reg_eq hd, ha, low_eq hf, hx, ahead_eq hla]
  case rngc | rngf =>
    generalize hn : BitVec.toNat _ = n
    obtain ⟨hc, ho, hd, ha, hf, hx, hla⟩ := fmtM_word hn
    simp [decodeFields, decodeM, decodeEngine, hc, ho, hd, reg_eq ha, low_eq hf, hx, ahead_eq hla]
  case yieldc k off la =>
    generalize hn : BitVec.toNat _ = n
    obtain ⟨hc, ho, hd, ha, hf, hx, hla⟩ := fmtM_word_offset hn
    have hoff : bits n 4 14 = off.toNat := (bits_join (bits_join hx hf) ha).trans (by omega)
    simp [decodeFields, decodeM, decodeEngine, hc, ho, reg_eq hd, hoff, ahead_eq hla]
  case enq | enqd =>
    generalize hn : BitVec.toNat _ = n
    obtain ⟨hc, ho, hd, ha, hf, hx, hla⟩ := fmtM_word hn
    simp [decodeFields, decodeM, decodeEngine, hc, ho, hd, reg_eq ha, bits_zero_join (w := 5) (v := 3) hx hf, ahead_eq hla]
  -- class 11, J format
  case movh d imm =>
    generalize hn : BitVec.toNat _ = n
    obtain ⟨hc, hb, ho, hd, hi⟩ := fmtJ_word hn
    simp [decodeFields, decodeJ, hc, hb, ho, reg_eq hd, hi]
  case br m c off =>
    have hcode := c.code_lt
    generalize hn : BitVec.toNat _ = n
    obtain ⟨hc, hb, ho, hd, hi⟩ := fmtJ_word hn
    obtain ⟨hcnd, hm⟩ := bits_pair (w := 3) (v := 3) hd (by omega)
    simp [decodeFields, decodeJ, hc, hb, ho, low_eq hm, hcnd, hi]
  case call | sigchk =>
    generalize hn : BitVec.toNat _ = n
    obtain ⟨hc, hb, ho, hd, hi⟩ := fmtJ_word hn
    simp [decodeFields, decodeJ, hc, hb, ho, hd, hi]
  -- class 11, I format
  case addi | andi | ori | xori | ldc | esc =>
    generalize hn : BitVec.toNat _ = n
    obtain ⟨hc, hb, ho, hd, ha, hi⟩ := fmtI_word hn
    simp [decodeFields, decodeI, hc, hb, ho, reg_eq hd, reg_eq ha, hi]
  case shli d a c | shri d a c | sari d a c =>
    generalize hn : BitVec.toNat _ = n
    obtain ⟨hc, hb, ho, hd, ha, hi⟩ := fmtI_word hn
    obtain ⟨hcount, hz⟩ := bits_narrow (w := 6) (v := 6) hi c.isLt
    simp [decodeFields, decodeI, hc, hb, ho, reg_eq hd, reg_eq ha, reg_eq hcount, hz]
  case cmpi c kd a imm =>
    have hcode := c.code_lt
    generalize hn : BitVec.toNat _ = n
    obtain ⟨hc, hb, ho, hd, ha, hi⟩ := fmtI_word hn
    obtain ⟨hk, hcnd⟩ := bits_pair (w := 3) (v := 3) hd kd.isLt
    simp [decodeFields, decodeI, hc, hb, ho, low_eq hk, hcnd, reg_eq ha, hi]
  case movi =>
    generalize hn : BitVec.toNat _ = n
    obtain ⟨hc, hb, ho, hd, ha, hi⟩ := fmtI_word hn
    simp [decodeFields, decodeI, hc, hb, ho, reg_eq hd, ha, hi]
  case callr | jmpr | setm =>
    generalize hn : BitVec.toNat _ = n
    obtain ⟨hc, hb, ho, hd, ha, hi⟩ := fmtI_word hn
    simp [decodeFields, decodeI, hc, hb, ho, hd, reg_eq ha, hi]
  case callg | enter | bkpt | trap =>
    generalize hn : BitVec.toNat _ = n
    obtain ⟨hc, hb, ho, hd, ha, hi⟩ := fmtI_word hn
    simp [decodeFields, decodeI, hc, hb, ho, hi, bits_zero_join (w := 6) (v := 6) ha hd]
  case ret | exit | melse | mpop | regn | nop =>
    generalize hn : BitVec.toNat _ = n
    obtain ⟨hc, hb, ho, hd, ha, hi⟩ := fmtI_word hn
    simp [decodeFields, decodeI, hc, hb, ho, bits_zero_join (bits_zero_join hi ha) hd]
  case mpush k =>
    generalize hn : BitVec.toNat _ = n
    obtain ⟨hc, hb, ho, hd, ha, hi⟩ := fmtI_word hn
    obtain ⟨hk, hz⟩ := bits_narrow (w := 3) (v := 3) ha k.isLt
    simp [decodeFields, decodeI, hc, hb, ho, low_eq hk, hi, bits_zero_join (w := 3) (v := 6) hz hd]
  case setmf f v =>
    generalize hn : BitVec.toNat _ = n
    obtain ⟨hc, hb, ho, hd, ha, hi⟩ := fmtI_word hn
    obtain ⟨hv, hf⟩ := bits_pair (w := 8) (v := 4) hi v.isLt
    simp [decodeFields, decodeI, hc, hb, ho, hv, ahead_eq hf, bits_zero_join (w := 6) (v := 6) ha hd]
  case getm =>
    generalize hn : BitVec.toNat _ = n
    obtain ⟨hc, hb, ho, hd, ha, hi⟩ := fmtI_word hn
    simp [decodeFields, decodeI, hc, hb, ho, reg_eq hd, bits_zero_join (w := 12) (v := 6) hi ha]
  -- SYS
  case prld | prst | prreg | pwreg | predir | reord | krepl | csrr | csrw =>
    generalize hn : BitVec.toNat _ = n
    obtain ⟨hc, hb, ho, hd, ha, hs, hz⟩ := fmtI_sysWord hn
    simp [decodeFields, decodeI, decodeSys, hc, hb, ho, hs, reg_eq hd, reg_eq ha, hz]
  case presume | pretry | pkill | prplay =>
    generalize hn : BitVec.toNat _ = n
    obtain ⟨hc, hb, ho, hd, ha, hs, hz⟩ := fmtI_sysWord hn
    simp [decodeFields, decodeI, decodeSys, hc, hb, ho, hs, hd, reg_eq ha, hz]
  case snap s =>
    have hbit := s.toNat_lt
    generalize hn : BitVec.toNat _ = n
    obtain ⟨hc, hb, ho, hd, ha, hs, hx⟩ := fmtI_sysWord hn
    obtain ⟨hsnap, hz⟩ := bits_narrow (w := 1) (v := 5) hx (by omega)
    simp [decodeFields, decodeI, decodeSys, hc, hb, ho, hs, hsnap, hz, bits_zero_join (w := 6) (v := 6) ha hd]
  case ptld d a k =>
    generalize hn : BitVec.toNat _ = n
    obtain ⟨hc, hb, ho, hd, ha, hs, hx⟩ := fmtI_sysWord hn
    obtain ⟨hk, hz⟩ := bits_narrow (w := 3) (v := 3) hx k.isLt
    simp [decodeFields, decodeI, decodeSys, hc, hb, ho, hs, reg_eq hd, reg_eq ha, low_eq hk, hz]
  case rgset d a e =>
    generalize hn : BitVec.toNat _ = n
    obtain ⟨hc, hb, ho, hd, ha, hs, hx⟩ := fmtI_sysWord hn
    simp [decodeFields, decodeI, decodeSys, hc, hb, ho, hs, reg_eq hd, reg_eq ha, reg_eq hx]
  case unassignedWord w => exact absurd rfl (hu w)
  -- events have no word
  all_goals exact nomatch he

/-- Beyond its fields, decoding asks that the instruction is well-formed. -/
theorem decode_ok_iff {w : Word} {i : Instr} : decode w = .ok i ↔ decodeFields w.toNat = .ok i ∧ i.wf = true := by
  unfold decode Instr.wf
  cases decodeFields w.toNat with
  | error e => simp
  | ok j =>
    constructor
    · intro h
      dsimp only at h
      split at h
      · cases h
      · split at h
        · cases h
        · cases h
          simp_all
    · rintro ⟨hj, hwf⟩
      cases hj
      simp_all

/-- Settles O1: each format keeps its fields apart, so the decoder takes the row that encoded them and reads them back. -/
theorem decodeReadsEncode : Obligations.DecodeReadsEncode := by
  unfold Obligations.DecodeReadsEncode
  exact fun i hwf he hu => decode_ok_iff.2 ⟨decodeFields_encode i he hu, hwf⟩

end Sys2Proof.Proofs

/-! PROOFS. The encoder reads the decoder's instructions (09/R193, R194): each row of the decoder answers an instruction whose
word has the fields that the row tested and read. -/

namespace Sys2Proof.Proofs

open Sys2Proof.Machine

open Sys2Proof.Safety

/-- What the decoder answers for the fields of `n`, if anything, is an instruction of the word `n`. -/
def Reads (n : Nat) (r : Except Reject Instr) : Prop := ∀ i, r = .ok i → encodeNat i = n ∧ i.isEvent = false

theorem reads_error (n : Nat) (e : Reject) : Reads n (.error e) := fun _ h => nomatch h

theorem reads_ok {n : Nat} {i : Instr} (h : encodeNat i = n) (he : i.isEvent = false := by rfl) : Reads n (.ok i) :=
  fun _ hi => by
    cases hi
    exact ⟨h, he⟩

theorem reads_zeroed {n x : Nat} {r : Except Reject Instr} (h : x = 0 → Reads n r) : Reads n (zeroed (x == 0) r) := by
  by_cases hx : x = 0
  · rw [beq_iff_eq.2 hx]
    exact h hx
  · rw [beq_eq_false_iff_ne.2 hx]
    exact reads_error _ _

theorem reads_zeroed_and {n y : Nat} {b : Bool} {r : Except Reject Instr} (h : y = 0 → Reads n (zeroed b r)) :
    Reads n (zeroed (b && y == 0) r) := by
  by_cases hy : y = 0
  · rw [beq_iff_eq.2 hy, Bool.and_true]
    exact h hy
  · rw [beq_eq_false_iff_ne.2 hy, Bool.and_false]
    exact reads_error _ _

theorem reads_zeroed_two {n x y : Nat} {r : Except Reject Instr} (h : x = 0 → y = 0 → Reads n r) :
    Reads n (zeroed (x == 0 && y == 0) r) :=
  reads_zeroed_and fun hy => reads_zeroed fun hx => h hx hy

theorem reads_zeroed_three {n x y z : Nat} {r : Except Reject Instr} (h : x = 0 → y = 0 → z = 0 → Reads n r) :
    Reads n (zeroed (x == 0 && y == 0 && z == 0) r) :=
  reads_zeroed_and fun hz => reads_zeroed_two fun hx hy => h hx hy hz

theorem reads_ofCode {α : Type} {n : Nat} {c : Option α} {f : α → Except Reject Instr}
    (h : ∀ x, c = some x → Reads n (f x)) :
    Reads n (ofCode c f) := by
  cases c with
  | none => exact reads_error _ _
  | some x => exact h x rfl

theorem bits_three {n lo : Nat} (h0 : ¬ bits n lo 2 = 0) (h1 : ¬ bits n lo 2 = 1) (h2 : ¬ bits n lo 2 = 2) :
    bits n lo 2 = 3 := by
  have := bits_lt n lo 2
  omega

/-- A field whose upper part is 0 is its lower part. -/
theorem bits_widen {n lo w v x : Nat} (hx : bits n lo w = x) (hz : bits n (lo + w) v = 0) : bits n lo (w + v) = x :=
  (bits_join hx hz).trans (by omega)

theorem bits_flag {n lo k v : Nat} (h : bits n lo (1 + v) = k) (hk : k < 2) :
    bits n lo (1 + v) = (bits n lo 1 == 1).toNat := by
  obtain ⟨hlow, -⟩ := bits_narrow (w := 1) h hk
  rw [bit_beq_one_toNat, h, hlow]

theorem toNat_ofNat_bits (n lo w : Nat) : (BitVec.ofNat w (bits n lo w)).toNat = bits n lo w := by
  rw [BitVec.toNat_ofNat, Nat.mod_eq_of_lt (bits_lt n lo w)]

theorem fenceDir_toNat_bit (n lo : Nat) :
    (if bits n lo 1 == 0 then FenceDir.o2e else FenceDir.e2o).toNat = bits n lo 1 := by
  obtain h | h := Nat.le_one_iff_eq_zero_or_eq_one.1 (Nat.le_of_lt_succ (bits_lt n lo 1))
  · rw [h]
    rfl
  · rw [h]
    rfl

theorem decodeA3_reads {n : Nat} (hn : n < 2 ^ 32) (hc : bits n 30 2 = 0) : Reads n (decodeA3 n) := by
  unfold decodeA3
  split
  case h_1 ho | h_2 ho | h_3 ho | h_4 ho =>
    split
    case h_1 hs | h_2 hs | h_3 hs => exact reads_ok (A3Word.fmtA3_eq ⟨hc, ho, rfl, rfl, rfl, rfl, rfl, hs⟩ hn (by decide))
    case h_4 h0 h1 h2 =>
      exact reads_ok (A3Word.fmtA3_eq ⟨hc, ho, rfl, rfl, rfl, rfl, rfl, bits_three h0 h1 h2⟩ hn (by decide))
  case h_5 ho | h_6 ho | h_13 ho | h_14 ho =>
    split
    case h_1 hs | h_2 hs | h_3 hs => exact reads_ok (A3Word.fmtA3_eq ⟨hc, ho, rfl, rfl, rfl, rfl, rfl, hs⟩ hn (by decide))
    case h_4 => exact reads_error _ _
  case h_8 ho =>
    split
    case h_1 hs | h_2 hs => exact reads_ok (A3Word.fmtA3_eq ⟨hc, ho, rfl, rfl, rfl, rfl, rfl, hs⟩ hn (by decide))
    case h_3 => exact reads_error _ _
  case h_7 ho | h_15 ho =>
    split
    case h_1 hs | h_2 hs | h_3 hs =>
      refine reads_zeroed fun hz => reads_ok ?_
      obtain ⟨hb, hq⟩ := bits_zero_pair (w := 6) (v := 2) hz
      exact A3Word.fmtA3_eq ⟨hc, ho, rfl, rfl, rfl, hq, hb, hs⟩ hn (by decide)
    case h_4 h0 h1 h2 =>
      refine reads_zeroed fun hz => reads_ok ?_
      obtain ⟨hb, hq⟩ := bits_zero_pair (w := 6) (v := 2) hz
      exact A3Word.fmtA3_eq ⟨hc, ho, rfl, rfl, rfl, hq, hb, bits_three h0 h1 h2⟩ hn (by decide)
  case h_9 ho =>
    split
    case h_1 hs =>
      have hd : bits n 18 6 = (ICond.ofBits (bits n 21 3)).toNat * 8 + bits n 18 3 := by
        rw [ICond.toNat_ofBits (bits_lt n 21 3)]
        exact bits_join (w := 3) (v := 3) rfl rfl
      exact reads_ok (A3Word.fmtA3_eq ⟨hc, ho, hd, rfl, rfl, rfl, rfl, hs⟩ hn (by decide))
    case h_2 => exact reads_error _ _
  case h_10 ho =>
    split
    case h_1 hs =>
      refine reads_zeroed fun hz => reads_ok ?_
      have hd : bits n 18 6 = (ICond.ofBits (bits n 21 3)).toNat * 8 := by
        rw [ICond.toNat_ofBits (bits_lt n 21 3)]
        exact bits_join (w := 3) (v := 3) hz rfl
      exact A3Word.fmtA3_eq ⟨hc, ho, hd, rfl, rfl, rfl, rfl, hs⟩ hn (by decide)
    case h_2 => exact reads_error _ _
  case h_11 ho | h_12 ho =>
    exact reads_ok (A3Word.fmtA3_eq ⟨hc, ho, rfl, rfl, rfl, rfl, rfl, (Nat.zero_add _).symm⟩ hn (by decide))
  case h_16 ho =>
    refine reads_zeroed fun hz => reads_ok ?_
    obtain ⟨hb, hq⟩ := bits_zero_pair (w := 6) (v := 2) hz
    have hs := FRndMode.toNat_ofBits (bits_lt n 0 2)
    exact A3Word.fmtA3_eq ⟨hc, ho, rfl, rfl, rfl, hq, hb, by omega⟩ hn (by decide)
  case h_17 ho =>
    split
    case h_1 hs =>
      have hd : bits n 18 6 = (FCond.ofBits (bits n 21 3)).toNat * 8 + bits n 18 3 := by
        rw [FCond.toNat_ofBits (bits_lt n 21 3)]
        exact bits_join (w := 3) (v := 3) rfl rfl
      exact reads_ok (A3Word.fmtA3_eq ⟨hc, ho, hd, rfl, rfl, rfl, rfl, hs⟩ hn (by decide))
    case h_2 => exact reads_error _ _
  case h_18 ho =>
    split
    case h_1 hs | h_2 hs =>
      refine reads_zeroed fun hz => reads_ofCode fun t ht => reads_ok ?_
      obtain ⟨hb, hq⟩ := bits_zero_pair (w := 2) (v := 2) hz
      exact A3Word.fmtA3_eq ⟨hc, ho, rfl, rfl, rfl, hq, bits_widen (w := 4) (v := 2) (Ty.toNat_of_ofBits? ht) hb,
        (bits_flag (v := 1) hs (by decide)).trans (Nat.zero_add _).symm⟩ hn (by decide)
    case h_3 => exact reads_error _ _
  case h_19 ho =>
    split
    case h_1 hs | h_2 hs => exact reads_ok (A3Word.fmtA3_eq ⟨hc, ho, rfl, rfl, rfl, rfl, rfl, hs⟩ hn (by decide))
    case h_3 hs =>
      refine reads_zeroed fun hz => reads_ok ?_
      obtain ⟨hb, hq⟩ := bits_zero_pair (w := 6) (v := 2) hz
      exact A3Word.fmtA3_eq ⟨hc, ho, rfl, rfl, rfl, hq, hb, hs⟩ hn (by decide)
    case h_4 => exact reads_error _ _
  case h_20 ho =>
    have hs := ShflMode.toNat_ofBits (bits_lt n 0 2)
    exact reads_ok (A3Word.fmtA3_eq ⟨hc, ho, rfl, rfl, rfl, rfl, rfl, by omega⟩ hn (by decide))
  case h_21 ho =>
    split
    case h_1 hs | h_2 hs | h_3 hs =>
      refine reads_zeroed fun hz => reads_ok ?_
      obtain ⟨hb, hq⟩ := bits_zero_pair (w := 6) (v := 2) hz
      exact A3Word.fmtA3_eq ⟨hc, ho, rfl, rfl, rfl, hq, hb, hs⟩ hn (by decide)
    case h_4 h0 h1 h2 =>
      refine reads_zeroed fun hz => reads_ok ?_
      obtain ⟨hb, hq⟩ := bits_zero_pair (w := 4) (v := 2) hz
      exact A3Word.fmtA3_eq ⟨hc, ho, rfl, rfl, rfl, hq, bits_widen (w := 2) (v := 4) rfl hb, bits_three h0 h1 h2⟩ hn (by decide)
  case h_22 ho =>
    exact reads_zeroed fun hq => reads_ok
      (A3Word.fmtA3_eq ⟨hc, ho, rfl, rfl, rfl, hq, rfl, (Nat.zero_add _).symm⟩ hn (by decide))
  case h_23 ho =>
    split
    case h_1 hs =>
      refine reads_zeroed fun hz => reads_ofCode fun op hop => reads_ok ?_
      obtain ⟨hb, hq⟩ := bits_zero_pair (w := 3) (v := 2) hz
      exact A3Word.fmtA3_eq ⟨hc, ho, rfl, rfl, rfl, hq, bits_widen (w := 3) (v := 3) (RedOp.toNat_of_ofBits? hop) hb, hs⟩
        hn (by decide)
    case h_2 => exact reads_error _ _
  case h_24 ho =>
    split
    case h_1 hs | h_2 hs =>
      refine reads_zeroed fun hz => reads_ofCode fun op hop => reads_ok ?_
      obtain ⟨hb, hq⟩ := bits_zero_pair (w := 3) (v := 2) hz
      exact A3Word.fmtA3_eq ⟨hc, ho, rfl, rfl, rfl, hq, bits_widen (w := 3) (v := 3) (RedOp.toNat_of_ofBits? hop) hb,
        (bits_flag (v := 1) hs (by decide)).trans (Nat.zero_add _).symm⟩ hn (by decide)
    case h_3 => exact reads_error _ _
  case h_25 ho =>
    have hfields : ∀ {k : Nat}, bits n 0 2 = k → bits n 5 5 = 0 → bits n 13 5 = 0 → bits n 21 3 = 0 →
        A3Word n 0x19 (bits n 18 3) 0 (bits n 10 3) 0 (bits n 2 3) k := fun hs hzb hza hzd => by
      obtain ⟨hzb, hq⟩ := bits_zero_pair (w := 3) (v := 2) hzb
      obtain ⟨hza, hp⟩ := bits_zero_pair (w := 3) (v := 2) hza
      exact ⟨hc, ho, bits_widen (w := 3) rfl hzd, hp, bits_widen (w := 3) rfl hza, hq, bits_widen (w := 3) rfl hzb, hs⟩
    split
    case h_1 hs | h_2 hs | h_3 hs =>
      exact reads_zeroed_three fun hzb hza hzd => reads_ok ((hfields hs hzb hza hzd).fmtA3_eq hn (by decide))
    case h_4 h0 h1 h2 =>
      exact reads_zeroed_three fun hzb hza hzd =>
        reads_ok ((hfields (bits_three h0 h1 h2) hzb hza hzd).fmtA3_eq hn (by decide))
  case h_26 ho =>
    have hfields : ∀ {k : Nat}, bits n 0 2 = k → bits n 2 8 = 0 → bits n 13 5 = 0 →
        A3Word n 0x1A (bits n 18 6) 0 (bits n 10 3) 0 0 k := fun hs hzb hza => by
      obtain ⟨hzb, hq⟩ := bits_zero_pair (w := 6) (v := 2) hzb
      obtain ⟨hza, hp⟩ := bits_zero_pair (w := 3) (v := 2) hza
      exact ⟨hc, ho, rfl, hp, bits_widen (w := 3) rfl hza, hq, hzb, hs⟩
    split
    case h_1 hs | h_2 hs =>
      refine reads_zeroed_three fun hzb hza hzd => reads_ok ?_
      have h := hfields hs hzb hza
      rw [bits_widen (w := 3) (v := 3) rfl hzd] at h
      exact h.fmtA3_eq hn (by decide)
    case h_3 hs => exact reads_zeroed_two fun hzb hza => reads_ok ((hfields hs hzb hza).fmtA3_eq hn (by decide))
    case h_4 h0 h1 h2 =>
      exact reads_zeroed_two fun hzb hza => reads_ok ((hfields (bits_three h0 h1 h2) hzb hza).fmtA3_eq hn (by decide))
  case h_27 ho =>
    split
    case h_1 hs =>
      refine reads_zeroed_two fun hz hzd => reads_ok ?_
      obtain ⟨hz, hp⟩ := bits_zero_pair (w := 14) (v := 2) hz
      obtain ⟨hz, ha⟩ := bits_zero_pair (w := 8) (v := 6) hz
      obtain ⟨hb, hq⟩ := bits_zero_pair (w := 6) (v := 2) hz
      exact A3Word.fmtA3_eq ⟨hc, ho, bits_widen (w := 3) rfl hzd, hp, ha, hq, hb, hs⟩ hn (by decide)
    case h_2 hs =>
      refine reads_zeroed_two fun hzb hz => reads_ok ?_
      obtain ⟨hb, hq⟩ := bits_zero_pair (w := 6) (v := 2) hzb
      obtain ⟨hza, hz⟩ := bits_zero_pair (w := 3) (v := 8) hz
      obtain ⟨hp, hd⟩ := bits_zero_pair (w := 2) (v := 6) hz
      exact A3Word.fmtA3_eq ⟨hc, ho, hd, hp, bits_widen (w := 3) rfl hza, hq, hb, hs⟩ hn (by decide)
    case h_3 => exact reads_error _ _
  case h_28 ho =>
    split
    case h_1 hs | h_3 hs =>
      refine reads_zeroed fun hz => reads_ok ?_
      obtain ⟨hb, hq⟩ := bits_zero_pair (w := 6) (v := 2) hz
      exact A3Word.fmtA3_eq ⟨hc, ho, rfl, rfl, rfl, hq, hb, hs⟩ hn (by decide)
    case h_2 hs =>
      refine reads_zeroed_two fun hz hp => reads_ok ?_
      obtain ⟨hb, hq⟩ := bits_zero_pair (w := 6) (v := 2) hz
      exact A3Word.fmtA3_eq ⟨hc, ho, rfl, hp, rfl, hq, hb, hs⟩ hn (by decide)
    case h_4 => exact reads_error _ _
  case h_29 => exact reads_error _ _

theorem decodeA4_reads {n : Nat} (hn : n < 2 ^ 32) (hc : bits n 30 2 = 1) : Reads n (decodeA4 n) := by
  unfold decodeA4
  split
  case h_1 ho | h_2 ho | h_3 ho | h_4 ho | h_5 ho | h_6 ho | h_7 ho | h_8 ho | h_9 ho | h_10 ho =>
    exact reads_ok (A4Word.fmtA4_eq ⟨hc, ho, rfl, rfl, rfl, rfl, rfl⟩ hn (by decide))
  case h_11 => exact reads_error _ _

theorem decodeMem_reads {n : Nat} (hn : n < 2 ^ 32) (hc : bits n 30 2 = 2) : Reads n (decodeMem n) := by
  unfold decodeMem
  split
  case h_1 ho | h_2 ho =>
    refine reads_ofCode fun sz hsz => reads_ofCode fun ch hch => reads_ok ?_
    have hx := bits_join (w := 2) (v := 3) (Hint.toNat_of_ofBits? hch) (Size.toNat_of_ofBits? hsz)
    exact MWord.fmtM_eq ⟨hc, ho, rfl, rfl, rfl, hx, rfl⟩ hn (by decide)
  case h_3 ho | h_4 ho =>
    refine reads_zeroed_two fun hz hf => reads_ofCode fun sz hsz => reads_ok ?_
    have hx := bits_join (w := 2) (v := 3) hz (Size.toNat_of_ofBits? hsz)
    exact MWord.fmtM_eq ⟨hc, ho, rfl, rfl, hf, hx, rfl⟩ hn (by decide)
  case h_5 ho =>
    refine reads_zeroed fun hz => reads_ofCode fun sz hsz => reads_ofCode fun ch hch => reads_ok ?_
    have hd := (bits_widen (w := 1) (v := 5) rfl hz).trans (bit_beq_one_toNat n 18).symm
    have hx := bits_join (w := 2) (v := 3) (Hint.toNat_of_ofBits? hch) (Size.toNat_of_ofBits? hsz)
    exact MWord.fmtM_eq ⟨hc, ho, hd, rfl, rfl, hx, rfl⟩ hn (by decide)
  case h_6 ho | h_7 ho =>
    refine reads_ofCode fun sz hsz => reads_ofCode fun sc hsc => reads_ok ?_
    have hx := bits_join (w := 3) (v := 2) (Scope.toNat_of_ofBits? hsc) (OSize.toNat_of_ofBits? hsz)
    exact MWord.fmtM_eq ⟨hc, ho, rfl, rfl, rfl, hx, rfl⟩ hn (by decide)
  case h_8 ho | h_9 ho | h_10 ho | h_11 ho | h_12 ho | h_13 ho | h_14 ho | h_15 ho | h_16 ho | h_17 ho =>
    refine reads_ofCode fun sc hsc => reads_ok ?_
    have hx := bits_join (w := 2) (v := 3) (Order.toNat_ofBits (bits_lt n 4 2)).symm (Scope.toNat_of_ofBits? hsc)
    exact MWord.fmtM_eq ⟨hc, ho, rfl, rfl, rfl, hx, rfl⟩ hn (by decide)
  case h_18 ho =>
    refine reads_zeroed fun hz => reads_ofCode fun sc hsc => reads_ok ?_
    obtain ⟨hz, hd⟩ := bits_zero_pair (w := 11) (v := 6) hz
    obtain ⟨hz, ha⟩ := bits_zero_pair (w := 5) (v := 6) hz
    obtain ⟨hz, hf⟩ := bits_zero_pair (w := 2) (v := 3) hz
    have hx := bits_widen (w := 3) (v := 2) (Scope.toNat_of_ofBits? hsc) hz
    exact MWord.fmtM_eq ⟨hc, ho, hd, ha, hf, hx, rfl⟩ hn (by decide)
  case h_19 ho =>
    refine reads_zeroed fun hz => reads_ok ?_
    obtain ⟨hz, hd⟩ := bits_zero_pair (w := 13) (v := 6) hz
    obtain ⟨hz, ha⟩ := bits_zero_pair (w := 7) (v := 6) hz
    obtain ⟨hz, hf⟩ := bits_zero_pair (w := 4) (v := 3) hz
    have hx := bits_widen (w := 1) (v := 4) (fenceDir_toNat_bit n 4).symm hz
    exact MWord.fmtM_eq ⟨hc, ho, hd, ha, hf, hx, rfl⟩ hn (by decide)
  case h_20 ho =>
    refine reads_zeroed_three fun hx hz hd => reads_ok ?_
    have hf := bits_widen (w := 2) (v := 1) (Counter.toNat_ofBits (bits_lt n 9 2)).symm hz
    exact MWord.fmtM_eq ⟨hc, ho, hd, rfl, hf, hx, rfl⟩ hn (by decide)
  case h_21 ho =>
    exact reads_zeroed_two fun hx hd => reads_ok (MWord.fmtM_eq ⟨hc, ho, hd, rfl, rfl, hx, rfl⟩ hn (by decide))
  case h_22 ho =>
    refine reads_zeroed_two fun hz hd => reads_ofCode fun sc hsc => reads_ok ?_
    obtain ⟨hz, hf⟩ := bits_zero_pair (w := 2) (v := 3) hz
    have hx := bits_widen (w := 3) (v := 2) (Scope.toNat_of_ofBits? hsc) hz
    exact MWord.fmtM_eq ⟨hc, ho, hd, rfl, hf, hx, rfl⟩ hn (by decide)
  case h_23 => exact reads_error _ _

theorem decodeLong_reads {n : Nat} (hn : n < 2 ^ 32) (hc : bits n 30 2 = 2) : Reads n (decodeLong n) := by
  unfold decodeLong
  split
  case h_1 ho | h_9 ho | h_10 ho =>
    refine reads_zeroed fun hz => reads_ok ((fmtM_third _ _ _ _ _).trans ?_)
    obtain ⟨hlow, hf⟩ := bits_pair (w := 3) (v := 3) (n := n) (lo := 6) (Nat.div_add_mod' (bits n 6 6) 8).symm
      (Nat.mod_lt _ (by decide))
    exact MWord.fmtM_eq ⟨hc, ho, rfl, rfl, hf, bits_join (w := 2) (v := 3) hz hlow, rfl⟩ hn (by decide)
  case h_2 ho | h_3 ho | h_4 ho | h_5 ho | h_6 ho | h_7 ho | h_8 ho | h_15 ho =>
    refine reads_zeroed fun hz => reads_ok ?_
    obtain ⟨hx, hf⟩ := bits_zero_pair (w := 5) (v := 3) hz
    exact MWord.fmtM_eq ⟨hc, ho, rfl, rfl, hf, hx, rfl⟩ hn (by decide)
  case h_11 ho | h_14 ho =>
    refine reads_zeroed fun hz => reads_ofCode fun ch hch => reads_ok ?_
    have hx := bits_widen (w := 2) (v := 3) (Hint.toNat_of_ofBits? hch) hz
    exact MWord.fmtM_eq ⟨hc, ho, rfl, rfl, rfl, hx, rfl⟩ hn (by decide)
  case h_12 ho =>
    refine reads_zeroed fun hz => reads_ok ?_
    have hx := bits_widen (w := 4) (v := 1) (toNat_ofNat_bits n 4 4).symm hz
    exact MWord.fmtM_eq ⟨hc, ho, rfl, rfl, rfl, hx, rfl⟩ hn (by decide)
  case h_13 ho =>
    refine reads_zeroed_two fun hz hzd => reads_ofCode fun ch hch => reads_ok ?_
    have hx := bits_widen (w := 2) (v := 3) (Hint.toNat_of_ofBits? hch) hz
    exact MWord.fmtM_eq ⟨hc, ho, bits_widen (w := 3) rfl hzd, rfl, rfl, hx, rfl⟩ hn (by decide)
  case h_16 ho | h_17 ho =>
    refine reads_ofCode fun ch hch => reads_ok ?_
    have hx := bits_join (w := 2) (v := 3) (Hint.toNat_of_ofBits? hch) rfl
    exact MWord.fmtM_eq ⟨hc, ho, rfl, rfl, rfl, hx, rfl⟩ hn (by decide)
  case h_18 => exact reads_error _ _

theorem decodeEngine_reads {n : Nat} (hn : n < 2 ^ 32) (hc : bits n 30 2 = 2) : Reads n (decodeEngine n) := by
  unfold decodeEngine
  split
  case h_1 ho | h_2 ho | h_3 ho =>
    refine reads_zeroed fun hf => reads_ok ?_
    have hx := bits_join (w := 4) (v := 1) rfl (bit_beq_one_toNat n 8).symm
    exact MWord.fmtM_eq ⟨hc, ho, rfl, rfl, hf, hx, rfl⟩ hn (by decide)
  case h_4 ho =>
    refine reads_zeroed_two fun hz hd => reads_ok ?_
    obtain ⟨hz, hf⟩ := bits_zero_pair (w := 1) (v := 3) hz
    exact MWord.fmtM_eq ⟨hc, ho, hd, rfl, hf, bits_widen (w := 4) rfl hz, rfl⟩ hn (by decide)
  case h_5 ho | h_6 ho =>
    refine reads_zeroed_three fun hz hzf hd => reads_ok ?_
    have hf := bits_widen (w := 1) (v := 2) (bit_beq_one_toNat n 9).symm hzf
    exact MWord.fmtM_eq ⟨hc, ho, hd, rfl, hf, bits_widen (w := 4) rfl hz, rfl⟩ hn (by decide)
  case h_7 ho =>
    refine reads_zeroed fun hz => reads_ok ?_
    obtain ⟨hf, ha⟩ := bits_zero_pair (w := 3) (v := 6) hz
    exact MWord.fmtM_eq ⟨hc, ho, rfl, ha, hf, rfl, rfl⟩ hn (by decide)
  case h_8 ho | h_9 ho =>
    refine reads_zeroed fun hz => reads_ok ?_
    obtain ⟨hx, hf⟩ := bits_zero_pair (w := 5) (v := 3) hz
    exact MWord.fmtM_eq ⟨hc, ho, rfl, rfl, hf, hx, rfl⟩ hn (by decide)
  case h_10 ho | h_11 ho =>
    exact reads_zeroed fun hf => reads_ok (MWord.fmtM_eq ⟨hc, ho, rfl, rfl, hf, rfl, rfl⟩ hn (by decide))
  case h_12 ho =>
    split
    case h_1 hs | h_2 hs =>
      refine reads_zeroed_two fun hz hrest => reads_ok ?_
      obtain ⟨hrest, hd⟩ := bits_zero_pair (w := 9) (v := 6) hrest
      obtain ⟨hf, ha⟩ := bits_zero_pair (w := 3) (v := 6) hrest
      have hx := bits_join (w := 3) (v := 2) hz hs
      exact (fmtM_fixed 0xB4000000 _ _ _ _ _ _).trans (MWord.fmtM_eq ⟨hc, ho, hd, ha, hf, hx, rfl⟩ hn (by decide))
    case h_3 hs =>
      refine reads_zeroed_three fun hz hf hrest => reads_ok ?_
      obtain ⟨hza, hd⟩ := bits_zero_pair (w := 2) (v := 6) hrest
      have hx := bits_join (w := 3) (v := 2) hz hs
      exact (fmtM_fixed 0xB4000000 _ _ _ _ _ 16).trans
        (MWord.fmtM_eq ⟨hc, ho, hd, bits_widen (w := 4) rfl hza, hf, hx, rfl⟩ hn (by decide))
    case h_4 => exact reads_error _ _
  case h_13 ho =>
    refine reads_zeroed fun hz => reads_ok ?_
    obtain ⟨hz, hd⟩ := bits_zero_pair (w := 11) (v := 6) hz
    obtain ⟨hz, ha⟩ := bits_zero_pair (w := 5) (v := 6) hz
    obtain ⟨hz, hf⟩ := bits_zero_pair (w := 2) (v := 3) hz
    exact MWord.fmtM_eq ⟨hc, ho, hd, ha, hf, bits_widen (w := 3) rfl hz, rfl⟩ hn (by decide)
  case h_14 ho =>
    refine reads_zeroed fun hz => reads_ok ?_
    obtain ⟨hz, hd⟩ := bits_zero_pair (w := 14) (v := 6) hz
    obtain ⟨hz, ha⟩ := bits_zero_pair (w := 8) (v := 6) hz
    obtain ⟨hx, hf⟩ := bits_zero_pair (w := 5) (v := 3) hz
    exact MWord.fmtM_eq ⟨hc, ho, hd, ha, hf, hx, rfl⟩ hn (by decide)
  case h_15 ho | h_17 ho =>
    exact reads_zeroed_two fun hx ha => reads_ok (MWord.fmtM_eq ⟨hc, ho, rfl, ha, rfl, hx, rfl⟩ hn (by decide))
  case h_16 ho | h_18 ho =>
    exact reads_zeroed_two fun hx hd => reads_ok (MWord.fmtM_eq ⟨hc, ho, hd, rfl, rfl, hx, rfl⟩ hn (by decide))
  case h_19 ho =>
    refine reads_ok ((congrArg (fmtM _ _ 0 0 · _) (toNat_ofNat_bits n 4 14)).trans ((fmtM_offset _ _ _ _).trans ?_))
    have hoff : bits n 4 14 = bits n 12 6 * 256 + bits n 4 8 := bits_split n 4 8 6
    have hlow : bits n 4 8 = bits n 9 3 * 32 + bits n 4 5 := bits_split n 4 5 3
    have hxf := bits_lt n 4 8
    have hlt := bits_lt n 4 5
    exact MWord.fmtM_eq ⟨hc, ho, rfl, by omega, by omega, by omega, rfl⟩ hn (by decide)
  case h_20 ho | h_21 ho =>
    refine reads_zeroed_two fun hz hd => reads_ok ?_
    obtain ⟨hx, hf⟩ := bits_zero_pair (w := 5) (v := 3) hz
    exact MWord.fmtM_eq ⟨hc, ho, hd, rfl, hf, hx, rfl⟩ hn (by decide)
  case h_22 => exact reads_error _ _

theorem decodeM_reads {n : Nat} (hn : n < 2 ^ 32) (hc : bits n 30 2 = 2) : Reads n (decodeM n) := by
  unfold decodeM
  split
  · exact decodeMem_reads hn hc
  · split
    · exact decodeLong_reads hn hc
    · exact decodeEngine_reads hn hc

theorem decodeJ_reads {n : Nat} (hn : n < 2 ^ 32) (hc : bits n 30 2 = 3) (hb : bits n 29 1 = 1) : Reads n (decodeJ n) := by
  have hi := (toNat_ofNat_bits n 0 20).symm
  unfold decodeJ
  split
  case h_1 ho => exact reads_ok (JWord.fmtJ_eq ⟨hc, hb, ho, rfl, hi⟩ hn (by decide))
  case h_2 ho =>
    refine reads_ofCode fun c hcnd => reads_ok ?_
    have hd := bits_join (w := 3) (v := 3) (BCond.toNat_of_ofBits? hcnd) rfl
    exact JWord.fmtJ_eq ⟨hc, hb, ho, hd, hi⟩ hn (by decide)
  case h_3 ho | h_4 ho =>
    exact reads_zeroed fun hd => reads_ok (JWord.fmtJ_eq ⟨hc, hb, ho, hd, hi⟩ hn (by decide))
  case h_5 => exact reads_error _ _

theorem decodeSys_reads {n : Nat} (hn : n < 2 ^ 32) (hc : bits n 30 2 = 3) (hb : bits n 29 1 = 0) (ho : bits n 24 5 = 0x1F) :
    Reads n (decodeSys n) := by
  unfold decodeSys
  split
  case h_1 hs | h_2 hs | h_3 hs | h_4 hs | h_7 hs | h_11 hs | h_14 hs | h_15 hs | h_16 hs =>
    exact reads_zeroed fun he => reads_ok (SysWord.fmtI_eq ⟨hc, hb, ho, rfl, rfl, hs, he⟩ hn (by decide))
  case h_5 hs | h_6 hs | h_8 hs | h_9 hs =>
    exact reads_zeroed_two fun he hd => reads_ok (SysWord.fmtI_eq ⟨hc, hb, ho, hd, rfl, hs, he⟩ hn (by decide))
  case h_10 hs =>
    refine reads_zeroed_two fun hz hrest => reads_ok ?_
    obtain ⟨ha, hd⟩ := bits_zero_pair (w := 6) (v := 6) hrest
    have he := bits_widen (w := 1) (v := 5) (bit_beq_one_toNat n 0).symm hz
    exact SysWord.fmtI_eq ⟨hc, hb, ho, hd, ha, hs, he⟩ hn (by decide)
  case h_12 hs =>
    exact reads_zeroed fun hz => reads_ok
      (SysWord.fmtI_eq ⟨hc, hb, ho, rfl, rfl, hs, bits_widen (w := 3) rfl hz⟩ hn (by decide))
  case h_13 hs => exact reads_ok (SysWord.fmtI_eq ⟨hc, hb, ho, rfl, rfl, hs, rfl⟩ hn (by decide))
  case h_17 => exact reads_error _ _

theorem decodeI_reads {n : Nat} (hn : n < 2 ^ 32) (hc : bits n 30 2 = 3) (hb : bits n 29 1 = 0) : Reads n (decodeI n) := by
  have hi := (toNat_ofNat_bits n 0 12).symm
  unfold decodeI
  split
  case h_1 ho | h_2 ho | h_3 ho | h_4 ho | h_10 ho | h_27 ho =>
    exact reads_ok (IWord.fmtI_eq ⟨hc, hb, ho, rfl, rfl, hi⟩ hn (by decide))
  case h_5 ho | h_6 ho | h_7 ho =>
    exact reads_zeroed fun hz => reads_ok (IWord.fmtI_eq ⟨hc, hb, ho, rfl, rfl, bits_widen (w := 6) rfl hz⟩ hn (by decide))
  case h_8 ho =>
    have hd := bits_join (w := 3) (v := 3) rfl (ICond.toNat_ofBits (bits_lt n 21 3)).symm
    exact reads_ok (IWord.fmtI_eq ⟨hc, hb, ho, hd, rfl, hi⟩ hn (by decide))
  case h_9 ho => exact reads_zeroed fun ha => reads_ok (IWord.fmtI_eq ⟨hc, hb, ho, rfl, ha, hi⟩ hn (by decide))
  case h_11 ho | h_16 ho | h_20 ho =>
    exact reads_zeroed_two fun hz hd => reads_ok (IWord.fmtI_eq ⟨hc, hb, ho, hd, rfl, hz⟩ hn (by decide))
  case h_12 ho | h_14 ho | h_25 ho | h_26 ho =>
    refine reads_zeroed fun hz => reads_ok ?_
    obtain ⟨ha, hd⟩ := bits_zero_pair (w := 6) (v := 6) hz
    exact IWord.fmtI_eq ⟨hc, hb, ho, hd, ha, hi⟩ hn (by decide)
  case h_13 ho | h_15 ho | h_18 ho | h_19 ho | h_23 ho | h_24 ho =>
    refine reads_zeroed fun hz => reads_ok ?_
    obtain ⟨hz, hd⟩ := bits_zero_pair (w := 18) (v := 6) hz
    obtain ⟨hz, ha⟩ := bits_zero_pair (w := 12) (v := 6) hz
    exact IWord.fmtI_eq ⟨hc, hb, ho, hd, ha, hz⟩ hn (by decide)
  case h_17 ho =>
    refine reads_zeroed_two fun hz hrest => reads_ok ?_
    obtain ⟨hza, hd⟩ := bits_zero_pair (w := 3) (v := 6) hrest
    exact IWord.fmtI_eq ⟨hc, hb, ho, hd, bits_widen (w := 3) rfl hza, hz⟩ hn (by decide)
  case h_21 ho =>
    refine reads_zeroed fun hz => reads_ok ?_
    obtain ⟨ha, hd⟩ := bits_zero_pair (w := 6) (v := 6) hz
    have hi := bits_join (w := 8) (v := 4) (toNat_ofNat_bits n 0 8).symm rfl
    exact IWord.fmtI_eq ⟨hc, hb, ho, hd, ha, hi⟩ hn (by decide)
  case h_22 ho =>
    refine reads_zeroed fun hz => reads_ok ?_
    obtain ⟨hz, ha⟩ := bits_zero_pair (w := 12) (v := 6) hz
    exact IWord.fmtI_eq ⟨hc, hb, ho, rfl, ha, hz⟩ hn (by decide)
  case h_28 ho => exact decodeSys_reads hn hc hb ho
  case h_29 => exact reads_error _ _

theorem decodeFields_reads {n : Nat} (hn : n < 2 ^ 32) : Reads n (decodeFields n) := by
  unfold decodeFields
  split
  case h_1 hc => exact decodeA3_reads hn hc
  case h_2 hc => exact decodeA4_reads hn hc
  case h_3 hc => exact decodeM_reads hn hc
  case h_4 h0 h1 h2 =>
    have hc := bits_three h0 h1 h2
    split
    case isTrue hb => exact decodeJ_reads hn hc (beq_iff_eq.1 hb)
    case isFalse hb =>
      have hlt := bits_lt n 29 1
      have hne : ¬ bits n 29 1 = 1 := fun h => hb (beq_iff_eq.2 h)
      exact decodeI_reads hn hc (by omega)

/-- Settles O2: the row that decoded a word tested and read every field of it, so encoding puts each back. -/
theorem encodeReadsDecode : Obligations.EncodeReadsDecode := by
  unfold Obligations.EncodeReadsDecode
  intro w i h
  obtain ⟨hf, hwf⟩ := decode_ok_iff.1 h
  obtain ⟨hw, he⟩ := decodeFields_reads w.isLt i hf
  refine ⟨?_, hwf, he⟩
  rw [encode, hw]
  exact (BitVec.ofNat_toNat 32 w).trans w.setWidth_eq

/-- Settles O57: the decoder evaluated on the fifteen words. -/
theorem decodeWords : Obligations.DecodeWords := by
  unfold Obligations.DecodeWords
  decide

end Sys2Proof.Proofs

/-! PROOFS. What answers an instruction of a wave (09/R208 to R212): it goes through issue, whose checks of role and privilege
come before anything of its own, or its wave parks at once; either way there is a next state. -/

namespace Sys2Proof.Proofs
open Sys2Proof.Machine
open Sys2Proof.Safety

/-- An answer that is given through issue, with some checks, waits and effect of the instruction's own. -/
def IsIssue (s : State) (i : Instr) (r : Host.Outcome State Fault Refusal) : Prop :=
  ∃ own prep body, r = s.issueWith i own prep body

section
variable (s : State) (i : Instr) (d : Reg) (p : Sel) (a : Reg) (q : Sel) (b c : Reg)

theorem issueWith_isIssue (own : Option (Nat × Dword × Dword)) (prep : State → Move) (body : State → State) :
    IsIssue s i (s.issueWith i own prep body) := ⟨_, _, _, rfl⟩

theorem issue_isIssue (body : State → State) : IsIssue s i (s.issue i body) := issueWith_isIssue ..

theorem laneOp_isIssue (d n : Nat) (srcs : List Src) (f : Wave → Nat → Res) : IsIssue s i (s.laneOp i d n srcs f) :=
  issue_isIssue ..

theorem elems3_isIssue (f : Ty → Nat → Nat → Res) : IsIssue s i (s.elems3 i d p a q b f) := laneOp_isIssue ..
theorem elems2_isIssue (f : Ty → Nat → Res) : IsIssue s i (s.elems2 i d p a f) := laneOp_isIssue ..
theorem elems4_isIssue (f : Ty → Nat → Nat → Nat → Res) : IsIssue s i (s.elems4 i d a b c p f) := laneOp_isIssue ..
theorem whole3_isIssue (f : Nat → Nat → Nat) : IsIssue s i (s.whole3 i d p a q b f) := laneOp_isIssue ..
theorem select_isIssue (m : Nat) : IsIssue s i (s.select i d p a q b m) := laneOp_isIssue ..
theorem float2_isIssue (f : Fmt → Env → Nat → Res) : IsIssue s i (s.float2 i d p a f) := elems2_isIssue ..
theorem float3_isIssue (f : Fmt → Env → Nat → Nat → Res) : IsIssue s i (s.float3 i d p a q b f) := elems3_isIssue ..
theorem float4_isIssue (f : Fmt → Env → Nat → Nat → Nat → Res) : IsIssue s i (s.float4 i d a b c p f) := elems4_isIssue ..
theorem immOp_isIssue (f : Nat → Nat → Nat) : IsIssue s i (s.immOp i d a f) := laneOp_isIssue ..

theorem carryOp_isIssue (f : Nat → Nat → Nat → Nat → Nat × Bool) : IsIssue s i (s.carryOp i d p a q b f) := issue_isIssue ..
theorem moveFrom_isIssue (src : Wave → Nat → Nat) : IsIssue s i (s.moveFrom i d p a src) := issue_isIssue ..
theorem maskOp_isIssue (kd : Nat) (f : Wave → Dword) : IsIssue s i (s.maskOp i kd f) := issue_isIssue ..
theorem reduce_isIssue (op : RedOp) (pick : Nat × Nat × Nat → Nat) (src : Nat → Nat → Bool) :
    IsIssue s i (s.reduce i d p a op pick src) := issue_isIssue ..
theorem longOp_isIssue (srcs : List Reg) (int : Bool) (f : Wave → Nat → Res) : IsIssue s i (s.longOp i d srcs int f) :=
  issue_isIssue ..
theorem long1_isIssue (f : Fmt → Env → Nat → Nat → Res) : IsIssue s i (s.long1 i d a f) := longOp_isIssue ..

theorem atomic_isIssue (op : AtomOp) (f : Low) (sc : Scope) (o : Order) : IsIssue s i (s.atomic i op d a f sc o) :=
  issueWith_isIssue ..
theorem octetInstr_isIssue (kind : MatKind) (tile a xf ff : Nat) (b bs as : Option Nat) :
    IsIssue s i (s.octetInstr i kind tile a xf ff b bs as) := issueWith_isIssue ..
theorem tileInstr_isIssue (f : State → List MatOp) : IsIssue s i (s.tileInstr i f) := issueWith_isIssue ..
theorem enqueue_isIssue (a : Nat) (count : Wave → Nat) : IsIssue s i (s.enqueue i a count) := issueWith_isIssue ..
theorem callOp_isIssue (bad : Option (Nat × Dword × Dword)) (target : Wave → Dword) : IsIssue s i (s.callOp i bad target) :=
  issueWith_isIssue ..
theorem ending_isIssue (a : Nat) (e : Wave → Ending) : IsIssue s i (s.ending i a e) := by
  unfold State.ending
  exact issueWith_isIssue ..

theorem copyInstr_isIssue (op : CopyOp) (d a f g mask ring : Nat) (ch : Hint) :
    IsIssue s i (s.copyInstr i op d a f g mask ring ch) := by
  unfold State.copyInstr
  split
  · exact issue_isIssue ..
  · exact issueWith_isIssue ..

theorem execRet_isIssue : IsIssue s .ret (execRet s) := by
  unfold execRet
  split
  · exact issue_isIssue ..
  · exact issueWith_isIssue ..

end

theorem exec_isIssue (s : State) (i : Instr) (he : i.isEvent = false) (hu : ∀ w, i ≠ .unassignedWord w)
    (hx : ∀ x y z, i ≠ .esc x y z) : IsIssue s i (exec i s) := by
  unfold exec
  cases i
  case add | sub | mul | mulh | absd | avg | min | max | satadd | satsub | rol | shl | shr | sar | fscale =>
    exact elems3_isIssue ..
  case popc | clz | ctz | brev | fneg | fabs | sat => exact elems2_isIssue ..
  case mad | madh | bfi | clamp => exact elems4_isIssue ..
  case and | or | xor | andn | orn => exact whole3_isIssue ..
  case addc | subb => exact carryOp_isIssue ..
  case selK03 | selK47 => exact select_isIssue ..
  case fadd | fsub | fmul | fmin | fmax => exact float3_isIssue ..
  case ffract | frnd => exact float2_isIssue ..
  case fma | fms | fnma | lerp => exact float4_isIssue ..
  case addi | andi | ori | xori | shli | shri | sari => exact immOp_isIssue ..
  case fshr | bfx | bmsk | fclass | cvt | pack | unpk | kpopc | kffs | mov | hlprd | dot4 | fdot2 | movh | movi | getm =>
    exact laneOp_isIssue ..
  case qxh | qxv | qxd | qbc | qswz => exact moveFrom_isIssue ..
  case wred | wscan => exact reduce_isIssue ..
  case kand | kor | kxor | kandn | knot | kmov | exmrd => exact maskOp_isIssue ..
  case fdiv | idiv | irem => exact longOp_isIssue ..
  case fsqrt | frcp | frsq | fexp2 | flog2 | fsin | fcos => exact long1_isIssue ..
  case aadd | amin | amax | aand | aor | axor | axchg | acas | afadd | ainc => exact atomic_isIssue ..
  case mma | mmas | mmab | comp | plnw | plnr => exact octetInstr_isIssue ..
  case accz | accld | accst | accrd | accwr => exact tileInstr_isIssue ..
  case cpy | cpymc | cpyst | cpyg | cpys | cpyp | cpyq => exact copyInstr_isIssue ..
  case enq | enqd => exact enqueue_isIssue ..
  case call | callr | callg => exact callOp_isIssue ..
  case presume | pretry | predir | pkill => exact ending_isIssue ..
  case ret => exact execRet_isIssue s
  case cmp | scmp | fcmp | cmpi | shfl | exmwr | sread | ld | st | prf | ldAcq | xlb | xinv | mxtokRel | yieldc | br | ldc | exit |
      setm | setmf | regn | nop | trap | snap | krepl => exact issue_isIssue ..
  case ldl | stl | stRel | fence | fencex | wait | mxtokAcq | bar | sstep | rnga | rngw | sigchk | enter |
      jmpr | mpush | melse | mpop | bkpt | reord | ptld | rgset => exact issueWith_isIssue ..
  case mxtokPass | rngc | rngf | prld | prst | prreg | pwreg | prplay | csrr | csrw =>
    dsimp only [execMxtokPass, execRngc, execRngf, execPrld, execPrst, execPrreg, execPwreg, execPrplay, execCsrr, execCsrw]
    exact issueWith_isIssue ..
  case unassignedWord w => exact absurd rfl (hu w)
  case esc x y z => exact absurd rfl (hx x y z)
  all_goals exact nomatch he

/-! ## No instruction ends a run (R208, R211, R328) -/

theorem issueWith_answers (s : State) (i : Instr) (own : Option (Nat × Dword × Dword)) (prep : State → Move)
    (body : State → State) : ∃ t, s.issueWith i own prep body = .next t := by
  unfold State.issueWith
  dsimp only
  repeat' split
  all_goals exact ⟨_, rfl⟩

theorem wordSubclass_of_error {x : Word} {e : Reject} (w : Wave) (h : decode x = .error e) :
    ∃ sub, w.wordSubclass x = some sub ∧ 1 ≤ sub ∧ sub ≤ 4 ∧ (e = .opcode → sub = 1) ∧ (e = .field → sub = 2) := by
  unfold Wave.wordSubclass
  rw [h]
  cases e with
  | opcode => exact ⟨1, rfl, by decide⟩
  | field => exact ⟨2, rfl, by decide⟩
  | pair =>
    dsimp only
    repeat' split
    · exact ⟨2, rfl, by decide⟩
    · exact ⟨4, rfl, by decide⟩
    · exact ⟨4, rfl, by decide⟩

theorem execUnassignedWord_eq {s : State} {w : Word} {sub : Nat} (h : s.curWave.wordSubclass w = some sub) :
    exec (.unassignedWord w) s = .next (s.parkUnimpl s.cur w 1 sub) := by
  change execUnassignedWord w s = _
  unfold execUnassignedWord
  rw [h]

theorem execEsc_eq (s : State) (x y : Fin 64) (z : BitVec 12) :
    exec (.esc x y z) s = .next (s.parkUnimpl s.cur (encode (.esc x y z)) 2 3) := rfl

/-- Settles O59: an escape and a word without a meaning park at once, any other instruction is given to issue. -/
theorem instructionsGoOn : Obligations.InstructionsGoOn := by
  unfold Obligations.InstructionsGoOn
  refine ⟨fun s i he hu => ?_, fun s w e h => ?_⟩
  · by_cases hx : ∃ x y z, i = .esc x y z
    · obtain ⟨x, y, z, rfl⟩ := hx
      exact ⟨_, execEsc_eq s x y z⟩
    · obtain ⟨own, prep, body, h⟩ := exec_isIssue s i he hu (fun x y z hi => hx ⟨x, y, z, hi⟩)
      rw [h]
      exact issueWith_answers s i own prep body
  · obtain ⟨sub, hsub, -⟩ := wordSubclass_of_error s.curWave h
    exact ⟨_, execUnassignedWord_eq hsub⟩

/-! ## Words without a meaning (R208 to R210) -/

/-- A park before issue: captured sources stand beyond the words of the record's header. -/
theorem parkPre_parksBefore_captured (s : State) (iword : Word) (cls : Nat) (fa fi : Dword)
    (srcs : List (List (Nat × Word × Mark))) : ParksBefore s (s.parkPre s.cur iword cls fa fi srcs) cls fa fi :=
  ⟨State.wave_setWave_same .., rfl, _, rfl, rfl, rfl, rfl, get_putSources (by decide) .., get_putSources (by decide) ..,
    get_putSources (by decide) ..⟩

/-- Settles O26: the park of a refused word, whose sub-class is the decoder's reason. -/
theorem unimplementedWords : Obligations.UnimplementedWords := by
  unfold Obligations.UnimplementedWords
  refine ⟨fun s x y z => ⟨_, execEsc_eq s x y z, parkPre_parksBefore_captured ..⟩, fun s w e h => ?_⟩
  obtain ⟨sub, hsub, hlow, hhigh, hreason⟩ := wordSubclass_of_error s.curWave h
  exact ⟨_, sub, execUnassignedWord_eq hsub, hlow, hhigh, parkPre_parksBefore_captured .., hreason⟩

/-! ## Privilege and role (R211, R212, R353, R261) -/

theorem not_priv_and_ordinary {p y : Bool} (h : p = false ∨ y = true) : (p && !y) = false := by
  obtain rfl | rfl := h
  · rfl
  · exact Bool.and_false p

section Refusal
variable {s : State} {i : Instr}

/-- A refusal comes before anything of the instruction's own. -/
theorem exec_of_refusal {t : State} (he : i.isEvent = false) (hu : ∀ w, i ≠ .unassignedWord w) (hx : ∀ x y z, i ≠ .esc x y z)
    (hserial : ((i.opnds s.curWave).serial && (s.pendingRegs s.cur != [] || s.pendingFrames s.cur != [])) = false)
    (h : s.refusal i = some t) : exec i s = .next t := by
  obtain ⟨own, prep, body, hi⟩ := exec_isIssue s i he hu hx
  rw [hi]
  unfold State.issueWith
  simp only [hserial, h, Bool.false_eq_true, if_false]

variable (hun : i.unimpl s.curWave = none)
include hun

theorem refusal_of_priv (hp : (i.opnds s.curWave).priv = true) (hs : s.curWave.sys = false) :
    s.refusal i = some (s.parkPre s.cur (encode i) 3 0 0 []) := by
  unfold State.refusal
  simp [hun, hp, hs]

variable (hpriv : (i.opnds s.curWave).priv = false ∨ s.curWave.sys = true)
include hpriv

theorem refusal_of_copy (ho : (i.opnds s.curWave).role = some .copy) (hr : s.curWave.role ≠ .copy) :
    s.refusal i = some (s.parkPre s.cur (encode i) 4 0 (roleInfo 1) []) := by
  unfold State.refusal
  simp [hun, not_priv_and_ordinary hpriv, ho, hr]

theorem refusal_of_matrix (ho : (i.opnds s.curWave).role = some .matrix) (hr : s.curWave.role ≠ .matrix) :
    s.refusal i = some (s.parkPre s.cur (encode i) 4 0 (roleInfo 2) []) := by
  unfold State.refusal
  simp [hun, not_priv_and_ordinary hpriv, ho, hr]

theorem refusal_of_token (hr : ∀ r, (i.opnds s.curWave).role = some r → s.curWave.role = r)
    (ho : (i.opnds s.curWave).token = true) (ht : (s.engine (coreOfWave s.cur)).token ≠ some s.cur) :
    s.refusal i = some (s.parkPre s.cur (encode i) 4 0 (roleInfo 0x10) []) := by
  have hrole : ∀ r, ((i.opnds s.curWave).role == some r && s.curWave.role != r) = false := fun r => by
    by_cases h : (i.opnds s.curWave).role = some r
    · simp [hr r h]
    · simp [h]
  unfold State.refusal
  simp [hun, not_priv_and_ordinary hpriv, hrole, ho, ht]

end Refusal

/-- Settles O27: each refusal is a park before issue, which comes before anything of the instruction's own. -/
theorem privilegeAndRole : Obligations.PrivilegeAndRole := by
  unfold Obligations.PrivilegeAndRole
  intro s i he hu hx w o hun hserial
  have hpark : ∀ {cls fi}, s.refusal i = some (s.parkPre s.cur (encode i) cls 0 fi []) →
      ∃ t, exec i s = .next t ∧ ParksBefore s t cls 0 fi :=
    fun h => ⟨_, exec_of_refusal he hu hx hserial h, parkPre_parksBefore ..⟩
  refine ⟨fun ⟨hp, hs⟩ => ?_, fun hpriv ⟨ho, hr⟩ => ?_, fun hpriv ⟨ho, hr⟩ => ?_, fun hpriv hr ho ht => ?_⟩
  · exact hpark (refusal_of_priv hun hp hs)
  · exact hpark (refusal_of_copy hun hpriv ho hr)
  · exact hpark (refusal_of_matrix hun hpriv ho hr)
  · exact hpark (refusal_of_token hun hpriv hr ho ht)

end Sys2Proof.Proofs

/-! PROOFS. Branches (09/R205, 10/R252, R253, 05/R122): what each condition asks of the wave, and where the PC goes. -/

namespace Sys2Proof.Proofs

open Sys2Proof.Machine

open Sys2Proof.Safety

/-- Issue has put the wave that moves in its place: to put it there again changes nothing. -/
theorem setCur_issuedBy_self (s : State) (i : Instr) : (s.issuedBy i).setCur (s.issuedBy i).curWave = s.issuedBy i := by
  have hwaves : (s.issuedBy i).waves = Sparse.put s.waves s.cur (s.issuedBy i).curWave := by
    rw [State.issuedBy_curWave]
    exact State.charge_waves ..
  have hput : Sparse.put (s.issuedBy i).waves (s.issuedBy i).cur (s.issuedBy i).curWave = (s.issuedBy i).waves := by
    rw [State.issuedBy_cur, hwaves, Sparse.put_put_same]
  rw [State.setCur, State.setWave, hput]

/-- The test of R205 on the active lanes and a mask that reads as `k`, or on the active lanes alone for k0. -/
theorem taken_iff (w : Wave) (m : Low) (c : BCond) : w.taken m c = true ↔
    match c with
    | .always => True
    | .t => w.cct = true
    | .f => w.cct = false
    | .z => if m.val = 0 then w.exm = 0 else w.kread m &&& w.exm = 0
    | .nz => ¬ if m.val = 0 then w.exm = 0 else w.kread m &&& w.exm = 0
    | .full => if m.val = 0 then w.exm = w.cut (~~~ 0) else w.kread m &&& w.exm = w.exm
    | .nfull => ¬ if m.val = 0 then w.exm = w.cut (~~~ 0) else w.kread m &&& w.exm = w.exm := by
  cases c with
  | always | t | f => simp [Wave.taken]
  | z | nz | full | nfull => by_cases hm : m.val = 0 <;> simp [Wave.taken, hm]

theorem taken_issuedBy (u : State) (i : Instr) (m : Nat) (c : BCond) :
    (u.issuedBy i).curWave.taken m c = u.curWave.taken m c := by
  rw [State.issuedBy_curWave]
  rfl

section Branches
variable {s u : State}

theorem exec_br {m : Low} {c : BCond} {off : BitVec 20} (h : Issues s (.br m c off) u) :
    exec (.br m c off) s = .next (if u.curWave.taken m c then (u.issuedBy (.br m c off)).setCur
      { (u.issuedBy (.br m c off)).curWave with pc := u.curWave.pc + 4 * off.signExtend 64 } else u.issuedBy (.br m c off)) := by
  have hexec := issue_next (body := fun t =>
    if t.curWave.taken m c then t.setCur { t.curWave with pc := t.curWave.relTarget off } else t) h
  rw [taken_issuedBy, relTarget_issuedBy] at hexec
  exact hexec

theorem br_taken {m : Low} {c : BCond} {off : BitVec 20} (ht : u.curWave.taken m c = true) :
    CompletesWave s u (.br m c off) (fun v => { v with pc := u.curWave.pc + 4 * off.signExtend 64 }) := fun h => by
  rw [exec_br h, if_pos ht]

theorem br_not_taken {m : Low} {c : BCond} {off : BitVec 20} (ht : ¬ u.curWave.taken m c = true) :
    CompletesWave s u (.br m c off) (fun v => v) := fun h => by
  rw [exec_br h, if_neg ht, setCur_issuedBy_self]

theorem jmpr_completes {a : Reg} (ha : (s.curWave.v64 a s.curWave.uniform).toNat % 4 = 0) :
    CompletesWave s u (.jmpr a) (fun v => { v with pc := s.curWave.v64 a s.curWave.uniform }) := fun h => by
  change execJmpr a s = _
  rw [execJmpr, targetCheck_of_aligned ha]
  exact issueWith_next h

theorem yieldc_completes (n : Fin 64) (off : BitVec 14) (la : Ahead) : CompletesWave s u (.yieldc n off la) (fun v => { v with
    pc := u.curWave.pc + 4 * off.signExtend 64,
    status := if u.curWave.cq.length ≤ n.val then .ready else .yielded n.val }) := fun h => by
  have hpc : (u.issuedBy (.yieldc n off la)).curWave.pc - 4 = u.curWave.pc := by
    rw [State.issuedBy_curWave, Wave.issued_pc, BitVec.add_sub_cancel]
  have hcq : (u.issuedBy (.yieldc n off la)).curWave.cq = u.curWave.cq := by
    rw [State.issuedBy_curWave]
    rfl
  change execYieldc n off la s = _
  rw [execYieldc, issue_next h]
  dsimp only
  rw [hpc, hcq]

end Branches

/-- Settles O21: the condition is read from the wave that issues, and the body moves the PC, or nothing. -/
theorem branches : Obligations.Branches := by
  unfold Obligations.Branches
  refine ⟨fun s u m c off => ?_, fun s u a n off la => ⟨jmpr_completes, yieldc_completes n off la⟩⟩
  exact ⟨fun ht => br_taken ((taken_iff u.curWave m c).2 ht), fun ht => br_not_taken fun h => ht ((taken_iff u.curWave m c).1 h)⟩

end Sys2Proof.Proofs

/-! PROOFS. What issue does and leaves alone (09/R211, 10/R258, 14/R358, 07/R164): the wave that moves, the charge of its task
and the counts of its core. -/

namespace Sys2Proof.Proofs

open Sys2Proof.Machine

open Sys2Proof.Safety

/-! ## Tags (R164) -/

theorem get_foldl_set_other {α : Type} [DecidableEq α] (d : α) (f : Nat → α) {js : List Nat} {j : Nat} (h : j ∉ js)
    (m : Sparse α) : Sparse.get d (js.foldl (fun acc i => Sparse.set d acc i (f i)) m) j = Sparse.get d m j := by
  induction js generalizing m with
  | nil => rfl
  | cons i js ih =>
    exact (ih (List.not_mem_of_not_mem_cons h) _).trans (Sparse.get_set_other d m _ (List.ne_of_not_mem_cons h))

/-- A register that an instruction does not write keeps its tag. -/
theorem issued_tag {w : Wave} {o : Opnds} {x : Word} {op j : Nat}
    (h : ∀ r ∈ o.wr, j < w.wb + r.1 ∨ w.wb + r.1 + r.2 ≤ j) : (w.issued o x op).tag j = w.tag j := by
  refine get_foldl_set_other .plain (fun j => Tag.pick (Config.regTag (op * 2 ^ 32 + w.seq) j)) (fun hj => ?_) w.tags
  obtain ⟨r, hr, hj⟩ := List.mem_flatMap.1 hj
  obtain ⟨n, hn, rfl⟩ := List.mem_map.1 hj
  have hn := List.mem_range.1 hn
  have hout := h r hr
  omega

/-! ## The charge (R358) -/

/-- A charge takes 1 from a budget, or 2 under W64. -/
theorem charge_budget {s : State} {id : Nat} {k : Task} (hk : s.task (s.wave id).task = some k) (hb : k.hasBudget = true) :
    ((s.charge id).task (s.wave id).task).map (·.budget) = some (k.budget - if (s.wave id).w64 then 2 else 1) := by
  have hfind : ∀ b, (s.modTask (s.wave id).task (fun k => { k with budget := b })).task (s.wave id).task =
      some { k with budget := b } := fun b => find_update_same hk _
  unfold State.charge
  simp only [hk, hb, if_true]
  generalize k.budget - (if (s.wave id).w64 then 2 else 1) = b
  split
  · exact congrArg (Option.map (·.budget)) (hfind _)
  · exact congrArg (Option.map (·.budget)) (hfind _)

theorem charge_task_other (s : State) {id j : Nat} (hj : j ≠ (s.wave id).task) : (s.charge id).task j = s.task j := by
  unfold State.task
  obtain h | ⟨k, b, -, h⟩ := charge_tasks s id
  · rw [h]
  · rw [h, Sparse.find_put_other _ _ hj]

section Issued
variable (s : State) (i : Instr)

/-- The state that the charge of an issue is made in. -/
theorem issuedBy_eq_charge : ∃ u : State, s.issuedBy i = u.charge s.cur ∧
    u.wave s.cur = s.curWave.issued (i.opnds s.curWave) (encode i) s.nextId ∧ u.task = s.task :=
  ⟨_, rfl, State.wave_setWave_same .., rfl⟩

theorem issuedBy_budget {k : Task} (hk : s.task s.curWave.task = some k) (hb : k.hasBudget = true) :
    ((s.issuedBy i).task s.curWave.task).map (·.budget) = some (k.budget - if s.curWave.w64 then 2 else 1) := by
  obtain ⟨u, hu, hw, ht⟩ := issuedBy_eq_charge s i
  have h := charge_budget (s := u) (id := s.cur) (k := k) (by rw [hw, ht]; exact hk) hb
  rw [hw] at h
  rw [hu]
  exact h

theorem issuedBy_task_other {j : Nat} (hj : j ≠ s.curWave.task) : (s.issuedBy i).task j = s.task j := by
  obtain ⟨u, hu, hw, ht⟩ := issuedBy_eq_charge s i
  rw [hu, charge_task_other u (by rw [hw]; exact hj), ht]

/-! ## The counts (R164) -/

theorem get_addCount (m : Sparse Nat) (core n c : Nat) :
    Sparse.get 0 (if n = 0 then m else Sparse.put m core (Sparse.get 0 m core + n)) c =
      Sparse.get 0 m c + if c = core then n else 0 := by
  by_cases hn : n = 0
  · rw [if_pos hn, hn, ite_self, Nat.add_zero]
  · rw [if_neg hn]
    by_cases hc : c = core
    · rw [hc, Sparse.get_put_same, if_pos rfl]
    · rw [Sparse.get_put_other _ _ _ hc, if_neg hc, Nat.add_zero]

theorem issuedBy_cntaff (c : Nat) : Sparse.get 0 (s.issuedBy i).cntaff c = Sparse.get 0 s.cntaff c +
    if c = coreOfWave s.cur then ((i.opnds s.curWave).rd.filter (fun r =>
      ((List.range r.2).map (fun n => s.curWave.tag (s.curWave.wb + r.1 + n))).contains .affine &&
        !((List.range r.2).map (fun n => s.curWave.tag (s.curWave.wb + r.1 + n))).contains .plain)).length else 0 := by
  unfold State.issuedBy
  rw [charge_eq]
  exact get_addCount ..

theorem issuedBy_cntuni (c : Nat) : Sparse.get 0 (s.issuedBy i).cntuni c = Sparse.get 0 s.cntuni c +
    if c = coreOfWave s.cur then
      (if ((i.opnds s.curWave).rd ≠ [] ∨ (i.opnds s.curWave).wr ≠ []) ∧ (i.opnds s.curWave).rd.all (fun r =>
        ((List.range r.2).map (fun n => s.curWave.tag (s.curWave.wb + r.1 + n))).all (· == .uniform)) then 1 else 0)
    else 0 := by
  unfold State.issuedBy
  rw [charge_eq]
  exact get_addCount ..

theorem issuedBy_csr : (s.issuedBy i).csr = s.csr := by
  unfold State.issuedBy
  rw [charge_eq]
  rfl

theorem issuedBy_ops : (s.issuedBy i).ops = s.ops := by
  unfold State.issuedBy
  rw [charge_eq]
  rfl

end Issued

/-- Settles O28: the wave is put as it has issued, the task is charged, the core's counts are added to, and nothing else. -/
theorem issueEffect : Obligations.IssueEffect := by
  unfold Obligations.IssueEffect
  intro s i t w o
  have hwave : t.curWave = w.issued o (encode i) s.nextId := State.issuedBy_curWave s i
  rw [hwave]
  refine ⟨rfl, rfl, rfl, rfl, rfl, rfl, rfl, rfl, rfl, rfl, rfl, rfl, rfl, rfl, fun j hj => State.issuedBy_wave_other s i hj,
    State.issuedBy_mem s i, issuedBy_csr s i, issuedBy_gt s i, State.issuedBy_cur s i, issuedBy_ops s i,
    fun k hk hb => issuedBy_budget s i hk hb, fun j hj => issuedBy_task_other s i hj, ?_⟩
  intro core tags
  refine ⟨fun j hj => issued_tag hj, ?_, ?_, fun c hc => ⟨?_, ?_⟩⟩
  · rw [issuedBy_cntaff, if_pos rfl]
    simp only [List.contains_eq_mem, decide_not]
    rfl
  · rw [issuedBy_cntuni, if_pos rfl]
    simp only [List.all_eq_true, beq_iff_eq]
    rfl
  · rw [issuedBy_cntaff, if_neg hc, Nat.add_zero]
  · rw [issuedBy_cntuni, if_neg hc, Nat.add_zero]

end Sys2Proof.Proofs

/-! PROOFS. Compares (10/R229 to R231, 09/R201): masks of lanes bit by bit, an instruction that writes bits of a mask in the
active lanes, and what each condition asks of two values. -/

namespace Sys2Proof.Proofs

open Sys2Proof.Machine

open Sys2Proof.Safety

/-! ## Masks of lanes (R4, R168) -/

theorem maskOf_succ (n : Nat) (f : Nat → Bool) : maskOf (n + 1) f = if f n then maskOf n f + 2 ^ n else maskOf n f := by
  rw [maskOf, List.range_succ, List.foldl_append]
  rfl

theorem maskOf_lt (n : Nat) (f : Nat → Bool) : maskOf n f < 2 ^ n := by
  induction n with
  | zero => exact Nat.one_pos
  | succ n ih =>
    rw [maskOf_succ, Nat.pow_succ]
    split <;> omega

theorem testBit_maskOf (n : Nat) (f : Nat → Bool) (l : Nat) : (maskOf n f).testBit l = (decide (l < n) && f l) := by
  induction n with
  | zero => exact Nat.zero_testBit l
  | succ n ih =>
    have hlt := maskOf_lt n f
    have hhigh : (maskOf n f).testBit n = false := Nat.testBit_lt_two_pow hlt
    rw [maskOf_succ]
    obtain hl | rfl | hl := Nat.lt_trichotomy l n
    · have hbit : (maskOf n f + 2 ^ n).testBit l = (maskOf n f).testBit l := by
        rw [Nat.add_comm, Nat.testBit_two_pow_add_gt hl]
      have hdec : decide (l < n + 1) = decide (l < n) := by simp [hl, Nat.lt_succ_of_lt hl]
      rw [hdec, ← ih]
      split
      · exact hbit
      · rfl
    · cases hf : f l
      · simpa [hf] using hhigh
      · simp [Nat.add_comm (maskOf l f), Nat.testBit_two_pow_add_eq, hhigh]
    · have hpow : 2 ^ (n + 1) ≤ 2 ^ l := Nat.pow_le_pow_right (by decide) hl
      have hz := maskOf_succ n f ▸ maskOf_lt (n + 1) f
      rw [Nat.testBit_lt_two_pow (Nat.lt_of_lt_of_le hz hpow), decide_eq_false (by omega), Bool.false_and]

theorem bitOf_eq_testBit (m : Dword) (l : Nat) : bitOf m l = m.toNat.testBit l := by
  rw [bitOf, Nat.testBit_eq_decide_div_mod_eq]
  rfl

theorem bitOf_dw (n l : Nat) : bitOf (dw n) l = (decide (l < 64) && n.testBit l) := by
  rw [bitOf_eq_testBit, dw, BitVec.toNat_ofNat, Nat.testBit_mod_two_pow]

theorem width_le (w : Wave) : w.width ≤ 64 := by
  unfold Wave.width
  split <;> decide

theorem bitOf_cut (w : Wave) (m : Dword) (l : Nat) : bitOf (w.cut m) l = (decide (l < w.width) && bitOf m l) := by
  have hw := width_le w
  rw [Wave.cut, bitOf_dw, Nat.testBit_mod_two_pow, ← bitOf_eq_testBit]
  by_cases hl : l < w.width
  · simp [hl, Nat.lt_of_lt_of_le hl hw]
  · simp [hl]

theorem bitOf_maskOf {n : Nat} (hn : n ≤ 64) (f : Nat → Bool) (l : Nat) :
    bitOf (dw (maskOf n f)) l = (decide (l < n) && f l) := by
  rw [bitOf_dw, testBit_maskOf]
  by_cases hl : l < n
  · simp [hl, Nat.lt_of_lt_of_le hl hn]
  · simp [hl]

theorem kwrite_eq (w : Wave) (n : Nat) (v : Dword) : w.kwrite n v = { w with k := (w.kwrite n v).k } := by
  unfold Wave.kwrite
  split <;> rfl

theorem kread_kwrite_other {w : Wave} {n j : Nat} {v : Dword} (h : j ≠ n ∨ j = 0) : (w.kwrite n v).kread j = w.kread j := by
  unfold Wave.kwrite
  split
  · rfl
  · by_cases hj : j = 0
    · subst hj
      rfl
    · have hne : j ≠ n := h.resolve_right hj
      simp only [Wave.kread, if_neg hj, Sparse.get_put_other _ _ _ hne]
      rfl

theorem bitOf_kread_kwrite {w : Wave} {n : Nat} {v : Dword} (hn : n ≠ 0) (l : Nat) :
    bitOf ((w.kwrite n v).kread n) l = (decide (l < w.width) && bitOf v l) := by
  have hread : (w.kwrite n v).kread n = w.cut (w.cut v) := by
    simp only [Wave.kwrite, Wave.kread, if_neg hn, Sparse.get_put_same]
    rfl
  rw [hread, bitOf_cut, bitOf_cut, ← Bool.and_assoc, Bool.and_self]

/-- A mask that an instruction writes in the active lanes (R230): its bits, and what it leaves. -/
theorem onlyMasks_kbits (u : State) (i : Instr) (kd : Nat) (f : Nat → Bool) :
    let t := (u.issuedBy i).setCur ((u.issuedBy i).curWave.kbits kd f)
    OnlyMasks u t i ∧ (∀ n, n ≠ kd ∨ n = 0 → t.curWave.kread n = u.curWave.kread n) ∧
    (kd ≠ 0 → ∀ l, bitOf (t.curWave.kread kd) l =
      if l < u.curWave.width then (if u.curWave.active l then f l else bitOf (u.curWave.kread kd) l) else false) := by
  intro t
  have hcur : t.curWave = (u.issuedBy i).curWave.kbits kd f := State.curWave_setCur ..
  refine ⟨?_, fun n hn => ?_, fun hkd l => ?_⟩
  · rw [OnlyMasks, hcur, Wave.kbits, ← kwrite_eq]
    rfl
  · rw [hcur, Wave.kbits, kread_kwrite_other hn, State.issuedBy_curWave, Wave.issued_kread]
  · rw [hcur, Wave.kbits, bitOf_kread_kwrite hkd, bitOf_maskOf (width_le _), State.issuedBy_curWave]
    by_cases hl : l < u.curWave.width
    · rw [if_pos hl, Wave.issued_width, decide_eq_true hl, Bool.true_and]
      rfl
    · rw [if_neg hl, Wave.issued_width, decide_eq_false hl, Bool.false_and]

theorem completesMask_kbits {s u : State} {i : Instr} {kd : Nat} {f : Nat → Bool}
    (h : Issues s i u → exec i s = .next ((u.issuedBy i).setCur ((u.issuedBy i).curWave.kbits kd f))) :
    CompletesMask s u i kd (fun l => if u.curWave.active l then f l else bitOf (u.curWave.kread kd) l) :=
  fun hi => ⟨_, h hi, onlyMasks_kbits u i kd f⟩

/-! ## The instructions -/

section Instructions
variable {s u : State} {c : ICond} {kd : Low} {p q : Sel} {a b : Reg}

theorem cmp_completes : CompletesMask s u (.cmp c kd p a q b) kd (fun l => if u.curWave.active l then
    iCompare c u.curWave.ty.elem u.curWave.ty.signed (u.curWave.valP p a l) (u.curWave.valP q b l)
    else bitOf (u.curWave.kread kd) l) := by
  refine completesMask_kbits fun h => ?_
  change execCmp c kd p a q b s = _
  rw [execCmp, issue_next h, State.issuedBy_curWave]
  rfl

theorem sext12_wclass (w : Wave) (imm : BitVec 12) : sext12 w.wclass imm = ofInt (32 * w.vcount) imm.toInt := by
  obtain h | h := w.vcount_cases
  · rw [sext12, Wave.wclass, h]
    rfl
  · rw [sext12, Wave.wclass, h]
    rfl

theorem cmpi_completes {imm : BitVec 12} : CompletesMask s u (.cmpi c kd a imm) kd (fun l => if u.curWave.active l then
    iCompare c u.curWave.ty.elem u.curWave.ty.signed (u.curWave.val a l) (ofInt (32 * u.curWave.vcount) imm.toInt)
    else bitOf (u.curWave.kread kd) l) := by
  refine completesMask_kbits fun h => ?_
  change execCmpi c kd a imm s = _
  rw [execCmpi, issue_next h, ← sext12_wclass, State.issuedBy_curWave]
  rfl

theorem scmp_completes : CompletesWave s u (.scmp c p a q b) (fun v => { v with
    cct := u.curWave.active u.curWave.uniform && iCompare c u.curWave.ty.elem u.curWave.ty.signed
      (u.curWave.valP p a u.curWave.uniform) (u.curWave.valP q b u.curWave.uniform) }) := fun h => by
  change execScmp c p a q b s = _
  rw [execScmp, issue_next h, State.issuedBy_curWave]
  rfl

theorem fcmp_completes {c : FCond} (hte : ∀ l, u.curWave.active l = true →
      (fCompare (fmtOf u.curWave.ty) u.curWave.env c (u.curWave.valP p a l) (u.curWave.valP q b l)).2 &&& u.curWave.te = 0) :
    CompletesMask s u (.fcmp c kd p a q b) kd (fun l => if u.curWave.active l then
      (fCompare (fmtOf u.curWave.ty) u.curWave.env c (u.curWave.valP p a l) (u.curWave.valP q b l)).1
      else bitOf (u.curWave.kread kd) l) := by
  refine completesMask_kbits fun h => ?_
  have hzero := conds_and_eq_zero (w := u.curWave) (f := fun l =>
    (0, (fCompare (fmtOf u.curWave.ty) u.curWave.env c (u.curWave.valP p a l) (u.curWave.valP q b l)).2)) hte
  change execFcmp c kd p a q b s = _
  rw [execFcmp, issue_next h, State.issuedBy_curWave]
  exact congrArg _ (if_neg fun hne => hne hzero)

end Instructions

/-! ## The conditions (R201, R231) -/

/-- Of values below 2^n only one has a given two's complement. -/
theorem toSigned_inj {n a b : Nat} (ha : a < 2 ^ n) (hb : b < 2 ^ n) (h : toSigned n a = toSigned n b) : a = b := by
  unfold toSigned at h
  rw [Nat.mod_eq_of_lt ha, Nat.mod_eq_of_lt hb] at h
  generalize 2 ^ n = m at *
  split at h <;> split at h <;> omega

theorem and_ne_zero_iff (a b : Nat) : a &&& b ≠ 0 ↔ ∃ j, a.testBit j = true ∧ b.testBit j = true := by
  simp only [← Bool.and_eq_true, ← Nat.testBit_and]
  constructor
  · exact Nat.exists_testBit_of_ne_zero
  · rintro ⟨j, hj⟩ hz
    rw [hz, Nat.zero_testBit] at hj
    cases hj

theorem iCompare_eq_iff {n a b : Nat} (signed : Bool) (ha : a < 2 ^ n) (hb : b < 2 ^ n) : iCompare .eq n signed a b = true ↔
    (if signed then toSigned n a else a : Int) = (if signed then toSigned n b else b : Int) := by
  have hval : iCompare .eq n signed a b = true ↔ a = b := beq_iff_eq
  rw [hval]
  cases signed with
  | false => simp
  | true =>
    simp only [if_true]
    exact ⟨fun h => h ▸ rfl, toSigned_inj ha hb⟩

theorem fCompare_of_nan {f : Fmt} {v : Env} {x y : Nat} (h : (f.arith v x).isNan = true ∨ (f.arith v y).isNan = true) :
    (fCompare f v .eq x y).1 = false ∧ (fCompare f v .lt x y).1 = false ∧ (fCompare f v .le x y).1 = false ∧
    (fCompare f v .gt x y).1 = false ∧ (fCompare f v .ge x y).1 = false ∧ (fCompare f v .or x y).1 = false ∧
    (fCompare f v .ne x y).1 = true ∧ (fCompare f v .un x y).1 = true := by
  have hnan : ((f.arith v x).isNan || (f.arith v y).isNan) = true := Bool.or_eq_true_iff.2 h
  simp only [fCompare, hnan, Bool.not_true, Bool.false_and, Bool.true_or, and_self]

/-- Settles O8: a compare writes a mask in the active lanes, or CC.T, of the wave as it issued. -/
theorem compares : Obligations.Compares := by
  unfold Obligations.Compares
  refine ⟨fun s u a b p q kd c imm => ⟨cmp_completes, cmpi_completes, scmp_completes⟩, fun n signed a b => ?_,
    fun s u a b p q kd c => fcmp_completes, fun f v x y => fCompare_of_nan⟩
  intro x y
  refine ⟨rfl, decide_eq_true_iff, ?_, rfl, ?_, ?_, ?_, fun ha hb _ => iCompare_eq_iff signed ha hb⟩
  · exact (decide_eq_decide.2 Int.not_lt.symm).trans (decide_not ..)
  · exact (decide_eq_decide.2 Int.not_lt.symm).trans (decide_not ..)
  · simp [iCompare, bne]
  · exact bne_iff_ne.trans (and_ne_zero_iff a b)

end Sys2Proof.Proofs

/-! PROOFS. Instructions of lanes in terms of whole values (10/R222, R226 to R228, R246 to R248): what a completed one leaves
depends only on the bits that its registers hold, and the words of formats A3, A4 and I. -/

namespace Sys2Proof.Proofs

open Sys2Proof.Machine

open Sys2Proof.Safety

/-! ## Words (R193) -/

section Words
variable {i : Instr} {m s d a b c pa pb imm : Nat}

theorem isA3_of_fmtA3 {op6 sub2 : Nat} (hfit : encodeNat i < 2 ^ 32) (h : encodeNat i = fmtA3 m d pa a pb b s)
    (hm : m + s = op6 * 2 ^ 24 + sub2) : isA3 i op6 sub2 d pa a pb b := by
  rw [isA3, encode, BitVec.toNat_ofNat, Nat.mod_eq_of_lt hfit, h, fmtA3]
  omega

theorem isA4_of_fmtA4 {op4 : Nat} (hfit : encodeNat i < 2 ^ 32) (h : encodeNat i = fmtA4 m d a b c pa)
    (hm : m = 2 ^ 30 + op4 * 2 ^ 26) : isA4 i op4 d a b c pa := by
  rw [isA4, encode, BitVec.toNat_ofNat, Nat.mod_eq_of_lt hfit, h, fmtA4]
  omega

theorem isI_of_fmtI {op5 : Nat} (hfit : encodeNat i < 2 ^ 32) (h : encodeNat i = fmtI m d a imm)
    (hm : m = 6 * 2 ^ 29 + op5 * 2 ^ 24) : isI i op5 d a imm := by
  rw [isI, encode, BitVec.toNat_ofNat, Nat.mod_eq_of_lt hfit, h, fmtI]
  omega

end Words

/-! ## Values in registers (R174) -/

/-- A register takes 32 bits of a value; those beyond the last register are lost. -/
theorem ofNat_div_congr {x y n k : Nat} (hk : k < n) (h : x % 2 ^ (32 * n) = y % 2 ^ (32 * n)) :
    BitVec.ofNat 32 (x / 2 ^ (32 * k)) = BitVec.ofNat 32 (y / 2 ^ (32 * k)) := by
  refine BitVec.eq_of_getLsbD_eq fun j hj => ?_
  have hbit := congrArg (Nat.testBit · (j + 32 * k)) h
  have hin : j + 32 * k < 32 * n := by omega
  simp only [Nat.testBit_mod_two_pow, hin, decide_true, Bool.true_and] at hbit
  simp only [BitVec.getLsbD_ofNat, hj, decide_true, Bool.true_and, Nat.testBit_div_two_pow]
  exact hbit

theorem gets_congr {u t : State} {d n : Nat} {f g : Nat → Nat} (h : Gets u t d n f)
    (hfg : ∀ l, u.curWave.active l = true → f l % 2 ^ (32 * n) = g l % 2 ^ (32 * n)) : Gets u t d n g := by
  intro j l hl
  rw [h j l hl]
  split
  · next hc =>
    obtain ⟨-, hlow, hhigh, hact⟩ := hc
    exact ofNat_div_congr (by omega) (hfg l hact)
  · rfl

theorem completesValue_congr {s u : State} {i : Instr} {d n : Nat} {f g : Nat → Nat} (h : CompletesValue s u i d n f)
    (hfg : ∀ l, u.curWave.active l = true → f l % 2 ^ (32 * n) = g l % 2 ^ (32 * n)) : CompletesValue s u i d n g :=
  fun hi => by
    obtain ⟨t, ht, honly, hgets⟩ := h hi
    exact ⟨t, ht, honly, gets_congr hgets hfg⟩

theorem completesElements_congr {s u : State} {i : Instr} {d n : Nat} {f g : Nat → Nat → Nat}
    (h : CompletesElements s u i d n f)
    (hfg : ∀ l k, f l k % 2 ^ u.curWave.ty.elem = g l k % 2 ^ u.curWave.ty.elem) : CompletesElements s u i d n g :=
  fun hi => by
    obtain ⟨t, ht, honly, x, hgets, helem⟩ := h hi
    exact ⟨t, ht, honly, x, hgets, fun l k hl hk => (helem l k hl hk).trans (hfg l k)⟩

theorem val_lt (w : Wave) (n l : Nat) : w.val n l < 2 ^ (32 * w.vcount) := by
  unfold Wave.val
  obtain h | h := w.vcount_cases
  · rw [h]
    exact (w.v n l).isLt
  · rw [h]
    exact (w.v64 n l).isLt

theorem valP_lt (w : Wave) (p : Sel) (n l : Nat) : w.valP p n l < 2 ^ (32 * w.vcount) := val_lt ..

/-- The width class, of 32 bits or 64, is that of the registers of a value. -/
theorem wclass_eq (w : Wave) : w.wclass = 32 * w.vcount := by
  unfold Wave.wclass
  obtain h | h := w.vcount_cases <;> rw [h] <;> rfl

/-! ## Types in force (R221) -/

theorem unimpl_of_passes {s : State} {i : Instr} (h : passes s i = true) : i.unimpl s.curWave = none := by
  simp only [passes, Bool.and_eq_true, Option.isNone_iff_eq_none] at h
  obtain ⟨⟨⟨⟨⟨-, href⟩, -⟩, -⟩, -⟩, -⟩ := h
  unfold State.refusal at href
  dsimp only at href
  split at href
  · cases href
  · assumption

/-- An instruction that issues has one of the types that it accepts in force. -/
theorem ty_of_passes {s : State} {i : Instr} {ts : List Ty} (h : passes s i = true)
    (ho : (i.opnds s.curWave).types = some ts) : ∃ t ∈ ts, s.curWave.ty? = some t := by
  have hun := unimpl_of_passes h
  unfold Instr.unimpl at hun
  simp only [ho] at hun
  cases hty : s.curWave.ty? with
  | none =>
    simp only [hty] at hun
    split_ifs at hun
  | some t =>
    refine ⟨t, ?_, rfl⟩
    by_contra hnot
    simp only [hty, List.contains_eq_mem, hnot, decide_false, Bool.not_false] at hun
    split_ifs at hun

/-- Integers of 32 or 64 bits fill the registers of their width class. -/
theorem elem_eq_of_sint {w : Wave} (h : ∃ t ∈ tSint, w.ty? = some t) : w.ty.elem = 32 * w.vcount := by
  obtain ⟨t, ht, hty⟩ := h
  simp only [Wave.ty, Wave.vcount, hty, Option.getD_some, Option.map_some]
  simp only [tSint, List.mem_cons, List.not_mem_nil, or_false] at ht
  obtain rfl | rfl | rfl | rfl := ht <;> rfl

/-! ## Instructions that never trap -/

section Values
variable {s u : State} {i : Instr} {d a b c : Reg} {p q : Sel} {srcs : List Src}

/-- A lane instruction that raises nothing and whose value reads nothing that issue changes. -/
theorem completesValue_laneOp {m n : Nat} (f : Wave → Nat → Nat) (hm : m = 1 ∨ m = 2)
    (he : exec i s = s.laneOp i d m srcs (fun w l => plain (f w l))) (hn : s.curWave.Spans u.curWave → m = n)
    (hf : ∀ o x op, f (u.curWave.issued o x op) = f u.curWave) :
    CompletesValue s u i d n (f u.curWave) := fun h => by
  obtain ⟨t, ht, honly, hgets⟩ := State.laneOp_plain (d := d) (srcs := srcs) (f := fun w l => plain (f w l)) hm h
    fun _ _ => rfl
  rw [State.issuedBy_curWave] at hgets
  refine ⟨t, he.trans ht, honly, ?_⟩
  rw [← hn (issues_curWave h), ← hf]
  exact hgets

/-- One of the width class in force. -/
theorem completesValue_wide (f : Wave → Nat → Nat)
    (he : exec i s = s.laneOp i d s.curWave.vcount srcs (fun w l => plain (f w l)))
    (hf : ∀ o x op, f (u.curWave.issued o x op) = f u.curWave) :
    CompletesValue s u i d u.curWave.vcount (f u.curWave) :=
  completesValue_laneOp f (Wave.vcount_cases _) he (fun h => h.vcount.symm) hf

/-- One of 32 bits. -/
theorem completesValue_narrow (f : Wave → Nat → Nat) (he : exec i s = s.laneOp i d 1 srcs (fun w l => plain (f w l)))
    (hf : ∀ o x op, f (u.curWave.issued o x op) = f u.curWave) :
    CompletesValue s u i d 1 (f u.curWave) :=
  completesValue_laneOp f (.inl rfl) he (fun _ => rfl) hf

theorem completesValue_whole3 (f : Nat → Nat → Nat) (he : exec i s = s.whole3 i d p a q b f) :
    CompletesValue s u i d u.curWave.vcount (fun l => f (u.curWave.valP p a l) (u.curWave.valP q b l)) :=
  completesValue_wide (fun w l => f (w.valP p a l) (w.valP q b l)) he fun _ _ _ => rfl

theorem completesValue_immOp (f : Nat → Nat → Nat) (he : exec i s = s.immOp i d a f) :
    CompletesValue s u i d u.curWave.vcount (fun l => f (32 * u.curWave.vcount) (u.curWave.val a l)) := by
  rw [← wclass_eq]
  exact completesValue_wide (fun w l => f w.wclass (w.val a l)) he fun _ _ _ => rfl

theorem completesElements_elems3 (f : Ty → Nat → Nat → Nat)
    (he : exec i s = s.elems3 i d p a q b (fun t x y => plain (f t x y))) :
    CompletesElements s u i d u.curWave.vcount (fun l k => f u.curWave.ty (src u p a l k) (src u q b l k)) :=
  completesElements_of_float (completesFloat_elems3 (fun t _ x y => plain (f t x y)) he)

theorem completesElements_elems2 (f : Ty → Nat → Nat) (he : exec i s = s.elems2 i d p a (fun t x => plain (f t x))) :
    CompletesElements s u i d u.curWave.vcount (fun l k => f u.curWave.ty (src u p a l k)) :=
  completesElements_of_float (completesFloat_elems2 (fun t _ x => plain (f t x)) he)

theorem completesElements_elems4 (f : Ty → Nat → Nat → Nat → Nat)
    (he : exec i s = s.elems4 i d a b c p (fun t x y z => plain (f t x y z))) :
    CompletesElements s u i d u.curWave.vcount (fun l k => f u.curWave.ty (src u p a l k)
      (element u.curWave.ty k (u.curWave.val b l)) (element u.curWave.ty k (u.curWave.val c l))) :=
  completesElements_of_float (completesFloat_elems4 (fun t _ x y z => plain (f t x y z)) he)

end Values

end Sys2Proof.Proofs

/-! PROOFS. Integer arithmetic (10/R225, R251): the model selects among elements where the statement takes the least or the
greatest of their readings, and the two agree because an element is the code of its reading. -/

namespace Sys2Proof.Proofs

open Sys2Proof.Machine

open Sys2Proof.Safety

/-! ## Readings and codes (R172) -/

theorem ofInt_lt (e : Nat) (z : Int) : ofInt e z < 2 ^ e := by
  have hp : (0 : Int) < ((2 ^ e : Nat) : Int) := Int.natCast_pos.2 (Nat.two_pow_pos e)
  have hlt := Int.emod_lt_of_pos z hp
  have hnn := Int.emod_nonneg z (Int.ne_of_gt hp)
  unfold ofInt
  omega

/-- A code is that of any integer it is congruent to. -/
theorem ofInt_eq_mod {e x : Nat} {z : Int} (h : ((2 ^ e : Nat) : Int) ∣ z - x) : ofInt e z = x % 2 ^ e := by
  have hmod : (x : Int) % ((2 ^ e : Nat) : Int) = z % ((2 ^ e : Nat) : Int) := Int.modEq_iff_dvd.2 h
  rw [ofInt, ← hmod, ← Int.natCast_mod, Int.toNat_natCast]

theorem dvd_toSigned_sub (e x : Nat) : ((2 ^ e : Nat) : Int) ∣ toSigned e x - x := by
  have hx : (x : Int) = ((2 ^ e : Nat) : Int) * ((x / 2 ^ e : Nat) : Int) + ((x % 2 ^ e : Nat) : Int) := by
    exact_mod_cast (Nat.div_add_mod x (2 ^ e)).symm
  unfold toSigned
  split
  · exact ⟨-((x / 2 ^ e : Nat) : Int), by rw [hx]; ring_nf⟩
  · exact ⟨-((x / 2 ^ e : Nat) : Int) - 1, by rw [hx]; ring_nf⟩

theorem elemInt_dvd (t : Ty) (x : Nat) : ((2 ^ t.elem : Nat) : Int) ∣ elemInt t x - x := by
  unfold elemInt
  split
  · exact dvd_toSigned_sub t.elem x
  · refine Int.modEq_iff_dvd.1 ?_
    exact_mod_cast (Nat.mod_modEq x (2 ^ t.elem)).symm

/-- An element is the code of its reading. -/
theorem ofInt_elemInt {t : Ty} {x : Nat} {z : Int} (h : elemInt t x = z) : x % 2 ^ t.elem = ofInt t.elem z % 2 ^ t.elem := by
  rw [← h, ofInt_eq_mod (elemInt_dvd t x), Nat.mod_mod]

theorem elemInt_least (t : Ty) (x y : Nat) :
    elemInt t (if elemInt t y < elemInt t x then y else x) = min (elemInt t x) (elemInt t y) := by
  split <;> omega

theorem elemInt_greatest (t : Ty) (x y : Nat) :
    elemInt t (if elemInt t x < elemInt t y then y else x) = max (elemInt t x) (elemInt t y) := by
  split <;> omega

theorem clampInt_eq {lo hi : Int} (h : lo ≤ hi) (x : Int) : clampInt lo hi x = max lo (min hi x) := by
  unfold clampInt
  split
  · omega
  · split <;> omega

theorem tyLo_le_tyHi (t : Ty) : tyLo t ≤ tyHi t := by
  have hhalf : 0 < 2 ^ (t.elem - 1) := Nat.two_pow_pos _
  have hfull : 0 < 2 ^ t.elem := Nat.two_pow_pos _
  unfold tyLo tyHi
  split <;> omega

/-- CLAMP of an integer type raises nothing (R251). -/
theorem clampElem_of_int {t : Ty} (h : t.isFloat = false) (v : Env) (x y z : Nat) : clampElem t v x y z =
    plain (let m := if elemInt t x < elemInt t y then y else x
      if elemInt t z < elemInt t m then z else m) := by
  unfold clampElem
  rw [h]
  rfl

/-! ## The instructions -/

section Instructions
variable {s u : State} {d a b c : Reg} {p q : Sel}

theorem dot4_completes : CompletesValue s u (.dot4 d a b c p) d 1 (fun l => ofInt 32 (((u.curWave.v c l).toNat : Int) +
    (elemInt u.curWave.ty (bits (u.curWave.valP p a l) 0 8) * elemInt u.curWave.ty (bits (u.curWave.val b l) 0 8) +
     elemInt u.curWave.ty (bits (u.curWave.valP p a l) 8 8) * elemInt u.curWave.ty (bits (u.curWave.val b l) 8 8) +
     elemInt u.curWave.ty (bits (u.curWave.valP p a l) 16 8) * elemInt u.curWave.ty (bits (u.curWave.val b l) 16 8) +
     elemInt u.curWave.ty (bits (u.curWave.valP p a l) 24 8) * elemInt u.curWave.ty (bits (u.curWave.val b l) 24 8)))) := by
  refine completesValue_congr (completesValue_narrow (fun w l => ofInt 32 (((w.v c l).toNat : Int) +
    ((List.range 4).map (fun i => elemInt w.ty (bits (w.valP p a l) (8 * i) 8) *
      elemInt w.ty (bits (w.val b l) (8 * i) 8))).sum)) rfl fun _ _ _ => rfl) fun l _ => ?_
  simp [List.range_succ, add_assoc]

theorem clamp_completes (h : u.curWave.ty.isFloat = false) : CompletesElements s u (.clamp d a b c p) d u.curWave.vcount
    (fun l k => ofInt u.curWave.ty.elem (min (max (srcInt u p a l k)
      (elemInt u.curWave.ty (element u.curWave.ty k (u.curWave.val b l))))
      (elemInt u.curWave.ty (element u.curWave.ty k (u.curWave.val c l))))) := by
  have hfloat := completesFloat_elems4 (s := s) (u := u) (i := .clamp d a b c p) clampElem rfl
  simp only [clampElem_of_int h] at hfloat
  refine completesElements_congr (completesElements_of_float hfloat) fun l k => ofInt_elemInt ?_
  rw [elemInt_least, elemInt_greatest]
  rfl

end Instructions

/-- Settles O3: each instruction is one by element, whose model computes the code of the statement's integer. -/
theorem integerArithmetic : Obligations.IntegerArithmetic := by
  unfold Obligations.IntegerArithmetic
  refine ⟨fun s u d a b p q => ?_, fun s u d a b c p => ?_⟩
  · intro e n lo hi
    have hclamp : ∀ x, clampInt (tyLo u.curWave.ty) (tyHi u.curWave.ty) x = max lo (min hi x) :=
      clampInt_eq (tyLo_le_tyHi u.curWave.ty)
    refine ⟨completesElements_elems3 (fun _ x y => x + y) rfl, completesElements_elems3 (fun t x y => x + 2 ^ t.elem - y) rfl,
      completesElements_elems3 (fun _ x y => x * y) rfl, ?_,
      completesElements_elems3 (fun t x y => (elemInt t x - elemInt t y).natAbs) rfl,
      completesElements_elems3 (fun t x y => ofInt t.elem ((elemInt t x + elemInt t y + 1) / 2)) rfl, ?_, ?_, ?_, ?_⟩
    · refine completesElements_congr (completesElements_elems3
        (fun t x y => ofInt t.elem (elemInt t x * elemInt t y / ((2 ^ t.elem : Nat) : Int))) rfl) fun l k => ?_
      rw [Nat.cast_pow]
      rfl
    · exact completesElements_congr (completesElements_elems3
        (fun t x y => if elemInt t y < elemInt t x then y else x) rfl) fun l k => ofInt_elemInt (elemInt_least ..)
    · exact completesElements_congr (completesElements_elems3
        (fun t x y => if elemInt t x < elemInt t y then y else x) rfl) fun l k => ofInt_elemInt (elemInt_greatest ..)
    · simp only [← hclamp]
      exact completesElements_elems3
        (fun t x y => ofInt t.elem (clampInt (tyLo t) (tyHi t) (elemInt t x + elemInt t y))) rfl
    · simp only [← hclamp]
      exact completesElements_elems3
        (fun t x y => ofInt t.elem (clampInt (tyLo t) (tyHi t) (elemInt t x - elemInt t y))) rfl
  · intro w e B C
    refine ⟨completesElements_elems4 (fun _ x y z => x * y + z) rfl, ?_, dot4_completes, clamp_completes⟩
    refine completesElements_congr (completesElements_elems4 (fun t x y z =>
      ofInt t.elem ((elemInt t x * elemInt t y + elemInt t z) / ((2 ^ t.elem : Nat) : Int))) rfl) fun l k => ?_
    rw [Nat.cast_pow]
    rfl

end Sys2Proof.Proofs

/-! PROOFS. Arithmetic through the carries of k7 (10/R225): ADDC and SUBB write registers as a lane instruction that raises
nothing does, and then bits of a mask in the active lanes. -/

namespace Sys2Proof.Proofs

open Sys2Proof.Machine

open Sys2Proof.Safety

theorem kbits_eq (w : Wave) (kd : Nat) (f : Nat → Bool) : w.kbits kd f = { w with k := (w.kbits kd f).k } := kwrite_eq ..

/-- The masks of a wave are what its k and its width say. -/
theorem kread_setK (w v : Wave) (hw : v.width = w.width) : { w with k := v.k }.kread = v.kread := by
  funext n
  have hcut : ∀ m, { w with k := v.k }.cut m = v.cut m := fun m => by
    unfold Wave.cut
    rw [hw]
    rfl
  unfold Wave.kread
  rw [hcut, hw]
  rfl

/-- Masks written after registers: the state is as issue leaves it but for both. -/
theorem setK_of_onlyRegs {u t : State} {i : Instr} (h : OnlyRegs u t i) (k : Sparse Dword) :
    t.setCur { t.curWave with k := k } = (u.issuedBy i).setCur { (u.issuedBy i).curWave with
      regs := t.curWave.regs, rpoison := t.curWave.rpoison, k := k } := by
  conv_lhs => rw [h, State.setCur_setCur, State.curWave_setCur]

/-- A lane's operands and its bit of k7 put through f. -/
def carryOf (f : Nat → Nat → Nat → Nat → Nat × Bool) (w : Wave) (p : Sel) (a : Reg) (q : Sel) (b : Reg) (l : Nat) :
    Nat × Bool :=
  f w.ty.elem (w.valP p a l) (w.valP q b l) (if bitOf (w.kread 7) l then 1 else 0)

section Carry
variable (f : Nat → Nat → Nat → Nat → Nat × Bool) (u : State) (i : Instr) (d : Reg) (p : Sel) (a : Reg) (q : Sel) (b : Reg)

/-- The state in which the results are written, before the carries are. -/
def carryRegs : State :=
  (u.issuedBy i).laneWrite i d u.curWave.vcount [(a, u.curWave.vcount, p), (b, u.curWave.vcount, q)]
    (fun l => plain (carryOf f u.curWave p a q b l).1)

/-- The wave with the carries written to k7. -/
def carryMask : Wave := (u.issuedBy i).curWave.kbits 7 (fun l => (carryOf f u.curWave p a q b l).2)

theorem carryRegs_gets : OnlyRegs u (carryRegs f u i d p a q b) i ∧
    Gets u (carryRegs f u i d p a q b) d u.curWave.vcount (fun l => (carryOf f u.curWave p a q b l).1) :=
  State.laneWrite_next u i i d u.curWave.vcount _ _ (Wave.vcount_cases _)
    (by rw [Wave.conds_zero _ _ fun _ => rfl, Nat.zero_and])

theorem carryMask_width : (carryMask f u i p a q b).width = (u.issuedBy i).curWave.width := by
  rw [carryMask, kbits_eq]
  rfl

theorem carryMask_kread : (∀ n, n ≠ 7 → (carryMask f u i p a q b).kread n = u.curWave.kread n) ∧
    ∀ l, l < u.curWave.width → bitOf ((carryMask f u i p a q b).kread 7) l =
      if u.curWave.active l then (carryOf f u.curWave p a q b l).2 else bitOf (u.curWave.kread 7) l := by
  obtain ⟨-, hother, hbits⟩ := onlyMasks_kbits u i 7 (fun l => (carryOf f u.curWave p a q b l).2)
  rw [State.curWave_setCur] at hother hbits
  exact ⟨fun n hn => hother n (.inl hn), fun l hl => (hbits (by decide) l).trans (if_pos hl)⟩

variable {f u i d p a q b}

theorem carryOp_eq {s : State} (h : Issues s i u) : s.carryOp i d p a q b f = .next ((carryRegs f u i d p a q b).setCur
    { (carryRegs f u i d p a q b).curWave with k := (carryMask f u i p a q b).k }) := by
  rw [State.carryOp, issue_next h]
  unfold carryRegs carryMask
  simp only [State.issuedBy_curWave]
  rfl

theorem carryOp_next {s : State} (h : Issues s i u) : ∃ t, s.carryOp i d p a q b f = .next t ∧
    t = (u.issuedBy i).setCur { (u.issuedBy i).curWave with
      regs := t.curWave.regs, rpoison := t.curWave.rpoison, k := t.curWave.k } ∧
    Gets u t d u.curWave.vcount (fun l => (carryOf f u.curWave p a q b l).1) ∧
    (∀ n, n ≠ 7 → t.curWave.kread n = u.curWave.kread n) ∧
    ∀ l, l < u.curWave.width → bitOf (t.curWave.kread 7) l =
      if u.curWave.active l then (carryOf f u.curWave p a q b l).2 else bitOf (u.curWave.kread 7) l := by
  obtain ⟨honly, hgets⟩ := carryRegs_gets f u i d p a q b
  have hwidth : (carryRegs f u i d p a q b).curWave.width = (u.issuedBy i).curWave.width := by
    rw [honly, State.curWave_setCur]
    rfl
  refine ⟨_, carryOp_eq h, ?_⟩
  rw [State.curWave_setCur, kread_setK _ _ ((carryMask_width ..).trans hwidth.symm)]
  refine ⟨setK_of_onlyRegs honly _, fun j l hl => ?_, carryMask_kread f u i p a q b⟩
  rw [State.curWave_setCur]
  exact hgets j l hl

end Carry

/-- The difference of two operands with a borrow, as a code (R225). -/
theorem sub_borrow_code {e x y c : Nat} (hy : y < 2 ^ e) (hc : c ≤ 1) :
    (x + 2 ^ (e + 1) - y - c) % 2 ^ e = ofInt e ((x : Int) - y - c) := by
  have hp : 2 ^ (e + 1) = 2 * 2 ^ e := by rw [Nat.pow_succ, Nat.mul_comm]
  refine (ofInt_eq_mod ⟨-2, ?_⟩).symm
  rw [hp]
  omega

/-- The difference with a borrow as the model takes it: of naturals, and with a comparison for the borrow. -/
def borrowSub (e x y c : Nat) : Nat × Bool := ((x + 2 ^ (e + 1) - y - c) % 2 ^ e, decide (x < y + c))

theorem borrowSub_eq {e x y c : Nat} (hy : y < 2 ^ e) (hc : c ≤ 1) :
    borrowSub e x y c = (ofInt e ((x : Int) - y - c), decide ((x : Int) - y - c < 0)) :=
  Prod.ext (sub_borrow_code hy hc) (decide_eq_decide.2 (by omega))

/-- Settles O4: both are the model's carry operation; the operands of SUBB lie below 2^e, so that its sum of naturals is the
difference. -/
theorem carryArithmetic : Obligations.CarryArithmetic := by
  unfold Obligations.CarryArithmetic
  rintro s u d a b p q i f (⟨rfl, rfl⟩ | ⟨rfl, rfl⟩) h
  · exact carryOp_next (f := fun e x y c => ((x + y + c) % 2 ^ e, decide (x + y + c ≥ 2 ^ e))) h
  · have hty : u.curWave.ty.elem = 32 * u.curWave.vcount := by
      rw [(issues_curWave h).ty, (issues_curWave h).vcount]
      exact elem_eq_of_sint (ty_of_passes h.1 rfl)
    have hcarry : ∀ l, carryOf borrowSub u.curWave p a q b l =
        (ofInt u.curWave.ty.elem ((u.curWave.valP p a l : Int) - (u.curWave.valP q b l : Int) -
            ((if bitOf (u.curWave.kread 7) l then 1 else 0 : Nat) : Int)),
          decide ((u.curWave.valP p a l : Int) - (u.curWave.valP q b l : Int) -
            ((if bitOf (u.curWave.kread 7) l then 1 else 0 : Nat) : Int) < 0)) :=
      fun l => borrowSub_eq (hty ▸ valP_lt ..) (by split <;> decide)
    obtain ⟨t, ht, honly, hgets, hother, hbits⟩ := carryOp_next (d := d) (a := a) (b := b) (p := p) (q := q) (f := borrowSub) h
    simp only [hcarry] at hgets hbits
    exact ⟨t, ht, honly, hgets, hother, hbits⟩

end Sys2Proof.Proofs

/-! PROOFS. Logic, selects and moves (10/R226, R232, R246). -/

namespace Sys2Proof.Proofs

open Sys2Proof.Machine

open Sys2Proof.Safety

/-- k0 reads as ones in every lane of the wave (R168). -/
theorem bitOf_kread_zero {w : Wave} {l : Nat} (h : l < w.width) : bitOf (w.kread 0) l = true := by
  have hl : l < 64 := Nat.lt_of_lt_of_le h (width_le w)
  have hread : w.kread 0 = dw (2 ^ w.width - 1) := rfl
  rw [hread, bitOf_dw, Nat.testBit_two_pow_sub_one, decide_eq_true hl, decide_eq_true h]
  rfl

theorem lt_width_of_active {w : Wave} {l : Nat} (h : w.active l = true) : l < w.width := by
  simp only [Wave.active, Bool.and_eq_true, decide_eq_true_eq] at h
  exact h.1.1

section Select
variable {s u : State} {i : Instr} {d a b : Reg} {p q : Sel}

theorem completesValue_select {m : Nat} (he : exec i s = s.select i d p a q b m) :
    CompletesValue s u i d u.curWave.vcount
      (fun l => if bitOf (u.curWave.kread m) l then u.curWave.valP p a l else u.curWave.valP q b l) :=
  completesValue_wide (fun w l => if bitOf (w.kread m) l then w.valP p a l else w.valP q b l) he fun _ _ _ => rfl

theorem selK03_completes {m : Fin 4} : CompletesValue s u (.selK03 d p a q b m) d u.curWave.vcount
    (fun l => if m.val = 0 ∨ bitOf (u.curWave.kread m) l = true then u.curWave.valP p a l else u.curWave.valP q b l) := by
  refine completesValue_congr (completesValue_select rfl) fun l hl => ?_
  have hbit : bitOf (u.curWave.kread m) l = true ↔ m.val = 0 ∨ bitOf (u.curWave.kread m) l = true :=
    ⟨.inr, fun h => h.elim (fun h0 => by rw [h0]; exact bitOf_kread_zero (lt_width_of_active hl)) id⟩
  exact congrArg (· % _) (if_congr hbit rfl rfl)

end Select

/-- Settles O5: each is a lane instruction on the whole value, which raises nothing. -/
theorem logic : Obligations.Logic := by
  unfold Obligations.Logic
  refine ⟨fun s u d a b p q => ?_, fun d a b p q m => ?_, fun s u d a b p q m => ?_⟩
  · exact ⟨completesValue_whole3 (· &&& ·) rfl, completesValue_whole3 (· ||| ·) rfl, completesValue_whole3 (· ^^^ ·) rfl,
      completesValue_whole3 (fun x y => x &&& (2 ^ 64 - 1 - y)) rfl,
      completesValue_whole3 (fun x y => x ||| (2 ^ 64 - 1 - y)) rfl⟩
  · exact ⟨isA3_of_fmtA3 (Laws.Encoding.and ..) rfl rfl, isA3_of_fmtA3 (Laws.Encoding.or ..) rfl rfl,
      isA3_of_fmtA3 (Laws.Encoding.xor ..) rfl rfl, isA3_of_fmtA3 (Laws.Encoding.andn ..) rfl rfl,
      isA3_of_fmtA3 (Laws.Encoding.orn ..) rfl rfl, isA3_of_fmtA3 (Laws.Encoding.selK03 ..) rfl rfl,
      isA3_of_fmtA3 (Laws.Encoding.selK47 ..) rfl rfl⟩
  · exact ⟨selK03_completes, completesValue_select rfl, completesValue_wide (fun w => w.valP p a) rfl fun _ _ _ => rfl⟩

end Sys2Proof.Proofs

/-! PROOFS. Shifts, rotates and counts of bits (10/R227), bit fields (R228) and immediates (R247, R248): the model's recursions
over bits are the counts, the first set bits and the masks of the statements. -/

namespace Sys2Proof.Proofs

open Sys2Proof.Machine

open Sys2Proof.Safety

/-! ## Bits of an element -/

theorem testBit_succ_fun (a : Nat) : (fun j => a.testBit (j + 1)) = (a / 2).testBit :=
  funext fun j => Nat.testBit_succ a j

theorem testBit_zero_eq_true {a : Nat} : a.testBit 0 = true ↔ a % 2 = 1 := by simp

theorem popBits_eq (n a : Nat) : popBits n a = ((List.range n).filter a.testBit).length := by
  induction n generalizing a with
  | zero => rfl
  | succ n ih =>
    have hrest : ((List.range n).map Nat.succ).filter a.testBit = ((List.range n).filter (a / 2).testBit).map Nat.succ := by
      rw [List.filter_map, ← testBit_succ_fun]
      rfl
    rw [popBits, ih, List.range_succ_eq_map, List.filter_cons, hrest]
    split
    · next h => rw [List.length_cons, List.length_map, testBit_zero_eq_true.1 h, Nat.add_comm]
    · next h =>
      have h0 : a % 2 = 0 := by simpa using h
      rw [List.length_map, h0, Nat.zero_add]

theorem ctzBits_eq (n a : Nat) : ctzBits n a = ((List.range n).find? a.testBit).getD n := by
  induction n generalizing a with
  | zero => rfl
  | succ n ih =>
    have hrest : ((List.range n).map Nat.succ).find? a.testBit = ((List.range n).find? (a / 2).testBit).map Nat.succ := by
      rw [List.find?_map, ← testBit_succ_fun]
      rfl
    rw [ctzBits, ih, List.range_succ_eq_map, List.find?_cons, hrest]
    by_cases h : a % 2 = 1
    · rw [if_pos h, testBit_zero_eq_true.2 h]
      rfl
    · rw [if_neg h, Bool.eq_false_iff.2 (mt testBit_zero_eq_true.1 h), Nat.add_comm]
      cases (List.range n).find? (a / 2).testBit <;> rfl

theorem maskOf_congr {n : Nat} {f g : Nat → Bool} (h : ∀ l, l < n → f l = g l) : maskOf n f = maskOf n g :=
  List.foldl_ext _ _ _ fun acc l hl => by rw [h l (List.mem_range.1 hl)]

theorem revBits_eq (n a : Nat) : revBits n a = maskOf n (fun j => a.testBit (n - 1 - j)) := by
  induction n generalizing a with
  | zero => rfl
  | succ n ih =>
    have hlow : maskOf n (fun j => a.testBit (n + 1 - 1 - j)) = revBits n (a / 2) := by
      rw [ih]
      refine maskOf_congr fun j hj => ?_
      rw [show n + 1 - 1 - j = n - 1 - j + 1 by omega, Nat.testBit_succ]
    rw [revBits, maskOf_succ, hlow, Nat.add_sub_cancel, Nat.sub_self]
    split
    · next h => rw [testBit_zero_eq_true.1 h, Nat.one_mul, Nat.add_comm]
    · next h =>
      have h0 : a % 2 = 0 := by simpa using h
      rw [h0, Nat.zero_mul, Nat.zero_add]

/-- The zeros above the highest set bit of e bits. -/
theorem clzBits_eq {e x : Nat} (hx : x < 2 ^ e) :
    clzBits e x = ((List.range e).find? (fun j => x.testBit (e - 1 - j))).getD e := by
  rw [clzBits, Nat.mod_eq_of_lt hx]
  split
  · next h =>
    rw [h, List.find?_eq_none.2 (by simp), Option.getD_none]
  · next h =>
    have hlog : x.log2 < e := (Nat.log2_lt h).2 hx
    have hfind : (List.range e).find? (fun j => x.testBit (e - 1 - j)) = some (e - 1 - x.log2) := by
      refine List.find?_range_eq_some.2 ⟨?_, List.mem_range.2 (by omega), fun j hj => ?_⟩
      · rw [show e - 1 - (e - 1 - x.log2) = x.log2 by omega]
        exact Nat.testBit_log2 h
      · have hhigh : x.log2 < e - 1 - j := by omega
        simp [Nat.testBit_lt_two_pow ((Nat.log2_lt h).1 hhigh)]
    rw [hfind, Option.getD_some]

/-! ## Shifts to the right with the sign -/

theorem toSigned_bounds (e x : Nat) : -((2 ^ e : Nat) : Int) ≤ toSigned e x ∧ toSigned e x < ((2 ^ e : Nat) : Int) := by
  have hr : x % 2 ^ e < 2 ^ e := Nat.mod_lt _ (Nat.two_pow_pos e)
  unfold toSigned
  split <;> omega

/-- A shift by the width or more gives the sign. -/
theorem sarBits_eq (e x c : Nat) : sarBits e x c =
    ofInt e (if c ≥ e then (if toSigned e x < 0 then -1 else 0) else toSigned e x / 2 ^ c) := by
  have hcast : ((2 ^ c : Nat) : Int) = 2 ^ c := Nat.cast_pow 2 c
  obtain ⟨hlow, hhigh⟩ := toSigned_bounds e x
  unfold sarBits
  by_cases hc : c ≥ e
  · rw [if_pos hc, show Nat.min c e = e from Nat.min_eq_right hc]
    by_cases hneg : toSigned e x < 0
    · rw [if_pos hneg, Int.ediv_eq_neg_one_of_neg_of_le hneg (by omega)]
    · rw [if_neg hneg, Int.ediv_eq_zero_of_lt (by omega) hhigh]
  · rw [if_neg hc, show Nat.min c e = c from Nat.min_eq_left (by omega), hcast]

section Shifts
variable {s u : State} {d a b : Reg} {p q : Sel}

theorem shl_completes : CompletesElements s u (.shl d p a q b) d u.curWave.vcount
    (fun l k => if src u q b l k ≥ u.curWave.ty.elem then 0 else src u p a l k * 2 ^ src u q b l k) := by
  refine completesElements_congr (completesElements_elems3 (fun t x y => shlBits t.elem x y) rfl) fun l k => ?_
  dsimp only [shlBits]
  split
  · rfl
  · exact Nat.mod_mod ..

theorem shr_completes : CompletesElements s u (.shr d p a q b) d u.curWave.vcount
    (fun l k => if src u q b l k ≥ u.curWave.ty.elem then 0 else src u p a l k / 2 ^ src u q b l k) := by
  refine completesElements_congr (completesElements_elems3 (fun t x y => shrBits t.elem x y) rfl) fun l k => ?_
  have hlt : src u p a l k < 2 ^ u.curWave.ty.elem := element_lt ..
  dsimp only [shrBits]
  rw [Nat.mod_eq_of_lt hlt]

theorem sar_completes : CompletesElements s u (.sar d p a q b) d u.curWave.vcount
    (fun l k => ofInt u.curWave.ty.elem (if src u q b l k ≥ u.curWave.ty.elem then
        (if toSigned u.curWave.ty.elem (src u p a l k) < 0 then -1 else 0)
      else toSigned u.curWave.ty.elem (src u p a l k) / 2 ^ src u q b l k)) := by
  simp only [← sarBits_eq]
  exact completesElements_elems3 (fun t x y => sarBits t.elem x y) rfl

theorem fshr_completes : CompletesValue s u (.fshr d p a q b) d u.curWave.vcount
    (fun l => (u.curWave.valP p a l * 2 ^ u.curWave.ty.elem + u.curWave.val d l) /
      2 ^ (u.curWave.valP q b l % u.curWave.ty.elem) % 2 ^ u.curWave.ty.elem) :=
  completesValue_wide (fun w l => (w.valP p a l * 2 ^ w.ty.elem + w.val d l) /
    2 ^ (w.valP q b l % w.ty.elem) % 2 ^ w.ty.elem) rfl fun _ _ _ => rfl

theorem popc_completes : CompletesElements s u (.popc d p a) d u.curWave.vcount
    (fun l k => ((List.range u.curWave.ty.elem).filter (fun j => (src u p a l k).testBit j)).length) := by
  refine completesElements_congr (completesElements_elems2 (fun t x => popBits t.elem x) rfl) fun l k => ?_
  rw [popBits_eq]

theorem clz_completes : CompletesElements s u (.clz d p a) d u.curWave.vcount (fun l k =>
    ((List.range u.curWave.ty.elem).find? (fun j => (src u p a l k).testBit (u.curWave.ty.elem - 1 - j))).getD
      u.curWave.ty.elem) := by
  refine completesElements_congr (completesElements_elems2 (fun t x => clzBits t.elem x) rfl) fun l k => ?_
  have hlt : src u p a l k < 2 ^ u.curWave.ty.elem := element_lt ..
  rw [clzBits_eq hlt]

theorem ctz_completes : CompletesElements s u (.ctz d p a) d u.curWave.vcount (fun l k =>
    ((List.range u.curWave.ty.elem).find? (fun j => (src u p a l k).testBit j)).getD u.curWave.ty.elem) := by
  refine completesElements_congr (completesElements_elems2 (fun t x => ctzBits t.elem x) rfl) fun l k => ?_
  rw [ctzBits_eq]

theorem brev_completes : CompletesElements s u (.brev d p a) d u.curWave.vcount (fun l k =>
    maskOf u.curWave.ty.elem (fun j => (src u p a l k).testBit (u.curWave.ty.elem - 1 - j))) := by
  refine completesElements_congr (completesElements_elems2 (fun t x => revBits t.elem x) rfl) fun l k => ?_
  rw [revBits_eq]

end Shifts

/-- Settles O6: each is one by element but FSHR, which works on the value. -/
theorem shifts : Obligations.Shifts := by
  unfold Obligations.Shifts
  refine ⟨fun d a b p q => ?_, fun s u d a b p q => ?_, fun s u d a p => ?_⟩
  · exact ⟨isA3_of_fmtA3 (Laws.Encoding.shl ..) rfl rfl, isA3_of_fmtA3 (Laws.Encoding.shr ..) rfl rfl,
      isA3_of_fmtA3 (Laws.Encoding.sar ..) rfl rfl, isA3_of_fmtA3 (Laws.Encoding.rol ..) rfl rfl,
      isA3_of_fmtA3 (Laws.Encoding.fshr ..) rfl rfl, isA3_of_fmtA3 (Laws.Encoding.popc ..) rfl rfl,
      isA3_of_fmtA3 (Laws.Encoding.clz ..) rfl rfl, isA3_of_fmtA3 (Laws.Encoding.ctz ..) rfl rfl,
      isA3_of_fmtA3 (Laws.Encoding.brev ..) rfl rfl⟩
  · exact ⟨shl_completes, shr_completes, sar_completes,
      completesElements_elems3 (fun t x y => x * 2 ^ (y % t.elem) + x / 2 ^ (t.elem - y % t.elem)) rfl, fshr_completes⟩
  · exact ⟨popc_completes, clz_completes, ctz_completes, brev_completes⟩

/-! ## Bit fields (R228) -/

theorem bits_low_byte (x : Nat) : bits x 0 8 = x % 256 := congrArg (· % 256) (Nat.div_one x)

section BitFields
variable {s u : State} {d a b c : Reg} {p q : Sel}

theorem bfx_completes : CompletesValue s u (.bfx d p a q b) d u.curWave.vcount (fun l =>
    bfxBits u.curWave.ty.elem u.curWave.ty.signed (u.curWave.valP p a l) (u.curWave.valP q b l % 256)
      (u.curWave.valP q b l / 256 % 256)) := by
  refine completesValue_congr (completesValue_wide (fun w l => bfxBits w.ty.elem w.ty.signed (w.valP p a l)
    (bits (w.valP q b l) 0 8) (bits (w.valP q b l) 8 8)) rfl fun _ _ _ => rfl) fun l _ => ?_
  rw [bits_low_byte]
  rfl

theorem bmsk_completes : CompletesValue s u (.bmsk d p a q b) d u.curWave.vcount (fun l =>
    fieldMask u.curWave.ty.elem (u.curWave.valP p a l % 256) (u.curWave.valP q b l % 256)) := by
  refine completesValue_congr (completesValue_wide (fun w l => fieldMask w.ty.elem (bits (w.valP p a l) 0 8)
    (bits (w.valP q b l) 0 8)) rfl fun _ _ _ => rfl) fun l _ => ?_
  rw [bits_low_byte, bits_low_byte]

theorem bfi_completes : CompletesElements s u (.bfi d a b c p) d u.curWave.vcount (fun l k =>
    bfiBits u.curWave.ty.elem (src u p a l k) (element u.curWave.ty k (u.curWave.val b l))
      (element u.curWave.ty k (u.curWave.val c l) % 256) (element u.curWave.ty k (u.curWave.val c l) / 256 % 256)) := by
  refine completesElements_congr (completesElements_elems4
    (fun t x y z => bfiBits t.elem x y (bits z 0 8) (bits z 8 8)) rfl) fun l k => ?_
  rw [bits_low_byte]
  rfl

end BitFields

theorem bfxBits_eq (e : Nat) (signed : Bool) (a pos len : Nat) : bfxBits e signed a pos len =
    if signed = true ∧ 1 ≤ len ∧ len ≤ e then
      ofInt e (toSigned len ((if pos < e then a % 2 ^ e / 2 ^ pos else 0) % 2 ^ min len e))
    else (if pos < e then a % 2 ^ e / 2 ^ pos else 0) % 2 ^ min len e := by
  simp only [bfxBits, Bool.and_eq_true, decide_eq_true_eq, and_assoc]

/-- Settles O7: position and length are the low bytes of the registers named. -/
theorem bitFields : Obligations.BitFields := by
  unfold Obligations.BitFields
  intro s u d a b c p q
  refine ⟨isA3_of_fmtA3 (Laws.Encoding.bfx ..) rfl rfl, isA3_of_fmtA3 (Laws.Encoding.bmsk ..) rfl rfl,
    isA4_of_fmtA4 (Laws.Encoding.bfi ..) rfl rfl, ?_⟩
  have hbfx := bfx_completes (s := s) (u := u) (d := d) (a := a) (b := b) (p := p) (q := q)
  simp only [bfxBits_eq] at hbfx
  exact ⟨hbfx, bmsk_completes, bfi_completes⟩

/-! ## Immediates (R247, R248) -/

theorem dvd_sub_ofInt (e : Nat) (z : Int) : ((2 ^ e : Nat) : Int) ∣ z - ofInt e z := by
  have hp : ((2 ^ e : Nat) : Int) ≠ 0 := Int.ofNat_ne_zero.2 (Nat.two_pow_pos e).ne'
  rw [ofInt, Int.toNat_of_nonneg (Int.emod_nonneg z hp)]
  exact Int.dvd_self_sub_emod

section Immediates
variable {s u : State} {d a : Reg}

theorem addi_completes {imm : BitVec 12} : CompletesValue s u (.addi d a imm) d u.curWave.vcount
    (fun l => ofInt (32 * u.curWave.vcount) (u.curWave.val a l + imm.toInt)) := by
  refine completesValue_congr (completesValue_immOp (fun n x => x + sext12 n imm) rfl) fun l _ => ?_
  have hcode : ofInt (32 * u.curWave.vcount) (u.curWave.val a l + imm.toInt) =
      (u.curWave.val a l + sext12 (32 * u.curWave.vcount) imm) % 2 ^ (32 * u.curWave.vcount) := by
    refine ofInt_eq_mod ?_
    rw [Nat.cast_add, add_sub_add_left_eq_sub]
    exact dvd_sub_ofInt ..
  rw [hcode, Nat.mod_mod]

theorem shri_completes {c : Fin 64} : CompletesValue s u (.shri d a c) d u.curWave.vcount
    (fun l => if 32 * u.curWave.vcount ≤ c.val then 0 else u.curWave.val a l / 2 ^ c.val) := by
  refine completesValue_congr (completesValue_immOp (fun n x => shrBits n x c) rfl) fun l _ => ?_
  dsimp only [shrBits]
  rw [Nat.mod_eq_of_lt (val_lt ..)]

theorem sari_completes {c : Fin 64} : CompletesValue s u (.sari d a c) d u.curWave.vcount
    (fun l => ofInt (32 * u.curWave.vcount) (if 32 * u.curWave.vcount ≤ c.val then
      (if toSigned (32 * u.curWave.vcount) (u.curWave.val a l) < 0 then -1 else 0)
      else toSigned (32 * u.curWave.vcount) (u.curWave.val a l) / 2 ^ c.val)) := by
  refine completesValue_congr (completesValue_immOp (fun n x => sarBits n x c) rfl) fun l _ => ?_
  rw [sarBits_eq]

end Immediates

/-- Settles O9: each works on the whole value of the width class, whose bits are those of its registers. -/
theorem immediates : Obligations.Immediates := by
  unfold Obligations.Immediates
  intro s u d a imm c big
  refine ⟨isI_of_fmtI (Laws.Encoding.addi ..) rfl rfl, isI_of_fmtI (Laws.Encoding.andi ..) rfl rfl,
    isI_of_fmtI (Laws.Encoding.ori ..) rfl rfl, isI_of_fmtI (Laws.Encoding.xori ..) rfl rfl,
    isI_of_fmtI (Laws.Encoding.shli ..) rfl rfl, isI_of_fmtI (Laws.Encoding.shri ..) rfl rfl,
    isI_of_fmtI (Laws.Encoding.sari ..) rfl rfl, ?_⟩
  intro A n w
  exact ⟨addi_completes, completesValue_immOp (fun _ x => x &&& imm.toNat) rfl,
    completesValue_immOp (fun _ x => x ||| imm.toNat) rfl, completesValue_immOp (fun _ x => x ^^^ imm.toNat) rfl,
    completesValue_immOp (fun n x => shlBits n x c) rfl, shri_completes, sari_completes,
    completesValue_narrow (fun _ _ => sext12 32 imm) rfl fun _ _ _ => rfl,
    completesValue_narrow (fun _ _ => big.toNat * 4096) rfl fun _ _ _ => rfl⟩

end Sys2Proof.Proofs

/-! PROOFS. Conversions (10/R236, R237, R250), and moves between lanes (R239 to R242): a move writes values as a lane
instruction does, whatever marks it carries with them. -/

namespace Sys2Proof.Proofs

open Sys2Proof.Machine

open Sys2Proof.Safety

/-! ## Conversions -/

/-- A lane instruction whose lanes raise no enabled condition writes its results. -/
theorem laneOp_completes {s u : State} {i : Instr} {d n : Nat} {srcs : List Src} (F : Wave → Nat → Res) (hn : n = 1 ∨ n = 2)
    (he : exec i s = s.laneOp i d n srcs F) (hF : ∀ o x op, F (u.curWave.issued o x op) = F u.curWave) (h : Issues s i u)
    (hte : ∀ l, u.curWave.active l = true → (F u.curWave l).2 &&& u.curWave.te = 0) :
    ∃ t, exec i s = .next t ∧ OnlyRegs u t i ∧ Gets u t d n (fun l => (F u.curWave l).1) := by
  have hwave : F (u.issuedBy i).curWave = F u.curWave := by rw [State.issuedBy_curWave, hF]
  have hconds : (u.issuedBy i).curWave.conds (F (u.issuedBy i).curWave) &&& (u.issuedBy i).curWave.te = 0 := by
    rw [hwave, State.issuedBy_curWave]
    exact conds_and_eq_zero hte
  obtain ⟨t, ht, honly, hgets⟩ := State.laneOp_next (d := d) (srcs := srcs) hn h hconds
  rw [hwave] at hgets
  exact ⟨t, he.trans ht, honly, hgets⟩

/-- Settles O11: each is a lane instruction whose results are the model's. -/
theorem conversions : Obligations.Conversions := by
  unfold Obligations.Conversions
  rintro s u d a b c p q ty rz i n g w (⟨rfl, rfl, rfl⟩ | ⟨rfl, rfl, rfl⟩ | ⟨rfl, rfl, rfl⟩ | ⟨rfl, rfl, rfl⟩) h hte
  · refine laneOp_completes (fun w l => cvtVal w.ty ty (if rz then w.env.withRm 1 else w.env) (w.valP p a l)) ?_ rfl
      (fun _ _ _ => rfl) h hte
    split
    · exact .inr rfl
    · exact .inl rfl
  · exact laneOp_completes (fun w l => packVal w.ty w.env (w.valP p a l) (w.valP q b l)) (.inl rfl) rfl
      (fun _ _ _ => rfl) h hte
  · exact laneOp_completes (fun w l => unpkVal w.ty w.env (w.valP p a l) (w.valP q b l)) (.inl rfl) rfl
      (fun _ _ _ => rfl) h hte
  · exact laneOp_completes (fun w l => fDot2 (fmtOf w.ty) w.env (bits (w.valP p a l) 0 16) (bits (w.valP p a l) 16 16)
      (bits (w.val b l) 0 16) (bits (w.val b l) 16 16) (w.v c l).toNat) (.inl rfl) rfl
      (fun _ _ _ => rfl) h hte

/-! ## Moves between lanes (R240, R241) -/

/-- Values written to the active lanes, with marks: only registers and their marks change, and they read as written. -/
theorem putVal_markTo_gets (u : State) (i : Instr) (d : Nat) {n : Nat} (hn : n = 1 ∨ n = 2) (f : Nat → Nat) (m : Nat → Mark) :
    let t := (u.issuedBy i).setCur (((u.issuedBy i).curWave.putVal d n f).markTo d n m)
    OnlyRegs u t i ∧ Gets u t d n f := by
  intro t
  have hcur : t.curWave = ((u.issuedBy i).curWave.putVal d n f).markTo d n m := State.curWave_setCur ..
  refine ⟨?_, fun j l hl => ?_⟩
  · rw [OnlyRegs, hcur]
    exact congrArg (u.issuedBy i).setCur (by rw [Wave.markTo_eq, Wave.putVal_eq])
  · rw [hcur, Wave.markTo_lreg, State.issuedBy_curWave]
    exact Wave.lreg_putVal _ d n f hn j l hl

section Moves
variable {s u : State} {i : Instr} {d a b : Reg} {p q : Sel}

theorem completesValue_moveFrom (source : Nat → Nat) (he : exec i s = s.moveFrom i d p a (fun _ => source)) :
    CompletesValue s u i d u.curWave.vcount (fun l => u.curWave.valP p a (source l)) := fun h => by
  obtain ⟨honly, hgets⟩ := putVal_markTo_gets u i d (Wave.vcount_cases u.curWave)
    (fun l => u.curWave.valP p a (source l)) (fun l => u.curWave.srcMark [(a, u.curWave.vcount, p)] (source l))
  refine ⟨_, ?_, honly, hgets⟩
  rw [he, State.moveFrom, issue_next h]
  simp only [State.issuedBy_curWave]
  rfl

theorem shfl_completes (m : ShflMode) : CompletesValue s u (.shfl d p a q b m) d u.curWave.vcount
    (fun l => u.curWave.valP p a (shflLane m u.curWave.width l (u.curWave.v b (u.curWave.srcLane q l)).toNat)) := fun h => by
  obtain ⟨honly, hgets⟩ := putVal_markTo_gets u (.shfl d p a q b m) d (Wave.vcount_cases u.curWave)
    (fun l => u.curWave.valP p a (shflLane m u.curWave.width l (u.curWave.v b (u.curWave.srcLane q l)).toNat))
    (fun l => if (u.curWave.srcMark [(b, 1, q)] l).origin ≠ 0 then u.curWave.srcMark [(b, 1, q)] l
      else u.curWave.srcMark [(a, u.curWave.vcount, p)]
        (shflLane m u.curWave.width l (u.curWave.v b (u.curWave.srcLane q l)).toNat))
  refine ⟨_, ?_, honly, hgets⟩
  change execShfl d p a q b m s = _
  rw [execShfl, issue_next h]
  simp only [State.issuedBy_curWave]
  rfl

/-- Bits of a quad picked by a register's low bits (R242). -/
theorem maskOf_four_and (f : Nat → Bool) (v : Nat) : maskOf 4 f &&& v % 16 = maskOf 4 (fun j => v.testBit j && f j) := by
  refine Nat.eq_of_testBit_eq fun j => ?_
  rw [Nat.testBit_and, testBit_maskOf, testBit_maskOf, show (16 : Nat) = 2 ^ 4 from rfl, Nat.testBit_mod_two_pow]
  by_cases hj : j < 4
  · simp [hj, Bool.and_comm]
  · simp [hj]

theorem helper_in_quad (w : Wave) (l : Nat) {j : Nat} (hj : j < 4) : w.helper (l / 4 * 4 + j) =
    (!w.active (4 * (l / 4) + j) && (List.range 4).any (fun m => w.active (4 * (l / 4) + m))) := by
  have hquad : (l / 4 * 4 + j) / 4 = l / 4 := by omega
  rw [Wave.helper, hquad, Nat.mul_comm]

theorem hlprd_completes : CompletesValue s u (.hlprd d p a) d 1 (fun l => maskOf 4 (fun j =>
    (u.curWave.v a (u.curWave.srcLane p l)).toNat.testBit j && !u.curWave.active (4 * (l / 4) + j) &&
      (List.range 4).any (fun m => u.curWave.active (4 * (l / 4) + m)))) := by
  refine completesValue_congr (completesValue_narrow (fun w l =>
    maskOf 4 (fun j => w.helper (l / 4 * 4 + j)) &&& (w.v a (w.srcLane p l)).toNat % 16) rfl fun _ _ _ => rfl) fun l _ => ?_
  rw [maskOf_four_and]
  refine congrArg (· % _) (maskOf_congr fun j hj => ?_)
  rw [helper_in_quad _ _ hj, Bool.and_assoc]

end Moves

/-- Settles O14: the value is read in the source lane from the wave before the instruction, active or not. -/
theorem laneMoves : Obligations.LaneMoves := by
  unfold Obligations.LaneMoves
  intro s u d a b p q n hi6 lo2
  refine ⟨isA3_of_fmtA3 (Laws.Encoding.shfl ..) rfl rfl, isA3_of_fmtA3 (Laws.Encoding.shfl ..) rfl rfl,
    isA3_of_fmtA3 (Laws.Encoding.shfl ..) rfl rfl, isA3_of_fmtA3 (Laws.Encoding.shfl ..) rfl rfl,
    isA3_of_fmtA3 (Laws.Encoding.qxh ..) rfl rfl, isA3_of_fmtA3 (Laws.Encoding.qxv ..) rfl rfl,
    isA3_of_fmtA3 (Laws.Encoding.qxd ..) rfl rfl, isA3_of_fmtA3 (Laws.Encoding.qbc ..) rfl rfl,
    isA3_of_fmtA3 (Laws.Encoding.qswz ..) rfl rfl, isA3_of_fmtA3 (Laws.Encoding.hlprd ..) rfl rfl, ?_⟩
  intro w A W B
  refine ⟨shfl_completes .idx, shfl_completes .up, shfl_completes .dn, shfl_completes .xor,
    completesValue_moveFrom (fun l => l ^^^ 1) rfl, completesValue_moveFrom (fun l => l ^^^ 2) rfl,
    completesValue_moveFrom (fun l => l ^^^ 3) rfl, ?_, ?_, hlprd_completes⟩
  · simp only [Nat.mul_comm 4]
    exact completesValue_moveFrom (fun l => l / 4 * 4 + n) rfl
  · refine completesValue_congr (completesValue_moveFrom
      (fun l => l / 4 * 4 + bits (hi6.val * 4 + lo2.val) (2 * (l % 4)) 2) rfl) fun l _ => ?_
    rw [bits, Nat.pow_mul, Nat.mul_comm (l / 4), Nat.mul_comm hi6.val]
    rfl

end Sys2Proof.Proofs

/-! PROOFS. Reductions and scans (10/R243): a run lists for each active lane the combination of the lanes before it and of those up
to it, and its last entry is that of all. -/

namespace Sys2Proof.Proofs

open Sys2Proof.Machine

open Sys2Proof.Safety

/-- The combination of lanes in their order: of none the start, else the first lane's value with the others folded in. -/
def redUpto (step : Nat → Nat → Res) (val : Nat → Nat) (start : Nat) : List Nat → Nat
  | [] => start
  | l :: r => r.foldl (fun x m => (step x m).1) (val l)

/-- A lane takes a step only where another is active before it. -/
theorem redAt_and_eq_zero {step : Nat → Nat → Res} {val : Nat → Nat} {start l te : Nat} {ms : List Nat}
    (h : ms ≠ [] → (step (redUpto step val start ms) l).2 &&& te = 0) : (redAt step val ms l).2 &&& te = 0 := by
  cases ms with
  | nil => exact Nat.zero_and te
  | cons m r => exact h (List.cons_ne_nil m r)

section Runs
variable (t : Ty) (v : Env) (op : RedOp) (val : Nat → Nat)

/-- Once a value runs, a lane's entry has the value that the lanes before it leave, and what its step makes of that. -/
theorem redRun_values_some {l : Nat} {pre post : List Nat} (hl : l ∉ pre) (x start : Nat) :
    ((redRun t v op val (pre ++ l :: post) (some x) start).find? (fun e => e.1 == l)).map (fun e => (e.2.1, e.2.2.1)) =
      some (pre.foldl (fun x n => (redStep t v op val x n).1) x,
        (redStep t v op val (pre.foldl (fun x n => (redStep t v op val x n).1) x) l).1) := by
  induction pre generalizing x with
  | nil => simp [redRun, redStep]
  | cons m rest ih =>
    obtain ⟨hm, hrest⟩ := not_or.1 (mt List.mem_cons.2 hl)
    simp only [List.cons_append, redRun, List.find?_cons, beq_eq_false_iff_ne.2 (Ne.symm hm)]
    exact ih hrest _

/-- A lane's entry has the combination of the lanes before it, and of those up to it. -/
theorem redRun_values {l : Nat} {pre post : List Nat} (hl : l ∉ pre) (start : Nat) :
    ((redRun t v op val (pre ++ l :: post) none start).find? (fun e => e.1 == l)).map (fun e => (e.2.1, e.2.2.1)) =
      some (redUpto (redStep t v op val) val start pre, redUpto (redStep t v op val) val start (pre ++ [l])) := by
  cases pre with
  | nil => simp [redRun, redUpto]
  | cons m rest =>
    obtain ⟨hm, hrest⟩ := not_or.1 (mt List.mem_cons.2 hl)
    simp only [List.cons_append, redRun, List.find?_cons, beq_eq_false_iff_ne.2 (Ne.symm hm), redUpto,
      List.foldl_append, List.foldl_cons, List.foldl_nil]
    exact redRun_values_some t v op val hrest _ _

/-- The value after the last entry of a run that follows an entry. -/
theorem getLast?_redRun (ls : List Nat) (x start : Nat) (e : Nat × Nat × Nat × Nat) (he : e.2.2.1 = x) :
    (e :: redRun t v op val ls (some x) start).getLast?.map (fun y => y.2.2.1) =
      some (ls.foldl (fun x n => (redStep t v op val x n).1) x) := by
  induction ls generalizing x e with
  | nil => exact congrArg some he
  | cons l r ih =>
    rw [redRun, List.getLast?_cons_cons]
    exact ih _ _ rfl

theorem redRun_last {ls : List Nat} (h : ls ≠ []) (start : Nat) :
    ((redRun t v op val ls none start).getLast?.map (fun x => x.2.2.1)).getD 0 =
      redUpto (redStep t v op val) val start ls := by
  cases ls with
  | nil => exact absurd rfl h
  | cons l r =>
    rw [redRun, getLast?_redRun t v op val r _ _ _ rfl]
    rfl

end Runs

/-! ## The lanes of a wave -/

/-- The combination of some of a wave's lanes (R243). -/
def redUptoOf (w : Wave) (a : Reg) (p : Sel) (op : RedOp) : List Nat → Nat :=
  redUpto (redStep w.ty w.env op (w.valP p a)) (w.valP p a) (redStart w.ty op)

theorem lanes_through {w : Wave} {l : Nat} (hl : w.active l = true) :
    w.lanes.filter (fun m => m ≤ l) = w.lanes.filter (fun m => m < l) ++ [l] := by
  obtain ⟨post, hsplit, -⟩ := lanes_split hl
  have hsorted : w.lanes.Pairwise (· < ·) := List.pairwise_lt_range.filter _
  have hbefore : ∀ m ∈ w.lanes.filter (fun m => m < l), m ≤ l := fun m hm =>
    Nat.le_of_lt (of_decide_eq_true (List.mem_filter.1 hm).2)
  have hafter : ∀ m ∈ post, ¬ m ≤ l := by
    rw [hsplit, List.pairwise_append] at hsorted
    obtain ⟨-, hpost, -⟩ := hsorted
    exact fun m hm => Nat.not_le_of_lt (List.rel_of_pairwise_cons hpost hm)
  generalize w.lanes.filter (fun m => m < l) = pre at hsplit hbefore
  rw [hsplit, List.filter_append, List.filter_eq_self.2 fun m hm => decide_eq_true (hbefore m hm), List.filter_cons,
    if_pos (decide_eq_true (Nat.le_refl l)), List.filter_eq_nil_iff.2 fun m hm => by simpa using hafter m hm]

theorem redOf_values {w : Wave} (a : Reg) (p : Sel) (op : RedOp) {l : Nat} (hl : w.active l = true) :
    (redOf w a p op l).1 = redUptoOf w a p op (w.lanes.filter (fun m => m < l)) ∧
      (redOf w a p op l).2.1 = redUptoOf w a p op (w.lanes.filter (fun m => m ≤ l)) := by
  obtain ⟨post, hsplit, hnot⟩ := lanes_split hl
  have hfind := redRun_values w.ty w.env op (w.valP p a) (post := post) hnot (redStart w.ty op)
  rw [← hsplit] at hfind
  obtain ⟨e, hfound, hvalues⟩ := Option.map_eq_some_iff.1 hfind
  obtain ⟨hpre, hthrough⟩ := Prod.mk.inj hvalues
  rw [redOf, hfound, lanes_through hl]
  exact ⟨hpre, hthrough⟩

theorem redLast_eq {w : Wave} (a : Reg) (p : Sel) (op : RedOp) (h : w.lanes ≠ []) :
    redLast w a p op = redUptoOf w a p op w.lanes := redRun_last _ _ _ _ h _

section Completes
variable {s u : State} {i : Instr} {d a : Reg} {p : Sel} {op : RedOp}

theorem completesValue_reduce {pick : Nat × Nat × Nat → Nat} {from_ : Nat → Nat → Bool}
    (he : exec i s = s.reduce i d p a op pick from_)
    (hte : ∀ l, u.curWave.active l = true → (redOf u.curWave a p op l).2.2 &&& u.curWave.te = 0) :
    CompletesValue s u i d u.curWave.vcount (fun l =>
      pick ((redOf u.curWave a p op l).1, (redOf u.curWave a p op l).2.1, redLast u.curWave a p op)) := fun h => by
  obtain ⟨honly, hgets⟩ := putVal_markTo_gets u i d (Wave.vcount_cases u.curWave)
    (fun l => pick ((redOf u.curWave a p op l).1, (redOf u.curWave a p op l).2.1, redLast u.curWave a p op))
    (fun l => u.curWave.reached a p (from_ l))
  have hzero := conds_and_eq_zero (w := u.curWave) (f := fun l =>
    (pick ((redOf u.curWave a p op l).1, (redOf u.curWave a p op l).2.1, redLast u.curWave a p op),
      (redOf u.curWave a p op l).2.2)) hte
  refine ⟨_, ?_, honly, hgets⟩
  rw [he, State.reduce, issue_next h]
  simp only [State.issuedBy_curWave]
  exact congrArg _ (if_neg fun hne => hne hzero)

variable (hte : ∀ l, u.curWave.active l = true → (redOf u.curWave a p op l).2.2 &&& u.curWave.te = 0)
include hte

theorem wred_completes : CompletesValue s u (.wred d p a op) d u.curWave.vcount
    (fun _ => redUptoOf u.curWave a p op u.curWave.lanes) := by
  have hexec : exec (.wred d p a op) s = execWred d p a op s := rfl
  refine completesValue_congr (completesValue_reduce hexec hte) fun l hl => ?_
  dsimp only
  rw [redLast_eq a p op (List.ne_nil_of_mem (mem_lanes.2 hl))]

theorem wscan_completes {excl : Bool} : CompletesValue s u (.wscan d p a op excl) d u.curWave.vcount
    (fun l => redUptoOf u.curWave a p op (u.curWave.lanes.filter (fun m => if excl then m < l else m ≤ l))) := by
  have hexec : exec (.wscan d p a op excl) s = execWscan d p a op excl s := rfl
  refine completesValue_congr (completesValue_reduce hexec hte) fun l hl => ?_
  obtain ⟨hbefore, hthrough⟩ := redOf_values a p op hl
  cases excl with
  | true => exact congrArg (· % _) hbefore
  | false => exact congrArg (· % _) hthrough

end Completes

/-- Settles O15: a run of the wave's lanes lists what each of them receives. -/
theorem reductions : Obligations.Reductions := by
  unfold Obligations.Reductions
  intro s u d a p op excl w A step upto hsteps
  have hupto : upto = redUptoOf w a p op := by
    funext ls
    cases ls <;> rfl
  rw [hupto] at hsteps ⊢
  have hte : ∀ l, w.active l = true → (redOf w a p op l).2.2 &&& w.te = 0 := fun l hl => by
    rw [redOf_cond a p op hl]
    refine redAt_and_eq_zero (start := redStart w.ty op) fun hne => hsteps l (mem_lanes.2 hl) ?_
    obtain ⟨m, hm⟩ := List.exists_mem_of_ne_nil _ hne
    exact List.any_eq_true.2 ⟨m, List.mem_filter.1 hm⟩
  exact ⟨wred_completes hte, wscan_completes hte⟩

end Sys2Proof.Proofs

/-! PROOFS. Masks (10/R244, R245), modes and regions (R256, R257, R259, 15/R388), and the checks that park a wave before its
instruction issues (R155, R158, R253, R259). -/

namespace Sys2Proof.Proofs

open Sys2Proof.Machine

open Sys2Proof.Safety

/-! ## Masks -/

theorem bitOf_and (x y : Dword) (l : Nat) : bitOf (x &&& y) l = (bitOf x l && bitOf y l) := by
  simp only [bitOf_eq_testBit, BitVec.toNat_and, Nat.testBit_and]

theorem bitOf_or (x y : Dword) (l : Nat) : bitOf (x ||| y) l = (bitOf x l || bitOf y l) := by
  simp only [bitOf_eq_testBit, BitVec.toNat_or, Nat.testBit_or]

theorem bitOf_xor (x y : Dword) (l : Nat) : bitOf (x ^^^ y) l = (bitOf x l != bitOf y l) := by
  simp only [bitOf_eq_testBit, BitVec.toNat_xor, Nat.testBit_xor]

theorem bitOf_not (x : Dword) {l : Nat} (h : l < 64) : bitOf (~~~x) l = !bitOf x l := by
  simp only [bitOf_eq_testBit, BitVec.testBit_toNat, BitVec.getLsbD_not, h, decide_true, Bool.true_and]

/-- A mask that an instruction writes whatever is active (R244): its bits, and what it leaves. -/
theorem onlyMasks_kwrite (u : State) (i : Instr) (kd : Nat) (v : Dword) :
    let t := (u.issuedBy i).setCur ((u.issuedBy i).curWave.kwrite kd v)
    OnlyMasks u t i ∧ (∀ n, n ≠ kd ∨ n = 0 → t.curWave.kread n = u.curWave.kread n) ∧
    (kd ≠ 0 → ∀ l, bitOf (t.curWave.kread kd) l = if l < u.curWave.width then bitOf v l else false) := by
  intro t
  have hcur : t.curWave = (u.issuedBy i).curWave.kwrite kd v := State.curWave_setCur ..
  refine ⟨?_, fun n hn => ?_, fun hkd l => ?_⟩
  · rw [OnlyMasks, hcur, ← kwrite_eq]
  · rw [hcur, kread_kwrite_other hn, State.issuedBy_curWave, Wave.issued_kread]
  · rw [hcur, bitOf_kread_kwrite hkd, State.issuedBy_curWave, Wave.issued_width]
    by_cases hl : l < u.curWave.width <;> simp [hl]

section Masks
variable {s u : State} {i : Instr} {kd : Nat}

theorem completesMask_maskOp (f : Wave → Dword) {g : Nat → Bool} (he : exec i s = s.maskOp i kd f)
    (hf : ∀ o x op, f (u.curWave.issued o x op) = f u.curWave)
    (hg : ∀ l, l < u.curWave.width → bitOf (f u.curWave) l = g l) : CompletesMask s u i kd g := fun h => by
  have hwave : f (u.issuedBy i).curWave = f u.curWave := by rw [State.issuedBy_curWave, hf]
  obtain ⟨honly, hother, hbits⟩ := onlyMasks_kwrite u i kd (f u.curWave)
  refine ⟨_, ?_, honly, hother, fun hkd l => ?_⟩
  · rw [he, State.maskOp, issue_next h, hwave]
  · rw [hbits hkd l]
    split
    · next hl => exact hg l hl
    · rfl

end Masks

/-- Settles O16: a mask instruction is the model's `maskOp`, whose write is cut to the width and discarded for k0. -/
theorem masks : Obligations.Masks := by
  unfold Obligations.Masks
  refine ⟨fun kd ka kb d => ?_, fun s u kd ka kb => ?_, fun s u d ka => ?_⟩
  · exact ⟨isA3_of_fmtA3 (Laws.Encoding.kand ..) rfl rfl, isA3_of_fmtA3 (Laws.Encoding.kor ..) rfl rfl,
      isA3_of_fmtA3 (Laws.Encoding.kxor ..) rfl rfl, isA3_of_fmtA3 (Laws.Encoding.kandn ..) rfl rfl,
      isA3_of_fmtA3 (Laws.Encoding.knot ..) rfl rfl, isA3_of_fmtA3 (Laws.Encoding.kmov ..) rfl rfl,
      isA3_of_fmtA3 (Laws.Encoding.kpopc ..) rfl rfl, isA3_of_fmtA3 (Laws.Encoding.kffs ..) rfl rfl⟩
  · intro w x y
    have hlane : ∀ l, l < w.width → l < 64 := fun l hl => Nat.lt_of_lt_of_le hl (width_le w)
    refine ⟨completesMask_maskOp (fun w => w.kread ka &&& w.kread kb) rfl (fun _ _ _ => rfl) fun l _ => bitOf_and ..,
      completesMask_maskOp (fun w => w.kread ka ||| w.kread kb) rfl (fun _ _ _ => rfl) fun l _ => bitOf_or ..,
      completesMask_maskOp (fun w => w.kread ka ^^^ w.kread kb) rfl (fun _ _ _ => rfl) fun l _ => bitOf_xor ..,
      completesMask_maskOp (fun w => w.kread ka &&& ~~~w.kread kb) rfl (fun _ _ _ => rfl) fun l hl => ?_,
      completesMask_maskOp (fun w => ~~~w.kread ka) rfl (fun _ _ _ => rfl) fun l hl => bitOf_not _ (hlane l hl),
      completesMask_maskOp (fun w => w.kread ka) rfl (fun _ _ _ => rfl) fun l _ => rfl,
      completesMask_maskOp (fun w => w.exm) rfl (fun _ _ _ => rfl) fun l _ => rfl, fun h => ?_⟩
    · rw [bitOf_and, bitOf_not _ (hlane l hl)]
    · change execExmwr ka s = _
      rw [execExmwr, issue_next h, State.issuedBy_curWave]
      rfl
  · exact ⟨completesValue_narrow (fun w _ => w.kcount ka) rfl fun _ _ _ => rfl,
      completesValue_narrow (fun w _ => w.kfirst ka) rfl fun _ _ _ => rfl⟩

/-! ## Modes and regions -/

theorem fld_low (d : Dword) (w : Nat) : fld d 0 w = d.toNat % 2 ^ w := congrArg (· % 2 ^ w) (Nat.div_one _)

/-- Settles O18: each effect is made on the wave that has issued, which reads registers and modes as before. -/
theorem modesAndRegions : Obligations.ModesAndRegions := by
  unfold Obligations.ModesAndRegions
  intro s u d a f v x w
  refine ⟨fun h => ?_, fun h => ?_, completesValue_laneOp (fun w _ => w.gmode.toNat) (.inr rfl) rfl (fun _ => rfl)
      fun _ _ _ => rfl, fun h => ?_, fun h => ?_, fun hx h => ?_⟩
  · change execSetm a s = _
    rw [execSetm, issue_next h, issuedBy_uniform64, fld_low]
  · change execSetmf f v s = _
    rw [execSetmf, issue_next h, State.issuedBy_curWave]
    rfl
  · change execRegn s = _
    rw [execRegn, issue_next h]
  · change execNop s = _
    rw [execNop, issue_next h, setCur_issuedBy_self]
  · change execSigchk x s = _
    rw [execSigchk, if_neg (not_not_intro hx)]
    exact issueWith_next h

/-! ## Parks before issue -/

section Parks
variable {s : State} {i : Instr} {target : Wave → Dword}

/-- A call whose target is refused parks for that, whatever its limits (log 38). -/
theorem callOp_parks_target {cls : Nat} {fa fi : Dword} (h : passes s i = true) :
    ∃ t, s.callOp i (some (cls, fa, fi)) target = .next t ∧ ParksBefore s t cls fa fi :=
  issueWith_parksBefore h

/-- A call beyond its limits (R155, R158). -/
theorem callOp_parks_limit (h : passes s i = true)
    (hlimit : s.curWave.cdepth = 4096 ∨ s.curWave.stkmax < s.curWave.wb + s.curWave.sz) :
    ∃ t, s.callOp i none target = .next t ∧ ParksBefore s t 20 0 (accessInfo 0x20 0 0 7 15) := by
  have hown : (none : Option (Nat × Dword × Dword)).orElse (fun _ => s.curWave.callCheck) = some (20, 0, spillInfo 0x20) :=
    if_pos hlimit
  rw [State.callOp, hown]
  exact issueWith_parksBefore h

theorem targetCheck_of_misaligned {x : Dword} (h : x.toNat % 4 ≠ 0) : targetCheck x = some (7, x, jumpInfo 0x30) := if_pos h

theorem gotSlot_eq_none {k : Kernel} {n : Nat} (hk : s.kernelOf s.curWave = some k) (hn : k.gotSlots ≤ n) :
    s.gotSlot s.curWave n = none := by
  rw [State.gotSlot, hk, Option.bind_some, if_neg (Nat.not_lt_of_le hn)]

theorem exec_call (off : BitVec 20) (s : State) :
    exec (.call off) s = s.callOp (.call off) none (fun w => w.relTarget off) := rfl

theorem exec_callr (a : Reg) (s : State) : exec (.callr a) s = s.callOp (.callr a)
    (targetCheck (s.curWave.v64 a s.curWave.uniform)) (fun w => w.v64 a w.uniform) := rfl

theorem exec_callg_none {n : BitVec 12} (h : s.gotSlot s.curWave n.toNat = none) : exec (.callg n) s =
    s.callOp (.callg n) (some (7, dw n.toNat, jumpInfo 0x31)) (fun _ => (s.gotSlot s.curWave n.toNat).getD 0) := by
  change execCallg n s = _
  rw [execCallg, h]

theorem exec_callg_some {n : BitVec 12} {x : Dword} (h : s.gotSlot s.curWave n.toNat = some x) : exec (.callg n) s =
    s.callOp (.callg n) (targetCheck x) (fun _ => (s.gotSlot s.curWave n.toNat).getD 0) := by
  change execCallg n s = _
  rw [execCallg, h]

end Parks

/-- Settles O19: each is a failed check of the instruction's own, made before it issues. -/
theorem checksPark : Obligations.ChecksPark := by
  unfold Obligations.ChecksPark
  refine ⟨fun s x h hx => ?_, ?_, fun s n h => ⟨fun k hk hn => ?_, fun x hx hodd => ?_⟩, ?_, fun s n h hn => ?_⟩
  · change ∃ t, execSigchk x s = .next t ∧ _
    rw [execSigchk, if_pos hx]
    exact issueWith_parksBefore h
  · rintro s a i (rfl | rfl) h hodd
    · change ∃ t, execJmpr a s = .next t ∧ _
      rw [execJmpr, targetCheck_of_misaligned hodd]
      exact issueWith_parksBefore h
    · rw [exec_callr, targetCheck_of_misaligned hodd]
      exact callOp_parks_target h
  · rw [exec_callg_none (gotSlot_eq_none hk hn)]
    exact callOp_parks_target h
  · rw [exec_callg_some hx, targetCheck_of_misaligned hodd]
    exact callOp_parks_target h
  · rintro s i (⟨off, rfl⟩ | ⟨a, rfl, ha⟩ | ⟨n, x, rfl, hx, ha⟩) h hlimit
    · rw [exec_call]
      exact callOp_parks_limit h hlimit
    · rw [exec_callr, targetCheck_of_aligned ha]
      exact callOp_parks_limit h hlimit
    · rw [exec_callg_some hx, targetCheck_of_aligned ha]
      exact callOp_parks_limit h hlimit
  · change ∃ t, execEnter n s = .next t ∧ _
    rw [execEnter, if_pos hn]
    exact issueWith_parksBefore h

end Sys2Proof.Proofs

/-! PROOFS. Constants (10/R249): LDC writes the active lanes whose offset lies in the block, and the wave parks for the first of the
others once they are written. -/

namespace Sys2Proof.Proofs

open Sys2Proof.Machine

open Sys2Proof.Safety

/-! ## What issue leaves of memory and of the wave's kernel -/

theorem issuedBy_caches (s : State) (i : Instr) : (s.issuedBy i).caches = s.caches := by
  unfold State.issuedBy
  rw [charge_eq]
  rfl

theorem issuedBy_slices (s : State) (i : Instr) : (s.issuedBy i).slices = s.slices := by
  unfold State.issuedBy
  rw [charge_eq]
  rfl

/-- The byte of an address is read from copies, lines and memory, by the registers that say where they are. -/
theorem newest_congr {s t : State} (hcaches : t.caches = s.caches) (hslices : t.slices = s.slices) (hmem : t.mem = s.mem)
    (hcsr : t.csr = s.csr) (hpkg : t.pkg = s.pkg) (c pa : Nat) : t.newest c pa = s.newest c pa := by
  have hget : t.csrGet = s.csrGet := by
    funext num inst
    rw [State.csrGet, hcsr, State.csrGet]
  have hshares : t.shares = s.shares := by
    funext c d
    rw [State.shares, State.privateMode, hget, State.shares, State.privateMode]
  have hhome : t.homeOf = s.homeOf := by
    funext c line
    rw [State.homeOf, hget, State.homeOf]
  have hslice : t.slice = s.slice := by
    funext h
    rw [State.slice, hslices, State.slice]
  have hpeer : t.peerPkg = s.peerPkg := by
    funext pa
    rw [State.peerPkg, hget, hpkg, State.peerPkg]
  have hplace : t.place = s.place := by
    funext pa
    unfold State.place
    rw [hpeer]
  have hbyte : t.byte = s.byte := by
    funext a
    rw [State.byte, hmem, State.byte]
  have hline : t.lineByte = s.lineByte := by
    funext ln i
    unfold State.lineByte
    rw [hbyte, hplace]
  unfold State.newest
  rw [hcaches, hshares, hslice, hhome, hline, hbyte, hplace]

theorem issuedBy_newestNat (s : State) (i : Instr) (c pa n : Nat) :
    (s.issuedBy i).newestNat c pa n = s.newestNat c pa n := by
  simp only [State.newestNat, newest_congr (issuedBy_caches s i) (issuedBy_slices s i) (State.issuedBy_mem s i)
    (issuedBy_csr s i) (issuedBy_pkg s i)]

theorem kernelOf_eq_join (s : State) (w : Wave) : s.kernelOf w = ((s.task w.task).map (·.kernel)).join := by
  rw [State.kernelOf]
  cases s.task w.task <;> rfl

theorem issuedBy_kernelOf (s : State) (i : Instr) : (s.issuedBy i).kernelOf (s.issuedBy i).curWave = s.kernelOf s.curWave := by
  rw [kernelOf_eq_join, issuedBy_task_map s i _ fun _ _ => rfl, ← kernelOf_eq_join, State.issuedBy_curWave]
  rfl

/-! ## A record's fault address -/

/-- The addresses of lanes are put beyond the header's words. -/
theorem get_putAddresses {n : Nat} (hn : n < 0x20) (vas : List (Nat × Dword)) (ws : Sparse Dword) :
    Sparse.get 0 (vas.foldl (fun acc x => Sparse.put acc (0x20 + x.1) x.2) ws) n = Sparse.get 0 ws n := by
  induction vas generalizing ws with
  | nil => rfl
  | cons x r ih => exact (ih _).trans (Sparse.get_put_other 0 ws _ (by omega))

/-- A wave that is put and then parks keeps its registers; its record has the class and the fault address given. -/
theorem parkWave_setCur (s : State) (w : Wave) (p : ParkInfo) :
    let t := (s.setCur w).parkWave s.cur p
    t.mem = s.mem ∧ t.curWave = { w with status := .parked, windows := [], stage := 0 } ∧
    ∃ r, t.agenda = s.agenda ++ [.recordWritten r] ∧ r.cls = p.cls ∧ Sparse.get 0 r.words 7 = p.faddr := by
  have hput : (s.setCur w).wave s.cur = w := State.wave_setWave_same ..
  refine ⟨rfl, ?_, _, rfl, rfl, (get_putSources (by decide) ..).trans (get_putAddresses (by decide) ..)⟩
  refine (State.wave_setWave_same ..).trans ?_
  rw [hput]

/-! ## The lanes of LDC -/

/-- Whether the offset of a lane of the wave that moves lies in its kernel's constant block. -/
def ldcOk (s : State) (a : Reg) (imm : BitVec 12) (l : Nat) : Bool :=
  constOk (((s.kernelOf s.curWave).map (·.constSz)).getD 0) (s.curWave.constOff a imm l)

/-- The constant at it. -/
def ldcWord (s : State) (a : Reg) (imm : BitVec 12) (l : Nat) : Word :=
  wd (s.newestNat (coreOfWave s.cur)
    (((s.kernelOf s.curWave).map (·.constPA)).getD 0 + (s.curWave.constOff a imm l).toNat) 4)

/-- The wave with those constants written. -/
def ldcWave (s : State) (d a : Reg) (imm : BitVec 12) : Wave :=
  (s.curWave.lwrite (s.curWave.wb + d.val) (fun l =>
    if s.curWave.active l && ldcOk s a imm l then some (ldcWord s a imm l) else none)).markLanes d
    (s.curWave.lanes.filter (ldcOk s a imm))
    (fun l => s.mark (s.place (((s.kernelOf s.curWave).map (·.constPA)).getD 0 + (s.curWave.constOff a imm l).toNat)))

/-- What the wave parks with where l0 is the first active lane whose offset does not. -/
def ldcPark (s : State) (d a : Reg) (imm : BitVec 12) (l0 : Nat) (rest : List Nat) : ParkInfo :=
  { cls := 7, faddr := s.curWave.constOff a imm l0, finfo := jumpInfo 0x32, pre := false, pc := s.curWave.pc - 4,
    iword := encode (.ldc d a imm), npc := s.curWave.pc, ahead := 0,
    unf := dw (maskOf s.curWave.width (fun l => s.curWave.active l && !ldcOk s a imm l)), gmode := s.curWave.gmode,
    vas := (l0 :: rest).map (fun l => (l, s.curWave.constOff a imm l)), srcs := [], status := 0 }

section Lanes
variable (s : State) (d a : Reg) (imm : BitVec 12)

theorem ldcWave_eq : ldcWave s d a imm =
    { s.curWave with regs := (ldcWave s d a imm).regs, rpoison := (ldcWave s d a imm).rpoison } := by
  unfold ldcWave
  rw [Wave.markLanes_eq, Wave.lwrite_eq]

theorem ldcWave_lreg (j : Nat) {l : Nat} (hl : l < s.curWave.width) : (ldcWave s d a imm).lreg j l =
    if j = s.curWave.wb + d ∧ holds s.curWave j = true ∧ s.curWave.active l = true ∧ ldcOk s a imm l = true then
      ldcWord s a imm l
    else s.curWave.lreg j l := by
  have hmark : ∀ (w : Wave) n ls f, (w.markLanes n ls f).lreg = w.lreg := fun w n ls f => by
    rw [Wave.markLanes_eq]
    rfl
  rw [ldcWave, hmark, Wave.lreg_lwrite _ _ _ _ _ hl]
  by_cases hj : j = s.curWave.wb + d
  · subst hj
    by_cases hh : holds s.curWave (s.curWave.wb + d) = true
    · by_cases hok : s.curWave.active l = true ∧ ldcOk s a imm l = true
      · simp [hh, hok]
      · have hnot : (s.curWave.active l && ldcOk s a imm l) = false := by simpa using hok
        simp [hh, hok, hnot]
    · simp [hh]
  · simp [hj]

theorem ldcOk_issuedBy (i : Instr) : ldcOk (s.issuedBy i) a imm = ldcOk s a imm := by
  unfold ldcOk
  rw [issuedBy_kernelOf, State.issuedBy_curWave]
  rfl

theorem ldcWord_issuedBy (i : Instr) : ldcWord (s.issuedBy i) a imm = ldcWord s a imm := by
  unfold ldcWord
  simp only [issuedBy_kernelOf, issuedBy_newestNat, State.issuedBy_cur]
  rw [State.issuedBy_curWave]
  rfl

end Lanes

/-! ## The instruction -/

section Exec
variable {s u : State} {d a : Reg} {imm : BitVec 12} (h : Issues s (.ldc d a imm) u)
include h

theorem exec_ldc_inside (hin : u.curWave.lanes.filter (fun l => !ldcOk u a imm l) = []) : exec (.ldc d a imm) s =
    .next ((u.issuedBy (.ldc d a imm)).setCur (ldcWave (u.issuedBy (.ldc d a imm)) d a imm)) := by
  rw [← ldcOk_issuedBy u a imm (.ldc d a imm), ← issuedBy_lanes u (.ldc d a imm)] at hin
  unfold ldcOk at hin
  change execLdc d a imm s = _
  rw [execLdc, issue_next h]
  dsimp only
  rw [hin]
  rfl

theorem exec_ldc_outside {l0 : Nat} {rest : List Nat}
    (hout : u.curWave.lanes.filter (fun l => !ldcOk u a imm l) = l0 :: rest) : exec (.ldc d a imm) s =
      .next (((u.issuedBy (.ldc d a imm)).setCur (ldcWave (u.issuedBy (.ldc d a imm)) d a imm)).parkWave
        (u.issuedBy (.ldc d a imm)).cur (ldcPark (u.issuedBy (.ldc d a imm)) d a imm l0 rest)) := by
  rw [← ldcOk_issuedBy u a imm (.ldc d a imm), ← issuedBy_lanes u (.ldc d a imm)] at hout
  unfold ldcOk at hout
  change execLdc d a imm s = _
  rw [execLdc, issue_next h]
  dsimp only
  rw [hout]
  rfl

/-- In both cases registers read as those of the wave with the constants written. -/
theorem exec_ldc_effect : ∃ t, exec (.ldc d a imm) s = .next t ∧ t.mem = (u.issuedBy (.ldc d a imm)).mem ∧
    t.curWave.wb = u.curWave.wb ∧ t.curWave.lreg = (ldcWave (u.issuedBy (.ldc d a imm)) d a imm).lreg ∧
    (u.curWave.lanes.filter (fun l => !ldcOk u a imm l) = [] → OnlyRegs u t (.ldc d a imm)) ∧
    ∀ l0, u.curWave.lanes.find? (fun l => !ldcOk u a imm l) = some l0 → t.curWave.status = .parked ∧
      ∃ r, t.agenda = (u.issuedBy (.ldc d a imm)).agenda ++ [.recordWritten r] ∧ r.cls = 7 ∧
        Sparse.get 0 r.words 7 = u.curWave.constOff a imm l0 := by
  have hwave := ldcWave_eq (u.issuedBy (.ldc d a imm)) d a imm
  have hwb : (ldcWave (u.issuedBy (.ldc d a imm)) d a imm).wb = u.curWave.wb := by
    rw [hwave, State.issuedBy_curWave]
    rfl
  cases hbad : u.curWave.lanes.filter (fun l => !ldcOk u a imm l) with
  | nil =>
    refine ⟨_, exec_ldc_inside h hbad, rfl, ?_, ?_, fun _ => ?_, fun l0 hl0 => ?_⟩
    · rw [State.curWave_setCur, hwb]
    · rw [State.curWave_setCur]
    · rw [OnlyRegs, State.curWave_setCur, ← hwave]
    · rw [← List.head?_filter, hbad] at hl0
      cases hl0
  | cons l1 rest =>
    obtain ⟨hmem, hparked, r, hagenda, hcls, hfaddr⟩ := parkWave_setCur (u.issuedBy (.ldc d a imm))
      (ldcWave (u.issuedBy (.ldc d a imm)) d a imm) (ldcPark (u.issuedBy (.ldc d a imm)) d a imm l1 rest)
    refine ⟨_, exec_ldc_outside h hbad, hmem, ?_, ?_, fun hnil => ?_, fun l0 hl0 => ?_⟩
    · rw [hparked]
      exact hwb
    · rw [hparked]
      rfl
    · cases hnil
    · rw [← List.head?_filter, hbad] at hl0
      cases hl0
      refine ⟨by rw [hparked], r, hagenda, hcls, hfaddr.trans ?_⟩
      rw [ldcPark, State.issuedBy_curWave]
      rfl

end Exec

theorem constOk_eq (size : Nat) (off : Dword) : constOk size off = decide (off.toNat % 4 = 0 ∧ off.toNat + 4 ≤ size) :=
  (Bool.decide_and ..).symm

/-- Settles O20: in both cases the wave is that with the constants written, and parks for the first offset outside the block,
if there is one. -/
theorem constants : Obligations.Constants := by
  unfold Obligations.Constants
  intro s u d a imm h w k off ok
  have hok : ldcOk u a imm = ok := funext fun l => constOk_eq ..
  obtain ⟨t, ht, hmem, hwb, hlreg, honly, hpark⟩ := exec_ldc_effect h
  rw [hok] at honly hpark
  have hread : ∀ j l, l < w.width → t.curWave.lreg j l =
      if j = w.wb + d ∧ holds w j = true ∧ w.active l = true ∧ ok l = true then ldcWord u a imm l else w.lreg j l := by
    intro j l hl
    have hwidth : l < (u.issuedBy (.ldc d a imm)).curWave.width := by
      rw [State.issuedBy_curWave]
      exact hl
    rw [hlreg, ldcWave_lreg _ d a imm j hwidth, ldcOk_issuedBy, ldcWord_issuedBy, hok, State.issuedBy_curWave]
    rfl
  refine ⟨t, ht, hmem, fun l hl => ?_, fun j l hl hj => ?_, fun hall => honly ?_, hpark⟩
  · rw [Wave.v, hwb, hread _ l hl]
    exact if_congr (and_iff_right rfl) rfl rfl
  · rw [hread j l hl, if_neg fun hc => hj hc.1]
  · exact List.filter_eq_nil_iff.2 fun l hl => by simp [List.all_eq_true.1 hall l hl]

end Sys2Proof.Proofs

/-! PROOFS. The matrix token (11/R261, R262): when an acquirer takes it and when it waits, what a release and a pass do to
it, and the waves that a pass may name. -/

namespace Sys2Proof.Proofs

open Sys2Proof.Machine

open Sys2Proof.Safety

theorem engine_issuedBy (s : State) (i : Instr) (c : Nat) : (s.issuedBy i).engine c = s.engine c := by
  unfold State.issuedBy
  rw [charge_eq]
  rfl

/-- An instruction that writes no register issues from the state at hand. -/
theorem issues_eq_of_noWrites {s u : State} {i : Instr} (h : Issues s i u) (hw : (i.opnds s.curWave).wr = []) : u = s :=
  (Move.ok.inj (prep_ok_of_noWrites (prep := .ok) h hw)).symm

section Token
variable {s : State} {la : Ahead}

/-! ## MXTOK.ACQ -/

theorem tokenPrep_ok (h : (s.engine (coreOfWave s.cur)).token = some s.cur ∨ ((s.engine (coreOfWave s.cur)).token = none ∧
    (s.engine (coreOfWave s.cur)).tokq.head?.getD s.cur = s.cur)) : s.tokenPrep = .ok s := by
  unfold State.tokenPrep
  dsimp only
  obtain hown | hfree := h
  · rw [if_pos hown]
  · rw [if_neg (by simp [hfree.1]), if_pos hfree]

/-- Held by another, or free with another's turn come, the token is waited for. -/
theorem tokenPrep_wait (h : (∃ x, (s.engine (coreOfWave s.cur)).token = some x ∧ x ≠ s.cur) ∨
    ((s.engine (coreOfWave s.cur)).token = none ∧ (s.engine (coreOfWave s.cur)).tokq.head?.getD s.cur ≠ s.cur)) :
    s.tokenPrep = .wait (if (s.engine (coreOfWave s.cur)).tokq.contains s.cur then s else s.setEngine (coreOfWave s.cur)
      { s.engine (coreOfWave s.cur) with tokq := (s.engine (coreOfWave s.cur)).tokq ++ [s.cur] }) := by
  unfold State.tokenPrep
  dsimp only
  obtain ⟨x, hx, hne⟩ | ⟨hfree, hturn⟩ := h
  · rw [if_neg (by simp [hx, hne]), if_neg (by simp [hx])]
  · rw [if_neg (by simp [hfree]), if_neg fun hc => hturn hc.2]

theorem exec_mxtokAcq : exec (.mxtokAcq la) s = s.issueWith (.mxtokAcq la) none State.tokenPrep (fun t =>
    t.setEngine (coreOfWave t.cur) { t.engine (coreOfWave t.cur) with
      token := some t.cur, tokq := (t.engine (coreOfWave t.cur)).tokq.filter (· ≠ t.cur) }) := rfl

theorem exec_mxtokAcq_takes (hprep : s.tokenPrep = .ok s) (h : passes s (.mxtokAcq la) = true) :
    exec (.mxtokAcq la) s = .next ((s.issuedBy (.mxtokAcq la)).setEngine (coreOfWave s.cur) { s.engine (coreOfWave s.cur) with
      token := some s.cur, tokq := (s.engine (coreOfWave s.cur)).tokq.filter (· ≠ s.cur) }) := by
  rw [exec_mxtokAcq, issueWith_issues_of_ok h rfl hprep]
  simp only [State.issuedBy_cur, engine_issuedBy]

/-! ## MXTOK.REL -/

theorem exec_mxtokRel : exec (.mxtokRel la) s = s.issue (.mxtokRel la) (fun t =>
    if (t.engine (coreOfWave t.cur)).token = some t.cur then
      t.setEngine (coreOfWave t.cur) { t.engine (coreOfWave t.cur) with token := none } else t) := rfl

theorem exec_mxtokRel_issues (h : Issues s (.mxtokRel la) s) : exec (.mxtokRel la) s = .next
    (if (s.engine (coreOfWave s.cur)).token = some s.cur then (s.issuedBy (.mxtokRel la)).setEngine (coreOfWave s.cur)
      { s.engine (coreOfWave s.cur) with token := none } else s.issuedBy (.mxtokRel la)) := by
  rw [exec_mxtokRel, issue_next h]
  simp only [State.issuedBy_cur, engine_issuedBy]

/-! ## MXTOK.PASS -/

variable {w : Fin 16}

theorem exec_mxtokPass : exec (.mxtokPass w la) s = s.issueWith (.mxtokPass w la)
    (if (s.engine (coreOfWave s.cur)).token ≠ some s.cur then some (4, 0, roleInfo 0x10)
     else if (s.passTarget w).isNone then some (4, 0, roleInfo 0x11) else none) .ok
    (fun t => t.setEngine (coreOfWave s.cur) { t.engine (coreOfWave s.cur) with token := s.passTarget w }) := rfl

theorem exec_mxtokPass_passes {x : Nat} (hown : (s.engine (coreOfWave s.cur)).token = some s.cur)
    (hx : s.passTarget w = some x) (h : Issues s (.mxtokPass w la) s) : exec (.mxtokPass w la) s = .next
      ((s.issuedBy (.mxtokPass w la)).setEngine (coreOfWave s.cur) { s.engine (coreOfWave s.cur) with token := some x }) := by
  rw [exec_mxtokPass, if_neg (not_not.2 hown), hx, if_neg (by simp)]
  rw [issueWith_issues_of_ok h.1 rfl rfl, engine_issuedBy]

theorem exec_mxtokPass_noToken (hown : (s.engine (coreOfWave s.cur)).token ≠ some s.cur)
    (h : passes s (.mxtokPass w la) = true) : ∃ t, exec (.mxtokPass w la) s = .next t ∧ ParksBefore s t 4 0 (roleInfo 0x10) := by
  rw [exec_mxtokPass, if_pos hown]
  exact issueWith_parksBefore h

theorem exec_mxtokPass_noTarget (hown : (s.engine (coreOfWave s.cur)).token = some s.cur) (hx : s.passTarget w = none)
    (h : passes s (.mxtokPass w la) = true) : ∃ t, exec (.mxtokPass w la) s = .next t ∧ ParksBefore s t 4 0 (roleInfo 0x11) := by
  rw [exec_mxtokPass, if_neg (not_not.2 hown), hx, if_pos Option.isNone_none]
  exact issueWith_parksBefore h

theorem passTarget_eq_some_iff {n x : Nat} : s.passTarget n = some x ↔ ∃ g v, s.wg s.curWave.wg = some g ∧
    g.waves[n]? = some x ∧ Sparse.find s.waves x = some v ∧ v.role = .matrix ∧ v.retired = false := by
  unfold State.passTarget
  simp only [Option.bind_eq_some_iff]
  constructor
  · rintro ⟨y, ⟨g, hg, hy⟩, hx⟩
    split at hx
    · next v hv =>
      obtain ⟨⟨hrole, hlive⟩, hyx⟩ := Option.ite_none_right_eq_some.1 hx
      cases hyx
      exact ⟨g, v, hg, hy, hv, hrole, (Bool.not_eq_true' _).mp hlive⟩
    · cases hx
  · rintro ⟨g, v, hg, hy, hv, hrole, hlive⟩
    refine ⟨x, ⟨g, hg, hy⟩, ?_⟩
    rw [hv]
    exact if_pos ⟨hrole, (Bool.not_eq_true' _).mpr hlive⟩

end Token

/-- Settles O41: MXTOK writes no register, so it issues from the state at hand, and each form is settled by what the token
and the queue of its waiters are there. -/
theorem matrixToken : Obligations.MatrixToken := by
  unfold Obligations.MatrixToken
  intro s u w la e core
  refine ⟨fun hturn h => ?_, fun hother h => ⟨fun hnew => ?_, fun hold => ?_⟩, fun hown h => ?_, fun hother h => ?_,
    fun x hown hx h => ?_, fun h => ⟨fun hother => exec_mxtokPass_noToken hother h,
      fun hown hx => exec_mxtokPass_noTarget hown hx h⟩, fun x => passTarget_eq_some_iff⟩
  · obtain rfl := issues_eq_of_noWrites h rfl
    exact exec_mxtokAcq_takes (tokenPrep_ok hturn) h.1
  · rw [exec_mxtokAcq, issueWith_holds_of_wait h (tokenPrep_wait hother), if_neg (Bool.eq_false_iff.1 hnew)]
  · rw [exec_mxtokAcq, issueWith_holds_of_wait h (tokenPrep_wait hother), if_pos hold]
  · obtain rfl := issues_eq_of_noWrites h rfl
    rw [exec_mxtokRel_issues h, if_pos hown]
  · obtain rfl := issues_eq_of_noWrites h rfl
    rw [exec_mxtokRel_issues h, if_neg hother]
  · obtain rfl := issues_eq_of_noWrites h rfl
    exact exec_mxtokPass_passes hown hx h

end Sys2Proof.Proofs

/-! PROOFS. What a matrix instruction hands to the engine (11/R264, R265, R274, R275): acceptance touches the engines and
what is to come, an octet's operation holds what its active lanes give, and the counter X rises. -/

namespace Sys2Proof.Proofs

open Sys2Proof.Machine

open Sys2Proof.Safety

/-! ## Operations accepted (R264, R276) -/

/-- Only the engines, what is to come and the numbers given differ. -/
def EngineSideOnly (s t : State) : Prop := ∃ e a n, t = { s with engines := e, agenda := a, nextId := n }

theorem EngineSideOnly.refl (s : State) : EngineSideOnly s s := ⟨s.engines, s.agenda, s.nextId, rfl⟩

theorem EngineSideOnly.trans {s t v : State} (h : EngineSideOnly s t) (h' : EngineSideOnly t v) : EngineSideOnly s v := by
  obtain ⟨e, a, n, rfl⟩ := h
  obtain ⟨e', a', n', rfl⟩ := h'
  exact ⟨e', a', n', rfl⟩

theorem EngineSideOnly.foldl {α : Type} {f : State → α → State} (hf : ∀ s x, EngineSideOnly s (f s x)) (l : List α)
    (s : State) : EngineSideOnly s (l.foldl f s) := by
  induction l generalizing s with
  | nil => exact .refl s
  | cons x r ih => exact (hf s x).trans (ih _)

theorem EngineSideOnly.mem {s t : State} (h : EngineSideOnly s t) : t.mem = s.mem := by
  obtain ⟨e, a, n, rfl⟩ := h
  rfl

theorem EngineSideOnly.waves {s t : State} (h : EngineSideOnly s t) : t.waves = s.waves := by
  obtain ⟨e, a, n, rfl⟩ := h
  rfl

theorem EngineSideOnly.curWave {s t : State} (h : EngineSideOnly s t) : t.curWave = s.curWave := by
  obtain ⟨e, a, n, rfl⟩ := h
  rfl

/-- One operation put last in the engine; it parks there where a range of it fails R276. -/
def acceptMat (core : Nat) (s : State) (m : MatOp) : State :=
  let t := s.setEngine core { s.engine core with ops := (s.engine core).ops ++ [m] }
  match m.badRange (((s.wg m.wg).map (·.l)).getD 0) with
  | some (off, isr) => t.parkMat core m 7 isr off 0 (misInfo 0x33 isr)
  | none => t

theorem acceptMats_eq (s : State) (core : Nat) (ms : List MatOp) : s.acceptMats core ms =
    if (s.engine core).group = [] ∧ ((ms.foldl (acceptMat core) s).engine core).group ≠ [] then
      (ms.foldl (acceptMat core) s).post (.matrixPass core) else ms.foldl (acceptMat core) s := rfl

theorem acceptMat_engineSideOnly (core : Nat) (s : State) (m : MatOp) : EngineSideOnly s (acceptMat core s m) := by
  unfold acceptMat
  dsimp only
  split
  · exact ⟨_, _, s.nextId, rfl⟩
  · exact ⟨_, s.agenda, s.nextId, rfl⟩

theorem post_engineSideOnly (s : State) (i : Instr) : EngineSideOnly s (s.post i) := ⟨s.engines, _, s.nextId, rfl⟩

theorem acceptMats_engineSideOnly (s : State) (core : Nat) (ms : List MatOp) : EngineSideOnly s (s.acceptMats core ms) := by
  rw [acceptMats_eq]
  have hfold := EngineSideOnly.foldl (acceptMat_engineSideOnly core) ms s
  split
  · exact hfold.trans (post_engineSideOnly ..)
  · exact hfold

theorem foldl_acceptMat_ops {core : Nat} {ms : List MatOp} {s : State}
    (h : ∀ m ∈ ms, m.badRange (((s.wg m.wg).map (·.l)).getD 0) = none) :
    ((ms.foldl (acceptMat core) s).engine core).ops = (s.engine core).ops ++ ms := by
  induction ms generalizing s with
  | nil => exact (List.append_nil _).symm
  | cons m r ih =>
    have hm : acceptMat core s m = s.setEngine core { s.engine core with ops := (s.engine core).ops ++ [m] } := by
      unfold acceptMat
      rw [h m (List.mem_cons_self ..)]
    rw [List.foldl_cons, hm]
    refine (ih ?_).trans ?_
    · exact fun x hx => h x (List.mem_cons_of_mem _ hx)
    · rw [State.engine_setEngine_same]
      exact List.append_assoc ..

/-- Operations whose ranges are good stand last in the engine, in their order. -/
theorem acceptMats_ops {core : Nat} {ms : List MatOp} {s : State}
    (h : ∀ m ∈ ms, m.badRange (((s.wg m.wg).map (·.l)).getD 0) = none) :
    ((s.acceptMats core ms).engine core).ops = (s.engine core).ops ++ ms := by
  rw [acceptMats_eq, ← foldl_acceptMat_ops h]
  split <;> rfl

/-! ## An instruction starts -/

/-- The operations of an instruction with numbers of their own. -/
def numbered (ms : List MatOp) : List MatOp := ms.zipIdx.map (fun x => { x.1 with id := x.1.id + x.2 })

theorem mem_numbered {ms : List MatOp} {m : MatOp} (h : m ∈ numbered ms) : ∃ x ∈ ms, ∃ n, m = { x with id := n } := by
  obtain ⟨⟨x, k⟩, hx, rfl⟩ := List.mem_map.1 h
  exact ⟨x, List.fst_mem_of_mem_zipIdx hx, _, rfl⟩

theorem map_numbered {α : Type} {f : MatOp → α} (hf : ∀ m n, f { m with id := n } = f m) (ms : List MatOp) :
    (numbered ms).map f = ms.map f := by
  unfold numbered
  rw [List.map_map]
  conv_rhs => rw [← List.zipIdx_map_fst 0 ms, List.map_map]
  exact List.map_congr_left fun x _ => hf x.1 _

theorem numbered_eq_nil {ms : List MatOp} : numbered ms = [] ↔ ms = [] := by
  simp [numbered]

theorem matStart_nil (s : State) : s.matStart [] = s.emptyOp .x := rfl

theorem matStart_cons (s : State) (m : MatOp) (ms : List MatOp) : s.matStart (m :: ms) =
    (({ s with nextId := s.nextId + (m :: ms).length + 1 } : State).modLive m.wave (fun w => w.countUp .x m.opId)).acceptMats
      (coreOfWave m.wave) (numbered (m :: ms)) := rfl

/-- Without an active lane no register changes. -/
theorem emptyOp_regs (s : State) (n : Counter) : (s.emptyOp n).curWave.regs = s.curWave.regs := by
  have hwave : (s.emptyOp n).curWave = (s.curWave.countUp n s.nextId).retireOp s.nextId := Sparse.get_put_same ..
  rw [hwave]
  cases n <;> rfl

section Start
variable {s : State} {ms : List MatOp} (hlive : Sparse.find s.waves s.cur = some s.curWave) (hcur : ∀ m ∈ ms, m.wave = s.cur)
include hlive hcur

theorem matStart_curWave {m : MatOp} {r : List MatOp} (hms : ms = m :: r) :
    (s.matStart ms).curWave = s.curWave.countUp .x m.opId := by
  have hm : m.wave = s.cur := hcur m (hms ▸ List.mem_cons_self ..)
  rw [hms, matStart_cons, (acceptMats_engineSideOnly ..).curWave, hm]
  exact wave_of_find (find_update_same hlive _)

theorem matStart_regs : (s.matStart ms).curWave.regs = s.curWave.regs := by
  cases hms : ms with
  | nil => exact emptyOp_regs s .x
  | cons m r =>
    rw [← hms, matStart_curWave hlive hcur hms]
    rfl

/-- An instruction with operations counts on X. -/
theorem matStart_xq (hne : ms ≠ []) : (s.matStart ms).curWave.xq.length = s.curWave.xq.length + 1 := by
  obtain ⟨m, r, hms⟩ := List.exists_cons_of_ne_nil hne
  rw [matStart_curWave hlive hcur hms]
  exact List.length_append

omit hlive in
/-- Its operations stand last in the engine of its core where their ranges are good. -/
theorem matStart_ops (hgood : ∀ m ∈ numbered ms, m.badRange (((s.wg m.wg).map (·.l)).getD 0) = none) :
    ((s.matStart ms).engine (coreOfWave s.cur)).ops = (s.engine (coreOfWave s.cur)).ops ++ numbered ms := by
  cases hms : ms with
  | nil => exact (List.append_nil _).symm
  | cons m r =>
    have hm : m.wave = s.cur := hcur m (hms ▸ List.mem_cons_self ..)
    rw [matStart_cons, hm, ← hms]
    exact acceptMats_ops hgood

end Start

end Sys2Proof.Proofs

/-! PROOFS. The operations that matrix instructions hand to the engine (11/R261, R264, R265, R274, R275): one for each octet
with an active lane, with what its lanes and GMODE give, or one for a tile. -/

namespace Sys2Proof.Proofs

open Sys2Proof.Machine

open Sys2Proof.Safety

/-! ## Octets (R265, R266) -/

theorem maskOf_div_mod {n j : Nat} (f : Nat → Bool) (hj : j < n) : (maskOf n f / 2 ^ j % 2 = 1) ↔ f j = true := by
  have hbit := testBit_maskOf n f j
  rw [decide_eq_true hj, Bool.true_and, Nat.testBit_eq_decide_div_mod_eq] at hbit
  rw [← hbit, decide_eq_true_eq]

theorem maskOf_eq_zero_iff (n : Nat) (f : Nat → Bool) : maskOf n f = 0 ↔ (List.range n).filter f = [] := by
  simp only [List.filter_eq_nil_iff, List.mem_range]
  constructor
  · intro h j hj hf
    have := (maskOf_div_mod f hj).2 hf
    simp [h] at this
  · intro h
    refine Nat.eq_of_testBit_eq fun j => ?_
    rw [testBit_maskOf, Nat.zero_testBit]
    by_cases hj : j < n
    · simp [h j hj]
    · simp [hj]

/-- The rows of an octet: its active lanes. -/
def octetRows (w : Wave) (o : Nat) : List Nat := (List.range 8).filter (fun j => w.active (8 * o + j))

def octetMask (w : Wave) (o : Nat) : Nat := maskOf 8 (fun j => w.active (8 * o + j))

/-- What a register gives the rows of an octet. -/
def octetOffsets (w : Wave) (o r : Nat) : List Nat :=
  (List.range 8).map (fun j => if octetMask w o / 2 ^ j % 2 = 1 then (w.v r (8 * o + j)).toNat else 0)

/-- The lowest active lane of an octet. -/
def octetLead (w : Wave) (o : Nat) : Nat := (lowestLane w.width (fun l => decide (l / 8 = o) && w.active l)).getD 0

/-- The operation of an octet, what the octets have in common given. -/
def octetOp (w : Wave) (m : MatOp) (a : Nat) (b bs as : Option Nat) (o : Nat) : MatOp :=
  { m with
    oct := o, rows := octetMask w o, aoff := octetOffsets w o a, asoff := (as.map (octetOffsets w o)).getD [],
    boff := (b.map (fun r => (w.v r (octetLead w o)).toNat)).getD 0,
    bsoff := (bs.map (fun r => (w.v r (octetLead w o)).toNat)).getD 0 }

/-- The octets with an active lane. -/
def liveOctets (w : Wave) : List Nat := (List.range (w.width / 8)).filter (fun o => octetRows w o != [])

theorem octets_eq (s : State) (m : MatOp) (a : Nat) (b bs as : Option Nat) :
    s.octets m a b bs as = (liveOctets s.curWave).map (octetOp s.curWave m a b bs as) := by
  have hoctets : s.octets m a b bs as = (List.range (s.curWave.width / 8)).filterMap (fun o =>
      if octetMask s.curWave o = 0 then none else some (octetOp s.curWave m a b bs as o)) := rfl
  rw [hoctets, liveOctets, ← List.filterMap_eq_map, List.filterMap_filter]
  refine List.filterMap_congr fun o _ => ?_
  have hempty : octetMask s.curWave o = 0 ↔ octetRows s.curWave o = [] := maskOf_eq_zero_iff ..
  by_cases h : octetRows s.curWave o = []
  · rw [if_pos (hempty.2 h), if_neg (by simp [h])]
  · rw [if_neg (mt hempty.1 h), if_pos (by simp [h])]
    rfl

theorem rowList_octetOp (w : Wave) (m : MatOp) (a : Nat) (b bs as : Option Nat) (o : Nat) :
    (octetOp w m a b bs as o).rowList = octetRows w o := by
  refine List.filter_congr fun j hj => ?_
  rw [Bool.eq_iff_iff, beq_iff_eq]
  exact maskOf_div_mod _ (List.mem_range.1 hj)

theorem getD_octetOffsets {w : Wave} {o j : Nat} (r : Nat) (hj : j ∈ octetRows w o) :
    (octetOffsets w o r).getD j 0 = (w.v r (8 * o + j)).toNat := by
  obtain ⟨hlt, hactive⟩ := List.mem_filter.1 hj
  have hbit := (maskOf_div_mod (fun j => w.active (8 * o + j)) (List.mem_range.1 hlt)).2 hactive
  simp [octetOffsets, List.getD, List.mem_range.1 hlt, octetMask, hbit]

/-- The lowest active lane of an octet is its first row's. -/
theorem octetLead_eq {w : Wave} {o j : Nat} (h : (octetRows w o).head? = some j) : octetLead w o = 8 * o + j := by
  rw [octetRows, List.head?_filter, List.find?_range_eq_some] at h
  obtain ⟨hactive, hj, hbelow⟩ := h
  have hfound : lowestLane w.width (fun l => decide (l / 8 = o) && w.active l) = some (8 * o + j) := by
    rw [lowestLane, List.find?_range_eq_some]
    have hj8 := List.mem_range.1 hj
    refine ⟨?_, List.mem_range.2 (lt_width_of_active hactive), fun l hl => ?_⟩
    · rw [hactive, Bool.and_true, decide_eq_true_eq]
      omega
    · by_cases ho : l / 8 = o
      · have hrow : 8 * o + l % 8 = l := by omega
        have := hbelow (l % 8) (by omega)
        rw [hrow] at this
        simpa using Or.inr this
      · simp [ho]
  rw [octetLead, hfound]
  rfl

/-! ## What the operations of an instruction have in common -/

section Base
variable (u : State) (i : Instr) (kind : MatKind) (tile xf ff : Nat)

theorem matBase_issuedBy : ((u.issuedBy i).matBase i kind tile xf ff).wave = u.cur ∧
    ((u.issuedBy i).matBase i kind tile xf ff).wg = u.curWave.wg ∧
    ((u.issuedBy i).matBase i kind tile xf ff).mxa = fld u.curWave.gmode 21 8 ∧
    ((u.issuedBy i).matBase i kind tile xf ff).mxb = fld u.curWave.gmode 29 8 := by
  unfold State.matBase
  dsimp only
  rw [State.issuedBy_curWave]
  exact ⟨State.issuedBy_cur .., rfl, rfl, rfl⟩

/-- The operations of an octet instruction that issues from `u`. -/
def octetOps (a : Nat) (b bs as : Option Nat) : List MatOp :=
  (liveOctets u.curWave).map (octetOp u.curWave ((u.issuedBy i).matBase i kind tile xf ff) a b bs as)

theorem octetInstr_issues {s : State} {a : Nat} {b bs as : Option Nat} (h : IssuesAfter s State.matRoom i u) :
    s.octetInstr i kind tile a xf ff b bs as = .next ((u.issuedBy i).matStart (octetOps u i kind tile xf ff a b bs as)) := by
  rw [State.octetInstr, issueWith_next h, octets_eq, State.issuedBy_curWave]
  rfl

end Base

/-- What an octet's operation holds, in its instruction's own terms. -/
def IsOctetOf (u : State) (kind : MatKind) (tile a xf ff : Nat) (b bs as : Option Nat) (m : MatOp) : Prop :=
  m.kind = kind ∧ m.tile = tile ∧ m.xf = xf ∧ m.ff = ff ∧ m.nextc = 0 ∧ m.wave = u.cur ∧ m.wg = u.curWave.wg ∧
    m.parked = false ∧ m.mxa = fld u.curWave.gmode 21 8 ∧ m.mxb = fld u.curWave.gmode 29 8 ∧
    m.rowList = octetRows u.curWave m.oct ∧
    (∀ j ∈ octetRows u.curWave m.oct, m.aoff.getD j 0 = (u.curWave.v a (8 * m.oct + j)).toNat) ∧
    (∀ r, as = some r → ∀ j ∈ octetRows u.curWave m.oct, m.asoff.getD j 0 = (u.curWave.v r (8 * m.oct + j)).toNat) ∧
    (∀ r j, b = some r → (octetRows u.curWave m.oct).head? = some j → m.boff = (u.curWave.v r (8 * m.oct + j)).toNat) ∧
    (∀ r j, bs = some r → (octetRows u.curWave m.oct).head? = some j → m.bsoff = (u.curWave.v r (8 * m.oct + j)).toNat)

theorem isOctetOf_octetOp (u : State) (i : Instr) (kind : MatKind) (tile a xf ff : Nat) (b bs as : Option Nat) (o : Nat) :
    IsOctetOf u kind tile a xf ff b bs as (octetOp u.curWave ((u.issuedBy i).matBase i kind tile xf ff) a b bs as o) := by
  obtain ⟨hwave, hwg, hmxa, hmxb⟩ := matBase_issuedBy u i kind tile xf ff
  refine ⟨rfl, rfl, rfl, rfl, rfl, hwave, hwg, rfl, hmxa, hmxb, rowList_octetOp .., fun j hj => getD_octetOffsets a hj,
    fun r hr j hj => ?_, fun r j hr hj => ?_, fun r j hr hj => ?_⟩
  · subst hr
    exact getD_octetOffsets r hj
  · subst hr
    exact congrArg (fun l => (u.curWave.v r l).toNat) (octetLead_eq hj)
  · subst hr
    exact congrArg (fun l => (u.curWave.v r l).toNat) (octetLead_eq hj)

/-- The numbers given change nothing of that. -/
theorem isOctetOf_of_mem {u : State} {i : Instr} {kind : MatKind} {tile a xf ff : Nat} {b bs as : Option Nat} {m : MatOp}
    (h : m ∈ numbered (octetOps u i kind tile xf ff a b bs as)) : IsOctetOf u kind tile a xf ff b bs as m := by
  obtain ⟨x, hx, n, rfl⟩ := mem_numbered h
  obtain ⟨o, -, rfl⟩ := List.mem_map.1 hx
  exact isOctetOf_octetOp u i kind tile a xf ff b bs as o

theorem oct_octetOps (u : State) (i : Instr) (kind : MatKind) (tile a xf ff : Nat) (b bs as : Option Nat) :
    (numbered (octetOps u i kind tile xf ff a b bs as)).map (·.oct) = liveOctets u.curWave := by
  rw [map_numbered fun _ _ => rfl, octetOps, List.map_map]
  exact List.map_id _

/-- The octet instructions with what each gives the engine: its operation, tile, X and F fields, and the registers of its B
base, its B-scale base, and its A scales or destination. -/
def octetForms (d a : Reg) (z sel : Bool) (c : Fin 16) (la : Ahead) :
    List (Instr × MatKind × Nat × Nat × Nat × Option Nat × Option Nat × Option Nat) :=
  let zc := (if z then 16 else 0) + c.val
  [(.mma d a z c la, .mma, d.val, zc, 0, some (a.val + 1), none, none),
   (.mmas d a z c la, .mmas, d.val, zc, 0, some (a.val + 1), none, none),
   (.mmab d a z c la, .mmab, d.val, zc, 0, some (a.val + 1), some (a.val + 3), some (a.val + 2)),
   (.comp a c la, .comp, 0, c.val, 0, none, none, some (a.val + 1)),
   (.plnw a sel c la, .plnw, 0, c.val, if sel then 1 else 0, none, none, some (a.val + 1)),
   (.plnr a sel c la, .plnr, 0, c.val, if sel then 1 else 0, none, none, some (a.val + 1))]

theorem exec_octetForm (s : State) {d a : Reg} {z sel : Bool} {c : Fin 16} {la : Ahead} {i : Instr} {kind : MatKind}
    {tile xf ff : Nat} {b bs as : Option Nat} (h : (i, kind, tile, xf, ff, b, bs, as) ∈ octetForms d a z sel c la) :
    exec i s = s.octetInstr i kind tile a xf ff b bs as := by
  simp only [octetForms, List.mem_cons, List.not_mem_nil, or_false, Prod.mk.injEq] at h
  rcases h with h | h | h | h | h | h <;>
  · obtain ⟨rfl, rfl, rfl, rfl, rfl, rfl, rfl, rfl⟩ := h
    rfl

/-! ## Tiles (R274, R275) -/

theorem exec_tile {s u : State} {i : Instr} {f : State → List MatOp} (h : IssuesAfter s State.matRoom i u) :
    s.tileInstr i f = .next ((u.issuedBy i).matStart (f (u.issuedBy i))) := issueWith_next h

section Tile
variable (s : State) (d a : Reg) (n : Fin 32) (la : Ahead)

/-- The operation of ACCRD on some lanes, to logical register `dst`. -/
def accrdOp (m : MatOp) (dst : Nat) (lanes : List Nat) : MatOp := { m with dst := dst, vals := lanes.map (fun l => (l, 0)) }

/-- The operation of ACCWR, with the values of a wave's active lanes and their poison. -/
def accwrOp (m : MatOp) (w : Wave) (a : Nat) : MatOp :=
  { m with
    vals := w.lanes.map (fun l => (l, w.v a l)),
    marks := (w.lanes.map (fun l => (l, w.vmark a l))).filter (fun e => decide (e.2.origin ≠ 0)) }

theorem exec_accz : exec (.accz d n la) s = s.tileInstr (.accz d n la) (fun t => [t.matBase (.accz d n la) .accz d n.val 0]) :=
  rfl

theorem exec_accld : exec (.accld d a la) s =
    s.tileInstr (.accld d a la) (fun t => t.accOff (t.matBase (.accld d a la) .accld d 0 0) a) := rfl

theorem exec_accst : exec (.accst d a la) s =
    s.tileInstr (.accst d a la) (fun t => t.accOff (t.matBase (.accst d a la) .accst d 0 0) a) := rfl

theorem exec_accrd : exec (.accrd d a n la) s = s.tileInstr (.accrd d a n la) (fun t => if t.curWave.lanes = [] then [] else
    [accrdOp (t.matBase (.accrd d a n la) .accrd a n.val 0) (t.curWave.wb + d.val) t.curWave.lanes]) := rfl

theorem exec_accwr : exec (.accwr d a n la) s = s.tileInstr (.accwr d a n la) (fun t => if t.curWave.lanes = [] then [] else
    [accwrOp (t.matBase (.accwr d a n la) .accwr d n.val 0) t.curWave a]) := rfl

theorem accOff_of_lanes {t : State} (hl : t.curWave.lanes ≠ []) (m : MatOp) (a : Nat) :
    t.accOff m a = [{ m with aoff := [(t.curWave.v a t.curWave.uniform).toNat] }] := if_neg hl

end Tile

/-! ## What the engine is handed -/

section Handed
variable {u : State}

/-- The wave that has issued stands in its place. -/
theorem find_waves_issuedBy_cur (u : State) (i : Instr) :
    Sparse.find (u.issuedBy i).waves (u.issuedBy i).cur = some (u.issuedBy i).curWave := by
  rw [State.issuedBy_cur, State.issuedBy_curWave]
  exact find_waves_issuedBy u i

variable {ms : List MatOp} (hwave : ∀ m ∈ ms, m.wave = u.cur)
include hwave

theorem issuedBy_matStart_regs (i : Instr) : ((u.issuedBy i).matStart ms).curWave.regs = u.curWave.regs := by
  rw [matStart_regs (find_waves_issuedBy_cur u i) (by rwa [State.issuedBy_cur]), State.issuedBy_curWave]
  rfl

theorem issuedBy_matStart_xq (i : Instr) (hne : ms ≠ []) :
    ((u.issuedBy i).matStart ms).curWave.xq.length = u.curWave.xq.length + 1 := by
  rw [matStart_xq (find_waves_issuedBy_cur u i) (by rwa [State.issuedBy_cur]) hne, State.issuedBy_curWave]
  rfl

theorem issuedBy_matStart_ops (i : Instr) (hwg : ∀ m ∈ numbered ms, m.wg = u.curWave.wg)
    (hgood : ∀ m ∈ numbered ms, m.badRange (((u.wg u.curWave.wg).map (·.l)).getD 0) = none) :
    (((u.issuedBy i).matStart ms).engine (coreOfWave u.cur)).ops = (u.engine (coreOfWave u.cur)).ops ++ numbered ms := by
  have hops := matStart_ops (s := u.issuedBy i) (ms := ms) (by rwa [State.issuedBy_cur])
    fun m hm => by rw [issuedBy_wg, hwg m hm, hgood m hm]
  rwa [State.issuedBy_cur, engine_issuedBy] at hops

end Handed

/-- A tile instruction with one operation, an `ok` one, hands the engine that. -/
theorem tileInstr_hands {s u : State} {i : Instr} {f : State → List MatOp} {m : MatOp} {ok : MatOp → Prop}
    (he : exec i s = s.tileInstr i f) (h : IssuesAfter s State.matRoom i u) (hf : f (u.issuedBy i) = [m]) (hok : ok m)
    (hwave : m.wave = u.cur) (hwg : m.wg = u.curWave.wg) (hm : m.oct = 15 ∧ m.nextc = 0 ∧ m.parked = false) :
    ∃ (t : State) (m : MatOp), exec i s = .next t ∧ t.mem = (u.issuedBy i).mem ∧ t.curWave.regs = u.curWave.regs ∧ ok m ∧
      m.wave = u.cur ∧ m.oct = 15 ∧ m.nextc = 0 ∧ m.parked = false ∧ t.curWave.xq.length = u.curWave.xq.length + 1 ∧
      (m.badRange (((u.wg u.curWave.wg).map (·.l)).getD 0) = none →
        (t.engine (coreOfWave u.cur)).ops = (u.engine (coreOfWave u.cur)).ops ++ [m]) := by
  obtain ⟨hoct, hnextc, hparked⟩ := hm
  have hall : ∀ {p : MatOp → Prop}, p m → ∀ x ∈ [m], p x := fun hp x hx => List.mem_singleton.1 hx ▸ hp
  refine ⟨(u.issuedBy i).matStart [m], m, ?_, State.matStart_mem .., issuedBy_matStart_regs (hall hwave) i, hok, hwave, hoct,
    hnextc, hparked, issuedBy_matStart_xq (hall hwave) i (List.cons_ne_nil m []), fun hgood => ?_⟩
  · rw [he, exec_tile h, hf]
  · exact issuedBy_matStart_ops (hall hwave) i (hall hwg) (hall hgood)

/-- Settles O39: the operations are those of `octetOps`, numbered, or the one of a tile instruction, and `matStart` hands
them over. -/
theorem matrixOperations : Obligations.MatrixOperations := by
  unfold Obligations.MatrixOperations
  constructor
  · intro s u d a z sel c la i kind tile xf ff b bs as zc hform h w core rows
    have hwave : ∀ m ∈ octetOps u i kind tile xf ff a b bs as, m.wave = u.cur := fun m hm => by
      obtain ⟨o, -, rfl⟩ := List.mem_map.1 hm
      exact State.issuedBy_cur ..
    have hof : ∀ m ∈ numbered (octetOps u i kind tile xf ff a b bs as), IsOctetOf u kind tile a xf ff b bs as m :=
      fun m hm => isOctetOf_of_mem hm
    refine ⟨_, numbered (octetOps u i kind tile xf ff a b bs as), (exec_octetForm s hform).trans
      (octetInstr_issues u i kind tile xf ff h), State.matStart_mem .., issuedBy_matStart_regs hwave i, oct_octetOps .., hof,
      fun hne => issuedBy_matStart_xq hwave i (mt numbered_eq_nil.2 hne), fun hnil => ?_, issuedBy_matStart_ops hwave i ?_⟩
    · rw [numbered_eq_nil.1 hnil, matStart_nil]
    · intro m hm
      obtain ⟨-, -, -, -, -, -, hwg, -⟩ := hof m hm
      exact hwg
  · intro s u d a n la i ok w core hform h
    have hbase := fun kind tile xf => matBase_issuedBy u i kind tile xf 0
    have hlanes : w.lanes ≠ [] → (u.issuedBy i).curWave.lanes ≠ [] := fun hl => by rwa [issuedBy_lanes]
    obtain ⟨rfl, rfl⟩ | ⟨hl, ⟨rfl, rfl⟩ | ⟨rfl, rfl⟩ | ⟨rfl, rfl⟩ | ⟨rfl, rfl⟩⟩ := hform
    · obtain ⟨hwave, hwg, -⟩ := hbase .accz d n.val
      exact tileInstr_hands (exec_accz s d n la) h rfl ⟨rfl, rfl, rfl⟩ hwave hwg ⟨rfl, rfl, rfl⟩
    · obtain ⟨hwave, hwg, -⟩ := hbase .accld d 0
      exact tileInstr_hands (exec_accld s d a la) h (accOff_of_lanes (hlanes hl) _ _)
        ⟨rfl, rfl, by rw [State.issuedBy_curWave]; rfl⟩ hwave hwg ⟨rfl, rfl, rfl⟩
    · obtain ⟨hwave, hwg, -⟩ := hbase .accst d 0
      exact tileInstr_hands (exec_accst s d a la) h (accOff_of_lanes (hlanes hl) _ _)
        ⟨rfl, rfl, by rw [State.issuedBy_curWave]; rfl⟩ hwave hwg ⟨rfl, rfl, rfl⟩
    · obtain ⟨hwave, hwg, -⟩ := hbase .accrd a n.val
      refine tileInstr_hands (exec_accrd s d a n la) h (if_neg (hlanes hl)) ⟨rfl, rfl, rfl, ?_, ?_⟩ hwave hwg ⟨rfl, rfl, rfl⟩
      · rw [State.issuedBy_curWave]
        rfl
      · rw [← issuedBy_lanes u]
        exact (List.map_map ..).trans (List.map_id _)
    · obtain ⟨hwave, hwg, -⟩ := hbase .accwr d n.val
      refine tileInstr_hands (exec_accwr s d a n la) h (if_neg (hlanes hl)) ⟨rfl, rfl, rfl, ?_⟩ hwave hwg ⟨rfl, rfl, rfl⟩
      rw [State.issuedBy_curWave]
      rfl

end Sys2Proof.Proofs

/-! PROOFS. A pass of one operation alone (11/R264, R277, R280): without poison it works, and what follows the work in the
same step (its end, the writes held, the operations that wait) touches no byte of memory. -/

namespace Sys2Proof.Proofs

open Sys2Proof.Machine

open Sys2Proof.Safety

/-! ## Engines by core -/

theorem engine_setEngine_other (s : State) {c d : Nat} (e : Engine) (h : d ≠ c) : (s.setEngine c e).engine d = s.engine d :=
  Sparse.get_put_other _ _ _ h

/-- The writes that the engine of a core holds (R278). -/
def heldOf (core : Nat) (s : State) : List WindowAccess := (s.engine core).held

theorem heldOf_setEngine (s : State) (core c : Nat) {e : Engine} (h : e.held = (s.engine c).held) :
    heldOf core (s.setEngine c e) = heldOf core s := by
  unfold heldOf
  by_cases hc : core = c
  · rw [hc, State.engine_setEngine_same, h]
  · rw [engine_setEngine_other s e hc]

theorem heldOf_of_engines {s t : State} (core : Nat) (h : t.engines = s.engines) : heldOf core t = heldOf core s := by
  rw [heldOf, State.engine, h]
  rfl

theorem engines_foldl {α : Type} {f : State → α → State} (hf : ∀ s x, (f s x).engines = s.engines) (l : List α) (s : State) :
    (l.foldl f s).engines = s.engines := by
  induction l generalizing s with
  | nil => rfl
  | cons x r ih => exact (ih (f s x)).trans (hf s x)

/-! ## Poison -/

theorem mark_of_unpoisoned {s : State} (h : s.poison = []) (a : Nat) : s.mark a = Mark.none := by
  rw [State.mark, h]
  rfl

theorem mem_of_sparseFind {α : Type} {m : Sparse α} {k : Nat} {v : α} (h : Sparse.find m k = some v) : (k, v) ∈ m := by
  induction m with
  | nil => cases h
  | cons e r ih =>
    obtain ⟨k', v'⟩ := e
    by_cases hk : k' = k
    · simp only [Sparse.find, hk, if_true, Option.some.injEq] at h
      exact hk ▸ h ▸ List.mem_cons_self ..
    · simp only [Sparse.find, hk, if_false] at h
      exact List.mem_cons_of_mem _ (ih h)

theorem foldl_firstMark_of_none {l : List Mark} (h : ∀ x ∈ l, x = Mark.none) :
    l.foldl (fun acc x => if acc.origin = 0 then x else acc) Mark.none = Mark.none := by
  induction l with
  | nil => rfl
  | cons x r ih =>
    obtain rfl := h x (List.mem_cons_self ..)
    exact ih fun y hy => h y (List.mem_cons_of_mem _ hy)

section Clean
variable {s : State} {m : MatOp} (hpoison : s.poison = []) (hseen : ∀ e ∈ m.seen, e.2.2 = Mark.none)
include hpoison hseen

/-- Scratchpad carries no poison for an operation where neither memory nor what it has seen does. -/
theorem matMark_of_clean (off n : Nat) : s.matMark m off n = Mark.none := by
  unfold State.matMark
  split
  · rfl
  · split
    · rfl
    · refine foldl_firstMark_of_none fun x hx => ?_
      obtain ⟨i, -, rfl⟩ := List.mem_map.1 hx
      cases hf : Sparse.find m.seen _ with
      | none => exact mark_of_unpoisoned hpoison _
      | some v => exact hseen _ (mem_of_sparseFind hf)

theorem chunkPoison_of_clean (core c : Nat) : s.chunkPoison core m c = none := by
  have hrecords : ∀ l : List (Nat × Nat × Nat), l.findSome? (fun r => if (s.matMark m r.2.1 r.2.2).origin ≠ 0 then
      some (r.1, r.1, s.matMark m r.2.1 r.2.2) else none) = none := fun l =>
    List.findSome?_eq_none_iff.2 fun r _ => if_neg (by rw [matMark_of_clean hpoison hseen]; decide)
  have hcell : ∀ a b : Nat, (if (s.mark a).origin ≠ 0 then some (b, 0, s.mark a) else none) = none := fun a b =>
    if_neg (by rw [mark_of_unpoisoned hpoison]; decide)
  have hnone : ∀ l : List Nat, l.findSome? (fun _ => (none : Option (Nat × Nat × Mark))) = none := fun l =>
    List.findSome?_eq_none_iff.2 fun _ _ => rfl
  unfold State.chunkPoison
  simp only [hrecords, hcell, hnone, ite_self, Option.orElse_none]
  split
  · rfl
  · cases m.kind <;> rfl

end Clean

/-! ## After the work -/

theorem bump_engineSideOnly (s : State) : EngineSideOnly s s.bump := ⟨s.engines, s.agenda, _, rfl⟩

theorem setEngine_engineSideOnly (s : State) (c : Nat) (e : Engine) : EngineSideOnly s (s.setEngine c e) :=
  ⟨_, s.agenda, s.nextId, rfl⟩

theorem acceptWaiting_engineSideOnly (s : State) (core : Nat) : EngineSideOnly s (s.acceptWaiting core) := by
  refine EngineSideOnly.foldl (fun t x => ?_) _ s
  dsimp only
  split
  · exact .refl t
  · exact ((setEngine_engineSideOnly ..).trans (bump_engineSideOnly _)).trans (acceptMats_engineSideOnly ..)

theorem releaseHeld_of_none {s : State} {core : Nat} (h : heldOf core s = []) : EngineSideOnly s (s.releaseHeld core) := by
  have hheld : (s.engine core).held = [] := h
  unfold State.releaseHeld
  rw [hheld]
  exact setEngine_engineSideOnly ..

/-- What a pass does once its operations have worked. -/
def finishPass (core : Nat) (s : State) : State :=
  if ((s.releaseHeld core).engine core).group = [] then (s.releaseHeld core).acceptWaiting core
  else ((s.releaseHeld core).acceptWaiting core).post (.matrixPass core)

theorem finishPass_engineSideOnly {s : State} {core : Nat} (h : heldOf core s = []) :
    EngineSideOnly s (finishPass core s) := by
  have hrest := (releaseHeld_of_none h).trans (acceptWaiting_engineSideOnly (s.releaseHeld core) core)
  unfold finishPass
  split
  · exact hrest
  · exact hrest.trans (post_engineSideOnly ..)

/-! ## The end of an operation (R283) -/

theorem settle_engines (s : State) (id : Nat) : (s.settle id).engines = s.engines := by
  unfold State.settle
  dsimp only
  split <;> rfl

theorem heldOf_endMat (s : State) (core : Nat) (m : MatOp) : heldOf core (s.endMat core m) = heldOf core s := by
  unfold State.endMat
  dsimp only
  split
  · exact heldOf_setEngine s core core rfl
  · exact (heldOf_of_engines core (settle_engines ..)).trans (heldOf_setEngine s core core rfl)

theorem heldOf_modMat (s : State) (core id : Nat) (f : MatOp → MatOp) : heldOf core (s.modMat core id f) = heldOf core s :=
  heldOf_setEngine s core core rfl

/-- A wave that goes on keeps its registers when its operation ends. -/
theorem lreg_endMat {s : State} {core : Nat} {m : MatOp} {w : Wave} (hw : Sparse.find s.waves m.wave = some w)
    (hs : w.status = .ready) : ((s.endMat core m).wave m.wave).lreg = w.lreg := by
  have hretired : ∀ e, (((s.setEngine core e).modLive m.wave (fun w => w.retireOp m.opId)).wave m.wave) = w.retireOp m.opId :=
    fun _ => wave_of_find (find_update_same hw _)
  unfold State.endMat
  dsimp only
  split
  · exact congrArg Wave.lreg (wave_of_find hw)
  · rw [settle_of_ready (by rw [hretired]; exact hs)]
    exact (congrArg Wave.lreg (hretired _)).trans rfl

/-! ## The work -/

theorem heldOf_keepSeen (s : State) (core c : Nat) (f : MatOp → Workgroup → Nat → Bool) (ats : List Nat) :
    heldOf core (s.keepSeen c f ats) = heldOf core s := heldOf_setEngine s core c rfl

/-- Bytes of scratchpad from an offset up, with their addresses in the half that was current at an operation's issue. -/
def padBytes (g : Workgroup) (m : MatOp) (off : Nat) (bs : List Byte) : List (Nat × Byte) :=
  bs.zipIdx.map (fun x => (winBase g.core + m.at g (off + x.2), x.1))

/-- A write to scratchpad writes its bytes: what is kept for others and the poison cleared are no bytes of memory. -/
theorem matWrite_mem {s : State} {m : MatOp} {g : Workgroup} (hg : s.wg m.wg = some g) (off : Nat) (bs : List Byte) :
    (s.matWrite m off bs).mem = (s.writeAt (padBytes g m off bs)).mem := by
  unfold State.matWrite
  rw [hg]
  dsimp only
  split
  · exact writeAt_mem_of_mem (State.keepSeen_mem ..) _
  · exact (foldl_mem _ (fun _ _ => State.cleanse_mem ..) _ _).trans (writeAt_mem_of_mem (State.keepSeen_mem ..) _)

theorem engines_writeAt (s : State) (bs : List (Nat × Byte)) : (s.writeAt bs).engines = s.engines := by
  rw [writeAt_eq]

theorem engines_cleanse (s : State) (a n : Nat) : (s.cleanse a n).engines = s.engines := by
  rw [cleanse_eq]

theorem heldOf_matWrite (core : Nat) (s : State) (m : MatOp) (off : Nat) (bs : List Byte) :
    heldOf core (s.matWrite m off bs) = heldOf core s := by
  unfold State.matWrite
  split
  · rfl
  · next g _ =>
    rw [← heldOf_keepSeen s core g.core (fun x k a => x.inst == m.inst && x.readsAt k a)
      ((List.range bs.length).map (fun i => m.at g (off + i)))]
    refine heldOf_of_engines core ?_
    dsimp only
    split
    · exact engines_writeAt ..
    · exact (engines_foldl (fun _ _ => engines_cleanse ..) _ _).trans (engines_writeAt ..)

theorem heldOf_foldl {α : Type} {core : Nat} {f : State → α → State} (hf : ∀ s x, heldOf core (f s x) = heldOf core s)
    (l : List α) (s : State) : heldOf core (l.foldl f s) = heldOf core s := by
  induction l generalizing s with
  | nil => rfl
  | cons x r ih => exact (ih (f s x)).trans (hf s x)

theorem engines_tilePut (s : State) (c t i j v : Nat) : (s.tilePut c t i j v).engines = s.engines := by
  rw [State.tilePut, State.engines_setMark, State.writeNat, write_eq]

theorem heldOf_foldl_of_engines {α : Type} (core : Nat) {f : State → α → State}
    (hf : ∀ s x, (f s x).engines = s.engines) (l : List α) (s : State) : heldOf core (l.foldl f s) = heldOf core s :=
  heldOf_of_engines core (engines_foldl hf l s)

/-- The work of a pass leaves the writes held where they are. -/
theorem heldOf_passOne (s : State) (core : Nat) (m : MatOp) : heldOf core (s.passOne core m) = heldOf core s := by
  have hmma : heldOf core (s.passMma core m m.nextc) = heldOf core s :=
    heldOf_foldl_of_engines core (fun _ _ => engines_tilePut ..) _ s
  have hwrites : ∀ ws, heldOf core (s.matWrites m ws) = heldOf core s :=
    fun ws => heldOf_foldl (fun _ _ => heldOf_matWrite ..) ws s
  unfold State.passOne
  cases m.kind with
  | mma => exact hmma
  | mmas => exact hmma
  | mmab => exact hmma
  | comp => exact hwrites _
  | plnw => exact hwrites _
  | plnr => exact hwrites _
  | accz => exact heldOf_foldl_of_engines core (fun _ _ => engines_tilePut ..) _ s
  | accld => exact heldOf_foldl_of_engines core (fun _ _ => engines_tilePut ..) _ s
  | accst => exact heldOf_matWrite ..
  | accrd => exact heldOf_of_engines core rfl
  | accwr => exact heldOf_foldl_of_engines core (fun _ _ => (State.engines_setMark ..).trans (engines_tilePut ..)) _ s

/-! ## One operation alone -/

/-- An operation is its engine's next group by itself, nothing is held, and nothing it reads is poisoned. -/
structure Alone (s : State) (core : Nat) (m : MatOp) : Prop where
  runs : (s.engine core).stop = false
  group : (s.engine core).group = [m]
  held : (s.engine core).held = []
  unique : ∀ x ∈ (s.engine core).ops, x.id = m.id → x = m
  poison : s.poison = []
  seen : ∀ e ∈ m.seen, e.2.2 = Mark.none

theorem mem_ops_of_mem_group {e : Engine} {m : MatOp} (h : m ∈ e.group) : m ∈ e.ops := by
  unfold Engine.group at h
  split at h
  · cases h
  · exact List.mem_of_mem_filter h

theorem Alone.find {s : State} {core : Nat} {m : MatOp} (h : Alone s core m) :
    (s.engine core).ops.find? (fun x => x.id == m.id) = some m := by
  have hm : m ∈ (s.engine core).ops := mem_ops_of_mem_group (h.group ▸ List.mem_singleton_self m)
  cases hx : (s.engine core).ops.find? (fun x => x.id == m.id) with
  | none => exact absurd (beq_self_eq_true m.id) (List.find?_eq_none.1 hx m hm)
  | some x =>
    have hid : x.id = m.id := by simpa using List.find?_some hx
    rw [h.unique x (List.mem_of_find?_eq_some hx) hid]

/-- The state once an operation has worked: it ends, or its next chunk is set. -/
def passed (s : State) (core : Nat) (m : MatOp) : State :=
  if m.nextc + 1 ≥ m.total then (s.passOne core m).endMat core m
  else (s.passOne core m).modMat core m.id (fun x => { x with nextc := x.nextc + 1 })

theorem passOp_eq_passed {s : State} {core : Nat} {m : MatOp} (h : Alone s core m) (hc : m.nextc < m.total) :
    s.passOp core m.id none = passed s core m := by
  unfold State.passOp
  rw [h.find]
  exact if_neg (Nat.not_le.2 hc)

theorem passed_mem (s : State) (core : Nat) (m : MatOp) : (passed s core m).mem = (s.passOne core m).mem := by
  unfold passed
  split
  · exact State.endMat_mem ..
  · exact State.modMat_mem ..

theorem heldOf_passed (s : State) (core : Nat) (m : MatOp) : heldOf core (passed s core m) = heldOf core s := by
  unfold passed
  split
  · exact (heldOf_endMat ..).trans (heldOf_passOne ..)
  · exact (heldOf_modMat ..).trans (heldOf_passOne ..)

theorem exec_matrixPass (core : Nat) (s : State) : exec (.matrixPass core) s = execMatrixPass core s := rfl

/-- A pass of one operation alone is its work, and what follows it at the engine. -/
theorem exec_matrixPass_alone {s : State} {core : Nat} {m : MatOp} (h : Alone s core m) (hc : m.nextc < m.total) :
    exec (.matrixPass core) s = .next (finishPass core (passed s core m)) := by
  have hgroup : (if (s.engine core).stop then [] else (s.engine core).group) = [m] := by
    rw [h.runs, h.group]
    rfl
  rw [← passOp_eq_passed h hc, ← chunkPoison_of_clean h.poison h.seen core m.nextc, exec_matrixPass, execMatrixPass]
  simp only [hgroup]
  rfl

/-- Past the work only the engines, what is to come and the numbers given change, but for the counter of the wave. -/
theorem matrixPass_alone {s : State} {core : Nat} {m : MatOp} (h : Alone s core m) (hc : m.nextc < m.total) :
    ∃ t, exec (.matrixPass core) s = .next t ∧ EngineSideOnly (passed s core m) t :=
  ⟨_, exec_matrixPass_alone h hc, finishPass_engineSideOnly ((heldOf_passed s core m).trans h.held)⟩

end Sys2Proof.Proofs

/-! PROOFS. What the work of a pass stores (11/R269, R274, R275): the cells of its tile or the bytes of its scratchpad range,
each with its value, and no other byte. -/

namespace Sys2Proof.Proofs

open Sys2Proof.Machine

open Sys2Proof.Safety

/-! ## Words stored one after another -/

section Words
variable {α : Type} {f : State → α → State} {at_ v : α → Nat}

/-- Each step stores one word. -/
def StoresWords (f : State → α → State) (at_ v : α → Nat) : Prop := ∀ t x, (f t x).mem = (t.writeNat (at_ x) 4 (v x)).mem

theorem byte_writeNat_outside (s : State) {a p v : Nat} (h : a < p ∨ p + 4 ≤ a) : (s.writeNat p 4 v).byte a = s.byte a :=
  State.byte_write_outside s p _ a (by rwa [length_toBytes])

theorem readNat_writeNat_apart (s : State) {p q v : Nat} (h : p + 4 ≤ q ∨ q + 4 ≤ p) :
    (s.writeNat q 4 v).readNat p 4 = s.readNat p 4 := by
  refine congrArg ofBytes (List.map_congr_left fun i hi => byte_writeNat_outside s ?_)
  have := List.mem_range.1 hi
  omega

theorem byte_foldl_outside (hf : StoresWords f at_ v) {xs : List α} {a : Nat}
    (h : ∀ x ∈ xs, a < at_ x ∨ at_ x + 4 ≤ a) (s : State) : (xs.foldl f s).byte a = s.byte a := by
  induction xs generalizing s with
  | nil => rfl
  | cons x r ih =>
    calc (r.foldl f (f s x)).byte a = (f s x).byte a := ih (fun y hy => h y (List.mem_cons_of_mem _ hy)) _
      _ = (s.writeNat (at_ x) 4 (v x)).byte a := byte_of_mem (hf s x) a
      _ = s.byte a := byte_writeNat_outside s (h x (List.mem_cons_self ..))

/-- Where every word stored is the one asked for or lies apart from it, the word stands there. -/
theorem readNat_foldl (hf : StoresWords f at_ v) {xs : List α} {p val : Nat}
    (h : ∀ x ∈ xs, at_ x = p ∧ v x = val ∨ p + 4 ≤ at_ x ∨ at_ x + 4 ≤ p) {s : State}
    (hin : (∃ x ∈ xs, at_ x = p) ∨ s.readNat p 4 = val % 2 ^ 32) : (xs.foldl f s).readNat p 4 = val % 2 ^ 32 := by
  induction xs generalizing s with
  | nil =>
    obtain ⟨x, hx, -⟩ | hval := hin
    · cases hx
    · exact hval
  | cons x r ih =>
    refine ih (fun y hy => h y (List.mem_cons_of_mem _ hy)) ?_
    rw [readNat_of_mem (hf s x)]
    obtain ⟨rfl, rfl⟩ | hapart := h x (List.mem_cons_self ..)
    · exact .inr (readNat_write_toBytes s (at_ x) 4 (v x))
    · rw [readNat_writeNat_apart s hapart]
      refine hin.imp_left fun ⟨y, hy, hyp⟩ => ?_
      rcases List.mem_cons.1 hy with rfl | hy
      · omega
      · exact ⟨y, hy, hyp⟩

end Words

/-! ## Cells of tiles (R103) -/

/-- Whether an address is of a cell's bytes. -/
def InCell (core a t i j : Nat) : Prop := tileAddr core t i j ≤ a ∧ a < tileAddr core t i j + 4

/-- A cell of a tile that a step stores, with its value. -/
structure CellPut where
  t : Nat
  i : Nat
  j : Nat
  v : Nat

section Cells
variable {α : Type} {f : State → α → State} {core : Nat} {put : α → CellPut}

/-- The first byte of the cell. -/
def CellPut.at (core : Nat) (c : CellPut) : Nat := tileAddr core c.t c.i c.j

/-- Each step stores one cell. -/
def PutsCells (f : State → α → State) (core : Nat) (put : α → CellPut) : Prop :=
  StoresWords f (fun x => (put x).at core) (fun x => (put x).v)

theorem tileAddr_apart (core t i j t' i' j' : Nat) : tileAddr core t i j = tileAddr core t' i' j' ∨
    tileAddr core t' i' j' + 4 ≤ tileAddr core t i j ∨ tileAddr core t i j + 4 ≤ tileAddr core t' i' j' := by
  unfold tileAddr
  omega

theorem byte_putCells_outside (hf : PutsCells f core put) {xs : List α} {a : Nat}
    (h : ∀ x ∈ xs, ¬ InCell core a (put x).t (put x).i (put x).j) (s : State) : (xs.foldl f s).byte a = s.byte a := by
  refine byte_foldl_outside hf (fun x hx => ?_) s
  have hout := h x hx
  unfold InCell at hout
  unfold CellPut.at
  omega

/-- A cell stored holds its value, where no other value is stored in it. -/
theorem tileGet_putCells (hf : PutsCells f core put) {xs : List α} {x : α} (hx : x ∈ xs)
    (h : ∀ y ∈ xs, (put y).at core = (put x).at core → (put y).v = (put x).v) (s : State) :
    (xs.foldl f s).tileGet core (put x).t (put x).i (put x).j = (put x).v % 2 ^ 32 := by
  refine readNat_foldl (p := (put x).at core) hf (fun y hy => ?_) (.inl ⟨x, hx, rfl⟩)
  rcases tileAddr_apart core (put y).t (put y).i (put y).j (put x).t (put x).i (put x).j with heq | happart
  · exact .inl ⟨heq, h y hy heq⟩
  · exact .inr happart

end Cells

theorem tilePut_mem (s : State) (c t i j v : Nat) : (s.tilePut c t i j v).mem = (s.writeNat (tileAddr c t i j) 4 v).mem := rfl

/-! ## Products (R269) -/

/-- What a pass over chunk c stores in column x.2 of row x.1. -/
def productCell (s : State) (core : Nat) (m : MatOp) (c : Nat) (x : Nat × Nat) : CellPut :=
  { t := m.tileOf, i := m.rowOf x.1, j := x.2,
    v := (fAdd f32 addEnv (if m.xf ≥ 16 ∧ c = 0 then 0 else s.tileGet core m.tileOf (m.rowOf x.1) x.2) (s.chunkSum m c x.1 x.2)).1 }

/-- The cells of a product's rows. -/
def productCells (m : MatOp) : List (Nat × Nat) := m.rowList.flatMap (fun j => (List.range 32).map (fun col => (j, col)))

theorem mem_productCells {m : MatOp} {x : Nat × Nat} : x ∈ productCells m ↔ x.1 ∈ m.rowList ∧ x.2 < 32 := by
  obtain ⟨j, col⟩ := x
  simp [productCells]

def putProduct (s : State) (core : Nat) (m : MatOp) (c : Nat) (t : State) (x : Nat × Nat) : State :=
  t.tilePut core m.tileOf (m.rowOf x.1) x.2 (productCell s core m c x).v

theorem putProduct_putsCells (s : State) (core : Nat) (m : MatOp) (c : Nat) :
    PutsCells (putProduct s core m c) core (productCell s core m c) := fun _ _ => rfl

theorem passMma_eq (s : State) (core : Nat) (m : MatOp) (c : Nat) :
    s.passMma core m c = (productCells m).foldl (putProduct s core m c) s := rfl

theorem passOne_product {m : MatOp} (h : m.kind = .mma ∨ m.kind = .mmas ∨ m.kind = .mmab) (s : State) (core : Nat) :
    s.passOne core m = (productCells m).foldl (putProduct s core m m.nextc) s := by
  unfold State.passOne
  rcases h with h | h | h <;> simp only [h] <;> rfl

/-- A product's pass gives each cell of its rows the sum, and changes no other byte. -/
theorem product_effect {m : MatOp} (h : m.kind = .mma ∨ m.kind = .mmas ∨ m.kind = .mmab) (s : State) (core : Nat) :
    (∀ j col, j ∈ m.rowList → col < 32 → (s.passOne core m).tileGet core m.tileOf (m.rowOf j) col =
      (productCell s core m m.nextc (j, col)).v % 2 ^ 32) ∧
    ∀ a, (∀ j col, j ∈ m.rowList → col < 32 → ¬ InCell core a m.tileOf (m.rowOf j) col) →
      (s.passOne core m).byte a = s.byte a := by
  have hputs := putProduct_putsCells s core m m.nextc
  rw [passOne_product h]
  refine ⟨fun j col hj hcol => ?_, fun a ha => ?_⟩
  · refine tileGet_putCells hputs ((mem_productCells (x := (j, col))).2 ⟨hj, hcol⟩) (fun y hy heq => ?_) s
    obtain ⟨j', col'⟩ := y
    obtain ⟨-, hcol'⟩ := mem_productCells.1 hy
    have hsame : (j', col') = (j, col) := by
      simp only [CellPut.at, productCell, tileAddr, MatOp.rowOf] at heq
      dsimp only at hcol'
      refine Prod.ext ?_ ?_ <;> dsimp only <;> omega
    rw [hsame]
  · refine byte_putCells_outside hputs (fun x hx => ?_) s
    obtain ⟨hj, hcol⟩ := mem_productCells.1 hx
    exact ha x.1 x.2 hj hcol

/-! ## ACCZ and ACCLD (R274) -/

/-- Cell k of tile t, counted by rows, with its value. -/
def tileCell (t k v : Nat) : CellPut := { t := t, i := k / 32, j := k % 32, v := v }

theorem tileCell_row {i j : Nat} (hj : j < 32) (t v : Nat) : tileCell t (32 * i + j) v = { t := t, i := i, j := j, v := v } := by
  have hi : (32 * i + j) / 32 = i := by omega
  have hcol : (32 * i + j) % 32 = j := by omega
  rw [tileCell, hi, hcol]

def clearCell (core : Nat) (s : State) (x : Nat × Nat) : State := s.tilePut core x.1 (x.2 / 32) (x.2 % 32) 0

theorem passOne_accz {m : MatOp} (h : m.kind = .accz) (s : State) (core : Nat) : s.passOne core m =
    (((List.range (m.xf + 1)).map (m.tile + ·)).flatMap (fun t => (List.range 1024).map (fun k => (t, k)))).foldl
      (clearCell core) s := by
  simp only [State.passOne, MatOp.tiles, h]
  rfl

theorem accz_effect {m : MatOp} (h : m.kind = .accz) (s : State) (core : Nat) :
    (∀ k i j, k ≤ m.xf → i < 32 → j < 32 → (s.passOne core m).tileGet core (m.tile + k) i j = 0) ∧
    ∀ a, (∀ k i j, k ≤ m.xf → i < 32 → j < 32 → ¬ InCell core a (m.tile + k) i j) → (s.passOne core m).byte a = s.byte a := by
  have hputs : PutsCells (clearCell core) core (fun x => tileCell x.1 x.2 0) := fun t x =>
    tilePut_mem t core x.1 (x.2 / 32) (x.2 % 32) 0
  have hmem : ∀ x : Nat × Nat, x ∈ ((List.range (m.xf + 1)).map (m.tile + ·)).flatMap (fun t => (List.range 1024).map
      (fun k => (t, k))) ↔ (∃ k, k ≤ m.xf ∧ m.tile + k = x.1) ∧ x.2 < 1024 := fun x => by
    obtain ⟨t, k⟩ := x
    simp [Nat.lt_succ_iff]
  rw [passOne_accz h]
  refine ⟨fun k i j hk hi hj => ?_, fun a ha => ?_⟩
  · have hin := (hmem (m.tile + k, 32 * i + j)).2 ⟨⟨k, hk, rfl⟩, by dsimp only; omega⟩
    have hget := tileGet_putCells hputs hin (fun _ _ _ => rfl) s
    rw [tileCell_row hj] at hget
    exact hget
  · refine byte_putCells_outside hputs (fun x hx => ?_) s
    obtain ⟨⟨k, hk, hkx⟩, hlt⟩ := (hmem x).1 hx
    have := ha k (x.2 / 32) (x.2 % 32) hk (by omega) (by omega)
    rwa [hkx] at this

/-- Word k of what ACCLD reads. -/
def loadedWord (s : State) (m : MatOp) (k : Nat) : Nat := ofBytes (((s.matBytes m (m.aoff.getD 0 0) 4096).drop (4 * k)).take 4)

def loadCell (s : State) (core : Nat) (m : MatOp) (t : State) (k : Nat) : State :=
  t.tilePut core m.tile (k / 32) (k % 32) (loadedWord s m k)

theorem passOne_accld {m : MatOp} (h : m.kind = .accld) (s : State) (core : Nat) :
    s.passOne core m = (List.range 1024).foldl (loadCell s core m) s := by
  simp only [State.passOne, h]
  rfl

theorem ofBytes_lt (bs : List Byte) : ofBytes bs < 256 ^ bs.length := by
  induction bs with
  | nil => exact Nat.one_pos
  | cons b r ih =>
    have := b.isLt
    rw [ofBytes, List.length_cons, Nat.pow_succ]
    omega

theorem take_drop_map_range {α : Type} (f : Nat → α) {a b n : Nat} (h : a + b ≤ n) :
    (((List.range n).map f).drop a).take b = (List.range b).map (fun i => f (a + i)) := by
  refine List.ext_getElem (by simp only [List.length_take, List.length_drop, List.length_map, List.length_range]; omega)
    fun i h1 h2 => ?_
  simp

theorem loadedWord_eq {s : State} {m : MatOp} {g : Workgroup} (hg : s.wg m.wg = some g) {k : Nat} (hk : k < 1024) :
    loadedWord s m k = ofBytes (s.matBytes m (m.aoff.getD 0 0 + 4 * k) 4) := by
  have hbytes : ∀ off n, s.matBytes m off n = (List.range n).map (fun i =>
      ((Sparse.find m.seen (m.at g (off + i))).map (·.1)).getD (s.byte (winBase g.core + m.at g (off + i)))) := fun off n => by
    rw [State.matBytes, hg]
  simp only [loadedWord, hbytes, take_drop_map_range _ (show 4 * k + 4 ≤ 4096 by omega), Nat.add_assoc]

theorem matBytes_lt (s : State) (m : MatOp) (off : Nat) : ofBytes (s.matBytes m off 4) < 2 ^ 32 := by
  have hlen : (s.matBytes m off 4).length = 4 := by
    unfold State.matBytes
    split <;> simp
  have := ofBytes_lt (s.matBytes m off 4)
  rw [hlen] at this
  omega

theorem accld_effect {s : State} {m : MatOp} {g : Workgroup} (h : m.kind = .accld) (hg : s.wg m.wg = some g) (core : Nat) :
    (∀ i j, i < 32 → j < 32 → (s.passOne core m).tileGet core m.tile i j =
      ofBytes (s.matBytes m (m.aoff.getD 0 0 + 4 * (32 * i + j)) 4)) ∧
    ∀ a, (∀ i j, i < 32 → j < 32 → ¬ InCell core a m.tile i j) → (s.passOne core m).byte a = s.byte a := by
  have hputs : PutsCells (loadCell s core m) core (fun k => tileCell m.tile k (loadedWord s m k)) := fun _ _ => rfl
  rw [passOne_accld h]
  refine ⟨fun i j hi hj => ?_, fun a ha => ?_⟩
  · have hlt : 32 * i + j < 1024 := by omega
    have hget := tileGet_putCells hputs (List.mem_range.2 hlt) (fun k _ heq => ?_) s
    · rw [tileCell_row hj] at hget
      rw [hget, loadedWord_eq hg hlt]
      exact Nat.mod_eq_of_lt (matBytes_lt ..)
    · have hk : k = 32 * i + j := by
        simp only [CellPut.at, tileCell, tileAddr] at heq
        omega
      rw [hk]
  · refine byte_putCells_outside hputs (fun k hk => ?_) s
    have := List.mem_range.1 hk
    exact ha (k / 32) (k % 32) (by omega) (by omega)

/-! ## ACCWR (R275) -/

def writeCell (core : Nat) (m : MatOp) (s : State) (x : Nat × Word) : State :=
  (s.tilePut core m.tile (m.xf + x.1 / 32) (x.1 % 32) x.2.toNat).setMark
    (tileAddr core m.tile (m.xf + x.1 / 32) (x.1 % 32)) (Sparse.get Mark.none m.marks x.1)

theorem passOne_accwr {m : MatOp} (h : m.kind = .accwr) (s : State) (core : Nat) :
    s.passOne core m = m.vals.foldl (writeCell core m) s := by
  simp only [State.passOne, h]
  rfl

theorem accwr_effect {m : MatOp} (h : m.kind = .accwr) (hnodup : (m.vals.map (·.1)).Nodup) (s : State) (core : Nat) :
    (∀ l x, (l, x) ∈ m.vals → (s.passOne core m).tileGet core m.tile (m.xf + l / 32) (l % 32) = x.toNat) ∧
    ∀ a, (∀ l x, (l, x) ∈ m.vals → ¬ InCell core a m.tile (m.xf + l / 32) (l % 32)) → (s.passOne core m).byte a = s.byte a := by
  have hputs : PutsCells (writeCell core m) core
      (fun x => { t := m.tile, i := m.xf + x.1 / 32, j := x.1 % 32, v := x.2.toNat }) := fun _ _ => rfl
  rw [passOne_accwr h]
  refine ⟨fun l x hx => ?_, fun a ha => byte_putCells_outside hputs (fun x hx => ha x.1 x.2 hx) s⟩
  refine (tileGet_putCells hputs hx (fun y hy heq => ?_) s).trans (Nat.mod_eq_of_lt x.isLt)
  have hlane : y.1 = l := by
    simp only [CellPut.at, tileAddr] at heq
    omega
  rw [List.inj_on_of_nodup_map hnodup hy hx hlane]

/-! ## ACCST (R274) -/

theorem passOne_accst {m : MatOp} (h : m.kind = .accst) (s : State) (core : Nat) :
    s.passOne core m = s.matWrite m (m.aoff.getD 0 0) (s.read (tileAddr core m.tile 0 0) 4096) := by
  simp only [State.passOne, h]

/-- In either half of the shadowed range, offsets that differ are bytes that differ (R106). -/
theorem matOp_at_inj {m : MatOp} {g : Workgroup} (hbase : m.base = 0 ∨ m.base = g.s) {o p : Nat} (h : m.at g o = m.at g p) :
    o = p := by
  unfold MatOp.at at h
  split at h <;> split at h <;> omega

theorem padBytes_map_range (g : Workgroup) (m : MatOp) (off n : Nat) (f : Nat → Byte) :
    padBytes g m off ((List.range n).map f) = (List.range n).map (fun i => (winBase g.core + m.at g (off + i), f i)) :=
  List.ext_getElem (by simp [padBytes]) fun i h1 h2 => by simp [padBytes]

theorem accst_effect {s : State} {m : MatOp} {g : Workgroup} (h : m.kind = .accst) (hg : s.wg m.wg = some g)
    (hbase : m.base = 0 ∨ m.base = g.s) (core : Nat) :
    (∀ n, n < 4096 → (s.passOne core m).byte (winBase g.core + m.at g (m.aoff.getD 0 0 + n)) =
      s.byte (tileAddr core m.tile 0 0 + n)) ∧
    ∀ a, (∀ n, n < 4096 → a ≠ winBase g.core + m.at g (m.aoff.getD 0 0 + n)) → (s.passOne core m).byte a = s.byte a := by
  have hstored : ∀ e, e ∈ padBytes g m (m.aoff.getD 0 0) (s.read (tileAddr core m.tile 0 0) 4096) ↔ ∃ n, n < 4096 ∧
      (winBase g.core + m.at g (m.aoff.getD 0 0 + n), s.byte (tileAddr core m.tile 0 0 + n)) = e := fun e => by
    rw [State.read, padBytes_map_range, List.mem_map]
    simp only [List.mem_range]
  rw [passOne_accst h]
  simp only [byte_of_mem (matWrite_mem hg _ _)]
  refine ⟨fun n hn => byte_writeAt_of_agree (fun e he heq => ?_) (.inl ⟨_, (hstored _).2 ⟨n, hn, rfl⟩, rfl⟩), fun a ha => ?_⟩
  · obtain ⟨k, -, rfl⟩ := (hstored e).1 he
    have hk := matOp_at_inj hbase (Nat.add_left_cancel heq)
    rw [Nat.add_left_cancel hk]
  · refine State.byte_writeAt_outside s _ a fun e he => ?_
    obtain ⟨n, hn, rfl⟩ := (hstored e).1 he
    exact ha n hn

/-! ## ACCRD (R275) -/

/-- The word that ACCRD reads for a lane. -/
def readWord (s : State) (core : Nat) (m : MatOp) (l : Nat) : Word := wd (s.tileGet core m.tile (m.xf + l / 32) (l % 32))

/-- A lane of the destination with its word and that word's poison. -/
def readLane (s : State) (core : Nat) (m : MatOp) (w : Wave) (l : Nat) : Wave :=
  (w.lwrite m.dst (fun n => if n = l then some (readWord s core m l) else none)).setLmark m.dst l
    (s.mark (tileAddr core m.tile (m.xf + l / 32) (l % 32)))

theorem passOne_accrd {m : MatOp} (h : m.kind = .accrd) (s : State) (core : Nat) : s.passOne core m =
    s.modLive m.wave (fun w => m.vals.foldl (fun acc x => readLane s core m acc x.1) w) := by
  simp only [State.passOne, h]
  rfl

section ReadLane
variable (s : State) (core : Nat) (m : MatOp) (w : Wave)

theorem readLane_eq (l : Nat) : readLane s core m w l =
    { w with regs := (readLane s core m w l).regs, rpoison := (readLane s core m w l).rpoison } := by
  unfold readLane Wave.setLmark
  rw [Wave.lwrite_eq]

theorem lreg_readLane {l n : Nat} (hn : n < w.width) (hd : holds w m.dst = true) :
    (readLane s core m w l).lreg m.dst n = if n = l then readWord s core m l else w.lreg m.dst n := by
  have hlreg := Wave.lreg_lwrite w m.dst (fun n => if n = l then some (readWord s core m l) else none) m.dst n hn
  rw [if_pos ⟨rfl, hd⟩] at hlreg
  refine Eq.trans hlreg ?_
  split <;> rfl

variable {s core m}

/-- The lanes read hold their words; what has its word already keeps it. -/
theorem foldl_readLane (vals : List (Nat × Word)) {w : Wave} {n : Nat} (hn : n < w.width) (hd : holds w m.dst = true)
    (h : (∃ x, (n, x) ∈ vals) ∨ w.lreg m.dst n = readWord s core m n) :
    (vals.foldl (fun acc x => readLane s core m acc x.1) w).lreg m.dst n = readWord s core m n := by
  induction vals generalizing w with
  | nil =>
    obtain ⟨x, hx⟩ | hval := h
    · cases hx
    · exact hval
  | cons e r ih =>
    have heq := readLane_eq s core m w e.1
    have hwidth : (readLane s core m w e.1).width = w.width := by rw [heq]; rfl
    have hholds : holds (readLane s core m w e.1) = holds w := by rw [heq]; rfl
    refine ih (hwidth ▸ hn) (hholds ▸ hd) ?_
    rw [lreg_readLane s core m w hn hd]
    by_cases hne : n = e.1
    · exact .inr (by rw [if_pos hne, hne])
    · rw [if_neg hne]
      refine h.imp_left fun ⟨x, hx⟩ => ⟨x, ?_⟩
      rcases List.mem_cons.1 hx with rfl | hx
      · exact absurd rfl hne
      · exact hx

theorem status_foldl_readLane (vals : List (Nat × Word)) (w : Wave) :
    (vals.foldl (fun acc x => readLane s core m acc x.1) w).status = w.status := by
  induction vals generalizing w with
  | nil => rfl
  | cons e r ih =>
    refine (ih _).trans ?_
    dsimp only
    rw [readLane_eq]

end ReadLane

/-- Once its pass is over, the wave that goes on has each lane's word in the destination. -/
theorem lreg_passed_accrd {s : State} {core : Nat} {m : MatOp} {w : Wave} (h : m.kind = .accrd) (hend : m.nextc + 1 ≥ m.total)
    (hw : Sparse.find s.waves m.wave = some w) (hs : w.status = .ready) (hd : holds w m.dst = true) {l : Nat} {x : Word}
    (hx : (l, x) ∈ m.vals) (hl : l < w.width) : ((passed s core m).wave m.wave).lreg m.dst l = readWord s core m l := by
  have hfind : Sparse.find (s.passOne core m).waves m.wave = some (m.vals.foldl (fun acc x => readLane s core m acc x.1) w) := by
    rw [passOne_accrd h]
    exact find_update_same hw _
  rw [passed, if_pos hend, lreg_endMat hfind ((status_foldl_readLane ..).trans hs)]
  exact foldl_readLane m.vals hl hd (.inl ⟨x, hx⟩)

/-! ## The passes together -/

theorem tileGet_of_mem {s t : State} (h : t.mem = s.mem) (c n i j : Nat) : t.tileGet c n i j = s.tileGet c n i j :=
  readNat_of_mem h _ 4

/-- Settles O40: the pass of an operation alone leaves memory as its work leaves it, and the work of each kind stores the
cells, or the bytes, that the kind names. -/
theorem matrixPasses : Obligations.MatrixPasses := by
  unfold Obligations.MatrixPasses
  intro s core m g hruns hgroup hheld hunique hpoison hseen hg cell
  have halone : Alone s core m := ⟨hruns, hgroup, hheld, hunique, hpoison, hseen⟩
  have hpass : m.nextc < m.total → ∃ t, exec (.matrixPass core) s = .next t ∧ t.waves = (passed s core m).waves ∧
      t.mem = (s.passOne core m).mem := fun hc => by
    obtain ⟨t, ht, hside⟩ := matrixPass_alone halone hc
    exact ⟨t, ht, hside.waves, hside.mem.trans (passed_mem ..)⟩
  constructor
  · intro hk hc
    obtain ⟨t, ht, -, hmem⟩ := hpass hc
    refine ⟨t, ht, ?_⟩
    simp only [tileGet_of_mem hmem, byte_of_mem hmem]
    exact product_effect hk s core
  · intro hoct hnextc
    have htotal : m.total = 1 := if_pos hoct
    obtain ⟨t, ht, hwaves, hmem⟩ := hpass (by omega)
    refine ⟨t, ht, ?_⟩
    simp only [tileGet_of_mem hmem, byte_of_mem hmem]
    refine ⟨fun hk => accz_effect hk s core, fun hk => accld_effect hk hg core, fun hk hbase => accst_effect hk hg hbase core,
      fun hk => ⟨?_, fun v hv hs hd l x hx hl => ?_⟩, fun hk hnodup => accwr_effect hk hnodup s core⟩
    · rw [hmem, passOne_accrd hk]
      rfl
    · rw [State.wave, hwaves]
      exact lreg_passed_accrd hk (by omega) hv hs hd hx hl

end Sys2Proof.Proofs

/-! PROOFS. Late results (12/R302, R303): words written one after another to registers of their own are all there in the end, and an
operation of a wave that does not drain leaves without moving it. -/

namespace Sys2Proof.Proofs

open Sys2Proof.Machine

open Sys2Proof.Safety

/-! ## Registers written one after another (R174) -/

/-- A step that writes lanes of one register of a wave whose window begins at b, and poison marks. -/
def WritesReg {α : Type} (b : Nat) (f : Wave → α → Wave) (reg : α → Nat) (val : α → Nat → Option Word) : Prop :=
  ∀ v x, v.wb = b → f v x = { v.lwrite (reg x) (val x) with rpoison := (f v x).rpoison }

section Writes
variable {α : Type} {b : Nat} {f : Wave → α → Wave} {reg : α → Nat} {val : α → Nat → Option Word}
  (hf : WritesReg b f reg val) {w : Wave} (hb : w.wb = b)
include hf hb

theorem WritesReg.step_eq (x : α) : f w x = { w with regs := (f w x).regs, rpoison := (f w x).rpoison } := by
  rw [hf w x hb, Wave.lwrite_eq]

theorem WritesReg.foldl_eq (xs : List α) :
    xs.foldl f w = { w with regs := (xs.foldl f w).regs, rpoison := (xs.foldl f w).rpoison } := by
  induction xs generalizing w with
  | nil => rfl
  | cons x r ih =>
    have hstep := hf.step_eq hb x
    have hbx : (f w x).wb = b := by
      rw [hstep]
      exact hb
    rw [List.foldl_cons, ih hbx, hstep]

theorem WritesReg.lreg_step (x : α) {j l : Nat} (hl : l < w.width) : (f w x).lreg j l =
    if j = reg x ∧ holds w (reg x) = true then (val x l).getD (w.lreg (reg x) l) else w.lreg j l := by
  have hregs : (f w x).lreg = (w.lwrite (reg x) (val x)).lreg := by
    rw [hf w x hb]
    rfl
  rw [hregs, Wave.lreg_lwrite w _ _ _ _ hl]

theorem WritesReg.lreg_outside {xs : List α} {j l : Nat} (hl : l < w.width) (hj : ∀ x ∈ xs, reg x = j → val x l = none) :
    (xs.foldl f w).lreg j l = w.lreg j l := by
  induction xs generalizing w with
  | nil => rfl
  | cons x r ih =>
    have hstep := hf.step_eq hb x
    have hbx : (f w x).wb = b := by
      rw [hstep]
      exact hb
    have hlx : l < (f w x).width := by
      rw [hstep]
      exact hl
    rw [List.foldl_cons, ih hbx hlx fun y hy => hj y (List.mem_cons_of_mem _ hy), hf.lreg_step hb x hl]
    split
    · next hjx => rw [hj x List.mem_cons_self hjx.1.symm, Option.getD_none, hjx.1]
    · rfl

/-- Registers all different, each has the value written to it. -/
theorem WritesReg.lreg_inside {xs : List α} (hn : (xs.map reg).Nodup) {x : α} (hx : x ∈ xs) {l : Nat} (hl : l < w.width)
    (hh : holds w (reg x) = true) {v : Word} (hv : val x l = some v) : (xs.foldl f w).lreg (reg x) l = v := by
  induction xs generalizing w with
  | nil => cases hx
  | cons y r ih =>
    have hstep := hf.step_eq hb y
    have hby : (f w y).wb = b := by
      rw [hstep]
      exact hb
    have hly : l < (f w y).width := by
      rw [hstep]
      exact hl
    have hhy : holds (f w y) (reg x) = true := by
      rw [hstep]
      exact hh
    obtain ⟨hnot, hr⟩ := List.nodup_cons.1 hn
    rw [List.foldl_cons]
    rcases List.mem_cons.1 hx with rfl | hx
    · have hother : ∀ z ∈ r, reg z = reg x → val z l = none := fun z hz hzx =>
        absurd (List.mem_map.2 ⟨z, hz, hzx⟩) hnot
      rw [hf.lreg_outside hby hly hother, hf.lreg_step hb x hl, if_pos ⟨rfl, hh⟩, hv, Option.getD_some]
    · exact ih hby hr hx hly hhy

end Writes

/-! ## The result of a long-latency operation (R303) -/

/-- Where an operation's words land: register by register, in the lanes that it holds. -/
def landWords (dst : List Nat) (vals : Sparse (List Word)) (w : Wave) : Wave :=
  dst.zipIdx.foldl (fun acc d => acc.lwrite d.1 (fun l => (Sparse.find vals l).map (fun ws => ws.getD d.2 0))) w

theorem landWords_writesReg (vals : Sparse (List Word)) (b : Nat) :
    WritesReg b (fun (acc : Wave) (d : Nat × Nat) => acc.lwrite d.1 (fun l => (Sparse.find vals l).map (fun ws => ws.getD d.2 0)))
      (·.1) (fun d l => (Sparse.find vals l).map (fun ws => ws.getD d.2 0)) := fun _ _ _ => rfl

theorem landWords_status (dst : List Nat) (vals : Sparse (List Word)) (w : Wave) : (landWords dst vals w).status = w.status := by
  rw [landWords, (landWords_writesReg vals w.wb).foldl_eq rfl]

theorem lreg_landWords {dst : List Nat} {vals : Sparse (List Word)} {w : Wave} (hd : dst.Nodup) {n l : Nat} {ws : List Word}
    (hn : n < dst.length) (hl : l < w.width) (hh : holds w (dst.getD n 0) = true) (hv : Sparse.find vals l = some ws) :
    (landWords dst vals w).lreg (dst.getD n 0) l = ws.getD n 0 := by
  have hmem : (dst.getD n 0, n) ∈ dst.zipIdx := by
    rw [List.getD_eq_getElem _ _ hn]
    exact List.mem_zipIdx_iff_getElem?.2 (List.getElem?_eq_getElem hn)
  have hkeys : (dst.zipIdx.map (·.1)).Nodup := by
    rw [List.zipIdx_map_fst]
    exact hd
  exact (landWords_writesReg vals w.wb).lreg_inside rfl hkeys hmem hl hh (by rw [hv, Option.map_some])

/-! ## Operations that end -/

/-- A wave that does not drain keeps its place. -/
theorem settle_of_not_draining {s : State} {id : Nat} (h : (s.wave id).status ≠ .draining) : s.settle id = s :=
  if_neg fun hc => h hc.1

theorem dropOp_of_not_draining {s : State} {wave : Nat} {w : Wave} (id : Nat) (h : Sparse.find s.waves wave = some w)
    (hs : w.status ≠ .draining) : s.dropOp id wave = retired s id wave :=
  settle_of_not_draining (s := retired s id wave) (by rw [wave_retired id h]; exact hs)

theorem settle_ops (s : State) (id : Nat) : (s.settle id).ops = s.ops := by
  unfold State.settle
  dsimp only
  split <;> rfl

theorem find_ops_dropOp (s : State) (id wave : Nat) : Sparse.find (s.dropOp id wave).ops id = none := by
  rw [State.dropOp, settle_ops]
  exact find_erase_same ..

section Ends
variable {s : State} {id : Nat} {o : MemOp} (ho : Sparse.find s.ops id = some o)
include ho

theorem exec_longLatencyResult {vals : Sparse (List Word)} (hk : o.kind = .long vals) : exec (.longLatencyResult id) s =
    .next ((s.modLive o.wave (landWords o.dst vals)).dropOp id o.wave) := by
  have hexec : exec (.longLatencyResult id) s = execLongLatencyResult id s := rfl
  rw [hexec, execLongLatencyResult, ho]
  dsimp only
  rw [hk]
  rfl

theorem exec_xinvComplete {fs : List (Nat × Nat)} (hk : o.kind = .xinv fs) : exec (.xinvComplete id) s =
    .next (if s.xinvDone fs then s.dropOp id o.wave else s) := by
  have hexec : exec (.xinvComplete id) s = execXinvComplete id s := rfl
  rw [hexec, execXinvComplete, ho]
  dsimp only
  rw [hk]

end Ends

/-- Settles O34: what LONG_LATENCY_RESULT writes is `landWords`, into registers that differ, and XINV_COMPLETE is its own
condition; an operation that leaves stores no byte. -/
theorem lateResults : Obligations.LateResults := by
  unfold Obligations.LateResults
  refine fun s id o ho => ⟨fun vals hk hs hw hd => ?_, fun fs hk => ⟨fun hdone => ?_, fun hdone => ?_⟩⟩
  · obtain ⟨w, hw⟩ := Option.isSome_iff_exists.1 hw
    rw [wave_of_find hw] at hs
    have hland : Sparse.find (s.modLive o.wave (landWords o.dst vals)).waves o.wave = some (landWords o.dst vals w) :=
      find_update_same hw _
    have hlive : (landWords o.dst vals w).status ≠ .draining := by
      rw [landWords_status]
      rintro hdrain
      rw [hdrain] at hs
      simp at hs
    refine ⟨_, exec_longLatencyResult ho hk, State.dropOp_mem .., find_ops_dropOp .., ?_⟩
    rintro n j l ws hn rfl hl hh hv
    rw [wave_of_find hw] at hl hh
    rw [dropOp_of_not_draining id hland hlive, wave_retired id hland]
    exact lreg_landWords hd hn hl hh hv
  · exact ⟨_, (exec_xinvComplete ho hk).trans (by rw [if_pos hdone]), State.dropOp_mem .., find_ops_dropOp ..⟩
  · rw [exec_xinvComplete ho hk, if_neg (Bool.eq_false_iff.1 hdone)]

end Sys2Proof.Proofs

/-! PROOFS. Long-latency instructions (12/R303 to R305): the ten begin an operation by one operation of the model; the words that it
holds carry the elements of its value. -/

namespace Sys2Proof.Proofs

open Sys2Proof.Machine

open Sys2Proof.Safety

/-! ## Words of a value (R174, R221) -/

/-- The lowest n words of a value. -/
def longWords (n x : Nat) : List Word := (List.range n).map (fun j => wd (x / 2 ^ (32 * j) % 2 ^ 32))

theorem longWords_toNat {n : Nat} (hn : n = 1 ∨ n = 2) (x : Nat) :
    ((longWords n x).getD 0 0).toNat + 2 ^ 32 * ((longWords n x).getD 1 0).toNat = x % 2 ^ (32 * n) := by
  obtain rfl | rfl := hn
  · simp [longWords, wd]
  · simp only [longWords, wd, List.range_succ, List.range_zero, List.nil_append, List.map_cons, List.map_nil,
      List.cons_append, List.getD_cons_zero, List.getD_cons_succ, BitVec.toNat_ofNat]
    omega

theorem bits_mod_two_pow {lo w m : Nat} (h : lo + w ≤ m) (x : Nat) : bits (x % 2 ^ m) lo w = bits x lo w := by
  refine Nat.eq_of_testBit_eq fun j => ?_
  simp only [bits, Nat.testBit_mod_two_pow, Nat.testBit_div_two_pow]
  by_cases hj : j < w
  · have hin : j + lo < m := by omega
    simp [hin]
  · simp [hj]

/-- Elements fill the registers of their type. -/
theorem elem_mul_elems {w : Wave} {t : Ty} (h : w.ty? = some t) : w.ty.elem * w.ty.elems = 32 * w.vcount := by
  simp only [Wave.ty, Wave.vcount, h, Option.getD_some, Option.map_some]
  cases t <;> rfl

theorem element_longWords {w : Wave} {t : Ty} (h : w.ty? = some t) {k : Nat} (hk : k < w.ty.elems) (x : Nat) :
    element w.ty k (((longWords w.vcount x).getD 0 0).toNat + 2 ^ 32 * ((longWords w.vcount x).getD 1 0).toNat) =
      element w.ty k x := by
  have hin : w.ty.elem * k + w.ty.elem ≤ 32 * w.vcount := by
    rw [← elem_mul_elems h, ← Nat.mul_succ]
    exact Nat.mul_le_mul_left _ hk
  rw [longWords_toNat w.vcount_cases, element, bits_mod_two_pow hin, element]

/-! ## An operation begins (R303, R184) -/

/-- What an operation holds: for each active lane the words of its result. -/
def longVals (w : Wave) (f : Nat → Res) : Sparse (List Word) := w.lanes.map (fun l => (l, longWords w.vcount (f l).1))

section Begins
variable {s u : State} {i : Instr} {d : Reg} {srcs : List Reg} {int : Bool} {F : Wave → Nat → Res} (h : Issues s i u)
include h

theorem longOp_noLane (hl : u.curWave.lanes = []) : s.longOp i d srcs int F = .next ((u.issuedBy i).emptyOp .s) := by
  have hlanes : (u.issuedBy i).curWave.lanes = [] := (issuedBy_lanes u i).trans hl
  have hconds : (u.issuedBy i).curWave.conds (F (u.issuedBy i).curWave) = 0 := by rw [Wave.conds, hlanes, List.foldl_nil]
  rw [State.longOp, issue_next h]
  dsimp only
  rw [hconds, Nat.zero_and, if_neg (not_not.2 rfl), if_pos hlanes]

theorem longOp_begins (hl : u.curWave.lanes ≠ [])
    (hc : (u.issuedBy i).curWave.conds (F (u.issuedBy i).curWave) &&& (u.issuedBy i).curWave.te = 0) :
    ∃ t o, s.longOp i d srcs int F = .next t ∧ Sparse.find t.ops u.nextId = some o ∧
      o.kind = .long (longVals u.curWave (F (u.issuedBy i).curWave)) ∧ o.wave = u.cur ∧
      o.dst = (regsFrom d u.curWave.vcount).map (u.curWave.wb + ·) ∧
      t.agenda = (u.issuedBy i).agenda ++ [.longLatencyResult u.nextId] ∧ t.mem = (u.issuedBy i).mem ∧
      t.curWave.regs = u.curWave.regs ∧ t.curWave.sq.length = u.curWave.sq.length + 1 := by
  have hlanes : (u.issuedBy i).curWave.lanes ≠ [] := (issuedBy_lanes u i).symm ▸ hl
  have hwave := State.issuedBy_curWave u i
  rw [State.longOp, issue_next h]
  dsimp only
  rw [if_neg (not_not.2 hc), if_neg hlanes, issuedBy_nextId]
  refine ⟨_, _, rfl, Sparse.find_put_same .., ?_, State.issuedBy_cur .., ?_, rfl, rfl, ?_, ?_⟩
  · rw [hwave]
    rfl
  · rw [hwave]
    simp [regsFrom, Nat.add_assoc, Function.comp_def]
  · refine (congrArg Wave.regs (State.curWave_setCur ..)).trans ?_
    rw [Wave.markTo_eq, hwave]
    rfl
  · refine (congrArg (fun w : Wave => w.sq.length) (State.curWave_setCur ..)).trans ?_
    rw [Wave.markTo_eq, hwave]
    exact List.length_append

end Begins

/-- What a long-latency instruction leaves whose elements have the results g: it only counts, or an operation holds them. -/
def LongHeld (s u : State) (i : Instr) (d : Reg) (g : Nat → Nat → Res) : Prop :=
  (u.curWave.lanes = [] → exec i s = .next ((u.issuedBy i).emptyOp .s)) ∧
  (u.curWave.lanes ≠ [] → (∀ l k, u.curWave.active l = true → k < u.curWave.ty.elems → (g l k).2 &&& u.curWave.te = 0) →
  ∃ t o vals, exec i s = .next t ∧ Sparse.find t.ops u.nextId = some o ∧ o.kind = .long vals ∧ o.wave = u.cur ∧
    o.dst = (regsFrom d u.curWave.vcount).map (u.curWave.wb + ·) ∧
    t.agenda = (u.issuedBy i).agenda ++ [.longLatencyResult u.nextId] ∧ t.mem = (u.issuedBy i).mem ∧
    t.curWave.regs = u.curWave.regs ∧ t.curWave.sq.length = u.curWave.sq.length + 1 ∧ vals.map (·.1) = u.curWave.lanes ∧
    ∀ l ws, (l, ws) ∈ vals → ws.length = u.curWave.vcount ∧ ∀ k, k < u.curWave.ty.elems →
      element u.curWave.ty k ((ws.getD 0 0).toNat + 2 ^ 32 * (ws.getD 1 0).toNat) = (g l k).1 % 2 ^ u.curWave.ty.elem)

theorem longHeld_of_elems {s u : State} {i : Instr} {d : Reg} {srcs : List Reg} {int : Bool} {F : Wave → Nat → Res}
    {ts : List Ty} {f : Nat → Nat → Nat → Res} {x y : Nat → Nat} (he : exec i s = s.longOp i d srcs int F)
    (hts : (i.opnds s.curWave).types = some ts)
    (hF : ∀ o n op, F (u.curWave.issued o n op) = fun l => byElems u.curWave.ty f (x l) (y l) 0) (h : Issues s i u) :
    LongHeld s u i d (fun l k => f (element u.curWave.ty k (x l)) (element u.curWave.ty k (y l))
      (element u.curWave.ty k 0)) := by
  have hvalue : F (u.issuedBy i).curWave = fun l => byElems u.curWave.ty f (x l) (y l) 0 := by
    rw [State.issuedBy_curWave]
    exact hF ..
  refine ⟨fun hl => he.trans (longOp_noLane h hl), fun hl hq => ?_⟩
  have hconds : (u.issuedBy i).curWave.conds (F (u.issuedBy i).curWave) &&& (u.issuedBy i).curWave.te = 0 := by
    rw [hvalue, State.issuedBy_curWave]
    exact conds_and_eq_zero fun l hact => byElems_and_eq_zero fun k hk => hq l k hact hk
  obtain ⟨t, o, ht, ho, hk, hwave, hdst, hag, hmem, hregs, hsq⟩ :=
    longOp_begins (d := d) (srcs := srcs) (int := int) (F := F) h hl hconds
  refine ⟨t, o, _, he.trans ht, ho, hk, hwave, hdst, hag, hmem, hregs, hsq, by simp [longVals, Function.comp_def], ?_⟩
  intro l ws hlws
  obtain ⟨m, -, hm⟩ := List.mem_map.1 hlws
  obtain ⟨rfl, rfl⟩ := Prod.mk.inj hm
  refine ⟨by simp [longWords], fun k hk => ?_⟩
  obtain ⟨ty, -, hty⟩ := ty_of_passes h.1 hts
  have htyu : u.curWave.ty? = some ty := by
    rw [issues_curWave h]
    exact hty
  rw [element_longWords htyu hk, hvalue, byElems_element _ _ _ _ _ _ hk]

/-- A function of one source of each element. -/
theorem longHeld_of_long1 {s u : State} {i : Instr} {d a : Reg} {ts : List Ty} (f : Fmt → Env → Nat → Nat → Res)
    (he : exec i s = s.long1 i d a f) (hts : (i.opnds s.curWave).types = some ts) (h : Issues s i u) :
    LongHeld s u i d (fun l k => f (fmtOf u.curWave.ty) u.curWave.env u.curWave.ty.toNat
      (element u.curWave.ty k (u.curWave.val a l))) :=
  longHeld_of_elems (f := fun x _ _ => f (fmtOf u.curWave.ty) u.curWave.env u.curWave.ty.toNat x) (x := u.curWave.val a)
    (y := fun _ => 0) he hts (fun _ _ _ => rfl) h

/-- A function of two sources of each element. -/
theorem longHeld_of_long2 {s u : State} {i : Instr} {d a b : Reg} {int : Bool} {ts : List Ty}
    (f : Ty → Env → Nat → Nat → Res) (he : exec i s = s.longOp i d [a, b] int
      (fun w l => byElems w.ty (fun x y _ => f w.ty w.env x y) (w.val a l) (w.val b l) 0))
    (hts : (i.opnds s.curWave).types = some ts) (h : Issues s i u) :
    LongHeld s u i d (fun l k => f u.curWave.ty u.curWave.env (element u.curWave.ty k (u.curWave.val a l))
      (element u.curWave.ty k (u.curWave.val b l))) :=
  longHeld_of_elems (f := fun x y _ => f u.curWave.ty u.curWave.env x y) (x := u.curWave.val a) (y := u.curWave.val b)
    he hts (fun _ _ _ => rfl) h

/-- Settles O33: each of the ten is a function of one or of two sources of its elements. -/
theorem longLatency : Obligations.LongLatency := by
  unfold Obligations.LongLatency
  intro s u d a b la i g w A B F T hi h
  suffices hheld : LongHeld s u i d g from hheld
  rcases hi with ⟨rfl, rfl⟩ | ⟨rfl, rfl⟩ | ⟨rfl, rfl⟩ | ⟨rfl, rfl⟩ | ⟨rfl, rfl⟩ | ⟨rfl, rfl⟩ | ⟨rfl, rfl⟩ | ⟨rfl, rfl⟩ |
    ⟨rfl, rfl⟩ | ⟨rfl, rfl⟩
  · exact longHeld_of_long2 (fun t v => fDiv (fmtOf t) v) rfl rfl h
  · exact longHeld_of_long1 (fun p v _ => fSqrt p v) rfl rfl h
  · exact longHeld_of_long1 fRcp rfl rfl h
  · exact longHeld_of_long1 fRsq rfl rfl h
  · exact longHeld_of_long1 fExp2 rfl rfl h
  · exact longHeld_of_long1 fLog2 rfl rfl h
  · exact longHeld_of_long1 (fTrig false) rfl rfl h
  · exact longHeld_of_long1 (fTrig true) rfl rfl h
  · exact longHeld_of_long2 (fun t _ => intDiv t false) rfl rfl h
  · exact longHeld_of_long2 (fun t _ => intDiv t true) rfl rfl h

end Sys2Proof.Proofs

/-! PROOFS. Stage rings (12/R312 to R315): making registers resident touches no workgroup, so the ring that an instruction finds is
the one that it changes; the two that take a slot share their effect, the two that give one back their checks. -/

namespace Sys2Proof.Proofs

open Sys2Proof.Machine

open Sys2Proof.Safety

/-! ## Bytes written at their point of coherence (R93 to R95) -/

/-- A line that a core writes changes memory, its poison, and what caches and slices hold of it. -/
theorem devLine_eq (s : State) (c a : Nat) (bs : List Byte) : s.devLine c a bs =
    { s with mem := (s.devLine c a bs).mem, poison := (s.devLine c a bs).poison,
             caches := (s.devLine c a bs).caches, slices := (s.devLine c a bs).slices } := by
  unfold State.devLine
  dsimp only
  rw [cleanse_eq, writeAt_eq]

theorem devWrite_eq (s : State) (c a : Nat) (bs : List Byte) : s.devWrite c a bs =
    { s with mem := (s.devWrite c a bs).mem, poison := (s.devWrite c a bs).poison,
             caches := (s.devWrite c a bs).caches, slices := (s.devWrite c a bs).slices } := by
  unfold State.devWrite
  generalize lineChunks a bs = xs
  induction xs generalizing s with
  | nil => rfl
  | cons x r ih => rw [List.foldl_cons, ih, devLine_eq s]

/-- The A and D bits of a leaf stand in memory, caches and slices, TLBs and frames. -/
theorem setAD_eq (s : State) (c leaf : Nat) (d : Bool) : s.setAD c leaf d =
    { s with mem := (s.setAD c leaf d).mem, poison := (s.setAD c leaf d).poison, caches := (s.setAD c leaf d).caches,
             slices := (s.setAD c leaf d).slices, l1tlb := (s.setAD c leaf d).l1tlb, l2tlb := (s.setAD c leaf d).l2tlb,
             waves := (s.setAD c leaf d).waves } := by
  unfold State.setAD
  dsimp only
  rw [devWrite_eq]

/-! ## Workgroups and the span (R153, R156) -/

/-- Every state that a move answers has the workgroups gs. -/
def HasGroups (gs : Sparse Workgroup) (m : Move) : Prop :=
  match m with
  | .ok t => t.wgs = gs
  | .wait t => t.wgs = gs
  | .fault t _ _ _ => t.wgs = gs

section Groups
variable {gs : Sparse Workgroup} {s : State}

theorem hasGroups_bind {m : Move} {f : State → Move} (h : HasGroups gs m) (hf : ∀ t, t.wgs = gs → HasGroups gs (f t)) :
    HasGroups gs (m.bind f) := by
  cases m with
  | ok t => exact hf t h
  | wait t => exact h
  | fault t c a i => exact h

theorem hasGroups_stop (r : Reach) (va : Dword) (h : s.wgs = gs) : HasGroups gs (r.stop s va) := by
  cases r <;> exact h

theorem wgs_foldl {α : Type} {f : State → α → State} (hf : ∀ t x, (f t x).wgs = t.wgs) (l : List α) (t : State) :
    (l.foldl f t).wgs = t.wgs := by
  induction l generalizing t with
  | nil => rfl
  | cons x r ih => exact (ih _).trans (hf t x)

theorem wgs_devWrite (t : State) (c a : Nat) (bs : List Byte) : (t.devWrite c a bs).wgs = t.wgs := by
  rw [devWrite_eq]

theorem wgs_setAD (t : State) (c leaf : Nat) (d : Bool) : (t.setAD c leaf d).wgs = t.wgs := wgs_devWrite ..

theorem hasGroups_spillReg (id j : Nat) (h : s.wgs = gs) : HasGroups gs (s.spillReg id j) := by
  unfold State.spillReg
  dsimp only
  split
  · have hw : ∀ c pa leaf bs, ((s.setAD c leaf true).devWrite c pa bs).wgs = gs := fun c pa leaf bs =>
      (wgs_devWrite ..).trans ((wgs_setAD ..).trans h)
    split
    · exact hw ..
    · refine (wgs_foldl (fun t l => ?_) _ _).trans (hw ..)
      split <;> rfl
  · exact hasGroups_stop _ _ h

theorem hasGroups_fillReg (id j : Nat) (h : s.wgs = gs) : HasGroups gs (s.fillReg id j) := by
  unfold State.fillReg
  dsimp only
  split
  · exact (wgs_setAD ..).trans h
  · exact hasGroups_stop _ _ h

theorem hasGroups_spillRegs (js : List Nat) (id : Nat) (h : s.wgs = gs) : HasGroups gs (spillRegs js id s) := by
  induction js generalizing s with
  | nil => exact h
  | cons j r ih => exact hasGroups_bind (hasGroups_spillReg id j h) fun t ht => ih ht

theorem hasGroups_fillRegs (js : List Nat) (id : Nat) (h : s.wgs = gs) : HasGroups gs (fillRegs js id s) := by
  induction js generalizing s with
  | nil => exact h
  | cons j r ih => exact hasGroups_bind (hasGroups_fillReg id j h) fun t ht => ih ht

theorem hasGroups_spillGroups (n id : Nat) (h : s.wgs = gs) : HasGroups gs (spillGroups n id s) := by
  induction n generalizing s with
  | zero => exact h
  | succ n ih =>
    unfold spillGroups
    split
    · exact h
    · exact hasGroups_bind (hasGroups_spillRegs _ id h) fun t ht => ih ht

theorem hasGroups_makeResident (id base top : Nat) : HasGroups s.wgs (s.makeResident id base top) :=
  hasGroups_bind (hasGroups_spillGroups _ id rfl) fun t ht =>
    hasGroups_bind (hasGroups_fillRegs _ id ht) fun u hu =>
      (wgs_foldl (f := fun acc i => acc.enterReg id ((t.wave id).hi + i)) (fun _ _ => rfl) _ u).trans hu

theorem wgs_span {u : State} {o : Opnds} (h : s.span o = .ok u) : u.wgs = s.wgs := by
  unfold State.span at h
  split at h
  · have hres := hasGroups_makeResident (s := s) s.cur s.curWave.wb (Nat.min (o.top s.curWave) s.curWave.stkmax)
    rw [h] at hres
    exact hres
  · cases h
    rfl

end Groups

theorem issuedBy_wgs (s : State) (i : Instr) : (s.issuedBy i).wgs = s.wgs := by
  unfold State.issuedBy
  rw [charge_eq]
  rfl

/-! ## The ring of an instruction (R312) -/

section Ring
variable {s t : State} {g : Nat} {r : Ring}

theorem ring_congr (hwgs : t.wgs = s.wgs) (hwave : t.curWave.wg = s.curWave.wg) : t.ring g = s.ring g := by
  unfold State.ring State.wg
  rw [hwgs, hwave]

theorem ring_issuedBy (i : Instr) : (s.issuedBy i).ring g = s.ring g :=
  ring_congr (issuedBy_wgs s i) (by rw [State.issuedBy_curWave]; rfl)

theorem ring_of_issues {i : Instr} {u : State} (h : Issues s i u) : u.ring g = s.ring g :=
  ring_congr (wgs_span h.2) (by rw [issues_curWave h])

theorem ring_modRing (h : s.ring g = some r) (f : Ring → Ring) : (s.modRing g f).ring g = some (f r) := by
  obtain ⟨k, hk, hr⟩ := Option.bind_eq_some_iff.1 h
  have hk' : (s.modRing g f).wg s.curWave.wg = some { k with rings := Sparse.update k.rings g f } := find_update_same hk _
  have hring : (s.modRing g f).ring g = ((s.modRing g f).wg s.curWave.wg).bind (fun k => Sparse.find k.rings g) := rfl
  rw [hring, hk']
  exact find_update_same hr f

theorem noRing_of_some (h : s.ring g = some r) : s.noRing g = none := by
  rw [State.noRing, h]
  rfl

theorem noRing_of_none (h : s.ring g = none) : s.noRing g = ringFault 0 3 := by
  rw [State.noRing, h]
  rfl

end Ring

/-! ## RNGA and RNGW (R314, R315) -/

/-- What a wave that takes a slot leaves: its ring changed, and a number in its destination. -/
def takesSlot (u : State) (i : Instr) (d : Reg) (g v : Nat) (f : Ring → Ring) : State :=
  (((u.issuedBy i).modRing g f).laneWrite i d 1 [] (fun _ => plain v)).bump

theorem takesSlot_effect {u : State} {g : Nat} {r : Ring} (i : Instr) (d : Reg) (v : Nat) (f : Ring → Ring)
    (hr : u.ring g = some r) :
    (takesSlot u i d g v f).mem = (u.issuedBy i).mem ∧ Gets u (takesSlot u i d g v f) d 1 (fun _ => v) ∧
      (takesSlot u i d g v f).ring g = some (f r) := by
  have hconds : ∀ w : Wave, w.conds (fun _ => plain v) &&& w.te = 0 := fun w => by
    rw [Wave.conds_zero w _ fun _ => rfl, Nat.zero_and]
  have hwrite : ∀ x : State, x.laneWrite i d 1 [] (fun _ => plain v) =
      x.setCur ((x.curWave.putVal d 1 (fun _ => v)).markTo d 1 (x.curWave.srcMark [])) := fun x =>
    if_neg (not_not.2 (hconds x.curWave))
  obtain ⟨-, hgets⟩ := State.laneWrite_next u i i d 1 [] (fun _ => plain v) (.inl rfl) (hconds _)
  have htaken : takesSlot u i d g v f = (((u.issuedBy i).modRing g f).setCur
      (((u.issuedBy i).curWave.putVal d 1 (fun _ => v)).markTo d 1 ((u.issuedBy i).curWave.srcMark []))).bump :=
    congrArg State.bump (hwrite _)
  rw [hwrite] at hgets
  refine ⟨by rw [htaken]; rfl, fun j l hl => ?_, ?_⟩
  · refine Eq.trans ?_ (hgets j l hl)
    rw [htaken, State.curWave_setCur]
    exact congrArg (fun w : Wave => w.lreg j l) (State.curWave_setCur ..)
  · rw [← ring_modRing (ring_issuedBy i ▸ hr) f, htaken]
    refine ring_congr rfl ((congrArg Wave.wg (State.curWave_setCur ..)).trans ?_)
    rw [Wave.markTo_eq, Wave.putVal_eq]
    rfl

/-- RNGA waits for an empty slot, in the order of arrival. -/
def rngaPrep (g : Nat) (t : State) : Move :=
  match t.ring g with
  | none => .ok t
  | some r =>
    if (r.slot r.pp).state = .empty ∧ r.waitA.head?.getD t.cur = t.cur then .ok t
    else .wait (if r.waitA.contains t.cur then t else t.modRing g (fun r => { r with waitA := r.waitA ++ [t.cur] }))

/-- RNGW waits for a full slot, in the order of arrival. -/
def rngwPrep (g : Nat) (t : State) : Move :=
  match t.ring g with
  | none => .ok t
  | some r =>
    if (r.slot r.cp).state = .full ∧ r.waitW.head?.getD t.cur = t.cur then .ok t
    else .wait (if r.waitW.contains t.cur then t else t.modRing g (fun r => { r with waitW := r.waitW ++ [t.cur] }))

/-- A ring whose producer slot a wave holds. -/
def ringAcquired (cur : Nat) (r : Ring) : Ring :=
  { (r.setSlot r.pp { r.slot r.pp with state := .held, holder := some cur, fail := false }) with
    pp := (r.pp + 1) % r.ns, waitA := r.waitA.filter (· ≠ cur) }

/-- A ring whose consumer slot a wave has taken. -/
def ringTaken (cur : Nat) (r : Ring) : Ring :=
  { (r.setSlot r.cp { r.slot r.cp with state := .taken, holder := some cur }) with
    cp := (r.cp + 1) % r.ns, waitW := r.waitW.filter (· ≠ cur) }

section Take
variable {s u : State} {d : Reg} {g : Low} {la : Ahead} {r : Ring}

theorem exec_rnga : exec (.rnga d g la) s = s.issueWith (.rnga d g la) (s.noRing g) (rngaPrep g) (fun t =>
    match t.ring g with
    | none => t
    | some r => ((t.modRing g (ringAcquired t.cur)).laneWrite (.rnga d g la) d 1 [] (fun _ => plain r.pp)).bump) := rfl

theorem exec_rngw : exec (.rngw d g la) s = s.issueWith (.rngw d g la) (s.noRing g) (rngwPrep g) (fun t =>
    match t.ring g with
    | none => t
    | some r => ((t.modRing g (ringTaken t.cur)).laneWrite (.rngw d g la) d 1 []
        (fun _ => plain (r.cp + if (r.slot r.cp).fail then 256 else 0))).bump) := rfl

section Found
variable (hr : s.ring g = some r)
include hr

theorem rngaPrep_eq : rngaPrep g s = if (r.slot r.pp).state = .empty ∧ r.waitA.head?.getD s.cur = s.cur then .ok s
    else .wait (if r.waitA.contains s.cur then s else s.modRing g (fun r => { r with waitA := r.waitA ++ [s.cur] })) := by
  rw [rngaPrep, hr]

theorem rngwPrep_eq : rngwPrep g s = if (r.slot r.cp).state = .full ∧ r.waitW.head?.getD s.cur = s.cur then .ok s
    else .wait (if r.waitW.contains s.cur then s else s.modRing g (fun r => { r with waitW := r.waitW ++ [s.cur] })) := by
  rw [rngwPrep, hr]

theorem exec_rnga_takes (hslot : (r.slot r.pp).state = .empty) (hturn : r.waitA.head?.getD s.cur = s.cur)
    (h : Issues s (.rnga d g la) u) :
    exec (.rnga d g la) s = .next (takesSlot u (.rnga d g la) d g r.pp (ringAcquired s.cur)) := by
  have hcur : u.cur = s.cur := (State.span_spans h.2).1
  have hring : (u.issuedBy (.rnga d g la)).ring g = some r := (ring_issuedBy _).trans ((ring_of_issues h).trans hr)
  rw [exec_rnga, noRing_of_some hr,
    issueWith_next (issuesAfter_of_prep_eq (prep := .ok) h ((rngaPrep_eq hr).trans (if_pos ⟨hslot, hturn⟩))), hring]
  dsimp only
  rw [State.issuedBy_cur, hcur]
  rfl

theorem exec_rngw_takes (hslot : (r.slot r.cp).state = .full) (hturn : r.waitW.head?.getD s.cur = s.cur)
    (h : Issues s (.rngw d g la) u) :
    exec (.rngw d g la) s = .next (takesSlot u (.rngw d g la) d g (r.cp + if (r.slot r.cp).fail then 256 else 0)
      (ringTaken s.cur)) := by
  have hcur : u.cur = s.cur := (State.span_spans h.2).1
  have hring : (u.issuedBy (.rngw d g la)).ring g = some r := (ring_issuedBy _).trans ((ring_of_issues h).trans hr)
  rw [exec_rngw, noRing_of_some hr,
    issueWith_next (issuesAfter_of_prep_eq (prep := .ok) h ((rngwPrep_eq hr).trans (if_pos ⟨hslot, hturn⟩))), hring]
  dsimp only
  rw [State.issuedBy_cur, hcur]
  rfl

theorem exec_rnga_waits (hw : (r.slot r.pp).state ≠ .empty ∨ r.waitA.head?.getD s.cur ≠ s.cur)
    (h : passes s (.rnga d g la) = true) : exec (.rnga d g la) s = .next (if r.waitA.contains s.cur then s
      else s.modRing g (fun r => { r with waitA := r.waitA ++ [s.cur] })).hold := by
  have hprep := (rngaPrep_eq hr).trans (if_neg (by tauto))
  rw [exec_rnga, noRing_of_some hr, issueWith_holds_of_wait h hprep]

theorem exec_rngw_waits (hw : (r.slot r.cp).state ≠ .full ∨ r.waitW.head?.getD s.cur ≠ s.cur)
    (h : passes s (.rngw d g la) = true) : exec (.rngw d g la) s = .next (if r.waitW.contains s.cur then s
      else s.modRing g (fun r => { r with waitW := r.waitW ++ [s.cur] })).hold := by
  have hprep := (rngwPrep_eq hr).trans (if_neg (by tauto))
  rw [exec_rngw, noRing_of_some hr, issueWith_holds_of_wait h hprep]

end Found

end Take

/-! ## RNGC and RNGF (R314, R315) -/

/-- The checks of RNGC on the slot that it names. -/
def rngcCheck (cur j : Nat) (r : Ring) : Option (Nat × Dword × Dword) :=
  if j ≥ r.ns then ringFault j 5
  else if (r.slot j).state ≠ .held ∨ (r.slot j).holder ≠ some cur then ringFault j 1
  else if (r.slot j).cpyst then ringFault j 2
  else none

/-- The checks of RNGF on the slot that it names. -/
def rngfCheck (cur j : Nat) (r : Ring) : Option (Nat × Dword × Dword) :=
  if j ≥ r.ns then ringFault j 5
  else if (r.slot j).state ≠ .taken ∨ (r.slot j).holder ≠ some cur then ringFault j 4
  else none

section Give
variable {s u : State} {a : Reg} {g : Low} {la : Ahead} {r : Ring}

theorem exec_rngc (hr : s.ring g = some r) : exec (.rngc a g la) s =
    s.issueWith (.rngc a g la) (rngcCheck s.cur (s.slotIndex a) r) (fun t => t.fencexPrep .o2e) (fun t =>
      t.modRing g (fun x => x.setSlot (s.slotIndex a) { x.slot (s.slotIndex a) with state := .full, holder := none })) := by
  have hexec : exec (.rngc a g la) s = execRngc a g la s := rfl
  rw [hexec, execRngc, hr]
  rfl

theorem exec_rngf (hr : s.ring g = some r) : exec (.rngf a g la) s =
    s.issueWith (.rngf a g la) (rngfCheck s.cur (s.slotIndex a) r) (fun t => if t.loading t.cur then .wait t else .ok t)
      (fun t => t.modRing g (fun x =>
        x.setSlot (s.slotIndex a) { x.slot (s.slotIndex a) with state := .empty, holder := none })) := by
  have hexec : exec (.rngf a g la) s = execRngf a g la s := rfl
  rw [hexec, execRngf, hr]
  rfl

theorem rngcCheck_of_own {cur j : Nat} (hj : j < r.ns) (hs : (r.slot j).state = .held) (hh : (r.slot j).holder = some cur)
    (hc : (r.slot j).cpyst = false) : rngcCheck cur j r = none := by
  simp [rngcCheck, hs, hh, hc, hj]

theorem rngcCheck_of_filling {cur j : Nat} (hj : j < r.ns) (hs : (r.slot j).state = .held)
    (hh : (r.slot j).holder = some cur) (hc : (r.slot j).cpyst = true) : rngcCheck cur j r = ringFault j 2 := by
  simp [rngcCheck, hs, hh, hc, hj]

theorem rngfCheck_of_own {cur j : Nat} (hj : j < r.ns) (hs : (r.slot j).state = .taken) (hh : (r.slot j).holder = some cur) :
    rngfCheck cur j r = none := by
  rw [rngfCheck, if_neg (by omega), if_neg (by simp [hs, hh])]

theorem rngcCheck_of_other {cur j : Nat} (hj : j < r.ns) (h : (r.slot j).state ≠ .held ∨ (r.slot j).holder ≠ some cur) :
    rngcCheck cur j r = ringFault j 1 := by
  rw [rngcCheck, if_neg (by omega), if_pos h]

theorem rngfCheck_of_other {cur j : Nat} (hj : j < r.ns) (h : (r.slot j).state ≠ .taken ∨ (r.slot j).holder ≠ some cur) :
    rngfCheck cur j r = ringFault j 4 := by
  rw [rngfCheck, if_neg (by omega), if_pos h]

/-- An instruction without a ring to name parks. -/
theorem exec_noRing (d : Reg) {i : Instr} (hi : i = .rnga d g la ∨ i = .rngc a g la ∨ i = .rngw d g la ∨ i = .rngf a g la)
    (hr : s.ring g = none) (h : passes s i = true) : ∃ t, exec i s = .next t ∧ ParksBefore s t 7 0 (misInfo 0x37 3) := by
  obtain rfl | rfl | rfl | rfl := hi
  · rw [exec_rnga, noRing_of_none hr]
    exact issueWith_parksBefore h
  · have hexec : exec (.rngc a g la) s = execRngc a g la s := rfl
    rw [hexec, execRngc, hr]
    exact issueWith_parksBefore h
  · rw [exec_rngw, noRing_of_none hr]
    exact issueWith_parksBefore h
  · have hexec : exec (.rngf a g la) s = execRngf a g la s := rfl
    rw [hexec, execRngf, hr]
    exact issueWith_parksBefore h

end Give

/-- Settles O38: RNGA and RNGW wait or take a slot (`takesSlot`), RNGC and RNGF pass their checks or park, and give the slot
on (that a FULL slot is taken without a further wait is log 94). -/
theorem rings : Obligations.Rings := by
  unfold Obligations.Rings
  refine ⟨fun s u d a g la r hr => ⟨fun hslot hturn h => ?_, fun hw h => ?_, fun hj hs hh hc => ⟨fun h => ?_, fun t h hp => ?_⟩,
    fun hslot hturn h => ?_, fun hw h => ?_, fun hj hs hh => ⟨fun hl h => ?_, fun hl h => ?_⟩, fun i hi h hj => ?_,
    fun h hj => ⟨fun hbad => ?_, fun hs hh hc => ?_⟩, fun h hj hbad => ?_⟩, fun s d a g la i hi hr h => exec_noRing d hi hr h⟩
  · exact ⟨_, exec_rnga_takes hr hslot hturn h, takesSlot_effect _ _ _ _ ((ring_of_issues h).trans hr)⟩
  · rw [exec_rnga_waits hr hw h]
    exact ⟨fun hc => by rw [if_pos hc], fun hc => by rw [if_neg (Bool.eq_false_iff.1 hc)]⟩
  · rw [exec_rngc hr, rngcCheck_of_own (j := s.slotIndex a) hj hs hh hc, issueWith_next h]
    rfl
  · rw [exec_rngc hr, rngcCheck_of_own (j := s.slotIndex a) hj hs hh hc, issueWith_holds_of_wait h hp]
  · exact ⟨_, exec_rngw_takes hr hslot hturn h, takesSlot_effect _ _ _ _ ((ring_of_issues h).trans hr)⟩
  · rw [exec_rngw_waits hr hw h]
    exact ⟨fun hc => by rw [if_pos hc], fun hc => by rw [if_neg (Bool.eq_false_iff.1 hc)]⟩
  · rw [exec_rngf hr, rngfCheck_of_own (j := s.slotIndex a) hj hs hh,
      issueWith_next (issuesAfter_of_prep_eq (prep := .ok) h (by simp [hl]))]
    rfl
  · rw [exec_rngf hr, rngfCheck_of_own (j := s.slotIndex a) hj hs hh, issueWith_holds h (by simp [hl])]
  · obtain rfl | rfl := hi
    · rw [exec_rngc hr, rngcCheck, if_pos (show s.slotIndex a ≥ r.ns from hj)]
      exact issueWith_parksBefore h
    · rw [exec_rngf hr, rngfCheck, if_pos (show s.slotIndex a ≥ r.ns from hj)]
      exact issueWith_parksBefore h
  · rw [exec_rngc hr, rngcCheck_of_other (j := s.slotIndex a) hj hbad]
    exact issueWith_parksBefore h
  · rw [exec_rngc hr, rngcCheck_of_filling (j := s.slotIndex a) hj hs hh hc]
    exact issueWith_parksBefore h
  · rw [exec_rngf hr, rngfCheck_of_other (j := s.slotIndex a) hj hbad]
    exact issueWith_parksBefore h

end Sys2Proof.Proofs

/-! PROOFS. Accesses begin (12/R285 to R297): the operation that a load, a store, a prefetch or an atomic begins is the one that its
operands give, whatever is checked in before it. -/

namespace Sys2Proof.Proofs

open Sys2Proof.Machine

open Sys2Proof.Safety

/-! ## Bytes of registers (R285) -/

theorem laneBytes_eq_laneData (u : State) (d n l : Nat) : u.curWave.laneBytes d n l = laneData u d n l := by
  have hlen : (u.curWave.laneBytes d n l).length = 4 * n := by simp [Wave.laneBytes, length_wordBytes]
  refine List.ext_getElem (by simp [hlen, laneData]) fun b hb _ => ?_
  have hn : b / 4 < n := by omega
  have hsplit : 4 * (b / 4) + b % 4 = b := Nat.div_add_mod b 4
  have hbyte := getD_wordBytes ((List.range n).map (fun i => u.curWave.v (d + i) l)) (l := b / 4) (b := b % 4)
    (by simpa using hn) (Nat.mod_lt _ (by decide))
  rw [hsplit] at hbyte
  rw [← List.getD_eq_getElem _ 0 hb, Wave.laneBytes, hbyte]
  simp [laneData, hn]

theorem issuedBy_laneBytes (u : State) (i : Instr) : (u.issuedBy i).curWave.laneBytes = laneData u := by
  funext d n l
  rw [State.issuedBy_curWave]
  exact laneBytes_eq_laneData u d n l

/-! ## The operation of an access (R285 to R287) -/

/-- An operation that is as `State.opOf` makes it, in a state in which the wave that moves is as its issue left it, is the access
of its operands: hint, order and scope are beside that. -/
theorem accessOf_opOf {u t : State} {i : Instr} (hcur : t.cur = u.cur) (hwave : t.curWave = (u.issuedBy i).curWave)
    (kind : OpKind) (f : Nat) (a : Reg) (size : Nat) (dst : List Nat) (data cmp : Nat → List Byte) (ch : Hint) (r : Order)
    (sc : Option Scope) : AccessOf u f a size dst data cmp
      { t.opOf i kind (some f) ((u.issuedBy i).curWave.memVa f a) size data cmp dst with hint := ch, order := r, scope := sc } := by
  have hpc : u.curWave.pc + 4 - 4 = u.curWave.pc := BitVec.add_sub_cancel ..
  rw [State.issuedBy_curWave] at hwave ⊢
  unfold State.opOf
  simp only [hwave]
  exact ⟨hcur, rfl, rfl, rfl, hpc, rfl, rfl, rfl⟩

/-! ## Copies checked in (R80, R142) -/

/-- A check-in changes caches, operations and what is to come, no more. -/
theorem checkIn_eq (s : State) (core : Nat) (c : CacheCopy) (extra : List Nat) : s.checkIn core c extra =
    { s with caches := (s.checkIn core c extra).caches, ops := (s.checkIn core c extra).ops,
             nextId := (s.checkIn core c extra).nextId, agenda := (s.checkIn core c extra).agenda } := by
  have hfold : ∀ (ws : List Nat) (x : LaneOp) (t : State), ws.foldl (fun acc w =>
      { acc with nextId := acc.nextId + 1, ops := Sparse.put acc.ops acc.nextId (checkinOp w x) }) t =
      { t with
        nextId := (ws.foldl (fun acc w =>
          { acc with nextId := acc.nextId + 1, ops := Sparse.put acc.ops acc.nextId (checkinOp w x) }) t).nextId
        ops := (ws.foldl (fun acc w =>
          { acc with nextId := acc.nextId + 1, ops := Sparse.put acc.ops acc.nextId (checkinOp w x) }) t).ops } := by
    intro ws x t
    induction ws generalizing t with
    | nil => rfl
    | cons w r ih => rw [List.foldl_cons, ih]
  unfold State.checkIn
  dsimp only
  split
  · rfl
  · rw [hfold]
    rfl

theorem curWave_checkInAll (s : State) (core : Nat) (extra : List Nat) :
    (s.checkInAll core extra).cur = s.cur ∧ (s.checkInAll core extra).curWave = s.curWave := by
  unfold State.checkInAll
  generalize (s.cacheOf core).filter (fun c => decide (c.kind = .c)) = cs
  induction cs generalizing s with
  | nil => exact ⟨rfl, rfl⟩
  | cons c r ih =>
    obtain ⟨hcur, hwave⟩ := ih (s.checkIn core c extra)
    rw [List.foldl_cons, hcur, hwave, checkIn_eq]
    exact ⟨rfl, rfl⟩

/-- What an acquire checks in before its access. -/
def acquiredAt (v : State) (sc : Nat) : State := if 2 ≤ sc then v.checkInAll (coreOfWave v.cur) [] else v

theorem curWave_acquiredAt (v : State) (sc : Nat) :
    (acquiredAt v sc).cur = v.cur ∧ (acquiredAt v sc).curWave = v.curWave := by
  unfold acquiredAt
  split
  · exact curWave_checkInAll ..
  · exact ⟨rfl, rfl⟩

/-! ## Loads, stores and prefetches (R288 to R295) -/

section Access
variable {s u : State} {d a : Reg} {f : Low} {sz : Size} {osz : OSize} {ch : Hint} {sc : Scope} {la : Ahead} {flt : Bool}

theorem exec_ld (h : Issues s (.ld d a f sz ch la) u) : exec (.ld d a f sz ch la) s =
    .next ((u.issuedBy (.ld d a f sz ch la)).begin_ { (u.issuedBy (.ld d a f sz ch la)).opOf (.ld d a f sz ch la)
      (.load (sizeSigned sz)) (some f.val) ((u.issuedBy (.ld d a f sz ch la)).curWave.memVa f a) sz.bytes (fun _ => [])
      (fun _ => []) (regsFrom d sz.regs) with hint := ch }) := by
  have hexec : exec (.ld d a f sz ch la) s = execLd d a f sz ch la s := rfl
  rw [hexec, execLd, issue_next h]

theorem exec_st (h : Issues s (.st d a f sz ch la) u) : exec (.st d a f sz ch la) s =
    .next ((u.issuedBy (.st d a f sz ch la)).begin_ { (u.issuedBy (.st d a f sz ch la)).opOf (.st d a f sz ch la)
      .store (some f.val) ((u.issuedBy (.st d a f sz ch la)).curWave.memVa f a) sz.bytes
      (fun l => (laneData u d sz.regs l).take sz.bytes) (laneData u d sz.regs) [] with hint := ch }) := by
  have hexec : exec (.st d a f sz ch la) s = execSt d a f sz ch la s := rfl
  rw [← issuedBy_laneBytes u (.st d a f sz ch la)]
  rw [hexec, execSt, issue_next h]

theorem exec_prf (h : Issues s (.prf flt a f sz ch la) u) : exec (.prf flt a f sz ch la) s =
    .next ((u.issuedBy (.prf flt a f sz ch la)).begin_ { (u.issuedBy (.prf flt a f sz ch la)).opOf (.prf flt a f sz ch la)
      (.prefetch flt) (some f.val) ((u.issuedBy (.prf flt a f sz ch la)).curWave.memVa f a) sz.bytes (fun _ => [])
      (fun _ => []) [] with hint := ch }) := by
  have hexec : exec (.prf flt a f sz ch la) s = execPrf flt a f sz ch la s := rfl
  rw [hexec, execPrf, issue_next h]

theorem exec_stRel (h : IssuesAfter s (fun t => if t.curWave.lanes = [] then .ok t else t.fencePrep (t.widest f a .store sc))
      (.stRel d a f osz sc la) u) : exec (.stRel d a f osz sc la) s =
    .next ((u.issuedBy (.stRel d a f osz sc la)).begin_ { (u.issuedBy (.stRel d a f osz sc la)).opOf (.stRel d a f osz sc la)
      .store (some f.val) ((u.issuedBy (.stRel d a f osz sc la)).curWave.memVa f a) osz.size.bytes
      (laneData u d osz.size.regs) (laneData u d osz.size.regs) [] with order := .rel, scope := some sc }) := by
  have hexec : exec (.stRel d a f osz sc la) s = execStRel d a f osz sc la s := rfl
  rw [← issuedBy_laneBytes u (.stRel d a f osz sc la)]
  rw [hexec, execStRel, issueWith_next h]

theorem exec_ldAcq (h : Issues s (.ldAcq d a f osz sc la) u) : exec (.ldAcq d a f osz sc la) s =
    .next (State.begin_ (if (u.issuedBy (.ldAcq d a f osz sc la)).curWave.lanes = [] then u.issuedBy (.ldAcq d a f osz sc la)
        else acquiredAt (u.issuedBy (.ldAcq d a f osz sc la)) ((u.issuedBy (.ldAcq d a f osz sc la)).widest f a .load sc))
      { (u.issuedBy (.ldAcq d a f osz sc la)).opOf (.ldAcq d a f osz sc la) (.load false) (some f.val)
        ((u.issuedBy (.ldAcq d a f osz sc la)).curWave.memVa f a) osz.size.bytes (fun _ => [])
        (fun _ => []) (regsFrom d osz.size.regs) with order := .acq, scope := some sc }) := by
  have hexec : exec (.ldAcq d a f osz sc la) s = execLdAcq d a f osz sc la s := rfl
  rw [hexec, execLdAcq, issue_next h]
  rfl

end Access

theorem sizeSigned_eq (sz : Size) : sizeSigned sz = decide (sz = .i8 ∨ sz = .i16) := by
  cases sz <;> rfl

theorem acquired_iff {u v : State} (hl : v.curWave.lanes = u.curWave.lanes) (n : Nat) :
    (if v.curWave.lanes = [] then v else acquiredAt v n) =
      if u.curWave.lanes ≠ [] ∧ 2 ≤ n then v.checkInAll (coreOfWave v.cur) [] else v := by
  rw [hl]
  by_cases hn : u.curWave.lanes = []
  · rw [if_pos hn, if_neg fun h => h.1 hn]
  · simp only [hn, if_false, ne_eq, not_false_eq_true, true_and, acquiredAt]

/-! ## Atomics (R296, R297) -/

section Atomic
variable {s u : State} {i : Instr} {op : AtomOp} {d a : Reg} {f : Low} {sc : Scope} {r : Order}

/-- An acquire with an active lane checks the core's copies in. -/
def atomicAcquired (v : State) (f : Low) (a : Reg) (sc : Scope) (r : Order) : State :=
  if acquires r && v.curWave.lanes != [] then acquiredAt v (v.widest f a .atomic sc) else v

theorem curWave_atomicAcquired (v : State) (f : Low) (a : Reg) (sc : Scope) (r : Order) :
    (atomicAcquired v f a sc r).cur = v.cur ∧ (atomicAcquired v f a sc r).curWave = v.curWave := by
  unfold atomicAcquired
  split
  · exact curWave_acquiredAt ..
  · exact ⟨rfl, rfl⟩

/-- The operation of an atomic: D holds its data, after the compare value of ACAS. -/
def atomicOp (u : State) (i : Instr) (op : AtomOp) (d a : Reg) (f : Low) (sc : Scope) (r : Order) : MemOp :=
  { (atomicAcquired (u.issuedBy i) f a sc r).opOf i (.atomic op u.curWave.ty) (some f.val)
      ((u.issuedBy i).curWave.memVa f a) (4 * u.curWave.vcount)
      (laneData u (if op = .cas then d + u.curWave.vcount else d) u.curWave.vcount)
      (fun l => if op = .cas then laneData u d u.curWave.vcount l else []) (regsFrom d u.curWave.vcount) with
    order := r, scope := some sc }

/-- What a release waits for is what the model's preparation does, written as a proposition. -/
theorem releasePrep_eq (t : State) : (if releases r && t.curWave.lanes != [] then t.fencePrep (t.widest f a .atomic sc) else .ok t) =
    (if (r = .rel ∨ r = .ar) ∧ t.curWave.lanes ≠ [] then t.fencePrep (t.widest f a .atomic sc) else .ok t) := by
  refine if_congr ?_ rfl rfl
  cases r <;> simp [releases]

theorem atomic_begins (h : IssuesAfter s (fun t => if (r = .rel ∨ r = .ar) ∧ t.curWave.lanes ≠ [] then
      t.fencePrep (t.widest f a .atomic sc) else .ok t) i u) :
    s.atomic i op d a f sc r =
      .next ((atomicAcquired (u.issuedBy i) f a sc r).begin_ (atomicOp u i op d a f sc r)) := by
  have hvcount : (u.issuedBy i).curWave.vcount = u.curWave.vcount := by rw [State.issuedBy_curWave, Wave.issued_vcount]
  have hty : (u.issuedBy i).curWave.ty = u.curWave.ty := by rw [State.issuedBy_curWave, Wave.issued_ty]
  rw [atomicOp, ← issuedBy_laneBytes, ← hvcount, ← hty]
  exact issueWith_next (issuesAfter_of_prep_eq h (releasePrep_eq s))

theorem atomicAcquired_issuedBy : atomicAcquired (u.issuedBy i) f a sc r =
    if (r = .acq ∨ r = .ar) ∧ u.curWave.lanes ≠ [] ∧ 2 ≤ (u.issuedBy i).widest f a .atomic sc then
      (u.issuedBy i).checkInAll (coreOfWave (u.issuedBy i).cur) [] else u.issuedBy i := by
  unfold atomicAcquired acquiredAt
  rw [issuedBy_lanes]
  by_cases hr : r = .acq ∨ r = .ar
  · have hacq : acquires r = true := by obtain rfl | rfl := hr <;> rfl
    by_cases hl : u.curWave.lanes = [] <;> simp [hr, hacq, hl]
  · have hacq : acquires r = false := by cases r <;> first | rfl | simp at hr
    simp [hr, hacq]

end Atomic

/-- The ten atomics with the operator of each. -/
def atomicForms (d a : Reg) (f : Low) (sc : Scope) (r : Order) (la : Ahead) : List (Instr × AtomOp) :=
  [(Instr.aadd d a f sc r la, AtomOp.add), (.amin d a f sc r la, .min), (.amax d a f sc r la, .max),
    (.aand d a f sc r la, .and), (.aor d a f sc r la, .or), (.axor d a f sc r la, .xor), (.axchg d a f sc r la, .xchg),
    (.acas d a f sc r la, .cas), (.afadd d a f sc r la, .fadd), (.ainc d a f sc r la, .inc)]

theorem exec_atomicForm (s : State) {d a : Reg} {f : Low} {sc : Scope} {r : Order} {la : Ahead} {i : Instr} {op : AtomOp}
    (h : (i, op) ∈ atomicForms d a f sc r la) : exec i s = s.atomic i op d a f sc r := by
  simp only [atomicForms, List.mem_cons, List.not_mem_nil, or_false, Prod.mk.injEq] at h
  rcases h with h | h | h | h | h | h | h | h | h | h <;>
  · obtain ⟨rfl, rfl⟩ := h
    rfl

/-- The lesser and the greater of two values by the type's order, which one the model takes not mattering where they are equal. -/
theorem atomEval_order {a : Atom} {e x y old : Nat} (he : e = if a.ty.elem = 64 then 64 else 32) (hx : x = old % 2 ^ e)
    (hy : y = a.data.toNat % 2 ^ e) (h : if a.ty.signed = true then toSigned e x ≤ toSigned e y else x ≤ y) :
    atomEval { a with op := .min } old = x ∧ atomEval { a with op := .max } old = y := by
  have hlt : x = y ∨ (if a.ty.signed then decide (toSigned e x < toSigned e y) else decide (x < y)) = true := by
    split at h
    · next hs =>
      obtain heq | hlt := h.eq_or_lt
      · exact .inl (toSigned_inj (hx ▸ Nat.mod_lt _ (Nat.two_pow_pos e)) (hy ▸ Nat.mod_lt _ (Nat.two_pow_pos e)) heq)
      · exact .inr (by simpa [hs] using hlt)
    · next hs =>
      obtain heq | hlt := h.eq_or_lt
      · exact .inl heq
      · exact .inr (by simpa [hs] using hlt)
  simp only [atomEval, ← he, ← hx, ← hy]
  obtain heq | hlt := hlt
  · simp [heq]
  · simp [hlt]

theorem atomEval_order_not {a : Atom} {e x y old : Nat} (he : e = if a.ty.elem = 64 then 64 else 32) (hx : x = old % 2 ^ e)
    (hy : y = a.data.toNat % 2 ^ e) (h : ¬ if a.ty.signed = true then toSigned e x ≤ toSigned e y else x ≤ y) :
    atomEval { a with op := .min } old = y ∧ atomEval { a with op := .max } old = x := by
  have hlt : (if a.ty.signed then decide (toSigned e x < toSigned e y) else decide (x < y)) = false := by
    split at h
    · next hs => simpa [hs] using (not_le.1 h).le
    · next hs => simpa [hs] using (not_le.1 h).le
  simp only [atomEval, ← he, ← hx, ← hy, hlt]
  exact ⟨rfl, rfl⟩

/-- Settles O31: an atomic is `State.atomic` with an operator of its own (its scope at a release and an acquire is log 25, the
sign-extended base log 53); its operators are those of `atomEval`. -/
theorem atomicsBegin : Obligations.AtomicsBegin := by
  unfold Obligations.AtomicsBegin
  refine ⟨fun s u d a f sc r la i op hi h => ?_, fun t d c old => ?_⟩
  · obtain ⟨hcur, hwave⟩ := curWave_atomicAcquired (u.issuedBy i) f a sc r
    refine ⟨atomicOp u i op d a f sc r, accessOf_opOf (hcur.trans (State.issuedBy_cur u i)) hwave .., rfl, rfl, rfl, ?_⟩
    rw [exec_atomicForm s hi, atomic_begins h, atomicAcquired_issuedBy]
  · intro e x y g le
    have hmin := atomEval_order (a := { op := .min, ty := t, data := d, cmp := c }) (e := e) (x := x) (y := y) (old := old)
      rfl rfl rfl
    have hmax := atomEval_order_not (a := { op := .min, ty := t, data := d, cmp := c }) (e := e) (x := x) (y := y) (old := old)
      rfl rfl rfl
    exact ⟨rfl, rfl, rfl, rfl, rfl, hmin, hmax, rfl, rfl⟩

end Sys2Proof.Proofs

/-! PROOFS. Synchronisation (12/R309, R310, 04/R107): what an arrival at a barrier and at a superstep leaves, ready or not. -/

namespace Sys2Proof.Proofs

open Sys2Proof.Machine

open Sys2Proof.Safety

/-! ## Workgroups -/

section Groups
variable {s : State} {n : Nat} {g : Workgroup}

theorem wg_modWg (h : s.wg n = some g) (f : Workgroup → Workgroup) : (s.modWg n f).wg n = some (f g) := find_update_same h f

theorem wg_swap (gang : Nat) (h : s.wg n = some g) :
    (s.swap gang).wg n = some (if g.gang = gang then { g with cur := !g.cur, ssarr := 0 } else g) :=
  (find_map s.wgs (fun k : Workgroup => if k.gang = gang then { k with cur := !k.cur, ssarr := 0 } else k) n).trans
    (by rw [show Sparse.find s.wgs n = some g from h, Option.map_some])

end Groups

/-! ## BAR (R309) -/

/-- A barrier with an arrival. -/
def arrivedAt (old : Barrier) (wid : Nat) : Barrier := { old with arrived := old.arrived ||| 2 ^ wid }

/-- A workgroup with barrier b replaced. -/
def withBar (s : State) (b : Nat) (x : Barrier) : State := s.modWg s.curWave.wg (fun k => { k with
  bars := (List.range 8).map (fun i => if i = b then x else k.bar i) })

/-- A wave that has arrived, with what it found. -/
def arrivedWave (w : Wave) (found : Bool) : Wave := { w with stage := 1, arg := if found then 1 else 0 }

section Bar
variable {s : State} {b : Nat} {g : Workgroup} (hg : s.wg s.curWave.wg = some g)
include hg

theorem barPrep_first (hst : s.curWave.stage = 0) : s.barPrep b =
    let new := (arrivedAt (g.bar b) s.curWave.wid).settle g.departed g.all
    let t := (withBar s b new).setCur (arrivedWave s.curWave (g.bar b).phase)
    if new.phase ≠ (g.bar b).phase then .ok t else .wait t := by
  rw [State.barPrep, hg]
  exact if_pos hst

theorem barPrep_last (hst : s.curWave.stage = 0)
    (hlast : ((g.bar b).arrived ||| 2 ^ s.curWave.wid ||| g.departed) &&& g.all = g.all) : s.barPrep b =
      .ok ((withBar s b { arrived := 0, phase := !(g.bar b).phase }).setCur (arrivedWave s.curWave (g.bar b).phase)) := by
  have hsettle : (arrivedAt (g.bar b) s.curWave.wid).settle g.departed g.all = { arrived := 0, phase := !(g.bar b).phase } :=
    if_pos hlast
  rw [barPrep_first hg hst, hsettle]
  exact if_pos (by simp)

theorem barPrep_early (hst : s.curWave.stage = 0)
    (hlast : ¬ ((g.bar b).arrived ||| 2 ^ s.curWave.wid ||| g.departed) &&& g.all = g.all) : s.barPrep b =
      .wait ((withBar s b (arrivedAt (g.bar b) s.curWave.wid)).setCur (arrivedWave s.curWave (g.bar b).phase)) := by
  have hsettle : (arrivedAt (g.bar b) s.curWave.wid).settle g.departed g.all = arrivedAt (g.bar b) s.curWave.wid :=
    if_neg hlast
  rw [barPrep_first hg hst, hsettle]
  exact if_neg (by simp [arrivedAt])

theorem barPrep_arrived (hst : s.curWave.stage ≠ 0) :
    s.barPrep b = if (if (g.bar b).phase then 1 else 0) ≠ s.curWave.arg then .ok s else .wait s := by
  rw [State.barPrep, hg]
  exact if_neg hst

end Bar

/-! ## SSTEP (R107, R310) -/

/-- A superstep's arrival. -/
def arriveStep (s : State) (g : Workgroup) : State :=
  (s.modWg s.curWave.wg (fun k => { k with ssarr := k.ssarr ||| 2 ^ s.curWave.wid })).setCur (arrivedWave s.curWave g.cur)

section Superstep
variable {s : State} {g : Workgroup} (hg : s.wg s.curWave.wg = some g)
include hg

theorem wg_arriveStep : (arriveStep s g).wg s.curWave.wg = some { g with ssarr := g.ssarr ||| 2 ^ s.curWave.wid } :=
  wg_modWg hg _

theorem sstepPrep_first (hst : s.curWave.stage = 0) : s.sstepPrep =
    if (arriveStep s g).swapReady g.gang = true then .ok ((arriveStep s g).swap g.gang) else .wait (arriveStep s g) := by
  have harr : (if s.curWave.stage = 0 then arriveStep s g else s) = arriveStep s g := if_pos hst
  have hwave : ∀ x, ((arriveStep s g).swap x).curWave = arrivedWave s.curWave g.cur := fun x => State.curWave_setCur ..
  have hprep : s.sstepPrep =
      (let t := if s.curWave.stage = 0 then arriveStep s g else s
       let u := if t.swapReady g.gang then t.swap g.gang else t
       if (if ((u.wg s.curWave.wg).map (·.cur)).getD false then 1 else 0) ≠ u.curWave.arg then .ok u else .wait u) := by
    rw [State.sstepPrep, hg]
    rfl
  rw [hprep, harr]
  dsimp only
  split
  · rw [wg_swap _ (wg_arriveStep hg), hwave, if_pos]
    simp only [arrivedWave]
    cases g.cur <;> simp
  · rw [wg_arriveStep hg, if_neg]
    rw [arriveStep, State.curWave_setCur]
    simp [arrivedWave]

theorem sstepPrep_arrived (hst : s.curWave.stage ≠ 0) (hready : s.swapReady g.gang = false) :
    s.sstepPrep = if (if g.cur then 1 else 0) ≠ s.curWave.arg then .ok s else .wait s := by
  rw [State.sstepPrep, hg]
  dsimp only
  rw [if_neg hst, hready, if_neg Bool.false_ne_true, hg]
  rfl

end Superstep

section Arrivals
variable {s : State} {g : Workgroup} (hg : s.wg s.curWave.wg = some g)
include hg

theorem exec_bar {b : Low} {la : Ahead} (h : passes s (.bar b la) = true) :
    (s.curWave.stage = 0 → ((g.bar b).arrived ||| 2 ^ s.curWave.wid ||| g.departed) &&& g.all = g.all →
      exec (.bar b la) s = .next ((withBar s b { arrived := 0, phase := !(g.bar b).phase }).issuedBy (.bar b la))) ∧
    (s.curWave.stage = 0 → ¬ ((g.bar b).arrived ||| 2 ^ s.curWave.wid ||| g.departed) &&& g.all = g.all →
      exec (.bar b la) s = .next ((withBar s b (arrivedAt (g.bar b) s.curWave.wid)).setCur
        (arrivedWave s.curWave (g.bar b).phase)).hold) ∧
    (s.curWave.stage ≠ 0 → s.curWave.arg ≠ (if (g.bar b).phase then 1 else 0) →
      exec (.bar b la) s = .next (s.issuedBy (.bar b la))) ∧
    (s.curWave.stage ≠ 0 → s.curWave.arg = (if (g.bar b).phase then 1 else 0) → exec (.bar b la) s = .next s.hold) := by
  have hexec : exec (.bar b la) s = s.issueWith (.bar b la) none (fun t => t.barPrep b) (fun t => t) := rfl
  rw [hexec]
  refine ⟨fun hst hl => ?_, fun hst hl => issueWith_holds_of_wait h (barPrep_early hg hst hl), fun hst ha => ?_,
    fun hst ha => ?_⟩
  · rw [issueWith_issues_of_ok h rfl (barPrep_last hg hst hl)]
    exact congrArg Host.Outcome.next (issuedBy_setStage (s := withBar s b _) rfl)
  · rw [issueWith_issues_of_ok h rfl ((barPrep_arrived hg hst).trans (if_pos (Ne.symm ha)))]
  · exact issueWith_holds h ((barPrep_arrived hg hst).trans (if_neg (not_not.2 ha.symm)))

theorem exec_sstep {la : Ahead} (h : passes s (.sstep la) = true) :
    (s.curWave.stage = 0 → (arriveStep s g).swapReady g.gang = true →
      exec (.sstep la) s = .next (((arriveStep s g).swap g.gang).issuedBy (.sstep la))) ∧
    (s.curWave.stage = 0 → (arriveStep s g).swapReady g.gang = false → exec (.sstep la) s = .next (arriveStep s g).hold) ∧
    (s.curWave.stage ≠ 0 → s.swapReady g.gang = false → s.curWave.arg ≠ (if g.cur then 1 else 0) →
      exec (.sstep la) s = .next (s.issuedBy (.sstep la))) := by
  have hexec : exec (.sstep la) s = s.issueWith (.sstep la) none State.sstepPrep (fun t => t) := rfl
  rw [hexec]
  refine ⟨fun hst hr => ?_, fun hst hr => ?_, fun hst hr ha => ?_⟩
  · rw [issueWith_issues_of_ok h rfl ((sstepPrep_first hg hst).trans (if_pos hr))]
  · rw [issueWith_holds_of_wait h ((sstepPrep_first hg hst).trans (if_neg (Bool.eq_false_iff.1 hr)))]
  · rw [issueWith_issues_of_ok h rfl ((sstepPrep_arrived hg hst hr).trans (if_pos (Ne.symm ha)))]

end Arrivals

/-! ## Threads in the order of their keys (R344) -/

/-- A thread comes before another: by key, and by lane where the keys are equal. -/
def ThreadBefore (x y : Thread) : Prop := x.key < y.key ∨ (x.key = y.key ∧ x.lane < y.lane)

theorem insertThread_perm (x : Thread) (ys : List Thread) : (insertThread x ys).Perm (x :: ys) := by
  induction ys with
  | nil => exact .refl _
  | cons y r ih =>
    rw [insertThread]
    split
    · exact .refl _
    · exact (ih.cons y).trans (.swap ..)

theorem sortThreads_perm (xs : List Thread) : (sortThreads xs).Perm xs := by
  induction xs with
  | nil => exact .refl _
  | cons x r ih => exact (insertThread_perm ..).trans (ih.cons x)

theorem insertThread_pairwise {x : Thread} {ys : List Thread} (hx : ∀ y ∈ ys, x.lane < y.lane) (h : ys.Pairwise ThreadBefore) :
    (insertThread x ys).Pairwise ThreadBefore := by
  induction ys with
  | nil => exact List.pairwise_singleton ..
  | cons y r ih =>
    obtain ⟨hy, hr⟩ := List.pairwise_cons.1 h
    rw [insertThread]
    split
    · next hle =>
      refine List.pairwise_cons.2 ⟨fun z hz => ?_, h⟩
      have hkey : y.key ≤ z.key := by
        obtain rfl | hz := List.mem_cons.1 hz
        · exact le_rfl
        · obtain hlt | ⟨heq, -⟩ := hy z hz
          · exact hlt.le
          · exact heq.le
      obtain hlt | heq := (hle.trans hkey).lt_or_eq
      · exact .inl hlt
      · exact .inr ⟨heq, hx z hz⟩
    · next hle =>
      refine List.pairwise_cons.2 ⟨fun z hz => ?_, ih (fun z hz => hx z (List.mem_cons_of_mem _ hz)) hr⟩
      obtain rfl | hz := List.mem_cons.1 ((insertThread_perm x r).mem_iff.1 hz)
      · exact .inl (by omega)
      · exact hy z hz

theorem sortThreads_pairwise {xs : List Thread} (h : xs.Pairwise (fun x y => x.lane < y.lane)) :
    (sortThreads xs).Pairwise ThreadBefore := by
  induction xs with
  | nil => exact .nil
  | cons x r ih =>
    obtain ⟨hx, hr⟩ := List.pairwise_cons.1 h
    exact insertThread_pairwise (fun y hy => hx y ((sortThreads_perm r).mem_iff.1 hy)) (ih hr)

/-! ## A thread moved to another lane (R344) -/

/-- The thread of a lane of a wave. -/
def threadOf (id : Nat) (w : Wave) (keys : List Word) (live : List Nat) (l : Nat) : Thread :=
  { wave := id, lane := l, key := (keys.getD l 0).toNat, tid := w.tid.getD l 0, vals := live.map (fun n => w.v n l),
    mks := live.map (fun n => w.vmark n l) }

/-- A register of a thread written to a lane, with its mark. -/
def putReg (m : Nat) (acc : Wave) (e : Nat × Word × Mark) : Wave :=
  (acc.lwrite (acc.wb + e.1) (fun l => if l = m then some e.2.1 else none)).setLmark (acc.wb + e.1) m e.2.2

/-- The thread of lane p.2 of wave w moved to lane p.1 of a wave. -/
def moveThread (w : Wave) (live : List Nat) (acc : Wave) (p : Nat × Nat) : Wave :=
  (live.map (fun n => (n, w.v n p.2, w.vmark n p.2))).foldl (putReg p.1)
    { acc with tid := putAt acc.tid p.1 (w.tid.getD p.2 0) }

theorem putReg_writesReg (m b : Nat) :
    WritesReg b (putReg m) (fun e => b + e.1) (fun e l => if l = m then some e.2.1 else none) := by
  rintro v x rfl
  rfl

theorem getD_putAt (xs : List Nat) (i v j : Nat) : (putAt xs i v).getD j 0 = if j = i then v else xs.getD j 0 := by
  rw [putAt]
  by_cases hj : j < Nat.max xs.length (i + 1)
  · simp [List.getD_eq_getElem?_getD, hj]
  · have hlen : xs.length ≤ j ∧ i + 1 ≤ j := Nat.max_le.1 (Nat.not_lt.1 hj)
    simp [List.getD_eq_getElem?_getD, hj, hlen.1]
    omega

section Move
variable {w acc : Wave} {live : List Nat} {p : Nat × Nat}

theorem moveThread_eq : moveThread w live acc p =
    { acc with tid := putAt acc.tid p.1 (w.tid.getD p.2 0), regs := (moveThread w live acc p).regs,
               rpoison := (moveThread w live acc p).rpoison } :=
  (putReg_writesReg p.1 acc.wb).foldl_eq (w := { acc with tid := putAt acc.tid p.1 (w.tid.getD p.2 0) }) rfl _

theorem lreg_moveThread_other {j l : Nat} (hl : l < acc.width) (hp : l ≠ p.1) :
    (moveThread w live acc p).lreg j l = acc.lreg j l :=
  (putReg_writesReg p.1 acc.wb).lreg_outside (w := { acc with tid := putAt acc.tid p.1 (w.tid.getD p.2 0) }) rfl hl
    fun _ _ _ => if_neg hp

theorem lreg_moveThread_same {n : Nat} (hl : p.1 < acc.width) (hlive : live.Nodup) (hn : n ∈ live)
    (hh : holds acc (acc.wb + n) = true) : (moveThread w live acc p).lreg (acc.wb + n) p.1 = w.v n p.2 := by
  refine (putReg_writesReg p.1 acc.wb).lreg_inside (w := { acc with tid := putAt acc.tid p.1 (w.tid.getD p.2 0) })
    (x := (n, w.v n p.2, w.vmark n p.2)) rfl ?_ (List.mem_map.2 ⟨n, hn, rfl⟩) hl hh (if_pos rfl)
  rw [List.map_map]
  exact hlive.map fun a b hab => Nat.add_left_cancel hab

end Move

/-- What threads moved one after another leave of a lane: its thread number and its live registers. -/
def LaneHolds (w : Wave) (live : List Nat) (acc : Wave) (l m : Nat) : Prop :=
  acc.tid.getD l 0 = w.tid.getD m 0 ∧ ∀ n ∈ live, acc.v n l = w.v n m

section Moves
variable {w : Wave} {live : List Nat}

theorem foldl_moveThread_eq (ps : List (Nat × Nat)) (acc : Wave) : ps.foldl (moveThread w live) acc =
    { acc with tid := (ps.foldl (moveThread w live) acc).tid, regs := (ps.foldl (moveThread w live) acc).regs,
               rpoison := (ps.foldl (moveThread w live) acc).rpoison } := by
  induction ps generalizing acc with
  | nil => rfl
  | cons p r ih => rw [List.foldl_cons, ih, moveThread_eq]

theorem LaneHolds.foldl {acc : Wave} {l m : Nat} (h : LaneHolds w live acc l m) {ps : List (Nat × Nat)} (hl : l < acc.width)
    (hp : l ∉ ps.map (·.1)) : LaneHolds w live (ps.foldl (moveThread w live) acc) l m := by
  induction ps generalizing acc with
  | nil => exact h
  | cons p r ih =>
    obtain ⟨hne, hr⟩ := not_or.1 (mt List.mem_cons.2 hp)
    have hmove := moveThread_eq (w := w) (live := live) (acc := acc) (p := p)
    refine ih ⟨?_, fun n hn => ?_⟩ (by rw [hmove]; exact hl) hr
    · rw [hmove]
      exact (getD_putAt ..).trans ((if_neg hne).trans h.1)
    · have hwb : (moveThread w live acc p).wb = acc.wb := by rw [hmove]
      rw [Wave.v, hwb, lreg_moveThread_other hl hne]
      exact h.2 n hn

/-- Lanes all different, each holds the thread moved to it. -/
theorem laneHolds_of_mem {acc : Wave} {ps : List (Nat × Nat)} (hps : (ps.map (·.1)).Nodup) (hlive : live.Nodup)
    (hh : ∀ n ∈ live, holds acc (acc.wb + n) = true) {p : Nat × Nat} (hp : p ∈ ps) (hl : p.1 < acc.width) :
    LaneHolds w live (ps.foldl (moveThread w live) acc) p.1 p.2 := by
  induction ps generalizing acc with
  | nil => cases hp
  | cons q r ih =>
    obtain ⟨hnot, hr⟩ := List.nodup_cons.1 hps
    have hmove := moveThread_eq (w := w) (live := live) (acc := acc) (p := q)
    have hlq : p.1 < (moveThread w live acc q).width := by
      rw [hmove]
      exact hl
    rcases List.mem_cons.1 hp with rfl | hp
    · refine LaneHolds.foldl (acc := moveThread w live acc p) ⟨?_, fun n hn => ?_⟩ hlq hnot
      · rw [hmove]
        exact (getD_putAt ..).trans (if_pos rfl)
      · have hwb : (moveThread w live acc p).wb = acc.wb := by rw [hmove]
        rw [Wave.v, hwb, lreg_moveThread_same hl hlive hn (hh n hn)]
    · refine ih hr (fun n hn => ?_) hp hlq
      rw [hmove]
      exact hh n hn

end Moves

/-! ## REORD of a lone wave (R344) -/

/-- The number after the highest register of a mask. -/
def liveTop (m : Dword) : Nat := ((liveRegs m).getLast?.map (· + 1)).getD 0

theorem mem_liveRegs {m : Dword} {n : Nat} : n ∈ liveRegs m ↔ n < 64 ∧ bitOf m n = true := by
  rw [liveRegs, List.mem_filter, List.mem_range]

theorem liveTop_le {m : Dword} {b h : Nat} (hb : b ≤ h) (hm : ∀ n, n < 64 → bitOf m n = true → b + n < h) :
    b + liveTop m ≤ h := by
  rw [liveTop]
  cases hlast : (liveRegs m).getLast? with
  | none => exact hb
  | some n =>
    obtain ⟨hn, hbit⟩ := mem_liveRegs.1 (List.mem_of_getLast? hlast)
    exact hm n hn hbit

theorem zip_map_map {α β γ : Type} (xs : List α) (f : α → β) (g : α → γ) :
    xs.zip ((xs.map f).zip (xs.map g)) = xs.map (fun x => (x, f x, g x)) := by
  induction xs with
  | nil => rfl
  | cons x r ih => simp [ih]

section Threads
variable {s t : State} {id : Nat} {w : Wave} {keys : List Word} {live : List Nat}

theorem putThread_threadOf (a b : Nat) : t.putThread live (threadOf id w keys live a, threadOf id w keys live b) =
    t.modWave id (fun acc => moveThread w live acc (a, b)) := by
  unfold State.putThread moveThread
  rw [← zip_map_map]
  rfl

/-- The threads of a wave that are put to lanes of it. -/
def putThreads (t : State) (id : Nat) (w : Wave) (keys : List Word) (live : List Nat) (ps : List (Nat × Nat)) : State :=
  (ps.map (fun p => (threadOf id w keys live p.1, threadOf id w keys live p.2))).foldl (fun acc x => acc.putThread live x) t

theorem putThreads_eq (ps : List (Nat × Nat)) :
    putThreads t id w keys live ps = { t with waves := (putThreads t id w keys live ps).waves } := by
  induction ps generalizing t with
  | nil => rfl
  | cons p r ih => exact (ih (t := t.putThread live _)).trans rfl

theorem wave_putThreads (ps : List (Nat × Nat)) :
    (putThreads t id w keys live ps).wave id = ps.foldl (moveThread w live) (t.wave id) := by
  induction ps generalizing t with
  | nil => rfl
  | cons p r ih =>
    refine (ih (t := t.putThread live _)).trans ?_
    rw [putThread_threadOf]
    exact congrArg (r.foldl (moveThread w live)) (Sparse.get_put_same ..)

end Threads

section Lone
variable {t : State} {n : Nat} {k : Workgroup} {a : ReordArr}

/-- The arrival of a lone wave is that of all. -/
theorem reordTry_lone (hk : t.wg n = some k) (hw : k.waves = [a.wave]) (hr : k.reord = [a])
    (htop : (t.wave a.wave).wb + liveTop a.live ≤ (t.wave a.wave).hi) :
    t.reordTry n = (((t.threadsOf a (liveRegs a.live)).zip (sortThreads (t.threadsOf a (liveRegs a.live)))).foldl
      (fun acc x => acc.putThread (liveRegs a.live) x) t).modWg n (fun x => { x with reord := [] }) := by
  have harrived : ((maskOf k.waves.length (fun i => k.reord.any (fun x => x.wave == k.waves.getD i 0))) ||| k.departed) &&&
      k.all = k.all := by
    have hone : maskOf k.waves.length (fun i => k.reord.any (fun x => x.wave == k.waves.getD i 0)) = 1 := by
      simp [hw, hr, maskOf]
    have hall : k.all = 1 := by simp [Workgroup.all, hw]
    rw [hone, hall, Nat.and_or_distrib_right]
    refine Nat.eq_of_testBit_eq fun j => ?_
    rw [Nat.testBit_or, Nat.testBit_and, Nat.testBit_and]
    cases Nat.testBit 1 j <;> simp
  have horder : k.waves.filterMap (fun id => k.reord.find? (fun x => x.wave == id)) = [a] := by simp [hw, hr]
  have hres : reordResident [a] (liveTop a.live) t = .ok t := by
    rw [reordResident, if_neg (by omega)]
    rfl
  unfold State.reordTry
  rw [hk]
  dsimp only
  rw [horder, if_neg (by rw [not_or, not_not]; exact ⟨by simp [hr], harrived⟩)]
  have hlive : [a].foldl (fun acc x => acc ||| x.live) (0 : Dword) = a.live := BitVec.zero_or
  rw [hlive, show ((liveRegs a.live).getLast?.map (· + 1)).getD 0 = liveTop a.live from rfl, hres]
  simp

end Lone

/-- The arrival of the wave that moves. -/
def reordArrival (s : State) (d a : Nat) : ReordArr :=
  { wave := s.cur, p := s.curWave.exm, keys := (List.range s.curWave.width).map (fun l => s.curWave.v d l),
    live := s.curWave.v64 a s.curWave.uniform }

/-- The lanes that hold a thread. -/
def threadLanes (w : Wave) : List Nat := (List.range w.width).filter (bitOf w.exm)

/-- Those lanes in the order of their threads' keys. -/
def keyOrder (s : State) (d a : Nat) : List Nat :=
  (sortThreads ((threadLanes s.curWave).map (threadOf s.cur s.curWave (reordArrival s d a).keys
    (liveRegs (reordArrival s d a).live)))).map (·.lane)

/-- The wave that moves, once it has arrived. -/
def arriveReord (s : State) (d a : Nat) : State :=
  (s.modWg s.curWave.wg (fun k => { k with reord := k.reord ++ [reordArrival s d a] })).setCur { s.curWave with stage := 1 }

/-- REORD of a lone wave, performed. -/
def reordered (s : State) (d a : Nat) : State :=
  (putThreads (arriveReord s d a) s.cur s.curWave (reordArrival s d a).keys (liveRegs (reordArrival s d a).live)
    ((threadLanes s.curWave).zip (keyOrder s d a))).modWg s.curWave.wg (fun k => { k with reord := [] })

theorem map_lane_threadOf (id : Nat) (w : Wave) (keys : List Word) (live ls : List Nat) :
    (ls.map (threadOf id w keys live)).map (·.lane) = ls := by
  rw [List.map_map]
  exact List.map_id _

section Reord
variable {s : State} {d a : Nat} {g : Workgroup}

theorem keyOrder_perm : (keyOrder s d a).Perm (threadLanes s.curWave) := by
  have hperm := (sortThreads_perm ((threadLanes s.curWave).map (threadOf s.cur s.curWave (reordArrival s d a).keys
    (liveRegs (reordArrival s d a).live)))).map (·.lane)
  rwa [map_lane_threadOf] at hperm

/-- The threads sorted are those of the lanes in the order of their keys. -/
theorem sortThreads_eq : sortThreads ((threadLanes s.curWave).map (threadOf s.cur s.curWave (reordArrival s d a).keys
    (liveRegs (reordArrival s d a).live))) = (keyOrder s d a).map (threadOf s.cur s.curWave (reordArrival s d a).keys
    (liveRegs (reordArrival s d a).live)) := by
  rw [keyOrder, List.map_map]
  refine (List.map_id _).symm.trans (List.map_congr_left fun x hx => ?_)
  obtain ⟨l, -, rfl⟩ := List.mem_map.1 ((sortThreads_perm _).mem_iff.1 hx)
  rfl

theorem key_arrival {l : Nat} (hl : l < s.curWave.width) : (reordArrival s d a).keys.getD l 0 = s.curWave.v d l := by
  simp [reordArrival, List.getD_eq_getElem?_getD, hl]

theorem keyOrder_pairwise : (keyOrder s d a).Pairwise (fun l m => (s.curWave.v d l).toNat < (s.curWave.v d m).toNat ∨
    (s.curWave.v d l = s.curWave.v d m ∧ l < m)) := by
  have hlanes : (threadLanes s.curWave).Pairwise (· < ·) := List.pairwise_lt_range.filter _
  have hsorted := sortThreads_pairwise (List.pairwise_map.2 (hlanes.imp (S := fun l m =>
    (threadOf s.cur s.curWave (reordArrival s d a).keys (liveRegs (reordArrival s d a).live) l).lane <
    (threadOf s.cur s.curWave (reordArrival s d a).keys (liveRegs (reordArrival s d a).live) m).lane) id))
  rw [sortThreads_eq] at hsorted
  have hwidth : ∀ l ∈ keyOrder s d a, l < s.curWave.width := fun l hl =>
    List.mem_range.1 (List.mem_of_mem_filter (keyOrder_perm.mem_iff.1 hl))
  refine (List.pairwise_map.1 hsorted).imp_of_mem fun {l m} hl hm h => ?_
  rw [← key_arrival (a := a) (hwidth l hl), ← key_arrival (a := a) (hwidth m hm)]
  exact h.imp_right fun h => ⟨BitVec.eq_of_toNat_eq h.1, h.2⟩

section Alone
variable (hg : s.wg s.curWave.wg = some g) (hr : g.reord = []) (hw : g.waves = [s.cur])
  (htop : s.curWave.wb + liveTop (reordArrival s d a).live ≤ s.curWave.hi)
include hg hr hw htop

theorem reordTry_arriveReord : (arriveReord s d a).reordTry s.curWave.wg = reordered s d a := by
  have hwave : (arriveReord s d a).wave s.cur = { s.curWave with stage := 1 } := State.curWave_setCur ..
  have hthreads : (arriveReord s d a).threadsOf (reordArrival s d a) (liveRegs (reordArrival s d a).live) =
      (threadLanes s.curWave).map (threadOf s.cur s.curWave (reordArrival s d a).keys
        (liveRegs (reordArrival s d a).live)) := by
    unfold State.threadsOf
    rw [show (reordArrival s d a).wave = s.cur from rfl, hwave]
    rfl
  have hk : (arriveReord s d a).wg s.curWave.wg = some { g with reord := g.reord ++ [reordArrival s d a] } := wg_modWg hg _
  rw [reordTry_lone (a := reordArrival s d a) hk hw (by simp [hr])
    (by rw [show (reordArrival s d a).wave = s.cur from rfl, hwave]; exact htop), hthreads, sortThreads_eq, List.zip_map,
    reordered, putThreads]
  rfl

theorem reordPrep_lone (hst : s.curWave.stage = 0) : s.reordPrep d a = .ok (reordered s d a) := by
  have hk : (arriveReord s d a).wg s.curWave.wg = some { g with reord := g.reord ++ [reordArrival s d a] } := wg_modWg hg _
  have hlive : (((arriveReord s d a).wg s.curWave.wg).map (·.reord)).getD [] = [reordArrival s d a] := by
    rw [hk, Option.map_some, Option.getD_some, hr, List.nil_append]
  have hdone : (((reordered s d a).wg s.curWave.wg).map (·.reord)).getD [] = [] := by
    have hput : (putThreads (arriveReord s d a) s.cur s.curWave (reordArrival s d a).keys
        (liveRegs (reordArrival s d a).live) ((threadLanes s.curWave).zip (keyOrder s d a))).wg s.curWave.wg =
        some { g with reord := g.reord ++ [reordArrival s d a] } := by
      rw [putThreads_eq]
      exact hk
    rw [reordered, wg_modWg hput]
    rfl
  have hwave : (arriveReord s d a).curWave = { s.curWave with stage := 1 } := State.curWave_setCur ..
  have hprep : s.reordPrep d a =
      (let t := if s.curWave.stage = 0 then arriveReord s d a else s
       let top := s.curWave.wb + liveTop (((t.wg s.curWave.wg).map (·.reord)).getD [] |>.foldl (fun acc x => acc ||| x.live) 0)
       (if top > t.curWave.hi ∧ t.curWave.hi < s.curWave.stkmax then
          t.makeResident s.cur s.curWave.wb (Nat.min top s.curWave.stkmax) else .ok t).bind (fun u =>
        if ((((u.reordTry s.curWave.wg).wg s.curWave.wg).map (·.reord)).getD []).any (fun x => x.wave == s.cur)
          then .wait (u.reordTry s.curWave.wg) else .ok (u.reordTry s.curWave.wg))) := rfl
  rw [hprep, if_pos hst]
  dsimp only
  have hzero : [reordArrival s d a].foldl (fun acc x => acc ||| x.live) (0 : Dword) = (reordArrival s d a).live :=
    BitVec.zero_or
  rw [hlive, hzero, if_neg (by rw [hwave]; exact fun h => absurd h.1 (not_lt.2 htop)), Move.bind,
    reordTry_arriveReord hg hr hw htop, hdone]
  rfl

end Alone

theorem wave_reordered : (reordered s d a).curWave = ((threadLanes s.curWave).zip (keyOrder s d a)).foldl
    (moveThread s.curWave (liveRegs (reordArrival s d a).live)) { s.curWave with stage := 1 } := by
  have hcur : (reordered s d a).cur = s.cur := by
    rw [reordered, putThreads_eq]
    rfl
  have hwave : (arriveReord s d a).wave s.cur = { s.curWave with stage := 1 } := State.curWave_setCur ..
  rw [State.curWave, hcur, ← hwave]
  exact wave_putThreads ..

theorem mem_reordered : (reordered s d a).mem = s.mem := by
  rw [reordered, putThreads_eq]
  rfl

/-- Each lane has the thread that comes in its place. -/
theorem laneHolds_reordered (hh : ∀ n ∈ liveRegs (reordArrival s d a).live, holds s.curWave (s.curWave.wb + n) = true)
    {i : Nat} (hi : i < (threadLanes s.curWave).length) :
    LaneHolds s.curWave (liveRegs (reordArrival s d a).live) (reordered s d a).curWave
      ((threadLanes s.curWave).getD i 0) ((keyOrder s d a).getD i 0) := by
  have hlen : (keyOrder s d a).length = (threadLanes s.curWave).length := keyOrder_perm.length_eq
  have hnodup : ((threadLanes s.curWave).zip (keyOrder s d a) |>.map (·.1)).Nodup := by
    rw [List.map_fst_zip hlen.ge]
    exact List.nodup_range.filter _
  have hlive : (liveRegs (reordArrival s d a).live).Nodup := List.nodup_range.filter _
  have hmem : ((threadLanes s.curWave).getD i 0, (keyOrder s d a).getD i 0) ∈
      (threadLanes s.curWave).zip (keyOrder s d a) := by
    rw [List.getD_eq_getElem _ _ hi, List.getD_eq_getElem _ _ (hlen ▸ hi)]
    exact List.mem_iff_getElem.2 ⟨i, by simp [hlen, hi], by simp⟩
  have hwidth : (threadLanes s.curWave).getD i 0 < s.curWave.width := by
    rw [List.getD_eq_getElem _ _ hi]
    exact List.mem_range.1 (List.mem_of_mem_filter (List.getElem_mem hi))
  rw [wave_reordered]
  exact laneHolds_of_mem (acc := { s.curWave with stage := 1 }) hnodup hlive hh hmem hwidth

end Reord

/-- Settles O37: the arrivals of BAR and SSTEP are their preparations (that they execute whatever LA holds is log 50); REORD of
a lone wave moves the thread of each lane to the one of its rank. -/
theorem barriers : Obligations.Barriers := by
  unfold Obligations.Barriers
  refine ⟨fun s b la g h hg => exec_bar hg h, fun s la g h hg => exec_sstep hg h, fun s gang => ⟨fun hr => ?_, fun hr => ?_, rfl,
    rfl, fun n k hk => wg_swap gang hk⟩, fun s d a g h hg => ?_⟩
  · exact if_pos hr
  · exact if_neg (Bool.eq_false_iff.1 hr)
  · intro w here live hst hr hw hlive hb
    have htop := liveTop_le (m := live) hb fun n hn hbit => (hlive n hn hbit).2.1
    have hexec : exec (.reord d a) s = .next ((reordered s d a).issuedBy (.reord d a)) :=
      issueWith_issues_of_ok (prep := fun t => t.reordPrep d a) (body := fun t => t) h rfl
        (reordPrep_lone hg hr hw htop hst)
    have hholds : ∀ n ∈ liveRegs live, holds w (w.wb + n) = true := fun n hn => by
      obtain ⟨hn, hbit⟩ := mem_liveRegs.1 hn
      obtain ⟨hlo, hhi, hmax⟩ := hlive n hn hbit
      simp [holds, hlo, hhi, hmax]
    have hpc : (reordered s d a).curWave.pc = w.pc := by
      rw [wave_reordered, foldl_moveThread_eq]
    refine ⟨_, keyOrder s d a, hexec, keyOrder_perm, keyOrder_pairwise, ?_, State.issuedBy_mem .. |>.trans mem_reordered,
      fun i hi => ?_⟩
    · rw [State.issuedBy_curWave, ← hpc]
      rfl
    · obtain ⟨htid, hregs⟩ := laneHolds_reordered (a := a) (d := d) hholds hi
      rw [State.issuedBy_curWave]
      exact ⟨htid, fun n hn hbit => hregs n (mem_liveRegs.2 ⟨hn, hbit⟩)⟩

end Sys2Proof.Proofs

/-! PROOFS. What an access leaves of memory as it begins (02/R34, 12/R285 to R295): until an operation ends no wave drains and no lane
of it has met a poisoned walk entry, so its end neither logs nor rewinds; what it sends changes caches and what is to come, and the
walker sets A and D bits in the leaves of its lanes. -/

namespace Sys2Proof.Proofs

open Sys2Proof.Machine

open Sys2Proof.Safety

/-! ## An operation that goes on (R42, R387) -/

/-- Operation id, where it is still held, is one of wave k, which does not drain, and no lane of it met a poisoned walk entry. -/
structure Going (id k : Nat) (s : State) : Prop where
  older : id < s.nextId
  stays : (s.wave k).status ≠ .draining
  clean : ∀ o, Sparse.find s.ops id = some o → o.wave = k ∧ ∀ x ∈ o.lanes, x.walkPoison = none

/-- A lane's phase that is no fault of a poisoned walk entry. -/
def Unpoisoned (p : LPhase) : Prop := ∀ x : LaneOp, x.phase = p → x.walkPoison = none

theorem unpoisoned_fault {c : Nat} {i : Dword} (h : (c ≠ 10 ∧ c ≠ 11) ∨ fld i 48 8 ≠ 9) : Unpoisoned (.fault c i) := by
  intro x hx
  rw [LaneOp.walkPoison, hx]
  refine if_neg ?_
  rintro ⟨hc, hi⟩
  obtain ⟨h10, h11⟩ | h := h
  · exact hc.elim h10 h11
  · exact h hi

theorem unpoisoned_xlate : Unpoisoned .xlate := fun x hx => by rw [LaneOp.walkPoison, hx]

theorem unpoisoned_sent : Unpoisoned .sent := fun x hx => by rw [LaneOp.walkPoison, hx]

theorem unpoisoned_fin : Unpoisoned .fin := fun x hx => by rw [LaneOp.walkPoison, hx]

theorem unpoisoned_writing (line : Nat) (out : Bool) : Unpoisoned (.writing line out) := fun x hx => by
  rw [LaneOp.walkPoison, hx]

/-- USE of poison that is no walk entry's. -/
theorem use_eccInfo (origin : Nat) : fld (eccInfo origin 6 false 0) 48 8 = 6 := by
  simp only [fld, bits, eccInfo, dw, BitVec.toNat_ofNat, if_neg Bool.false_ne_true]
  omega

/-- A wave's field that a change keeps is kept, whether or not the wave is there. -/
theorem wave_modLive_congr {α : Type} {g : Wave → α} {f : Wave → Wave} (hf : ∀ w, g (f w) = g w) (s : State) (k j : Nat) :
    g ((s.modLive k f).wave j) = g (s.wave j) := by
  by_cases hj : j = k
  · subst hj
    cases hw : Sparse.find s.waves j with
    | none =>
      have hsame : s.modLive j f = s := by
        unfold State.modLive Sparse.update
        rw [hw]
      rw [hsame]
    | some w => rw [wave_of_find hw, wave_of_find (find_update_same hw f : Sparse.find (s.modLive j f).waves j = _), hf]
  · exact congrArg g (Sparse.get_update_other _ _ _ hj)

/-- The phase of a piece of a record or a table that has come. -/
theorem landed_unpoisoned (m : Mark) :
    Unpoisoned (if m.origin = 0 then .fin else .fault m.cls (eccInfo m.origin 6 false 0)) := by
  split
  · exact unpoisoned_fin
  · exact unpoisoned_fault (.inr (by rw [use_eccInfo]; decide))

/-- Words that land in a lane of some registers leave the wave's status. -/
theorem status_landWords (w : Wave) (xs : List ((Nat × Word) × Nat)) (lane : Nat) (ms : List Mark) :
    (xs.foldl (fun (acc : Wave) e => (acc.lwrite e.1.1 (fun l => if l = lane then some e.1.2 else none)).setLmark e.1.1 lane
      (ms.getD e.2 Mark.none)) w).status = w.status := by
  have hwrites : WritesReg w.wb (fun (acc : Wave) (e : (Nat × Word) × Nat) =>
      (acc.lwrite e.1.1 (fun l => if l = lane then some e.1.2 else none)).setLmark e.1.1 lane (ms.getD e.2 Mark.none))
      (fun e => e.1.1) (fun e l => if l = lane then some e.1.2 else none) := fun _ _ _ => rfl
  rw [hwrites.foldl_eq rfl]

section Keeps
variable {id k : Nat} {s t : State} (h : Going id k s)
include h

theorem Going.of_eq (hn : t.nextId = s.nextId) (hw : t.waves = s.waves) (ho : t.ops = s.ops) : Going id k t := by
  obtain ⟨holder, hstays, hclean⟩ := h
  exact ⟨hn ▸ holder, by rwa [State.wave, hw], by rwa [ho]⟩

theorem Going.modLive {f : Wave → Wave} (hf : ∀ w, (f w).status = w.status) (j : Nat) : Going id k (s.modLive j f) :=
  ⟨h.older, by rw [wave_modLive_congr hf]; exact h.stays, h.clean⟩

theorem Going.modOp {f : MemOp → MemOp} (hf : ∀ o, (f o).wave = o.wave)
    (hl : ∀ o : MemOp, (∀ x ∈ o.lanes, x.walkPoison = none) → ∀ x ∈ (f o).lanes, x.walkPoison = none) :
    Going id k (s.modOp id f) := by
  refine ⟨h.older, h.stays, fun o ho => ?_⟩
  cases hs : Sparse.find s.ops id with
  | none =>
    have hsame : (s.modOp id f).ops = s.ops := by
      unfold State.modOp Sparse.update
      rw [hs]
    rw [hsame, hs] at ho
    cases ho
  | some p =>
    obtain ⟨hk, hclean⟩ := h.clean p hs
    obtain rfl := Option.some.inj ((find_update_same hs f).symm.trans ho)
    exact ⟨(hf p).trans hk, hl p hclean⟩

theorem Going.setPhase {p : LPhase} (hp : Unpoisoned p) (lanes : List Nat) :
    Going id k (s.modOp id (fun o => o.setPhase lanes p)) := by
  refine h.modOp (fun _ => rfl) fun o ho x hx => ?_
  obtain ⟨y, hy, rfl⟩ := List.mem_map.1 hx
  split
  · exact hp _ rfl
  · exact ho y hy

theorem Going.doneLanes (lanes : List Nat) : Going id k (s.doneLanes id lanes) := h.setPhase unpoisoned_fin lanes

theorem Going.foldl {α : Type} {f : State → α → State} {xs : List α} (hf : ∀ t, ∀ x ∈ xs, Going id k t → Going id k (f t x)) :
    Going id k (xs.foldl f s) := by
  induction xs generalizing s with
  | nil => exact h
  | cons x r ih =>
    exact ih (hf s x List.mem_cons_self h) fun t y hy => hf t y (List.mem_cons_of_mem _ hy)

/-! ## Copies given back (R56, R80) -/

theorem Going.checkIn (core : Nat) (c : CacheCopy) (extra : List Nat) : Going id k (s.checkIn core c extra) := by
  have hput : ∀ (t : State) (o : MemOp), Going id k t →
      Going id k { t with nextId := t.nextId + 1, ops := Sparse.put t.ops t.nextId o } := fun t o ht => by
    refine ⟨Nat.lt_succ_of_lt ht.older, ht.stays, fun p hp => ht.clean p ?_⟩
    exact (Sparse.find_put_other t.ops o ht.older.ne).symm.trans hp
  unfold State.checkIn
  dsimp only
  split
  · exact h.of_eq rfl rfl rfl
  · refine Going.of_eq (Going.foldl (s := s.setCache core _) (h.of_eq rfl rfl rfl) fun t w _ ht => hput t _ ht) rfl rfl rfl

theorem Going.giveBack (core : Nat) (c : CacheCopy) : Going id k (s.giveBack core c) := by
  by_cases hc : c.kind = .c
  · have hcheck : s.giveBack core c = s.checkIn core c [] := by
      unfold State.giveBack
      rw [hc]
    rw [hcheck]
    exact h.checkIn ..
  · rw [giveBack_eq s core hc]
    exact h.of_eq rfl rfl rfl

theorem Going.giveUp (core line : Nat) : Going id k (s.giveUp core line) := by
  unfold State.giveUp
  split
  · exact h.giveBack ..
  · exact h

/-! ## Values that come (R288, R386) -/

theorem Going.landWhole (lane : Nat) (bs : List Byte) (ms : List Mark) : Going id k (s.landWhole id lane bs ms) := by
  refine h.modOp (fun _ => rfl) fun o ho x hx => ?_
  obtain ⟨y, hy, rfl⟩ := List.mem_map.1 hx
  split
  · refine landed_unpoisoned _ _ rfl
  · exact ho y hy

theorem Going.landLane (lane : Nat) (bs : List Byte) (ms : List Mark) : Going id k (s.landLane id lane bs ms) := by
  unfold State.landLane
  split
  · exact h
  · split
    · exact h.landWhole ..
    · exact h.landWhole ..
    · refine Going.setPhase (Going.modLive h ?_ _) unpoisoned_fin _
      exact fun _ => rfl
    · refine Going.setPhase (Going.modLive h ?_ _) unpoisoned_fin _
      exact fun w => status_landWords w _ lane ms

theorem Going.landFrom (lane pa : Nat) (bs : List Byte) (ms : List Mark) : Going id k (s.landFrom id lane pa bs ms) := by
  unfold State.landFrom
  split
  · exact (h.landLane ..).of_eq rfl rfl rfl
  · exact h.landLane ..

/-! ## What lanes send (R56, R57, R104) -/

theorem Going.sendWindow (o : MemOp) (x : Placed) (atom : Option Atom) : Going id k (s.sendWindow id o x atom) :=
  (h.setPhase unpoisoned_sent _).of_eq rfl rfl rfl

theorem Going.sendLoads (o : MemOp) (xs : List Placed) : Going id k (s.sendLoads id o xs) := by
  unfold State.sendLoads
  refine Going.of_eq (Going.of_eq (s := Prod.fst _) ?_ rfl rfl rfl) rfl rfl rfl
  generalize hr : (s, ([] : List HomeReq), ([] : List HomeReq)) = r
  replace h : Going id k r.1 := hr ▸ h
  clear hr
  induction xs generalizing r with
  | nil => exact h
  | cons x xs ih =>
    refine ih _ ?_
    dsimp only
    split
    · exact h.sendWindow ..
    · split
      · exact h
      · split
        · exact h.landFrom ..
        · exact (h.giveUp ..).setPhase unpoisoned_sent _

theorem Going.sendStore (o : MemOp) (q : HomeReq) : Going id k (s.sendStore id o q) := by
  have hsend : ∀ (t : State) (out : Bool) (i : Instr), Going id k t →
      Going id k ((t.modOp id (fun p => p.setPhase q.lanes (.writing q.line out))).post i) := fun t out i ht =>
    (ht.setPhase (unpoisoned_writing _ _) _).of_eq rfl rfl rfl
  have hcopy : ∀ f, Going id k (s.modCopy (coreOfWave o.wave) q.line f) := fun f => h.of_eq rfl rfl rfl
  unfold State.sendStore
  dsimp only
  split
  · exact h
  · split
    · exact hsend _ _ _ h
    · split
      · exact hsend _ _ _ (h.giveBack ..)
      · split
        · split
          · exact hsend _ _ _ (hcopy _)
          · refine Going.modLive ((hcopy _).doneLanes _) ?_ _
            exact fun _ => rfl
        · exact (hcopy _).doneLanes _
        · split
          · exact hsend _ _ _ (h.giveBack ..)
          · exact hsend _ _ _ (hcopy _)

theorem Going.sendStores (o : MemOp) (xs : List Placed) : Going id k (s.sendStores id o xs) :=
  Going.foldl (Going.foldl h fun _ x _ ht => ht.sendWindow o x none) fun _ q _ ht => ht.sendStore o q

theorem Going.sendAtomic (o : MemOp) (x : Placed) : Going id k (s.sendAtomic id o x) := by
  unfold State.sendAtomic
  split
  · dsimp only
    split
    · exact h.sendWindow ..
    · exact ((h.giveUp ..).setPhase unpoisoned_sent _).of_eq rfl rfl rfl
  · exact h

theorem Going.sendAtomics (o : MemOp) (xs : List Placed) : Going id k (s.sendAtomics id o xs) := by
  unfold State.sendAtomics
  split
  · exact h
  · exact h.foldl fun _ x _ ht => ht.sendAtomic o x

theorem Going.sendPrefetch (o : MemOp) (x : Placed) : Going id k (s.sendPrefetch id o x) := by
  refine (h.doneLanes [x.1.lane]).foldl fun t va _ ht => ?_
  split
  · split
    · exact ht
    · exact ht.of_eq rfl rfl rfl
  · exact ht

theorem Going.touchLeaf (core : Nat) (a : Access) (at_ : Attr) : Going id k (s.touchLeaf core a at_) := by
  unfold State.touchLeaf
  split
  · exact h
  · split
    · have hset := setAD_eq s core at_.leaf a.writes
      refine ⟨by rw [hset]; exact h.older, ?_, by rw [hset]; exact h.clean⟩
      rw [State.wave_setAD]
      exact h.stays
    · exact h

theorem Going.resendCopy (o : MemOp) (x : LaneOp) : Going id k (s.resendCopy id o x) :=
  (h.setPhase unpoisoned_sent _).of_eq rfl rfl rfl

/-! ## An operation's end (R42) -/

omit h in
theorem parkOp_mem (o : MemOp) : (s.parkOp id o).mem = s.mem := by
  unfold State.parkOp
  dsimp only
  rw [State.modOp_mem, State.modLive_mem, State.parkWave_mem]

/-- An operation that goes on ends, or parks its wave, without a store to memory. -/
theorem Going.mem_finishOp : (s.finishOp id).mem = s.mem := by
  unfold State.finishOp
  split
  · rfl
  · next o ho =>
    obtain ⟨hk, hclean⟩ := h.clean o ho
    have hwalk : o.walkLane = none := by
      refine List.find?_eq_none.2 fun x hx => ?_
      rw [hclean x hx]
      exact Bool.false_ne_true
    have hrewinds : s.rewinds o = none := by
      unfold State.rewinds
      rw [hwalk]
      split <;> rfl
    have hspoiled : s.spoiled o = false := by simp [State.spoiled, hwalk]
    split
    · rfl
    · split
      · rw [if_neg (by rw [hk]; exact h.stays), hrewinds, hspoiled]
        split
        · exact parkOp_mem o
        · rfl
      · split
        · split <;> rfl
        · rfl
        · rfl
        · dsimp only
          split <;> exact State.dropOp_mem ..

end Keeps

/-! ## A and D bits of the leaves reached (R34) -/

section Leaves
variable {s : State} {a : Nat}

theorem touchLeaf_frame {core : Nat} {k : Access} {at_ : Attr} (ha : ∀ i, i < 8 → a ≠ s.place (at_.leaf + i)) :
    SameMap s (s.touchLeaf core k at_) ∧ (s.touchLeaf core k at_).byte a = s.byte a := by
  unfold State.touchLeaf
  split
  · exact ⟨⟨rfl, rfl⟩, rfl⟩
  · split
    · exact ⟨sameMap_setAD, byte_setAD_outside ha⟩
    · exact ⟨⟨rfl, rfl⟩, rfl⟩

theorem byte_touchLeaves {core : Nat} {k : Access} {xs : List Placed}
    (ha : ∀ x ∈ xs, ∀ i, i < 8 → a ≠ s.place (x.2.2.leaf + i)) :
    (xs.foldl (fun acc x => acc.touchLeaf core k x.2.2) s).byte a = s.byte a := by
  induction xs generalizing s with
  | nil => rfl
  | cons x r ih =>
    obtain ⟨hx, hr⟩ := List.forall_mem_cons.1 ha
    obtain ⟨hmap, hbyte⟩ := touchLeaf_frame (core := core) (k := k) hx
    rw [← hmap.place] at hr
    exact (ih hr).trans hbyte

theorem mem_foldl {α : Type} {f : State → α → State} (hf : ∀ t x, (f t x).mem = t.mem) (xs : List α) (t : State) :
    (xs.foldl f t).mem = t.mem := by
  induction xs generalizing t with
  | nil => rfl
  | cons x r ih => exact (ih _).trans (hf t x)

theorem sendAtomics_mem (id : Nat) (o : MemOp) (xs : List Placed) : (s.sendAtomics id o xs).mem = s.mem := by
  unfold State.sendAtomics
  split
  · rfl
  · refine mem_foldl (fun t x => ?_) xs s
    unfold State.sendAtomic
    split
    · dsimp only
      split
      · exact State.sendWindow_mem ..
      · exact State.giveUp_mem ..
    · rfl

theorem byte_sendLanes {id : Nat} {o : MemOp} {xs : List Placed}
    (ha : ∀ x ∈ xs, ∀ i, i < 8 → a ≠ s.place (x.2.2.leaf + i)) : (s.sendLanes id o xs).byte a = s.byte a := by
  refine Eq.trans (byte_of_mem ?_ a) (byte_touchLeaves (core := coreOfWave o.wave) (k := o.kind.access) ha)
  unfold State.sendLanes
  dsimp only
  split
  · exact (State.sendStores_mem ..).trans (State.modLive_mem ..)
  · exact (sendAtomics_mem ..).trans (State.modLive_mem ..)
  · exact (mem_foldl (fun t x => State.sendPrefetch_mem ..) _ _).trans (State.modLive_mem ..)
  · exact (State.sendLoads_mem ..).trans (State.modLive_mem ..)

end Leaves

theorem Going.sendLanes {s : State} {id k : Nat} (h : Going id k s) (o : MemOp) (xs : List Placed) :
    Going id k (s.sendLanes id o xs) := by
  have htouched := h.foldl (xs := xs) (f := fun acc x => acc.touchLeaf (coreOfWave o.wave) o.kind.access x.2.2)
    fun _ x _ ht => ht.touchLeaf ..
  have hgate : ∀ f : Wave → Wave, (∀ w, (f w).status = w.status) →
      Going id k ((xs.foldl (fun acc x => acc.touchLeaf (coreOfWave o.wave) o.kind.access x.2.2) s).modLive o.wave f) :=
    fun f hf => htouched.modLive hf o.wave
  unfold State.sendLanes
  dsimp only
  split
  · refine Going.sendStores (hgate _ fun w => ?_) o xs
    split <;> rfl
  · refine Going.sendAtomics (hgate _ fun w => ?_) o xs
    split <;> rfl
  · refine Going.foldl (hgate _ fun w => ?_) fun _ x _ ht => ht.sendPrefetch o x
    split <;> rfl
  · refine Going.sendLoads (hgate _ fun w => ?_) o xs
    split <;> rfl

/-! ## An attempt at an operation (R32, R34, R42) -/

/-- A lane is placed where its address is reached. -/
theorem hit_of_placed {x : LaneOp} {hit : Hit} {z : Placed} (h : (match hit with
    | .ok pa at_ => some (x, pa, at_)
    | _ => none) = some z) : hit = .ok z.2.1 z.2.2 := by
  split at h
  · obtain rfl := Option.some.inj h
    rfl
  · cases h

section Attempt
variable {s : State} {id k a : Nat} {o : MemOp} (h : Going id k s)
include h

theorem byte_fillFrame (f : Nat) : (s.fillFrame id o f).byte a = s.byte a := by
  have hdone : ∀ x : Frame, (((s.modLive o.wave (fun w => w.setFrame f x)).doneLanes id [0]).finishOp id).mem = s.mem :=
    fun x => by
      have hset := (h.modLive (f := fun w => w.setFrame f x) (fun _ => rfl) o.wave).doneLanes [0]
      exact hset.mem_finishOp.trans ((State.doneLanes_mem ..).trans (State.modLive_mem ..))
  refine byte_of_mem ?_ a
  unfold State.fillFrame
  dsimp only
  split
  · exact h.mem_finishOp
  · split
    · exact hdone _
    · split
      · exact hdone _
      · exact State.askWalk_mem ..

/-- Lanes that may go are sent, and the operation is looked at. -/
theorem byte_sendLanes_finishOp {xs : List Placed} (ha : ∀ x ∈ xs, ∀ i, i < 8 → a ≠ s.place (x.2.2.leaf + i)) :
    ((s.sendLanes id o xs).finishOp id).byte a = s.byte a :=
  (byte_of_mem (h.sendLanes o xs).mem_finishOp a).trans (byte_sendLanes ha)

/-- What is refused at issue or denied is no poisoned walk entry's. -/
theorem Going.denied (ds : List (Nat × Nat)) (info : Nat → Dword) :
    Going id k (ds.foldl (fun acc d => acc.modOp id (fun p => p.setPhase [d.1] (.fault 6 (info d.2)))) s) :=
  h.foldl fun _ _ _ ht => ht.setPhase (unpoisoned_fault (.inl (by decide))) _

theorem byte_tryOp (ho : Sparse.find s.ops id = some o)
    (ha : ∀ x ∈ o.lanes, x.phase = .xlate → ∀ pa at_ i, s.laneHit o x = .ok pa at_ → i < 8 → a ≠ s.place (at_.leaf + i)) :
    (s.tryOp id).byte a = s.byte a := by
  have hsent : ∀ (t : State) (f : LaneOp → Option Placed), SameMap s t →
      (∀ y z, f y = some z → s.laneHit o y = .ok z.2.1 z.2.2) →
      ∀ x ∈ (o.lanes.filter (fun x => decide (x.phase = .xlate))).filterMap f, ∀ i, i < 8 → a ≠ t.place (x.2.2.leaf + i) :=
    fun t f ht hf x hx i hi => by
      obtain ⟨y, hy, hplaced⟩ := List.mem_filterMap.1 hx
      obtain ⟨hmem, hphase⟩ := List.mem_filter.1 hy
      rw [ht.place]
      exact ha y hmem (of_decide_eq_true hphase) _ _ i (hf y x hplaced) hi
  have hdenied : ∀ (ds : List (Nat × Nat)) (info : Nat → Dword),
      SameMap s (ds.foldl (fun acc d => acc.modOp id (fun p => p.setPhase [d.1] (.fault 6 (info d.2)))) s) ∧
      (ds.foldl (fun acc d => acc.modOp id (fun p => p.setPhase [d.1] (.fault 6 (info d.2)))) s).mem = s.mem := fun ds info => by
    generalize s = t
    induction ds generalizing t with
    | nil => exact ⟨⟨rfl, rfl⟩, rfl⟩
    | cons d r ih => exact ih (t.modOp id (fun p => p.setPhase [d.1] (.fault 6 (info d.2))))
  unfold State.tryOp
  rw [ho]
  dsimp only
  split
  · split
    · exact byte_fillFrame h _
    · exact byte_of_mem h.mem_finishOp a
  · refine byte_of_mem ?_ a
    exact (Going.foldl h fun _ x _ ht => ht.resendCopy o x).mem_finishOp.trans
      (mem_foldl (fun t x => State.resendCopy_mem ..) _ _)
  · split
    · exact byte_of_mem h.mem_finishOp a
    · split
      · exact byte_of_mem (mem_foldl (fun t x => State.askWalk_mem ..) _ _) a
      · split
        · exact (byte_sendLanes_finishOp (h.doneLanes _) (hsent _ _ ⟨rfl, rfl⟩ fun y z hz => hit_of_placed hz)).trans
            (byte_of_mem (State.doneLanes_mem ..) a)
        · split
          · exact byte_of_mem (h.setPhase (unpoisoned_fault (.inl (by decide))) _).mem_finishOp a
          · have hinfo := hdenied (info := fun r => accessInfo r 0 0 o.kind.access.code 15)
            exact (byte_sendLanes_finishOp (h.denied _ fun r => accessInfo r 0 0 o.kind.access.code 15)
              (hsent _ _ (hinfo _).1 fun y z hz => hit_of_placed hz)).trans (byte_of_mem (hinfo _).2 a)

end Attempt

/-! ## An access begins (R34, R42) -/

/-- An operation held under the next number. -/
def withOp (s : State) (p : MemOp) : State := { s with ops := Sparse.put s.ops s.nextId p, nextId := s.nextId + 1 }

section Start
variable {s : State} {o : MemOp} {a : Nat}

/-- How a lane's address stands is seen in the wave's context and privilege. -/
theorem laneHit_begun {p : MemOp} {f : Wave → Wave} (hf : ∀ w, (f w).ctx = w.ctx ∧ (f w).sys = w.sys) (x : LaneOp) :
    ((withOp s p).modLive p.wave f).laneHit p x =
      s.laneHit p x := by
  have hhit : ((withOp s p).modLive p.wave f).hitAt p =
      s.hitAt p := by
    funext va
    unfold State.hitAt
    dsimp only
    rw [wave_modLive_congr (g := Wave.ctx) (fun w => (hf w).1), wave_modLive_congr (g := Wave.sys) (fun w => (hf w).2)]
    rfl
  unfold State.laneHit
  rw [hhit]

/-- An operation held by a wave that does not drain is tried: only its lanes' leaves change. -/
theorem byte_begun {p : MemOp} {f : Wave → Wave} (hf : ∀ w, (f w).status = w.status ∧ (f w).ctx = w.ctx ∧ (f w).sys = w.sys)
    (hs : (s.wave p.wave).status ≠ .draining) (hp : ∀ x ∈ p.lanes, x.walkPoison = none)
    (ha : ∀ x ∈ p.lanes, x.phase = .xlate → ∀ pa at_ i, s.laneHit p x = .ok pa at_ → i < 8 →
      a ≠ s.place (at_.leaf + i)) :
    (((withOp s p).modLive p.wave f).tryOp
      s.nextId).byte a = s.byte a := by
  have hfind : Sparse.find (Sparse.put s.ops s.nextId p) s.nextId = some p := Sparse.find_put_same ..
  have hheld : Going s.nextId p.wave (withOp s p) :=
    ⟨Nat.lt_succ_self _, hs, fun q hq => by
      obtain rfl := Option.some.inj (hfind.symm.trans hq)
      exact ⟨rfl, hp⟩⟩
  refine byte_tryOp (hheld.modLive (fun w => (hf w).1) p.wave) hfind fun x hx hphase pa at_ i hhit hi => ?_
  rw [laneHit_begun fun w => (hf w).2] at hhit
  exact ha x hx hphase pa at_ i hhit hi

/-- The operation that an access holds: refused at issue where a lane is askew. -/
def heldOp (o : MemOp) : MemOp :=
  if o.lanes.any o.askew then o.setPhase (o.lanes.map (fun x => x.lane)) (.fault 7 (misInfo 0x34 0)) else o

theorem heldOp_cases (o : MemOp) : heldOp o = o ∨ ((heldOp o).wave = o.wave ∧
    ∀ x ∈ (heldOp o).lanes, x.phase = .fault 7 (misInfo 0x34 0)) := by
  unfold heldOp
  split
  · refine .inr ⟨rfl, fun x hx => ?_⟩
    obtain ⟨y, hy, rfl⟩ := List.mem_map.1 hx
    rw [if_pos (List.contains_iff_mem.2 (List.mem_map_of_mem hy))]
  · exact .inl rfl

/-- Counting an operation and gating what follows leaves a wave's status, context and privilege. -/
theorem countUp_keeps (c : Option Counter) (w : Wave) (id : Nat) : let v := match c with
      | some n => w.countUp n id
      | none => w
    v.status = w.status ∧ v.ctx = w.ctx ∧ v.sys = w.sys := by
  cases c with
  | none => exact ⟨rfl, rfl, rfl⟩
  | some n => cases n <;> exact ⟨rfl, rfl, rfl⟩

theorem byte_startOp (hs : (s.wave o.wave).status ≠ .draining) (hx : ∀ x ∈ o.lanes, x.phase = .xlate)
    (ha : ∀ x ∈ o.lanes, ∀ pa at_ i, s.laneHit o x = .ok pa at_ → i < 8 → a ≠ s.place (at_.leaf + i)) :
    (s.startOp o).byte a = s.byte a := by
  refine byte_begun (p := heldOp o) (fun w => countUp_keeps _ w _) ?_ ?_ ?_
  · obtain h | ⟨h, -⟩ := heldOp_cases o <;> rwa [h]
  · obtain h | ⟨-, h⟩ := heldOp_cases o
    · rw [h]
      exact fun x hmem => unpoisoned_xlate x (hx x hmem)
    · exact fun x hmem => unpoisoned_fault (.inl (by decide)) x (h x hmem)
  · obtain h | ⟨-, h⟩ := heldOp_cases o
    · rw [h]
      exact fun x hmem _ => ha x hmem
    · intro x hmem hphase
      rw [h x hmem] at hphase
      cases hphase

end Start

/-- Settles O30: each access is the operation that its operands give (`accessOf_opOf`; an ordered one at the widest scope of its
lanes is log 25, the sign-extended base log 53), and what begins sets A and D bits of its lanes' leaves alone (`byte_startOp`). -/
theorem accessesBegin : Obligations.AccessesBegin := by
  unfold Obligations.AccessesBegin
  refine ⟨fun s u d a f sz osz ch sc la flt => ⟨fun h => ?_, fun h => ?_, fun h => ?_, fun h => ?_, fun h => ?_⟩,
    fun s o a hs hx ha => byte_startOp hs hx ha⟩
  · exact ⟨_, accessOf_opOf (State.issuedBy_cur ..) rfl .., congrArg OpKind.load (sizeSigned_eq sz), rfl, rfl, rfl, exec_ld h⟩
  · exact ⟨_, accessOf_opOf (State.issuedBy_cur ..) rfl .., rfl, rfl, rfl, rfl, exec_st h⟩
  · exact ⟨_, accessOf_opOf (State.issuedBy_cur ..) rfl .., rfl, rfl, rfl, rfl, exec_prf h⟩
  · have hexec := exec_ldAcq h
    rw [acquired_iff (issuedBy_lanes ..)] at hexec
    exact ⟨_, accessOf_opOf (State.issuedBy_cur ..) rfl .., rfl, rfl, rfl, hexec⟩
  · exact ⟨_, accessOf_opOf (State.issuedBy_cur ..) rfl .., rfl, rfl, rfl, exec_stRel h⟩

end Sys2Proof.Proofs

/-! PROOFS. A refused fault task (13/R376): its other route is named by the die and the index of the record that it is for, so a pusher
that names the record by an index beyond its die's 4096 does not find itself again. -/

namespace Sys2Proof.Proofs

open Sys2Proof.Machine

open Sys2Proof.Safety

/-- The other route of a refused fault task is pushed for the record's own die and index. -/
theorem unpushed_router {s : State} {p : Push} {die ix : Nat} (cls code : Nat) (info : Dword)
    (hp : p.by_ = .router die ix false) (hl : s.recLive (die * 4096 + ix) = true) (hst : s.recStatus (die * 4096 + ix) ≤ 3) :
    ∃ q, s.unpushed p cls info code = s.post (.taskPush q) ∧
      q.by_ = .router ((die * 4096 + ix) / 4096) ((die * 4096 + ix) % 4096) true := by
  rw [State.unpushed, hp]
  dsimp only
  rw [if_neg (by simp [hl, hst])]
  exact ⟨_, rfl, rfl⟩

theorem post_injective {s : State} {i j : Instr} (h : s.post i = s.post j) : i = j := by
  have hagenda := congrArg State.agenda h
  rw [State.agenda_post, State.agenda_post] at hagenda
  exact List.singleton_injective (List.append_cancel_left hagenda)

/-- A package with one record, index 0 of die 1. -/
def oneRecord : State :=
  { State.reset with
    records := [(4096, { words := [], kind := 1, unit := 0, tasks := 0, hold := false, marks := [], policy := [] })] }

/-- The push of a fault task for that record, named as index 4096 of die 0. -/
def strayPush : Push :=
  { by_ := .router 0 4096 false, words := [], qw := 0, count := 0, failed := false, src := 0, priv := true, die := 0 }

theorem oneRecord_live : oneRecord.recLive (0 * 4096 + 4096) = true ∧ oneRecord.recStatus (0 * 4096 + 4096) ≤ 3 := by
  decide +kernel

/-- Refutes O43: its clause on a refused fault task takes any index for one of the router's die. The other route of
`strayPush` is pushed for index 0 of die 1, not for index 4096 of die 0 (an index that no record of a die has). -/
theorem not_tasksMove : ¬ Obligations.TasksMove := by
  unfold Obligations.TasksMove
  intro h
  obtain ⟨-, -, -, hhears, -⟩ := h
  obtain ⟨-, -, -, hrouter, -⟩ := hhears oneRecord strayPush 0 0 0
  obtain ⟨hl, hst⟩ := oneRecord_live
  obtain ⟨q, hq, hby⟩ := hrouter 0 4096 rfl hl hst
  obtain ⟨r, hr, hown⟩ := unpushed_router 0 0 0 (p := strayPush) rfl hl hst
  obtain rfl : q = r := Instr.taskPush.inj (post_injective (hq.symm.trans hr))
  cases hby.symm.trans hown

end Sys2Proof.Proofs

/-! PROOFS. Software traps (13/R345): TRAP parks its wave once it has issued, BKPT as a check of its own. -/

namespace Sys2Proof.Proofs

open Sys2Proof.Machine

open Sys2Proof.Safety

/-- A wave parked once its instruction has issued, with nothing captured: what its record shows is what it was parked with. -/
theorem parkWave_parksIssued (u : State) (i : Instr) (p : ParkInfo) (hpc : p.pc = u.curWave.pc) (hv : p.vas = [])
    (hs : p.srcs = []) : ParksIssued u ((u.issuedBy i).parkWave (u.issuedBy i).cur p) i p.cls p.faddr p.finfo := by
  refine ⟨State.wave_setWave_same .., rfl, _, rfl, rfl, State.issuedBy_cur .., rfl, ?_, ?_, ?_⟩
  · rw [← hpc, hv, hs]
    rfl
  · rw [hv, hs]
    rfl
  · rw [hv, hs]
    rfl

theorem issuedBy_pc_back (u : State) (i : Instr) : (u.issuedBy i).curWave.pc - 4 = u.curWave.pc := by
  rw [State.issuedBy_curWave, Wave.issued_pc]
  exact BitVec.add_sub_cancel ..

theorem exec_trap (c : BitVec 12) (s : State) : exec (.trap c) s = execTrap c s := rfl

theorem exec_bkpt (c : BitVec 12) (s : State) : exec (.bkpt c) s = s.issueWith (.bkpt c) (some (22, dw c.toNat, 0)) .ok (fun t => t) := rfl

/-- Settles O25: TRAP is a park made once it has issued, BKPT a check of its own that always fails. -/
theorem softwareTraps : Obligations.SoftwareTraps := by
  unfold Obligations.SoftwareTraps
  intro s u c
  refine ⟨fun h => ⟨_, (exec_trap c s).trans (issue_next h), ?_⟩, fun h => ?_⟩
  · exact parkWave_parksIssued u (.trap c) _ (issuedBy_pc_back u _) rfl rfl
  · rw [exec_bkpt]
    exact issueWith_parksBefore h

end Sys2Proof.Proofs

/-! PROOFS. Workgroups and limits (14/R352, R357 to R361): what is left of a workgroup that retires, how a task with no successors is
forgotten with its last one, how a task parks while it runs, and what a segment that is taken leaves of the waves. -/

namespace Sys2Proof.Proofs

open Sys2Proof.Machine

open Sys2Proof.Safety

/-! ## Completion (R323, R336, R352) -/

section Completion
variable {s t u : State} {n : Nat} {k : Task}

theorem find_update_map {α : Type} (m : Sparse α) (k : Nat) (f : α → α) :
    Sparse.find (Sparse.update m k f) k = (Sparse.find m k).map f := by
  cases h : Sparse.find m k with
  | some v => exact find_update_same h f
  | none => simp [Sparse.update, h]

theorem task_modTask (s : State) (n : Nat) (f : Task → Task) : (s.modTask n f).task n = (s.task n).map f :=
  find_update_map ..

theorem freeRec_eq (s : State) (x : Nat) :
    s.freeRec x = { s with records := (s.freeRec x).records, recwait := (s.freeRec x).recwait } := by
  unfold State.freeRec
  split
  · rfl
  · split <;> rfl

theorem unname_eq (s : State) (x : Nat) :
    s.unname x = { s with records := (s.unname x).records, recwait := (s.unname x).recwait } := by
  rw [State.unname, freeRec_eq]

theorem wgs_parkTask (s : State) (n cls : Nat) (fa fi : Dword) (st : Nat) : (s.parkTask n cls fa fi st).wgs = s.wgs := by
  unfold State.parkTask
  split <;> rfl

theorem wgs_finishTask (s : State) (n : Nat) : (s.finishTask n).wgs = s.wgs := by
  unfold State.finishTask
  split
  · rfl
  · rename_i k _
    dsimp only
    cases k.record.bind s.recOfHandle with
    | none =>
      dsimp only
      split <;> rfl
    | some x =>
      dsimp only
      split
      · rw [unname_eq]; rfl
      · rw [unname_eq]; rfl

/-- Signals that are given place no workgroup and free none. -/
theorem wgs_signalNext (m n : Nat) (s : State) : (State.signalNext m n s).wgs = s.wgs := by
  induction m generalizing s with
  | zero => exact wgs_finishTask s n
  | succ m ih =>
    unfold State.signalNext
    split
    · rfl
    · split
      · exact wgs_finishTask s n
      · split
        · rfl
        · split
          · split
            · exact wgs_setAD ..
            · split
              · exact wgs_setAD ..
              · split
                · exact ih _
                · exact wgs_parkTask ..
          · split
            · exact ih _
            · exact wgs_parkTask ..
          · rfl
          · exact wgs_parkTask ..

theorem wgs_drainKitty (s : State) (n : Nat) : (s.drainKitty n).wgs = s.wgs := by
  unfold State.drainKitty
  split
  · rfl
  · split
    · rfl
    · split <;> rfl

theorem wgs_completeTask (s : State) (n : Nat) : (s.completeTask n).wgs = s.wgs := by
  unfold State.completeTask State.signalOn
  split
  · exact (wgs_signalNext ..).trans (wgs_drainKitty s n)
  · exact wgs_drainKitty s n

theorem wgs_tryComplete (h : s.tryComplete n = some t) : t.wgs = s.wgs := by
  unfold State.tryComplete at h
  split at h
  · cases h
  · split at h
    · cases h
    · split at h
      · cases h; rfl
      · split at h
        · cases h; exact wgs_completeTask s n
        · cases h

/-- A task that gives up its kitty context is the same task otherwise. -/
theorem task_drainKitty (h : s.task n = some k) : ∃ c, (s.drainKitty n).task n = some { k with kctx := c } := by
  unfold State.drainKitty
  rw [h]
  dsimp only
  split
  · exact ⟨k.kctx, h⟩
  · split
    · exact ⟨k.kctx, h⟩
    · exact ⟨none, (task_modTask s n _).trans (congrArg _ h)⟩

/-- A task without successors that no workgroup is left of and that names no record is forgotten as it completes. -/
theorem task_completeTask_forgets (h : s.task n = some k) (hlive : k.live = 0) (hsucc : k.nSucc = 0) (hrec : k.record = none) :
    (s.completeTask n).task n = none := by
  obtain ⟨c, hc⟩ := task_drainKitty h
  have hsig : ∃ k', ((s.drainKitty n).modTask n (fun k => { k with paused := s.prectl k.die k.ctx && !k.bad })).task n = some k' ∧
      k'.live = 0 ∧ k'.nSucc = 0 ∧ k'.record = none :=
    ⟨_, (task_modTask ..).trans (congrArg _ hc), hlive, hsucc, hrec⟩
  obtain ⟨k', hk', hlive', hsucc', hrec'⟩ := hsig
  unfold State.completeTask State.signalOn
  rw [hk']
  dsimp only
  have hphase := (task_modTask ((s.drainKitty n).modTask n (fun k => { k with paused := s.prectl k.die k.ctx && !k.bad })) n
    (fun k => { k with phase := .signalling })).trans (congrArg _ hk')
  unfold State.signalNext
  rw [hphase]
  dsimp only [Option.map_some]
  rw [if_pos (show k'.succIx ≥ Task.nSucc { k' with phase := .signalling } from
    (show Task.nSucc { k' with phase := .signalling } = 0 from hsucc') ▸ Nat.zero_le _)]
  unfold State.finishTask
  rw [hphase]
  dsimp only [Option.map_some]
  rw [hrec', if_pos hlive']
  exact find_erase_same ..

end Completion

/-! ## A workgroup retires (R352) -/

/-- The state in which a workgroup's resources are given up: its image, where it was saved, has gone. -/
def withoutImage (s : State) (g : Nat) (k : Workgroup) : State :=
  if (s.restoring (dieOfCore k.core)).any (fun x => x.wg == g) then (s.dropImage g).restored (dieOfCore k.core)
  else s.dropImage g

/-- A workgroup's resources given up, before its task is looked at. -/
def groupFreed (s : State) (g : Nat) (k : Workgroup) : State :=
  let die := dieOfCore k.core
  let s1 := { (s.modTask k.task (fun t => { t with live := t.live - 1 })) with wgs := Sparse.erase s.wgs g }
  (match k.kittyIx with
    | some i => { s1 with kitty := Sparse.put s1.kitty (die * 64 + i) .free }
    | none => s1).postAll [.workgroupPlace die, .taskDispatch die]

section Retire
variable (s : State) (g : Nat) (k : Workgroup)

theorem restored_eq (s : State) (die : Nat) : s.restored die = { s with csr := (s.restored die).csr } := by
  unfold State.restored
  split <;> rfl

theorem withoutImage_frame : (withoutImage s g k).mem = s.mem ∧ (withoutImage s g k).tasks = s.tasks := by
  unfold withoutImage
  split
  · rw [restored_eq]
    exact ⟨rfl, rfl⟩
  · exact ⟨rfl, rfl⟩

theorem groupFreed_frame : (groupFreed s g k).mem = s.mem ∧ (groupFreed s g k).wg g = none ∧
    (groupFreed s g k).task k.task = (s.task k.task).map (fun t => { t with live := t.live - 1 }) := by
  unfold groupFreed
  dsimp only
  split <;> exact ⟨rfl, find_erase_same .., task_modTask s k.task _⟩

/-- What is given up of a workgroup, whether it was saved or not. -/
def freed (s : State) (g : Nat) (k : Workgroup) : State := groupFreed (withoutImage s g k) g k

theorem freeGroup_eq : s.freeGroup g k = ((freed s g k).tryComplete k.task).getD (freed s g k) := rfl

theorem freed_frame : (freed s g k).mem = s.mem ∧ (freed s g k).wg g = none ∧
    (freed s g k).task k.task = (s.task k.task).map (fun t => { t with live := t.live - 1 }) := by
  obtain ⟨hmem, htasks⟩ := withoutImage_frame s g k
  obtain ⟨hfmem, hfwg, hftask⟩ := groupFreed_frame (withoutImage s g k) g k
  refine ⟨hfmem.trans hmem, hfwg, hftask.trans ?_⟩
  unfold State.task
  rw [htasks]

theorem wg_freeGroup : (s.freeGroup g k).wg g = none := by
  obtain ⟨-, hwg, -⟩ := freed_frame s g k
  rw [freeGroup_eq]
  cases h : (freed s g k).tryComplete k.task with
  | none => exact hwg
  | some t =>
    unfold State.wg at hwg ⊢
    rw [Option.getD_some, wgs_tryComplete h]
    exact hwg

variable {s g k} {t : Task}

/-- Where no workgroup has to be the last, nothing completes. -/
theorem freeGroup_of_noTask (h : s.task k.task = none) : s.freeGroup g k = freed s g k := by
  obtain ⟨-, -, htask⟩ := freed_frame s g k
  rw [h] at htask
  rw [freeGroup_eq, State.tryComplete, htask]
  rfl

theorem freeGroup_of_others (h : s.task k.task = some t) (hlive : 2 ≤ t.live) : s.freeGroup g k = freed s g k := by
  obtain ⟨-, -, htask⟩ := freed_frame s g k
  rw [h, Option.map_some] at htask
  rw [freeGroup_eq, State.tryComplete, htask]
  dsimp only
  rw [if_pos (by omega)]
  rfl

/-- With the last workgroup of a launch that is wholly placed and has no successors its task is forgotten. -/
theorem task_freeGroup_last (h : s.task k.task = some t) (hlive : t.live = 1) (hrun : t.phase = .running) (hall : t.nwg ≤ t.nextWg)
    (hstop : t.stop = false) (hsucc : t.nSucc = 0) (hrec : t.record = none) : (s.freeGroup g k).task k.task = none := by
  obtain ⟨-, -, htask⟩ := freed_frame s g k
  rw [h, Option.map_some] at htask
  rw [freeGroup_eq, State.tryComplete, htask]
  dsimp only
  rw [if_neg (by omega), if_neg (by simp [hrun]), if_pos (by simp [hrun, hall, hstop])]
  exact task_completeTask_forgets htask (by simp [hlive]) hsucc hrec

theorem exec_workgroupRetire (wg : Nat) (s : State) : exec (.workgroupRetire wg) s = execWorkgroupRetire wg s := rfl

/-- A quiet workgroup whose task does not complete with its waves retires. -/
theorem exec_workgroupRetire_quiet (hwg : s.wg g = some k) (hq : s.quiet g k = true) (ht : ∀ t, s.task k.task = some t → t.kind = 1) :
    exec (.workgroupRetire g) s = .next (s.freeGroup g k) := by
  have hnone : (s.task k.task).filter (fun t => t.kind != 1 && decide (t.phase = .running ∨ t.phase = .placing) && !t.stop &&
      s.allEnded g k) = none := by
    cases h : s.task k.task with
    | none => rfl
    | some t => simp [ht t h]
  rw [exec_workgroupRetire, execWorkgroupRetire, State.retireStep, hwg]
  dsimp only
  rw [hnone]
  dsimp only
  rw [if_pos hq]

end Retire

/-! ## Placement and limits (R351, R358, R359) -/

theorem exec_workgroupPlace (die : Nat) (s : State) : exec (.workgroupPlace die) s = execWorkgroupPlace die s := rfl

/-- The first launch that the Dealer holds is placed where it can be, once nothing has to be restored. -/
theorem exec_workgroupPlace_launch {s u : State} {die t : Nat} {rest : List Nat} (hserves : s.dieServes die = true)
    (hrest : s.restoring die = []) (hd : Sparse.get [] s.dealer die = t :: rest) (hl : s.tryLaunch t = some (u, [])) :
    exec (.workgroupPlace die) s = .next (u.postAll [.workgroupPlace die, .taskDispatch die]) := by
  simp [exec_workgroupPlace, execWorkgroupPlace, hserves, hrest, hd, State.placeLaunch, hl]

/-- A task parks while it runs: it stands still, and its record shows the fault address that it was given. -/
theorem parkTask_running {s : State} {n : Nat} {k : Task} (cls : Nat) (fa fi : Dword) (h : s.task n = some k)
    (hrun : k.phase = .placing ∨ k.phase = .running) :
    ∃ t, s.parkTask n cls fa fi 0 = t ∧ t.task n = some { k with cause := cls, stop := true } ∧ t.waves = s.waves ∧ t.mem = s.mem ∧
      ∃ r, t.agenda = s.agenda ++ [.recordWritten r] ∧ r.kind = 4 ∧ r.unit = n ∧ r.cls = cls ∧ Sparse.get 0 r.words 7 = fa := by
  unfold State.parkTask
  rw [h]
  dsimp only
  refine ⟨_, rfl, ?_, rfl, rfl, _, rfl, rfl, rfl, rfl, rfl⟩
  refine (task_modTask s n _).trans ?_
  rw [h]
  simp [hrun]

theorem exec_budgetExhausted {s : State} {n : Nat} {k : Task} (h : s.task n = some k) (hrun : k.phase = .placing ∨ k.phase = .running)
    (hstop : k.stop = false) (hb : k.hasBudget = true) (h0 : k.budget = 0) :
    exec (.budgetExhausted n) s = .next (s.parkTask n 15 (dw s.gt) 0 0) := by
  rw [show exec (.budgetExhausted n) s = execBudgetExhausted n s from rfl, execBudgetExhausted, h]
  exact if_pos ⟨hrun, by simp [hstop], hb, h0⟩

theorem exec_taskDeadline {s : State} {n : Nat} {k : Task} (h : s.task n = some k) (hrun : k.phase = .placing ∨ k.phase = .running)
    (hstop : k.stop = false) (h0 : k.deadline ≠ 0) (hd : k.deadline ≤ s.gt) :
    exec (.taskDeadline n) s = .next (s.parkTask n 16 (dw s.gt) 0 0) := by
  rw [show exec (.taskDeadline n) s = execTaskDeadline n s from rfl, execTaskDeadline, h]
  exact if_pos ⟨hrun, by simp [hstop], h0, hd⟩

/-! ## A segment is taken (R160) -/

/-- What spilling registers of wave `id` changes of the waves: of its own not the span, of others A bits of frames. -/
def SpillsOf (id : Nat) (s t : State) : Prop :=
  (t.wave id).hi = (s.wave id).hi ∧ ∀ j, j ≠ id → t.wave j = { s.wave j with frames := (t.wave j).frames }

theorem SpillsOf.trans {id : Nat} {s t u : State} (h : SpillsOf id s t) (g : SpillsOf id t u) : SpillsOf id s u :=
  ⟨g.1.trans h.1, fun j hj => by rw [g.2 j hj, h.2 j hj]⟩

theorem SpillsOf.of_touch {id leaf : Nat} {s t : State} (h : ∀ j, t.wave j = Wave.touch leaf (s.wave j)) : SpillsOf id s t :=
  ⟨by rw [h id]; rfl, fun j _ => by rw [h j]; rfl⟩

theorem SpillsOf.modWave {id : Nat} {s t : State} {f : Wave → Wave} (h : SpillsOf id s t) (hf : ∀ w, (f w).hi = w.hi) :
    SpillsOf id s (t.modWave id f) := by
  refine ⟨?_, fun j hj => ?_⟩
  · rw [State.modWave, State.wave_setWave_same, hf]
    exact h.1
  · rw [State.modWave, State.wave_setWave_other _ _ hj]
    exact h.2 j hj

theorem SpillsOf.of_waves {id : Nat} {s t u : State} (h : SpillsOf id s t) (e : u.waves = t.waves) : SpillsOf id s u := by
  unfold SpillsOf State.wave at h ⊢
  rw [e]
  exact h

theorem waves_foldl {α : Type} {f : State → α → State} (hf : ∀ t x, (f t x).waves = t.waves) (l : List α) (t : State) :
    (l.foldl f t).waves = t.waves := by
  induction l generalizing t with
  | nil => rfl
  | cons x r ih => exact (ih _).trans (hf t x)

theorem spillReg_spillsOf {s t : State} {id j : Nat} (h : s.spillReg id j = .ok t) : SpillsOf id s t := by
  unfold State.spillReg at h
  dsimp only at h
  split at h
  · next pa leaf _ =>
    cases h
    have hset : SpillsOf id s (s.setAD (coreOfWave id) leaf true) := .of_touch (State.wave_setAD s (coreOfWave id) leaf true)
    refine SpillsOf.modWave ?_ fun _ => rfl
    split
    · exact hset.of_waves (State.waves_devWrite ..)
    · refine hset.of_waves ((waves_foldl (fun t l => ?_) _ _).trans (State.waves_devWrite ..))
      split <;> rfl
  · next hr =>
    obtain ⟨pa, leaf, hreach⟩ := reach_ok_of_stop h
    exact (hr pa leaf hreach).elim

theorem spillRegs_spillsOf {id : Nat} (js : List Nat) {s t : State} (h : spillRegs js id s = .ok t) : SpillsOf id s t := by
  induction js generalizing s with
  | nil =>
    cases h
    exact ⟨rfl, fun _ _ => rfl⟩
  | cons j r ih =>
    obtain ⟨v, hv, ht⟩ := bind_eq_ok h
    exact (spillReg_spillsOf hv).trans (ih ht)

/-- A segment that is taken leaves its wave none, its span spilled whole, and other waves their state. -/
theorem takeSegment_waves {s t : State} {id : Nat} (h : s.takeSegment id = some t) :
    (t.wave id).hasSeg = false ∧ (t.wave id).lo = (s.wave id).hi ∧ (t.wave id).hi = (s.wave id).hi ∧
      ∀ j, j ≠ id → t.wave j = { s.wave j with frames := (t.wave j).frames } := by
  unfold State.takeSegment at h
  dsimp only at h
  split at h
  · next v hv =>
    obtain ⟨hhi, hothers⟩ := spillRegs_spillsOf _ hv
    cases h
    have hown := State.wave_setWave_same v id { v.wave id with lo := (v.wave id).hi, hasSeg := false, segGran := [], segBase := 0 }
    refine ⟨congrArg Wave.hasSeg hown, (congrArg Wave.lo hown).trans hhi, (congrArg Wave.hi hown).trans hhi, fun j hj => ?_⟩
    have hother := State.wave_setWave_other v { v.wave id with lo := (v.wave id).hi, hasSeg := false, segGran := [], segBase := 0 } hj
    exact hother.trans ((hothers j hj).trans (congrArg (fun w : Wave => { s.wave j with frames := w.frames }) hother.symm))
  · cases h

/-! ## Indigo runs (R360, R361) -/

theorem exec_indigoEntry {s : State} {wave op : Nat} (h : s.mayRun wave = some op) :
    exec (.indigoEntry wave) s = .next (s.enterRun wave op) := by
  rw [show exec (.indigoEntry wave) s = execIndigoEntry wave s from rfl, execIndigoEntry, h]

theorem exec_indigoExit {s : State} {wave : Nat} {r : Indigo} (h : Sparse.find s.indigo wave = some r) (hl : r.live = true)
    (ho : s.runOver wave r = true) : exec (.indigoExit wave) s = .next (s.exitRun wave) := by
  rw [show exec (.indigoExit wave) s = execIndigoExit wave s from rfl, execIndigoExit, h]
  exact if_pos ⟨hl, ho⟩

/-- Settles O44: a workgroup's release changes its task by one live workgroup, and completes it only where none is left; that the
cycles before an indigo run are not counted is log 44. -/
theorem workgroupsAndLimits : Obligations.WorkgroupsAndLimits := by
  unfold Obligations.WorkgroupsAndLimits
  refine ⟨fun s u die t rest hserves hrest hd hl => exec_workgroupPlace_launch hserves hrest hd hl,
    fun s g k hwg hq => ⟨fun h => ?_, fun t h hkind => ?_, wg_freeGroup s g k, fun h => ?_,
      fun t h => ⟨fun hlive => ?_, fun hlive hrun hall hstop hsucc hrec => task_freeGroup_last h hlive hrun hall hstop hsucc hrec⟩⟩,
    fun s task k i cls h hrun hstop hi => ?_, fun s t id h => takeSegment_waves h,
    fun s wave op h => ⟨_, exec_indigoEntry h, rfl, rfl, rfl, rfl, rfl⟩,
    fun s wave r h hl ho => ⟨_, exec_indigoExit h hl ho, fun y hy => ?_⟩⟩
  · exact exec_workgroupRetire_quiet hwg hq fun t ht => by rw [h] at ht; cases ht
  · exact exec_workgroupRetire_quiet hwg hq fun t' ht => by rw [h] at ht; cases ht; exact hkind
  · rw [freeGroup_of_noTask h]
    exact (freed_frame s g k).1
  · obtain ⟨hmem, -, htask⟩ := freed_frame s g k
    rw [freeGroup_of_others h hlive]
    exact ⟨hmem, htask.trans (congrArg _ h)⟩
  · rcases hi with ⟨rfl, rfl, hb, h0⟩ | ⟨rfl, rfl, h0, hd⟩
    · obtain ⟨t, ht, hpark⟩ := parkTask_running 15 (dw s.gt) 0 h hrun
      exact ⟨t, (exec_budgetExhausted h hrun hstop hb h0).trans (congrArg _ ht), hpark⟩
    · obtain ⟨t, ht, hpark⟩ := parkTask_running 16 (dw s.gt) 0 h hrun
      exact ⟨t, (exec_taskDeadline h hrun hstop h0 hd).trans (congrArg _ ht), hpark⟩
  · rw [find_update_same h] at hy
    cases hy
    rfl

end Sys2Proof.Proofs

/-! PROOFS. Fields of system registers (13/R340): the bits of a field that is replaced, of the fields beside it, and of a register
that is written bit by bit. -/

namespace Sys2Proof.Proofs

open Sys2Proof.Machine

open Sys2Proof.Safety

/-! ## Fields -/

section Fields
variable {d x y : Dword} {lo w lo' w' : Nat} (v : Nat)

theorem testBit_fld (d : Dword) (lo w i : Nat) : (fld d lo w).testBit i = (decide (i < w) && d.getLsbD (lo + i)) := by
  rw [fld, bits, Nat.testBit_mod_two_pow, Nat.testBit_div_two_pow, Nat.add_comm i lo]
  rfl

theorem fld_eq_of_bits (h : ∀ i, i < w → x.getLsbD (lo + i) = y.getLsbD (lo + i)) : fld x lo w = fld y lo w := by
  refine Nat.eq_of_testBit_eq fun i => ?_
  rw [testBit_fld, testBit_fld]
  by_cases hi : i < w
  · rw [h i hi]
  · simp [hi]

/-- A value whose field is replaced, as the bits below the field, the field and the bits above it. -/
theorem toNat_setFld (h : lo + w ≤ 64) :
    (setFld d lo w v).toNat = 2 ^ lo * (2 ^ w * (d.toNat / 2 ^ lo / 2 ^ w) + v % 2 ^ w) + d.toNat % 2 ^ lo := by
  have hlow := Nat.div_add_mod d.toNat (2 ^ lo)
  have hmid := Nat.div_add_mod (d.toNat / 2 ^ lo) (2 ^ w)
  have hv : v % 2 ^ w < 2 ^ w := Nat.mod_lt _ (Nat.two_pow_pos w)
  have hl : d.toNat % 2 ^ lo < 2 ^ lo := Nat.mod_lt _ (Nat.two_pow_pos lo)
  have hsum : d.toNat - fld d lo w * 2 ^ lo + v % 2 ^ w * 2 ^ lo =
      2 ^ lo * (2 ^ w * (d.toNat / 2 ^ lo / 2 ^ w) + v % 2 ^ w) + d.toNat % 2 ^ lo := by
    have hd : d.toNat = 2 ^ lo * (2 ^ w * (d.toNat / 2 ^ lo / 2 ^ w)) + fld d lo w * 2 ^ lo + d.toNat % 2 ^ lo := by
      conv_lhs => rw [← hlow, ← hmid]
      rw [fld, bits, Nat.mul_add, Nat.mul_comm (d.toNat / 2 ^ lo % 2 ^ w)]
    rw [Nat.mul_add, Nat.mul_comm (2 ^ lo) (v % 2 ^ w)]
    omega
  have htop : d.toNat / 2 ^ lo / 2 ^ w < 2 ^ (64 - (lo + w)) := by
    rw [Nat.div_div_eq_div_mul, ← Nat.pow_add, Nat.div_lt_iff_lt_mul (Nat.two_pow_pos _), ← Nat.pow_add,
      Nat.sub_add_cancel h]
    exact d.isLt
  have hmidlt : 2 ^ w * (d.toNat / 2 ^ lo / 2 ^ w) + v % 2 ^ w < 2 ^ (64 - lo) := calc
    _ < 2 ^ (64 - (lo + w)) * 2 ^ w := Nat.mul_add_lt_mul_of_lt_of_lt htop hv
    _ = 2 ^ (64 - lo) := by rw [← Nat.pow_add, show 64 - (lo + w) + w = 64 - lo by omega]
  have hlt : 2 ^ lo * (2 ^ w * (d.toNat / 2 ^ lo / 2 ^ w) + v % 2 ^ w) + d.toNat % 2 ^ lo < 2 ^ 64 := calc
    _ < 2 ^ (64 - lo) * 2 ^ lo := Nat.mul_add_lt_mul_of_lt_of_lt hmidlt hl
    _ = 2 ^ 64 := by rw [← Nat.pow_add, Nat.sub_add_cancel (by omega)]
  rw [setFld, BitVec.toNat_ofNat, hsum, Nat.mod_eq_of_lt hlt]

theorem getLsbD_setFld (h : lo + w ≤ 64) (i : Nat) :
    (setFld d lo w v).getLsbD i = if lo ≤ i ∧ i < lo + w then v.testBit (i - lo) else d.getLsbD i := by
  have hv : v % 2 ^ w < 2 ^ w := Nat.mod_lt _ (Nat.two_pow_pos w)
  have hl : d.toNat % 2 ^ lo < 2 ^ lo := Nat.mod_lt _ (Nat.two_pow_pos lo)
  unfold BitVec.getLsbD
  rw [toNat_setFld v h, Nat.testBit_two_pow_mul_add _ hl]
  by_cases h1 : i < lo
  · rw [if_pos h1, if_neg (by omega), Nat.testBit_mod_two_pow]
    simp [h1]
  · rw [if_neg h1, Nat.testBit_two_pow_mul_add _ hv]
    by_cases h2 : i - lo < w
    · rw [if_pos h2, if_pos (by omega), Nat.testBit_mod_two_pow]
      simp [h2]
    · rw [if_neg h2, if_neg (by omega), Nat.testBit_div_two_pow, Nat.testBit_div_two_pow]
      congr 1
      omega

theorem fld_setFld_same (h : lo + w ≤ 64) : fld (setFld d lo w v) lo w = v % 2 ^ w := by
  refine Nat.eq_of_testBit_eq fun i => ?_
  rw [testBit_fld, Nat.testBit_mod_two_pow, getLsbD_setFld v h]
  by_cases hi : i < w
  · rw [if_pos (by omega), Nat.add_sub_cancel_left]
  · simp [hi]

theorem fld_setFld_other (h : lo + w ≤ 64) (hd : lo' + w' ≤ lo ∨ lo + w ≤ lo') :
    fld (setFld d lo w v) lo' w' = fld d lo' w' :=
  fld_eq_of_bits fun i hi => by rw [getLsbD_setFld v h, if_neg (by omega)]

theorem fld_lt (d : Dword) (lo w : Nat) : fld d lo w < 2 ^ w := Nat.mod_lt _ (Nat.two_pow_pos w)

theorem fld_mod_self (d : Dword) (lo w : Nat) : fld d lo w % 2 ^ w = fld d lo w := Nat.mod_eq_of_lt (fld_lt d lo w)

theorem fld_dw (n lo w : Nat) (h : lo + w ≤ 64) : fld (dw n) lo w = n / 2 ^ lo % 2 ^ w := by
  unfold fld dw
  rw [BitVec.toNat_ofNat]
  exact bits_mod_two_pow h n

end Fields

/-! ## System registers -/

section Registers
variable {s : State} {num inst m n : Nat} {lo w : Nat}

theorem csrGet_csrPut_other (s : State) (v : Dword) (h : m * 256 + n ≠ num * 256 + inst) :
    (s.csrPut num inst v).csrGet m n = s.csrGet m n := Sparse.get_put_other _ _ _ h

/-- What a write leaves in a register that has writable bits rw and bits that a written one clears. -/
def stored (num : Nat) (v old : Dword) : Dword :=
  (v &&& dw (csrRw num)) ||| (old &&& ~~~ dw (csrRw num) &&& ~~~ (v &&& dw (csrW1c num)))

theorem csrStore_eq (s : State) (num inst : Nat) (v : Dword) :
    s.csrStore num inst v = { s with csr := (s.csrStore num inst v).csr } := by
  unfold State.csrStore
  dsimp only
  split <;> rfl

theorem csrGet_csrStore_same (s : State) (num inst : Nat) (v : Dword) :
    (s.csrStore num inst v).csrGet num inst = stored num v (s.csrGet num inst) := by
  unfold State.csrStore
  dsimp only
  split
  · next h =>
    obtain ⟨hrw, hc⟩ := h
    simp only [stored, hrw, hc, dw, BitVec.and_zero, BitVec.zero_or, BitVec.not_zero, BitVec.and_allOnes]
  · exact State.csrGet_csrPut_same ..

theorem csrGet_csrStore_other (s : State) (v : Dword) (h : m * 256 + n ≠ num * 256 + inst) :
    (s.csrStore num inst v).csrGet m n = s.csrGet m n := by
  unfold State.csrStore
  dsimp only
  split
  · rfl
  · exact csrGet_csrPut_other s _ h

/-- A field whose bits software writes takes them from what is written. -/
theorem fld_stored (v old : Dword) (h : fld (dw (csrRw num)) lo w = 2 ^ w - 1) : fld (stored num v old) lo w = fld v lo w := by
  refine fld_eq_of_bits fun i hi => ?_
  have hbit : (dw (csrRw num)).getLsbD (lo + i) = true := by
    have := testBit_fld (dw (csrRw num)) lo w i
    rw [h, Nat.testBit_two_pow_sub_one] at this
    simpa [hi] using this.symm
  simp [stored, hbit]

end Registers

end Sys2Proof.Proofs

/-! PROOFS. What the host commands (15/R395, R396, 21/R428, R436): a command of the mailbox whole, a slot of an enqueue window, and
the triggers of a snapshot. -/

namespace Sys2Proof.Proofs

open Sys2Proof.Machine

open Sys2Proof.Safety

/-! ## Access of the host (R431, R432) -/

section Host
variable {s : State}

theorem powered_iff : s.powered = true ↔ s.power ≠ .d3cold := decide_eq_true_iff

theorem hostEvent_next (name : String) (t : State) (hp : s.power ≠ .d3cold) (hm : s.mode ≠ .reset) :
    s.hostEvent name t = .next t := by
  rw [State.hostEvent, powered_iff.2 hp, Bool.not_true, if_neg (by decide), if_neg hm]

theorem hostEvent_lost (name : String) (t : State) (hp : s.power ≠ .d3cold) (hm : s.mode = .reset) :
    s.hostEvent name t = .next s := by
  rw [State.hostEvent, powered_iff.2 hp, Bool.not_true, if_neg (by decide), if_pos hm]

theorem hostEvent_refused (name : String) (t : State) (hp : s.power = .d3cold) :
    s.hostEvent name t = .refused (.notEnabled name) := by
  rw [State.hostEvent, if_pos]
  simp [State.powered, hp]

end Host

/-! ## The mailbox (R436) -/

/-- The instruction of a command, and the length that its input has to have. -/
def isCommand (i : Instr) (cmd need : Nat) : Prop :=
  (i, cmd, need) ∈ [(Instr.quote, 1, 32), (.advsvn, 2, 2424), (.revoke, 3, 2424), (.setkey, 4, 1316), (.idkey, 5, 0)]

section Mailbox
variable {s : State} {i : Instr} {cmd need : Nat}

theorem isCommand.bounds (h : isCommand i cmd need) :
    1 ≤ cmd ∧ cmd ≤ 5 ∧ need = if cmd = 1 then 32 else if cmd = 2 ∨ cmd = 3 then 2424 else if cmd = 4 then 1316 else 0 := by
  simp only [isCommand, List.mem_cons, List.not_mem_nil, or_false, Prod.mk.injEq] at h
  rcases h with ⟨-, rfl, rfl⟩ | ⟨-, rfl, rfl⟩ | ⟨-, rfl, rfl⟩ | ⟨-, rfl, rfl⟩ | ⟨-, rfl, rfl⟩ <;> decide

theorem exec_command (h : isCommand i cmd need) : ∃ name, exec i s = s.hostEvent name (s.mailCommand cmd) := by
  simp only [isCommand, List.mem_cons, List.not_mem_nil, or_false, Prod.mk.injEq] at h
  rcases h with ⟨rfl, rfl, -⟩ | ⟨rfl, rfl, -⟩ | ⟨rfl, rfl, -⟩ | ⟨rfl, rfl, -⟩ | ⟨rfl, rfl, -⟩ <;> exact ⟨_, rfl⟩

/-- A command that the mailbox takes is performed. -/
theorem exec_command_next (h : isCommand i cmd need) (hp : s.power ≠ .d3cold) (hm : s.mode ≠ .reset) :
    exec i s = .next (s.mailCommand cmd) := by
  obtain ⟨name, he⟩ := exec_command h
  exact he.trans (hostEvent_next name _ hp hm)

/-- A command whose input has not the length that it must have. -/
theorem mailCommand_badLength (h : isCommand i cmd need) (hl : s.mailbox.inlen ≠ need) : s.mailCommand cmd = s.mailFail 3 := by
  obtain ⟨h1, h5, hneed⟩ := h.bounds
  unfold State.mailCommand
  dsimp only
  rw [if_neg (by omega), if_pos (by rw [← hneed]; exact hl)]

/-- What a command that ends well leaves. -/
theorem mailDone_frame (out : List Byte) : (s.mailDone out).mailbox.state = 2 ∧ (s.mailDone out).mailbox.status = 0 ∧
    (s.mailDone out).mailbox.outlen = (s.mailDone out).mailbox.output.length ∧ (s.mailDone out).keys = s.keys ∧
    (s.mailDone out).csr = s.csr ∧ (s.mailDone out).mem = s.mem := ⟨rfl, rfl, rfl, rfl, rfl, rfl⟩

theorem mailCommand_report (hl : s.mailbox.inlen = 32) :
    s.mailCommand 1 = s.mailDone (s.report ++ (List.range 2420).map (fun i => Config.identitySign (Config.sha3 s.report) i)) := by
  simp [State.mailCommand, hl]

theorem mailCommand_idkey (hl : s.mailbox.inlen = 0) :
    s.mailCommand 5 = s.mailDone ((List.range 1312).map (fun i => Config.identityKey i)) := by
  simp [State.mailCommand, hl]

theorem mailCommand_unsigned (hl : s.mailbox.inlen = 2424) (hc : cmd = 2 ∨ cmd = 3) (hs : s.mailSigned = false) :
    s.mailCommand cmd = s.mailFail 1 := by
  rcases hc with rfl | rfl <;> simp [State.mailCommand, hl, hs]

theorem mailCommand_advsvn (hl : s.mailbox.inlen = 2424) (hs : s.mailSigned = true) (hn : ofBytes (s.mailIn 0 4) ≤ 63) :
    s.mailCommand 2 = if ofBytes (s.mailIn 0 4) ≤ s.fsvn then s.mailDone []
      else (s.csrPut 0x420 0 (dw (ofBytes (s.mailIn 0 4)))).mailDone [] := by
  simp [State.mailCommand, hl, hs, Nat.not_lt.2 hn]

theorem mailCommand_revoke (hl : s.mailbox.inlen = 2424) (hs : s.mailSigned = true) (h1 : 1 ≤ ofBytes (s.mailIn 0 4))
    (h3 : ofBytes (s.mailIn 0 4) ≤ 3) (hr : s.revoked.contains (ofBytes (s.mailIn 0 4)) = false) :
    s.mailCommand 3 = State.mailDone { s with
      revoked := s.revoked ++ [ofBytes (s.mailIn 0 4)], keys := Sparse.erase s.keys (ofBytes (s.mailIn 0 4)) } [] := by
  have hgood : ¬ (ofBytes (s.mailIn 0 4) = 0 ∨ ofBytes (s.mailIn 0 4) > 3 ∨ s.revoked.contains (ofBytes (s.mailIn 0 4)) = true) := by
    rw [hr]
    simp
    omega
  unfold State.mailCommand
  dsimp only
  rw [if_neg (by omega), if_neg (by simp [hl]), if_neg (by omega), if_neg (by omega), if_neg (by omega), if_neg (by simp [hs]),
    if_neg (by omega), if_neg hgood]

theorem mailCommand_setkey (hl : s.mailbox.inlen = 1316) (h1 : 1 ≤ ofBytes (s.mailIn 0 4)) (h3 : ofBytes (s.mailIn 0 4) ≤ 3)
    (hr : s.revoked.contains (ofBytes (s.mailIn 0 4)) = false) (hf : fused (ofBytes (s.mailIn 0 4)) (s.mailIn 4 1312) = true) :
    s.mailCommand 4 = State.mailDone { s with keys := Sparse.put s.keys (ofBytes (s.mailIn 0 4)) (s.mailIn 4 1312) } [] := by
  have hgood : ¬ (ofBytes (s.mailIn 0 4) = 0 ∨ ofBytes (s.mailIn 0 4) > 3 ∨ s.revoked.contains (ofBytes (s.mailIn 0 4)) = true) := by
    rw [hr]
    simp
    omega
  unfold State.mailCommand
  dsimp only
  rw [if_neg (by omega), if_neg (by simp [hl]), if_neg (by omega), if_neg (by omega), if_pos rfl, if_neg hgood,
    if_neg (by simp [hf])]

theorem mailCommand_badSlot (hl : s.mailbox.inlen = 1316)
    (hn : ofBytes (s.mailIn 0 4) = 0 ∨ 3 < ofBytes (s.mailIn 0 4) ∨ s.revoked.contains (ofBytes (s.mailIn 0 4)) = true) :
    s.mailCommand 4 = s.mailFail 5 := by
  unfold State.mailCommand
  dsimp only
  rw [if_neg (by omega), if_neg (by simp [hl]), if_neg (by omega), if_neg (by omega), if_pos rfl, if_pos hn]

end Mailbox

/-! ## The enqueue windows (R428) -/

section Windows
variable {s : State} {die slot : Nat}

theorem slot_setSlot (s : State) (die slot : Nat) (f : EnqSlot → EnqSlot) :
    Sparse.get EnqSlot.empty (s.setSlot die slot f).windows (die * 16 + slot) =
      f (Sparse.get EnqSlot.empty s.windows (die * 16 + slot)) := Sparse.get_put_same ..

theorem windowGuard (hp : s.power ≠ .d3cold) (hd : die ≤ 3) (hs : slot ≤ 15) :
    (!s.powered || decide (die > 3) || decide (slot > 15)) = false := by
  simp [powered_iff.2 hp, hd, hs]

theorem exec_door (die slot : Nat) (s : State) : exec (.door die slot) s = execDoor die slot s := rfl

theorem exec_enqSlotFieldWrite (die slot off : Nat) (v : Dword) (s : State) :
    exec (.enqSlotFieldWrite die slot off v) s = execEnqSlotFieldWrite die slot off v s := rfl

/-- DOOR of a slot whose push is under way changes nothing. -/
theorem exec_door_busy (hp : s.power ≠ .d3cold) (hd : die ≤ 3) (hs : slot ≤ 15)
    (hx : (Sparse.get EnqSlot.empty s.windows (die * 16 + slot)).state = 1) : exec (.door die slot) s = .next s := by
  rw [exec_door, execDoor, windowGuard hp hd hs, if_neg (by decide), if_pos (Or.inr hx)]

/-- The push of what a slot holds. -/
def doorPush (s : State) (die slot : Nat) : Push :=
  let x := Sparse.get EnqSlot.empty s.windows (die * 16 + slot)
  { by_ := .window die slot, words := x.words, qw := x.qw, count := x.dcnt % 65536, failed := false,
    src := Config.freeDword s.fresh, priv := true, die := die }

theorem exec_door_pushes (hp : s.power ≠ .d3cold) (hm : s.mode ≠ .reset) (hd : die ≤ 3) (hs : slot ≤ 15)
    (hx : (Sparse.get EnqSlot.empty s.windows (die * 16 + slot)).state ≠ 1) :
    exec (.door die slot) s =
      .next (((s.setSlot die slot (fun y => { y with state := 1 })).draw).post (.taskPush (doorPush s die slot))) := by
  rw [exec_door, execDoor, windowGuard hp hd hs, if_neg (by decide), if_neg (by simp [hm, hx])]
  rfl

/-- A slot once a field of it has been written: as it was while a push is under way. -/
def slotWritten (off : Nat) (v : Dword) (y : EnqSlot) : EnqSlot :=
  if y.state = 1 then y
  else if off < 0x40 ∧ off % 8 = 0 then { y with words := y.words.set (off / 8) v, state := 0 }
  else if off = 0x40 then { y with qw := wd v.toNat, state := 0 }
  else if off = 0x44 then { y with dcnt := fld v 0 16, state := 0 }
  else y

theorem exec_enqSlotFieldWrite_writes (off : Nat) (v : Dword) (hp : s.power ≠ .d3cold) (hm : s.mode ≠ .reset) (hd : die ≤ 3)
    (hs : slot ≤ 15) : exec (.enqSlotFieldWrite die slot off v) s = .next (s.setSlot die slot (slotWritten off v)) := by
  rw [exec_enqSlotFieldWrite, execEnqSlotFieldWrite, windowGuard hp hd hs, if_neg (by decide), if_neg hm]
  rfl

end Windows

/-! ## Triggers and reads of a snapshot (R395, R396) -/

section Snapshots
variable {s : State}

theorem exec_snaphost (hp : s.power ≠ .d3cold) (hm : s.mode ≠ .reset) : exec .snaphost s = .next (s.snapTrigger 2 1) :=
  hostEvent_next _ _ hp hm

theorem exec_snapPeerTrigger (s : State) : exec .snapPeerTrigger s = execSnapPeerTrigger s := rfl

theorem exec_snapGtTrigger (s : State) : exec .snapGtTrigger s = execSnapGtTrigger s := rfl

theorem exec_snapdataRead (hp : s.power ≠ .d3cold) (hm : s.mode ≠ .reset) : exec .snapdataRead s = .next s.snapNext :=
  hostEvent_next _ _ hp hm

theorem csrGet_snapNext (s : State) :
    s.snapNext.csrGet 0x3C3 0 = setFld (s.csrGet 0x3C3 0) 0 16 (fld (s.csrGet 0x3C3 0) 0 16 + 1) :=
  State.csrGet_csrPut_same ..

end Snapshots

/-- Settles O54: a command is taken or refused by the mailbox's own checks, whose order is log 41, a slot's fields and DOOR are its own
rules, and what comes in RESET is lost (log 121). -/
theorem hostCommands : Obligations.HostCommands := by
  unfold Obligations.HostCommands
  refine ⟨fun s i cmd need hp hm hi => ?_, fun s die slot off v hp hm hd hs => ⟨fun hx => exec_door_busy hp hd hs hx, fun hx => ?_,
    _, exec_enqSlotFieldWrite_writes off v hp hm hd hs, rfl, rfl, ?_⟩, fun s hp hm i hi => ?_, fun s hp hm =>
    ⟨exec_snaphost hp hm, fun hl => ?_, fun hl => ?_, fun hg => ?_, fun hg => ?_, _, exec_snapdataRead hp hm, ?_, ?_⟩⟩
  · have hexec := exec_command_next hi hp hm
    obtain ⟨-, -, hneed⟩ := isCommand.bounds hi
    refine ⟨fun hl => ⟨_, hexec, ?_⟩, fun hl hc => ⟨_, hexec, ?_⟩, fun hl hc hsig => ⟨_, hexec, ?_⟩, fun hl hc hsig hn => ⟨_, hexec, ?_⟩,
      fun hl hc hsig h1 h3 hr => ⟨_, hexec, ?_⟩, fun hl hc h1 h3 hr hf => ⟨_, hexec, ?_⟩, fun hl hc hn => ⟨_, hexec, ?_⟩⟩
    · rw [mailCommand_badLength hi hl]
      exact ⟨rfl, rfl, rfl, rfl, rfl, rfl, rfl⟩
    · rcases hc with rfl | rfl
      · rw [mailCommand_report (hl.trans hneed)]
        exact mailDone_frame _
      · rw [mailCommand_idkey (hl.trans hneed)]
        exact mailDone_frame _
    · have hlen : s.mailbox.inlen = 2424 := by rcases hc with rfl | rfl <;> exact hl.trans hneed
      rw [mailCommand_unsigned hlen hc hsig]
      exact ⟨rfl, rfl, rfl, rfl⟩
    · subst hc
      rw [mailCommand_advsvn (hl.trans hneed) hsig hn]
      split
      · next hle => exact ⟨rfl, fun hlt => absurd hlt (Nat.not_lt.2 hle), fun _ => rfl⟩
      · next hgt => exact ⟨rfl, fun _ => State.csrGet_csrPut_same .., fun hle => absurd hle hgt⟩
    · subst hc
      rw [mailCommand_revoke (hl.trans hneed) hsig h1 h3 hr]
      exact ⟨rfl, rfl, find_erase_same ..⟩
    · subst hc
      rw [mailCommand_setkey (hl.trans hneed) h1 h3 hr hf]
      exact ⟨rfl, Sparse.find_put_same ..⟩
    · subst hc
      rw [mailCommand_badSlot (hl.trans hneed) hn]
      exact ⟨rfl, rfl, rfl⟩
  · exact ⟨_, doorPush s die slot, exec_door_pushes hp hm hd hs hx, rfl, rfl, rfl, rfl, rfl, rfl,
      congrArg EnqSlot.state (slot_setSlot s die slot (fun y => { y with state := 1 }))⟩
  · dsimp only
    rw [slot_setSlot]
    refine ⟨fun hx => if_pos hx, fun hx hlt h8 => ?_, fun hx ho => ?_, fun hx ho => ?_⟩
    · rw [slotWritten, if_neg hx, if_pos ⟨hlt, h8⟩]
    · rw [slotWritten, if_neg hx, if_neg (by omega), if_pos ho]
    · rw [slotWritten, if_neg hx, if_neg (by omega), if_neg (by omega), if_pos ho]
  · simp only [List.mem_cons, List.not_mem_nil, or_false] at hi
    rcases hi with rfl | rfl | rfl | rfl | rfl | rfl | rfl <;> exact hostEvent_lost _ _ hp hm
  · rw [exec_snapPeerTrigger, execSnapPeerTrigger, powered_iff.2 hp, hl]
    rfl
  · rw [exec_snapPeerTrigger, execSnapPeerTrigger, powered_iff.2 hp, hl]
    rfl
  · rw [exec_snapGtTrigger, execSnapGtTrigger, if_pos hg]
  · rw [exec_snapGtTrigger, execSnapGtTrigger, if_neg (Nat.not_le.2 hg)]
  · rw [csrGet_snapNext, fld_setFld_same _ (by decide)]
  · rw [csrGet_snapNext, fld_setFld_other _ (by decide) (Or.inr (by decide))]

end Sys2Proof.Proofs

/-! PROOFS. Reset (21/R431, R437): a register reads as what is stored for it, but for the few that are computed. -/

namespace Sys2Proof.Proofs

open Sys2Proof.Machine

open Sys2Proof.Safety

/-- The numbers of registers whose value is computed, or is not the stored one before it is first written. -/
def computedRegs : List Nat := [0, 1, 0x20, 0x80, 0x90, 0x91, 0x92, 0x203, 0x381, 0x382, 0x3C2, 0x3C4]

theorem csrRead_stored {n : Nat} (s : State) (inst : Nat) (h : n ∉ computedRegs) : s.csrRead n inst = s.csrGet n inst := by
  simp only [computedRegs, List.mem_cons, List.not_mem_nil, or_false, not_or] at h
  obtain ⟨h0, h1, h20, h80, h90, h91, h92, h203, h381, h382, h3c2, h3c4⟩ := h
  unfold State.csrRead
  rw [if_neg h0, if_neg h1, if_neg h20, if_neg (fun h => h80 h.1), if_neg (by omega), if_neg h203, if_neg h381, if_neg h382,
    if_neg h3c2, if_neg h3c4]

theorem csrRead_reset {n : Nat} (inst : Nat) (h : n ∉ computedRegs) : State.reset.csrRead n inst = csrReset n :=
  csrRead_stored State.reset inst h

/-- Whether a register comes out of reset with a value: the reset value of what is stored, or, of the computed ones, FBSTAT and
KWAIT at zero and KSTAT with all 16 contexts free. -/
def resetsTo (p : Nat × Nat) : Bool :=
  (!computedRegs.contains p.1 && csrReset p.1 == dw p.2) || [(0x20, 0), (0x381, 0xFFFF), (0x382, 0)].contains p

/-- All 16 kitty contexts that KCFG counts are free. -/
theorem kstat_reset (die : Nat) : State.reset.kstat die = dw 0xFFFF := by
  show dw (maskOf (fld (csrReset 0x380) 8 8) (fun _ => decide (KState.free = .free))) = dw 0xFFFF
  decide

theorem kwait_reset (die : Nat) : State.reset.kwait die = dw 0 := by
  show dw (fld (csrReset 0x382) 32 1 * 2 ^ 32 + Nat.min 0 65535 * 2 ^ 16 + Nat.min 0 65535) = dw 0
  decide

/-- No queue holds a task, and the rotation pointer stands at 1. -/
theorem fld_tqstat_reset (die : Nat) : fld (State.reset.tqstat die) 0 4 = 1 := by
  show fld (dw ((if fld (csrReset 0x202) 0 1 == 1 then Nat.min (State.reset.poolSize die - State.reset.poolUsed die) 65535 else 0) *
    2 ^ 32 + maskOf 16 (fun _ => false) * 2 ^ 16 + fld (csrReset 0x203) 0 4)) 0 4 = 1
  rw [if_neg (by decide)]
  decide

theorem csrRead_of_resetsTo {p : Nat × Nat} (h : resetsTo p = true) (inst : Nat) : State.reset.csrRead p.1 inst = dw p.2 := by
  simp only [resetsTo, Bool.or_eq_true, Bool.and_eq_true, Bool.not_eq_true', List.contains_iff_mem, beq_iff_eq,
    ← Bool.not_eq_true] at h
  rcases h with ⟨hmem, hval⟩ | hcomputed
  · exact (csrRead_reset inst hmem).trans hval
  · simp only [List.mem_cons, List.not_mem_nil, or_false] at hcomputed
    rcases hcomputed with rfl | rfl | rfl
    · rfl
    · exact kstat_reset inst
    · exact kwait_reset inst

theorem csrReset_policy : ∀ cls, cls ≤ 22 → 1 ≤ cls →
    csrReset (0x300 + 4 * cls) = (if cls = 13 then 0x4200000000300000 else 0x1200000000300000) ∧
    csrReset (0x300 + 4 * cls + 1) = 0x0030000000010000 ∧ csrReset (0x300 + 4 * cls + 2) = 0 ∧
    csrReset (0x300 + 4 * cls + 3) = 0 := by decide

theorem policy_notComputed : ∀ cls, cls ≤ 22 → 1 ≤ cls → 0x300 + 4 * cls ∉ computedRegs ∧ 0x300 + 4 * cls + 1 ∉ computedRegs ∧
    0x300 + 4 * cls + 2 ∉ computedRegs ∧ 0x300 + 4 * cls + 3 ∉ computedRegs := by decide

theorem csrReset_peerWindow (n : Nat) : csrReset (0x1000 + n) = 0 := by
  unfold csrReset
  repeat rw [if_neg (by omega)]

theorem peerWindow_notComputed (n : Nat) : 0x1000 + n ∉ computedRegs := by
  simp only [computedRegs, List.mem_cons, List.not_mem_nil, or_false]
  omega

/-- PRBASE.BASE has no reset value, and its V bit is below it (log 13). -/
theorem fld_prbase_reset (die : Nat) : fld (State.reset.csrRead 0x80 die) 0 1 = 0 := by
  rw [show State.reset.csrRead 0x80 die = dw (Config.resetBase die % 2 ^ 29 * 2 ^ 23) from rfl, fld_dw _ _ _ (by decide)]
  omega

/-- Settles O56: what is stored comes out of reset as `csrReset` gives it, and every table is empty (that the windows are at STATE 0
is log 12, that no place holds a wave log 11). -/
theorem resetValues : Obligations.ResetValues := by
  unfold Obligations.ResetValues
  refine ⟨rfl, rfl, rfl, fun inst => ⟨rfl, ?_⟩, fun p hp inst _ =>
    csrRead_of_resetsTo ((show ∀ q ∈ _, resetsTo q = true from by decide) p hp) inst, fun die _ => ⟨fld_prbase_reset die, fld_tqstat_reset die⟩,
    fun cls die h1 h22 _ => ?_, fun n _ => ?_, fun a => rfl, fun t => rfl, fun n => rfl, fun id => rfl, fun i => ⟨rfl, rfl⟩⟩
  · show State.reset.id1 = _
    decide +kernel
  · obtain ⟨hn0, hn1, hn2, hn3⟩ := policy_notComputed cls h22 h1
    rw [csrRead_reset die hn0, csrRead_reset die hn1, csrRead_reset die hn2, csrRead_reset die hn3]
    exact csrReset_policy cls h22 h1
  · rw [csrRead_reset 0 (peerWindow_notComputed n), csrReset_peerWindow]

end Sys2Proof.Proofs

/-! PROOFS. Registers written (13/R340 to R342, 14/R363, R371, 15/R381, 04/R96): what the host's access comes to, and the rules of the
registers that have one of their own. -/

namespace Sys2Proof.Proofs

open Sys2Proof.Machine

open Sys2Proof.Safety

/-! ## Access of the host to BAR0 (R426, R427) -/

section Access
variable {s : State} {num inst : Nat} {v : Dword}

theorem exec_registerWrite (num inst : Nat) (v : Dword) (s : State) :
    exec (.registerWrite num inst v) s = execRegisterWrite num inst v s := rfl

/-- The numbers of registers lie below those that stand for the mailbox and for reads. -/
theorem csrInsts_none (h : 0x2000 ≤ num) : csrInsts num = none := by
  unfold csrInsts
  repeat rw [if_neg (by omega)]

theorem num_lt_of_csrInsts {n : Nat} (h : csrInsts num = some n) : num < 0x2000 := by
  by_contra hge
  rw [csrInsts_none (by omega)] at h
  cases h

/-- What a write comes to where it is not a read by its number. -/
def hostWritten (s : State) (num inst : Nat) (v : Dword) : State :=
  if 0x20000 ≤ num ∧ num < 0x22000 then s.mailWrite (num - 0x20000) v
  else match csrInsts num with
    | none => s
    | some n => if inst ≥ n ∨ (0x90 ≤ num ∧ num ≤ 0x92) then s else s.writeCsr num inst v none

theorem exec_registerWrite_write (h : num < 2 ^ 32) :
    exec (.registerWrite num inst v) s = s.hostEvent "REGISTER_WRITE" (hostWritten s num inst v) := by
  rw [exec_registerWrite, execRegisterWrite, if_neg (by omega)]
  rfl

theorem exec_registerWrite_read (hp : s.power ≠ .d3cold) (off : Nat) :
    exec (.registerWrite (2 ^ 32 + off) inst v) s = .next (s.hostRead off) := by
  rw [exec_registerWrite, execRegisterWrite, if_pos ⟨by omega, powered_iff.2 hp⟩, Nat.add_sub_cancel_left]

theorem exec_registerWrite_unpowered (hp : s.power = .d3cold) :
    exec (.registerWrite num inst v) s = .refused (.notEnabled "REGISTER_WRITE") := by
  rw [exec_registerWrite, execRegisterWrite, if_neg (by simp [State.powered, hp])]
  exact hostEvent_refused _ _ hp

theorem hostWritten_register {n : Nat} (h : csrInsts num = some n) (hi : inst < n) (hn : num ∉ [0x90, 0x91, 0x92]) :
    hostWritten s num inst v = s.writeCsr num inst v none := by
  have hlt := num_lt_of_csrInsts h
  simp only [List.mem_cons, List.not_mem_nil, or_false, not_or] at hn
  rw [hostWritten, if_neg (by omega), h]
  exact if_neg (by omega)

theorem hostWritten_nothing (hlt : num < 0x20000) (h : csrInsts num = none) : hostWritten s num inst v = s := by
  rw [hostWritten, if_neg (by omega), h]

theorem hostWritten_mailbox {off : Nat} (h : off < 0x2000) : hostWritten s (0x20000 + off) inst v = s.mailWrite off v := by
  rw [hostWritten, if_pos (by omega), Nat.add_sub_cancel_left]

/-- The answer to a read of the host. -/
def readAnswer (s : State) (off : Nat) : Sent :=
  { who := .host 0, kind := .register, line := off, data := toBytes 8 (s.barRead off).toNat, old := 0, expiry := 0, wct := 0,
    due := s.gt, left := 0 }

/-- A read sends its answer, and that of SNAPDATA advances an index besides. -/
theorem hostRead_frame (s : State) (off : Nat) : (s.hostRead off).sent = s.sent ++ [readAnswer s off] ∧
    (s.hostRead off).mem = s.mem ∧ (s.hostRead off).waves = s.waves := by
  unfold State.hostRead
  dsimp only
  split <;> exact ⟨rfl, rfl, rfl⟩

/-- A read of 4 bytes gives the high half of the 8 bytes that hold them. -/
theorem barRead_high {off : Nat} (h4 : off % 8 = 4) (hlt : off < 0x10000000) :
    (s.barRead off).toNat = fld (s.barRead (off - 4)) 32 32 := by
  have hquad : s.barRead (off - 4) = s.barQuad (off - 4) := if_pos (by omega)
  rw [hquad, State.barRead, if_neg (by omega), if_pos ⟨h4, hlt⟩, dw, BitVec.toNat_ofNat]
  exact Nat.mod_eq_of_lt (Nat.lt_trans (fld_lt _ _ _) (by decide))

end Access

/-! ## Registers with rules of their own -/

section Rules
variable (s : State) (die : Nat) (v : Dword)

theorem exec_l2modeWrite (by_ : Option Nat) : exec (.l2modeWrite v by_) s = .next (s.writeL2mode v by_) := rfl

/-- L2MODE with a status. -/
theorem fld_l2status (t : State) (st : Nat) :
    fld ((t.csrPut 0x50 0 (setFld (t.csrGet 0x50 0) 4 4 st)).csrGet 0x50 0) 4 4 = st % 2 ^ 4 := by
  rw [State.csrGet_csrPut_same, fld_setFld_same _ (by decide)]

/-- While a flush goes on or anything else runs, a write to L2MODE leaves its status and nothing else. -/
theorem writeL2mode_refused {by_ : Option Nat} (h : s.flushing.isSome = true ∨ s.busyBut by_ = true) :
    s.writeL2mode v by_ = s.csrPut 0x50 0 (setFld (s.csrGet 0x50 0) 4 4 2) := by
  rw [State.writeL2mode, if_pos (by simpa using h)]

theorem emptyCaches_of_uncached {t : State} (h : t.caches = []) :
    t.emptyCaches.flushing = t.flushing ∧ ∀ m n, t.emptyCaches.csrGet m n = t.csrGet m n := by
  unfold State.emptyCaches
  rw [h]
  exact ⟨rfl, fun _ _ => rfl⟩

/-- Otherwise a flush begins; where no core holds a copy, only peer lines leave the slices. -/
theorem writeL2mode_begins {by_ : Option Nat} (hf : s.flushing = none) (hb : s.busyBut by_ = false) (hc : s.caches = []) :
    (s.writeL2mode v by_).flushing = some (fld v 0 1, false, by_) ∧ fld ((s.writeL2mode v by_).csrGet 0x50 0) 4 4 = 1 := by
  have hbegun : s.writeL2mode v by_ = ({ s.csrPut 0x50 0 (setFld (s.csrGet 0x50 0) 4 4 1) with
      flushing := some (fld v 0 1, false, by_) } : State).emptyCaches := by
    rw [State.writeL2mode, if_neg (by simp [hf, hb])]
  obtain ⟨hflushing, hcsr⟩ := emptyCaches_of_uncached (t := { s.csrPut 0x50 0 (setFld (s.csrGet 0x50 0) 4 4 1) with
      flushing := some (fld v 0 1, false, by_) }) hc
  rw [hbegun]
  exact ⟨hflushing, (congrArg (fld · 4 4) (hcsr 0x50 0)).trans (fld_l2status s 1)⟩

theorem exec_twlogClear : exec (.twlogClear die v) s = .next (s.writeTwlog die v) := rfl

theorem writeTwlog_clears (h : fld v 0 1 = 1) : fld ((s.writeTwlog die v).csrGet 0x40 die) 0 1 = 0 ∧
    fld ((s.writeTwlog die v).csrGet 0x40 die) 52 12 = 0 := by
  rw [State.writeTwlog, if_pos h, State.csrGet_csrPut_same, fld_setFld_other _ (by decide) (by decide),
    fld_setFld_same _ (by decide), fld_setFld_same _ (by decide)]
  exact ⟨rfl, rfl⟩

theorem exec_prbaseWrite : exec (.prbaseWrite die v) s = .next (s.writePrbase die v) := rfl

theorem writePrbase_refused (h : s.records.any (fun (e : Nat × Record) => e.1 / 4096 == die) = true) : s.writePrbase die v = s :=
  if_pos (Or.inl h)

theorem writePrbase_invalid (h : s.records.any (fun (e : Nat × Record) => e.1 / 4096 == die) = false) (hv : fld v 0 1 = 0) :
    s.writePrbase die v = s.csrStore 0x80 die v := by
  rw [State.writePrbase, if_neg (by simp [h, hv])]
  exact if_neg (by omega)

theorem exec_mrbaseWrite : exec (.mrbaseWrite die v) s = .next (s.writeMrbase die v) := rfl

/-- While EN is 1 the base stands. -/
theorem csrGet_writeMrbase : (s.writeMrbase die v).csrGet 0x70 die = stored 0x70
    (if fld (s.csrGet 0x70 die) 0 1 = 1 then setFld v 13 39 (fld (s.csrGet 0x70 die) 13 39) else v) (s.csrGet 0x70 die) :=
  csrGet_csrStore_same ..

theorem exec_tqbaseWrite : exec (.tqbaseWrite die v) s = .next (s.writeTqbase die v) := rfl

theorem exec_kcfgWrite : exec (.kcfgWrite die v) s = .next (s.writeKcfg die v) := rfl

/-- A context that is not free keeps KCFG, and KWAIT shows the refusal. -/
theorem writeKcfg_refused {i : Nat} (hi : i < 64) (h : Sparse.get KState.free s.kitty (die * 64 + i) ≠ .free) :
    s.writeKcfg die v = s.csrPut 0x382 die (setFld (s.csrGet 0x382 die) 32 1 1) :=
  if_pos (Or.inl (List.any_eq_true.2 ⟨i, List.mem_range.2 hi, decide_eq_true h⟩))

theorem writeKcfg_taken (h : ∀ i, i < 64 → Sparse.get KState.free s.kitty (die * 64 + i) = .free) (hc : 2 ≤ fld v 8 8)
    (hc' : fld v 8 8 ≤ 64) (hn : 1 ≤ fld v 4 2) (hn' : fld v 4 2 ≤ 3) (hk : 1 ≤ fld v 0 4) (hk' : fld v 0 4 ≤ 8) :
    s.writeKcfg die v = s.csrStore 0x380 die v := by
  have hfree : ¬ (List.range 64).any (fun i => decide (Sparse.get KState.free s.kitty (die * 64 + i) ≠ .free)) = true := by
    simpa using h
  unfold State.writeKcfg
  dsimp only
  rw [if_neg]
  intro hbad
  rcases hbad with hbusy | hbad
  · exact hfree hbusy
  · omega

theorem exec_ctxbaseWrite : exec (.ctxbaseWrite die v) s =
    .next (if 1 ≤ s.preStatus die ∧ s.preStatus die ≤ 3 then s else s.csrStore 0x201 die v) := by
  rw [show exec (.ctxbaseWrite die v) s = execCtxbaseWrite die v s from rfl, execCtxbaseWrite]
  split <;> rfl

end Rules

/-! ## PRECTL (R363) -/

section Prectl
variable (s : State) (die ctx : Nat)

theorem preStatus_setPreStatus (st : Nat) : (s.setPreStatus die st).preStatus die = st % 2 ^ 4 := by
  rw [State.preStatus, State.setPreStatus, State.csrGet_csrPut_same, fld_setFld_same _ (by decide)]

theorem exec_prectlSave : exec (.prectlSave die ctx) s =
    .next (if s.preStatus die = 1 ∨ s.preStatus die = 3 then s.setPreStatus die 4 else s.beginSave die ctx) := by
  rw [show exec (.prectlSave die ctx) s = execPrectlSave die ctx s from rfl, execPrectlSave]
  split <;> rfl

/-- A save asked for: its status, and the context kept from placement. -/
theorem beginSave_status : (s.beginSave die ctx).preStatus die = 1 ∧ (s.beginSave die ctx).prectl die ctx = true := by
  refine ⟨?_, ?_⟩
  · exact (congrArg (fld · 8 4) (State.csrGet_csrPut_same ..)).trans (fld_setFld_same _ (by decide))
  · exact List.contains_iff_mem.2 (List.mem_append_right _ (List.mem_singleton_self _))

theorem exec_prectlRestore (die ctx : Nat) (s : State) : exec (.prectlRestore die ctx) s = execPrectlRestore die ctx s := rfl

theorem exec_prectlRestore_nothingSaved (h : s.saved.any (fun x => x.die == die && x.ctx == ctx) = false) :
    exec (.prectlRestore die ctx) s = .next (s.setPreStatus die 4) := by
  rw [exec_prectlRestore, execPrectlRestore, if_pos (by simp [h])]

/-- A restore begun: the context may be placed again. -/
theorem exec_prectlRestore_begins (h : s.saved.any (fun x => x.die == die && x.ctx == ctx) = true) (h1 : s.preStatus die ≠ 1)
    (h3 : s.preStatus die ≠ 3) : ∃ t, exec (.prectlRestore die ctx) s = .next t ∧ t.preStatus die = 3 ∧ t.prectl die ctx = false := by
  rw [exec_prectlRestore, execPrectlRestore, if_neg (by rw [h]; simp [h1, h3])]
  refine ⟨_, rfl, ?_, ?_⟩
  · exact (congrArg (fld · 8 4) (State.csrGet_csrPut_same ..)).trans (fld_setFld_same _ (by decide))
  · rw [State.prectl, ← Bool.not_eq_true, List.contains_iff_mem]
    intro hmem
    have hkept := (List.mem_filter.1 hmem).2
    simp at hkept

end Prectl

/-- Settles O53: a write by the host comes to the register's own rule (in RESET it is lost, log 121), a number of 2^32 and more to
a read (log 106), and each event is the rule of its register. -/
theorem registerWrites : Obligations.RegisterWrites := by
  unfold Obligations.RegisterWrites
  intro s die num inst v by_
  refine ⟨fun hp hm hlt => ?_, fun hp hm => ⟨fun n hn hi hnot => ?_, fun hlt hn => ?_, fun off hoff => ?_⟩, fun hp off => ?_,
    fun hp => exec_registerWrite_unpowered hp, ⟨_, exec_l2modeWrite s v by_, fun h => ?_, fun hf hb hc => writeL2mode_begins s v hf hb hc⟩,
    ⟨_, exec_twlogClear s die v, fun h => if_neg (by omega), fun h => writeTwlog_clears s die v h⟩,
    ⟨s.csrPut 0xA0 die 0, rfl, State.csrGet_csrPut_same .., rfl⟩,
    ⟨_, exec_prbaseWrite s die v, fun h => writePrbase_refused s die v h, fun h hv => ?_⟩,
    ⟨_, exec_mrbaseWrite s die v, ?_, ?_, ?_⟩, ⟨_, exec_tqbaseWrite s die v, fun h => if_pos h, fun h => ?_⟩,
    ⟨_, exec_kcfgWrite s die v, fun ⟨i, hi, h⟩ => ?_, fun h hc hc' hn hn' hk hk' => ?_⟩,
    ⟨_, exec_ctxbaseWrite s die v, fun h1 h3 => if_pos ⟨h1, h3⟩, fun h => ?_⟩, fun ctx _ =>
    ⟨⟨_, exec_prectlSave s die ctx, fun h => ?_, fun h1 h3 => ?_⟩, fun h => ⟨_, exec_prectlRestore_nothingSaved s die ctx h,
      preStatus_setPreStatus s die 4, rfl⟩, fun h h1 h3 _ => exec_prectlRestore_begins s die ctx h h1 h3⟩⟩
  · rw [exec_registerWrite_write hlt, hostEvent_lost _ _ hp hm]
  · have hlt := num_lt_of_csrInsts hn
    rw [exec_registerWrite_write (by omega), hostEvent_next _ _ hp hm, hostWritten_register hn hi hnot]
  · rw [exec_registerWrite_write (by omega), hostEvent_next _ _ hp hm, hostWritten_nothing hlt hn]
  · rw [exec_registerWrite_write (by omega), hostEvent_next _ _ hp hm, hostWritten_mailbox hoff]
  · obtain ⟨hsent, hmem, hwaves⟩ := hostRead_frame s off
    refine ⟨_, readAnswer s off, exec_registerWrite_read hp off, hsent, rfl, rfl, rfl, hmem, hwaves, fun h => ?_, fun h => ?_,
      fun h4 hlt => congrArg (toBytes 8) (barRead_high h4 hlt)⟩
    · subst h
      rfl
    · subst h
      rfl
  · rw [writeL2mode_refused s v h]
    exact ⟨rfl, rfl, fld_l2status s 2⟩
  · rw [writePrbase_invalid s die v h hv, csrGet_csrStore_same, fld_stored _ _ (by decide), fld_stored _ _ (by decide)]
    exact ⟨hv, rfl⟩
  · rw [csrGet_writeMrbase, fld_stored _ _ (by decide)]
    split
    · exact fld_setFld_other _ (by decide) (by decide)
    · rfl
  · rw [csrGet_writeMrbase, fld_stored _ _ (by decide)]
    split
    · rw [fld_setFld_same _ (by decide), fld_mod_self]
    · rfl
  · rw [State.writeMrbase, csrStore_eq]
    rfl
  · rw [State.writeTqbase, if_neg (by omega), csrGet_csrStore_same, fld_stored _ _ (by decide), fld_stored _ _ (by decide)]
    exact ⟨rfl, rfl⟩
  · rw [writeKcfg_refused s die v hi h]
    exact ⟨(congrArg (fld · 32 1) (State.csrGet_csrPut_same ..)).trans (fld_setFld_same _ (by decide)),
      csrGet_csrPut_other s _ (by omega)⟩
  · rw [writeKcfg_taken s die v h hc hc' hn hn' hk hk', csrGet_csrStore_same, fld_stored _ _ (by decide), fld_stored _ _ (by decide),
      fld_stored _ _ (by decide)]
    exact ⟨rfl, rfl, rfl⟩
  · rw [if_neg (by omega), csrGet_csrStore_same, fld_stored _ _ (by decide), fld_stored _ _ (by decide)]
    exact ⟨rfl, rfl⟩
  · rw [if_pos h]
    exact ⟨preStatus_setPreStatus s die 4, rfl⟩
  · rw [if_neg (by omega)]
    exact beginSave_status s die ctx

end Sys2Proof.Proofs

/-! PROOFS. What an instruction leaves of the package besides its wave (07/R153, 10/R222, 14/R358): what making registers resident, issue
and a value written in the active lanes can change. -/

namespace Sys2Proof.Proofs

open Sys2Proof.Machine

open Sys2Proof.Safety

/-! ## The span (R153, R156) -/

/-- All that reaching the backing area and moving registers changes: memory with its poison and copies, TLBs, waves and the count of
free values. -/
def SpanOnly (s t : State) : Prop :=
  t = { s with mem := t.mem, poison := t.poison, caches := t.caches, slices := t.slices, l1tlb := t.l1tlb, l2tlb := t.l2tlb,
               waves := t.waves, fresh := t.fresh }

section Span
variable {s t u : State}

theorem SpanOnly.refl (s : State) : SpanOnly s s := rfl

theorem SpanOnly.trans (h : SpanOnly s t) (g : SpanOnly t u) : SpanOnly s u := by
  unfold SpanOnly at *
  rw [g, h]

theorem SpanOnly.foldl {α : Type} {f : State → α → State} (hf : ∀ t x, SpanOnly t (f t x)) (l : List α) (s : State) :
    SpanOnly s (l.foldl f s) := by
  induction l generalizing s with
  | nil => exact .refl s
  | cons x r ih => exact (hf s x).trans (ih _)

theorem SpanOnly.setAD (s : State) (c leaf : Nat) (d : Bool) : SpanOnly s (s.setAD c leaf d) := by
  unfold SpanOnly
  rw [setAD_eq]

theorem SpanOnly.devWrite (s : State) (c a : Nat) (bs : List Byte) : SpanOnly s (s.devWrite c a bs) := by
  unfold SpanOnly
  rw [devWrite_eq]

theorem SpanOnly.modWave (s : State) (id : Nat) (f : Wave → Wave) : SpanOnly s (s.modWave id f) := rfl

theorem spanOnly_of_stop {r : Reach} {va : Dword} (h : r.stop s va = .ok t) : SpanOnly s t := by
  cases r with
  | ok pa leaf =>
    cases h
    exact .refl s
  | moving d id => cases h
  | held => cases h
  | fail c fa fi => cases h

theorem spillReg_spanOnly {id j : Nat} (h : s.spillReg id j = .ok t) : SpanOnly s t := by
  unfold State.spillReg at h
  dsimp only at h
  split at h
  next pa leaf _ =>
    cases h
    refine (SpanOnly.setAD s (coreOfWave id) leaf true).trans (SpanOnly.trans ?_ (SpanOnly.modWave _ id _))
    split
    · exact .devWrite ..
    · refine (SpanOnly.devWrite ..).trans (.foldl (fun t l => ?_) _ _)
      split
      · exact .refl t
      · exact rfl
  · exact spanOnly_of_stop h

theorem fillReg_spanOnly {id j : Nat} (h : s.fillReg id j = .ok t) : SpanOnly s t := by
  unfold State.fillReg at h
  dsimp only at h
  split at h
  next pa leaf _ =>
    cases h
    exact (SpanOnly.setAD s (coreOfWave id) leaf false).trans (SpanOnly.modWave _ id _)
  · exact spanOnly_of_stop h

theorem spillRegs_spanOnly {id : Nat} (js : List Nat) (h : spillRegs js id s = .ok t) : SpanOnly s t := by
  induction js generalizing s with
  | nil =>
    cases h
    exact .refl _
  | cons j r ih =>
    obtain ⟨v, hv, ht⟩ := bind_eq_ok h
    exact (spillReg_spanOnly hv).trans (ih ht)

theorem fillRegs_spanOnly {id : Nat} (js : List Nat) (h : fillRegs js id s = .ok t) : SpanOnly s t := by
  induction js generalizing s with
  | nil =>
    cases h
    exact .refl _
  | cons j r ih =>
    obtain ⟨v, hv, ht⟩ := bind_eq_ok h
    exact (fillReg_spanOnly hv).trans (ih ht)

theorem spillGroups_spanOnly {id : Nat} (n : Nat) (h : spillGroups n id s = .ok t) : SpanOnly s t := by
  induction n generalizing s with
  | zero =>
    cases h
    exact .refl _
  | succ n ih =>
    unfold spillGroups at h
    split at h
    · cases h
    · obtain ⟨v, hv, ht⟩ := bind_eq_ok h
      exact (spillRegs_spanOnly _ hv).trans ((SpanOnly.modWave ..).trans (ih ht))

theorem makeResident_spanOnly {id base top : Nat} (h : s.makeResident id base top = .ok t) : SpanOnly s t := by
  obtain ⟨v, hv, h⟩ := bind_eq_ok h
  obtain ⟨x, hx, h⟩ := bind_eq_ok h
  cases h
  exact (spillGroups_spanOnly _ hv).trans ((fillRegs_spanOnly _ hx).trans
    ((SpanOnly.foldl (f := fun acc i => acc.enterReg id ((v.wave id).hi + i)) (fun _ _ => rfl) _ x).trans (SpanOnly.modWave ..)))

theorem span_spanOnly {o : Opnds} (h : s.span o = .ok u) : SpanOnly s u := by
  unfold State.span at h
  split at h
  · exact makeResident_spanOnly h
  · cases h
    exact .refl s

end Span

/-! ## Issue and lanes (R211, R222) -/

section Issue
variable {s t u : State} {i : Instr}

/-- Issue moves the wave, charges its task and counts for its core. -/
theorem issuedBy_eq (s : State) (i : Instr) : s.issuedBy i =
    { s with cntuni := (s.issuedBy i).cntuni, cntaff := (s.issuedBy i).cntaff, waves := (s.issuedBy i).waves,
             tasks := (s.issuedBy i).tasks, agenda := (s.issuedBy i).agenda } := by
  unfold State.issuedBy
  rw [charge_eq]
  rfl

/-- An instruction whose preparation leaves the state at hand issues as one without. -/
theorem issuesAfter_of_prepared {prep : State → Move} (h : Issues s i u) (hp : prep s = .ok s) : IssuesAfter s prep i u :=
  issuesAfter_of_prep_eq (prep := .ok) h hp

/-- A value that raises no condition is written in the active lanes, and nothing else changes. -/
theorem laneWrite_plain (t : State) (i : Instr) (d n : Nat) (srcs : List Src) (f : Nat → Nat) :
    t.laneWrite i d n srcs (fun l => plain (f l)) = t.setCur ((t.curWave.putVal d n f).markTo d n (t.curWave.srcMark srcs)) := by
  rw [State.laneWrite, Wave.conds_zero _ _ (fun _ => rfl), Nat.zero_and, if_neg (by decide)]
  rfl

theorem putLanes_completes (u : State) (i : Instr) (d : Nat) (f : Nat → Dword) :
    OnlyRegs u ((u.issuedBy i).putLanes i d f) i ∧ Gets u ((u.issuedBy i).putLanes i d f) d 2 (fun l => (f l).toNat) :=
  State.laneWrite_next u i i d 2 [] _ (Or.inr rfl) (by rw [Wave.conds_zero _ _ (fun _ => rfl), Nat.zero_and])

/-- What the lanes of the wave that moves got is read off the wave alone. -/
theorem Gets.of_curWave {d n : Nat} {f : Nat → Nat} {v : State} (h : Gets u t d n f) (hw : v.curWave = t.curWave) : Gets u v d n f := by
  unfold Gets
  rw [hw]
  exact h

theorem OnlyRegs.mem_eq (h : OnlyRegs u t i) : t.mem = (u.issuedBy i).mem := by
  rw [show t = (u.issuedBy i).setCur _ from h]
  rfl

end Issue

end Sys2Proof.Proofs

/-! PROOFS. Endings and triggers (13/R333 to R337, R339, R343, 15/R395): what a handler's instruction on a record of its own package
comes to once its checks have passed, a parked wave that goes on, and the latching of a snapshot. -/

namespace Sys2Proof.Proofs

open Sys2Proof.Machine

open Sys2Proof.Safety

/-! ## Handles of the own package (R324, R330) -/

section Own
variable {s u : State} {h : Word} {i : Instr} {a : Reg}

theorem isOwn_issuedBy (u : State) (i : Instr) (h : Word) : (u.issuedBy i).isOwn h = u.isOwn h := by
  unfold State.isOwn
  rw [issuedBy_pkg]

theorem isOwn_spanOnly (hs : SpanOnly s u) (h : Word) : u.isOwn h = s.isOwn h := by
  unfold State.isOwn
  rw [congrArg State.pkg hs]

/-- What is of the own package is not sent anywhere. -/
theorem linkPrep_own (hown : s.isOwn h = true) (i : Instr) : s.linkPrep i h = .ok s := by
  unfold State.linkPrep
  dsimp only
  rw [if_pos (by rw [hown, Bool.true_or])]

/-- An ending of a record of the own package: its fence has completed, and the unit ends. -/
theorem ending_own {e : Wave → Ending} (hs : s.isOwn (s.handle a) = true) (hu : u.isOwn (s.handle a) = true)
    (hc : s.recCheck (s.handle a) true false [] = none) (he : e (u.issuedBy i).curWave = e u.curWave)
    (hi : IssuesAfter s (fun t => ((t.fencePrep 4).bind (fun v => v.linkPrep i (s.handle a))).bind
      (fun v => v.againPrep (s.handle a) (e v.curWave))) i u) :
    s.ending i a e = .next ((u.issuedBy i).endUnit (handleRec (s.handle a)) (e u.curWave)) := by
  unfold State.ending
  dsimp only
  rw [hc, issueWith_next (issuesAfter_of_prep_eq hi (by rw [if_pos hs])), if_pos (by rw [isOwn_issuedBy, hu]), he]

theorem exec_prplay_own (hs : s.isOwn (s.handle a) = true) (hi : Issues s (.prplay a) u)
    (hr : s.reachable (bits (s.handle a).toNat 19 13) = true) : exec (.prplay a) s =
      .next ((u.issuedBy (.prplay a)).playCluster (bits (s.handle a).toNat 17 2 * 32 + bits (s.handle a).toNat 12 5)) := by
  rw [show exec (.prplay a) s = execPrplay a s from rfl]
  unfold execPrplay
  dsimp only
  rw [if_pos hr, issueWith_next (issuesAfter_of_prepared hi (linkPrep_own hs _)),
    if_pos (by rw [isOwn_issuedBy, isOwn_spanOnly (span_spanOnly hi.2), hs])]

end Own

/-! ## A parked wave goes on (R333, R334) -/

/-- A parked wave stands in its place. -/
def standsParked (s : State) (id : Nat) : Prop := ∃ w, Sparse.find s.waves id = some w ∧ w.status = .parked

section Continue
variable {s : State} {id : Nat}

theorem standsParked_modLive {f : Wave → Wave} (hf : ∀ w, (f w).status = w.status) (h : standsParked s id) :
    standsParked (s.modLive id f) id := by
  obtain ⟨w, hw, hst⟩ := h
  exact ⟨f w, find_update_same hw f, (hf w).trans hst⟩

theorem standsParked_dropOp (op : Nat) (h : standsParked s id) : standsParked (s.dropOp op id) id := by
  have hdone : standsParked ({ s with ops := Sparse.erase s.ops op }.modLive id (fun w => w.retireOp op)) id :=
    standsParked_modLive (s := { s with ops := Sparse.erase s.ops op }) (fun _ => rfl) h
  obtain ⟨w, hw, hst⟩ := hdone
  rw [State.dropOp, settle_of_not_draining (by rw [wave_of_find hw, hst]; decide)]
  exact ⟨w, hw, hst⟩

theorem standsParked_dropResumed (h : standsParked s id) : standsParked (s.dropResumed id) id := by
  unfold State.dropResumed
  generalize s.ops.filter (fun e => e.2.wave == id && e.2.resume) = es
  induction es generalizing s with
  | nil => exact h
  | cons e r ih => exact ih (standsParked_dropOp e.1 h)

/-- A parked wave that goes on is ready at the PC given. -/
theorem continueAt_wave (x : Nat) (pc : Dword) (b : Bool) (h : standsParked s id) :
    ((s.continueAt x id pc b).wave id).status = .ready ∧ ((s.continueAt x id pc b).wave id).pc = pc := by
  have hqueue : standsParked (if pc = (s.wave id).pc then s else s.unqueue id) id := by
    split <;> exact h
  obtain ⟨w, hw, -⟩ := standsParked_dropResumed (standsParked_modLive (fun _ => rfl) hqueue :
    standsParked (State.takeHeader _ x id b) id)
  have hwave := wave_of_find (s := s.continueAt x id pc b) (find_update_same hw _)
  rw [hwave]
  exact ⟨rfl, rfl⟩

end Continue

/-! ## Snapshots (R343, R395) -/

section Snapshot
variable {s : State} {src bit : Nat}

theorem snapTrigger_unarmed (h : fld (s.csrGet 0x3C0 0) 63 1 = 0 ∨ fld (s.csrGet 0x3C0 0) bit 1 = 0) : s.snapTrigger src bit = s :=
  if_neg (by omega)

theorem snapTrigger_armed (ha : fld (s.csrGet 0x3C0 0) 63 1 = 1) (hb : fld (s.csrGet 0x3C0 0) bit 1 = 1) :
    s.snapTrigger src bit = s.latch src := if_pos ⟨ha, hb⟩

theorem csrGet_latch (s : State) (src : Nat) : (s.latch src).csrGet 0x3C0 0 =
    setFld (setFld (setFld (s.csrGet 0x3C0 0) 63 1 0) 62 1 1) 59 3 src := State.csrGet_csrPut_same ..

theorem latch_disarms (s : State) (src : Nat) : (s.latch src).latchGT = s.gt ∧ fld ((s.latch src).csrGet 0x3C0 0) 63 1 = 0 ∧
    fld ((s.latch src).csrGet 0x3C0 0) 62 1 = 1 := by
  rw [csrGet_latch, fld_setFld_other _ (by decide) (by decide), fld_setFld_other _ (by decide) (by decide),
    fld_setFld_same _ (by decide), fld_setFld_other _ (by decide) (by decide), fld_setFld_same _ (by decide)]
  exact ⟨rfl, rfl, rfl⟩

end Snapshot

/-! ## KREPL (R339) -/

section Krepl
variable {s u : State} {d a : Reg}

/-- The state that KREPL leaves: the index word replaced, the old one given to the active lanes. -/
def kreplState (t : State) (d a : Reg) : State :=
  let w := t.curWave
  ({ t with kix := Sparse.put t.kix (w.kixOf a) (w.v64 a w.uniform &&& 0xFFFFFFFFFFFFFFC1) } : State).putLanes (.krepl d a) d
    (fun _ => Sparse.get 0 t.kix (w.kixOf a))

theorem exec_krepl (h : Issues s (.krepl d a) u) :
    exec (.krepl d a) s = .next (kreplState (u.issuedBy (.krepl d a)) d a) :=
  (show exec (.krepl d a) s = execKrepl d a s from rfl).trans (issue_next h)

/-- Beside the index word KREPL writes registers. -/
theorem kreplState_eq (t : State) (d a : Reg) : kreplState t d a =
    { t.putLanes (.krepl d a) d (fun _ => Sparse.get 0 t.kix (t.curWave.kixOf a)) with
      kix := Sparse.put t.kix (t.curWave.kixOf a) (t.curWave.v64 a t.curWave.uniform &&& 0xFFFFFFFFFFFFFFC1) } := by
  unfold kreplState State.putLanes
  rw [laneWrite_plain, laneWrite_plain]
  rfl

end Krepl

/-- Settles O46: each ending is one operation of the model applied once its fence has completed, a trigger latches where it is armed, and
KREPL's write keeps the bits that R404 gives an index word; what SNAP sends to other packages is theirs (log 1). -/
theorem endingsAndTriggers : Obligations.EndingsAndTriggers := by
  unfold Obligations.EndingsAndTriggers
  refine ⟨fun s u d a i e hmem => ?_, fun s x id pc b w hw hst => continueAt_wave x pc b ⟨w, hw, hst⟩,
    fun s u a hs hi hr => exec_prplay_own hs hi hr, fun s u b hi => (show exec (.snap b) s = execSnap b s from rfl).trans (issue_next hi),
    fun s src bit => ⟨fun h => snapTrigger_unarmed h, fun ha hb => ?_⟩, fun s u d a hi => ?_⟩
  · intro h hs hu hc hi
    simp only [List.mem_cons, List.not_mem_nil, or_false, Prod.mk.injEq] at hmem
    rcases hmem with ⟨rfl, rfl⟩ | ⟨rfl, rfl⟩ | ⟨rfl, rfl⟩ | ⟨rfl, rfl⟩
    · exact (show exec (.presume a) s = s.ending (.presume a) a (fun _ => .resume) from rfl).trans (ending_own hs hu hc rfl hi)
    · exact (show exec (.pretry a) s = s.ending (.pretry a) a (fun _ => .retry) from rfl).trans (ending_own hs hu hc rfl hi)
    · exact (show exec (.pkill a) s = s.ending (.pkill a) a (fun _ => .kill) from rfl).trans (ending_own hs hu hc rfl hi)
    · exact (show exec (.predir d a) s = s.ending (.predir d a) a (fun w => .redirect (w.v64 d w.uniform)) from rfl).trans
        (ending_own hs hu hc (congrArg Ending.redirect (issuedBy_uniform64 u _ d)) hi)
  · rw [snapTrigger_armed ha hb]
    exact latch_disarms s src
  · have hwave : (u.issuedBy (.krepl d a)).curWave.kixOf a = u.curWave.kixOf a := by
      rw [State.issuedBy_curWave]
      rfl
    have hkix : (u.issuedBy (.krepl d a)).kix = u.kix := by rw [issuedBy_eq u]
    obtain ⟨honly, hgets⟩ := putLanes_completes u (.krepl d a) d (fun _ => Sparse.get 0 u.kix (u.curWave.kixOf a))
    have hmem := OnlyRegs.mem_eq honly
    refine ⟨_, exec_krepl hi, ?_⟩
    rw [kreplState_eq, hwave, hkix, issuedBy_uniform64]
    exact ⟨hmem, Gets.of_curWave hgets rfl, Sparse.get_put_same .., fun m hm => Sparse.get_put_other 0 _ _ hm⟩

end Sys2Proof.Proofs

/-! PROOFS. A late fault (14/R359, 07/R42): what fails a lane at its home answers the core of that lane's wave, and the model tries again
what that core holds, so the event does more than fail the lanes. -/

namespace Sys2Proof.Proofs

open Sys2Proof.Machine

open Sys2Proof.Safety

/-- A load of 4 bytes at `va` for lane 0 of wave 0, in the given phase. -/
def loadIn (va : Dword) (p : LPhase) : MemOp :=
  { wave := 0, kind := .load false, pc := 0, iword := 0, frame := none, dst := [1], size := 4, hint := .dflt, order := .plain,
    scope := none, count := none, seq := 0, gmode := 0, replay := false, resume := false, npc := 0, cdepth := 0,
    lanes := [{ lane := 0, va := va, phase := p, data := [], cmp := [], key := none }] }

/-- Two loads under way: the first is at its home, the second still waits for its translation. -/
def twoLoads : State :=
  { State.reset with ops := [(1, loadIn 0x10000 .sent), (2, loadIn 0x20000 .xlate)] }

theorem exec_lateFault (op : Nat) (lanes : List Nat) (cls : Nat) (info : Dword) (s : State) : exec (.lateFault op lanes cls info) s =
    .next ((s.failLanes op lanes cls info).retryCore (coreOfWave (((Sparse.find s.ops op).map (·.wave)).getD 0))) := rfl

/-- Failing the first load's lane begins no walk. -/
theorem failLanes_twoLoads_walks : (twoLoads.failLanes 1 [0] 8 0).walks.length = 0 := by decide +kernel

/-- The core is tried again: the second load's page is asked for. -/
theorem retryCore_twoLoads_walks :
    ((twoLoads.failLanes 1 [0] 8 0).retryCore (coreOfWave (((Sparse.find twoLoads.ops 1).map (·.wave)).getD 0))).walks.length = 1 := by
  decide +kernel

/-- Refutes O48: its clause on LATE_FAULT says that the event fails the lanes and does no more. In `twoLoads` the late fault of the
first load also tries the core's second load again, and a walk begins. -/
theorem not_systemEvents : ¬ Obligations.SystemEvents := by
  unfold Obligations.SystemEvents
  intro h
  obtain ⟨-, hlate, -⟩ := h
  have hstep := hlate twoLoads 1 [0] 8 0
  rw [exec_lateFault] at hstep
  have hwalks := retryCore_twoLoads_walks
  rw [Host.Outcome.next.inj hstep, failLanes_twoLoads_walks] at hwalks
  exact absurd hwalks (by decide)

end Sys2Proof.Proofs

/-! PROOFS. System registers (13/R340 to R342), PTLD and RGSET (03/R62, R73): the value that a CSRR gives, the bits that a CSRW stores,
and what RGSET reads of the drains and tables. -/

namespace Sys2Proof.Proofs

open Sys2Proof.Machine

open Sys2Proof.Safety

/-! ## CSRR and CSRW (R340) -/

section Csr
variable {s u : State} {d a : Reg}

theorem exec_csrr (d a : Reg) (s : State) : exec (.csrr d a) s = s.issueWith (.csrr d a) (csrCheck (s.handle a)) .ok (fun t =>
    let v := t.putLanes (.csrr d a) d (fun _ => t.csrRead (csrNum (s.handle a)) (csrIx (s.handle a)))
    if csrNum (s.handle a) = 0x3C4 then v.snapNext else v) := rfl

theorem exec_csrw (d a : Reg) (s : State) : exec (.csrw d a) s = s.issueWith (.csrw d a) (csrCheck (s.handle a))
    (fun t => if csrNum (s.handle a) = 0x50 then t.modePrep (s.curWave.v64 d s.curWave.uniform) else .ok t)
    (fun t => if csrNum (s.handle a) = 0x50 then t
      else t.writeCsr (csrNum (s.handle a)) (csrIx (s.handle a)) (s.curWave.v64 d s.curWave.uniform) (some t.cur)) := rfl

/-- A check that fails: which, and what the wave is told. -/
theorem csrCheck_fails {n : Word} {code : Nat} (h : (csrInsts (bits n.toNat 0 16) = none ∧ code = 1) ∨
    (∃ k, csrInsts (bits n.toNat 0 16) = some k ∧ k ≠ 1 ∧ k ≤ bits n.toNat 16 8 ∧ code = 2)) :
    csrCheck n = some (7, dw (bits n.toNat 0 24), misInfo 0x3A code) := by
  unfold csrCheck
  obtain ⟨hn, rfl⟩ | ⟨k, hk, hmany, hbeyond, rfl⟩ := h
  · rw [hn]
  · rw [hk]
    exact if_pos ⟨hmany, hbeyond⟩

theorem csr_unassigned_parks {i : Instr} {code : Nat} (hi : i = .csrr d a ∨ i = .csrw d a) (hp : passes s i = true)
    (h : csrCheck (s.handle a) = some (7, dw (bits (s.handle a).toNat 0 24), misInfo 0x3A code)) :
    ∃ t, exec i s = .next t ∧ ParksBefore s t 7 (dw (bits (s.handle a).toNat 0 24)) (misInfo 0x3A code) := by
  obtain rfl | rfl := hi
  · rw [exec_csrr, h]
    exact issueWith_parksBefore hp
  · rw [exec_csrw, h]
    exact issueWith_parksBefore hp

theorem exec_csrr_completes (hc : csrCheck (s.handle a) = none) (hi : Issues s (.csrr d a) u) :
    ∃ t, exec (.csrr d a) s = .next t ∧ Gets u t d 2 (fun _ =>
        ((u.issuedBy (.csrr d a)).csrRead (csrNum (s.handle a)) (csrIx (s.handle a))).toNat) ∧
      t.mem = (u.issuedBy (.csrr d a)).mem ∧ (csrNum (s.handle a) ≠ 0x3C4 → OnlyRegs u t (.csrr d a)) := by
  obtain ⟨honly, hgets⟩ := putLanes_completes u (.csrr d a) d
    (fun _ => (u.issuedBy (.csrr d a)).csrRead (csrNum (s.handle a)) (csrIx (s.handle a)))
  have hmem := OnlyRegs.mem_eq honly
  rw [exec_csrr, hc, issueWith_next (issuesAfter_of_prepared hi rfl)]
  refine ⟨_, rfl, ?_⟩
  dsimp only
  split
  · exact ⟨Gets.of_curWave hgets rfl, hmem, fun h => absurd ‹_› h⟩
  · exact ⟨hgets, hmem, fun _ => honly⟩

theorem exec_csrw_plain (hc : csrCheck (s.handle a) = none) (hn : csrNum (s.handle a) ≠ 0x50) (hi : Issues s (.csrw d a) u) :
    exec (.csrw d a) s = .next ((u.issuedBy (.csrw d a)).writeCsr (csrNum (s.handle a)) (csrIx (s.handle a))
      (s.curWave.v64 d s.curWave.uniform) (some u.cur)) := by
  rw [exec_csrw, hc, issueWith_next (issuesAfter_of_prepared hi (if_neg hn)), if_neg hn, State.issuedBy_cur]

/-- The write of L2MODE was made when the wave began to wait; once the flush is over it only issues. -/
theorem exec_csrw_l2mode (hc : csrCheck (s.handle a) = none) (hn : csrNum (s.handle a) = 0x50) (hs : s.curWave.stage = 1)
    (hf : s.flushing = none) (hi : Issues s (.csrw d a) u) : exec (.csrw d a) s = .next (u.issuedBy (.csrw d a)) := by
  have hprep : s.modePrep (s.curWave.v64 d s.curWave.uniform) = .ok s := by
    unfold State.modePrep
    rw [if_pos hs, hf]
    rfl
  rw [exec_csrw, hc, issueWith_next (issuesAfter_of_prepared hi ((if_pos hn).trans hprep)), if_pos hn]

/-- A register whose write has no effect of its own takes the value's writable bits. -/
theorem writeCsr_eq_csrStore {num : Nat} (h : num ∉ [0x40, 0x50, 0x70, 0x71, 0x80, 0xA0, 0x200, 0x201, 0x202, 0x380, 0x430])
    (s : State) (inst : Nat) (v : Dword) (by_ : Option Nat) : s.writeCsr num inst v by_ = s.csrStore num inst v := by
  simp only [List.mem_cons, List.not_mem_nil, or_false, not_or] at h
  obtain ⟨h40, h50, h70, h71, h80, ha0, h200, h201, h202, h380, h430⟩ := h
  unfold State.writeCsr
  rw [if_neg h50, if_neg h40, if_neg h70, if_neg h71, if_neg h80, if_neg ha0, if_neg h200, if_neg h201, if_neg h202, if_neg h380,
    if_neg h430]

end Csr

/-! ## PTLD and RGSET (R62, R73) -/

section Range
variable {s t u : State} {d a : Reg} {e : Fin 64}

theorem exec_rgset (d a : Reg) (e : Fin 64) (s : State) : exec (.rgset d a e) s =
    s.issueWith (.rgset d a e) none (fun t => t.rangePrep a e.val) (fun t =>
      match t.drains with
      | x :: rest => ({ t with drains := rest } : State).laneWrite (.rgset d a e) d 1 [] (fun _ => plain (if x.lost then 3 else 0))
      | [] => t.laneWrite (.rgset d a e) d 1 []
          (fun _ => plain ((t.rangeBad (s.curWave.rangeWords a).1 (s.curWave.rangeWords a).2).getD 0))) := rfl

theorem exec_ptld (n : Low) (hl : s.loadingTable = false) (hi : Issues s (.ptld d a n) u) :
    ∃ o : MemOp, o.wave = u.cur ∧ o.kind = .image n.val u.curWave.uniform ∧ o.dst = [u.curWave.wb + d.val] ∧ o.size = 1 ∧
      o.lanes.map (·.va) = (List.range 1032).map (fun i => u.curWave.v64 a u.curWave.uniform + dw i) ∧
      exec (.ptld d a n) s = .next ((u.issuedBy (.ptld d a n)).startOp o) := by
  have hprep : (if s.loadingTable then Move.wait s else .ok s) = .ok s :=
    if_neg (by rw [hl]; decide)
  have hexec := (show exec (.ptld d a n) s = execPtld d a n s from rfl).trans (issueWith_next (issuesAfter_of_prepared hi hprep))
  dsimp only at hexec
  rw [State.issuedBy_curWave] at hexec
  refine ⟨_, State.issuedBy_cur .., rfl, rfl, rfl, ?_, hexec⟩
  simp only [List.map_map]
  rfl

theorem drains_of_idle (h : s.loadingTable = false) : s.drains = [] := by
  unfold State.loadingTable at h
  simp only [Bool.or_eq_false_iff, decide_eq_false_iff_not, not_not] at h
  exact h.1

theorem rangeBad_congr (h : t.tables = s.tables) (w0 w1 : Dword) : t.rangeBad w0 w1 = s.rangeBad w0 w1 := by
  unfold State.rangeBad
  rw [h]

theorem drains_issuedBy (h : SpanOnly s u) (i : Instr) : (u.issuedBy i).drains = s.drains := by
  rw [issuedBy_eq u, show u = _ from h]

theorem tables_issuedBy (h : SpanOnly s u) (i : Instr) : (u.issuedBy i).tables = s.tables := by
  rw [issuedBy_eq u, show u = _ from h]

theorem ranges_issuedBy (u : State) (i : Instr) : (u.issuedBy i).ranges = u.ranges := by
  rw [issuedBy_eq u]

theorem rangePrep_refused {st : Nat} (hs : s.curWave.stage = 0) (hl : s.loadingTable = false)
    (hb : s.rangeBad (s.curWave.v64 a s.curWave.uniform) (s.curWave.v64 (a.val + 2) s.curWave.uniform) = some st) :
    s.rangePrep a e.val = .ok s := by
  unfold State.rangePrep
  dsimp only
  rw [if_neg (by rw [hs]; decide), hl, if_neg (by decide), if_pos]
  exact Option.isSome_iff_exists.2 ⟨st, hb⟩

theorem rangePrep_drained {x : RangeDrain} {rest : List RangeDrain} (hs : s.curWave.stage = 1) (hd : s.drains = x :: rest)
    (hx : x.done = true) : s.rangePrep a e.val = .ok s := by
  unfold State.rangePrep
  dsimp only
  rw [if_pos hs, hd]
  exact if_pos hx

theorem exec_rgset_refused {st : Nat} (hs : s.curWave.stage = 0) (hl : s.loadingTable = false)
    (hb : s.rangeBad (s.curWave.v64 a s.curWave.uniform) (s.curWave.v64 (a.val + 2) s.curWave.uniform) = some st)
    (hi : Issues s (.rgset d a e) u) :
    ∃ t, exec (.rgset d a e) s = .next t ∧ OnlyRegs u t (.rgset d a e) ∧ Gets u t d 1 (fun _ => st) := by
  have hspan := span_spanOnly hi.2
  have hbad := (rangeBad_congr (tables_issuedBy hspan (.rgset d a e)) _ _).trans hb
  rw [exec_rgset, issueWith_next (issuesAfter_of_prepared hi (rangePrep_refused hs hl hb)), drains_issuedBy hspan, drains_of_idle hl]
  dsimp only [Wave.rangeWords]
  rw [hbad]
  exact ⟨_, rfl, State.laneWrite_next u _ _ d 1 [] _ (Or.inl rfl) (by rw [Wave.conds_zero _ _ (fun _ => rfl), Nat.zero_and])⟩

theorem exec_rgset_drained {x : RangeDrain} {rest : List RangeDrain} (hs : s.curWave.stage = 1) (hd : s.drains = x :: rest)
    (hx : x.done = true) (hi : Issues s (.rgset d a e) u) :
    ∃ t, exec (.rgset d a e) s = .next t ∧ t.drains = rest ∧ t.ranges = u.ranges ∧ t.mem = (u.issuedBy (.rgset d a e)).mem ∧
      Gets u t d 1 (fun _ => if x.lost then 3 else 0) := by
  have hgets := (State.laneWrite_next u (.rgset d a e) (.rgset d a e) d 1 [] (fun _ => plain (if x.lost then 3 else 0)) (Or.inl rfl)
    (by rw [Wave.conds_zero _ _ (fun _ => rfl), Nat.zero_and])).2
  rw [exec_rgset, issueWith_next (issuesAfter_of_prepared hi (rangePrep_drained hs hd hx)), drains_issuedBy (span_spanOnly hi.2), hd]
  dsimp only
  rw [laneWrite_plain] at hgets ⊢
  exact ⟨_, rfl, rfl, ranges_issuedBy u _, rfl, Gets.of_curWave hgets rfl⟩

theorem ranges_unmarkLine (s : State) (line : Nat) : (s.unmarkLine line).ranges = s.ranges := by
  unfold State.unmarkLine
  split <;> rfl

theorem ranges_leaveLine (s : State) (h : Nat) (ln : L2Line) : (s.leaveLine h ln).ranges = s.ranges := by
  unfold State.leaveLine
  dsimp only
  split
  · rw [writeAt_eq]
    exact ranges_unmarkLine ..
  · exact ranges_unmarkLine ..

theorem ranges_evictLine (s : State) (h : Nat) (ln : L2Line) : (s.evictLine h ln).ranges = s.ranges := by
  unfold State.evictLine
  dsimp only
  split <;> exact ranges_leaveLine ..

/-- The lines that leave with the change of an entry change no entry. -/
theorem ranges_startRange (s : State) (e : Nat) (w0 w1 : Dword) :
    (s.startRange e w0 w1).ranges = Sparse.put s.ranges e (w0, w1) := by
  have hfold : ∀ (l : List (Nat × L2Line)) (t : State), (l.foldl (fun (acc : State) (x : Nat × L2Line) =>
      match acc.lineAt x.1 x.2.line with
      | some l => acc.evictLine x.1 l
      | none => acc) t).ranges = t.ranges := by
    intro l
    induction l with
    | nil => exact fun t => rfl
    | cons x r ih =>
      refine fun t => (ih _).trans ?_
      dsimp only
      split
      · exact ranges_evictLine ..
      · rfl
  exact hfold _ _

end Range

/-- Settles O47: a CSRW stores what `stored` gives; the fault address of an unassigned number without the bits 31 to 24 is log 122, and
MISALIGN for it also from an ordinary context log 93; RGSET completes with the drain that it waited for at the head of the list. -/
theorem systemRegisters : Obligations.SystemRegisters := by
  unfold Obligations.SystemRegisters
  refine ⟨fun s u d a hc hi => exec_csrr_completes hc hi, fun s u d a hc hn hi => exec_csrw_plain hc hn hi,
    fun s u d a hc hn hs hf hi => exec_csrw_l2mode hc hn hs hf hi,
    fun s d a i code hi hp h => csr_unassigned_parks hi hp (csrCheck_fails h), fun s num inst v by_ hn => ?_,
    fun s u d a n hl hi => exec_ptld n hl hi,
    fun s u d a e => ⟨fun st hs hl hb hi => exec_rgset_refused hs hl hb hi, fun x rest hs hd hx hi => exec_rgset_drained hs hd hx hi,
      ranges_startRange ..⟩⟩
  rw [writeCsr_eq_csrStore hn]
  exact ⟨csrGet_csrStore_same .., fun m n h => csrGet_csrStore_other _ _ h⟩

end Sys2Proof.Proofs

/-! PROOFS. One step (14/R354): what the passing of time leaves, how the move of a wave that has nothing of its own to see to comes to the
instruction at its PC, and where the word of that instruction comes from (02/R33). -/

namespace Sys2Proof.Proofs

open Sys2Proof.Machine

open Sys2Proof.Safety

/-! ## Time (log 3) -/

/-- A trigger changes only what a snapshot writes. -/
theorem snapTrigger_eq (s : State) (src bit : Nat) : s.snapTrigger src bit = { s with
    latched := (s.snapTrigger src bit).latched, latchGT := (s.snapTrigger src bit).latchGT, csr := (s.snapTrigger src bit).csr } := by
  have hlatch : s.latch src = { s with
      latched := (s.latch src).latched, latchGT := (s.latch src).latchGT, csr := (s.latch src).csr } := by
    unfold State.latch
    dsimp only
    generalize List.foldl _ _ _ = l
    rfl
  unfold State.snapTrigger
  split
  · exact hlatch
  · rfl

theorem reachTime_eq (s : State) (g : Nat) : s.reachTime g = { s with
    gt := g, latched := (s.reachTime g).latched, latchGT := (s.reachTime g).latchGT, csr := (s.reachTime g).csr } := by
  unfold State.reachTime
  dsimp only
  split
  · exact snapTrigger_eq ..
  · rfl

theorem tick_keeps (s : State) : s.tick.gt = s.gt + 1 + Config.gtAdvance s.ticks ∧ s.tick.mem = s.mem ∧ s.tick.waves = s.waves ∧
    s.tick.turns = s.turns ∧ s.tick.agenda = s.agenda := by
  unfold State.tick
  rw [reachTime_eq]
  exact ⟨rfl, rfl, rfl, rfl, rfl⟩

/-! ## The move of a wave (R354) -/

/-- A wave that is chosen has yielded no more. -/
def wakened (w : Wave) : Wave :=
  match w.status with
  | .yielded _ => { w with status := .ready }
  | _ => w

section Move
variable {s u v : State} {id : Nat}

/-- A wave that may move, with a segment and nothing of its own to see to, is at its next instruction. -/
theorem moveWave_issues (hv : v = u.modLive id wakened) (hmove : u.canMove id = true) (hseg : (u.wave id).hasSeg = true)
    (hlate : v.lateOp id = none) (htry : v.ops.find? (fun e => e.2.wave == id && v.needsTry e.2) = none)
    (hlive : v.liveRun id = none) (hrun : v.mayRun id = none) : u.moveWave id = v.issueWave id := by
  have hadv : v.advance id = v.issueWave id := by rw [State.advance, hlive, hrun]
  subst hv
  unfold State.moveWave
  rw [if_neg (by simp [hseg])]
  dsimp only
  rw [if_pos hmove]
  change (match (u.modLive id wakened).lateOp id with
    | some o => _
    | none => _) = _
  rw [hlate]
  dsimp only
  change (match (u.modLive id wakened).ops.find? (fun e => e.2.wave == id && (u.modLive id wakened).needsTry e.2) with
    | some e => _
    | none => _) = _
  rw [htry]
  exact (if_pos hmove).trans hadv

/-- Who is next moves: the wave whose turn was set, or the wave chosen where nothing else is due. -/
theorem step_moves_wave (h : (∃ rest, s.tick.turns = .wave id :: rest ∧ u = { s.tick with turns := rest }) ∨
      (s.tick.turns = [] ∧ s.tick.agenda = [] ∧ s.tick.due = none ∧ s.tick.dueWork = none ∧
        ((s.tick.chooseWave = some (id, none) ∧ u = s.tick) ∨
          ∃ ready, s.tick.chooseWave = some (id, some ready) ∧ u = s.tick.noteChoice id ready)))
    (hmove : u.canMove id = true) : step s = u.moveWave id := by
  unfold step State.move
  obtain ⟨rest, hturns, rfl⟩ | ⟨hturns, hagenda, hdue, hwork, hchosen⟩ := h
  · rw [hturns]
    exact if_pos (by rw [hmove, Bool.true_or])
  · rw [hturns]
    dsimp only [State.freeMove, State.slotMove]
    rw [hagenda, hdue, hwork]
    obtain ⟨hchoice, rfl⟩ | ⟨ready, hchoice, rfl⟩ := hchosen <;> rw [hchoice]

theorem instrOf_decoded {x : Word} {i : Instr} (h : decode x = .ok i ∨ (i = .unassignedWord x ∧ ∃ e, decode x = .error e)) :
    instrOf x = i := by
  unfold instrOf
  obtain h | ⟨rfl, e, h⟩ := h <;> rw [h]

theorem fetched_of_fword {w : Wave} {x : Word} (h : w.fword = some (w.pc, x)) : w.fetched = some x := by
  unfold Wave.fetched
  rw [h]
  exact if_pos rfl

theorem issueWave_next {x : Word} {t : State} (h : (s.wave id).fetched = some x)
    (he : exec (instrOf x) { s with cur := id } = .next t) : s.issueWave id = .next (t.modLive id Wave.usedWord) := by
  unfold State.issueWave
  simp only [h, he]

theorem issueWave_stops {x : Word} {r : Host.Outcome State Fault Refusal} (h : (s.wave id).fetched = some x)
    (he : exec (instrOf x) { s with cur := id } = r) (hr : ∀ t, r ≠ .next t) : s.issueWave id = r := by
  unfold State.issueWave
  cases r with
  | next t => exact absurd rfl (hr t)
  | _ => simp only [h, he]

theorem issueWave_fetches (h : (s.wave id).fetched = none) : s.issueWave id = .next (s.startFetch id) := by
  unfold State.issueWave
  rw [h]

end Move

/-! ## The word at a PC (R33) -/

section Fetch
variable {s : State} {y : Reply} {id : Nat} {o : MemOp} {x : LaneOp} {w : Wave}

/-- Memory that no cache and no slice holds is read at its place. -/
theorem newest_unheld (hc : s.caches = []) (hs : s.slices = []) (core pa : Nat) : s.newest core pa = s.byte (s.place pa) := by
  unfold State.newest State.slice
  rw [hc, hs]
  rfl

theorem fetchWord_unheld (hc : s.caches = []) (hs : s.slices = []) {pa : Nat} (core : Nat) (ht : targetOf pa ≠ .onchip) :
    s.fetchWord core pa = wd (ofBytes ((List.range 4).map (fun i => s.byte (s.place (pa + i))))) := by
  have husable : s.usable core (lineOf pa) = none := by
    unfold State.usable State.cacheOf
    rw [hc]
    rfl
  unfold State.fetchWord State.newestNat
  rw [if_neg ht, husable]
  simp only [newest_unheld hc hs]

/-- A fetch of which the lane is done retires. -/
theorem finishOp_of_fetched {v : State} (ho : Sparse.find v.ops id = some o) (hk : o.kind = .fetch) (hls : o.lanes = [x])
    (hph : x.phase = .fin) (hr : o.resume = false) (hw : Sparse.find v.waves o.wave = some w) (hst : w.status = .ready) :
    v.finishOp id = retired v id o.wave := by
  unfold State.finishOp
  simp [ho, hls, LaneOp.open, LaneOp.away, LaneOp.writes, LaneOp.bad, hph, hk, hr, dropOp_of_ready id hw hst]

/-- Data for a fetch from outside the pools gives the wave the word, and the fetch retires. -/
theorem serveOp_fetch (ho : Sparse.find s.ops id = some o) (hk : o.kind = .fetch) (hls : o.lanes = [x]) (hph : x.phase = .sent)
    (hy : x.lane ∈ y.lanes) (hres : o.resume = false) (hsz : o.size = 4) (hw : Sparse.find s.waves o.wave = some w)
    (hst : w.status = .ready) (hp : s.inPool y.line = false) (hback : s.inBacking w.ctx x.va = false) :
    (s.serveOp id y).mem = s.mem ∧
      ((s.serveOp id y).wave o.wave).fword = some (o.pc, wd (ofBytes ((y.data.drop (x.va.toNat % 128)).take 4))) := by
  have hxs : o.waiting y.lanes = [x] := by
    simp [MemOp.waiting, hls, LaneOp.away, hph, hy]
  generalize hv : wd (ofBytes ((y.data.drop x.off).take 4)) = v
  have hland : ∀ ms, s.landLane id x.lane ((y.data.drop x.off).take 4) ms =
      (s.modLive o.wave (fun w => { w with fword := some (o.pc, v) })).modOp id (fun p => p.setPhase [x.lane] .fin) := fun ms => by
    unfold State.landLane
    simp only [ho, hk, hv]
  have hserve : s.serveOp id y = (((s.modLive o.wave (fun w => { w with fword := some (o.pc, v) })).modOp id
      (fun p => p.setPhase [x.lane] .fin)).giveUpOld y false).finishOp id := by
    unfold State.serveOp
    simp only [ho, hk, hxs, List.foldl_cons, List.foldl_nil]
    rw [landFrom_plain ho hls hw hp hback, hsz, hland]
  set t := (s.modLive o.wave (fun w => { w with fword := some (o.pc, v) })).modOp id (fun p => p.setPhase [x.lane] .fin) with ht
  have hu := giveUpOld_eq t y false
  have htw : Sparse.find (t.giveUpOld y false).waves o.wave = some { w with fword := some (o.pc, v) } := by
    rw [hu]
    exact find_update_same hw _
  have hto : Sparse.find (t.giveUpOld y false).ops id = some (o.setPhase [x.lane] .fin) := by
    rw [hu]
    exact find_update_same ho _
  have hlane : (o.setPhase [x.lane] .fin).lanes = [{ x with phase := .fin }] := by simp [MemOp.setPhase, hls]
  have hfin := finishOp_of_fetched hto hk hlane rfl hres htw hst
  rw [hserve, hfin]
  refine ⟨?_, ?_⟩
  · rw [retired, hu]
    rfl
  · exact (congrArg Wave.fword (wave_retired id htw)).trans (by rw [← hv, LaneOp.off]; rfl)

theorem exec_answer_fetch {i : Instr} (hi : i = .dataS y ∨ i = .ackData y) (hwho : y.who = .op id)
    (ho : Sparse.find s.ops id = some o) (hk : o.kind = .fetch) (hls : o.lanes = [x]) (hph : x.phase = .sent)
    (hy : x.lane ∈ y.lanes) (hres : o.resume = false) (hsz : o.size = 4) (hw : Sparse.find s.waves o.wave = some w)
    (hst : w.status = .ready) (hp : s.inPool y.line = false) (hback : s.inBacking w.ctx x.va = false) :
    ∃ t, exec i s = .next t ∧ t.mem = s.mem ∧
      (t.wave o.wave).fword = some (o.pc, wd (ofBytes ((y.data.drop (x.va.toNat % 128)).take 4))) := by
  have hu := kept_eq i s
  generalize (kept i s).caches = c, (kept i s).agenda = a at hu
  have hn : ∀ z ∈ o.lanes, z.lane ∈ y.lanes → z.writes ≠ some (y.line, true) := by simp [hls, LaneOp.writes, hph]
  refine ⟨_, exec_answer (hi.imp_right .inr) s, ?_⟩
  rw [hu, answered_of_op (s := { s with caches := c, agenda := a }) hwho ho true hn]
  exact serveOp_fetch (s := { s with caches := c, agenda := a }) ho hk hls hph hy hres hsz hw hst hp hback

end Fetch

/-- Settles O58: whoever is next comes to `issueWave` (`step_moves_wave`, `moveWave_issues`), which runs the decoded word. -/
theorem stepRunsDecoded : Obligations.StepRunsDecoded := by
  unfold Obligations.StepRunsDecoded
  refine ⟨fun s id => ?_, fun s y i id o x w hi hwho ho hk hls hph hy hres hsz hw hst hp hback =>
      exec_answer_fetch hi hwho ho hk hls hph hy hres hsz hw hst hp hback,
    fun s core pa hc hs ht _ => fetchWord_unheld hc hs core ht, tick_keeps⟩
  intro t u hnext hmove hseg v hlate htry hlive hrun
  have hstep : step s = v.issueWave id :=
    (step_moves_wave hnext hmove).trans (moveWave_issues rfl hmove hseg hlate htry hlive hrun)
  refine ⟨fun x i hword hdec => ?_, fun hnone => hstep.trans (issueWave_fetches hnone)⟩
  have hfetched := fetched_of_fword hword
  obtain rfl := instrOf_decoded hdec
  exact ⟨fun w he => hstep.trans (issueWave_next hfetched he), fun r he hr => hstep.trans (issueWave_stops hfetched he hr)⟩

end Sys2Proof.Proofs

/-! PROOFS. Platform events (21/R429 to R438, 15/R392): reset and power, bring-up, Tosor flits and timeouts, the lock of GT, the scan test,
the scrubber, and the steps of a flush and a drain. -/

namespace Sys2Proof.Proofs

open Sys2Proof.Machine

open Sys2Proof.Safety

/-! ## Reset and power (R431 to R433, R437) -/

section Power
variable {s : State}

theorem exec_reset (trip : Bool) (s : State) : exec (.reset trip) s = .next (s.restart trip .d0) := rfl

theorem restart_keeps (s : State) (trip : Bool) (p : Power) : (s.restart trip p).mode = .reset ∧ (s.restart trip p).power = p ∧
    (s.restart trip p).mem = [] ∧ (s.restart trip p).waves = [] ∧ (s.restart trip p).pkg = s.pkg ∧
    (s.restart trip p).revoked = s.revoked ∧ (s.restart trip p).csrGet 0x420 0 = s.csrGet 0x420 0 ∧
    fld ((s.restart trip p).csrGet 0x400 0) 9 1 = (if trip then 1 else 0) := by
  have htrip : (s.restart trip p).csrGet 0x400 0 = (if trip then 512 else 0) := State.csrGet_csrPut_same ..
  have hfuses : (s.restart trip p).csrGet 0x420 0 = s.csrGet 0x420 0 :=
    (csrGet_csrPut_other _ _ (by decide)).trans (State.csrGet_csrPut_same ..)
  refine ⟨rfl, rfl, rfl, rfl, rfl, rfl, hfuses, ?_⟩
  rw [htrip]
  cases trip <;> decide

theorem exec_powerOverLimit (watts : Nat) (s : State) : exec (.powerOverLimit watts) s =
    if watts > s.powerLimit then .next { s with throttle := true } else .refused (.notEnabled "POWER_OVER_LIMIT") := rfl

theorem exec_powerBelowLimit (watts : Nat) (s : State) : exec (.powerBelowLimit watts) s =
    if watts < s.powerLimit then .next { s with throttle := false } else .refused (.notEnabled "POWER_BELOW_LIMIT") := rfl

/-- The limit is kept between 600 and 1600 W. -/
theorem powerLimit_clamped (s : State) : let lim := fld (s.csrGet 0x402 0) 0 11
    s.powerLimit = (if lim < 600 then 600 else if 1600 < lim then 1600 else lim) := by
  intro lim
  have hclamp : s.powerLimit = max 600 (min 1600 lim) := rfl
  rw [hclamp]
  split
  · omega
  · split <;> omega

theorem exec_d3hotEntry (h : s.power = .d0) : exec .d3hotEntry s = .next { s with power := .d3hot } :=
  (show exec .d3hotEntry s = execD3hotEntry s from rfl).trans (if_pos h)

theorem exec_d0Return (h : s.power ≠ .d0) : exec .d0Return s = .next { s with power := .d0 } :=
  (show exec .d0Return s = execD0Return s from rfl).trans (if_neg h)

theorem exec_d3coldEntry (h : s.power ≠ .d3cold) : exec .d3coldEntry s = .next (s.restart false .d3cold) :=
  (show exec .d3coldEntry s = execD3coldEntry s from rfl).trans (if_neg h)

end Power

/-! ## Bring-up (R431, R434) -/

section Bringup
variable {s t u : State}

/-- All that the setting of pools changes. -/
def PoolsOnly (s t : State) : Prop := t = { s with csr := t.csr, recwait := t.recwait }

theorem PoolsOnly.keeps (h : PoolsOnly s t) : t.mode = s.mode ∧ t.failed = s.failed ∧ t.mem = s.mem ∧ t.keys = s.keys := by
  rw [show t = _ from h]
  exact ⟨rfl, rfl, rfl, rfl⟩

theorem PoolsOnly.trans (h : PoolsOnly s t) (g : PoolsOnly t u) : PoolsOnly s u := by
  unfold PoolsOnly at *
  rw [g, h]

/-- The record pool of a die set, unless it is. -/
def withRecordPool (s : State) (die : Nat) : State :=
  if fld (s.csrGet 0x80 die) 0 1 = 1 then s
  else { s.csrPut 0x80 die
      (dw (die * 2 ^ 37 + Config.poolAt die 0 % ((if die = 0 then 2 ^ 34 else 2 ^ 37) / 2 ^ 23) * 2 ^ 23 + 1)) with
    recwait := Sparse.put s.recwait die false }

/-- The task pool of a die set, unless it is. -/
def withTaskPool (s : State) (die : Nat) : State :=
  if fld (s.csrGet 0x202 die) 0 1 = 1 then s
  else s.csrPut 0x202 die (dw (die * 2 ^ 37 +
    Config.poolAt die 1 % ((if die = 0 then 2 ^ 34 else 2 ^ 37) / 2 ^ 21) * 2 ^ 21 + Config.poolAt die 2 % 16 * 16 + 1))

theorem setPools_eq (s : State) (die : Nat) : s.setPools die = withTaskPool (withRecordPool s die) die := rfl

theorem withRecordPool_poolsOnly (s : State) (die : Nat) : PoolsOnly s (withRecordPool s die) := by
  unfold PoolsOnly withRecordPool
  split <;> rfl

theorem withTaskPool_poolsOnly (s : State) (die : Nat) : PoolsOnly s (withTaskPool s die) := by
  unfold PoolsOnly withTaskPool
  split <;> rfl

theorem setPools_poolsOnly (s : State) (die : Nat) : PoolsOnly s (s.setPools die) :=
  (withRecordPool_poolsOnly s die).trans (withTaskPool_poolsOnly _ die)

theorem foldl_setPools_poolsOnly (l : List Nat) (s : State) : PoolsOnly s (l.foldl (fun (acc : State) d => acc.setPools d) s) := by
  induction l generalizing s with
  | nil => exact rfl
  | cons d r ih => exact (setPools_poolsOnly s d).trans (ih _)

theorem withRecordPool_valid (s : State) (die : Nat) : fld ((withRecordPool s die).csrGet 0x80 die) 0 1 = 1 := by
  unfold withRecordPool
  split
  · next h => exact h
  · refine (congrArg (fun d => fld d 0 1) (State.csrGet_csrPut_same s 0x80 die _)).trans ?_
    rw [fld_dw _ _ _ (by decide)]
    omega

theorem withTaskPool_valid (s : State) (die : Nat) : fld ((withTaskPool s die).csrGet 0x202 die) 0 1 = 1 ∧
    (withTaskPool s die).csrGet 0x80 die = s.csrGet 0x80 die := by
  unfold withTaskPool
  split
  · next h => exact ⟨h, rfl⟩
  · rw [State.csrGet_csrPut_same, fld_dw _ _ _ (by decide)]
    exact ⟨by omega, csrGet_csrPut_other _ _ (by omega)⟩

/-- After firmware has set a die's pools both are valid. -/
theorem setPools_valid (s : State) (die : Nat) : fld ((s.setPools die).csrGet 0x80 die) 0 1 = 1 ∧
    fld ((s.setPools die).csrGet 0x202 die) 0 1 = 1 := by
  obtain ⟨htasks, hrecords⟩ := withTaskPool_valid (withRecordPool s die) die
  rw [setPools_eq]
  exact ⟨by rw [hrecords]; exact withRecordPool_valid s die, htasks⟩

theorem exec_ochreEntry (hm : s.mode = .reset) (hp : s.power = .d0) : exec .ochreEntry s = .next (if firmwareGood then
    { s with mode := .ochre, keys := Sparse.put s.keys 0 firmwareKeyBytes }.setPools 0 else s) :=
  (show exec .ochreEntry s = execOchreEntry s from rfl).trans (if_pos ⟨hm, hp⟩)

theorem setPools_ochre (s : State) : let t := ({ s with mode := .ochre, keys := Sparse.put s.keys 0 firmwareKeyBytes } : State).setPools 0
    t.mode = .ochre ∧ t.mem = s.mem ∧ Sparse.find t.keys 0 = some firmwareKeyBytes ∧ fld (t.csrGet 0x80 0) 0 1 = 1 ∧
      fld (t.csrGet 0x202 0) 0 1 = 1 := by
  generalize firmwareKeyBytes = key
  intro t
  obtain ⟨hmode, -, hmem, hkeys⟩ := (setPools_poolsOnly { s with mode := .ochre, keys := Sparse.put s.keys 0 key } 0).keeps
  obtain ⟨hrecords, htasks⟩ := setPools_valid { s with mode := .ochre, keys := Sparse.put s.keys 0 key } 0
  exact ⟨hmode, hmem, (congrArg (Sparse.find · 0) hkeys).trans (Sparse.find_put_same ..), hrecords, htasks⟩

/-- What waits goes on; nothing else changes at once. -/
theorem release_keeps (s : State) : s.release.mode = s.mode ∧ s.release.failed = s.failed ∧ s.release.mem = s.mem ∧
    s.release.tasks = s.tasks ∧ s.release.gt = s.gt ∧ s.release.csr = s.csr := ⟨rfl, rfl, rfl, rfl, rfl, rfl⟩

theorem enterService_keeps (s : State) (m : Mode) (code bad : Nat) : (s.enterService m code bad).mode = m ∧
    (s.enterService m code bad).failed = bad ∧ (s.enterService m code bad).mem = s.mem := by
  obtain ⟨hmode, hfailed, hmem, -⟩ := (foldl_setPools_poolsOnly ((List.range 4).filter (fun d => bad / 2 ^ d % 2 == 0))
    { s with mode := m, failed := bad }).keeps
  unfold State.enterService
  dsimp only
  generalize List.foldl (fun (acc : State) d => acc.setPools d) _ _ = u at hmode hfailed hmem ⊢
  simp only [State.mode_postAll, State.failed_postAll, State.mem_postAll, release_keeps, State.pushEvent, State.mode_post,
    State.failed_post, State.mem_post, State.mode_csrPut, State.failed_csrPut, State.mem_csrPut, hmode, hfailed, hmem, and_self]

theorem exec_fullEntry (hm : s.mode = .ochre) (hp : s.power = .d0) : exec .fullEntry s = .next (s.enterService .full 2 0) :=
  (show exec .fullEntry s = execFullEntry s from rfl).trans (if_pos ⟨hm, hp⟩)

theorem exec_fullEntry_refused (hm : s.mode ≠ .ochre) : exec .fullEntry s = .refused (.notEnabled "FULL_ENTRY") :=
  (show exec .fullEntry s = execFullEntry s from rfl).trans (if_neg fun h => hm h.1)

theorem exec_degradedEntry {bad : BitVec 4} (hm : s.mode = .ochre) (hp : s.power = .d0) (hb : bad ≠ 0) :
    exec (.degradedEntry bad) s = .next (s.enterService .degraded 3 bad.toNat) :=
  (show exec (.degradedEntry bad) s = execDegradedEntry bad s from rfl).trans (if_pos ⟨hm, hp, hb⟩)

end Bringup

/-! ## Tosor (R429, R430) -/

section Tosor
variable {s : State} {port : Nat}

/-- A port is up where its bit of the byte of ports is set. -/
theorem port_up (st : Dword) (hp : port ≤ 7) (hup : fld st port 1 = 1) : ¬(port > 7 ∨ fld st 0 8 / 2 ^ port % 2 = 0) := by
  have hbit : (fld st 0 8).testBit port = (fld st port 1).testBit 0 := by
    rw [testBit_fld, testBit_fld, Nat.zero_add, Nat.add_zero, decide_eq_true (by omega : port < 8), decide_eq_true Nat.zero_lt_one]
  rw [hup, Nat.testBit_eq_decide_div_mod_eq] at hbit
  have hset := of_decide_eq_true hbit
  omega

theorem exec_tosorFlit_up (ok : Bool) (hp : port ≤ 7) (hup : fld (s.csrGet 0x400 0) port 1 = 1) : exec (.tosorFlit port ok) s =
    let x := Sparse.get (0, 0, 0) s.ports port
    if ok then
      .next ((s.cargo port).foldl State.carry
        { s with ports := Sparse.put s.ports port (x.1 + 1, x.2.1, 0), link := s.link.filter (fun l => !(s.cargo port).contains l) })
    else if x.2.2 < 8 then .next { s with ports := Sparse.put s.ports port (x.1, x.2.1 + 1, x.2.2 + 1) }
    else .next ({ s with ports := Sparse.put s.ports port (x.1, x.2.1, 0) }.csrPut 0x400 0 (setFld (s.csrGet 0x400 0) port 1 0)) :=
  (show exec (.tosorFlit port ok) s = execTosorFlit port ok s from rfl).trans (if_neg (port_up _ hp hup))

/-- Nothing is carried while GT is not locked. -/
theorem cargo_unlocked (h : s.gtLocked = false) : s.cargo port = [] := by
  unfold State.cargo
  rw [h]
  rfl

theorem overdue_iff (l : Link) : s.overdue l = true ↔
    s.gt ≥ l.since + 1000 * max 1 (fld (s.csrGet 0x410 0) 0 32) ∨ (s.gtLocked = true ∧ s.routes l.die l.pkg = false) := by
  unfold State.overdue
  rw [Bool.or_eq_true, Bool.and_eq_true, decide_eq_true_iff, Bool.not_eq_true']

theorem exec_tosorTimeout_due {w : TosorWait} {l : Link} (hl : l ∈ s.link) (hw : l.awaited w = true) (ho : s.overdue l = true) :
    exec (.tosorTimeout w) s = .next (s.loseLinks (s.link.filter (fun l => l.awaited w && s.overdue l))) := by
  have hmem : l ∈ s.link.filter (fun l => l.awaited w && s.overdue l) := List.mem_filter.2 ⟨hl, by rw [hw, ho]; rfl⟩
  change execTosorTimeout w s = _
  unfold execTosorTimeout State.timeOut
  cases h : s.link.filter (fun l => l.awaited w && s.overdue l) with
  | nil =>
    rw [h] at hmem
    exact absurd hmem List.not_mem_nil
  | cons x r => rfl

theorem exec_tosorTimeout_early {w : TosorWait} (h : ∀ l ∈ s.link, l.awaited w = true → ¬ s.overdue l = true) :
    exec (.tosorTimeout w) s = .refused (.notEnabled "TOSOR_TIMEOUT") := by
  have hnone : s.link.filter (fun l => l.awaited w && s.overdue l) = [] :=
    List.filter_eq_nil_iff.2 fun l hl => by
      rw [Bool.and_eq_true]
      exact fun ⟨hw, ho⟩ => h l hl hw ho
  change execTosorTimeout w s = _
  unfold execTosorTimeout State.timeOut
  rw [hnone]

end Tosor

/-! ## The lock of GT (R430) -/

section Lock
variable {s : State}

/-- The state with GT at the root's time, which a package that is the root keeps. -/
def atRootTime (s : State) : State :=
  if fld (s.csrGet 0x410 0) 32 1 = 1 then s else s.reachTime (Nat.max s.gt (Config.rootTime s.ticks))

theorem atRootTime_keeps (s : State) : (atRootTime s).mem = s.mem ∧ (atRootTime s).tasks = s.tasks ∧
    (atRootTime s).gt = (if fld (s.csrGet 0x410 0) 32 1 = 1 then s.gt else max s.gt (Config.rootTime s.ticks)) := by
  unfold atRootTime
  split
  · exact ⟨rfl, rfl, rfl⟩
  · rw [reachTime_eq]
    exact ⟨rfl, rfl, rfl⟩

/-- The lock's bit, which the host reads in TLSTAT. -/
def withLock (s : State) (b : Nat) : State := s.csrPut 0x400 0 (setFld (s.csrGet 0x400 0) 8 1 b)

theorem gtLocked_withLock (s : State) (b : Nat) : (withLock s b).gtLocked = (b % 2 == 1) := by
  unfold State.gtLocked withLock
  rw [State.csrGet_csrPut_same, fld_setFld_same _ (by decide), Nat.pow_one]

theorem exec_gtLockAcquired (hm : s.mode = .full ∨ s.mode = .degraded) (ht : s.tasks = []) :
    exec .gtLockAcquired s = .next (withLock (atRootTime s) 1).release := by
  have htasks : (withLock (atRootTime s) 1).release.tasks = [] := (atRootTime_keeps s).2.1.trans ht
  refine (show exec .gtLockAcquired s = execGtLockAcquired s from rfl).trans ((if_pos hm).trans ?_)
  change Host.Outcome.next (List.foldl _ _ (((withLock (atRootTime s) 1).release.tasks.filter _).map _)) = _
  rw [htasks]
  rfl

end Lock

/-! ## The scan test (R438) -/

section Scan
variable {s : State} {die : Nat} {v : Dword}

/-- With GO set the fields that name the core and the level stand. -/
theorem scan_go (v : Dword) : fld (setFld v 7 1 1) 7 1 = 1 ∧ fld (setFld v 7 1 1) 0 7 = fld v 0 7 ∧
    fld (setFld v 7 1 1) 16 4 = fld v 16 4 :=
  ⟨fld_setFld_same _ (by decide), fld_setFld_other _ (by decide) (by decide), fld_setFld_other _ (by decide) (by decide)⟩

theorem fld_scanResult (s : State) (die res : Nat) : fld ((s.scanResult die res).csrGet 0x430 die) 20 4 = res % 16 := by
  unfold State.scanResult
  rw [State.csrGet_csrPut_same]
  exact fld_setFld_same _ (by decide)

theorem exec_scanTestStart (die : Nat) (v : Dword) (s : State) :
    exec (.scanTestStart die v) s = .next (s.writeScan die (setFld v 7 1 1)) := rfl

theorem scans_csrStore (s : State) (num inst : Nat) (v : Dword) : (s.csrStore num inst v).scans = s.scans := by
  rw [csrStore_eq]

theorem writeScan_begins (hc : s.coreIn (128 * die + fld v 0 7) = true) (hs : Sparse.find s.scans die = none) :
    Sparse.find (s.writeScan die (setFld v 7 1 1)).scans die =
      some { core := 128 * die + fld v 0 7, alevel := fld v 16 4, begun := false } := by
  obtain ⟨hgo, hcore, hlevel⟩ := scan_go v
  unfold State.writeScan
  dsimp only
  rw [if_neg (by omega), hcore, hlevel, if_neg (by simp [hs, hc])]
  exact Sparse.find_put_same ..

theorem writeScan_refused (hs : Sparse.find s.scans die ≠ none) : (s.writeScan die (setFld v 7 1 1)).scans = s.scans ∧
    fld ((s.writeScan die (setFld v 7 1 1)).csrGet 0x430 die) 20 4 = 4 := by
  obtain ⟨hgo, -, -⟩ := scan_go v
  unfold State.writeScan
  dsimp only
  rw [if_neg (by omega), if_pos (.inl (Option.isSome_iff_ne_none.2 hs))]
  exact ⟨scans_csrStore .., fld_scanResult ..⟩

theorem moveGuests_of_none (h : s.guests = []) (core : Nat) : s.moveGuests core = s := by
  unfold State.moveGuests
  rw [h]
  rfl

theorem exec_scanPatternStart {x : Scan} (hx : Sparse.find s.scans die = some x) (hb : x.begun = false) (hw : s.wgs = [])
    (hr : s.residents x.core = []) (hg : s.guests = []) :
    exec (.scanPatternStart die) s = .next { s with scans := Sparse.put s.scans die { x with begun := true } } := by
  change execScanPatternStart die s = _
  unfold execScanPatternStart State.scanStep
  rw [hx]
  dsimp only
  rw [hb, if_neg (by decide), moveGuests_of_none hg, hw, hr, hg, if_neg (by simp [Sparse.get])]

theorem exec_scanTestComplete_pass {x : Scan} (hx : Sparse.find s.scans die = some x) (hb : x.begun = true) :
    exec (.scanTestComplete die true) s =
      .next ((({ s with scans := Sparse.erase s.scans die } : State).scanResult die 1).post (.workgroupPlace die)) := by
  change execScanTestComplete die true s = _
  unfold execScanTestComplete
  rw [hx]
  dsimp only
  rw [hb]
  rfl

theorem exec_scanTestComplete_fail {x : Scan} (hx : Sparse.find s.scans die = some x) (hb : x.begun = true) :
    exec (.scanTestComplete die false) s = .next (((({ s with scans := Sparse.erase s.scans die, cores := s.cores ++ [x.core] } :
      State).scanResult die 2).pushEvent die 2 x.core).post (.workgroupPlace die)) := by
  change execScanTestComplete die false s = _
  unfold execScanTestComplete
  rw [hx]
  dsimp only
  rw [hb]
  rfl

theorem scanTestComplete_effect {x : Scan} (pass : Bool) (hx : Sparse.find s.scans die = some x) (hb : x.begun = true) :
    ∃ t, exec (.scanTestComplete die pass) s = .next t ∧ Sparse.find t.scans die = none ∧
      fld (t.csrGet 0x430 die) 20 4 = (if pass then 1 else 2) ∧ t.cores = (if pass then s.cores else s.cores ++ [x.core]) := by
  cases pass with
  | true => exact ⟨_, exec_scanTestComplete_pass hx hb, find_erase_same .., fld_scanResult .., rfl⟩
  | false => exact ⟨_, exec_scanTestComplete_fail hx hb, find_erase_same .., fld_scanResult .., rfl⟩

end Scan

/-! ## The scrubber (R392) -/

section Scrub
variable {s : State} {die g : Nat}

theorem mark_setMark_same (s : State) (a : Nat) (m : Mark) : (s.setMark a m).mark a = m := Sparse.get_set_same ..

theorem mark_setMark_other (s : State) {a b : Nat} (m : Mark) (h : granule b ≠ granule a) : (s.setMark a m).mark b = s.mark b :=
  Sparse.get_set_other _ _ _ h

/-- Poison that joins other poison is poison. -/
theorem origin_join (m n : Mark) (h : n.origin ≠ 0) : (m.join n).origin ≠ 0 := by
  unfold Mark.join
  split
  · exact h
  · next hm => exact fun h0 => hm (.inl h0)

/-- Tag poison over the sectors at `place`. -/
def tagPoisoned (place : Nat → Nat) (l : List Nat) (s : State) : State :=
  l.foldl (fun (acc : State) i => acc.setMark (place i) ((acc.mark (place i)).join { origin := 9, addr := place i })) s

/-- Every sector of the list is poisoned, and what was poisoned stays so. -/
theorem tagPoisoned_marks (place : Nat → Nat) (l : List Nat) (s : State) (b : Nat)
    (h : (s.mark b).origin ≠ 0 ∨ ∃ i ∈ l, b = place i) : ((tagPoisoned place l s).mark b).origin ≠ 0 := by
  induction l generalizing s with
  | nil =>
    obtain h | ⟨i, hi, -⟩ := h
    · exact h
    · exact absurd hi List.not_mem_nil
  | cons i r ih =>
    refine ih _ ?_
    by_cases hb : granule b = granule (place i)
    · refine .inl ?_
      have hsame : (s.setMark (place i) ((s.mark (place i)).join { origin := 9, addr := place i })).mark b =
          (s.mark (place i)).join { origin := 9, addr := place i } := by
        unfold State.mark State.setMark
        rw [hb]
        exact Sparse.get_set_same ..
      rw [hsame]
      exact origin_join _ { origin := 9, addr := place i } (Nat.succ_ne_zero 8)
    · obtain h | ⟨j, hj, rfl⟩ := h
      · exact .inl (by rw [mark_setMark_other s _ hb]; exact h)
      · obtain rfl | hj := List.mem_cons.1 hj
        · exact absurd rfl hb
        · exact .inr ⟨j, hj, rfl⟩

theorem logFault_off (h : fld (s.csrGet 0x390 die) 0 1 = 0) (typ cls act origin handle : Nat) (addr unit : Dword) :
    s.logFault die typ cls act origin handle addr unit = s := if_pos h

/-- The scrubber goes on: only its position is written. -/
theorem scrubOn_eq (s : State) (die : Nat) : ∃ v, s.scrubOn die = s.csrPut 0x3A1 die v := by
  by_cases h : s.scrubAt die + 32 = (die + 1) * 2 ^ 37
  · exact ⟨_, if_pos h⟩
  · exact ⟨_, if_neg h⟩

theorem mark_scrubOn (s : State) (die b : Nat) : (s.scrubOn die).mark b = s.mark b := by
  obtain ⟨v, hv⟩ := scrubOn_eq s die
  rw [hv]
  rfl

theorem scrubbed_granule {p : Nat} (hg : s.badGranule p = some g) : s.scrubbed die p =
    ((tagPoisoned (fun i => s.place (g + 32 * i)) (List.range 2048) s).logFault die 5 0 0 9 0 (dw g) 0).scrubOn die := by
  unfold State.scrubbed
  rw [hg]
  rfl

theorem csr_tagPoisoned (place : Nat → Nat) (l : List Nat) (s : State) : (tagPoisoned place l s).csr = s.csr := by
  induction l generalizing s with
  | nil => rfl
  | cons i r ih => exact ih _

theorem logFault_tagPoisoned_off (place : Nat → Nat) (l : List Nat) (h : fld (s.csrGet 0x390 die) 0 1 = 0)
    (typ cls act origin handle : Nat) (addr unit : Dword) :
    (tagPoisoned place l s).logFault die typ cls act origin handle addr unit = tagPoisoned place l s := by
  refine logFault_off ?_ ..
  unfold State.csrGet at h ⊢
  rw [csr_tagPoisoned]
  exact h

theorem scrubbed_poisons {p i : Nat} (hg : s.badGranule p = some g) (hlog : fld (s.csrGet 0x390 die) 0 1 = 0) (hi : i < 2048) :
    ((s.scrubbed die p).mark (s.place (g + 32 * i))).origin ≠ 0 := by
  have hmem : i ∈ List.range 2048 := List.mem_range.2 hi
  rw [scrubbed_granule hg]
  generalize List.range 2048 = l at hmem ⊢
  rw [logFault_tagPoisoned_off _ _ hlog, mark_scrubOn]
  exact tagPoisoned_marks _ _ s _ (.inr ⟨i, hmem, rfl⟩)

theorem scrubbed_fine {p : Nat} (h : s.badGranule p = none) : s.scrubbed die p = s.scrubOn die := by
  unfold State.scrubbed
  rw [h]

/-- What a scrubber that is on does with what it finds. -/
theorem exec_scrubSector (hd : die ≤ 3) (hf : s.failed / 2 ^ die % 2 = 0) (hon : fld (s.csrGet 0x3A0 die) 63 1 = 1) (found : ScrubFind) :
    exec (.scrubSector die found) s =
      let p := s.scrubAt die
      match found with
      | .clean => .next (s.scrubbed die p)
      | .correctable => .next ((s.logFault die 3 0 0 5 0 (dw p) 0).scrubbed die p)
      | .uncorrectable =>
        if (s.mark p).origin = 5 then .next (s.scrubbed die p)
        else .next (((s.setMark p { origin := 5, addr := p }).logFault die 4 0 0 5 0 (dw p) 0).scrubbed die p)
      | .tagMismatch => if (s.badGranule p).isSome then .next (s.scrubbed die p) else .refused (.notEnabled "SCRUB_SECTOR") := by
  refine (show exec (.scrubSector die found) s = execScrubSector die found s from rfl).trans ((if_neg (by omega)).trans ?_)
  cases found <;> rfl

end Scrub

/-! ## Flushes and drains (R62, R96) -/

section Empty
variable {s t : State}

theorem exec_l2FlushComplete (h : s.flushStep = some t) : exec .l2FlushComplete s = .next t := by
  change execL2FlushComplete s = _
  unfold execL2FlushComplete
  rw [h]

theorem flushStep_ends {v : Nat} {lost : Bool} {by_ : Option Nat} (hf : s.flushing = some (v, lost, by_)) (ha : s.agenda = [])
    (hs : s.slices = []) : s.flushStep = some (s.endFlush v lost) := by
  unfold State.flushStep
  rw [hf]
  dsimp only
  rw [if_neg (not_not_intro ha), hs]
  rfl

theorem endFlush_mode {v : Nat} (hv : v < 2) (lost : Bool) : (s.endFlush v lost).flushing = none ∧
    fld ((s.endFlush v lost).csrGet 0x50 0) 0 1 = v ∧ fld ((s.endFlush v lost).csrGet 0x50 0) 4 4 = (if lost then 3 else 0) := by
  have hmode : (s.endFlush v lost).csrGet 0x50 0 = dw (v + (if lost then 48 else 0)) := State.csrGet_csrPut_same ..
  rw [hmode, fld_dw _ _ _ (by decide), fld_dw _ _ _ (by decide)]
  refine ⟨rfl, ?_, ?_⟩ <;> split <;> omega

theorem exec_rgsetDrainComplete (h : s.drainStep = some t) : exec .rgsetDrainComplete s = .next t := by
  change execRgsetDrainComplete s = _
  unfold execRgsetDrainComplete
  rw [h]

theorem drainStep_drained {d : RangeDrain} {rest : List RangeDrain} (ha : s.agenda = []) (hd : s.drains = d :: rest)
    (hdone : d.done = false) (hl : d.lines = []) : s.drainStep = some { s with drains := { d with done := true } :: rest } := by
  unfold State.drainStep
  rw [if_neg (not_not_intro ha), hd]
  dsimp only
  rw [hdone, if_neg (by decide), if_pos hl]

end Empty

/-- Settles O55: each event does what the equation of its `exec_` lemma gives; that the power events carry measured watts, and are refused
where the limit does not bear them out, is log 125. -/
theorem platformEvents : Obligations.PlatformEvents := by
  unfold Obligations.PlatformEvents
  refine ⟨fun s trip => ⟨_, exec_reset trip s, restart_keeps s trip .d0⟩, fun s watts => ?_, fun s port ok => ?_, fun s w late hlate => ?_,
    fun s => ?_, fun s die v pass => ?_, fun s t h => exec_l2FlushComplete h,
    fun s v lost by_ hf ha hs hv => ⟨_, exec_l2FlushComplete (flushStep_ends hf ha hs), endFlush_mode hv lost⟩,
    fun s t h => exec_rgsetDrainComplete h,
    fun s d rest ha hd hdone hl => exec_rgsetDrainComplete (drainStep_drained ha hd hdone hl)⟩
  · refine ⟨rfl, rfl, rfl, powerLimit_clamped s, fun h => ⟨(exec_powerOverLimit ..).trans (if_pos h),
      (exec_powerBelowLimit ..).trans (if_neg (by omega))⟩, fun h => (exec_powerBelowLimit ..).trans (if_pos h),
      fun h => (exec_powerOverLimit ..).trans (if_neg (by omega)), exec_d3hotEntry, exec_d0Return, fun h => ?_, fun hm hp => ?_,
      fun hm hp _ _ => ?_, exec_fullEntry_refused⟩
    · obtain ⟨-, hpower, hmem, hwaves, -⟩ := restart_keeps s false .d3cold
      exact ⟨_, exec_d3coldEntry h, hpower, hmem, hwaves⟩
    · refine ⟨fun hgood => ⟨_, exec_ochreEntry hm hp, ?_⟩, fun hbad => ?_⟩
      · rw [if_pos hgood]
        exact setPools_ochre s
      · rw [exec_ochreEntry hm hp, if_neg (by rw [hbad]; decide)]
    · exact ⟨⟨_, exec_fullEntry hm hp, enterService_keeps ..⟩, fun bad hb => ⟨_, exec_degradedEntry hm hp hb, enterService_keeps ..⟩⟩
  · intro st x load good hp hup
    have hflit := exec_tosorFlit_up ok hp hup
    dsimp only at hflit
    refine ⟨fun hok => ?_, fun hok hlock => ?_, fun hok hfew => ?_, fun hok hmany => ?_⟩
    · rw [hflit, if_pos hok]
    · rw [hflit, if_pos hok, cargo_unlocked hlock]
      simp only [List.contains_nil, Bool.not_false, List.filter_true, List.foldl_nil]
      rfl
    · rw [hflit, if_neg (by rw [hok]; decide)]
      exact if_pos hfew
    · refine ⟨_, hflit.trans ((if_neg (by rw [hok]; decide)).trans (if_neg (Nat.not_lt.2 hmany))), ?_, rfl⟩
      rw [State.csrGet_csrPut_same, fld_setFld_same _ (by omega), Nat.zero_mod]
  · have hover : ∀ l, s.overdue l = true ↔ late l := fun l => (overdue_iff l).trans (hlate l).symm
    exact ⟨fun l hl hw hl' => exec_tosorTimeout_due hl hw ((hover l).2 hl'),
      fun h => exec_tosorTimeout_early fun l hl hw ho => h l hl hw ((hover l).1 ho)⟩
  · obtain ⟨hmem, -, hgt⟩ := atRootTime_keeps s
    exact ⟨fun hm _ _ ht => ⟨_, exec_gtLockAcquired hm ht, gtLocked_withLock (atRootTime s) 1, hmem, hgt⟩,
      fun hm => (show exec .gtLockAcquired s = execGtLockAcquired s from rfl).trans (if_neg (by rcases hm with hm | hm <;> simp [hm])),
      ⟨_, rfl, gtLocked_withLock s 0, rfl⟩⟩
  · refine ⟨fun hc hs => ⟨_, exec_scanTestStart .., writeScan_begins hc hs⟩, fun hs => ⟨_, exec_scanTestStart .., writeScan_refused hs⟩,
      fun x hx hb hw hr hg => exec_scanPatternStart hx hb hw hr hg, fun x hx hb => scanTestComplete_effect pass hx hb,
      fun hd hf hon => ?_⟩
    have hscrub := exec_scrubSector hd hf hon
    refine ⟨hscrub .clean, hscrub .correctable, fun hm => ⟨(hscrub .uncorrectable).trans (if_neg hm), ?_⟩,
      fun hm => (hscrub .uncorrectable).trans (if_pos hm), fun hg => ⟨scrubbed_fine hg, (hscrub .tagMismatch).trans (if_neg ?_)⟩,
      fun g hg => ⟨(hscrub .tagMismatch).trans (if_pos ?_), fun hlog i hi => scrubbed_poisons hg hlog hi⟩⟩
    · rw [mark_setMark_same]
    · rw [hg]; decide
    · rw [hg]; rfl

end Sys2Proof.Proofs

/-! PROOFS. Records read and written by a handler (13/R330, R331): what a fold of writes over lanes leaves, the words of a record under
PRST, and PRLD. -/

namespace Sys2Proof.Proofs

open Sys2Proof.Machine

open Sys2Proof.Safety

/-! ## Lanes in ascending order (R211) -/

section Lanes
variable {σ α : Type} {f : σ → Nat → σ} {g : σ → α} {I : σ → Prop} {hit : Nat → Prop} {val : Nat → α} {ls : List Nat} {s : σ}

/-- What every step keeps holds after all of them. -/
theorem foldl_keeps (hI : ∀ t, ∀ l ∈ ls, I t → I (f t l)) (hs : I s) : I (ls.foldl f s) := by
  induction ls generalizing s with
  | nil => exact hs
  | cons l r ih => exact ih (fun t m hm => hI t m (List.mem_cons_of_mem _ hm)) (hI s l List.mem_cons_self hs)

/-- What no step writes stands. -/
theorem foldl_unwritten (hI : ∀ t, ∀ l ∈ ls, I t → I (f t l)) (hout : ∀ t, ∀ l ∈ ls, I t → g (f t l) = g t) (hs : I s) :
    g (ls.foldl f s) = g s := by
  induction ls generalizing s with
  | nil => rfl
  | cons l r ih =>
    have hrest := ih (fun t m hm => hI t m (List.mem_cons_of_mem _ hm)) (fun t m hm => hout t m (List.mem_cons_of_mem _ hm))
      (hI s l List.mem_cons_self hs)
    exact hrest.trans (hout s l List.mem_cons_self hs)

/-- Of the steps that write a place the last counts. -/
theorem foldl_last (hI : ∀ t, ∀ l ∈ ls, I t → I (f t l)) (hin : ∀ t, ∀ l ∈ ls, I t → hit l → g (f t l) = val l)
    (hout : ∀ t, ∀ l ∈ ls, I t → ¬ hit l → g (f t l) = g t) (hs : I s) (hsort : ls.Pairwise (· < ·)) {l : Nat} (hl : l ∈ ls)
    (hhit : hit l) (hlast : ∀ m ∈ ls, l < m → ¬ hit m) : g (ls.foldl f s) = val l := by
  induction ls generalizing s with
  | nil => exact absurd hl List.not_mem_nil
  | cons a r ih =>
    obtain ⟨ha, hr⟩ := List.pairwise_cons.1 hsort
    have hIr : ∀ t, ∀ m ∈ r, I t → I (f t m) := fun t m hm => hI t m (List.mem_cons_of_mem _ hm)
    have hnext := hI s a List.mem_cons_self hs
    obtain rfl | hlr := List.mem_cons.1 hl
    · exact (foldl_unwritten hIr (fun t m hm ht => hout t m (List.mem_cons_of_mem _ hm) ht (hlast m (List.mem_cons_of_mem _ hm) (ha m hm)))
        hnext).trans (hin s l List.mem_cons_self hs hhit)
    · exact ih hIr (fun t m hm => hin t m (List.mem_cons_of_mem _ hm)) (fun t m hm => hout t m (List.mem_cons_of_mem _ hm)) hnext hr hlr
        (fun m hm => hlast m (List.mem_cons_of_mem _ hm))

end Lanes

theorem lanes_sorted (w : Wave) : w.lanes.Pairwise (· < ·) := List.Pairwise.filter _ List.pairwise_lt_range

/-! ## The words of a record (R325, R330) -/

section Words
variable {s t u : State} {x y off o : Nat} {v : Dword} {r : Record}

theorem recWord_of_records (h : t.records = s.records) (x off : Nat) : t.recWord x off = s.recWord x off := by
  unfold State.recWord
  rw [h]

theorem records_issuedBy (u : State) (i : Instr) : (u.issuedBy i).records = u.records := by rw [issuedBy_eq u]

theorem records_spanOnly (h : SpanOnly s u) : u.records = s.records := by rw [show u = _ from h]

theorem find_update_other {α : Type} {m : Sparse α} {k j : Nat} (f : α → α) (h : j ≠ k) :
    Sparse.find (Sparse.update m k f) j = Sparse.find m j := by
  unfold Sparse.update
  split
  · exact Sparse.find_put_other _ _ h
  · rfl

theorem recWord_of_find (h : Sparse.find s.records x = some r) (off : Nat) : s.recWord x off = Sparse.get 0 r.words (off / 8) := by
  unfold State.recWord
  rw [h]

theorem recWord_congr (h : Sparse.find t.records x = Sparse.find s.records x) (off : Nat) : t.recWord x off = s.recWord x off := by
  unfold State.recWord
  rw [h]

/-- The bits of a word that PRST writes, by the record's first word. -/
def recKeep (w0 : Dword) (off : Nat) : Dword :=
  if (off = 0x20 ∨ off = 0x28) ∧ fld w0 1 1 = 0 then prstBits (fld w0 60 4) off &&& 0xFFFFFFFF else prstBits (fld w0 60 4) off

/-- The word that PRST leaves. -/
def recStored (s : State) (x off : Nat) (v : Dword) : Dword :=
  (v &&& recKeep (s.recWord x 0) off) ||| (s.recWord x off &&& ~~~ recKeep (s.recWord x 0) off)

/-- The first word, which names the unit's kind, is not written. -/
theorem recKeep_first (w0 : Dword) : recKeep w0 0 = 0#64 := by
  unfold recKeep prstBits
  simp

theorem recStored_first (s : State) (x : Nat) (v : Dword) : recStored s x 0 v = s.recWord x 0 := by
  unfold recStored
  rw [recKeep_first, BitVec.and_zero, BitVec.zero_or, BitVec.not_zero, BitVec.and_allOnes]

/-- The poison of a word of a record gone. -/
def dropMarks (s : State) (x off : Nat) : State :=
  { s with records := Sparse.update s.records x (fun r => { r with marks := r.marks.filter (fun e => decide (e.1 / 8 ≠ off / 8)) }) }

theorem storeRec_cases (s : State) (x off : Nat) (v : Dword) : s.storeRec x off v =
    if recKeep (s.recWord x 0) off = 0 then s.setRecWord x off (recStored s x off v)
    else dropMarks (s.setRecWord x off (recStored s x off v)) x off := rfl

theorem storeRec_eq (s : State) (x off : Nat) (v : Dword) : s.storeRec x off v = { s with records := (s.storeRec x off v).records } := by
  rw [storeRec_cases]
  split <;> rfl

/-- PRST of a lane writes one word of one record. -/
theorem storeRec_find (h : Sparse.find s.records x = some r) (off : Nat) (v : Dword) : ∃ q,
    Sparse.find (s.storeRec x off v).records x = some q ∧ q.words = Sparse.put r.words (off / 8) (recStored s x off v) ∧
    ∀ y, y ≠ x → Sparse.find (s.storeRec x off v).records y = Sparse.find s.records y := by
  have hset : Sparse.find (s.setRecWord x off (recStored s x off v)).records x =
      some { r with words := Sparse.put r.words (off / 8) (recStored s x off v) } := find_update_same h _
  have hother : ∀ y, y ≠ x → Sparse.find (s.setRecWord x off (recStored s x off v)).records y = Sparse.find s.records y :=
    fun y hy => find_update_other _ hy
  rw [storeRec_cases]
  split
  · exact ⟨_, hset, rfl, hother⟩
  · exact ⟨_, find_update_same hset _, rfl, fun y hy => (find_update_other _ hy).trans (hother y hy)⟩

theorem recWord_storeRec (h : Sparse.find s.records x = some r) (y o : Nat) : (s.storeRec x off v).recWord y o =
    if y = x ∧ o / 8 = off / 8 then recStored s x off v else s.recWord y o := by
  obtain ⟨q, hq, hwords, hother⟩ := storeRec_find h off v
  by_cases hy : y = x
  · subst hy
    rw [recWord_of_find hq, recWord_of_find h, hwords]
    by_cases ho : o / 8 = off / 8
    · rw [if_pos ⟨rfl, ho⟩, ho, Sparse.get_put_same]
    · rw [if_neg (fun hc => ho hc.2), Sparse.get_put_other _ _ _ ho]
  · rw [if_neg (fun hc => hy hc.1), recWord_congr (hother y hy)]

end Words

/-! ## PRST over lanes (R330) -/

section Store
variable {s : State} {x o : Nat} {arg : Nat → Nat} {val : Nat → Dword} {ls : List Nat} {r : Record}

/-- The lanes' writes, each of the word that the lane names. -/
def storeLanes (x : Nat) (arg : Nat → Nat) (val : Nat → Dword) (ls : List Nat) (s : State) : State :=
  ls.foldl (fun acc l => acc.storeRec x (arg l) (val l)) s

/-- The record stands, with its first word. -/
def SameFirst (x : Nat) (w0 : Dword) (t : State) : Prop := (∃ r, Sparse.find t.records x = some r) ∧ t.recWord x 0 = w0

theorem SameFirst.storeRec {t : State} {w0 v : Dword} {off : Nat} (h : SameFirst x w0 t) (ha : off % 8 = 0) :
    SameFirst x w0 (t.storeRec x off v) := by
  obtain ⟨⟨r, hr⟩, hfirst⟩ := h
  obtain ⟨q, hq, -⟩ := storeRec_find hr off v
  refine ⟨⟨q, hq⟩, ?_⟩
  rw [recWord_storeRec hr]
  split
  · next hc =>
    obtain rfl : off = 0 := by omega
    rw [recStored_first, hfirst]
  · exact hfirst

/-- Only records differ. -/
def RecordsOnly (s t : State) : Prop := t = { s with records := t.records }

theorem RecordsOnly.storeRec {t : State} (h : RecordsOnly s t) (off : Nat) (v : Dword) : RecordsOnly s (t.storeRec x off v) := by
  unfold RecordsOnly at *
  rw [storeRec_eq, h]

theorem storeLanes_eq (x : Nat) (arg : Nat → Nat) (val : Nat → Dword) (ls : List Nat) (s : State) :
    storeLanes x arg val ls s = { s with records := (storeLanes x arg val ls s).records } :=
  foldl_keeps (I := RecordsOnly s) (fun _ _ _ ht => ht.storeRec ..) rfl

section Aligned
variable (hr : Sparse.find s.records x = some r) (ha : ∀ l ∈ ls, arg l % 8 = 0)
include hr ha

theorem recWord_storeLanes_unwritten {y : Nat} (h : y ≠ x ∨ ∀ l ∈ ls, arg l / 8 ≠ o / 8) :
    (storeLanes x arg val ls s).recWord y o = s.recWord y o := by
  refine foldl_unwritten (g := fun t => t.recWord y o) (I := SameFirst x (s.recWord x 0)) (fun t l hl ht => ht.storeRec (ha l hl))
    (fun t l hl ht => ?_) ⟨⟨r, hr⟩, rfl⟩
  obtain ⟨⟨q, hq⟩, -⟩ := ht
  rw [recWord_storeRec hq, if_neg]
  rintro ⟨rfl, ho⟩
  obtain h | h := h
  · exact h rfl
  · exact h l hl ho.symm

/-- The bits that PRST does not write stand. -/
theorem recWord_storeLanes_kept (ho : o % 8 = 0) : (storeLanes x arg val ls s).recWord x o &&& ~~~ recKeep (s.recWord x 0) o =
    s.recWord x o &&& ~~~ recKeep (s.recWord x 0) o := by
  refine foldl_unwritten (g := fun t => t.recWord x o &&& ~~~ recKeep (s.recWord x 0) o) (I := SameFirst x (s.recWord x 0))
    (fun t l hl ht => ht.storeRec (ha l hl)) (fun t l hl ht => ?_) ⟨⟨r, hr⟩, rfl⟩
  obtain ⟨⟨q, hq⟩, hfirst⟩ := ht
  rw [recWord_storeRec hq]
  split
  · next hc =>
    obtain rfl : o = arg l := by have := ha l hl; omega
    rw [recStored, hfirst]
    ext i hi
    simp only [BitVec.getElem_and, BitVec.getElem_or, BitVec.getElem_not]
    grind
  · rfl

/-- The bits that PRST writes are those of the last lane that names the word. -/
theorem recWord_storeLanes_written (hsort : ls.Pairwise (· < ·)) {l : Nat} (hl : l ∈ ls) (hlast : ∀ m ∈ ls, l < m → arg m ≠ arg l) :
    (storeLanes x arg val ls s).recWord x (arg l) &&& recKeep (s.recWord x 0) (arg l) = val l &&& recKeep (s.recWord x 0) (arg l) := by
  refine foldl_last (g := fun t => t.recWord x (arg l) &&& recKeep (s.recWord x 0) (arg l)) (I := SameFirst x (s.recWord x 0))
    (hit := fun m => arg m = arg l) (val := fun m => val m &&& recKeep (s.recWord x 0) (arg l))
    (fun t m hm ht => ht.storeRec (ha m hm)) (fun t m hm ht he => ?_) (fun t m hm ht he => ?_) ⟨⟨r, hr⟩, rfl⟩ hsort hl rfl hlast
  · obtain ⟨⟨q, hq⟩, hfirst⟩ := ht
    rw [recWord_storeRec hq, if_pos ⟨rfl, by rw [he]⟩, recStored, hfirst, he]
    ext i hi
    simp only [BitVec.getElem_and, BitVec.getElem_or, BitVec.getElem_not]
    grind
  · obtain ⟨⟨q, hq⟩, -⟩ := ht
    rw [recWord_storeRec hq, if_neg]
    rintro ⟨-, hc⟩
    have := ha m hm
    have := ha l hl
    omega

theorem recWord_storeLanes_last (hsort : ls.Pairwise (· < ·)) {l : Nat} (hl : l ∈ ls) (hlast : ∀ m ∈ ls, l < m → arg m ≠ arg l) :
    (storeLanes x arg val ls s).recWord x (arg l) = recStored s x (arg l) (val l) := by
  have hwritten := recWord_storeLanes_written hr ha (val := val) hsort hl hlast
  have hkept := recWord_storeLanes_kept (arg := arg) (val := val) hr ha (ha l hl)
  rw [recStored, ← hwritten, ← hkept]
  ext i hi
  simp only [BitVec.getElem_and, BitVec.getElem_or, BitVec.getElem_not]
  grind

end Aligned

end Store

/-! ## PRLD and PRST (R330) -/

section Instructions
variable {s u : State} {d a : Reg} {i : Instr}

theorem laneArg_issuedBy (u : State) (i : Instr) (n l : Nat) : (u.issuedBy i).laneArg n l = (u.curWave.v (n + 1) l).toNat := by
  unfold State.laneArg
  rw [State.issuedBy_curWave]
  rfl

/-- Poison put in the registers of a wave that has completed. -/
theorem poisoned_completes {t : State} {w : Wave} {n : Nat} {f : Nat → Nat} (ho : OnlyRegs u t i) (hg : Gets u t d n f)
    (hw : w = { t.curWave with rpoison := w.rpoison }) : OnlyRegs u (t.setCur w) i ∧ Gets u (t.setCur w) d n f := by
  have hregs : t = (u.issuedBy i).setCur { (u.issuedBy i).curWave with regs := t.curWave.regs, rpoison := t.curWave.rpoison } := ho
  have hcur : t.curWave = { (u.issuedBy i).curWave with regs := t.curWave.regs, rpoison := t.curWave.rpoison } :=
    (congrArg State.curWave hregs).trans (State.curWave_setCur ..)
  refine ⟨?_, fun j l hl => ?_⟩
  · rw [OnlyRegs, State.curWave_setCur]
    calc t.setCur w = ((u.issuedBy i).setCur _).setCur w := congrArg (State.setCur · w) hregs
      _ = (u.issuedBy i).setCur w := State.setCur_setCur ..
      _ = _ := congrArg (u.issuedBy i).setCur (by rw [hw, hcur])
  · rw [State.curWave_setCur, hw]
    exact hg j l hl

theorem exec_prld_own (hs : s.isOwn (s.handle a) = true)
    (hc : s.recCheck (s.handle a) false false (s.curWave.lanes.map (fun l => (s.curWave.v (a.val + 1) l).toNat)) = none)
    (hi : Issues s (.prld d a) u) : ∃ t, exec (.prld d a) s = .next t ∧ OnlyRegs u t (.prld d a) ∧
      Gets u t d 2 (fun l => (u.recWord (handleRec (s.handle a)) (u.curWave.v (a.val + 1) l).toNat).toNat) := by
  have hown : (u.issuedBy (.prld d a)).isOwn (s.handle a) = true := by
    rw [isOwn_issuedBy, isOwn_spanOnly (span_spanOnly hi.2), hs]
  have hcheck : s.recCheck (s.handle a) false false (s.curWave.lanes.map (s.laneArg a)) = none := hc
  obtain ⟨honly, hgets⟩ := putLanes_completes u (.prld d a) d (fun l => (u.issuedBy (.prld d a)).recWord (handleRec (s.handle a))
    ((u.issuedBy (.prld d a)).laneArg a l))
  have hread : (fun l => ((u.issuedBy (.prld d a)).recWord (handleRec (s.handle a)) ((u.issuedBy (.prld d a)).laneArg a l)).toNat) =
      fun l => (u.recWord (handleRec (s.handle a)) (u.curWave.v (a.val + 1) l).toNat).toNat :=
    funext fun l => by rw [recWord_of_records (records_issuedBy u (.prld d a)), laneArg_issuedBy]
  rw [hread] at hgets
  have hexec := (show exec (.prld d a) s = execPrld d a s from rfl)
  unfold execPrld at hexec
  dsimp only at hexec
  rw [hcheck, issueWith_next (issuesAfter_of_prepared hi (linkPrep_own hs _)), if_pos hown] at hexec
  exact ⟨_, hexec, poisoned_completes honly hgets (by rw [Wave.markLanes_eq, Wave.markLanes_eq])⟩

/-- What the checks of a handle say where they pass: the record stands, and offsets are of 8-byte words. -/
theorem recCheck_passes {h : Word} {live wave : Bool} {offs : List Nat} (hc : s.recCheck h live wave offs = none) :
    (s.isOwn h = true → ∃ r, Sparse.find s.records (handleRec h) = some r) ∧ ∀ o ∈ offs, o % 8 = 0 := by
  unfold State.recCheck at hc
  simp only [recFault] at hc
  split at hc
  · cases hc
  split at hc
  · cases hc
  next hlive =>
  split at hc
  · cases hc
  split at hc
  · cases hc
  split at hc
  · cases hc
  next hoffs =>
  refine ⟨fun hown => ?_, fun o ho => ?_⟩
  · rw [hown, Bool.true_and, Bool.not_eq_true'] at hlive
    exact Option.isSome_iff_exists.1 (Bool.eq_true_of_not_eq_false hlive)
  · by_contra hne
    exact hoffs (List.any_eq_true.2 ⟨o, ho, by simp [hne]⟩)

theorem exec_prst_own (hs : s.isOwn (s.handle a) = true)
    (hc : s.recCheck (s.handle a) true false (s.curWave.lanes.map (fun l => (s.curWave.v (a.val + 1) l).toNat)) = none)
    (hi : Issues s (.prst d a) u) : u = s ∧ exec (.prst d a) s = .next (storeLanes (handleRec (s.handle a))
      (fun l => (u.curWave.v (a.val + 1) l).toNat) (fun l => u.curWave.v64 d l) u.curWave.lanes (u.issuedBy (.prst d a))) := by
  have hown : (u.issuedBy (.prst d a)).isOwn (s.handle a) = true := by
    rw [isOwn_issuedBy, isOwn_spanOnly (span_spanOnly hi.2), hs]
  have hcheck : s.recCheck (s.handle a) true false (s.curWave.lanes.map (s.laneArg a)) = none := hc
  have hexec := (show exec (.prst d a) s = execPrst d a s from rfl)
  unfold execPrst at hexec
  dsimp only at hexec
  rw [hcheck, issueWith_next (issuesAfter_of_prepared hi (linkPrep_own hs _)), if_pos hown] at hexec
  simp only [laneArg_issuedBy, State.issuedBy_curWave, Wave.issued_lanes, Wave.issued_v64] at hexec
  exact ⟨(Move.ok.inj ((span_of_noWrites s rfl).symm.trans hi.2)).symm, hexec⟩

end Instructions

end Sys2Proof.Proofs

/-! PROOFS. PRREG and PWREG (13/R332): what a selector names of a parked wave whose registers are resident, and what writes by selector
leave of it. -/

namespace Sys2Proof.Proofs

open Sys2Proof.Machine

open Sys2Proof.Safety

/-! ## Selectors of resident registers (R332) -/

section Selectors
variable {s t : State} {c x : Nat} {w : Wave} {a : Nat} {k : Access} {write : Bool}

/-- A selector of a vector register names one that is resident. -/
def Resident (w : Wave) (x : Nat) : Prop := selKind x = 0 → w.lo ≤ w.wb + selNum x

theorem selReach_resident (h : Resident w x) (s : State) (c : Nat) (k : Access) (n : Nat) : s.selReach c w k n x = [] := by
  unfold State.selReach
  by_cases hk : selKind x = 0
  · have hlo := h hk
    rw [if_neg (not_not_intro hk), List.map_eq_nil_iff, List.filter_eq_nil_iff]
    exact fun i _ => by simp only [decide_eq_true_eq]; omega
  · exact if_pos hk

/-- No lane fails where each names resident registers. -/
theorem selBad_resident (h : ∀ l ∈ s.curWave.lanes, Resident w (s.laneArg a l)) : s.selBad c w a k write = [] := by
  unfold State.selBad
  rw [List.filterMap_eq_nil_iff]
  intro l hl
  rw [selReach_resident (h l hl)]
  rfl

/-- The preparation of PRREG and PWREG on a record of the own package changes nothing. -/
theorem selPrep_own {h : Word} {i : Instr} (hown : s.isOwn h = true) (ht : s.selPrep i h a k write = .ok t) : t = s := by
  unfold State.selPrep at ht
  rw [linkPrep_own hown] at ht
  simp only [Move.bind, hown, if_true] at ht
  split at ht
  · cases ht
  · split at ht
    · cases ht
    · cases ht
      rfl

/-- What PRREG reads for a selector of resident registers. -/
def selValue (w : Wave) (x : Nat) : Nat :=
  if selKind x = 0 then
    (w.lreg (w.wb + selNum x) (x % w.width)).toNat + 2 ^ 32 * (w.lreg (w.wb + selNum x + 1) (x % w.width)).toNat
  else if selKind x = 1 then (w.kread (selNum x % 8)).toNat
  else if selKind x = 2 ∧ x % w.width % 4 ≠ 3 then bits (w.frame (selNum x % 8)).toNat (64 * (x % w.width % 4)) 64
  else 0

theorem toNat_dw_pair (p q : Word) : (dw (p.toNat + 2 ^ 32 * q.toNat)).toNat = p.toNat + 2 ^ 32 * q.toNat := by
  have hp := p.isLt
  have hq := q.isLt
  unfold dw
  rw [BitVec.toNat_ofNat]
  exact Nat.mod_eq_of_lt (by omega)

theorem toNat_dw_bits (n lo : Nat) : (dw (bits n lo 64)).toNat = bits n lo 64 := by
  unfold dw
  rw [BitVec.toNat_ofNat]
  exact Nat.mod_eq_of_lt (bits_lt n lo 64)

theorem selKind_lt (x : Nat) : selKind x < 4 := bits_lt x 12 2

theorem selRead_resident (h : Resident w x) (s : State) (c : Nat) : (s.selRead c w x).toNat = selValue w x := by
  have hlt := selKind_lt x
  unfold State.selRead selValue
  split
  · next hk =>
    have hlo := h hk
    rw [if_pos hk, State.parkedReg, State.parkedReg, if_neg (by omega), if_neg (by omega), toNat_dw_pair]
  · next hk => rw [if_neg (by omega), if_pos hk]
  · next hk =>
    rw [if_neg (show ¬ selKind x = 0 by omega), if_neg (show ¬ selKind x = 1 by omega)]
    split
    · next h3 => rw [if_neg (fun hc => hc.2 h3)]; rfl
    · next h3 => rw [if_pos ⟨hk, h3⟩, toNat_dw_bits]
  · next h0 h1 h2 =>
    rw [if_neg h0, if_neg h1, if_neg (fun hc => h2 hc.1)]
    rfl

/-- Issue leaves what selectors name of any wave. -/
theorem selValue_issuedBy (u : State) (i : Instr) (j x : Nat) : selValue ((u.issuedBy i).wave j) x = selValue (u.wave j) x ∧
    (Resident ((u.issuedBy i).wave j) x ↔ Resident (u.wave j) x) := by
  by_cases hj : j = u.cur
  · have hwave : (u.issuedBy i).wave j = u.curWave.issued (i.opnds u.curWave) (encode i) u.nextId := by
      rw [hj, ← State.issuedBy_curWave, State.curWave, State.issuedBy_cur]
    rw [hwave, hj]
    exact ⟨rfl, Iff.rfl⟩
  · rw [State.issuedBy_wave_other u i hj]
    exact ⟨rfl, Iff.rfl⟩

end Selectors

/-! ## PRREG (R332) -/

section Read
variable {s u : State} {d a : Reg} {i : Instr}

/-- The wave whose lanes of a list alone are active. -/
def onlyLanes (w : Wave) (good : List Nat) : Wave :=
  { w with exm := dw (maskOf w.width (fun l => good.contains l)), gmode := setFld w.gmode 0 3 0 }

/-- With its own active lanes a wave is active as before. -/
theorem active_onlyLanes (w : Wave) (l : Nat) : (onlyLanes w w.lanes).active l = w.active l := by
  have hwidth : w.width ≤ 64 := by unfold Wave.width; split <;> decide
  have hmask : bitOf (onlyLanes w w.lanes).exm l = (decide (l < w.width) && w.lanes.contains l) := bitOf_maskOf hwidth _ l
  have hmode : fld (onlyLanes w w.lanes).gmode 0 3 = 0 := (fld_setFld_same _ (by decide)).trans rfl
  have hlanes : w.lanes.contains l = (decide (l < w.width) && w.active l) := by
    rw [Bool.eq_iff_iff, List.contains_iff_mem, Wave.lanes, List.mem_filter, List.mem_range, Bool.and_eq_true, decide_eq_true_iff]
  have hactive : (onlyLanes w w.lanes).active l = (decide (l < w.width) && bitOf (onlyLanes w w.lanes).exm l &&
      (fld (onlyLanes w w.lanes).gmode 0 3 == 0 || bitOf ((onlyLanes w w.lanes).kread (fld (onlyLanes w w.lanes).gmode 0 3)) l)) := rfl
  rw [hactive, hmask, hmode, hlanes]
  by_cases hl : l < w.width
  · simp [hl]
  · simp [hl, Wave.active]

/-- A pair written with the lanes cut down to those active, and the lanes put back. -/
theorem putLanes_onlyLanes (u : State) (i : Instr) (d : Nat) (f : Nat → Dword) :
    let I := u.issuedBy i
    let t := (I.setCur (onlyLanes I.curWave I.curWave.lanes)).putLanes i d f
    let v := t.setCur { t.curWave with exm := I.curWave.exm, gmode := I.curWave.gmode }
    OnlyRegs u v i ∧ Gets u v d 2 (fun l => (f l).toNat) := by
  intro I t v
  set o := onlyLanes I.curWave I.curWave.lanes with ho
  set m := o.srcMark [] with hm
  have ht : t = (I.setCur o).setCur ((o.putVal d 2 (fun l => (f l).toNat)).markTo d 2 m) := by
    have := laneWrite_plain (I.setCur o) i d 2 [] (fun l => (f l).toNat)
    rwa [State.curWave_setCur] at this
  have hcur : t.curWave = (o.putVal d 2 (fun l => (f l).toNat)).markTo d 2 m := by rw [ht, State.curWave_setCur]
  have hv : v = I.setCur { t.curWave with exm := I.curWave.exm, gmode := I.curWave.gmode } := by
    show t.setCur _ = _
    rw [ht, State.setCur_setCur, State.setCur_setCur]
  have hvcur : v.curWave = { t.curWave with exm := I.curWave.exm, gmode := I.curWave.gmode } := by rw [hv, State.curWave_setCur]
  refine ⟨?_, fun j l hl => ?_⟩
  · rw [OnlyRegs, hvcur, hv]
    refine congrArg I.setCur ?_
    rw [hcur, Wave.markTo_eq, Wave.putVal_eq]
    rfl
  · have hissued : I.curWave = _ := State.issuedBy_curWave ..
    have hactive : ∀ l, o.active l = u.curWave.active l := fun l => (active_onlyLanes _ l).trans (by rw [hissued]; rfl)
    obtain ⟨hwidth, hwb, hholds, hregs⟩ : o.width = u.curWave.width ∧ o.wb = u.curWave.wb ∧ holds o = holds u.curWave ∧
        o.lreg = u.curWave.lreg := by
      rw [ho, hissued]
      exact ⟨rfl, rfl, rfl, rfl⟩
    have hlreg : v.curWave.lreg = (o.putVal d 2 (fun l => (f l).toNat)).lreg := by
      rw [hvcur, hcur]
      exact Wave.markTo_lreg ..
    rw [hlreg, Wave.lreg_putVal o d 2 _ (.inr rfl) j l (hwidth ▸ hl), hwb, hholds, hregs, hactive]

theorem exec_prreg (d a : Reg) (s : State) : exec (.prreg d a) s =
    s.issueWith (.prreg d a) (s.recCheck (s.handle a) false true []) (fun t => t.selPrep (.prreg d a) (s.handle a) a .load false)
      (fun t => match (if t.isOwn (s.handle a) ∧ t.recStatus (handleRec (s.handle a)) ≤ 3 then
          Sparse.find t.records (handleRec (s.handle a)) else none) with
        | none => (t.putLanes (.prreg d a) d t.foreign).draw
        | some r =>
          let bad := t.selBad (coreOfWave r.unit) (t.wave r.unit) a .load false
          let good := t.curWave.lanes.filter (fun l => !bad.any (fun b => b.1 == l))
          let t1 := good.foldl (fun (acc : State) l =>
            acc.touchReach (coreOfWave r.unit) (t.selReach (coreOfWave r.unit) (t.wave r.unit) .load 2 (t.laneArg a l)) false) t
          let t2 := (t1.setCur (onlyLanes t1.curWave good)).putLanes (.prreg d a) d
            (fun l => t.selRead (coreOfWave r.unit) (t.wave r.unit) (t.laneArg a l))
          (t2.setCur { t2.curWave with exm := t1.curWave.exm, gmode := t1.curWave.gmode }).parkSel (.prreg d a) bad) := rfl

/-- PRREG of resident registers gives each lane what its selector names. -/
theorem exec_prreg_own {r : Record} (hs : s.isOwn (s.handle a) = true) (hc : s.recCheck (s.handle a) false true [] = none)
    (hst : s.recStatus (handleRec (s.handle a)) ≤ 3) (hr : Sparse.find s.records (handleRec (s.handle a)) = some r)
    (hi : IssuesAfter s (fun t => t.selPrep (.prreg d a) (s.handle a) a .load false) (.prreg d a) u)
    (hres : ∀ l ∈ u.curWave.lanes, Resident (u.wave r.unit) (u.curWave.v (a.val + 1) l).toNat) :
    ∃ t, exec (.prreg d a) s = .next t ∧ OnlyRegs u t (.prreg d a) ∧
      Gets u t d 2 (fun l => selValue (u.wave r.unit) (u.curWave.v (a.val + 1) l).toNat) := by
  obtain ⟨v, hv, hspan⟩ := bind_eq_ok hi.2
  obtain rfl := selPrep_own hs hv
  have hspan := span_spanOnly hspan
  set I := u.issuedBy (.prreg d a) with hI
  have hrecords : I.records = v.records := (records_issuedBy ..).trans (records_spanOnly hspan)
  have hown : I.isOwn (v.handle a) = true := by rw [hI, isOwn_issuedBy, isOwn_spanOnly hspan, hs]
  have hstatus : I.recStatus (handleRec (v.handle a)) ≤ 3 := by
    unfold State.recStatus at hst ⊢
    rwa [recWord_of_records hrecords]
  have hlanes : I.curWave.lanes = u.curWave.lanes := by rw [hI, State.issuedBy_curWave]; rfl
  have hall : ∀ l ∈ I.curWave.lanes, Resident (I.wave r.unit) (I.laneArg a l) := fun l hl => by
    rw [hI, laneArg_issuedBy, (selValue_issuedBy u _ r.unit _).2]
    exact hres l (hlanes ▸ hl)
  have hbad : I.selBad (coreOfWave r.unit) (I.wave r.unit) a .load false = [] := selBad_resident hall
  have htouch : I.curWave.lanes.foldl (fun (acc : State) l => acc.touchReach (coreOfWave r.unit)
      (I.selReach (coreOfWave r.unit) (I.wave r.unit) .load 2 (I.laneArg a l)) false) I = I :=
    foldl_keeps (I := fun t => t = I) (fun t l hl ht => by rw [selReach_resident (hall l hl), ht]; rfl) rfl
  have hexec := (exec_prreg d a v).trans (by rw [hc, issueWith_next hi, ← hI, if_pos ⟨hown, hstatus⟩, hrecords, hr])
  dsimp only at hexec
  have hgood : I.curWave.lanes.filter (fun l => !([] : List (Nat × Nat × Dword × Dword)).any (fun b => b.1 == l)) = I.curWave.lanes :=
    List.filter_eq_self.2 (fun _ _ => rfl)
  rw [hbad, hgood, htouch] at hexec
  obtain ⟨honly, hgets⟩ := putLanes_onlyLanes u (.prreg d a) d
    (fun l => I.selRead (coreOfWave r.unit) (I.wave r.unit) (I.laneArg a l))
  refine ⟨_, hexec, honly, fun j l hl => (hgets j l hl).trans ?_⟩
  split
  · next hin =>
    obtain ⟨-, -, -, hact⟩ := hin
    have hmem : l ∈ I.curWave.lanes := by
      rw [hlanes]
      exact List.mem_filter.2 ⟨List.mem_range.2 hl, hact⟩
    dsimp only
    rw [selRead_resident (hall l hmem), hI, laneArg_issuedBy, (selValue_issuedBy u _ r.unit _).1]
  · rfl

end Read

/-! ## PWREG (R332) -/

section Write
variable {s t u : State} {w p : Wave} {id x j m y : Nat} {v : Dword} {d a : Reg}

/-- All that writes by selector change of a wave. -/
def SelOnly (p w : Wave) : Prop := w = { p with regs := w.regs, rpoison := w.rpoison, k := w.k, frames := w.frames }

/-- Lane m of a vector register written, where the register is one of the wave's. -/
def selReg (m : Nat) (v : Dword) (n i : Nat) (w : Wave) : Wave :=
  if w.lo ≤ n + i ∧ n + i < w.hi ∧ n + i < w.stkmax then
    (w.lwrite (n + i) (fun l => if l = m then some (wd (fld v (32 * i) 32)) else none)).setLmark (n + i) m .none
  else w

/-- What PWREG leaves of the parked wave for one lane's selector. -/
def selPut (x : Nat) (v : Dword) (w : Wave) : Wave :=
  match selKind x with
  | 0 => (List.range (selCount true x)).foldl (fun acc i => selReg (x % w.width) v (w.wb + selNum x) i acc) w
  | 1 => w.kwrite (selNum x % 8) v
  | 2 => if x % w.width % 4 = 0 ∧ fld v 0 1 = 0 then
      w.setFrame (selNum x % 8) { w.frame (selNum x % 8) with v := false } else w
  | _ => w

theorem SelOnly.refl (p : Wave) : SelOnly p p := rfl

theorem SelOnly.trans {q : Wave} (h : SelOnly p w) (g : SelOnly w q) : SelOnly p q := by
  unfold SelOnly at *
  rw [g, h]

theorem SelOnly.shape (h : SelOnly p w) : w.wb = p.wb ∧ w.lo = p.lo ∧ w.hi = p.hi ∧ w.width = p.width ∧ w.stkmax = p.stkmax := by
  rw [show w = _ from h]
  exact ⟨rfl, rfl, rfl, rfl, rfl⟩

theorem selReg_selOnly (m : Nat) (v : Dword) (n i : Nat) (w : Wave) : SelOnly w (selReg m v n i w) := by
  unfold SelOnly selReg
  split
  · rw [Wave.lwrite_eq]
    rfl
  · rfl


theorem selKind_cases (x : Nat) : selKind x = 0 ∨ selKind x = 1 ∨ selKind x = 2 ∨ selKind x = 3 := by
  have := selKind_lt x
  omega

theorem selPut_vector (hk : selKind x = 0) : selPut x v w =
    (List.range (selCount true x)).foldl (fun acc i => selReg (x % w.width) v (w.wb + selNum x) i acc) w := by
  unfold selPut
  rw [hk]
  rfl

theorem selPut_mask (hk : selKind x = 1) : selPut x v w = w.kwrite (selNum x % 8) v := by
  unfold selPut
  rw [hk]
  rfl

theorem selPut_frame (hk : selKind x = 2) : selPut x v w = if x % w.width % 4 = 0 ∧ fld v 0 1 = 0 then
    w.setFrame (selNum x % 8) { w.frame (selNum x % 8) with v := false } else w := by
  unfold selPut
  rw [hk]
  rfl

theorem selPut_nothing (hk : selKind x = 3) : selPut x v w = w := by
  unfold selPut
  rw [hk]
  rfl

theorem selPut_selOnly (x : Nat) (v : Dword) (w : Wave) : SelOnly w (selPut x v w) := by
  unfold selPut
  split
  · exact foldl_keeps (I := SelOnly w) (fun t i _ ht => ht.trans (selReg_selOnly ..)) rfl
  · unfold SelOnly
    rw [kwrite_eq]
  · split <;> rfl
  · rfl

/-- Changes of one wave in turn. -/
theorem foldl_modLive (f : Nat → Wave → Wave) (l : List Nat) (hw : Sparse.find s.waves id = some w) :
    l.foldl (fun acc i => acc.modLive id (f i)) s = { s with waves := (l.foldl (fun acc i => acc.modLive id (f i)) s).waves } ∧
      Sparse.find (l.foldl (fun acc i => acc.modLive id (f i)) s).waves id = some (l.foldl (fun acc i => f i acc) w) := by
  induction l generalizing s w with
  | nil => exact ⟨rfl, hw⟩
  | cons i r ih =>
    obtain ⟨heq, hfind⟩ := ih (s := s.modLive id (f i)) (find_update_same hw (f i))
    exact ⟨heq, hfind⟩

theorem selWrite_vector (hw : s.wave id = w) (hk : selKind x = 0) (h : w.lo ≤ w.wb + selNum x) (v : Dword) : s.selWrite id x v =
    (List.range (selCount true x)).foldl (fun acc i => acc.modLive id (selReg (x % w.width) v (w.wb + selNum x) i)) s := by
  unfold State.selWrite
  dsimp only
  rw [hw, hk]
  exact List.foldl_ext _ _ _ fun acc i _ => if_neg (by omega)

/-- A selector's write to a parked wave whose registers are resident is one of the wave alone. -/
theorem selWrite_resident (hw : Sparse.find s.waves id = some w) (h : Resident w x) (v : Dword) :
    s.selWrite id x v = { s with waves := (s.selWrite id x v).waves } ∧
      Sparse.find (s.selWrite id x v).waves id = some (selPut x v w) := by
  have hwave := wave_of_find hw
  obtain hk | hk | hk | hk := selKind_cases x
  · rw [selWrite_vector hwave hk (h hk), selPut_vector hk]
    exact foldl_modLive _ _ hw
  · rw [selPut_mask hk, State.selWrite, hk]
    exact ⟨rfl, find_update_same hw _⟩
  · have hframe : s.selWrite id x v = if x % (s.wave id).width % 4 = 0 ∧ fld v 0 1 = 0 then
        s.modLive id (fun u => u.setFrame (selNum x % 8) { u.frame (selNum x % 8) with v := false }) else s := by
      rw [State.selWrite, hk]
      rfl
    rw [selPut_frame hk, hframe, hwave]
    split
    · exact ⟨rfl, find_update_same hw _⟩
    · exact ⟨rfl, hw⟩
  · rw [selPut_nothing hk, State.selWrite, hk]
    exact ⟨rfl, hw⟩

/-- The lanes' writes of a parked wave. -/
def selPuts (arg : Nat → Nat) (val : Nat → Dword) (ls : List Nat) (w : Wave) : Wave := ls.foldl (fun acc l => selPut (arg l) (val l) acc) w

theorem Resident.of_selOnly {w : Wave} (h : Resident p x) (hw : SelOnly p w) : Resident w x := by
  obtain ⟨hwb, hlo, -⟩ := hw.shape
  unfold Resident
  rw [hwb, hlo]
  exact h

/-- The lanes' writes through selectors of resident registers. -/
theorem foldl_selWrite (arg : Nat → Nat) (val : Nat → Dword) {ls : List Nat} (h : ∀ l ∈ ls, Resident p (arg l)) (hsel : SelOnly p w)
    (hw : Sparse.find s.waves id = some w) :
    ls.foldl (fun (acc : State) l => acc.selWrite id (arg l) (val l)) s =
        { s with waves := (ls.foldl (fun (acc : State) l => acc.selWrite id (arg l) (val l)) s).waves } ∧
      Sparse.find (ls.foldl (fun (acc : State) l => acc.selWrite id (arg l) (val l)) s).waves id = some (selPuts arg val ls w) := by
  induction ls generalizing s w with
  | nil => exact ⟨rfl, hw⟩
  | cons l r ih =>
    obtain ⟨heq, hfind⟩ := selWrite_resident hw ((h l List.mem_cons_self).of_selOnly hsel) (val l)
    obtain ⟨heqs, hfinds⟩ := ih (fun m hm => h m (List.mem_cons_of_mem _ hm)) (hsel.trans (selPut_selOnly (arg l) (val l) w)) hfind
    refine ⟨?_, hfinds⟩
    simp only [List.foldl_cons]
    rw [heqs, heq]

theorem selPuts_selOnly (arg : Nat → Nat) (val : Nat → Dword) (ls : List Nat) (p : Wave) : SelOnly p (selPuts arg val ls p) :=
  foldl_keeps (I := SelOnly p) (fun _ _ _ ht => ht.trans (selPut_selOnly ..)) rfl

/-! ### What each lane's write leaves -/

theorem selCount_eq (x : Nat) : selCount true x = if selPair x = true then 2 else 1 := by
  unfold selCount
  cases selPair x <;> rfl

theorem mod_width_lt (w : Wave) (x : Nat) : x % w.width < w.width :=
  Nat.mod_lt _ (by unfold Wave.width; split <;> decide)

/-- A register's lane is one of the wave's. -/
def InStack (w : Wave) (j : Nat) : Prop := w.lo ≤ j ∧ j < w.hi ∧ j < w.stkmax

theorem lreg_selReg_written {n i : Nat} (hj : InStack w (n + i)) (hm : m < w.width) (v : Dword) :
    (selReg m v n i w).lreg (n + i) m = wd (fld v (32 * i) 32) := by
  obtain ⟨hlo, hhi, hstk⟩ := hj
  have hholds : holds w (n + i) = true := by simp [holds, hlo, hhi, hstk]
  rw [selReg, if_pos ⟨hlo, hhi, hstk⟩]
  refine (Wave.lreg_lwrite w (n + i) _ (n + i) m hm).trans ?_
  rw [if_pos ⟨rfl, hholds⟩, if_pos rfl]
  rfl

theorem lreg_selReg_other {n i l : Nat} (h : j = n + i → l ≠ m) (hl : l < w.width) (v : Dword) :
    (selReg m v n i w).lreg j l = w.lreg j l := by
  unfold selReg
  split
  · refine (Wave.lreg_lwrite w (n + i) _ j l hl).trans ?_
    split
    · next hc =>
      rw [if_neg (h hc.1), hc.1]
      rfl
    · rfl
  · rfl

theorem lreg_selPut_written {i : Nat} (hk : selKind x = 0) (hi : i < selCount true x) (hj : InStack w (w.wb + selNum x + i)) (v : Dword) :
    (selPut x v w).lreg (w.wb + selNum x + i) (x % w.width) = wd (fld v (32 * i) 32) := by
  rw [selPut_vector hk]
  refine foldl_last (g := fun t => t.lreg (w.wb + selNum x + i) (x % w.width)) (I := SelOnly w) (hit := (· = i))
    (val := fun q => wd (fld v (32 * q) 32)) (fun t q _ ht => ht.trans (selReg_selOnly ..)) (fun t q _ ht hq => ?_)
    (fun t q _ ht hq => ?_) (.refl w) List.pairwise_lt_range (List.mem_range.2 hi) rfl (fun q _ hq => Nat.ne_of_gt hq)
  · obtain ⟨-, hlo, hhi, hwidth, hstk⟩ := ht.shape
    subst hq
    exact lreg_selReg_written (by rwa [InStack, hlo, hhi, hstk]) (by rw [hwidth]; exact mod_width_lt w x) v
  · obtain ⟨-, -, -, hwidth, -⟩ := ht.shape
    exact lreg_selReg_other (by omega) (by rw [hwidth]; exact mod_width_lt w x) v

theorem lreg_selPut_other {l : Nat} (hl : l < w.width)
    (h : selKind x = 0 → x % w.width = l → j < w.wb + selNum x ∨ w.wb + selNum x + selCount true x ≤ j) (v : Dword) :
    (selPut x v w).lreg j l = w.lreg j l := by
  obtain hk | hk | hk | hk := selKind_cases x
  · rw [selPut_vector hk]
    refine foldl_unwritten (g := fun t => t.lreg j l) (I := SelOnly w) (fun t q _ ht => ht.trans (selReg_selOnly ..))
      (fun t q hq ht => ?_) (.refl w)
    obtain ⟨-, -, -, hwidth, -⟩ := ht.shape
    have hlt := List.mem_range.1 hq
    exact lreg_selReg_other (fun hj hm => by have := h hk hm.symm; omega) (hwidth ▸ hl) v
  · rw [selPut_mask hk, kwrite_eq]
    rfl
  · rw [selPut_frame hk]
    split <;> rfl
  · rw [selPut_nothing hk]

/-- Vector registers written leave masks and frames. -/
theorem selPut_vector_keeps (hk : selKind x = 0) (v : Dword) (w : Wave) :
    (selPut x v w).kread = w.kread ∧ (selPut x v w).frames = w.frames := by
  have hstep : ∀ (n i : Nat) (m : Nat) (t : Wave), (selReg m v n i t).kread = t.kread ∧ (selReg m v n i t).frames = t.frames := by
    intro n i m t
    unfold selReg
    split
    · rw [Wave.lwrite_eq]
      exact ⟨rfl, rfl⟩
    · exact ⟨rfl, rfl⟩
  rw [selPut_vector hk]
  exact foldl_keeps (I := fun t : Wave => t.kread = w.kread ∧ t.frames = w.frames)
    (fun t q _ ht => ⟨(hstep ..).1.trans ht.1, (hstep ..).2.trans ht.2⟩) ⟨rfl, rfl⟩

theorem cut_cut (w : Wave) (v : Dword) : w.cut (w.cut v) = w.cut v := by
  unfold Wave.cut dw
  refine BitVec.eq_of_toNat_eq ?_
  simp only [BitVec.toNat_ofNat]
  unfold Wave.width
  split <;> omega

theorem kread_kwrite_same {n : Nat} (hn : n ≠ 0) (w : Wave) (v : Dword) : (w.kwrite n v).kread n = w.cut v := by
  unfold Wave.kread Wave.kwrite
  rw [if_neg hn, if_neg hn]
  refine Eq.trans ?_ (cut_cut w v)
  exact congrArg w.cut (Sparse.get_put_same ..)

theorem kread_selPut_written (hk : selKind x = 1) (hn : selNum x % 8 ≠ 0) (v : Dword) (w : Wave) :
    (selPut x v w).kread (selNum x % 8) = w.cut v := by
  rw [selPut_mask hk]
  exact kread_kwrite_same hn w v

theorem kread_selPut_other (h : y = 0 ∨ (selKind x = 1 → selNum x % 8 ≠ y)) (v : Dword) (w : Wave) :
    (selPut x v w).kread y = w.kread y := by
  obtain hk | hk | hk | hk := selKind_cases x
  · rw [(selPut_vector_keeps hk v w).1]
  · rw [selPut_mask hk]
    refine kread_kwrite_other ?_
    obtain rfl | h := h
    · exact .inr rfl
    · exact .inl (Ne.symm (h hk))
  · rw [selPut_frame hk]
    split <;> rfl
  · rw [selPut_nothing hk]

/-- A selector that clears V of a frame. -/
def Clears (width x : Nat) (v : Dword) : Prop := selKind x = 2 ∧ x % width % 4 = 0 ∧ fld v 0 1 = 0

/-- A frame with V cleared. -/
def unset (f : Frame) : Frame := { f with v := false }

theorem frame_selPut_cleared (h : Clears w.width x v) : (selPut x v w).frame (selNum x % 8) = unset (w.frame (selNum x % 8)) := by
  obtain ⟨hk, hat, hv⟩ := h
  rw [selPut_frame hk, if_pos ⟨hat, hv⟩]
  exact Sparse.get_put_same ..

theorem frame_selPut_other (h : Clears w.width x v → selNum x % 8 ≠ y) : (selPut x v w).frame y = w.frame y := by
  obtain hk | hk | hk | hk := selKind_cases x
  · unfold Wave.frame
    rw [(selPut_vector_keeps hk v w).2]
  · rw [selPut_mask hk, kwrite_eq]
    rfl
  · rw [selPut_frame hk]
    split
    · next hc => exact Sparse.get_put_other _ _ _ (Ne.symm (h ⟨hk, hc.1, hc.2⟩))
    · rfl
  · rw [selPut_nothing hk]

/-- A frame stands or loses V. -/
theorem frame_selPut_cases (x : Nat) (v : Dword) (w : Wave) (y : Nat) :
    (selPut x v w).frame y = w.frame y ∨ (selPut x v w).frame y = unset (w.frame y) := by
  by_cases h : Clears w.width x v ∧ selNum x % 8 = y
  · obtain ⟨hc, rfl⟩ := h
    exact .inr (frame_selPut_cleared hc)
  · exact .inl (frame_selPut_other fun hc hy => h ⟨hc, hy⟩)

theorem unset_frame_selPut (x : Nat) (v : Dword) (w : Wave) (y : Nat) : unset ((selPut x v w).frame y) = unset (w.frame y) := by
  obtain h | h := frame_selPut_cases x v w y <;> rw [h]
  rfl

/-- Once cleared a frame stays. -/
theorem frame_selPut_unset {f : Frame} (hw : w.frame y = unset f) (x : Nat) (v : Dword) : (selPut x v w).frame y = unset f := by
  obtain h | h := frame_selPut_cases x v w y <;> rw [h, hw]
  rfl

/-! ### What the lanes' writes leave -/

section Puts
variable {arg : Nat → Nat} {val : Nat → Dword} {ls : List Nat}

/-- A selector names lane l of register j. -/
def NamesReg (p : Wave) (x j l : Nat) : Prop :=
  selKind x = 0 ∧ x % p.width = l ∧ p.wb + selNum x ≤ j ∧ j < p.wb + selNum x + selCount true x

theorem lreg_selPut_hit {l : Nat} (hs : SelOnly p w) (hj : InStack p j) (hh : NamesReg p x j l) (v : Dword) :
    (selPut x v w).lreg j l = wd (fld v (32 * (j - (p.wb + selNum x))) 32) := by
  obtain ⟨hk, rfl, hge, hlt⟩ := hh
  obtain ⟨hwb, hlo, hhi, hwidth, hstk⟩ := hs.shape
  have hij : w.wb + selNum x + (j - (p.wb + selNum x)) = j := by rw [hwb]; omega
  have hin : InStack w (w.wb + selNum x + (j - (p.wb + selNum x))) := by rwa [hij, InStack, hlo, hhi, hstk]
  have hwritten := lreg_selPut_written hk (by omega) hin v
  rwa [hij, hwidth] at hwritten

theorem lreg_selPut_miss {l : Nat} (hs : SelOnly p w) (hl : l < p.width) (hh : ¬ NamesReg p x j l) (v : Dword) :
    (selPut x v w).lreg j l = w.lreg j l := by
  obtain ⟨hwb, -, -, hwidth, -⟩ := hs.shape
  refine lreg_selPut_other (hwidth ▸ hl) (fun hk hat => ?_) v
  rw [hwidth] at hat
  rw [hwb]
  by_contra hne
  exact hh ⟨hk, hat, by omega, by omega⟩

theorem lreg_selPuts_last (hj : InStack p j) {l : Nat} (hl : l ∈ ls) (hh : NamesReg p (arg l) j m)
    (hlast : ∀ q ∈ ls, l < q → ¬ NamesReg p (arg q) j m) (hsort : ls.Pairwise (· < ·)) :
    (selPuts arg val ls p).lreg j m = wd (fld (val l) (32 * (j - (p.wb + selNum (arg l)))) 32) := by
  have hm : m < p.width := hh.2.1 ▸ mod_width_lt p (arg l)
  exact foldl_last (g := fun t => t.lreg j m) (I := SelOnly p) (hit := fun q => NamesReg p (arg q) j m)
    (val := fun q => wd (fld (val q) (32 * (j - (p.wb + selNum (arg q)))) 32)) (fun _ _ _ ht => ht.trans (selPut_selOnly ..))
    (fun _ _ _ ht hq => lreg_selPut_hit ht hj hq _) (fun _ _ _ ht hq => lreg_selPut_miss ht hm hq _) (.refl p) hsort hl hh hlast

theorem lreg_selPuts_other (hm : m < p.width) (h : ∀ l ∈ ls, ¬ NamesReg p (arg l) j m) : (selPuts arg val ls p).lreg j m = p.lreg j m :=
  foldl_unwritten (g := fun t => t.lreg j m) (I := SelOnly p) (fun _ _ _ ht => ht.trans (selPut_selOnly ..))
    (fun _ l hl ht => lreg_selPut_miss ht hm (h l hl) _) (.refl p)

theorem kread_selPuts_last {l : Nat} (hl : l ∈ ls) (hk : selKind (arg l) = 1) (hn : selNum (arg l) % 8 ≠ 0)
    (hlast : ∀ q ∈ ls, l < q → ¬ (selKind (arg q) = 1 ∧ selNum (arg q) % 8 = selNum (arg l) % 8)) (hsort : ls.Pairwise (· < ·)) :
    (selPuts arg val ls p).kread (selNum (arg l) % 8) = p.cut (val l) := by
  refine foldl_last (g := fun t => t.kread (selNum (arg l) % 8)) (I := SelOnly p)
    (hit := fun q => selKind (arg q) = 1 ∧ selNum (arg q) % 8 = selNum (arg l) % 8) (val := fun q => p.cut (val q))
    (fun _ _ _ ht => ht.trans (selPut_selOnly ..)) (fun t q _ ht hq => ?_) (fun t q _ _ hq => ?_) (.refl p) hsort hl ⟨hk, rfl⟩ hlast
  · obtain ⟨hkq, hnq⟩ := hq
    obtain ⟨-, -, -, hwidth, -⟩ := ht.shape
    have hcut : t.cut (val q) = p.cut (val q) := by rw [Wave.cut, Wave.cut, hwidth]
    have hwritten := kread_selPut_written hkq (hnq ▸ hn) (val q) t
    rw [hnq] at hwritten
    exact hwritten.trans hcut
  · exact kread_selPut_other (.inr fun hkq hnq => hq ⟨hkq, hnq⟩) _ t

theorem kread_selPuts_other (h : y = 0 ∨ ∀ l ∈ ls, selKind (arg l) = 1 → selNum (arg l) % 8 ≠ y) :
    (selPuts arg val ls p).kread y = p.kread y :=
  foldl_unwritten (g := fun t => t.kread y) (I := fun _ => True) (fun _ _ _ _ => trivial)
    (fun t l hl _ => kread_selPut_other (h.imp_right fun h => h l hl) _ t) trivial

theorem frame_selPuts_other (h : ∀ l ∈ ls, Clears p.width (arg l) (val l) → selNum (arg l) % 8 ≠ y) :
    (selPuts arg val ls p).frame y = p.frame y :=
  foldl_unwritten (g := fun t => t.frame y) (I := SelOnly p) (fun _ _ _ ht => ht.trans (selPut_selOnly ..))
    (fun t l hl ht => frame_selPut_other (by rw [ht.shape.2.2.2.1]; exact h l hl)) (.refl p)

/-- A frame that a lane clears stays as it was but for V. -/
theorem frame_selPuts_cleared {l : Nat} (hl : l ∈ ls) (h : Clears p.width (arg l) (val l)) :
    (selPuts arg val ls p).frame (selNum (arg l) % 8) = unset (p.frame (selNum (arg l) % 8)) := by
  obtain ⟨pre, post, rfl⟩ := List.append_of_mem hl
  have hwidth : (selPuts arg val pre p).width = p.width := (selPuts_selOnly arg val pre p).shape.2.2.2.1
  have hpre : unset ((selPuts arg val pre p).frame (selNum (arg l) % 8)) = unset (p.frame (selNum (arg l) % 8)) :=
    foldl_unwritten (g := fun t : Wave => unset (t.frame (selNum (arg l) % 8))) (I := fun _ => True) (fun _ _ _ _ => trivial)
      (fun t q _ _ => unset_frame_selPut (arg q) (val q) t _) trivial
  have hat : (selPut (arg l) (val l) (selPuts arg val pre p)).frame (selNum (arg l) % 8) = unset (p.frame (selNum (arg l) % 8)) :=
    (frame_selPut_cleared (hwidth ▸ h)).trans hpre
  have happend : selPuts arg val (pre ++ l :: post) p =
      post.foldl (fun acc q => selPut (arg q) (val q) acc) (selPut (arg l) (val l) (selPuts arg val pre p)) := by
    unfold selPuts
    rw [List.foldl_append, List.foldl_cons]
  rw [happend]
  exact foldl_keeps (I := fun t : Wave => t.frame (selNum (arg l) % 8) = unset (p.frame (selNum (arg l) % 8)))
    (fun t q _ ht => frame_selPut_unset ht (arg q) (val q)) hat

end Puts

/-! ### PWREG -/

theorem exec_pwreg (d a : Reg) (s : State) : exec (.pwreg d a) s =
    s.issueWith (.pwreg d a) (s.recCheck (s.handle a) true true []) (fun t => t.selPrep (.pwreg d a) (s.handle a) a .store true)
      (fun t => match (if t.isOwn (s.handle a) then Sparse.find t.records (handleRec (s.handle a)) else none) with
        | none => t
        | some r =>
          let bad := t.selBad (coreOfWave r.unit) (t.wave r.unit) a .store true
          ((t.curWave.lanes.filter (fun l => !bad.any (fun b => b.1 == l))).foldl
            (fun (acc : State) l => acc.selWrite r.unit (t.laneArg a l) (t.curWave.v64 d l)) t).parkSel (.pwreg d a) bad) := rfl

/-- PWREG of resident registers writes the parked wave, lane after lane, and nothing else. -/
theorem exec_pwreg_own {r : Record} (hs : s.isOwn (s.handle a) = true) (hc : s.recCheck (s.handle a) true true [] = none)
    (hr : Sparse.find u.records (handleRec (s.handle a)) = some r) (hcur : r.unit ≠ u.cur)
    (hlive : (Sparse.find u.waves r.unit).isSome = true)
    (hi : IssuesAfter s (fun t => t.selPrep (.pwreg d a) (s.handle a) a .store true) (.pwreg d a) u)
    (hres : ∀ l ∈ u.curWave.lanes, Resident (u.wave r.unit) (u.curWave.v (a.val + 1) l).toNat) :
    ∃ t, exec (.pwreg d a) s = .next t ∧ t.mem = (u.issuedBy (.pwreg d a)).mem ∧ t.wave r.unit =
      selPuts (fun l => (u.curWave.v (a.val + 1) l).toNat) (fun l => u.curWave.v64 d l) u.curWave.lanes (u.wave r.unit) := by
  obtain ⟨v, hv, hspan⟩ := bind_eq_ok hi.2
  obtain rfl := selPrep_own hs hv
  have hspan := span_spanOnly hspan
  set I := u.issuedBy (.pwreg d a) with hI
  have hown : I.isOwn (v.handle a) = true := by rw [hI, isOwn_issuedBy, isOwn_spanOnly hspan, hs]
  have hwave : I.wave r.unit = u.wave r.unit := State.issuedBy_wave_other u _ hcur
  obtain ⟨p, hp⟩ := Option.isSome_iff_exists.1 hlive
  have hfind : Sparse.find I.waves r.unit = some p := by
    rw [hI, State.issuedBy, State.charge_waves]
    exact (Sparse.find_put_other _ _ hcur).trans hp
  have hparked : u.wave r.unit = p := wave_of_find hp
  have hlanes : I.curWave.lanes = u.curWave.lanes := by rw [hI, State.issuedBy_curWave]; rfl
  have hbad : I.selBad (coreOfWave r.unit) (I.wave r.unit) a .store true = [] := selBad_resident fun l hl => by
    rw [hI, laneArg_issuedBy, ← hI, hwave]
    exact hres l (hlanes ▸ hl)
  have hgood : u.curWave.lanes.filter (fun l => !([] : List (Nat × Nat × Dword × Dword)).any (fun b => b.1 == l)) = u.curWave.lanes :=
    List.filter_eq_self.2 (fun _ _ => rfl)
  have hexec := (exec_pwreg d a v).trans (by rw [hc, issueWith_next hi, ← hI, if_pos hown, hI, records_issuedBy, hr, ← hI])
  dsimp only at hexec
  rw [hbad, hlanes, hgood] at hexec
  have hargs : ∀ l, I.laneArg a l = (u.curWave.v (a.val + 1) l).toNat := laneArg_issuedBy u _ a
  have hvals : ∀ l, I.curWave.v64 d l = u.curWave.v64 d l := fun l => by rw [hI, State.issuedBy_curWave]; rfl
  have hstays : ∀ t : State, t.parkSel (.pwreg d a) [] = t := fun _ => rfl
  simp only [hargs, hvals, hstays] at hexec
  obtain ⟨heq, hput⟩ := foldl_selWrite (fun l => (u.curWave.v (a.val + 1) l).toNat) (fun l => u.curWave.v64 d l)
    (fun l hl => hparked ▸ hres l hl) (.refl p) hfind
  exact ⟨_, hexec, by rw [heq], (wave_of_find hput).trans (by rw [hparked])⟩

end Write

end Sys2Proof.Proofs

/-! PROOFS. The record instructions together (13/R330 to R332). -/

namespace Sys2Proof.Proofs

open Sys2Proof.Machine

open Sys2Proof.Safety

section Records
variable {s u : State} {d a : Reg} {i : Instr}

/-- An instruction issues after a check of its own. -/
def Checks (s : State) (i : Instr) (own : Option (Nat × Dword × Dword)) : Prop :=
  ∃ prep body, exec i s = s.issueWith i own prep body

theorem checks_prld (d a : Reg) (s : State) : Checks s (.prld d a)
    (s.recCheck (s.handle a) false false (s.curWave.lanes.map (fun l => (s.curWave.v (a.val + 1) l).toNat))) := by
  unfold Checks
  rw [show exec (.prld d a) s = execPrld d a s from rfl, execPrld]
  exact ⟨_, _, rfl⟩

theorem checks_prst (d a : Reg) (s : State) : Checks s (.prst d a)
    (s.recCheck (s.handle a) true false (s.curWave.lanes.map (fun l => (s.curWave.v (a.val + 1) l).toNat))) := by
  unfold Checks
  rw [show exec (.prst d a) s = execPrst d a s from rfl, execPrst]
  exact ⟨_, _, rfl⟩

theorem checks_ending {e : Wave → Ending} (h : exec i s = s.ending i a e) : Checks s i (s.recCheck (s.handle a) true false []) := by
  unfold Checks
  rw [h, State.ending]
  exact ⟨_, _, rfl⟩

/-- A check that fails parks before issue. -/
theorem Checks.parks {own : Option (Nat × Dword × Dword)} {cls : Nat} {fa fi : Dword} (h : Checks s i own) (hc : own = some (cls, fa, fi))
    (hp : passes s i = true) : ∃ t, exec i s = .next t ∧ ParksBefore s t cls fa fi := by
  obtain ⟨prep, body, hexec⟩ := h
  rw [hexec, hc]
  exact issueWith_parksBefore hp

theorem record_check_parks {offs : List Nat} {lv wv : Bool} {os : List Nat} {cls : Nat} {fa fi : Dword}
    (ho : offs = s.curWave.lanes.map (fun l => (s.curWave.v (a.val + 1) l).toNat))
    (hm : (i, lv, wv, os) ∈ [(Instr.prld d a, false, false, offs), (.prst d a, true, false, offs),
        (.prreg d a, false, true, []), (.pwreg d a, true, true, []), (.presume a, true, false, []),
        (.pretry a, true, false, []), (.predir d a, true, false, []), (.pkill a, true, false, [])])
    (hp : passes s i = true) (hc : s.recCheck (s.handle a) lv wv os = some (cls, fa, fi)) :
    ∃ t, exec i s = .next t ∧ ParksBefore s t cls fa fi := by
  subst ho
  simp only [List.mem_cons, List.not_mem_nil, or_false, Prod.mk.injEq] at hm
  rcases hm with ⟨rfl, rfl, rfl, rfl⟩ | ⟨rfl, rfl, rfl, rfl⟩ | ⟨rfl, rfl, rfl, rfl⟩ | ⟨rfl, rfl, rfl, rfl⟩ | ⟨rfl, rfl, rfl, rfl⟩ |
    ⟨rfl, rfl, rfl, rfl⟩ | ⟨rfl, rfl, rfl, rfl⟩ | ⟨rfl, rfl, rfl, rfl⟩
  · exact (checks_prld d a s).parks hc hp
  · exact (checks_prst d a s).parks hc hp
  · exact Checks.parks ⟨_, _, exec_prreg d a s⟩ hc hp
  · exact Checks.parks ⟨_, _, exec_pwreg d a s⟩ hc hp
  · exact (checks_ending (e := fun _ => .resume) rfl).parks hc hp
  · exact (checks_ending (e := fun _ => .retry) rfl).parks hc hp
  · exact (checks_ending (e := fun w => .redirect (w.v64 d w.uniform)) rfl).parks hc hp
  · exact (checks_ending (e := fun _ => .kill) rfl).parks hc hp

/-- PRST changes the words named, in the bits that may be written. -/
theorem exec_prst_effect (hs : s.isOwn (s.handle a) = true)
    (hc : s.recCheck (s.handle a) true false (s.curWave.lanes.map (fun l => (s.curWave.v (a.val + 1) l).toNat)) = none)
    (hi : Issues s (.prst d a) u) :
    let x := handleRec (s.handle a)
    let arg := fun l => (u.curWave.v (a.val + 1) l).toNat
    ∃ t, exec (.prst d a) s = .next t ∧ t.waves = (u.issuedBy (.prst d a)).waves ∧ t.mem = (u.issuedBy (.prst d a)).mem ∧
      (∀ y o, y ≠ x → t.recWord y o = u.recWord y o) ∧
      (∀ o, (∀ l ∈ u.curWave.lanes, arg l / 8 ≠ o / 8) → t.recWord x o = u.recWord x o) ∧
      ∀ l ∈ u.curWave.lanes, (∀ m ∈ u.curWave.lanes, l < m → arg m ≠ arg l) →
        t.recWord x (arg l) = recStored u x (arg l) (u.curWave.v64 d l) := by
  intro x arg
  obtain ⟨rfl, hexec⟩ := exec_prst_own hs hc hi
  obtain ⟨hlive, haligned⟩ := recCheck_passes hc
  obtain ⟨r, hr⟩ := hlive hs
  set I := u.issuedBy (.prst d a) with hI
  have hrecords : I.records = u.records := records_issuedBy ..
  have hrI : Sparse.find I.records x = some r := by rw [hrecords]; exact hr
  have hwords : ∀ y o, I.recWord y o = u.recWord y o := recWord_of_records hrecords
  have ha : ∀ l ∈ u.curWave.lanes, arg l % 8 = 0 := fun l hl => haligned _ (List.mem_map.2 ⟨l, hl, rfl⟩)
  have heq := storeLanes_eq x arg (fun l => u.curWave.v64 d l) u.curWave.lanes I
  refine ⟨_, hexec, by rw [heq], by rw [heq], fun y o hy => ?_, fun o ho => ?_, fun l hl hlast => ?_⟩
  · exact (recWord_storeLanes_unwritten hrI ha (.inl hy)).trans (hwords y o)
  · exact (recWord_storeLanes_unwritten hrI ha (.inr ho)).trans (hwords x o)
  · refine (recWord_storeLanes_last hrI ha (lanes_sorted _) hl hlast).trans ?_
    rw [recStored, hwords, hwords]
    rfl

end Records

/-- Settles O45: PRST and PWREG are folds over the active lanes, in which the last lane that names a place counts (`foldl_last`); PRREG and
PWREG of resident registers fail for no lane (`selBad_resident`). -/
theorem recordInstructions : Obligations.RecordInstructions := by
  unfold Obligations.RecordInstructions
  intro s u d a h x hs w arg offs
  refine ⟨fun hc hi => exec_prld_own hs hc hi, fun hc hi => exec_prst_effect hs hc hi, fun r hc hst hr hi => exec_prreg_own hs hc hst hr hi,
    fun r hc hr hcur hlive hi => ?_, fun i lv wv os cls fa fi hm hp hc => record_check_parks rfl hm hp hc⟩
  intro p n at_ k pair cleared hres
  obtain ⟨t, hexec, hmem, hwave⟩ := exec_pwreg_own hs hc hr hcur hlive hi hres
  have hsort : w.lanes.Pairwise (· < ·) := lanes_sorted w
  have hpair : ∀ l, selCount true (arg l) = pair l := fun l => selCount_eq _
  refine ⟨t, hexec, hmem, ?_⟩
  rw [hwave]
  refine ⟨fun l hl i hk hi hhi hstk hlast => ?_, fun j m hm hnone => ?_, fun l hl hk hn hlast => ?_, fun y hy => kread_selPuts_other hy,
    fun l hl hc => frame_selPuts_cleared hl hc, fun y hy => frame_selPuts_other hy⟩
  · have hlo : p.lo ≤ n l := hres l hl hk
    have hnames : NamesReg p (arg l) (n l + i) (at_ l) := ⟨hk, rfl, Nat.le_add_right .., by rw [hpair]; exact Nat.add_lt_add_left hi _⟩
    refine (lreg_selPuts_last (arg := arg) ⟨Nat.le_trans hlo (Nat.le_add_right ..), hhi, hstk⟩ hl hnames (fun q hq hlt hh => ?_) hsort).trans ?_
    · obtain ⟨hkq, hat, hge, hltq⟩ := hh
      rw [hpair] at hltq
      obtain hbelow | habove := hlast q hq hlt hkq hat
      · exact absurd hge (Nat.not_le.2 hbelow)
      · exact absurd hltq (Nat.not_lt.2 habove)
    · rw [show n l + i - (p.wb + selNum (arg l)) = i from Nat.add_sub_cancel_left ..]
  · refine lreg_selPuts_other hm fun l hl hh => ?_
    obtain ⟨hk, hat, hge, hlt⟩ := hh
    rw [hpair] at hlt
    obtain hbelow | habove := hnone l hl hk hat
    · exact absurd hge (Nat.not_le.2 hbelow)
    · exact absurd hlt (Nat.not_lt.2 habove)
  · exact kread_selPuts_last hl hk hn (fun q hq hlt hh => hlast q hq hlt hh.1 hh.2) hsort

end Sys2Proof.Proofs
